-- ==== Sys2Proof/Word.lean ====
section
/-! DEFINITION. The word types of the Gojhar 7140 (spec/00_scope.md, section 0.6.1). -/

namespace Sys2Proof

/-- One byte of the exchange memory or of a wheel link telegram. -/
abbrev Byte := BitVec 8

/-- "A word is 16 bits" (section 0.6.1): the unit of every exchange memory access (R1). -/
abbrev Word := BitVec 16

/-- A 32-bit quantity: the drive clock, the stamps and the counts that occupy two words (R1). -/
abbrev Long := BitVec 32

end Sys2Proof
end

