-- ==== Sys2Proof/Syntax.lean ====
section
/-! DEFINITION. The commands of the Gojhar 7140: one constructor of `Instr` per row of
spec/opcode_table.json, and the names that their operands take. The part is a block, not a
processor: a command is an access by the host, an order, a pin event, a telegram, or an event of
one of the part's own timers. -/

namespace Sys2Proof

/-- Wheels 1 to 4: rear left, rear right, front left, front right (section 0.3). -/
inductive Wheel where
  | w1 | w2 | w3 | w4
  deriving DecidableEq, Repr

/-- Grid banks 1 to 6, each one resistor grid and its chopper (section 0.5). -/
inductive Bank where
  | b1 | b2 | b3 | b4 | b5 | b6
  deriving DecidableEq, Repr

/-- The five units of the wheel link (section 3.1). -/
inductive UnitId where
  | wheel (w : Wheel)
  | sau
  deriving DecidableEq, Repr

/-- Chopper channels 1 to 6 belong to the banks, channel 7 drives the blower (section 7.1). -/
inductive Channel where
  | bank (b : Bank)
  | blower
  deriving DecidableEq, Repr

/-- The three guarded words of the configuration (section 2.4). -/
inductive GuardedWord where
  | profile | arrangement | steerSource
  deriving DecidableEq, Repr

/-- The resources that a lasting order holds (section 1.5). -/
inductive Resource where
  | grid | steer | enroll
  deriving DecidableEq, Repr

/-- The result codes of an order (section 1.5.1), in the order of their codes 0 to 9. -/
inductive Result where
  | ok | badKind | badArgument | wrongMode | busy | conflict | aborted | timeout | unitAbsent
  | interrupted
  deriving DecidableEq, Repr

/-- The level of an input pin at a sample. -/
inductive Level where
  | low | high
  deriving DecidableEq, Repr

/-- The order in which the three receivers of one accepted report take it. R49 says that "none is
ordered against another", so the order is an operand of the arrival: every order is admitted.
The receivers are numbered as the arrival lists them. -/
inductive HandOff where
  | o123 | o132 | o213 | o231 | o312 | o321
  deriving DecidableEq, Repr

/-- The commands, in the order of spec/opcode_table.json. An order cell index, a bus address and a
register number carry as many bits as the hardware gives them, so that every operand exists. -/
inductive Instr where
  /-- POWER_ON (R30). -/
  | powerOn
  /-- RESET_PIN_ASSERT (R30). -/
  | resetPinAssert
  /-- RESET_PIN_RELEASE (R30). -/
  | resetPinRelease
  /-- DRIVE_CLOCK_TICK (R5). -/
  | driveClockTick
  /-- HOST_WORD_WRITE (R1): address lines A13..A1 and the word on D15..D0. -/
  | hostWordWrite (address : BitVec 13) (value : Word)
  /-- READY_MARK_WRITE (R27): the value the host writes at 0x0006. -/
  | readyMarkWrite (value : Word)
  /-- GUARD_CHECK (R28). -/
  | guardCheck
  /-- GUARDED_COPY_UPSET (R28): which internal copy is altered, and what it then holds. -/
  | guardedCopyUpset (copy : GuardedWord) (value : Word)
  /-- SOFT_RESTART (R23). -/
  | softRestart
  /-- CHAIN_RESTART (R16): bits 6..0 of the PART_CONTROL write. -/
  | chainRestart (index : BitVec 7)
  /-- ATTN_POLL (R20). -/
  | attnPoll
  /-- ATTN_END_SPECIFIC (R21): bits 3..0 of the ATTN_END write. -/
  | attnEndSpecific (cls : BitVec 4)
  /-- ATTN_END_NON_SPECIFIC (R21). -/
  | attnEndNonSpecific
  /-- ATTN_MASK_WRITE (R22). -/
  | attnMaskWrite (value : Word)
  /-- ATTN_THRESHOLD_WRITE (R22). -/
  | attnThresholdWrite (value : Word)
  /-- REGISTER_WRITE_IGNORED (R23): the word offset with RS high, and the word written. -/
  | registerWriteIgnored (register : BitVec 3) (value : Word)
  /-- CHAIN_SCAN (R11). -/
  | chainScan
  /-- SET_LIMITS (R100): the cell the ORE took, and argument words 0 to 2. -/
  | setLimits (cell : BitVec 6) (forward reverse cap : Word)
  /-- LOAD_ENVELOPE (R130). -/
  | loadEnvelope (cell : BitVec 6)
  /-- CLEAR_FAULTS (R183): argument word 0 is the forget flag. -/
  | clearFaults (cell : BitVec 6) (forget : Word)
  /-- ENTER_STANDBY (R73): argument words 0 and 1. -/
  | enterStandby (cell : BitVec 6) (keepLink keepBlower : Word)
  /-- LEAVE_STANDBY (R74). -/
  | leaveStandby (cell : BitVec 6)
  /-- APPLY_CONFIG (R35). -/
  | applyConfig (cell : BitVec 6)
  /-- GRID_TEST (R139): argument words 0 to 2. -/
  | gridTest (cell : BitVec 6) (banks duty count : Word)
  /-- STEER_CALIBRATE (R156). -/
  | steerCalibrate (cell : BitVec 6)
  /-- ROLL_CALL (R52). -/
  | rollCall (cell : BitVec 6)
  /-- ABORT (R15): argument word 0 names the cell whose lasting order is to end. -/
  | abort (cell : BitVec 6) (index : Word)
  /-- ORDER_COMPLETION (R14): the resource, the cell the owner kept, the result and 8 detail words. -/
  | orderCompletion (resource : Resource) (cell : BitVec 6) (result : Result) (detail : List Word)
  /-- DEMAND_SAMPLE (R59). -/
  | demandSample
  /-- STOP_TIME_EXPIRY (R71). -/
  | stopTimeExpiry
  /-- SETTLE_TIME_EXPIRY (R33). -/
  | settleTimeExpiry
  /-- ROUND_START (R45). -/
  | roundStart
  /-- DRIVE_TRANSMIT (R46). -/
  | driveTransmit (wheel : Wheel)
  /-- STEER_TRANSMIT (R47). -/
  | steerTransmit
  /-- ROLL_TRANSMIT (R42). -/
  | rollTransmit (unit : UnitId)
  /-- QUIET_TRANSMIT (R56). -/
  | quietTransmit
  /-- ROLL_ANSWER_ARRIVAL (R50): the bytes of the telegram, first byte first. -/
  | rollAnswerArrival (bytes : List Byte)
  /-- REPORT_ARRIVAL (R49); the receivers are 1 the TCU, 2 the PRU, 3 the CFL. -/
  | reportArrival (bytes : List Byte) (order : HandOff)
  /-- STEER_REPORT_ARRIVAL (R151); the receivers are 1 the STC, 2 the TCU, 3 the PRU. -/
  | steerReportArrival (bytes : List Byte) (order : HandOff)
  /-- REPLY_WINDOW_EXPIRY (R48). -/
  | replyWindowExpiry
  /-- ALLOCATION_EVENT (R78). -/
  | allocationEvent
  /-- GRID_DEMAND_ARRIVAL (R132). -/
  | gridDemandArrival
  /-- LINK_VOLTAGE_SAMPLE (R122): the reading of the link sense input, in volts. -/
  | linkVoltageSample (volts : Nat)
  /-- FILTERED_UPDATE (R122). -/
  | filteredUpdate
  /-- LINK_UNDERVOLT_SET (R170). -/
  | linkUndervoltSet
  /-- LINK_UNDERVOLT_CLEAR (R170). -/
  | linkUndervoltClear
  /-- HOLD_UPDATE (R125). -/
  | holdUpdate
  /-- ENVELOPE_EXCEEDED_SET (R129). -/
  | envelopeExceededSet
  /-- ENVELOPE_EXCEEDED_CLEAR (R129). -/
  | envelopeExceededClear
  /-- SHORTFALL_ADD (R142). -/
  | shortfallAdd
  /-- SHORTFALL_REMOVE (R142). -/
  | shortfallRemove
  /-- ROTATION_REVIEW (R131). -/
  | rotationReview
  /-- CHANNEL_PERIOD_START (R135). -/
  | channelPeriodStart (channel : Channel)
  /-- ON_EXPIRY (R134). -/
  | onExpiry (channel : Channel)
  /-- DISCHARGE_EXPIRY (R138). -/
  | dischargeExpiry
  /-- PULSE_EXPIRY (R144). -/
  | pulseExpiry
  /-- CALIBRATION_EXPIRY (R158). -/
  | calibrationExpiry
  /-- THERMAL_SAMPLE (R161): the BLOWER_RUN input, active high. -/
  | thermalSample (blowerRun : Level)
  /-- GRID_HOT_CLEAR (R164). -/
  | gridHotClear (bank : Bank)
  /-- BLOWER_FAIL_SET (R165). -/
  | blowerFailSet
  /-- BLOWER_FAIL_CLEAR (R165). -/
  | blowerFailClear
  /-- WINDING_HOT_SET (R166). -/
  | windingHotSet (wheel : Wheel)
  /-- WINDING_HOT_CLEAR (R166). -/
  | windingHotClear (wheel : Wheel)
  /-- DISCRETE_INPUT_SAMPLE (R182): the level of the EXTERNAL_STOP input. -/
  | discreteInputSample (externalStop : Level)
  /-- EXTERNAL_STOP_ACTIVE (R182). -/
  | externalStopActive
  /-- EXTERNAL_STOP_INACTIVE (R182). -/
  | externalStopInactive
  /-- SUPPLY_FALL (R30). -/
  | supplyFall
  deriving DecidableEq, Repr

end Sys2Proof
end

