-- ==== Sys2Proof/Decode.lean ====
section
/-! DEFINITION. The decoder over the rows of spec/opcode_table.json that give bits, and the command that
a write of the register window is. -/

namespace Sys2Proof

/-- No row of spec/opcode_table.json gives bits (every "fields" is empty and no row has "fixed"), so
no word spells a command: the commands of this block come from pins, buses and timers. -/
def decodeTableWord (_nbits _w : Nat) : Option Instr := none

/-- The command of a PART_CONTROL word: the request in bits 15 to 12, the cell index in bits 6 to 0; any
other request is ignored (R23). That bits 11 to 7 are ignored is the model's choice (assumption log 46). -/
def partControl (value : Word) : Instr :=
  if value.extractLsb' 12 4 = 0xA then .softRestart
  else if value.extractLsb' 12 4 = 0x5 then .chainRestart (value.extractLsb' 0 7)
  else .registerWriteIgnored 1 value

/-- The command of an ATTN_END word: with bit 15 set the specific form, its class in bits 3 to 0, and
otherwise the non-specific form (R21, section 1.9). That the other bits are ignored is the model's choice
(assumption log 46). -/
def attnEnd (value : Word) : Instr :=
  if value.getLsbD 15 then .attnEndSpecific (value.extractLsb' 0 4) else .attnEndNonSpecific

/-- The command that a host write is with RS high, by the register that A1 to A3 select (section 1.9,
R22, R23). -/
def registerWrite (register : BitVec 3) (value : Word) : Instr :=
  match register.toNat with
  | 1 => partControl value
  | 3 => attnEnd value
  | 4 => .attnMaskWrite value
  | 5 => .attnThresholdWrite value
  | _ => .registerWriteIgnored register value

end Sys2Proof
end

