-- ==== Sys2Proof/Config.lean ====
section
/-! DEFINITION. What the spec fixes for the part as constants, and the one value it leaves open to
this model. -/

namespace Sys2Proof.Config

/-- Header offset 0x0000 (section 1.2). -/
def vendorCode : Word := 0x0FC4
/-- Header offset 0x0002 (section 1.2): 7140. -/
def partCode : Word := 0x1BE4
/-- Header offset 0x0004 (section 1.2). -/
def revision : Word := 1
/-- The value of the configuration ready mark that asks for a validation (section 2.3). -/
def readyMark : Word := 0x3C96
/-- A directory word that names no block (section 1.2). -/
def absentWord : Word := 0xFFFF
/-- The offset at which the first status block is placed (section 3.3). -/
def firstBlock : Nat := 0x2100
/-- R85: kW at a speed in 0.1 rpm into N·m. -/
def powerConstant : Nat := 95493

/-- FREE VALUE (assumption log 12). The part of an ON phase, in µs, that has run when a change of
channel state cuts it (R134). The manual gives the value as the time actually on; the model keeps no
time finer than 1 ms, so the value is open. It is applied to a counter of `State` and limited to the
on-time of the pulse that is cut. -/
opaque cutTime : Nat → Nat

end Sys2Proof.Config
end

