-- ==== Sys2Proof/Machine/Params.lean ====
section
/-! DEFINITION. The configuration parameters of section 2.2: one resolved value for every field of
the configuration block, the wheels and banks that it configures, and the defaults. -/

namespace Sys2Proof

/-- One value for each wheel 1 to 4. -/
structure PerWheel (α : Type) where
  w1 : α
  w2 : α
  w3 : α
  w4 : α
  deriving DecidableEq, Repr

/-- One value for each grid bank 1 to 6. -/
structure PerBank (α : Type) where
  b1 : α
  b2 : α
  b3 : α
  b4 : α
  b5 : α
  b6 : α
  deriving DecidableEq, Repr

namespace PerWheel
variable {α β : Type}

def get (p : PerWheel α) : Wheel → α
  | .w1 => p.w1
  | .w2 => p.w2
  | .w3 => p.w3
  | .w4 => p.w4

def set (p : PerWheel α) (w : Wheel) (a : α) : PerWheel α :=
  match w with
  | .w1 => { p with w1 := a }
  | .w2 => { p with w2 := a }
  | .w3 => { p with w3 := a }
  | .w4 => { p with w4 := a }

def ofFn (f : Wheel → α) : PerWheel α := ⟨f .w1, f .w2, f .w3, f .w4⟩

def fill (a : α) : PerWheel α := ⟨a, a, a, a⟩

end PerWheel

namespace PerBank
variable {α β : Type}

def get (p : PerBank α) : Bank → α
  | .b1 => p.b1
  | .b2 => p.b2
  | .b3 => p.b3
  | .b4 => p.b4
  | .b5 => p.b5
  | .b6 => p.b6

def set (p : PerBank α) (b : Bank) (a : α) : PerBank α :=
  match b with
  | .b1 => { p with b1 := a }
  | .b2 => { p with b2 := a }
  | .b3 => { p with b3 := a }
  | .b4 => { p with b4 := a }
  | .b5 => { p with b5 := a }
  | .b6 => { p with b6 := a }

def ofFn (f : Bank → α) : PerBank α := ⟨f .b1, f .b2, f .b3, f .b4, f .b5, f .b6⟩

def fill (a : α) : PerBank α := ⟨a, a, a, a, a, a⟩

end PerBank

namespace Machine

/-- Wheel numbers 1 to 4. -/
def wheelNum : Wheel → Nat
  | .w1 => 1
  | .w2 => 2
  | .w3 => 3
  | .w4 => 4

/-- Bank numbers 1 to 6. -/
def bankNum : Bank → Nat
  | .b1 => 1
  | .b2 => 2
  | .b3 => 3
  | .b4 => 4
  | .b5 => 5
  | .b6 => 6

/-- The wheels in rank order (section 0.5). -/
def allWheels : List Wheel := [.w1, .w2, .w3, .w4]

/-- The banks in ascending order. -/
def allBanks : List Bank := [.b1, .b2, .b3, .b4, .b5, .b6]

/-- The units of the wheel link in rank order: wheel 1 to wheel 4, then the SAU (section 3.1). -/
def allUnits : List UnitId := [.wheel .w1, .wheel .w2, .wheel .w3, .wheel .w4, .sau]

/-- The active configuration: "One resolved value for every field of the block" (section 2.1), in
the order of the table of section 2.2. The three guarded words hold no pattern (0) until a
configuration is accepted. -/
structure Params where
  profile : Word
  arrangement : Word
  steerSource : Word
  bankCount : Nat
  allocCode : Nat
  rounding : Nat
  tCont : Nat
  tPeak : Nat
  peakTime : Nat
  recovery : Nat
  rUp : Nat
  rDown : Nat
  nFloor : Nat
  groundFactor : Nat
  maxForward : Nat
  maxReverse : Nat
  propelCap : Nat
  lambdaOn : Nat
  lambdaOff : Nat
  nOn : Nat
  cut : Nat
  sMin : Nat
  sStep : Nat
  vFloor : Nat
  slideTime : Nat
  vFade : Nat
  kp : Nat
  ki : Nat
  dSafe : Nat
  vReg : Nat
  kTrim : Nat
  vTrip : Nat
  vMin : Nat
  vLow : Nat
  chopperPeriod : Nat
  minTime : Nat
  resistance : PerBank Nat
  capacity : PerBank Nat
  gNat : Nat
  gBlow : Nat
  thetaOn : Nat
  thetaTrip : Nat
  thetaBs : Nat
  thetaBf : Nat
  designAmbient : Nat
  thetaStart : Nat
  outputMode : Nat
  lock : Nat
  highSpeedAngle : Nat
  rateLo : Nat
  trackTol : Nat
  wheelbase : Nat
  halfTrack : Nat
  assistSpeed : Nat
  assistGain : Nat
  reserveHi : Nat
  reserveLo : Nat
  ratedPayload : Nat
  windingOnset : Nat
  windingLimit : Nat
  roundPeriod : Nat
  missLimit : Nat
  freshLimit : Nat
  holdLimit : Nat
  demandWake : Nat
  stopMode : Nat
  overrides : List Nat
  priorities : List Nat
  envelope : List Nat
  deriving DecidableEq, Repr

/-- The default action of fault kinds 1 to 21 as an override code: NOTE 0, EXCLUDE 1, SAFE_STOP 2,
TRIP 3 (section 10.3, R175). -/
def defaultOverrides : List Nat :=
  [1, 1, 1, 0, 0, 0, 1, 2, 2, 2, 3, 0, 0, 2, 0, 0, 0, 3, 3, 3, 3]

/-- The floor of fault kinds 1 to 21 (section 10.3, R175). -/
def overrideFloors : List Nat :=
  [0, 0, 1, 0, 0, 0, 1, 0, 0, 0, 3, 0, 0, 2, 0, 0, 0, 3, 3, 3, 3]

/-- The default priorities of classes 0 to 11 (section 1.8). -/
def defaultPriorities : List Nat := [0, 0, 1, 1, 2, 2, 2, 3, 3, 4, 4, 5]

/-- The active configuration after every reset: "Default of every field with a default (section
2.2); guarded words hold no pattern" (section 2.1). -/
def Params.default : Params where
  profile := 0
  arrangement := 0
  steerSource := 0
  bankCount := 4
  allocCode := 2
  rounding := 0
  tCont := 12000
  tPeak := 18000
  peakTime := 30000
  recovery := 500
  rUp := 500
  rDown := 1500
  nFloor := 500
  groundFactor := 2058
  maxForward := 640
  maxReverse := 100
  propelCap := 2600
  lambdaOn := 150
  lambdaOff := 80
  nOn := 3
  cut := 600
  sMin := 200
  sStep := 20
  vFloor := 30
  slideTime := 2000
  vFade := 20
  kp := 200
  ki := 50
  dSafe := 600
  vReg := 1900
  kTrim := 20
  vTrip := 2300
  vMin := 900
  vLow := 1200
  chopperPeriod := 1000
  minTime := 20
  resistance := PerBank.fill 4000
  capacity := PerBank.fill 400000
  gNat := 300
  gBlow := 2700
  thetaOn := 550
  thetaTrip := 700
  thetaBs := 150
  thetaBf := 450
  designAmbient := 35
  thetaStart := 300
  outputMode := 0
  lock := 3800
  highSpeedAngle := 1000
  rateLo := 150
  trackTol := 300
  wheelbase := 6700
  halfTrack := 3500
  assistSpeed := 80
  assistGain := 800
  reserveHi := 120
  reserveLo := 40
  ratedPayload := 3000
  windingOnset := 160
  windingLimit := 200
  roundPeriod := 4
  missLimit := 3
  freshLimit := 100
  holdLimit := 2000
  demandWake := 0
  stopMode := 1
  overrides := defaultOverrides
  priorities := defaultPriorities
  envelope := []

namespace Params

/-- The allocation period in ms from its code (section 2.2). -/
def allocPeriod (p : Params) : Nat :=
  match p.allocCode with
  | 0 => 2
  | 1 => 4
  | 2 => 5
  | _ => 10

/-- Rounding mode NEAREST is in force (section 0.6.3). -/
def nearest (p : Params) : Bool := p.rounding == 1

def allFour (p : Params) : Bool := p.arrangement == 0x4E4E
def rearPair (p : Params) : Bool := p.arrangement == 0x2E2E
def steerSau (p : Params) : Bool := p.steerSource == 0x5C5C

/-- The STRICT profile; before the first acceptance the profile is taken as STANDARD (R177). -/
def strict (p : Params) : Bool := p.profile == 0xA5A5

/-- EXTERNAL_STOP mode LEVEL (section 10.6). -/
def stopLevel (p : Params) : Bool := p.stopMode == 1

/-- A wheel that the configuration drives: 1 and 2 always, 3 and 4 under ALL_FOUR (section 3.1). -/
def wheel (p : Params) (w : Wheel) : Bool :=
  match w with
  | .w1 | .w2 => true
  | .w3 | .w4 => p.allFour

/-- A unit named by the configuration (R41). -/
def unit (p : Params) (u : UnitId) : Bool :=
  match u with
  | .wheel w => p.wheel w
  | .sau => p.steerSau

/-- "Banks above the configured bank count are not configured" (R120). -/
def bank (p : Params) (b : Bank) : Bool := bankNum b ≤ p.bankCount

/-- The wheels that the configuration drives, in rank order. -/
def wheels (p : Params) : List Wheel := allWheels.filter p.wheel

/-- The configured banks, in ascending order. -/
def banks (p : Params) : List Bank := allBanks.filter p.bank

end Params
end Machine
end Sys2Proof
end

