-- ==== Sys2Proof/Machine/State.lean ====
section
/-! DEFINITION. The state of the Gojhar 7140 as plain data, block by block (section 0.4), the reasons
a command can stop, and the state after a POWER_ON reset. Each field names the section whose table
gives it. -/

namespace Sys2Proof.Machine

/-! ## Names of states, kinds and codes -/

/-- Drive modes (section 4.1). -/
inductive Mode where
  | starting | standby | ready | drive | safeStop | tripped
  deriving DecidableEq, Repr

/-- DMC substates (section 4.1). -/
inductive Substate where
  | none | coast | propel | retard | changeover
  deriving DecidableEq, Repr

/-- Changeover targets (section 4.1). -/
inductive Target where
  | none | propel | retard
  deriving DecidableEq, Repr

/-- Directions of travel (section 1.3). -/
inductive Direction where
  | neutral | forward | reverse
  deriving DecidableEq, Repr

/-- Freshness states (section 4.5). -/
inductive Freshness where
  | fresh | stale | lost | notCounted
  deriving DecidableEq, Repr

/-- Standby variants (section 4.9); outside STANDBY there is none. -/
inductive Variant where
  | dark | link | cool | full
  deriving DecidableEq, Repr

/-- Reset kinds (section 2.5). -/
inductive ResetKind where
  | powerOn | resetPin | softRestart | guard
  deriving DecidableEq, Repr

/-- Start-up phases (section 2.1). -/
inductive Phase where
  | load | enroll | settle | complete
  deriving DecidableEq, Repr

/-- Chain states (section 1.5). -/
inductive Chain where
  | running | waiting | halted
  deriving DecidableEq, Repr

/-- Attention classes 0 to 11 (section 1.8). -/
inductive Cls where
  | trip | safeStop | faultChange | brakeAssist | modeChange | envelope | demandStale
  | derateChange | unitChange | orderDone | chainHalt | configResult
  deriving DecidableEq, Repr

/-- Unit states (section 3.3). -/
inductive UnitState where
  | absent | enrolled | missing | lost
  deriving DecidableEq, Repr

/-- What a unit record holds of the last accepted report (section 3.3). -/
inductive Held where
  | none | current | held
  deriving DecidableEq, Repr

/-- The telegram to which an open reply window belongs (section 3.5). -/
inductive Sent where
  | roll | drive | steer
  deriving DecidableEq, Repr

/-- What an exchange on the wheel link belongs to: a roll call (R42), a round (R45), the try of a
ROLL_CALL order (R52), or the try of one that has ended since (R53). -/
inductive Purpose where
  | rollCall | round | order | ended
  deriving DecidableEq, Repr

/-- Binding limits (section 5.9). -/
inductive Binding where
  | none | request | capacity | power | derate | slip | rate | clamp
  deriving DecidableEq, Repr

/-- Reference speed qualities (section 6.4). -/
inductive Quality where
  | front | hint | degraded
  deriving DecidableEq, Repr

/-- Slip states (section 6.6). -/
inductive Slip where
  | grip | slip | slide | recover
  deriving DecidableEq, Repr

/-- Hold modes (section 7.5). -/
inductive Hold where
  | off | setpoint | envelope
  deriving DecidableEq, Repr

/-- Chopper channel states (section 7.8). -/
inductive ChanState where
  | off | run | test | blocked
  deriving DecidableEq, Repr

/-- Grid test results of one bank (section 7.12). -/
inductive TestResult where
  | none | pass | skipped | aborted
  deriving DecidableEq, Repr

/-- Turn sides (section 8.1). -/
inductive Turn where
  | straight | left | right
  deriving DecidableEq, Repr

/-- Calibration states (section 8.1). -/
inductive Cal where
  | none | starting | running
  deriving DecidableEq, Repr

/-- Last calibration results (section 8.1). -/
inductive CalResult where
  | none | ok | failed | timeout | aborted | unitAbsent
  deriving DecidableEq, Repr

/-- Sources of a derate (section 9.10). -/
inductive DSource where
  | winding | unitRequest | gridHeat | blower | payload | linkLow
  deriving DecidableEq, Repr

/-- Targets of a derate (section 9.10). -/
inductive DTarget where
  | wheel (w : Wheel) | bank (b : Bank) | allWheels | allBanks
  deriving DecidableEq, Repr

/-- Fault kinds 1 to 21 (R175). -/
inductive Kind where
  | wheelLost | wheelFault | windingHot | speedImplausible | wheelSlide | peakSpent | gridHot
  | sauLost | steerTracking | steerFault | linkOvervolt | linkUndervolt | demandStale
  | demandLost | payloadOverload | envelopeExceeded | blowerFail | configGuard | externalStop
  | noTractionUnits | noGrid
  deriving DecidableEq, Repr

/-- Subjects of a fault entry (section 10.1). -/
inductive Subject where
  | wheel (w : Wheel) | bank (b : Bank) | steering | global
  deriving DecidableEq, Repr

/-- States of a fault entry (section 10.1). -/
inductive EntryState where
  | pending | active | latched | cleared
  deriving DecidableEq, Repr

/-- Actions of a fault entry (section 10.1), the gravest last. -/
inductive Action where
  | note | exclude | safeStop | trip
  deriving DecidableEq, Repr

/-- Severity summaries (section 10.1), the gravest last. -/
inductive Severity where
  | none | note | exclude | safeStop | trip
  deriving DecidableEq, Repr

/-! ## Memory -/

/-- The exchange memory: (byte offset, byte) pairs, offsets strictly rising, and no entry equal to
what an unlisted offset reads as. -/
abbrev Memory := List Host.Cell

/-- What an unlisted offset reads as: "After POWER_ON every word of the XM reads 0x0000" (R2). -/
def Memory.blank : Byte := 0

/-! ## Blocks -/

/-- The Attention Controller (section 1.8): class n is bit n of each set. -/
structure Atc where
  pending : BitVec 12
  inService : BitVec 12
  mask : BitVec 12
  threshold : Nat
  priorities : List Nat
  deriving DecidableEq, Repr

/-- The Order Engine (section 1.5). -/
structure Ore where
  cursor : BitVec 6
  chain : Chain
  behind : Bool
  grid : Option (BitVec 6)
  steer : Option (BitVec 6)
  enroll : Option (BitVec 6)
  deriving DecidableEq, Repr

/-- The Configuration Loader (section 2.1), the settle time of R33 as the drive clock value at which
it runs out, and what R4 says the part keeps of a reset: its kind and the mode held when it was
taken (none after POWER_ON). -/
structure Cfl where
  phase : Phase
  guardOn : Bool
  active : Params
  profileCopy : Word
  arrangementCopy : Word
  steerCopy : Word
  armed : Bool
  reEnrol : Bool
  guardCount : Nat
  settleEnd : Option Long
  cause : ResetKind
  modeBefore : Option Mode
  deriving DecidableEq, Repr

/-- The fields of an accepted REPORT or STEER_REPORT (section 3.2) and its stamp. Field 1 is the
speed or the measured angle, field 2 the winding temperature or the front left speed, field 3 the
derate request or the front right speed, fields 4 and 5 the measured torque and link voltage. -/
structure Report where
  flags : Byte
  field1 : Word
  field2 : Word
  field3 : Word
  field4 : Word
  field5 : Word
  stamp : Long
  deriving DecidableEq, Repr

/-- A unit record (section 3.3). The address and the expected kind are fixed by the record's place.
The command slot holds a torque for a WIU, and an angle, the enable and the calibrate flag for the
SAU. -/
structure UnitRec where
  configured : Bool
  state : UnitState
  misses : Nat
  corrupt : Nat
  capability : Nat
  revision : Nat
  held : Held
  report : Report
  lastSeq : Byte
  slotValue : Int
  slotEnable : Bool
  slotCalibrate : Bool
  lastControl : Byte
  lastValue : Int
  block : Option Nat
  deriving DecidableEq, Repr

/-- The exchange whose reply window is open (R48). -/
structure Exchange where
  unit : UnitId
  sent : Sent
  purpose : Purpose
  deriving DecidableEq, Repr

/-- A roll call in progress (R42): the records still to poll, the first of them being polled, and
the tries it has had. -/
structure RollCall where
  todo : List UnitId
  tries : Nat
  deriving DecidableEq, Repr

/-- A ROLL_CALL order in flight (R52 to R54): its cell, the targets not yet finished (the first is
the current target), the tries of the current target, and the targets found and not found. -/
structure EnrollOrder where
  cell : BitVec 6
  todo : List UnitId
  tries : Nat
  found : List UnitId
  notFound : List UnitId
  deriving DecidableEq, Repr

/-- The Wheel Link Controller (section 3.3): the five unit records, the placement cursor with the
blocks placed for banks, the round state (R45), the open window, the pending QUIET request (R56),
a roll call that waits for the exchange in progress (R42), the roll call and the ROLL_CALL order, and
the last telegram it put on the link. -/
structure Wlc where
  wheels : PerWheel UnitRec
  sau : UnitRec
  cursor : Nat
  bankBlock : PerBank (Option Nat)
  roundPeriod : Nat
  roundsOn : Bool
  roundOpen : Bool
  visit : List UnitId
  orderTried : Bool
  roundDue : Bool
  window : Option Exchange
  quiet : Bool
  rollCallAsked : Bool
  rollCall : Option RollCall
  order : Option EnrollOrder
  sent : List Byte
  deriving DecidableEq, Repr

/-- The demand record (R58): the fields of the last accepted page, clamped, with its marks. -/
structure Demand where
  propel : Nat
  retard : Nat
  direction : Direction
  holdSpeed : Nat
  steerAngle : Int
  enginePower : Nat
  payload : Nat
  payloadKnown : Bool
  grade : Int
  gradeKnown : Bool
  hint : Option Nat
  ambient : Option Int
  serviceBrake : Bool
  parkBrake : Bool
  acceptance : Long
  deriving DecidableEq, Repr

/-- The masks of the effective propel demand (R66). -/
structure Masks where
  mode : Bool
  pending : Bool
  stale : Bool
  forced : Bool
  brake : Bool
  deriving DecidableEq, Repr

/-- The Drive Mode Controller (section 4.1), its allocation period in force, and the stamp of the
last mode change (R76). -/
structure Dmc where
  mode : Mode
  substate : Substate
  target : Target
  adopted : Direction
  pendingDir : Option Direction
  demand : Demand
  lastSeq : Option Word
  fresh : Freshness
  freshRef : Long
  variant : Option Variant
  stopTime : Nat
  credit : Bool
  effPropel : Nat
  effRetard : Nat
  masks : Masks
  lastChange : Long
  period : Nat
  deriving DecidableEq, Repr

/-- The flags of one wheel at an allocation event (R94). -/
structure TqaFlags where
  zero : Bool
  negative : Bool
  inactive : Bool
  biased : Bool
  faded : Bool
  guarded : Bool
  deriving DecidableEq, Repr

/-- The allocator's state of one wheel (section 5.1) and the terms of its last event that the
allocator section shows (R101). -/
structure TqaWheel where
  reference : Int
  target : Int
  request : Nat
  binding : Binding
  flags : TqaFlags
  credit : Nat
  spent : Bool
  spentByUse : Bool
  nEff : Nat
  tPow : Nat
  cap : Nat
  derateApplied : Nat
  slipApplied : Nat
  biasApplied : Int
  deriving DecidableEq, Repr

/-- The Torque Allocator (section 5.1) and its allocation period in force. -/
structure Tqa where
  wheels : PerWheel TqaWheel
  nAct : Nat
  pTrac : Nat
  pW : Nat
  pRet : Nat
  maxForward : Nat
  maxReverse : Nat
  propelCap : Nat
  period : Nat
  deriving DecidableEq, Repr

/-- The TCU's record of one wheel (section 6.1), with what the traction section shows of the last
report (R119): the expected speed, and whether that report was discarded or its slip not
evaluated. -/
structure TcuWheel where
  held : Option Int
  heldStamp : Long
  ground : Int
  lambda : Int
  slip : Slip
  factor : Nat
  count : Nat
  slideStart : Option Long
  discards : Nat
  plausibleRun : Nat
  discardTotal : Nat
  slideCond : Bool
  implausibleCond : Bool
  expected : Int
  discarded : Bool
  notEvaluated : Bool
  deriving DecidableEq, Repr

/-- The Traction Control Unit (section 6.1). -/
structure Tcu where
  vRef : Option Nat
  quality : Quality
  stamp : Long
  wheels : PerWheel TcuWheel
  deriving DecidableEq, Repr

/-- One chopper channel (sections 7.1 and 7.8). While the gate is on, `onTime` is the on-time of the
phase and `fullOn` says that the phase runs to the next period start; `lastOn` is the on-time of the
last phase ended. -/
structure Chan where
  state : ChanState
  shadow : Nat
  duty : Nat
  carry : Nat
  gate : Bool
  fullOn : Bool
  onTime : Nat
  lastOn : Nat
  pulses : Nat
  saturated : Bool
  onTotal : Nat
  deriving DecidableEq, Repr

/-- What a bank's status block shows of its last grid test (R145), and its P_full at the last grid
demand arrival. -/
structure BankShow where
  pFull : Nat
  result : TestResult
  delivered : Nat
  before : Nat
  lowest : Nat
  deriving DecidableEq, Repr

/-- The grid test record (sections 7.1 and 7.10): the order's cell, the test duty, the pulse count,
the current bank, the banks by what has become of them, and the lowest V_f over the banks tested.
`finishing` says that the current bank's last pulse has begun. -/
structure GridTest where
  cell : BitVec 6
  duty : Nat
  count : Nat
  current : Option Bank
  finishing : Bool
  waiting : List Bank
  passed : List Bank
  skipped : List Bank
  aborted : List Bank
  lowest : Nat
  deriving DecidableEq, Repr

/-- The brake-assist cause set (section 7.11). -/
structure Causes where
  shortfall : Bool
  envelope : Bool
  tripped : Bool
  safeStop : Bool
  postReset : Bool
  deriving DecidableEq, Repr

/-- The Retard and Grid Controller (section 7.1), its hold and chopper periods in force, and what
its drive record section shows of the last hold update (R145). -/
structure Rgc where
  samples : List Nat
  vF : Nat
  pTrim : Nat
  capacity : Nat
  demand : Nat
  demandNew : Bool
  need : Nat
  unmet : Nat
  hold : Hold
  vEnv : Nat
  vHoldEff : Nat
  integrator : Nat
  dHold : Nat
  forced : Bool
  frozen : Bool
  payloadBand : Nat
  gradeBand : Nat
  exceedTime : Nat
  clearTime : Nat
  exceeded : Bool
  table : List Nat
  rotation : List Bank
  chans : PerBank Chan
  blower : Chan
  shows : PerBank BankShow
  discharge : Option Long
  test : Option GridTest
  causes : Causes
  shortfallTime : Nat
  recoveryTime : Nat
  pulse : Option Long
  period : Nat
  chopper : Nat
  deriving DecidableEq, Repr

/-- The Steering Coordinator (section 8.1); `calCell` is the cell of the calibration order. -/
structure Stc where
  command : Int
  enable : Bool
  calibrateSent : Bool
  angleLimit : Nat
  rateLimit : Nat
  measured : Int
  stale : Bool
  turn : Turn
  kappa : Nat
  beta : Nat
  reserve : Nat
  exceed : Nat
  within : Nat
  tracking : Bool
  cal : Cal
  calStart : Long
  calCell : BitVec 6
  calResult : CalResult
  deriving DecidableEq, Repr

/-- One entry of the derate list (section 9.10); its scope follows from its source. -/
structure Derate where
  source : DSource
  target : DTarget
  factor : Nat
  since : Long
  changed : Long
  deriving DecidableEq, Repr

/-- The Load Model Unit (section 9.1), the commanded blower duty it was handed (R165), and what its
drive record section shows. `heatSet` says that a configuration has been accepted since POWER_ON
(R163). -/
structure Lmu where
  heat : PerBank Nat
  theta : PerBank Int
  hot : PerBank Bool
  hotClear : PerBank Nat
  eIn : PerBank Nat
  eOut : PerBank Int
  onUs : PerBank Nat
  ambient : Int
  heatSet : Bool
  commanded : Nat
  dutyUsed : Nat
  inactive : Nat
  activeCount : Nat
  blowerFail : Bool
  windingCount : PerWheel Nat
  windingClear : PerWheel Nat
  windingHot : PerWheel Bool
  windingTemp : PerWheel Int
  payload : Option Nat
  standstill : Nat
  speedCap : Option Nat
  overload : Bool
  undervoltCount : Nat
  undervoltClear : Nat
  undervolt : Bool
  derates : List Derate
  deriving DecidableEq, Repr

/-- One entry of the fault table (section 10.1). -/
structure Entry where
  kind : Kind
  subject : Subject
  state : EntryState
  action : Action
  setProgress : Nat
  clearProgress : Nat
  cond : Bool
  firstSeen : Long
  lastChange : Long
  occurrence : Nat
  deriving DecidableEq, Repr

/-- The EXTERNAL_STOP filter (sections 10.1 and 10.6). -/
structure StopFilter where
  lastLow : Bool
  lowRun : Nat
  highRun : Nat
  active : Bool
  edgeHeld : Bool
  deriving DecidableEq, Repr

/-- The Protection Unit (section 10.1). -/
structure Pru where
  entries : List Entry
  summary : Severity
  wheelEx : PerWheel Bool
  bankEx : PerBank Bool
  lossHeld : PerWheel Bool
  filter : StopFilter
  deriving DecidableEq, Repr

/-- The whole part. `draws` is the model's own counter of free values drawn (assumption log 12), and
`pending` the commands that wait, first in first out. -/
structure State where
  supply : Bool
  resetLow : Bool
  clock : Long
  xm : Memory
  hostData : Word
  tripOut : Bool
  atc : Atc
  ore : Ore
  cfl : Cfl
  wlc : Wlc
  dmc : Dmc
  tqa : Tqa
  tcu : Tcu
  rgc : Rgc
  stc : Stc
  lmu : Lmu
  pru : Pru
  draws : Nat
  pending : List Instr
  deriving DecidableEq, Repr

/-- No command of this block ends in a fault: every operand names something that exists, and the
spec gives every command an effect or says that it has none. -/
inductive Fault where
  deriving DecidableEq, Repr

/-- Why a command has no meaning in this model. -/
inductive Refusal where
  /-- `exec` has no meaning for the row yet (safe: the machine stops). No arm answers so. -/
  | notModelled (mnemonic : String)
  deriving DecidableEq, Repr

/-! ## Reset values -/

/-- Section 1.8, R17. -/
def Atc.reset : Atc :=
  { pending := 0, inService := 0, mask := 0, threshold := 8, priorities := defaultPriorities }

/-- R10. -/
def Ore.reset : Ore :=
  { cursor := 0, chain := .waiting, behind := false, grid := none, steer := none, enroll := none }

/-- Section 2.1. -/
def Cfl.reset (guardCount : Nat) (cause : ResetKind) (modeBefore : Option Mode) : Cfl :=
  { phase := .load, guardOn := false, active := Params.default, profileCopy := 0
    arrangementCopy := 0, steerCopy := 0, armed := true, reEnrol := false
    guardCount := guardCount, settleEnd := none, cause := cause, modeBefore := modeBefore }

/-- "Cleared, stamp 0" (section 3.3). -/
def Report.cleared : Report :=
  { flags := 0, field1 := 0, field2 := 0, field3 := 0, field4 := 0, field5 := 0, stamp := 0 }

/-- Section 3.3. -/
def UnitRec.reset : UnitRec :=
  { configured := false, state := .absent, misses := 0, corrupt := 0, capability := 0
    revision := 0, held := .none, report := Report.cleared, lastSeq := 0, slotValue := 0
    slotEnable := false, slotCalibrate := false, lastControl := 0, lastValue := 0
    block := none }

/-- Section 3.3 and R40. -/
def Wlc.reset : Wlc :=
  { wheels := PerWheel.fill UnitRec.reset, sau := UnitRec.reset, cursor := Config.firstBlock
    bankBlock := PerBank.fill none, roundPeriod := Params.default.roundPeriod
    roundsOn := false, roundOpen := false, visit := [], orderTried := false, roundDue := false
    window := none, quiet := false, rollCallAsked := false, rollCall := none, order := none
    sent := [] }

/-- The reset record (R58). -/
def Demand.reset : Demand :=
  { propel := 0, retard := 0, direction := .neutral, holdSpeed := 0, steerAngle := 0
    enginePower := 0, payload := 0, payloadKnown := false, grade := 0, gradeKnown := false
    hint := none, ambient := none, serviceBrake := false, parkBrake := false, acceptance := 0 }

def Masks.empty : Masks :=
  { mode := false, pending := false, stale := false, forced := false, brake := false }

/-- Section 4.1, R57. -/
def Dmc.reset : Dmc :=
  { mode := .starting, substate := .none, target := .none, adopted := .neutral
    pendingDir := none, demand := Demand.reset, lastSeq := none, fresh := .notCounted
    freshRef := 0, variant := none, stopTime := 0, credit := false, effPropel := 0
    effRetard := 0, masks := Masks.empty, lastChange := 0
    period := Params.default.allocPeriod }

/-- The flags of a wheel that is not active (section 5.1). -/
def TqaFlags.idle : TqaFlags :=
  { zero := true, negative := false, inactive := true, biased := false, faded := false
    guarded := false }

/-- Section 5.1: peak credit, peak state and spent-by-use mark are kept through every reset but
POWER_ON. -/
def TqaWheel.reset (credit : Nat) (spent spentByUse : Bool) : TqaWheel :=
  { reference := 0, target := 0, request := 0, binding := .none, flags := TqaFlags.idle
    credit := credit, spent := spent, spentByUse := spentByUse, nEff := 0, tPow := 0, cap := 0
    derateApplied := 1000, slipApplied := 1000, biasApplied := 0 }

/-- R77. -/
def Tqa.reset (wheels : PerWheel TqaWheel) : Tqa :=
  { wheels := wheels, nAct := 0, pTrac := 0, pW := 0, pRet := 0
    maxForward := Params.default.maxForward, maxReverse := Params.default.maxReverse
    propelCap := Params.default.propelCap, period := Params.default.allocPeriod }

/-- Section 6.1. -/
def TcuWheel.reset : TcuWheel :=
  { held := none, heldStamp := 0, ground := 0, lambda := 0, slip := .grip, factor := 1000
    count := 0, slideStart := none, discards := 0, plausibleRun := 0, discardTotal := 0
    slideCond := false, implausibleCond := false, expected := 0, discarded := false
    notEvaluated := false }

/-- R103. -/
def Tcu.reset : Tcu :=
  { vRef := none, quality := .degraded, stamp := 0, wheels := PerWheel.fill TcuWheel.reset }

/-- Section 7.1. -/
def Chan.reset : Chan :=
  { state := .off, shadow := 0, duty := 0, carry := 0, gate := false, fullOn := false
    onTime := 0, lastOn := 0, pulses := 0, saturated := false, onTotal := 0 }

def BankShow.reset : BankShow :=
  { pFull := 0, result := .none, delivered := 0, before := 0, lowest := 0 }

/-- Section 7.1, R120; the cause set after a reset that keeps the brakes is set at start-up. -/
def Rgc.reset : Rgc :=
  { samples := List.replicate 16 0, vF := 0, pTrim := 0, capacity := 0, demand := 0
    demandNew := false, need := 0, unmet := 0, hold := .off, vEnv := 0, vHoldEff := 0
    integrator := 0, dHold := 0, forced := false, frozen := false, payloadBand := 0
    gradeBand := 0, exceedTime := 0, clearTime := 0, exceeded := false, table := []
    rotation := [], chans := PerBank.fill Chan.reset, blower := Chan.reset
    shows := PerBank.fill BankShow.reset, discharge := none, test := none
    causes := { shortfall := false, envelope := false, tripped := false, safeStop := false
                postReset := false }
    shortfallTime := 0, recoveryTime := 0, pulse := none
    period := Params.default.allocPeriod, chopper := Params.default.chopperPeriod }

/-- Section 8.1; the angle and rate limits are those of an unknown V_ref (R148). That the angle limit is then not
lowered to the SAU's capability, which is 0 after a reset, is the model's choice (assumption log 55). -/
def Stc.reset : Stc :=
  { command := 0, enable := false, calibrateSent := false
    angleLimit := Params.default.highSpeedAngle, rateLimit := Params.default.rateLo / 4
    measured := 0, stale := true, turn := .straight, kappa := 0, beta := 0, reserve := 0
    exceed := 0, within := 0, tracking := false, cal := .none, calStart := 0, calCell := 0
    calResult := .none }

/-- Section 9.1: what the LMU takes at every reset, over the heat stores, temperatures, GRID_HOT
conditions and clear counts given. -/
def Lmu.reset (heat : PerBank Nat) (theta : PerBank Int) (hot : PerBank Bool)
    (hotClear : PerBank Nat) (heatSet : Bool) : Lmu :=
  { heat := heat, theta := theta, hot := hot, hotClear := hotClear
    eIn := PerBank.fill 0, eOut := PerBank.fill 0, onUs := PerBank.fill 0
    ambient := 10 * Params.default.designAmbient, heatSet := heatSet, commanded := 0
    dutyUsed := 0, inactive := 0, activeCount := 0, blowerFail := false
    windingCount := PerWheel.fill 0, windingClear := PerWheel.fill 0
    windingHot := PerWheel.fill false, windingTemp := PerWheel.fill 0, payload := none
    standstill := 0, speedCap := none, overload := false, undervoltCount := 0
    undervoltClear := 0, undervolt := false, derates := [] }

/-- Section 9.1 after POWER_ON: θ_b is θ_amb. -/
def Lmu.powerOn : Lmu :=
  Lmu.reset (PerBank.fill 0) (PerBank.fill (10 * Params.default.designAmbient))
    (PerBank.fill false) (PerBank.fill 0) false

/-- Section 10.1. -/
def StopFilter.reset : StopFilter :=
  { lastLow := false, lowRun := 0, highRun := 0, active := false, edgeHeld := false }

/-- Section 10.1, over the table that the reset leaves. -/
def Pru.reset (entries : List Entry) : Pru :=
  { entries := entries, summary := .none, wheelEx := PerWheel.fill false
    bankEx := PerBank.fill false, lossHeld := PerWheel.fill true, filter := StopFilter.reset }

/-- Every block at its POWER_ON values and every exchange memory word 0x0000 (R2, R30), before the
start-up that writes the header and the status region. -/
def State.blank (resetLow : Bool) (draws : Nat) (pending : List Instr) : State :=
  { supply := true, resetLow := resetLow, clock := 0, xm := [], hostData := 0, tripOut := false
    atc := Atc.reset, ore := Ore.reset, cfl := Cfl.reset 0 .powerOn none, wlc := Wlc.reset
    dmc := Dmc.reset, tqa := Tqa.reset (PerWheel.fill (TqaWheel.reset 0 true false))
    tcu := Tcu.reset, rgc := Rgc.reset, stc := Stc.reset, lmu := Lmu.powerOn
    pru := Pru.reset [], draws := draws, pending := pending }

/-- The exchange memory at the end of the start-up after POWER_ON: the header (R4), and the drive
record sections at their reset values (R76, R119, R145, R159, R173). Every byte that is not listed
reads 0. -/
def Memory.afterPowerOn : Memory :=
  -- vendor, part and revision codes
  [(0x00, 0xC4), (0x01, 0x0F), (0x02, 0xE4), (0x03, 0x1B), (0x04, 0x01)] ++
  -- reset cause POWER_ON, mode before reset UNKNOWN, chain state WAITING
  [(0x12, 0x01), (0x14, 0xFF), (0x15, 0xFF), (0x1E, 0x02)] ++
  -- unit directory and bank directory, every word ABSENT
  (List.range 22).map (fun i => (0x30 + i, (0xFF : Byte))) ++
  -- DMC: pending direction NONE, standby variant NONE, freshness NOT_COUNTED
  [(0x2008, 0xFF), (0x2009, 0xFF), (0x200A, 0xFF), (0x200B, 0xFF), (0x200C, 0x03)] ++
  -- TCU: quality DEGRADED
  [(0x2024, 0x02)] ++
  -- STC: δ_lim 1000, rate limit 37, angle stale
  [(0x20A2, 0xE8), (0x20A3, 0x03), (0x20A4, 0x25), (0x20AA, 0x04)] ++
  -- LMU: no payload, no load ratio, no speed cap, θ_amb 350, link-low factor 1000
  [(0x20C0, 0xFF), (0x20C1, 0xFF), (0x20C2, 0xFF), (0x20C3, 0xFF), (0x20C4, 0xFF),
    (0x20C5, 0xFF), (0x20C8, 0x5E), (0x20C9, 0x01), (0x20CE, 0xE8), (0x20CF, 0x03)] ++
  -- LMU: WINDING and UNIT_REQUEST factors 1000
  [(0x20E8, 0xE8), (0x20E9, 0x03), (0x20EA, 0xE8), (0x20EB, 0x03), (0x20EC, 0xE8),
    (0x20ED, 0x03), (0x20EE, 0xE8), (0x20EF, 0x03), (0x20F0, 0xE8), (0x20F1, 0x03),
    (0x20F2, 0xE8), (0x20F3, 0x03), (0x20F4, 0xE8), (0x20F5, 0x03), (0x20F6, 0xE8),
    (0x20F7, 0x03)]

/-- The part right after the POWER_ON reset and its start-up: every block at its POWER_ON values,
phase LOAD, mode STARTING, no command waiting. -/
def State.reset : State := { State.blank false 0 [] with xm := Memory.afterPowerOn }

end Sys2Proof.Machine
end

