-- ==== Sys2Proof/Machine/Ops.lean ====
section
/-! DEFINITION. The named operations over the state: the exchange memory in words, the named record
updates of `State`, and the wrapper that every command of a running part goes through. -/

namespace Sys2Proof.Machine

/-! ## Bytes, words and 32-bit quantities -/

/-- The byte of a word at its even offset. -/
def lowByte (w : Word) : Byte := w.setWidth 8

/-- The byte of a word at its odd offset. -/
def highByte (w : Word) : Byte := w.extractLsb' 8 8

/-- A word from its byte at the even offset and its byte at the odd offset. -/
def wordOf (low high : Byte) : Word := high ++ low

/-- A word of a telegram: "Multi-byte fields in telegrams are sent most significant byte first"
(section 0.6.1). -/
def telegramWord (first second : Byte) : Word := wordOf second first

/-- A 32-bit quantity as two words, "the less significant half at the lower offset" (R1). -/
def longWords (l : Long) : List Word := [l.setWidth 16, l.extractLsb' 16 16]

/-- A count shown in a word; a value above 65535 is shown as 65535. -/
def natWord (n : Nat) : Word := BitVec.ofNat 16 (min n 65535)

/-- A count shown in 32 bits, at the field's largest value when above. -/
def natLong (n : Nat) : List Word := longWords (BitVec.ofNat 32 (min n 4294967295))

/-- A signed value in a word, two's complement (section 0.6.1). A value that 16 bits cannot hold is shown
modulo 2^16, which is the model's choice (assumption log 38). -/
def intWord (i : Int) : Word := BitVec.ofInt 16 i

/-- Two small counts in one word, each shown as 255 when above. -/
def bytePair (low high : Nat) : Word :=
  wordOf (BitVec.ofNat 8 (min low 255)) (BitVec.ofNat 8 (min high 255))

/-! ## Memory -/

/-- The canonical form: offsets strictly rising, no entry equal to what an unlisted offset reads
as. -/
abbrev Memory.wf (m : Memory) : Prop :=
  m.Pairwise (fun c d => c.1 < d.1) ∧ ∀ c ∈ m, c.2 ≠ Memory.blank

/-- The byte at an offset. -/
def Memory.byte (m : Memory) (a : Nat) : Byte := (m.lookup a).getD Memory.blank

/-- The word at an even offset (R1). -/
def Memory.word (m : Memory) (a : Nat) : Word := wordOf (m.byte a) (m.byte (a + 1))

/-- The entry of one byte in the canonical form: none when it is what an unlisted offset reads. -/
def Memory.cell (a : Nat) (b : Byte) : Memory := if b = Memory.blank then [] else [(a, b)]

/-- The entries of consecutive words from offset `a`. -/
def Memory.cells : Nat → List Word → Memory
  | _, [] => []
  | a, w :: ws => Memory.cell a (lowByte w) ++ (Memory.cell (a + 1) (highByte w) ++ Memory.cells (a + 2) ws)

/-- Writes consecutive words from offset `a`, in ascending offset; every other byte stays. -/
def Memory.store (a : Nat) (ws : List Word) (m : Memory) : Memory :=
  m.filter (fun c => c.1 < a) ++ (Memory.cells a ws ++ m.filter (fun c => a + 2 * ws.length ≤ c.1))

/-! ## Named record updates -/

def State.setSupply (v : Bool) (s : State) : State := { s with supply := v }
def State.setResetLow (v : Bool) (s : State) : State := { s with resetLow := v }
def State.setClock (v : Long) (s : State) : State := { s with clock := v }
def State.setXm (v : Memory) (s : State) : State := { s with xm := v }
def State.setHostData (v : Word) (s : State) : State := { s with hostData := v }
def State.setTripOut (v : Bool) (s : State) : State := { s with tripOut := v }
def State.setAtc (v : Atc) (s : State) : State := { s with atc := v }
def State.setOre (v : Ore) (s : State) : State := { s with ore := v }
def State.setCfl (v : Cfl) (s : State) : State := { s with cfl := v }
def State.setWlc (v : Wlc) (s : State) : State := { s with wlc := v }
def State.setDmc (v : Dmc) (s : State) : State := { s with dmc := v }
def State.setTqa (v : Tqa) (s : State) : State := { s with tqa := v }
def State.setTcu (v : Tcu) (s : State) : State := { s with tcu := v }
def State.setRgc (v : Rgc) (s : State) : State := { s with rgc := v }
def State.setStc (v : Stc) (s : State) : State := { s with stc := v }
def State.setLmu (v : Lmu) (s : State) : State := { s with lmu := v }
def State.setPru (v : Pru) (s : State) : State := { s with pru := v }
def State.setDraws (v : Nat) (s : State) : State := { s with draws := v }
def State.setPending (v : List Instr) (s : State) : State := { s with pending := v }

/-! ## The exchange memory -/

/-- The part's word at an offset. -/
def State.word (s : State) (a : Nat) : Word := s.xm.word a

/-- The part writes consecutive words from an offset. -/
def put (a : Nat) (ws : List Word) (s : State) : State := s.setXm (s.xm.store a ws)

/-- The part writes a status block section when there is a block. -/
def putBlock (block : Option Nat) (offset : Nat) (ws : List Word) (s : State) : State :=
  match block with
  | some base => put (base + offset) ws s
  | none => s

/-- The active configuration. -/
def State.cfg (s : State) : Params := s.cfl.active

/-! ## Time -/

/-- The ms from a drive clock value to now, on the 32-bit drive clock. -/
def State.since (s : State) (stamp : Long) : Nat := (s.clock - stamp).toNat

/-- A timer that runs to a drive clock value has run out: the clock has reached that value
(assumption log 6). -/
def State.reached (s : State) (due : Long) : Bool := s.since due < 2147483648

/-! ## A command of a running part -/

/-- The part works while its supply is in range and its RESET input is high (R30). -/
def State.isRunning (s : State) : Bool := s.supply && !s.resetLow

/-- A command of a running part. A reset "ends every block's work at once" and while RESET is low
"host writes are ignored" (R30): then the command changes nothing (assumption log 2). -/
def whenRunning (f : State → State) (s : State) : Host.Outcome State Fault Refusal :=
  .next (if s.isRunning then f s else s)

/-- Runs one operation after another. -/
def runAll (fs : List (State → State)) (s : State) : State :=
  match fs with
  | [] => s
  | f :: rest => runAll rest (f s)

end Sys2Proof.Machine
end

