-- ==== Sys2Proof/Machine/Operands.lean ====
section
/-! DEFINITION. Operands and arithmetic: rounding (section 0.6.3), the fields of a setpoint page as
they are read and clamped (section 1.3), the angle table (section 8.4), the terms of several
blocks that depend on the turn side, and the CRC and the telegrams of the wheel link (chapter 3). -/

namespace Sys2Proof.Machine

/-! ## Rounding -/

/-- A quotient of nonnegative terms rounded by mode: TRUNCATE drops the fraction, NEAREST raises the
quotient for a fraction of one half or more (section 0.6.3, R81). -/
def divNat (nearest : Bool) (a b : Nat) : Nat :=
  if nearest then (2 * a + b) / (2 * b) else a / b

/-- A signed quotient rounded by mode: TRUNCATE toward zero, NEAREST with halves away from zero
(section 0.6.3). -/
def divInt (nearest : Bool) (a b : Int) : Int :=
  a.sign * b.sign * (divNat nearest a.natAbs b.natAbs : Nat)

/-- A value limited to 0..high. -/
def limit (high : Nat) (i : Int) : Nat := min high i.toNat

/-- A signed value limited to ± a bound. -/
def limitAbs (bound : Nat) (i : Int) : Int := max (-(bound : Int)) (min (bound : Int) i)

/-! ## Setpoint page fields -/

/-- The nineteen words of a page that hold fields, as the DMC reads them word by word (R7). -/
structure Page where
  sequence : Word
  propel : Word
  retard : Word
  direction : Word
  holdSpeed : Word
  steerAngle : Word
  enginePower : Word
  payload : Word
  grade : Word
  hint : Word
  ambient : Word
  flags : Word
  echo : Word
  deriving DecidableEq, Repr

/-- The offset of the page that the live page selector names: "A value of 1 selects page B. Every
other value, 0 included, selects page A" (R6). -/
def pageBase (selector : Word) : Nat := if selector = 1 then 0x0180 else 0x0100

/-- The page at an offset. -/
def readPage (m : Memory) (base : Nat) : Page :=
  { sequence := m.word base, propel := m.word (base + 0x02), retard := m.word (base + 0x04)
    direction := m.word (base + 0x06), holdSpeed := m.word (base + 0x08)
    steerAngle := m.word (base + 0x0A), enginePower := m.word (base + 0x0C)
    payload := m.word (base + 0x0E), grade := m.word (base + 0x10), hint := m.word (base + 0x12)
    ambient := m.word (base + 0x14), flags := m.word (base + 0x16), echo := m.word (base + 0x1E) }

/-- R7: the sequence is not 0, equals its echo and differs from the last accepted sequence. -/
def Page.accepted (p : Page) (last : Option Word) : Bool :=
  p.sequence != 0 && p.sequence == p.echo && last != some p.sequence

/-- A direction word: other values than 1 and 2 read as NEUTRAL (section 1.3). -/
def readDirection (w : Word) : Direction :=
  if w = 1 then .forward else if w = 2 then .reverse else .neutral

/-- The demand record of a page (R8 and the table of section 1.3); the steer angle demand is clamped
to ± the lock of the active configuration. -/
def Page.demand (p : Page) (lock : Nat) (clock : Long) : Demand :=
  { propel := min p.propel.toNat 1000, retard := min p.retard.toNat 1000
    direction := readDirection p.direction, holdSpeed := min p.holdSpeed.toNat 600
    steerAngle := limitAbs lock p.steerAngle.toInt, enginePower := min p.enginePower.toNat 5000
    payload := min p.payload.toNat 6000, payloadKnown := true
    grade := limitAbs 300 p.grade.toInt, gradeKnown := true
    hint := if p.hint = 0xFFFF then none else some (min p.hint.toNat 1000)
    ambient := if p.ambient = 0x7FFF then none else some (max (-50) (min 70 p.ambient.toInt))
    serviceBrake := p.flags.getLsbD 0, parkBrake := p.flags.getLsbD 1, acceptance := clock }

/-! ## The turn -/

/-- σ of a wheel: +1 on the outer side of the turn and −1 on the inner side (R112). A left turn has
wheels 2 and 4 outer. -/
def outerSign (turn : Turn) (w : Wheel) : Int :=
  match turn, w with
  | .straight, _ => 0
  | .left, .w2 | .left, .w4 | .right, .w1 | .right, .w3 => 1
  | .left, .w1 | .left, .w3 | .right, .w2 | .right, .w4 => -1

/-- tan × 10000 for 0 to 45 whole degrees (section 8.4). -/
def tanTable : List Nat :=
  [0, 175, 349, 524, 699, 875, 1051, 1228, 1405, 1584, 1763, 1944, 2126, 2309, 2493, 2679] ++
  [2867, 3057, 3249, 3443, 3640, 3839, 4040, 4245, 4452, 4663, 4877, 5095, 5317, 5543, 5774] ++
  [6009, 6249, 6494, 6745, 7002, 7265, 7536, 7813, 8098, 8391, 8693, 9004, 9325, 9657, 10000]

/-- cos × 10000 for 0 to 45 whole degrees (section 8.4). -/
def cosTable : List Nat :=
  [10000, 9998, 9994, 9986, 9976, 9962, 9945, 9925, 9903, 9877, 9848, 9816, 9781, 9744, 9703] ++
  [9659, 9613, 9563, 9511, 9455, 9397, 9336, 9272, 9205, 9135, 9063, 8988, 8910, 8829, 8746] ++
  [8660, 8572, 8480, 8387, 8290, 8192, 8090, 7986, 7880, 7771, 7660, 7547, 7431, 7314, 7193, 7071]

/-- R150: the table value of an angle in 0.01°, interpolated with the quotient truncated toward
zero. -/
def angleValue (table : List Nat) (angle : Int) : Nat :=
  if 4500 ≤ angle.natAbs then table.getD 45 0
  else
    let i := angle.natAbs / 100
    let f := angle.natAbs % 100
    let low := table.getD i 0
    let high := table.getD (i + 1) 0
    ((low : Int) + divInt false (((high : Int) - low) * f) 100).toNat

def tan10000 (angle : Int) : Nat := angleValue tanTable angle
def cos10000 (angle : Int) : Nat := angleValue cosTable angle

/-! ## Telegrams -/

/-- One bit of the CRC register: generator 0x1021, most significant bit first (R38). -/
def crcBit (r : Word) : Word :=
  if r.getLsbD 15 then (r <<< 1) ^^^ 0x1021 else r <<< 1

/-- One byte combined into the CRC register (R38). -/
def crcByte (r : Word) (b : Byte) : Word :=
  let r := r ^^^ (b.setWidth 16 <<< 8)
  crcBit (crcBit (crcBit (crcBit (crcBit (crcBit (crcBit (crcBit r)))))))

/-- The CRC over a run of bytes, from 0xFFFF (R38). -/
def crc (bytes : List Byte) : Word := bytes.foldl crcByte 0xFFFF

/-- A telegram with its CRC as the last two bytes, most significant byte first (R38). -/
def withCrc (bytes : List Byte) : List Byte :=
  bytes ++ [highByte (crc bytes), lowByte (crc bytes)]

/-- The address of a unit (section 3.1). -/
def unitAddress : UnitId → Byte
  | .wheel .w1 => 1
  | .wheel .w2 => 2
  | .wheel .w3 => 3
  | .wheel .w4 => 4
  | .sau => 8

/-- The unit kind of a record: WIU 1, SAU 2 (section 3.2). -/
def unitKind : UnitId → Byte
  | .wheel _ => 1
  | .sau => 2

/-- The length of a telegram by its kind byte (section 3.2); none when the byte names no kind. -/
def telegramLength (kind : Byte) : Option Nat :=
  if kind = 0x11 then some 4
  else if kind = 0x12 then some 8
  else if kind = 0x21 then some 8
  else if kind = 0x22 then some 16
  else if kind = 0x31 then some 8
  else if kind = 0x32 then some 12
  else if kind = 0x7E then some 4
  else none

/-- The kind byte of the answer to a telegram (R39). -/
def answerKind : Sent → Byte
  | .roll => 0x12
  | .drive => 0x22
  | .steer => 0x32

/-- Byte `i` of a telegram. -/
def byteAt (bytes : List Byte) (i : Nat) : Byte := bytes.getD i 0

/-- The word at byte `i` of a telegram, most significant byte first. -/
def wordAt (bytes : List Byte) (i : Nat) : Word :=
  telegramWord (byteAt bytes i) (byteAt bytes (i + 1))

def rollTelegram (u : UnitId) : List Byte := withCrc [unitAddress u, 0x11]

def driveTelegram (w : Wheel) (sequence control : Byte) (torque : Int) : List Byte :=
  withCrc [unitAddress (.wheel w), 0x21, sequence, control, highByte (intWord torque),
    lowByte (intWord torque)]

def steerTelegram (sequence control : Byte) (angle : Int) : List Byte :=
  withCrc [unitAddress .sau, 0x31, sequence, control, highByte (intWord angle),
    lowByte (intWord angle)]

def quietTelegram : List Byte := withCrc [0xFF, 0x7E]

/-- The fields of a REPORT or STEER_REPORT that the record keeps (section 3.2); a STEER_REPORT has
no fields 4 and 5. -/
def readReport (sent : Sent) (bytes : List Byte) (stamp : Long) : Report :=
  { flags := byteAt bytes 3, field1 := wordAt bytes 4, field2 := wordAt bytes 6
    field3 := wordAt bytes 8
    field4 := match sent with
      | .drive => wordAt bytes 10
      | .roll | .steer => 0
    field5 := match sent with
      | .drive => wordAt bytes 12
      | .roll | .steer => 0
    stamp := stamp }

end Sys2Proof.Machine
end

