-- ==== Sys2Proof/Machine/Flags.lean ====
section
/-! DEFINITION. Every code, flag word and set word that the part shows: the codes of states and
kinds, the anomaly mark, the flags of reports, and PART_STATUS. -/

namespace Sys2Proof.Machine

/-- A word with bit `i` set for the `i`-th flag. -/
def flagWord : List Bool → Nat
  | [] => 0
  | b :: bs => (if b then 1 else 0) + 2 * flagWord bs

def bitsWord (bs : List Bool) : Word := natWord (flagWord bs)

def boolWord (b : Bool) : Word := if b then 1 else 0

/-- Mode mirror (section 1.2). -/
def Mode.code : Mode → Word
  | .starting => 0
  | .standby => 1
  | .ready => 2
  | .drive => 3
  | .safeStop => 4
  | .tripped => 5

/-- Reset cause (section 1.2). -/
def ResetKind.code : ResetKind → Word
  | .powerOn => 1
  | .resetPin => 2
  | .softRestart => 3
  | .guard => 4

/-- Mode before reset (section 1.2): UNKNOWN when none was held. -/
def modeBeforeCode : Option Mode → Word
  | some m => m.code
  | none => 0xFFFF

/-- Chain state (section 1.2). -/
def Chain.code : Chain → Word
  | .running => 1
  | .waiting => 2
  | .halted => 3

/-- Start-up phase (section 1.9). -/
def Phase.code : Phase → Word
  | .load => 0
  | .enroll => 1
  | .settle => 2
  | .complete => 3

/-- Substate (section 4.10.1). -/
def Substate.code : Substate → Word
  | .none => 0
  | .coast => 1
  | .propel => 2
  | .retard => 3
  | .changeover => 4

/-- Changeover target (section 4.10.1). -/
def Target.code : Target → Word
  | .none => 0
  | .propel => 2
  | .retard => 3

/-- Direction (section 4.10.1). -/
def Direction.code : Direction → Word
  | .neutral => 0
  | .forward => 1
  | .reverse => 2

/-- Standby variant (section 4.9). -/
def Variant.code : Variant → Word
  | .dark => 0
  | .link => 1
  | .cool => 2
  | .full => 3

/-- Freshness state (section 4.10.1). -/
def Freshness.code : Freshness → Word
  | .fresh => 0
  | .stale => 1
  | .lost => 2
  | .notCounted => 3

/-- Unit state (section 3.6). -/
def UnitState.code : UnitState → Word
  | .absent => 0
  | .enrolled => 1
  | .missing => 2
  | .lost => 3

/-- Report held (section 3.6). -/
def Held.code : Held → Word
  | .none => 0
  | .current => 1
  | .held => 2

/-- Binding limit (R101). -/
def Binding.code : Binding → Word
  | .none => 0
  | .request => 1
  | .capacity => 2
  | .power => 3
  | .derate => 4
  | .slip => 5
  | .rate => 6
  | .clamp => 7

/-- Reference speed quality (R119). -/
def Quality.code : Quality → Word
  | .front => 0
  | .hint => 1
  | .degraded => 2

/-- Slip state (R119). -/
def Slip.code : Slip → Word
  | .grip => 0
  | .slip => 1
  | .slide => 2
  | .recover => 3

/-- Hold mode (R145). -/
def Hold.code : Hold → Word
  | .off => 0
  | .setpoint => 1
  | .envelope => 2

/-- Channel state (R145). -/
def ChanState.code : ChanState → Word
  | .off => 0
  | .run => 1
  | .test => 2
  | .blocked => 3

/-- Grid test result (R145). -/
def TestResult.code : TestResult → Word
  | .none => 0
  | .pass => 1
  | .skipped => 2
  | .aborted => 3

/-- Turn side (R159). -/
def Turn.code : Turn → Word
  | .straight => 0
  | .left => 1
  | .right => 2

/-- Calibration state (R159). -/
def Cal.code : Cal → Word
  | .none => 0
  | .starting => 1
  | .running => 2

/-- Last calibration result (R159). -/
def CalResult.code : CalResult → Word
  | .none => 0
  | .ok => 1
  | .failed => 2
  | .timeout => 3
  | .aborted => 4
  | .unitAbsent => 5

/-- Derate source (R172). -/
def DSource.code : DSource → Word
  | .winding => 1
  | .unitRequest => 2
  | .gridHeat => 3
  | .blower => 4
  | .payload => 5
  | .linkLow => 6

/-- Derate target (R172). -/
def DTarget.code : DTarget → Word
  | .wheel w => natWord (wheelNum w)
  | .bank b => natWord (0x10 + bankNum b)
  | .allWheels => 0x20
  | .allBanks => 0x30

/-- The scope of a source's derates is BOTH, but for PAYLOAD and LINK_LOW (section 9.10). -/
def DSource.both : DSource → Bool
  | .winding | .unitRequest | .gridHeat | .blower => true
  | .payload | .linkLow => false

/-- Result code (section 1.5.1). -/
def resultCode : Result → Word
  | .ok => 0
  | .badKind => 1
  | .badArgument => 2
  | .wrongMode => 3
  | .busy => 4
  | .conflict => 5
  | .aborted => 6
  | .timeout => 7
  | .unitAbsent => 8
  | .interrupted => 9

/-- Attention class numbers (section 1.8). -/
def Cls.num : Cls → Nat
  | .trip => 0
  | .safeStop => 1
  | .faultChange => 2
  | .brakeAssist => 3
  | .modeChange => 4
  | .envelope => 5
  | .demandStale => 6
  | .derateChange => 7
  | .unitChange => 8
  | .orderDone => 9
  | .chainHalt => 10
  | .configResult => 11

/-- Fault kind numbers 1 to 21 (R175). -/
def Kind.num : Kind → Nat
  | .wheelLost => 1
  | .wheelFault => 2
  | .windingHot => 3
  | .speedImplausible => 4
  | .wheelSlide => 5
  | .peakSpent => 6
  | .gridHot => 7
  | .sauLost => 8
  | .steerTracking => 9
  | .steerFault => 10
  | .linkOvervolt => 11
  | .linkUndervolt => 12
  | .demandStale => 13
  | .demandLost => 14
  | .payloadOverload => 15
  | .envelopeExceeded => 16
  | .blowerFail => 17
  | .configGuard => 18
  | .externalStop => 19
  | .noTractionUnits => 20
  | .noGrid => 21

/-- Subject byte (R184). -/
def Subject.code : Subject → Nat
  | .wheel w => wheelNum w
  | .bank b => 0x10 + bankNum b
  | .steering => 0x08
  | .global => 0

/-- Entry state byte (R184). -/
def EntryState.code : EntryState → Nat
  | .pending => 1
  | .active => 2
  | .latched => 3
  | .cleared => 4

/-- Action byte (R184), and the codes of the action overrides (section 2.2). -/
def Action.code : Action → Nat
  | .note => 0
  | .exclude => 1
  | .safeStop => 2
  | .trip => 3

/-- The action of an override code (section 2.2). -/
def Action.ofCode : Nat → Action
  | 0 => .note
  | 1 => .exclude
  | 2 => .safeStop
  | _ => .trip

/-- Severity summary (R184). -/
def Severity.code : Severity → Nat
  | .none => 0
  | .note => 1
  | .exclude => 2
  | .safeStop => 3
  | .trip => 4

/-- The summary that one action gives (section 10.1). -/
def Action.severity : Action → Severity
  | .note => .note
  | .exclude => .exclude
  | .safeStop => .safeStop
  | .trip => .trip

/-- The anomaly mark of a page (section 1.3): one flag per field that was clamped or read as
NEUTRAL. -/
def Page.anomaly (p : Page) (lock : Nat) : Word :=
  bitsWord
    [decide (1000 < p.propel.toNat), decide (1000 < p.retard.toNat),
      decide (2 < p.direction.toNat), decide (600 < p.holdSpeed.toNat),
      decide (limitAbs lock p.steerAngle.toInt ≠ p.steerAngle.toInt),
      decide (5000 < p.enginePower.toNat), decide (6000 < p.payload.toNat),
      decide (limitAbs 300 p.grade.toInt ≠ p.grade.toInt),
      p.hint != 0xFFFF && decide (1000 < p.hint.toNat),
      p.ambient != 0x7FFF && (decide (p.ambient.toInt < -50) || decide (70 < p.ambient.toInt))]

/-- Bit 0 of a report's flags: READY (section 3.2). -/
def Report.ready (r : Report) : Bool := r.flags.getLsbD 0
/-- Bit 1 of a report's flags: FAULT (section 3.2). -/
def Report.fault (r : Report) : Bool := r.flags.getLsbD 1
/-- Bit 2 of a STEER_REPORT's flags: CAL_RUNNING (section 3.2). -/
def Report.calRunning (r : Report) : Bool := r.flags.getLsbD 2
/-- Bit 3 of a STEER_REPORT's flags: CAL_DONE (section 3.2). -/
def Report.calDone (r : Report) : Bool := r.flags.getLsbD 3
/-- Bit 4 of a STEER_REPORT's flags: CAL_OK (section 3.2). -/
def Report.calOk (r : Report) : Bool := r.flags.getLsbD 4

/-- The masks in the order of their bits (section 4.10.1). -/
def Masks.bits (m : Masks) : List Bool := [m.mode, m.pending, m.stale, m.forced, m.brake]

/-- A propel mask of R66 other than FORCED holds (R127). -/
def Masks.anyButForced (m : Masks) : Bool := m.mode || m.pending || m.stale || m.brake

/-- Any propel mask of R66 holds. -/
def Masks.any (m : Masks) : Bool := m.anyButForced || m.forced

/-- The flags of a wheel in the order of their bits (R101). -/
def TqaFlags.bits (f : TqaFlags) : List Bool :=
  [f.zero, f.negative, f.inactive, f.biased, f.faded, f.guarded]

/-- The causes in the order of their bits (R145). -/
def Causes.bits (c : Causes) : List Bool :=
  [c.shortfall, c.envelope, c.tripped, c.safeStop, c.postReset]

/-- The cause set is not empty (R144). -/
def Causes.any (c : Causes) : Bool := c.shortfall || c.envelope || c.tripped || c.safeStop || c.postReset

/-- PART_STATUS (section 1.9, R23). That bits 15 to 12, which the table does not name, read 0 is the model's
choice (assumption log 46). -/
def State.partStatus (s : State) : Word :=
  s.dmc.mode.code ||| (s.cfl.phase.code <<< 3) ||| (s.ore.chain.code <<< 5) |||
    (boolWord s.ore.behind <<< 7) ||| (boolWord s.cfl.guardOn <<< 8) ||| (s.cfl.cause.code <<< 9)

/-! ## Checks that several blocks make -/

/-- Standstill: a reference speed is held and is below 5 (R63). -/
def State.standstill (s : State) : Bool :=
  match s.tcu.vRef with
  | some v => v < 5
  | none => false

/-- STANDBY of a variant that keeps the link (section 4.9). -/
def State.linkKept (s : State) : Bool :=
  match s.dmc.variant with
  | some .link | some .full => true
  | some .dark | some .cool | none => false

/-- The modes in which the TQA computes references (section 4.1). -/
def Mode.working : Mode → Bool
  | .ready | .drive | .safeStop => true
  | .starting | .standby | .tripped => false

/-- The unit record of a unit. -/
def Wlc.unit (l : Wlc) : UnitId → UnitRec
  | .wheel w => l.wheels.get w
  | .sau => l.sau

/-- Replaces the unit record of a unit. -/
def Wlc.setUnit (l : Wlc) (u : UnitId) (r : UnitRec) : Wlc :=
  match u with
  | .wheel w => { l with wheels := l.wheels.set w r }
  | .sau => { l with sau := r }

/-- ENROLLED or MISSING: the unit counts as present (R48). -/
def UnitRec.present (r : UnitRec) : Bool :=
  match r.state with
  | .enrolled | .missing => true
  | .absent | .lost => false

/-- ENROLLED or MISSING with the report held CURRENT or HELD (R108, R111). -/
def UnitRec.reporting (r : UnitRec) : Bool := r.present && r.held != .none

/-- A configured wheel is active (R80): ENROLLED, or MISSING with its report HELD; its last accepted
report has READY set; and it is not excluded. -/
def State.active (s : State) (w : Wheel) : Bool :=
  let r := s.wlc.wheels.get w
  s.cfg.wheel w && (r.state == .enrolled || (r.state == .missing && r.held == .held)) &&
    r.report.ready && !s.pru.wheelEx.get w

/-- The record of the order cell that holds a resource (section 1.5). -/
def Ore.inFlight (o : Ore) : Resource → Option (BitVec 6)
  | .grid => o.grid
  | .steer => o.steer
  | .enroll => o.enroll

/-- Replaces the entry of a resource in the in-flight table. -/
def Ore.setFlight (o : Ore) (r : Resource) (c : Option (BitVec 6)) : Ore :=
  match r with
  | .grid => { o with grid := c }
  | .steer => { o with steer := c }
  | .enroll => { o with enroll := c }

end Sys2Proof.Machine
end

