-- ==== Sys2Proof/Machine/Atc.lean ====
section
/-! DEFINITION. The Attention Controller: class events, presentability, the poll and the end of
service (sections 1.8 and 1.9, R17 to R22). -/

namespace Sys2Proof.Machine

/-- The twelve classes in ascending number (section 1.8). -/
def allClasses : List Cls :=
  [.trip, .safeStop, .faultChange, .brakeAssist, .modeChange, .envelope, .demandStale,
    .derateChange, .unitChange, .orderDone, .chainHalt, .configResult]

/-- The set with one class in it. -/
def Cls.bit (c : Cls) : BitVec 12 := BitVec.twoPow 12 c.num

/-- A class is in a set. -/
def Cls.isIn (c : Cls) (set : BitVec 12) : Bool := set.getLsbD c.num

/-- The priority of a class, 0 the most urgent (section 1.8). -/
def Atc.priority (a : Atc) (c : Cls) : Nat := a.priorities.getD c.num 7

/-- R19: pending, not masked, its priority below the threshold and below that of every class in
service. -/
def Atc.presentable (a : Atc) (c : Cls) : Bool :=
  c.isIn a.pending && !c.isIn a.mask && decide (a.priority c < a.threshold) &&
    allClasses.all fun d => !d.isIn a.inService || decide (a.priority c < a.priority d)

/-- ATTN is asserted while at least one class is presentable (R19). -/
def State.attn (s : State) : Bool := allClasses.any s.atc.presentable

/-- The most urgent of the classes of an ascending list that pass a test: the numerically lowest
priority, and among equal priorities the lower number (R20). -/
def Atc.mostUrgent (a : Atc) (test : Cls → Bool) : List Cls → Option Cls
  | [] => none
  | c :: rest =>
    match Atc.mostUrgent a test rest with
    | none => if test c then some c else none
    | some d => if test c && decide (a.priority c ≤ a.priority d) then some c else some d

/-- The attention pending mirror (section 1.2). -/
def putPendingMirror (s : State) : State := put 0x0022 [s.atc.pending.setWidth 16] s

/-- The attention in-service mirror (section 1.2). -/
def putServiceMirror (s : State) : State := put 0x0024 [s.atc.inService.setWidth 16] s

/-- A class event (R18). "A class already pending stays pending, and the second event leaves no
separate trace"; each change of the pending set is written to its mirror. -/
def raise (c : Cls) (s : State) : State :=
  if c.isIn s.atc.pending then s
  else putPendingMirror (s.setAtc { s.atc with pending := s.atc.pending ||| c.bit })

/-- A class event when a condition holds. -/
def raiseIf (b : Bool) (c : Cls) (s : State) : State := if b then raise c s else s

/-- Takes a class out of the in-service set and rewrites its mirror (R21). -/
def endService (c : Cls) (s : State) : State :=
  if c.isIn s.atc.inService then
    putServiceMirror (s.setAtc { s.atc with inService := s.atc.inService &&& ~~~c.bit })
  else s

/-- The class presented goes from pending to in service, both mirrors are rewritten, and the read
returns the valid flag with the class number (R20). That bits 14 to 4, which section 1.9 does not name,
read 0 is the model's choice (assumption log 46). -/
def presentClass (c : Cls) (s : State) : State :=
  let a := { s.atc with
    pending := s.atc.pending &&& ~~~c.bit
    inService := s.atc.inService ||| c.bit }
  (putServiceMirror (putPendingMirror (s.setAtc a))).setHostData (natWord (0x8000 + c.num))

/-- A read of ATTN_POLL (R20). -/
def poll (s : State) : State :=
  match s.atc.mostUrgent s.atc.presentable allClasses with
  | some c => presentClass c s
  | none => s.setHostData 0

/-- Section 1.9, ATTN_END in the specific form: a class 12 to 15 is ignored (R23). -/
def endSpecific (n : BitVec 4) (s : State) : State :=
  match allClasses.find? fun c => c.num == n.toNat with
  | some c => endService c s
  | none => s

/-- ATTN_END in the non-specific form ends the most urgent class in service (R21). -/
def endNonSpecific (s : State) : State :=
  match s.atc.mostUrgent (fun c => c.isIn s.atc.inService) allClasses with
  | some c => endService c s
  | none => s

/-- ATTN_MASK is replaced from bits 0 to 11 (R22). -/
def writeMask (value : Word) (s : State) : State :=
  s.setAtc { s.atc with mask := value.setWidth 12 }

/-- ATTN_THRESHOLD holds 0..8: a write above 8 stores 8 (R22). -/
def writeThreshold (value : Word) (s : State) : State :=
  s.setAtc { s.atc with threshold := min value.toNat 8 }

/-- The priorities of an accepted configuration (R17). -/
def applyPriorities (s : State) : State :=
  s.setAtc { s.atc with priorities := s.cfg.priorities }

/-! ## What the host reads -/

/-- A read of the exchange memory with RS low: 0x0000 while RESET is low (R30). -/
def State.readMemory (s : State) (address : BitVec 13) : Word :=
  if s.isRunning then s.word (2 * address.toNat) else 0

/-- A read of the register window (section 1.9, R22, R23) but for ATTN_POLL, whose read is a command
of its own: 0x0000 while RESET is low (R30). -/
def State.readRegister (s : State) (register : BitVec 3) : Word :=
  if s.isRunning then
    match register.toNat with
    | 0 => s.partStatus
    | 4 => s.atc.mask.setWidth 16
    | 5 => natWord s.atc.threshold
    | _ => 0
  else 0

end Sys2Proof.Machine
end

