-- ==== Sys2Proof/Machine/Ore.lean ====
section
/-! DEFINITION. The Order Engine's own operations: order cells, their ending, completions and the
chain state (sections 1.4 and 1.5). -/

namespace Sys2Proof.Machine

/-- "Order cell n begins at 0x0800 + 64 × n" (section 1.1.1). -/
def cellBase (cell : BitVec 6) : Nat := 0x0800 + 64 * cell.toNat

/-- The state word of a cell is POSTED (section 1.4). -/
def State.cellPosted (s : State) (cell : BitVec 6) : Bool := s.word (cellBase cell) == 1

/-- The state word of a cell is TAKEN (section 1.4). -/
def State.cellTaken (s : State) (cell : BitVec 6) : Bool := s.word (cellBase cell) == 2

/-- Argument word `i` of a cell, from cell offset 0x08 (section 1.4). -/
def State.cellArg (s : State) (cell : BitVec 6) (i : Nat) : Word :=
  s.word (cellBase cell + 0x08 + 2 * i)

/-- The eight detail words: those given, and 0 for the rest (assumption log 9). -/
def detailWords (ws : List Word) : List Word := (ws ++ List.replicate 8 0).take 8

/-- The state word in which a result ends a cell: DONE for OK, FAILED for every other code (R13). -/
def resultState : Result → Word
  | .ok => 3
  | .badKind | .badArgument | .wrongMode | .busy | .conflict | .aborted | .timeout | .unitAbsent
  | .interrupted => 4

/-- The end of an order: the result code, the detail, the done stamp and the final state, in that
order (R9). -/
def writeEnd (cell : BitVec 6) (r : Result) (detail : List Word) (s : State) : State :=
  let base := cellBase cell
  put base [resultState r]
    (put (base + 0x36) (longWords s.clock) (put (base + 0x20) (resultCode r :: detailWords detail) s))

/-- Ends a cell and raises ORDER_DONE (R13). -/
def endCell (cell : BitVec 6) (r : Result) (detail : List Word) (s : State) : State :=
  raise .orderDone (writeEnd cell r detail s)

/-- BAD_ARGUMENT with the byte offset of the offending argument in detail word 0 (section 1.5.1). -/
def endBadArgument (cell : BitVec 6) (offset : Word) (s : State) : State :=
  endCell cell .badArgument [offset] s

/-- Frees a resource in the in-flight table. -/
def freeResource (r : Resource) (s : State) : State := s.setOre (s.ore.setFlight r none)

/-- A completion at the ORE (R14): when the in-flight table holds that cell for that resource, the
cell is ended, the resource is freed and ORDER_DONE is raised; otherwise the completion is
dropped. -/
def complete (r : Resource) (cell : BitVec 6) (result : Result) (detail : List Word) (s : State) :
    State :=
  if s.ore.inFlight r = some cell then
    raise .orderDone (freeResource r (writeEnd cell result detail s))
  else s

/-- Rewrites cursor, chain state and behind flag in the header when any of them changes (R5). -/
def setChain (o : Ore) (s : State) : State :=
  if o.cursor = s.ore.cursor ∧ o.chain = s.ore.chain ∧ o.behind = s.ore.behind then s.setOre o
  else put 0x001C [natWord o.cursor.toNat, o.chain.code, boolWord o.behind] (s.setOre o)

/-- CHAIN_RESTART: an index of 0..63 sets the cursor, clears the behind flag and sets RUNNING; an
index of 64 or more is ignored (R16). -/
def restartChain (index : BitVec 7) (s : State) : State :=
  if index.toNat < 64 then
    setChain { s.ore with cursor := index.setWidth 6, behind := false, chain := .running } s
  else s

/-- The link word END (section 1.4). -/
def linkEnd : Word := 0x00FF

/-- What a link names: END, a cell, or nothing (R11, R12). -/
inductive Link where
  | finish
  | cell (c : BitVec 6)
  | bad
  deriving DecidableEq, Repr

/-- The link of a cell as it stands (section 1.4). -/
def State.link (s : State) (cell : BitVec 6) : Link :=
  let w := s.word (cellBase cell + 0x04)
  if w = linkEnd then .finish else if w.toNat < 64 then .cell (w.setWidth 6) else .bad

/-- R10: every cell found TAKEN after a reset other than POWER_ON is ended INTERRUPTED, and one
ORDER_DONE is raised when at least one was. -/
def visitTaken (s : State) : State :=
  let taken := (List.range 64).filter fun n => s.cellTaken (BitVec.ofNat 6 n)
  let s := taken.foldl (fun s n => writeEnd (BitVec.ofNat 6 n) .interrupted [] s) s
  raiseIf (!taken.isEmpty) .orderDone s

end Sys2Proof.Machine
end

