-- ==== Sys2Proof/Machine/Pru.lean ====
section
/-! DEFINITION. The Protection Unit's own operations: the fault table and its observations, the
severity summary and the exclusion sets as they follow from the table, the EXTERNAL_STOP filter and
the fault table image (chapter 10). What a changed summary or set does to the other blocks stands in
Settle.lean. -/

namespace Sys2Proof.Machine

/-! ## The fault table image (R184) -/

def Entry.words (e : Entry) : List Word :=
  [bytePair e.kind.num e.subject.code, bytePair e.state.code e.action.code,
    bytePair e.setProgress e.clearProgress] ++
    longWords e.firstSeen ++ longWords e.lastChange ++ [natWord e.occurrence]

/-- The number of LATCHED entries. -/
def Pru.latchedCount (p : Pru) : Nat := (p.entries.filter fun e => e.state == .latched).length

/-- The wheels of a set in the order of their bits. -/
def wheelBits (p : PerWheel Bool) : List Bool := [p.w1, p.w2, p.w3, p.w4]

/-- The banks of a set in the order of their bits. -/
def bankBits (p : PerBank Bool) : List Bool := [p.b1, p.b2, p.b3, p.b4, p.b5, p.b6]

def Pru.summaryWords (p : Pru) (clock : Long) : List Word :=
  [natWord p.summary.code, bitsWord (wheelBits p.wheelEx), bitsWord (bankBits p.bankEx),
    bytePair p.entries.length p.latchedCount,
    bitsWord [p.filter.active, p.filter.edgeHeld, p.filter.lastLow]] ++ longWords clock ++ [0]

/-- Places 0 to 43 hold the entries in table order, every place beyond them is 0, and place 47 is
the summary place. -/
def Pru.image (p : Pru) (clock : Long) : List Word :=
  (((p.entries.take 44).flatMap Entry.words) ++ List.replicate 376 0).take 376 ++
    p.summaryWords clock

def putFaultImage (s : State) : State := put 0x1800 (s.pru.image s.clock) s

/-- Replaces the PRU's state and rewrites the image when the table, the summary, a set or the filter
changes (R184). -/
def updatePru (p : Pru) (s : State) : State :=
  if p.entries = s.pru.entries ∧ p.summary = s.pru.summary ∧ p.wheelEx = s.pru.wheelEx ∧
      p.bankEx = s.pru.bankEx ∧ p.filter = s.pru.filter
  then s.setPru p
  else putFaultImage (s.setPru p)

/-! ## Observations (R175 to R177) -/

/-- Set counts (R175). -/
def Kind.setCount : Kind → Nat
  | .wheelFault | .steerFault | .linkOvervolt => 3
  | .wheelLost | .windingHot | .speedImplausible | .wheelSlide | .peakSpent | .gridHot | .sauLost
  | .steerTracking | .linkUndervolt | .demandStale | .demandLost | .payloadOverload
  | .envelopeExceeded | .blowerFail | .configGuard | .externalStop | .noTractionUnits
  | .noGrid => 1

/-- Clear counts (R175). -/
def Kind.clearCount : Kind → Nat
  | .wheelFault | .steerFault => 10
  | .linkOvervolt => 25
  | .wheelLost | .windingHot | .speedImplausible | .wheelSlide | .peakSpent | .gridHot | .sauLost
  | .steerTracking | .linkUndervolt | .demandStale | .demandLost | .payloadOverload
  | .envelopeExceeded | .blowerFail | .configGuard | .externalStop | .noTractionUnits
  | .noGrid => 1

/-- R178: the action override of the kind in the active configuration, which before the first
acceptance is the kind's default; "CONFIG_GUARD is always TRIP". -/
def Params.action (c : Params) (k : Kind) : Action :=
  if k = .configGuard then .trip else Action.ofCode (c.overrides.getD (k.num - 1) 0)

/-- R177: whether an entry that reaches its clear count latches. -/
def Params.latches (c : Params) (k : Kind) (a : Action) : Bool :=
  (k == .externalStop && !c.stopLevel) ||
    match a with
    | .safeStop | .trip => true
    | .exclude => c.strict
    | .note => false

/-- An entry enters ACTIVE (R176). -/
def Entry.activate (clock : Long) (e : Entry) : Entry :=
  { e with
    state := .active
    occurrence := min 65535 (e.occurrence + 1)
    clearProgress := 0
    lastChange := clock }

/-- An entry changes state (R176). -/
def Entry.move (state : EntryState) (clock : Long) (e : Entry) : Entry :=
  { e with state := state, lastChange := clock }

/-- The entry that a first present observation appends (R176). -/
def Entry.fresh (c : Params) (clock : Long) (k : Kind) (subject : Subject) : Entry :=
  let e : Entry :=
    { kind := k, subject := subject, state := .pending, action := c.action k, setProgress := 1
      clearProgress := 0, cond := true, firstSeen := clock, lastChange := clock, occurrence := 0 }
  if k.setCount ≤ 1 then e.activate clock else e

/-- A present observation of an entry: the entry after it, and whether its state changed (R176). -/
def Entry.seePresent (clock : Long) (e : Entry) : Entry × Bool :=
  match e.state with
  | .active => ({ e with clearProgress := 0, cond := true }, false)
  | .pending | .latched | .cleared =>
    let e := { e with setProgress := e.setProgress + 1, cond := true }
    if e.kind.setCount ≤ e.setProgress then (e.activate clock, true) else (e, false)

/-- An absent observation of an entry: the entry after it, or none when it is removed, and whether
its state changed (R176). Set progress is set to 0 at each one (assumption log 17). -/
def Entry.seeAbsent (c : Params) (clock : Long) (e : Entry) : Option Entry × Bool :=
  match e.state with
  | .pending => (none, true)
  | .active =>
    let e := { e with clearProgress := e.clearProgress + 1, setProgress := 0, cond := false }
    if e.kind.clearCount ≤ e.clearProgress then
      (some (e.move (if c.latches e.kind e.action then .latched else .cleared) clock), true)
    else (some e, false)
  | .latched | .cleared => (some { e with setProgress := 0, cond := false }, false)

/-- One observation of the (kind, subject) pair over the table: the table after it, and whether an
entry was created, changed state or was removed (R176). -/
def observeEntries (c : Params) (clock : Long) (k : Kind) (subject : Subject) (present : Bool) :
    List Entry → List Entry × Bool
  | [] => if present then ([Entry.fresh c clock k subject], true) else ([], false)
  | e :: rest =>
    if e.kind = k ∧ e.subject = subject then
      if present then
        let r := e.seePresent clock
        (r.1 :: rest, r.2)
      else
        let r := e.seeAbsent c clock
        (r.1.toList ++ rest, r.2)
    else
      let r := observeEntries c clock k subject present rest
      (e :: r.1, r.2)

/-- An observation at the PRU, over its table alone; the summary and the sets are formed again by
`settle`. -/
def note (k : Kind) (subject : Subject) (present : Bool) (s : State) : State :=
  let r := observeEntries s.cfg s.clock k subject present s.pru.entries
  raiseIf r.2 .faultChange (updatePru { s.pru with entries := r.1 } s)

/-- An observation when one is made. -/
def noteIf (b : Bool) (k : Kind) (subject : Subject) (present : Bool) (s : State) : State :=
  if b then note k subject present s else s

/-- The WLC reports the loss condition of a unit (R48); the PRU holds that of each wheel (R181). -/
def reportLoss (u : UnitId) (present : Bool) (s : State) : State :=
  match u with
  | .wheel w =>
    note .wheelLost (.wheel w) present
      (s.setPru { s.pru with lossHeld := s.pru.lossHeld.set w present })
  | .sau => note .sauLost .steering present s

/-- In the band of LINK_OVERVOLT between present and absent, "it sets both progress counts of the
entry to 0" (R175). -/
def clearProgressOf (k : Kind) (s : State) : State :=
  updatePru
    { s.pru with
      entries := s.pru.entries.map fun e =>
        if e.kind = k then { e with setProgress := 0, clearProgress := 0 } else e } s

/-- The observation of LINK_OVERVOLT at a filtered update (R175). -/
def noteOvervolt (vF : Nat) (s : State) : State :=
  if s.cfg.vTrip < vF then note .linkOvervolt .global true s
  else if vF + 100 < s.cfg.vTrip then note .linkOvervolt .global false s
  else clearProgressOf .linkOvervolt s

/-! ## Summary and sets (R179, R180) -/

/-- ACTIVE or LATCHED: the entry counts in the summary and the sets. -/
def Entry.stands (e : Entry) : Bool :=
  match e.state with
  | .active | .latched => true
  | .pending | .cleared => false

/-- The graver of two summaries. -/
def Severity.graver (a b : Severity) : Severity := if a.code < b.code then b else a

/-- "the highest action over the ACTIVE and LATCHED entries" (R179). -/
def formSummary (entries : List Entry) : Severity :=
  entries.foldr (fun e a => if e.stands then Severity.graver a e.action.severity else a) .none

/-- A subject is named by a standing entry whose action is EXCLUDE, SAFE_STOP or TRIP (R180). -/
def isExcluded (entries : List Entry) (subject : Subject) : Bool :=
  entries.any fun e => e.subject == subject && e.stands && e.action != .note

def formWheelEx (entries : List Entry) : PerWheel Bool :=
  PerWheel.ofFn fun w => isExcluded entries (.wheel w)

def formBankEx (entries : List Entry) : PerBank Bool :=
  PerBank.ofFn fun b => isExcluded entries (.bank b)

/-! ## Escalation (R181) -/

/-- No configured wheel is both enrolled and outside the exclusion set, in a working mode. -/
def State.noTraction (s : State) : Bool :=
  s.dmc.mode.working && s.cfg.wheels.all fun w => s.pru.lossHeld.get w || s.pru.wheelEx.get w

/-- Every configured bank is excluded while the guard state is 1. -/
def State.noGridLeft (s : State) : Bool := s.cfl.guardOn && s.cfg.banks.all s.pru.bankEx.get

/-- The observations of NO_TRACTION_UNITS and NO_GRID (R181), the former first, which is the model's choice
(assumption log 10). -/
def observeEscalation (s : State) : State :=
  note .noGrid .global s.noGridLeft (note .noTractionUnits .global s.noTraction s)

/-! ## Configuration and start-up -/

/-- The action of an entry after an accepted configuration (R178). The last-change stamp is set on
an entry whose action changes (assumption log 18). -/
def Entry.rewriteAction (c : Params) (clock : Long) (e : Entry) : Entry :=
  if c.action e.kind = e.action then e
  else { e with action := c.action e.kind, lastChange := clock }

/-- "the PRU rewrites the action of every entry from the new overrides" (R178). -/
def rewriteActions (s : State) : State :=
  let es := s.pru.entries.map (Entry.rewriteAction s.cfg s.clock)
  raiseIf (es != s.pru.entries) .faultChange (updatePru { s.pru with entries := es } s)

/-- A change of EXTERNAL_STOP mode by an accepted configuration (R182). -/
def changeStopMode (s : State) : State :=
  updatePru
    { s.pru with
      filter :=
        { s.pru.filter with
          lowRun := 0
          highRun := 0
          lastLow := false
          edgeHeld := !s.cfg.stopLevel && s.pru.filter.active } } s

/-- What SOFT_RESTART and GUARD keep of the table (R174). -/
def keptEntries (entries : List Entry) : List Entry :=
  (entries.filter fun e => !(e.state == .pending && e.occurrence == 0)).map fun e =>
    { e with setProgress := 0, clearProgress := 0 }

/-- The values that CONFIG_GUARD takes at start-up after GUARD (R174). -/
def Entry.guardFault (clock : Long) (e : Entry) : Entry :=
  { e with
    state := .latched
    action := .trip
    cond := false
    occurrence := min 65535 (e.occurrence + 1)
    lastChange := clock }

/-- Enters fault CONFIG_GUARD (R174): an existing entry is reused, otherwise one is appended. That both progress
counts of an appended one are 0, as R174 sets those of a kept one, is the model's choice (assumption log
57). -/
def enterGuardFault (clock : Long) : List Entry → List Entry
  | [] =>
    [Entry.guardFault clock
      { kind := .configGuard, subject := .global, state := .latched, action := .trip
        setProgress := 0, clearProgress := 0, cond := false, firstSeen := clock
        lastChange := clock, occurrence := 0 }]
  | e :: rest =>
    if e.kind = .configGuard then e.guardFault clock :: rest
    else e :: enterGuardFault clock rest

/-! ## The EXTERNAL_STOP filter (R182) -/

/-- The filter turns ACTIVE: "each change of filter state sets the run counts to 0", and in EDGE mode
the edge-held mark is set. -/
def StopFilter.turnActive (level : Bool) (f : StopFilter) : StopFilter :=
  { f with active := true, lowRun := 0, highRun := 0, edgeHeld := !level }

/-- The filter turns INACTIVE. -/
def StopFilter.turnInactive (f : StopFilter) : StopFilter :=
  { f with active := false, lowRun := 0, highRun := 0 }

/-- A sample of the input in LEVEL mode. -/
def StopFilter.sampleLevel (low : Bool) (f : StopFilter) : StopFilter :=
  if f.active then
    if low then { f with highRun := 0 }
    else if 3 ≤ f.highRun + 1 then f.turnInactive
    else { f with highRun := f.highRun + 1 }
  else if low then
    if 3 ≤ f.lowRun + 1 then f.turnActive true else { f with lowRun := f.lowRun + 1 }
  else { f with lowRun := 0 }

/-- A sample of the input in EDGE mode. -/
def StopFilter.sampleEdge (low : Bool) (f : StopFilter) : StopFilter :=
  if f.active then f
  else if low then
    if !f.lastLow then { f with lowRun := 1 }
    else if f.lowRun = 0 then f
    else if 3 ≤ f.lowRun + 1 then f.turnActive false
    else { f with lowRun := f.lowRun + 1 }
  else { f with lowRun := 0 }

/-- One sample by the mode in force; "Each sample then becomes the last sample level". -/
def StopFilter.sample (level low : Bool) (f : StopFilter) : StopFilter :=
  let f := if level then f.sampleLevel low else f.sampleEdge low
  { f with lastLow := low }

end Sys2Proof.Machine
end

