-- ==== Sys2Proof/Machine/Tcu.lean ====
section
/-! DEFINITION. The Traction Control Unit's operations: wheel speeds, the reference speed and its
quality, slip judgement, and what a substate change or an exclusion does to it (chapter 6). -/

namespace Sys2Proof.Machine

/-- Runs an operation for wheels 1 to 4 in turn. -/
def forWheels (f : Wheel → State → State) (s : State) : State :=
  f .w4 (f .w3 (f .w2 (f .w1 s)))

/-- Replaces the TCU's record of a wheel. -/
def setTcuWheel (w : Wheel) (t : TcuWheel) (s : State) : State :=
  s.setTcu { s.tcu with wheels := s.tcu.wheels.set w t }

/-! ## What the TCU shows (R119) -/

def Tcu.words (t : Tcu) : List Word :=
  [natWord (t.vRef.getD 0), boolWord t.vRef.isSome, t.quality.code] ++ longWords t.stamp ++
    List.replicate 11 0

/-- The TCU section of the drive record, 0x2020 to 0x203F. -/
def putTcuSection (s : State) : State := put 0x2020 s.tcu.words s

/-- The traction section of a wheel (R119). At a substate or exclusion change, which brings no report, the
expected speed and flag bits 2 and 3 are those of the last report (assumption log 25), and a slip
ratio that 16 bits cannot hold is shown modulo 2^16 (assumption log 38); both are the model's
choices. -/
def TcuWheel.words (t : TcuWheel) (clock : Long) : List Word :=
  [intWord (t.held.getD 0), boolWord t.held.isSome, intWord t.ground, intWord t.expected,
    intWord t.lambda, t.slip.code, natWord t.factor, natWord t.count, natWord t.discards,
    natWord t.plausibleRun, natWord t.discardTotal,
    bitsWord [t.slideCond, t.implausibleCond, t.discarded, t.notEvaluated]] ++
    longWords (t.slideStart.getD 0) ++ longWords clock ++ List.replicate 48 0

/-- The traction section of a wheel's status block, 0x80 to 0xFF. -/
def putTraction (w : Wheel) (s : State) : State :=
  putBlock (s.wlc.wheels.get w).block 0x80 ((s.tcu.wheels.get w).words s.clock) s

/-! ## Reference speed -/

/-- V_p = N_p × GF / 100000, rounded by mode (R105). -/
def groundSpeed (c : Params) (n : Int) : Int := divInt c.nearest (n * c.groundFactor) 100000

/-- N_p as the TQA sees it: 0 while the TCU holds no speed (R104). -/
def State.wheelSpeed (s : State) (w : Wheel) : Int := (s.tcu.wheels.get w).held.getD 0

/-- A speed wheel (R111). The three conditions decide: a wheel found again whose first report is discarded
is one, with the speed held before, which is the model's choice (assumption log 44). -/
def State.speedWheel (s : State) (w : Wheel) : Bool :=
  s.cfg.wheel w && (s.wlc.wheels.get w).reporting && (s.tcu.wheels.get w).held.isSome &&
    !s.pru.wheelEx.get w

/-- |V_p| of the speed wheels (R111). -/
def State.wheelGrounds (s : State) : List Nat :=
  (allWheels.filter s.speedWheel).map fun w => (groundSpeed s.cfg (s.wheelSpeed w)).natAbs

/-- The least of a list of speeds, none of an empty one. -/
def leastOf : List Nat → Option Nat
  | [] => none
  | v :: vs => some (vs.foldr min v)

/-- The greatest of a list of speeds, none of an empty one. -/
def greatestOf : List Nat → Option Nat
  | [] => none
  | v :: vs => some (vs.foldr max v)

/-- The substates in which the least wheel speed is nearest to the ground (R111). -/
def Dmc.takesLeast (d : Dmc) : Bool :=
  match d.substate with
  | .propel | .coast => true
  | .changeover => d.target == .propel
  | .retard | .none => false

/-- V_ref in quality DEGRADED (R111): none when there is no speed wheel. -/
def State.degradedSpeed (s : State) : Option Nat :=
  if s.dmc.takesLeast then leastOf s.wheelGrounds else greatestOf s.wheelGrounds

/-- V_ref in quality FRONT from the front wheel speeds and the measured angle (R109); a report with a
front speed above 1000 is not used. -/
def frontSpeed (c : Params) (r : Report) : Option Nat :=
  if 1000 < r.field2.toNat ∨ 1000 < r.field3.toNat then none
  else
    some (divNat c.nearest
      ((r.field2.toNat + r.field3.toNat) * cos10000 r.field1.toInt) 20000)

/-- The quality judged from the neighbours as they stand (R108). -/
def State.judgedQuality (s : State) : Quality :=
  if s.cfg.rearPair && s.cfg.steerSau && s.wlc.sau.reporting then .front
  else if s.dmc.demand.hint.isSome then .hint
  else .degraded

/-- Takes a recomputed V_ref, with its stamp. -/
def setVRef (v : Option Nat) (s : State) : State :=
  s.setTcu { s.tcu with vRef := v, stamp := s.clock }

/-- Recomputes V_ref from the source of the quality held (R109 to R111). A SAU record whose last accepted report
has a front speed above 1000 gives none: V_ref and its stamp are kept, an unknown V_ref too, also at a
change to FRONT, which is the model's reading (assumption log 21). -/
def recomputeVRef (s : State) : State :=
  match s.tcu.quality with
  | .front =>
    match frontSpeed s.cfg s.wlc.sau.report with
    | some v => setVRef (some v) s
    | none => s
  | .hint => setVRef s.dmc.demand.hint s
  | .degraded => setVRef s.degradedSpeed s

/-- A quality that differs from the one held is taken, V_ref is recomputed at once from the new
source, and UNIT_CHANGE is raised (R108). -/
def judgeQuality (s : State) : State :=
  if s.judgedQuality = s.tcu.quality then s
  else raise .unitChange (recomputeVRef (s.setTcu { s.tcu with quality := s.judgedQuality }))

/-- Recomputes V_ref when the quality held is the one given. -/
def recomputeIn (q : Quality) (s : State) : State :=
  if s.tcu.quality = q then recomputeVRef s else s

/-! ## Plausibility (R106, R107) -/

/-- The round periods between the held speed's report and this one, at least 1 (R106). -/
def roundsBetween (elapsed period : Nat) : Nat := max 1 ((elapsed + period / 2) / period)

/-- R106, with the round period in force. -/
def TcuWheel.plausible (t : TcuWheel) (period : Nat) (speed : Int) (stamp : Long) : Bool :=
  decide (speed.natAbs ≤ 32000) &&
    match t.held with
    | none => true
    | some h =>
      decide ((speed - h).natAbs ≤ 2000 * roundsBetween (stamp - t.heldStamp).toNat period)

/-- A plausible report: the speed is held, and the run of R107 advances. -/
def TcuWheel.accept (t : TcuWheel) (c : Params) (speed : Int) (stamp : Long) : TcuWheel :=
  let run := min 20 (t.plausibleRun + 1)
  { t with
    held := some speed
    heldStamp := stamp
    ground := groundSpeed c speed
    discards := 0
    plausibleRun := run
    implausibleCond := t.implausibleCond && decide (run < 20)
    discarded := false }

/-- A discarded report (R106, R107). -/
def TcuWheel.discard (t : TcuWheel) : TcuWheel :=
  let n := min 65535 (t.discards + 1)
  { t with
    discards := n
    plausibleRun := 0
    discardTotal := min 65535 (t.discardTotal + 1)
    implausibleCond := t.implausibleCond || n == 5
    discarded := true }

/-! ## Slip (R112 to R118) -/

/-- The expected speed of a wheel (R112). -/
def expectedSpeed (c : Params) (vRef : Nat) (sigma : Int) (kappa : Nat) : Int :=
  divInt c.nearest (vRef * (1000 + sigma * kappa)) 1000

/-- The slip ratio of a wheel (R112). -/
def slipRatio (c : Params) (ground expected : Int) : Int :=
  divInt c.nearest (((ground.natAbs : Int) - expected) * 1000) (max expected (c.vFloor : Int))

/-- A departure in the sense that counts in a substate, and the state it leads to (R113). -/
def departure (c : Params) (sub : Substate) (lambda : Int) : Option Slip :=
  match sub with
  | .propel => if (c.lambdaOn : Int) < lambda then some .slip else none
  | .retard => if lambda < -(c.lambdaOn : Int) then some .slide else none
  | .none | .coast | .changeover => none

/-- A cut of the slip factor, not below S_min (R113). -/
def cutFactor (c : Params) (factor : Nat) : Nat := max c.sMin (divNat c.nearest (factor * c.cut) 1000)

/-- A judged report for a wheel in GRIP (R114). -/
def TcuWheel.judgeGrip (t : TcuWheel) (c : Params) (sub : Substate) (lambda : Int) : TcuWheel :=
  match departure c sub lambda with
  | none => { t with count := 0 }
  | some st =>
    if c.nOn ≤ t.count + 1 then { t with slip := st, factor := cutFactor c t.factor, count := 0 }
    else { t with count := t.count + 1 }

/-- A judged report for a wheel in SLIP or SLIDE (R115); `beyond` says that the ratio is still beyond
λ_on in the sense of the wheel's state. -/
def TcuWheel.judgeLoss (t : TcuWheel) (c : Params) (beyond : Bool) (lambda : Int) : TcuWheel :=
  if beyond then { t with factor := cutFactor c t.factor }
  else if lambda.natAbs < c.lambdaOff then { t with slip := .recover, slideStart := none }
  else t

/-- A wheel enters GRIP with persistence count 0, and its WHEEL_SLIDE condition goes (R116, R118). -/
def TcuWheel.toGrip (t : TcuWheel) : TcuWheel :=
  { t with slip := .grip, factor := 1000, count := 0, slideStart := none, slideCond := false }

/-- A judged report for a wheel in RECOVER (R116). -/
def TcuWheel.judgeRecover (t : TcuWheel) (c : Params) (sub : Substate) (lambda : Int) : TcuWheel :=
  match departure c sub lambda with
  | some st => { t with slip := st, factor := cutFactor c t.factor }
  | none =>
    if 1000 ≤ t.factor + c.sStep then t.toGrip else { t with factor := t.factor + c.sStep }

/-- The persistent slide of R118. That "finds the wheel in SLIDE at S_min" is read on the state after the
report's own move is the model's choice (assumption log 49). -/
def TcuWheel.judgeSlide (t : TcuWheel) (c : Params) (clock : Long) : TcuWheel :=
  if t.slip = .slide ∧ t.factor = c.sMin then
    match t.slideStart with
    | none => { t with slideStart := some clock }
    | some start =>
      { t with slideCond := t.slideCond || decide (c.slideTime ≤ (clock - start).toNat) }
  else t

/-- The move of the slip state at a judged report (R114 to R116). -/
def TcuWheel.moveSlip (t : TcuWheel) (c : Params) (sub : Substate) (lambda : Int) : TcuWheel :=
  match t.slip with
  | .grip => t.judgeGrip c sub lambda
  | .slip => t.judgeLoss c (decide ((c.lambdaOn : Int) < lambda)) lambda
  | .slide => t.judgeLoss c (decide (lambda < -(c.lambdaOn : Int))) lambda
  | .recover => t.judgeRecover c sub lambda

/-- A judged report (R112 to R118). -/
def TcuWheel.judge (t : TcuWheel) (c : Params) (sub : Substate) (clock : Long) (expected : Int) :
    TcuWheel :=
  let lambda := slipRatio c t.ground expected
  ({ t with expected := expected, lambda := lambda, notEvaluated := false }.moveSlip c sub
    lambda).judgeSlide c clock

/-- A report at which slip is not judged (R112). -/
def TcuWheel.skipJudge (t : TcuWheel) : TcuWheel := { t with expected := 0, notEvaluated := true }

/-- Step 5 of R104: slip is judged when the report was plausible, V_ref is known and the wheel is not
excluded (R112). -/
def State.judgedWheel (s : State) (w : Wheel) : TcuWheel :=
  let t := s.tcu.wheels.get w
  match s.tcu.vRef with
  | some v =>
    if t.discarded || s.pru.wheelEx.get w then t.skipJudge
    else
      t.judge s.cfg s.dmc.substate s.clock
        (expectedSpeed s.cfg v (outerSign s.stc.turn w) s.stc.kappa)
  | none => t.skipJudge

/-- Reports a changed condition of a wheel to the PRU. -/
def noteChange (k : Kind) (subject : Subject) (before after : Bool) (s : State) : State :=
  noteIf (before != after) k subject after s

/-- Step 1 and 2 of R104: plausibility and the held speed. "An S_p below a raised S_min is raised to
the new S_min at the wheel's next report arrival" (R103): that it is raised first, and also at a report
that is discarded or not judged, is the model's choice (assumption log 48). -/
def takeSpeed (w : Wheel) (s : State) : State :=
  let t := s.tcu.wheels.get w
  let r := (s.wlc.wheels.get w).report
  let t' := { t with factor := max t.factor s.cfg.sMin }
  let t' := if t.plausible s.wlc.roundPeriod r.field1.toInt r.stamp then
      t'.accept s.cfg r.field1.toInt r.stamp
    else t'.discard
  noteChange .speedImplausible (.wheel w) t.implausibleCond t'.implausibleCond
    (setTcuWheel w t' s)

/-- Step 5 of R104. -/
def judgeSlip (w : Wheel) (s : State) : State :=
  let t := s.tcu.wheels.get w
  let t' := s.judgedWheel w
  noteChange .wheelSlide (.wheel w) t.slideCond t'.slideCond (setTcuWheel w t' s)

/-- A REPORT arrival at the TCU (R104). -/
def tcuReport (w : Wheel) (s : State) : State :=
  runAll [takeSpeed w, judgeQuality, recomputeIn .degraded, judgeSlip w, putTraction w,
    putTcuSection] s

/-- A STEER_REPORT arrival at the TCU (R108, R109). A report with a front speed above 1000 does
nothing at the TCU (assumption log 21). -/
def tcuSteerReport (s : State) : State :=
  match frontSpeed s.cfg s.wlc.sau.report with
  | none => s
  | some _ => runAll [judgeQuality, recomputeIn .front, putTcuSection] s

/-- A page acceptance at the TCU (R108, R110). -/
def tcuPage (s : State) : State := runAll [judgeQuality, recomputeIn .hint, putTcuSection] s

/-- Replaces a wheel's record, and writes its traction section when that alters it (R119); the fields of
the last report are kept (assumption log 25). -/
def alterWheel (w : Wheel) (t : TcuWheel) (s : State) : State :=
  if t = s.tcu.wheels.get w then s else putTraction w (setTcuWheel w t s)

/-- What a substate change does to a wheel: SLIP and SLIDE become RECOVER, and the persistence count
is 0 (R117). -/
def TcuWheel.leaveSubstate (t : TcuWheel) : TcuWheel :=
  match t.slip with
  | .slip | .slide => { t with slip := .recover, count := 0, slideStart := none }
  | .grip | .recover => { t with count := 0 }

/-- A substate change, or a change of changeover target, at the TCU (R108, R111, R117). -/
def tcuSubstateChange (s : State) : State :=
  runAll [forWheels fun w s => alterWheel w (s.tcu.wheels.get w).leaveSubstate s,
    judgeQuality, recomputeIn .degraded, putTcuSection] s

/-- An exclusion change adds a wheel: GRIP, factor 1000, count 0, no slide start, and WHEEL_SLIDE
reported absent if it was present (R117). -/
def excludeAtTcu (w : Wheel) (s : State) : State :=
  let t := s.tcu.wheels.get w
  noteIf t.slideCond .wheelSlide (.wheel w) false (alterWheel w t.toGrip s)

/-- An exclusion change at the TCU (R108, R111, R117); `before` is the set before the change. -/
def tcuExclusion (before : PerWheel Bool) (s : State) : State :=
  runAll [forWheels fun w s =>
      if s.pru.wheelEx.get w && !before.get w then excludeAtTcu w s else s,
    judgeQuality, recomputeIn .degraded, putTcuSection] s

end Sys2Proof.Machine
end

