-- ==== Sys2Proof/Machine/Lmu.lean ====
section
/-! DEFINITION. The Load Model Unit's operations: the derate list, the bank heat stores, the blower,
the windings, the payload and the link voltage (chapter 9). Every division of the chapter is
truncated toward zero. -/

namespace Sys2Proof.Machine

/-! ## The derate list (R171, R172) -/

/-- One post over the list: the list after it, and whether DERATE_CHANGE is raised (R171). -/
def postEntry (clock : Long) (source : DSource) (target : DTarget) (factor : Nat) :
    List Derate → List Derate × Bool
  | [] =>
    if factor < 1000 then
      ([{ source := source, target := target, factor := factor, since := clock
          changed := clock }], true)
    else ([], false)
  | d :: rest =>
    if d.source = source ∧ d.target = target then
      if 1000 ≤ factor then (rest, true)
      else if factor = d.factor then (d :: rest, false)
      else ({ d with factor := factor, changed := clock } :: rest, false)
    else
      let r := postEntry clock source target factor rest
      (d :: r.1, r.2)

/-- One place of the image: scope BOTH is 2, scope PROPEL is 1 (R172). -/
def Derate.words (d : Derate) : List Word :=
  [d.source.code, d.target.code, if d.source.both then 2 else 1, natWord d.factor] ++
    longWords d.since ++ longWords d.changed

/-- The 24 places of the derate list image (R172). -/
def derateImage (ds : List Derate) : List Word :=
  ((ds.flatMap Derate.words) ++ List.replicate 192 0).take 192

def putDerateImage (s : State) : State := put 0x1B00 (derateImage s.lmu.derates) s

/-- A post to the derate list; the image is rewritten at every change of the list (R171, R172). -/
def post (source : DSource) (target : DTarget) (factor : Nat) (s : State) : State :=
  let r := postEntry s.clock source target factor s.lmu.derates
  if r.1 = s.lmu.derates then s
  else raiseIf r.2 .derateChange (putDerateImage (s.setLmu { s.lmu with derates := r.1 }))

/-- The factor of a pair, 1000 when the list holds no entry for it. -/
def Lmu.factorOf (l : Lmu) (source : DSource) (target : DTarget) : Nat :=
  match l.derates.find? fun d => d.source = source ∧ d.target = target with
  | some d => d.factor
  | none => 1000

/-- The least factor over the entries that a test names, 1000 when it names none. -/
def Lmu.leastFactor (l : Lmu) (test : Derate → Bool) : Nat :=
  l.derates.foldr (fun d a => if test d then min d.factor a else a) 1000

/-- D_both of a wheel: the least factor over the BOTH derates whose target is that wheel or every
wheel (R84). -/
def Lmu.dBoth (l : Lmu) (w : Wheel) : Nat :=
  l.leastFactor fun d => d.source.both && (d.target == .wheel w || d.target == .allWheels)

/-- D_prop of a wheel: the least factor over the derates of either scope whose target is that wheel
or every wheel (R84). -/
def Lmu.dProp (l : Lmu) (w : Wheel) : Nat :=
  l.leastFactor fun d => d.target == .wheel w || d.target == .allWheels

/-- D_bank: the least factor over the derates of any scope whose target is that bank or ALL_BANKS
(R123). -/
def Lmu.dBank (l : Lmu) (b : Bank) : Nat :=
  l.leastFactor fun d => d.target == .bank b || d.target == .allBanks

/-! ## What the LMU shows (R173) -/

/-- ρ of the latched payload (R169). -/
def loadRatio (c : Params) (payload : Nat) : Nat := payload * 1000 / c.ratedPayload

/-- A quantity shown in a word, or 0xFFFF for none. -/
def shownOr : Option Nat → Word
  | some n => natWord n
  | none => 0xFFFF

/-- The LMU section's words (section 9.10). R169 forms ρ at step 5 of a thermal sample: that another write shows ρ
of the payload and the rated payload as they then stand is the model's choice (assumption log 25). -/
def Lmu.words (l : Lmu) (c : Params) (clock : Long) : List Word :=
  [shownOr l.payload, shownOr (l.payload.map (loadRatio c)), shownOr l.speedCap,
    natWord l.standstill, intWord l.ambient, natWord (l.dutyUsed * 1000 / 65536),
    bytePair l.inactive l.activeCount, natWord (l.factorOf .linkLow .allWheels),
    bytePair l.undervoltCount l.undervoltClear,
    bitsWord [l.blowerFail, l.overload, l.undervolt, l.payload.isSome],
    natWord l.derates.length] ++ longWords clock ++ List.replicate 3 0 ++
    (allWheels.map fun w => intWord (l.windingTemp.get w)) ++
    (allWheels.map fun w => natWord (l.factorOf .winding (.wheel w))) ++
    (allWheels.map fun w => natWord (l.factorOf .unitRequest (.wheel w))) ++
    [bitsWord (wheelBits l.windingHot)] ++ List.replicate 3 0

/-- The LMU section of the drive record, 0x20C0 to 0x20FF. -/
def putLmuSection (s : State) : State := put 0x20C0 (s.lmu.words s.cfg s.clock) s

def Lmu.bankWords (l : Lmu) (b : Bank) (clock : Long) : List Word :=
  natLong (l.heat.get b) ++
    [intWord (l.theta.get b), natWord (l.factorOf .gridHeat (.bank b))] ++
    natLong (l.eIn.get b) ++ longWords (BitVec.ofInt 32 (l.eOut.get b)) ++
    natLong (l.onUs.get b) ++
    [bytePair (if l.hot.get b then 1 else 0) (l.hotClear.get b)] ++ longWords clock ++
    List.replicate 83 0

/-- Bytes 0x40 to 0xFF of a bank's status block. -/
def putBankHeat (b : Bank) (s : State) : State :=
  putBlock (s.wlc.bankBlock.get b) 0x40 (s.lmu.bankWords b s.clock) s

/-- Runs an operation for banks 1 to 6 in turn. -/
def forBanks (f : Bank → State → State) (s : State) : State :=
  f .b6 (f .b5 (f .b4 (f .b3 (f .b2 (f .b1 s)))))

/-! ## Ambient and blower (R161, R165) -/

/-- The ambient in °C as step 1 of R161 takes it. -/
def State.ambientNow (s : State) : Int :=
  match s.dmc.demand.ambient with
  | some t => t
  | none => s.cfg.designAmbient

/-- Step 1 of R161. -/
def takeAmbient (s : State) : State := s.setLmu { s.lmu with ambient := 10 * s.ambientNow }

/-- BLOWER_FAIL becomes present: the active count is set to 0, the condition is reported, and the
BLOWER derate of 250 is posted (R165). -/
def setBlowerFail (s : State) : State :=
  post .blower .allBanks 250
    (note .blowerFail .global true
      (s.setLmu { s.lmu with blowerFail := true, inactive := 30, activeCount := 0 }))

/-- BLOWER_FAIL becomes absent: the inactive count is set to 0, the condition is reported, and 1000 is
posted (R165). -/
def clearBlowerFail (s : State) : State :=
  post .blower .allBanks 1000
    (note .blowerFail .global false
      (s.setLmu { s.lmu with blowerFail := false, activeCount := 10, inactive := 0 }))

/-- The commanded duty from which a blower is judged, 30 % (R165). -/
def judgedDuty : Nat := 19661

/-- The judgement of the BLOWER_RUN input (R165). -/
def judgeBlower (running : Bool) (s : State) : State :=
  let l := s.lmu
  if l.blowerFail then
    if running then
      if 10 ≤ l.activeCount + 1 then clearBlowerFail s
      else s.setLmu { l with activeCount := l.activeCount + 1 }
    else s.setLmu { l with activeCount := 0 }
  else if judgedDuty ≤ l.commanded ∧ running = false then
    if 30 ≤ l.inactive + 1 then setBlowerFail s
    else s.setLmu { l with inactive := l.inactive + 1 }
  else s.setLmu { l with inactive := 0 }

/-- The blower duty used in R162 (R165). -/
def settleDuty (s : State) : State :=
  s.setLmu { s.lmu with dutyUsed := if s.lmu.blowerFail then 0 else s.lmu.commanded }

/-! ## Banks (R162 to R164) -/

/-- Q_max of a bank (R162). -/
def Params.maxHeat (c : Params) (b : Bank) : Nat := c.capacity.get b * 1000

/-- θ_b from a store and an ambient (R162). -/
def Params.temperature (c : Params) (b : Bank) (ambient : Int) (heat : Nat) : Int :=
  ambient + (heat * 10 / c.capacity.get b : Nat)

/-- E_in (R162). -/
def heatIn (c : Params) (b : Bank) (vF onUs : Nat) : Nat :=
  vF * vF * onUs / (c.resistance.get b * 1000)

/-- G, in W/°C (R162). -/
def conductance (c : Params) (duty : Nat) : Nat := c.gNat + c.gBlow * duty / 65536

/-- E_out, truncated toward zero (R162). -/
def heatOut (c : Params) (duty : Nat) (rise : Int) : Int :=
  divInt false (conductance c duty * rise) 100

/-- The bank's on-time accumulator is read and cleared, and the store and the temperature estimate
are updated (R162). -/
def updateHeat (b : Bank) (s : State) : State :=
  let ch := s.rgc.chans.get b
  let l := s.lmu
  let eIn := heatIn s.cfg b s.rgc.vF ch.onTotal
  let eOut := heatOut s.cfg l.dutyUsed (l.theta.get b - l.ambient)
  let heat := limit (s.cfg.maxHeat b) ((l.heat.get b : Int) + eIn - eOut)
  (s.setRgc { s.rgc with chans := s.rgc.chans.set b { ch with onTotal := 0 } }).setLmu
    { l with
      heat := l.heat.set b heat
      theta := l.theta.set b (s.cfg.temperature b l.ambient heat)
      eIn := l.eIn.set b eIn
      eOut := l.eOut.set b eOut
      onUs := l.onUs.set b ch.onTotal }

/-- The factor that falls from 1000 at `onset` or below to 0 at `bound` or above (R164, R166). -/
def fallingFactor (onset bound : Nat) (v : Int) : Nat :=
  if v ≤ onset then 1000
  else if (bound : Int) ≤ v then 0
  else ((bound : Int) - v).toNat * 1000 / (bound - onset)

/-- The GRID_HEAT factor of a bank (R164). -/
def Params.heatFactor (c : Params) (theta : Int) : Nat :=
  fallingFactor (10 * c.thetaOn) (10 * c.thetaTrip) theta

/-- GRID_HOT of a bank becomes absent, its clear count having reached 10 (R164). -/
def clearGridHot (b : Bank) (s : State) : State :=
  note .gridHot (.bank b) false
    (s.setLmu { s.lmu with hot := s.lmu.hot.set b false, hotClear := s.lmu.hotClear.set b 10 })

/-- A sample finds the bank below the clear level (R164). -/
def State.gridCool (s : State) (b : Bank) : Bool :=
  decide (s.lmu.theta.get b < 10 * ((s.cfg.thetaTrip : Int) - 50))

/-- The judgement of GRID_HOT (R164). -/
def judgeGridHot (b : Bank) (s : State) : State :=
  let l := s.lmu
  if l.hot.get b then
    if s.gridCool b then
      if 10 ≤ l.hotClear.get b + 1 then clearGridHot b s
      else s.setLmu { l with hotClear := l.hotClear.set b (l.hotClear.get b + 1) }
    else s.setLmu { l with hotClear := l.hotClear.set b 0 }
  else if 10 * (s.cfg.thetaTrip : Int) ≤ l.theta.get b then
    note .gridHot (.bank b) true
      (s.setLmu { l with hot := l.hot.set b true, hotClear := l.hotClear.set b 0 })
  else s.setLmu { l with hotClear := l.hotClear.set b 0 }

/-- What is left of a bank that is no longer configured goes at the first sample that finds it so
(R161). That its temperature then keeps its value, and is not formed afresh over a new C_b, is the model's
reading (assumption log 33). -/
def dropBank (b : Bank) (s : State) : State :=
  let l := s.lmu
  let s := post .gridHeat (.bank b) 1000 s
  let s := noteIf (l.hot.get b) .gridHot (.bank b) false s
  s.setLmu { s.lmu with hot := s.lmu.hot.set b false, hotClear := s.lmu.hotClear.set b 0 }

/-- Step 3 of R161 for one bank. -/
def sampleBank (b : Bank) (s : State) : State :=
  if s.cfg.bank b then
    let s := updateHeat b s
    judgeGridHot b (post .gridHeat (.bank b) (s.cfg.heatFactor (s.lmu.theta.get b)) s)
  else dropBank b s

/-! ## Wheels (R166, R167) -/

/-- WINDING_HOT of a wheel becomes present, its hot count having reached 2; the clear count starts
from 0 (R166, assumption log 32). -/
def setWindingHot (w : Wheel) (s : State) : State :=
  note .windingHot (.wheel w) true
    (s.setLmu { s.lmu with
      windingHot := s.lmu.windingHot.set w true
      windingCount := s.lmu.windingCount.set w 2
      windingClear := s.lmu.windingClear.set w 0 })

/-- WINDING_HOT of a wheel becomes absent, its clear count having reached 10; the hot count starts
from 0 (R166, assumption log 32). -/
def clearWindingHot (w : Wheel) (s : State) : State :=
  note .windingHot (.wheel w) false
    (s.setLmu { s.lmu with
      windingHot := s.lmu.windingHot.set w false
      windingClear := s.lmu.windingClear.set w 10
      windingCount := s.lmu.windingCount.set w 0 })

/-- The winding temperature of the last accepted report, in °C (R166). -/
def State.reportedTemp (s : State) (w : Wheel) : Int := (s.wlc.wheels.get w).report.field2.toInt

/-- The judgement of WINDING_HOT (R166). -/
def judgeWinding (w : Wheel) (s : State) : State :=
  let l := s.lmu
  let t := s.reportedTemp w
  if l.windingHot.get w then
    if t < (s.cfg.windingLimit : Int) - 10 then
      if 10 ≤ l.windingClear.get w + 1 then clearWindingHot w s
      else s.setLmu { l with windingClear := l.windingClear.set w (l.windingClear.get w + 1) }
    else s.setLmu { l with windingClear := l.windingClear.set w 0 }
  else if (s.cfg.windingLimit : Int) ≤ t then
    if 2 ≤ l.windingCount.get w + 1 then setWindingHot w s
    else s.setLmu { l with windingCount := l.windingCount.set w (l.windingCount.get w + 1) }
  else s.setLmu { l with windingCount := l.windingCount.set w 0 }

/-- A wheel that step 4 of R161 evaluates: configured, its report CURRENT or HELD (R166). -/
def State.evaluated (s : State) (w : Wheel) : Bool :=
  s.cfg.wheel w && (s.wlc.wheels.get w).held != .none

/-- What is left of a wheel that is no longer configured goes at the first sample that finds it so
(R161). -/
def dropWheel (w : Wheel) (s : State) : State :=
  let l := s.lmu
  let s := post .unitRequest (.wheel w) 1000 (post .winding (.wheel w) 1000 s)
  let s := noteIf (l.windingHot.get w) .windingHot (.wheel w) false s
  s.setLmu { s.lmu with
    windingHot := s.lmu.windingHot.set w false
    windingCount := s.lmu.windingCount.set w 0
    windingClear := s.lmu.windingClear.set w 0 }

/-- Step 4 of R161 for one wheel (R166, R167). -/
def sampleWheel (w : Wheel) (s : State) : State :=
  if s.evaluated w then
    let t := s.reportedTemp w
    let s := s.setLmu { s.lmu with windingTemp := s.lmu.windingTemp.set w t }
    let s := post .winding (.wheel w) (fallingFactor s.cfg.windingOnset s.cfg.windingLimit t) s
    let s := post .unitRequest (.wheel w) (min 1000 (s.wlc.wheels.get w).report.field3.toNat) s
    judgeWinding w s
  else if s.cfg.wheel w then s
  else dropWheel w s

/-! ## Payload (R168, R169) -/

/-- Latches the demand record's payload (assumption log 27). -/
def latchPayload (s : State) : State :=
  if s.dmc.demand.payloadKnown then s.setLmu { s.lmu with payload := some s.dmc.demand.payload }
  else s

/-- Standstill is counted, and the payload latched afresh at a count of 20 (R168). -/
def countStandstill (s : State) : State :=
  let n := if s.standstill then min 20 (s.lmu.standstill + 1) else 0
  let s := s.setLmu { s.lmu with standstill := n }
  if n = 20 then latchPayload s else s

/-- The PAYLOAD factor, speed cap and overload of a load ratio (R169). -/
def payloadEffect (ratio : Nat) : Nat × Option Nat × Bool :=
  if ratio ≤ 1100 then (1000, none, false)
  else if ratio ≤ 1200 then (1000 - 3 * (ratio - 1100), some 400, false)
  else (300, some 80, true)

/-- The payload effects (R169). -/
def payloadEffects (s : State) : State :=
  let e := match s.lmu.payload with
    | some p => payloadEffect (loadRatio s.cfg p)
    | none => (1000, none, false)
  let before := s.lmu.overload
  let s := post .payload .allWheels e.1 (s.setLmu { s.lmu with speedCap := e.2.1, overload := e.2.2 })
  noteChange .payloadOverload .global before e.2.2 s

/-- A page acceptance at the LMU (R168, R173). -/
def lmuPage (s : State) : State :=
  if s.lmu.payload.isNone then putLmuSection (latchPayload s) else s

/-! ## The thermal sample (R161) -/

/-- Step 6 of R161. -/
def showLmu (s : State) : State :=
  putLmuSection (forBanks (fun b s => if s.cfg.bank b then putBankHeat b s else s) s)

/-- The six steps of the thermal sample, while the guard state is 1 (R161). That it posts the derates of
several banks or wheels in ascending number, which is the order of entries appended at one sample, is
the model's choice (assumption log 47). -/
def thermalSteps (blowerRun : Bool) (s : State) : State :=
  if s.cfl.guardOn then
    runAll [takeAmbient, judgeBlower blowerRun, settleDuty, forBanks sampleBank,
      forWheels sampleWheel, countStandstill, payloadEffects, showLmu] s
  else s

/-! ## Link low (R170) -/

/-- LINK_UNDERVOLT becomes present, the undervolt count having reached 25; the clear count starts
from 0 (R170, assumption log 32). -/
def setUndervolt (s : State) : State :=
  note .linkUndervolt .global true
    (s.setLmu { s.lmu with undervolt := true, undervoltCount := 25, undervoltClear := 0 })

/-- LINK_UNDERVOLT becomes absent, the clear count having reached 25; the undervolt count starts from
0 (R170, assumption log 32). -/
def clearUndervolt (s : State) : State :=
  note .linkUndervolt .global false
    (s.setLmu { s.lmu with undervolt := false, undervoltClear := 25, undervoltCount := 0 })

/-- The judgement of LINK_UNDERVOLT (R170). -/
def judgeUndervolt (vF : Nat) (s : State) : State :=
  let l := s.lmu
  if l.undervolt then
    if s.cfg.vMin ≤ vF then
      if 25 ≤ l.undervoltClear + 1 then clearUndervolt s
      else s.setLmu { l with undervoltClear := l.undervoltClear + 1 }
    else s.setLmu { l with undervoltClear := 0 }
  else if vF < s.cfg.vMin then
    if 25 ≤ l.undervoltCount + 1 then setUndervolt s
    else s.setLmu { l with undervoltCount := l.undervoltCount + 1 }
  else s.setLmu { l with undervoltCount := 0 }

/-- The LINK_LOW factor (R170). -/
def Params.linkFactor (c : Params) (vF : Nat) : Nat :=
  if c.vLow ≤ vF then 1000
  else if vF ≤ c.vMin then 0
  else (vF - c.vMin) * 1000 / (c.vLow - c.vMin)

/-- The link where it is not expected to be held up (R170). -/
def restLink (s : State) : State :=
  let before := s.lmu.undervolt
  let s := post .linkLow .allWheels 1000 s
  noteIf before .linkUndervolt .global false
    (s.setLmu { s.lmu with undervolt := false, undervoltCount := 0, undervoltClear := 0 })

/-- A filtered update hand-off at the LMU (R170, R173). -/
def lmuLink (s : State) : State :=
  let vF := s.rgc.vF
  putLmuSection
    (if s.cfl.guardOn then
      if s.dmc.mode.working then judgeUndervolt vF (post .linkLow .allWheels (s.cfg.linkFactor vF) s)
      else restLink s
    else s)

/-! ## Configuration accepted (R163) -/

/-- The store that the first acceptance after POWER_ON sets (R163). -/
def presetHeat (c : Params) (b : Bank) (ambient : Int) : Nat :=
  limit (c.maxHeat b) (c.capacity.get b * ((c.thetaStart : Int) - ambient))

/-- A configuration accepted at the LMU (R163). That the preset estimates stand over the ambient taken at this
moment, while the held θ_amb waits for the next thermal sample, is the model's choice (assumption log
56). -/
def lmuConfig (s : State) : State :=
  let l := s.lmu
  if l.heatSet then
    s.setLmu { l with heat := PerBank.ofFn fun b => min (l.heat.get b) (s.cfg.maxHeat b) }
  else
    let heat := PerBank.ofFn fun b => presetHeat s.cfg b s.ambientNow
    s.setLmu { l with
      heatSet := true
      heat := heat
      theta := PerBank.ofFn fun b => s.cfg.temperature b (10 * s.ambientNow) (heat.get b) }

end Sys2Proof.Machine
end

