-- ==== Sys2Proof/Machine/Stc.lean ====
section
/-! DEFINITION. The Steering Coordinator's operations: angle and rate limits, the command slot, the
Ackermann factor, bias, reserve, tracking and the calibration (chapter 8). -/

namespace Sys2Proof.Machine

/-! ## What the STC shows (R159) -/

def State.stcWords (s : State) : List Word :=
  let t := s.stc
  [intWord s.dmc.demand.steerAngle, natWord t.angleLimit, natWord t.rateLimit, intWord t.command,
    intWord t.measured, bitsWord [t.enable, t.calibrateSent, t.stale, t.tracking], t.turn.code,
    natWord t.kappa, natWord t.beta, natWord t.reserve, bytePair t.exceed t.within, t.cal.code,
    t.calResult.code] ++ longWords s.clock ++ [0]

/-- The STC section of the drive record and bytes 0x40 to 0xFF of the SAU's status block. -/
def putStcSection (s : State) : State :=
  putBlock s.wlc.sau.block 0x40 (s.stcWords ++ List.replicate 80 0) (put 0x20A0 s.stcWords s)

/-! ## Limits (R148) -/

/-- δ_lim from V_ref before the SAU's capability is applied (R148). -/
def angleLimit (c : Params) : Option Nat → Nat
  | none => c.highSpeedAngle
  | some v =>
    if v < 200 then c.lock
    else if v ≤ 500 then c.lock - (c.lock - c.highSpeedAngle) * (v - 200) / 300
    else c.highSpeedAngle

/-- The rate limit from V_ref (R148). -/
def rateLimit (c : Params) : Option Nat → Nat
  | none => c.rateLo / 4
  | some v =>
    if v < 200 then c.rateLo
    else if v ≤ 500 then c.rateLo - (c.rateLo - c.rateLo / 4) * (v - 200) / 300
    else c.rateLo / 4

/-- Moves a command toward a target by at most the rate limit (R149). -/
def moveAngle (from_ target : Int) (rate : Nat) : Int :=
  if (target - from_).natAbs ≤ rate then target
  else if from_ < target then from_ + rate
  else from_ - rate

/-! ## Bias and reserve -/

/-- The six conditions of R152. The STC reads the records and the exclusion set as they stand at its event
(section 8.2). -/
def State.biasAllowed (s : State) : Bool :=
  s.dmc.substate == .propel &&
  (match s.tcu.vRef with
    | some v => decide (v < s.cfg.assistSpeed)
    | none => false) &&
  !s.stc.stale && decide (500 ≤ s.stc.measured.natAbs) &&
  s.cfg.wheels.all s.active && s.cfg.wheels.all fun w => (s.tcu.wheels.get w).slip == .grip

/-- The STC evaluates β (R152). -/
def evaluateBias (s : State) : State :=
  s.setStc { s.stc with
    beta :=
      if s.biasAllowed then min 300 (divNat s.cfg.nearest (s.stc.kappa * s.cfg.assistGain) 1000)
      else 0 }

/-- The STC forms P_res (R153). -/
def formReserve (s : State) : State :=
  s.setStc { s.stc with
    reserve :=
      if s.wlc.sau.configured && s.wlc.sau.present then
        match s.tcu.vRef with
        | some v => if v < 300 then s.cfg.reserveHi else s.cfg.reserveLo
        | none => s.cfg.reserveHi
      else 0 }

/-! ## Calibration (R156 to R158) -/

/-- The report that the SAU's record holds, or a cleared one when it holds none. -/
def State.heldSteer (s : State) : Report :=
  if s.wlc.sau.held = .none then Report.cleared else s.wlc.sau.report

/-- The detail of a calibration's end (R157, R158). -/
def State.calDetail (s : State) (word0 : Word) (r : Report) : List Word :=
  [word0, r.flags.setWidth 16, r.field1, natWord (s.since s.stc.calStart)]

/-- "At every end the calibration state becomes NONE ... The last calibration result takes the result
of the end" (R158). -/
def stopCalibration (r : CalResult) (s : State) : State :=
  s.setStc { s.stc with cal := .none, calResult := r }

/-- The end of a calibration that the STC delivers to the ORE (R157, R158). -/
def endCalibration (result : Result) (shown : CalResult) (detail : List Word) (s : State) : State :=
  complete .steer s.stc.calCell result detail (stopCalibration shown s)

/-- Ends a calibration in progress with the detail of the SAU's held report (R158). -/
def endCalibrationIf (b : Bool) (result : Result) (shown : CalResult) (s : State) : State :=
  if b && s.stc.cal != .none then endCalibration result shown (s.calDetail 0 s.heldSteer) s else s

/-- Step 4 of R151: the calibration flags of a report that answers a STEER sent with the calibrate
flag set (R157). -/
def readCalibration (s : State) : State :=
  let r := s.wlc.sau.report
  if s.wlc.sau.lastControl.getLsbD 1 then
    match s.stc.cal with
    | .none => s
    | .starting => if r.calRunning then s.setStc { s.stc with cal := .running } else s
    | .running =>
      if r.calDone then
        if r.calOk then endCalibration .ok .ok (s.calDetail 0 r) s
        else endCalibration .badArgument .failed (s.calDetail 0xFFFF r) s
      else s
  else s

/-! ## Events at the STC -/

/-- Zeroes κ, β, the turn side and both counts, and sets the angle stale mark (R147). -/
def forgetAngle (s : State) : State :=
  s.setStc { s.stc with kappa := 0, beta := 0, turn := .straight, stale := true, exceed := 0, within := 0 }

/-- The SAU record has nothing the STC may use: not reporting, or not configured (R147). -/
def State.sauSilent (s : State) : Bool := !(s.wlc.sau.configured && s.wlc.sau.reporting)

/-- The SAU is LOST, ABSENT or not configured (R147). -/
def State.sauGone (s : State) : Bool := !(s.wlc.sau.configured && s.wlc.sau.present)

/-- A SAU state change (R147, R152, R153, R158). That a STEER_TRACKING which is present stays so, also where
the steer source became NONE (R155), is the model's choice (assumption log 66). -/
def sauChange (s : State) : State :=
  runAll [fun s => if s.sauSilent then forgetAngle s else s,
    fun s => endCalibrationIf s.sauGone .unitAbsent .unitAbsent s,
    formReserve, evaluateBias, putStcSection] s

/-- The enable of a STEER telegram (R149). -/
def State.steerEnable (s : State) : Bool :=
  s.wlc.sau.held != .none && s.wlc.sau.report.ready &&
    (s.dmc.mode.working || s.dmc.mode == .standby)

/-- δ_cmd at a STEER transmit (R149). While the calibrate flag is set δ_cmd is held (R156, assumption
log 23). -/
def State.steerCommand (s : State) : Int :=
  if s.steerEnable && s.stc.cal == .none then
    moveAngle (if s.stc.enable then s.stc.command else s.stc.measured)
      (limitAbs s.stc.angleLimit s.dmc.demand.steerAngle) s.stc.rateLimit
  else s.stc.command

/-- The limits of a STEER transmit, δ_lim lowered to the SAU's capability (R148). -/
def formLimits (s : State) : State :=
  s.setStc { s.stc with
    angleLimit := min (angleLimit s.cfg s.tcu.vRef) s.wlc.sau.capability
    rateLimit := rateLimit s.cfg s.tcu.vRef }

/-- The STC fills the SAU's command slot (R149). -/
def fillSlot (s : State) : State :=
  let calibrate := s.stc.cal != .none
  let t := { s.stc with command := s.steerCommand, enable := s.steerEnable, calibrateSent := calibrate }
  (s.setWlc { s.wlc with
    sau := { s.wlc.sau with
      slotValue := t.command, slotEnable := t.enable, slotCalibrate := calibrate } }).setStc t

/-- A STEER transmit at the STC (R148, R149, R152, R153, R158). A calibration that it ends, standstill
not holding, ends after the slot is filled: "the calibrate flag is sent clear from the next STEER
transmit". -/
def stcTransmit (s : State) : State :=
  runAll [formLimits, fillSlot, fun s => endCalibrationIf (!s.standstill) .aborted .aborted s,
    formReserve, evaluateBias, putStcSection] s

/-- Steps 1 and 2 of R151: δ_m, the turn side and κ. -/
def takeAngle (s : State) : State :=
  let angle := s.wlc.sau.report.field1.toInt
  s.setStc { s.stc with
    measured := angle
    stale := false
    turn := if 0 < angle then .left else if angle < 0 then .right else .straight
    kappa :=
      min 900 (divNat s.cfg.nearest (s.cfg.halfTrack * tan10000 angle) (s.cfg.wheelbase * 10)) }

/-- N_track: 500 ms worth of reports, rounded up (R154), at a round period in ms. -/
def trackCount (period : Nat) : Nat := (500 + period - 1) / period

/-- A report is within tolerance (R154). -/
def State.trackingWithin (s : State) : Bool :=
  let r := s.wlc.sau
  !r.lastControl.getLsbD 0 || r.lastControl.getLsbD 1 ||
    decide ((r.lastValue - s.stc.measured).natAbs ≤ s.cfg.trackTol)

/-- The counts and the condition after a judged report (R154). -/
def Stc.track (t : Stc) (within : Bool) (limit : Nat) : Stc :=
  let e := if within then 0 else min 65535 (t.exceed + 1)
  let n := if within then min 65535 (t.within + 1) else 0
  { t with
    exceed := e
    within := n
    tracking := if t.tracking then decide (n < 10) else decide (limit ≤ e) }

/-- Step 3 of R151 (R154), at the round period in force: a new one is taken up at the next round start
(R26, R45). -/
def judgeTracking (s : State) : State :=
  let t := s.stc.track s.trackingWithin (trackCount s.wlc.roundPeriod)
  noteChange .steerTracking .steering s.stc.tracking t.tracking (s.setStc t)

/-- A STEER_REPORT arrival at the STC (R151). -/
def stcReport (s : State) : State :=
  runAll [takeAngle, judgeTracking, readCalibration, evaluateBias, putStcSection] s

/-- A substate change at the STC, or a change of the changeover target alone (R152, assumption log 54). -/
def stcSubstateChange (s : State) : State := runAll [evaluateBias, putStcSection] s

/-- A mode change at the STC: a calibration goes on only in READY and in STANDBY with the link kept
(R158). -/
def stcModeChange (s : State) : State :=
  let allowed := s.dmc.mode == .ready || (s.dmc.mode == .standby && s.linkKept)
  runAll [endCalibrationIf (!allowed) .aborted .aborted, putStcSection] s

/-- The hand-off of a STEER_CALIBRATE order that passed its owner check (R156). -/
def startCalibration (cell : BitVec 6) (s : State) : State :=
  putStcSection (s.setStc { s.stc with
    cal := .starting, calStart := s.clock, calCell := cell, calResult := .none })

/-- The owner check of STEER_CALIBRATE (R156). -/
def State.sauReady (s : State) : Bool := s.cfg.steerSau && s.wlc.sau.present

/-- The detail of an aborted STEER_CALIBRATE (R158). -/
def State.calAbortDetail (s : State) : List Word := s.calDetail 0 s.heldSteer

/-- The ORE's instruction to stop a calibration under an ABORT (R158). -/
def abortCalibration (s : State) : State := putStcSection (stopCalibration .aborted s)

end Sys2Proof.Machine
end

