-- ==== Sys2Proof/Machine/Rgc.lean ====
section
/-! DEFINITION. The Retard and Grid Controller's operations: link voltage, grid capacity, speed hold,
duty distribution, the chopper channels, the blower, grid tests and brake assist (chapter 7). Every
division of the chapter but those of the speed hold is truncated (R121). -/

namespace Sys2Proof.Machine

/-! ## Brake assist (R143, R144) -/

/-- BRAKE_ASSIST, as it follows from the cause set, the output mode, the pulse timer and the drive
mode (R144). -/
def State.brakeAssist (s : State) : Bool :=
  if s.cfg.outputMode = 1 then s.rgc.pulse.isSome || s.dmc.mode == .tripped else s.rgc.causes.any

/-- A change of the cause set raises BRAKE_ASSIST, and a change from empty to not empty starts the
pulse timer in PULSE (R143, R144). -/
def changeCauses (c : Causes) (s : State) : State :=
  if c = s.rgc.causes then s
  else
    raise .brakeAssist
      (s.setRgc { s.rgc with
        causes := c
        pulse :=
          if s.cfg.outputMode = 1 && !s.rgc.causes.any && c.any then some (s.clock + 500)
          else s.rgc.pulse })

/-! ## What the RGC shows (R145) -/

/-- ‰ of full of a duty. -/
def perMille (duty : Nat) : Nat := duty * 1000 / 65536

/-- The position of a bank in the rotation order, 1 to 6, or 0 when it is not in it. -/
def rotationPlace (order : List Bank) (b : Bank) : Nat :=
  if order.contains b then order.idxOf b + 1 else 0

/-- The bank at a position of the rotation order as shown: its number, 0 for an empty position. -/
def shownBank (order : List Bank) (i : Nat) : Nat :=
  match order[i]? with
  | some b => bankNum b
  | none => 0

def State.rgcWords (s : State) : List Word :=
  let g := s.rgc
  [natWord g.vF, natWord g.pTrim, natWord g.capacity, natWord g.need, natWord g.unmet,
    g.hold.code, natWord g.vEnv, natWord g.vHoldEff] ++ natLong g.integrator ++
    [natWord g.dHold, bitsWord [g.forced, g.exceeded, g.frozen, g.discharge.isSome, s.brakeAssist],
      bitsWord g.causes.bits, bytePair (shownBank g.rotation 0) (shownBank g.rotation 1),
      bytePair (shownBank g.rotation 2) (shownBank g.rotation 3),
      bytePair (shownBank g.rotation 4) (shownBank g.rotation 5),
      natWord (perMille g.blower.shadow), bytePair g.payloadBand g.gradeBand] ++
    longWords s.clock ++ List.replicate 12 0

/-- The RGC section of the drive record, 0x2060 to 0x209F. -/
def putRgcSection (s : State) : State := put 0x2060 s.rgcWords s

def State.bankWords (s : State) (b : Bank) : List Word :=
  let c := s.rgc.chans.get b
  let t := s.rgc.shows.get b
  [natWord (bankNum b), c.state.code, natWord (perMille c.duty), natWord (s.lmu.dBank b),
    natWord (rotationPlace s.rgc.rotation b), natWord c.lastOn,
    bitsWord [c.saturated, s.pru.bankEx.get b]] ++ natLong c.pulses ++
    [natWord t.pFull, t.result.code, natWord t.delivered, natWord t.before, natWord t.lowest] ++
    longWords s.clock ++ List.replicate 16 0

/-- The first 64 bytes of a configured bank's status block. -/
def putBankSection (b : Bank) (s : State) : State :=
  if s.cfg.bank b then putBlock (s.wlc.bankBlock.get b) 0 (s.bankWords b) s else s

/-- The envelope table image, 48 words at 0x1C80; 0 while there is no table (R120). -/
def putEnvelopeImage (s : State) : State :=
  put 0x1C80 ((s.rgc.table.map natWord ++ List.replicate 48 0).take 48) s

/-! ## Link voltage and capacity (R122, R123) -/

/-- A sample of the link sense input enters the list of the last 16 (R122). -/
def takeVoltage (volts : Nat) (s : State) : State :=
  s.setRgc { s.rgc with samples := s.rgc.samples.drop 1 ++ [min volts 2500] }

/-- P_trim at a filtered link voltage (R122). -/
def trimPower (c : Params) (vF : Nat) : Nat := (vF - c.vReg) * c.kTrim

/-- The capacity term of one bank (R123). -/
def bankCapacity (c : Params) (l : Lmu) (b : Bank) : Nat :=
  c.vReg * c.vReg * l.dBank b / (c.resistance.get b * 1000)

/-- A configured bank that the PRU does not exclude. -/
def State.bankServes (s : State) (b : Bank) : Bool := s.cfg.bank b && !s.pru.bankEx.get b

/-- P_grid_avail (R123). -/
def State.gridCapacity (s : State) : Nat :=
  ((allBanks.filter s.bankServes).map (bankCapacity s.cfg s.lmu)).sum

/-- Recomputes the grid capacity (R123). -/
def recomputeCapacity (s : State) : State := s.setRgc { s.rgc with capacity := s.gridCapacity }

/-- V_f and the trim at a filtered update (R122). -/
def takeFiltered (s : State) : State :=
  let vF := s.rgc.samples.sum / 16
  s.setRgc { s.rgc with vF := vF, pTrim := trimPower s.cfg vF }

/-! ## Rotation (R131) -/

/-- Puts a bank into a list sorted by heat store; a bank of equal store that came before stays
before. -/
def insertBank (heat : PerBank Nat) (b : Bank) : List Bank → List Bank
  | [] => [b]
  | c :: rest => if heat.get b < heat.get c then b :: c :: rest else c :: insertBank heat b rest

/-- The rotation order: the configured banks that are not excluded, coolest first, equal stores by
ascending number; empty until the first accepted configuration (R120, R131). -/
def State.sortedBanks (s : State) : List Bank :=
  if s.cfl.guardOn then
    (allBanks.filter s.bankServes).foldl (fun order b => insertBank s.lmu.heat b order) []
  else []

/-- Sorts the rotation order (R131). -/
def sortRotation (s : State) : State := s.setRgc { s.rgc with rotation := s.sortedBanks }

/-! ## Channels (R133 to R136) -/

/-- Replaces a bank's channel. -/
def setChan (b : Bank) (c : Chan) (s : State) : State :=
  s.setRgc { s.rgc with chans := s.rgc.chans.set b c }

/-- A grid test holds the bank as its current bank (R133). -/
def State.testCurrent (s : State) (b : Bank) : Bool :=
  match s.rgc.test with
  | some t => t.current == some b
  | none => false

/-- "A bank that a grid test has finished or skipped is OFF until the test ends" (R133). -/
def State.testDone (s : State) (b : Bank) : Bool :=
  match s.rgc.test with
  | some t => t.passed.contains b || t.skipped.contains b
  | none => false

/-- The modes in which bank channels run (R133). -/
def State.channelsRun (s : State) : Bool :=
  s.dmc.mode.working || (s.dmc.mode == .tripped && s.rgc.discharge.isSome)

/-- The state of a bank channel (R133); every one is OFF until the first acceptance (R120). -/
def State.chanState (s : State) (b : Bank) : ChanState :=
  if !s.cfl.guardOn || !s.cfg.bank b then .off
  else if s.pru.bankEx.get b then .blocked
  else if s.testCurrent b then .test
  else if s.testDone b then .off
  else if s.channelsRun then .run
  else .off

/-- The end of an ON phase: the gate goes off, and the on-time enters the accumulator (R136). -/
def Chan.endPhase (c : Chan) (onTime : Nat) : Chan :=
  { c with gate := false, fullOn := false, onTime := 0, lastOn := onTime, onTotal := c.onTotal + onTime }

/-- A channel enters a state. OFF and BLOCKED take the duty in force and the shadow to 0; RUN and TEST
start with carry 0, RUN with shadow 0 and TEST with the test duty (R133). -/
def Chan.enter (c : Chan) (st : ChanState) (testDuty : Nat) : Chan :=
  match st with
  | .off | .blocked => { c with state := st, duty := 0, shadow := 0 }
  | .run => { c with state := st, carry := 0, shadow := 0 }
  | .test => { c with state := st, carry := 0, shadow := testDuty }

/-- The time already on of a phase that is cut: a free value, at most the phase's on-time (R134,
assumption log 12). -/
def State.cutOnTime (s : State) (c : Chan) : Nat := Config.cutTime s.draws % (c.onTime + 1)

/-- A channel is cut when it goes to OFF or BLOCKED while its gate is on (R134). -/
def cutPhase (b : Bank) (s : State) : State :=
  let c := s.rgc.chans.get b
  if c.gate then (setChan b (c.endPhase (s.cutOnTime c)) s).setDraws (s.draws + 1) else s

/-- A cut for the states whose gate output is off. -/
def cutIfOff (st : ChanState) (b : Bank) (s : State) : State :=
  match st with
  | .off | .blocked => cutPhase b s
  | .run | .test => s

/-- The test duty of a running test. -/
def State.testDuty (s : State) : Nat :=
  match s.rgc.test with
  | some t => t.duty
  | none => 0

/-- The state of a bank channel is judged again (R133, R134). -/
def judgeChannel (b : Bank) (s : State) : State :=
  let st := s.chanState b
  if st = (s.rgc.chans.get b).state then s
  else
    let s := cutIfOff st b s
    putBankSection b (setChan b ((s.rgc.chans.get b).enter st s.testDuty) s)

/-- Every bank channel's state is judged again. -/
def judgeChannels (s : State) : State := forBanks judgeChannel s

/-- The row of R135 that decides a period: the channel after it. -/
def Chan.decide (c : Chan) (period minTime : Nat) : Chan :=
  let numerator := c.duty * period + c.carry
  let on := numerator / 65536
  if c.duty = 0 then { c with carry := 0, saturated := false }
  else if period - minTime < on then
    { c with carry := 0, saturated := true, gate := true, fullOn := true, onTime := period
             pulses := min 4294967295 (c.pulses + 1) }
  else if on < minTime then { c with carry := numerator, saturated := false }
  else
    { c with carry := numerator % 65536, saturated := false, gate := true, fullOn := false
             onTime := on, pulses := min 4294967295 (c.pulses + 1) }

/-- A channel's period start in RUN or TEST: a phase that runs to this start ends, the shadow is
taken, and the period is decided (R134 to R136). -/
def Chan.startPeriod (c : Chan) (period minTime : Nat) : Chan :=
  let c := if c.gate then c.endPhase c.onTime else c
  { c with duty := c.shadow }.decide period minTime

/-- A channel in RUN or TEST. -/
def ChanState.works : ChanState → Bool
  | .run | .test => true
  | .off | .blocked => false

/-! ## The blower (R137) -/

/-- The highest temperature estimate over the configured banks; none when no bank is configured. -/
def State.hottest (s : State) : Option Int :=
  (s.cfg.banks.map s.lmu.theta.get).foldr
    (fun t a => match a with
      | some u => some (max t u)
      | none => some t) none

/-- The blower law (R137). -/
def blowerLaw (c : Params) (theta : Int) : Nat :=
  if theta < 10 * c.thetaBs then 0
  else if theta < 10 * c.thetaBf then
    (theta - 10 * c.thetaBs).toNat * 65536 / (10 * (c.thetaBf - c.thetaBs))
  else 65536

/-- The cases in which the duty is raised to 30 % (R137). -/
def State.blowerFloor (s : State) : Bool :=
  s.dmc.substate == .retard ||
    ((s.dmc.variant == some .cool || s.dmc.variant == some .full) &&
      s.cfg.banks.any fun b => decide (s.lmu.ambient + 500 < s.lmu.theta.get b))

/-- The blower duty; 0 in phase LOAD (R137, assumption log 31). -/
def State.blowerDuty (s : State) : Nat :=
  if s.cfl.phase = .load then 0
  else
    let law := match s.hottest with
      | some t => blowerLaw s.cfg t
      | none => 0
    if s.blowerFloor then max law 19661 else law

/-- Recomputes the blower duty, writes channel 7's shadow and hands the duty to the LMU (R137,
R165). -/
def recomputeBlower (s : State) : State :=
  let duty := s.blowerDuty
  (s.setRgc { s.rgc with blower := { s.rgc.blower with shadow := duty } }).setLmu
    { s.lmu with commanded := duty }

/-! ## Grid tests (R139 to R141) -/

/-- A set of banks in its bits. -/
def bankSet (bs : List Bank) : Word := bitsWord (allBanks.map bs.contains)

/-- The detail of a test's end (R141). -/
def GridTest.detail (t : GridTest) : List Word :=
  [bankSet t.passed, bankSet t.skipped, bankSet t.aborted, bankSet t.waiting, natWord t.lowest]

/-- Alters what a bank's status block shows of its test, and writes the block's section at a change
(R145). -/
def showTest (b : Bank) (f : BankShow → BankShow) (s : State) : State :=
  let new := f (s.rgc.shows.get b)
  if new = s.rgc.shows.get b then s
  else putBankSection b (s.setRgc { s.rgc with shows := s.rgc.shows.set b new })

/-- Replaces the grid test record. -/
def setTest (t : Option GridTest) (s : State) : State := s.setRgc { s.rgc with test := t }

/-- Starts the lowest-numbered waiting bank, or ends the test with result OK (R140). That the bank's shown
result is NONE while it is tested is the model's choice (assumption log 40). -/
def nextBank (s : State) : State :=
  match s.rgc.test with
  | none => s
  | some t =>
    match t.waiting with
    | b :: rest =>
      let s := setTest (some { t with
        current := some b, finishing := false, waiting := rest, lowest := min t.lowest s.rgc.vF }) s
      judgeChannel b (showTest b
        (fun w => { w with result := .none, delivered := 0, before := s.rgc.vF, lowest := s.rgc.vF })
        s)
    | [] => complete .grid t.cell .ok t.detail (judgeChannels (setTest none s))

/-- The current bank's last pulse has ended: the bank passes, and the next is started (R140). -/
def passBank (b : Bank) (s : State) : State :=
  match s.rgc.test with
  | none => s
  | some t =>
    let s := setTest (some { t with current := none, finishing := false, passed := t.passed ++ [b] }) s
    nextBank (judgeChannel b (showTest b (fun w => { w with result := .pass }) s))

/-- The test with its current bank marked ABORTED (R141). -/
def GridTest.abortCurrent (t : GridTest) : GridTest :=
  { t with current := none, finishing := false, aborted := t.aborted ++ t.current.toList }

/-- Stops a running test: its current bank is marked ABORTED and its channel leaves TEST at once, a
pulse in progress being cut; the record is cleared, and the channels take the states of R133
(R141). -/
def stopTest (s : State) : State :=
  match s.rgc.test with
  | none => s
  | some t =>
    let s := match t.current with
      | some b => cutPhase b (showTest b (fun w => { w with result := .aborted }) s)
      | none => s
    judgeChannels (setTest none s)

/-- The detail of a running test that is aborted (R141). -/
def State.testAbortDetail (s : State) : List Word :=
  match s.rgc.test with
  | some t => t.abortCurrent.detail
  | none => []

/-- A running test ends ABORTED, and the RGC delivers the completion (R141). -/
def abortTestIf (b : Bool) (s : State) : State :=
  match s.rgc.test with
  | none => s
  | some t => if b then complete .grid t.cell .aborted t.abortCurrent.detail (stopTest s) else s

/-- A waiting bank that an exclusion change adds is marked SKIPPED (R140); the other test fields that its
block shows are kept (assumption log 24). -/
def skipWaiting (b : Bank) (s : State) : State :=
  match s.rgc.test with
  | none => s
  | some t =>
    if t.waiting.contains b then
      showTest b (fun w => { w with result := .skipped })
        (setTest (some { t with waiting := t.waiting.erase b, skipped := t.skipped ++ [b] }) s)
    else s

/-- The current bank, when an exclusion change adds it, is marked SKIPPED, and the next waiting bank is
started, or the test ends (R140). -/
def skipCurrent (s : State) : State :=
  match s.rgc.test with
  | none => s
  | some t =>
    match t.current with
    | none => s
    | some b =>
      if s.pru.bankEx.get b then
        let s := setTest (some { t with
          current := none, finishing := false, skipped := t.skipped ++ [b] }) s
        nextBank (judgeChannel b (showTest b (fun w => { w with result := .skipped }) s))
      else s

/-- The banks named by a bank set word, in ascending order. -/
def namedBanks (set : Word) : List Bank :=
  allBanks.filter fun b => set.getLsbD (bankNum b - 1)

/-- The owner checks of GRID_TEST: the detail of the first that fails (R139). -/
def State.testRefusal (s : State) (banks count : Word) : Option (List Word) :=
  if banks = 0 || decide (2 ^ s.cfg.bankCount ≤ banks.toNat) then some [0x0008, 0]
  else if (namedBanks banks).any s.pru.bankEx.get then some [0x0008, 0]
  else if count = 0 || decide (1000 < count.toNat) then some [0x000C, 0]
  else if s.rgc.vF < 600 then some [0xFFFF, natWord s.rgc.vF]
  else none

/-- The test duty of a duty argument in ‰ (R139). -/
def testDutyOf (duty : Word) : Nat := max 50 (min 1000 duty.toNat) * 65536 / 1000

/-- The grid test record at the hand-off (R139), with its first bank started (R140). -/
def startTest (cell : BitVec 6) (banks duty count : Word) (s : State) : State :=
  nextBank (setTest (some
    { cell := cell, duty := testDutyOf duty, count := count.toNat, current := none
      finishing := false, waiting := namedBanks banks, passed := [], skipped := [], aborted := []
      lowest := s.rgc.vF }) s)

/-- The current bank's lowest V_f at a filtered update (R140). -/
def lowerLowest (s : State) : State :=
  match s.rgc.test with
  | none => s
  | some t =>
    match t.current with
    | none => s
    | some b =>
      showTest b (fun w => { w with lowest := min w.lowest s.rgc.vF })
        (setTest (some { t with lowest := min t.lowest s.rgc.vF }) s)

/-- The test's standstill check at a filtered update in READY (R141). -/
def checkTestStandstill (s : State) : State :=
  abortTestIf (s.dmc.mode == .ready && !s.standstill) s

/-! ## Period starts and ON expiries (R134 to R136, R140) -/

/-- The current bank's last pulse has begun (R140). -/
def State.testFinishing (s : State) (b : Bank) : Bool :=
  match s.rgc.test with
  | some t => t.current == some b && t.finishing
  | none => false

/-- A pulse delivered in TEST counts, and the count reached is marked (R140). -/
def countPulse (b : Bank) (s : State) : State :=
  match s.rgc.test with
  | none => s
  | some t =>
    if t.current = some b then
      let n := (s.rgc.shows.get b).delivered + 1
      showTest b (fun w => { w with delivered := n })
        (setTest (some { t with finishing := decide (t.count ≤ n) }) s)
    else s

/-- A bank channel's period start (R134 to R136). At the end of the last pulse of a tested bank no
further pulse begins (R140). -/
def bankPeriod (b : Bank) (s : State) : State :=
  let c := s.rgc.chans.get b
  if c.state.works then
    if s.testFinishing b then passBank b (setChan b (if c.gate then c.endPhase c.onTime else c) s)
    else
      let c' := c.startPeriod s.rgc.chopper s.cfg.minTime
      let s := setChan b c' s
      if c'.gate && c'.state == .test then countPulse b s else s
  else s

/-- The blower's period start is the start of a master period, which takes up the chopper period of
the active configuration (R134). -/
def blowerPeriod (s : State) : State :=
  let s := s.setRgc { s.rgc with chopper := s.cfg.chopperPeriod }
  if s.rgc.blower.state.works then
    s.setRgc { s.rgc with blower := s.rgc.blower.startPeriod s.rgc.chopper s.cfg.minTime }
  else s

/-- A channel's ON expiry ends a phase that is not full on (R134, R136, R140). -/
def bankExpiry (b : Bank) (s : State) : State :=
  let c := s.rgc.chans.get b
  if c.gate && !c.fullOn then
    let done := s.testFinishing b
    let s := setChan b (c.endPhase c.onTime) s
    if done then passBank b s else s
  else s

def blowerExpiry (s : State) : State :=
  let c := s.rgc.blower
  if c.gate && !c.fullOn then s.setRgc { s.rgc with blower := c.endPhase c.onTime } else s

/-! ## Distribution (R132) -/

/-- P_full of a bank (R132). -/
def fullPower (c : Params) (vF : Nat) (b : Bank) : Nat := vF * vF / c.resistance.get b

/-- The duty of one bank and the need that remains after it (R132). -/
def bankDuty (c : Params) (l : Lmu) (vF : Nat) (b : Bank) (remaining : Nat) : Nat × Nat :=
  let full := fullPower c vF b
  let cap := l.dBank b * 65536 / 1000
  if full = 0 || remaining = 0 then (0, remaining)
  else if cap ≤ remaining * 65536 / full then (cap, remaining - cap * full / 65536)
  else (remaining * 65536 / full, 0)

/-- Writes a duty to a running channel's shadow; in OFF and BLOCKED shadows are ignored (R133). -/
def writeShadow (b : Bank) (duty : Nat) (s : State) : State :=
  let c := s.rgc.chans.get b
  if c.state = .run then setChan b { c with shadow := duty } s else s

/-- The banks of the rotation order are taken in turn, skipping a bank in TEST; the need remaining
after the last is the grid unmet (R132). -/
def distribute : List Bank → Nat → State → State
  | [], remaining, s => s.setRgc { s.rgc with unmet := remaining }
  | b :: rest, remaining, s =>
    if (s.rgc.chans.get b).state = .test then distribute rest remaining s
    else
      let d := bankDuty s.cfg s.lmu s.rgc.vF b remaining
      distribute rest d.2 (writeShadow b d.1 s)

/-- With V_f below 100 V every bank duty is 0 and the grid unmet is the need (R132). That the shadow of a
bank in TEST keeps the test duty is the model's choice (assumption log 41). -/
def distributeNone (need : Nat) (s : State) : State :=
  let s := s.rgc.rotation.foldl (fun s b => writeShadow b 0 s) s
  s.setRgc { s.rgc with unmet := need }

/-- The P_full that a bank's status block shows at an arrival (R145). -/
def showFull (s : State) : State :=
  s.setRgc { s.rgc with
    shows := PerBank.ofFn fun b =>
      let w := s.rgc.shows.get b
      if s.cfg.bank b then { w with pFull := fullPower s.cfg s.rgc.vF b } else w }

/-- A grid demand arrival: the record is taken and marked processed, and the duty is distributed where
bank channels run (R132). -/
def arrival (s : State) : State :=
  let s := showFull (s.setRgc { s.rgc with demandNew := false })
  if s.channelsRun then
    let need := s.rgc.demand + s.rgc.pTrim
    let s := s.setRgc { s.rgc with need := need }
    if s.rgc.vF < 100 then distributeNone need s else distribute s.rgc.rotation need s
  else s.setRgc { s.rgc with need := 0, unmet := 0 }

/-- A post of P_ret by the TQA replaces the grid demand record and marks it unprocessed (R132). -/
def postDemand (pRet : Nat) (s : State) : State :=
  s.setRgc { s.rgc with demand := pRet, demandNew := true }

/-! ## Speed hold (R125 to R129) -/

/-- The payload band (R126). -/
def payloadBandOf : Option Nat → Nat
  | none => 5
  | some r =>
    if r ≤ 200 then 0 else if r ≤ 400 then 1 else if r ≤ 600 then 2 else if r ≤ 800 then 3
    else if r ≤ 1000 then 4 else 5

/-- The grade band of a downhill grade, 7 when the grade is not known (R126). -/
def gradeBandOf (known : Bool) (g : Int) : Nat :=
  if !known then 7
  else if g ≤ 20 then 0 else if g ≤ 40 then 1 else if g ≤ 60 then 2 else if g ≤ 80 then 3
  else if g ≤ 100 then 4 else if g ≤ 120 then 5 else if g ≤ 140 then 6 else 7

/-- The downhill grade in the adopted direction (R126). -/
def State.downhill (s : State) : Int :=
  if s.dmc.adopted = .forward then -s.dmc.demand.grade else s.dmc.demand.grade

/-- The maximum of the adopted direction (R126). -/
def State.directionMax (s : State) : Nat :=
  if s.dmc.adopted = .forward then s.tqa.maxForward else s.tqa.maxReverse

/-- The lesser of a speed and a bound, when there is one. -/
def boundedBy (v : Nat) : Option Nat → Nat
  | some cap => min v cap
  | none => v

/-- The payload band in force. -/
def State.payloadBand (s : State) : Nat := payloadBandOf (s.lmu.payload.map (loadRatio s.cfg))

/-- The grade band in force. -/
def State.gradeBand (s : State) : Nat := gradeBandOf s.dmc.demand.gradeKnown s.downhill

/-- V_env (R126). -/
def State.envelopeSpeed (s : State) : Nat :=
  if s.dmc.demand.gradeKnown && decide (s.downhill ≤ 0) then s.directionMax
  else
    boundedBy
      (min (s.rgc.table.getD (8 * s.payloadBand + s.gradeBand) 0) s.directionMax)
      s.lmu.speedCap

/-- Step 1 of R125. -/
def formEnvelope (s : State) : State :=
  s.setRgc { s.rgc with
    vEnv := s.envelopeSpeed, payloadBand := s.payloadBand, gradeBand := s.gradeBand }

/-- V_ref is known and above a speed. -/
def State.above (s : State) (v : Nat) : Bool :=
  match s.tcu.vRef with
  | some r => v < r
  | none => false

/-- The hold mode and V_hold_eff (R127). -/
def State.holdMode (s : State) : Hold × Nat :=
  if s.tcu.vRef.isNone then (.off, 0)
  else if 0 < s.dmc.demand.holdSpeed then (.setpoint, min s.dmc.demand.holdSpeed s.rgc.vEnv)
  else if s.above s.rgc.vEnv then (.envelope, s.rgc.vEnv)
  else (.off, 0)

/-- A live propel demand (R127). -/
def State.propelLive (s : State) : Bool :=
  decide (0 < s.dmc.demand.propel) && !s.dmc.masks.anyButForced

/-- Step 2 of R125: the hold mode, V_hold_eff and the forced-retard flag (R127). An unknown V_ref is taken
as not above V_env, so that a live propel demand then clears the flag: the model's choice (assumption
log 50). -/
def formHold (s : State) : State :=
  s.setRgc { s.rgc with
    hold := s.holdMode.1, vHoldEff := s.holdMode.2
    forced := s.propelLive && s.above s.rgc.vEnv }

/-- Step 3 of R125 is skipped: propel wins, or hold is OFF (R127). -/
def State.holdSkipped (s : State) : Bool :=
  s.rgc.hold == .off || (s.propelLive && !s.above s.rgc.vEnv)

/-- The binding limits that freeze the integrator (R128). -/
def Binding.freezes : Binding → Bool
  | .power | .derate | .slip | .capacity | .clamp => true
  | .none | .request | .rate => false

/-- A wheel was active at the TQA's last allocation event (R80, R94). -/
def State.wasActive (s : State) (w : Wheel) : Bool := !(s.tqa.wheels.get w).flags.inactive

/-- The integrator is frozen (R128). -/
def State.integratorFrozen (s : State) : Bool :=
  s.dmc.substate == .retard && allWheels.any s.wasActive &&
    allWheels.all fun w => !s.wasActive w || (s.tqa.wheels.get w).binding.freezes

/-- The integrator increment (R128). -/
def State.increment (s : State) (e : Int) : Int :=
  divInt s.cfg.nearest (s.cfg.ki * e * s.rgc.period) 10

/-- I_acc after an increment (R128). -/
def nextIntegrator (acc : Nat) (increment : Int) (frozen : Bool) : Nat :=
  limit 1000000 ((acc : Int) + if frozen && decide (0 < increment) then 0 else increment)

/-- d_hold of an error and an integrator (R128). -/
def holdDemand (c : Params) (e : Int) (acc : Nat) : Nat :=
  limit 1000 (divInt c.nearest (c.kp * e) 10 + divInt c.nearest acc 1000)

/-- Step 3 of R125 (R128). That the flag "integrator frozen" is shown clear at an update which skips the
step, also where hold is SETPOINT and the binding limits would freeze, is the model's choice
(assumption log 62). -/
def updateHold (s : State) : State :=
  if s.holdSkipped then s.setRgc { s.rgc with integrator := 0, dHold := 0, frozen := false }
  else
    let e : Int := (s.tcu.vRef.getD 0 : Int) - s.rgc.vHoldEff
    let acc := nextIntegrator s.rgc.integrator (s.increment e) s.integratorFrozen
    s.setRgc { s.rgc with
      integrator := acc, dHold := holdDemand s.cfg e acc, frozen := s.integratorFrozen }

/-- ENVELOPE_EXCEEDED changes: it is reported, class ENVELOPE is raised, and the cause ENVELOPE is
added or removed (R129, R143). -/
def changeExceeded (present : Bool) (s : State) : State :=
  if present = s.rgc.exceeded then s
  else
    let s := note .envelopeExceeded .global present (s.setRgc { s.rgc with exceeded := present })
    changeCauses { s.rgc.causes with envelope := present } (raise .envelope s)

/-- V_ref is known and not above V_env. -/
def State.withinEnvelope (s : State) : Bool := s.tcu.vRef.isSome && !s.above s.rgc.vEnv

/-- Step 4 of R125 (R129). -/
def countEnvelope (s : State) : State :=
  let g := s.rgc
  if s.above (g.vEnv + 20) then
    let t := min 1000 (g.exceedTime + g.period)
    let s := s.setRgc { g with exceedTime := t, clearTime := 0 }
    if 1000 ≤ t then changeExceeded true s else s
  else if s.withinEnvelope then
    let t := min 1000 (g.clearTime + g.period)
    let s := s.setRgc { g with clearTime := t, exceedTime := 0 }
    if 1000 ≤ t then changeExceeded false s else s
  else s.setRgc { g with exceedTime := 0, clearTime := 0 }

/-- Hold runs: DRIVE or SAFE_STOP with a driving direction adopted (R125). -/
def State.holdRuns (s : State) : Bool :=
  (s.dmc.mode == .drive || s.dmc.mode == .safeStop) && s.dmc.adopted != .neutral

/-- The values that replace steps 1 to 4 where hold does not run (R125). -/
def restHold (s : State) : State :=
  changeExceeded false
    (s.setRgc { s.rgc with
      hold := .off, vEnv := 0, vHoldEff := 0, integrator := 0, dHold := 0, forced := false
      frozen := false, payloadBand := 0, gradeBand := 0, exceedTime := 0, clearTime := 0 })

/-- The wheels that SHORTFALL is tested over (R142). -/
def State.shortfallWheels (s : State) : List Wheel :=
  allWheels.filter fun w => s.wasActive w && (s.tcu.wheels.get w).slip != .slide

/-- ΣT × 1000 is below a part of ΣR, in ‰, and ΣR is above 0. -/
def State.retardBelow (s : State) (part : Nat) : Bool :=
  let t := (s.shortfallWheels.map fun w => (s.tqa.wheels.get w).reference.natAbs).sum
  let r := (s.shortfallWheels.map fun w => (s.tqa.wheels.get w).request).sum
  decide (0 < r) && decide (t * 1000 < part * r)

/-- The retarding is short (R142). -/
def State.isShort (s : State) : Bool := s.retardBelow 900

/-- The retarding is sufficient (R142). -/
def State.isSufficient (s : State) : Bool := !s.retardBelow 950

/-- SHORTFALL is added, its time having reached 300 ms (R142). -/
def addShortfall (s : State) : State :=
  changeCauses { s.rgc.causes with shortfall := true }
    (s.setRgc { s.rgc with shortfallTime := 300, recoveryTime := 0 })

/-- SHORTFALL is removed, the recovery time having reached 300 ms (R142). -/
def removeShortfall (s : State) : State :=
  changeCauses { s.rgc.causes with shortfall := false }
    (s.setRgc { s.rgc with recoveryTime := 300, shortfallTime := 0 })

/-- The test of SHORTFALL (R142). -/
def testShortfall (s : State) : State :=
  let g := s.rgc
  if s.dmc.substate = .retard then
    if g.causes.shortfall then
      if s.isSufficient then
        if 300 ≤ g.recoveryTime + g.period then removeShortfall s
        else s.setRgc { g with recoveryTime := g.recoveryTime + g.period }
      else s.setRgc { g with recoveryTime := 0 }
    else if s.isShort then
      if 300 ≤ g.shortfallTime + g.period then addShortfall s
      else s.setRgc { g with shortfallTime := g.shortfallTime + g.period }
    else s.setRgc { g with shortfallTime := 0 }
  else
    changeCauses { g.causes with shortfall := false }
      (s.setRgc { g with shortfallTime := 0, recoveryTime := 0 })

/-- POST_RESET goes at a hold update at which V_ref is known and below 5 (R143). -/
def testPostReset (s : State) : State :=
  if s.standstill then changeCauses { s.rgc.causes with postReset := false } s else s

/-- The allocation period of the active configuration is taken up at the start of a period (R26). -/
def takeHoldPeriod (s : State) : State := s.setRgc { s.rgc with period := s.cfg.allocPeriod }

/-- The hold update (R125). -/
def holdSteps (s : State) : State :=
  let s := takeHoldPeriod s
  let s := if s.holdRuns then runAll [formEnvelope, formHold, updateHold, countEnvelope] s
    else restHold s
  runAll [testShortfall, testPostReset, putRgcSection] s

/-! ## LOAD_ENVELOPE (R130) -/

/-- The staging area's 48 words (section 1.2). -/
def State.stagedEnvelope (s : State) : List Nat :=
  (List.range 48).map fun i => (s.word (0x0600 + 2 * i)).toNat

/-- The first check that entry `i` of a table fails: 1 range, 2 row, 3 column (R130). -/
def envelopeFault (t : List Nat) (i : Nat) : Option Nat :=
  let e := t.getD i 0
  if e < 30 || 600 < e then some 1
  else if i % 8 ≠ 0 && t.getD (i - 1) 0 < e then some 2
  else if 8 ≤ i && t.getD (i - 8) 0 < e then some 3
  else none

/-- The detail of the first entry of a table that fails a check, in ascending offset (R130). -/
def envelopeRefusal (t : List Nat) : Option (List Word) :=
  (List.range 48).findSome? fun i =>
    (envelopeFault t i).map fun check => [natWord (i / 8), natWord (i % 8), natWord check]

/-- The live table is replaced whole, and the image is rewritten from it (R130). -/
def setEnvelope (t : List Nat) (s : State) : State :=
  putEnvelopeImage (s.setRgc { s.rgc with table := t })

/-! ## Events from other blocks -/

/-- What a change of the bank exclusion set brings: the rotation order, a grid test and the channels
follow the set (R124); `before` is the set before the change. That a change which adds the current bank
of a test and a waiting one marks the waiting one first is the model's choice (assumption log 65). -/
def followBanks (before : PerBank Bool) (s : State) : State :=
  runAll [sortRotation,
    forBanks fun b s => if s.pru.bankEx.get b && !before.get b then skipWaiting b s else s,
    skipCurrent, judgeChannels] s

/-- An exclusion change at the RGC; `before` is the bank set before the change. The capacity is
recomputed at a change of either set, and a change of the wheel set needs no other action (R123,
R124). -/
def rgcExclusion (before : PerBank Bool) (s : State) : State :=
  recomputeCapacity (if s.pru.bankEx = before then s else followBanks before s)

/-- The cause set after a mode change (R143). At a move from SAFE_STOP to TRIPPED both causes change in one
act, so that the set does not pass through empty (assumption log 42). -/
def State.modeCauses (s : State) : Causes :=
  { s.rgc.causes with
    tripped := s.dmc.mode == .tripped
    safeStop := s.dmc.mode == .safeStop
    postReset := s.rgc.causes.postReset && !(s.dmc.mode == .ready && s.tcu.vRef.isSome) }

/-- The discharge timer is started at each entry into TRIPPED and stopped at leaving it (R138). -/
def startDischarge (s : State) : State :=
  s.setRgc { s.rgc with
    discharge := if s.dmc.mode = .tripped then some (s.clock + 2000) else none }

/-- A mode change at the RGC (R133, R137, R138, R141, R143). -/
def rgcModeChange (s : State) : State :=
  runAll [startDischarge, abortTestIf (!(s.dmc.mode == .ready || s.dmc.mode == .standby)),
    judgeChannels, recomputeBlower, fun s => changeCauses s.modeCauses s] s

/-- A substate change at the RGC, or a change of the changeover target alone (R137, assumption log 54). -/
def rgcSubstateChange (s : State) : State := recomputeBlower s

/-- An accepted configuration at the RGC: the envelope table and its image, the rotation order, the
channels and the capacity (R26, R120, R123, R131, R133). -/
def rgcConfig (s : State) : State :=
  runAll [setEnvelope s.cfg.envelope, sortRotation, judgeChannels, recomputeCapacity] s

/-- The blower channel is OFF in phase LOAD and RUN at every other time (R133). -/
def startBlower (s : State) : State :=
  if s.cfl.phase = .load then s
  else if s.rgc.blower.state = .run then s
  else s.setRgc { s.rgc with blower := s.rgc.blower.enter .run 0 }

end Sys2Proof.Machine
end

