-- ==== Sys2Proof/Machine/Tqa.lean ====
section
/-! DEFINITION. The Torque Allocator's operations: the allocation event, the peak credit and SET_LIMITS
(chapter 5). Every division rounds by mode but the two shares of power (R81). -/

namespace Sys2Proof.Machine

/-! ## Per-wheel terms (R82 to R84) -/

/-- n_eff (R82). -/
def effSpeed (c : Params) (speed : Int) : Nat := max speed.natAbs c.nFloor

/-- C_p (R83). -/
def baseCap (c : Params) (spent : Bool) (capability : Nat) : Nat :=
  min (if spent then c.tCont else c.tPeak) capability

/-- C_p of a wheel (R83). -/
def State.wheelCap (s : State) (w : Wheel) : Nat :=
  baseCap s.cfg (s.tqa.wheels.get w).spent (s.wlc.wheels.get w).capability

/-- T_pow of a share at a speed (R85, R87). -/
def powerTorque (c : Params) (share nEff : Nat) : Nat :=
  divNat c.nearest (Config.powerConstant * share) nEff

/-- A magnitude lowered by a factor in ‰ (R86, R89). -/
def lowered (c : Params) (magnitude factor : Nat) : Nat := divNat c.nearest (magnitude * factor) 1000

/-- P_trac (R85). -/
def tractionBudget (engine cap reserve : Nat) : Nat := min engine cap - reserve

/-- The propel request from T_peak, d_p and σ × β (R86). -/
def propelRequest (c : Params) (demand : Nat) (bias : Int) : Nat :=
  divNat c.nearest (lowered c c.tPeak demand * (1000 + bias).toNat) 1000

/-- The fade of R88 is applied. -/
def fades (c : Params) : Option Nat → Bool
  | some v => v < c.vFade
  | none => false

/-- The retard request (R88). -/
def retardRequest (c : Params) (demand : Nat) (vRef : Option Nat) : Nat :=
  let t := lowered c c.tPeak demand
  match vRef with
  | some v => if v < c.vFade then divNat c.nearest (t * v) c.vFade else t
  | none => t

/-! ## Rate limit, clamp and binding limit (R91 to R93) -/

/-- A magnitude with the sign of a signed value. -/
def withSign (sign : Int) (magnitude : Nat) : Int := sign.sign * (magnitude : Int)

/-- One event of the rate limit (R91). -/
def rateLimited (c : Params) (previous target : Int) : Int :=
  let t := if previous * target < 0 then 0 else target
  if previous.natAbs < t.natAbs then withSign t (min t.natAbs (previous.natAbs + c.rUp))
  else withSign previous (max t.natAbs (previous.natAbs - c.rDown))

/-- The clamp (R92). -/
def clamped (cap : Nat) (reference : Int) : Int := limitAbs cap reference

/-- The binding limit before it is overridden (R93). -/
def tableBinding (request tSlip cap tPow derate slip : Nat) : Binding :=
  if request ≤ tSlip then .request
  else if 1000 ≤ derate ∧ 1000 ≤ slip then
    if cap ≤ tPow then .capacity else .power
  else if 1000 ≤ slip then .derate
  else if 1000 ≤ derate then .slip
  else if derate ≤ slip then .derate
  else .slip

/-- RATE and CLAMP override the limit found (R93). -/
def overrideBinding (found : Binding) (target limited final : Int) : Binding :=
  if final ≠ limited then .clamp else if limited ≠ target then .rate else found

/-! ## One wheel's computation -/

/-- The terms of one active wheel before the rate limit. -/
structure Terms where
  request : Nat
  tSlip : Nat
  target : Int
  tPow : Nat
  derate : Nat
  slip : Nat
  bias : Int
  faded : Bool
  retarding : Bool
  found : Binding
  deriving DecidableEq, Repr

/-- The terms of a wheel in PROPEL (R86, R93). -/
def propelTerms (s : State) (w : Wheel) (share : Nat) : Terms :=
  let c := s.cfg
  let bias := outerSign s.stc.turn w * s.stc.beta
  let derate := s.lmu.dProp w
  let slip := (s.tcu.wheels.get w).factor
  let cap := s.wheelCap w
  let tPow := powerTorque c share (effSpeed c (s.wheelSpeed w))
  let request := propelRequest c s.dmc.effPropel bias
  let tSlip := lowered c (lowered c (min cap tPow) derate) slip
  let tgt : Int := (min request tSlip : Nat)
  { request := request, tSlip := tSlip
    target := if s.dmc.adopted = .reverse then -tgt else tgt
    tPow := tPow, derate := derate, slip := slip, bias := bias, faded := false
    retarding := false, found := tableBinding request tSlip cap tPow derate slip }

/-- The terms of a wheel in RETARD (R88, R89, R93). -/
def retardTerms (s : State) (w : Wheel) (share : Nat) : Terms :=
  let c := s.cfg
  let derate := s.lmu.dBoth w
  let slip := (s.tcu.wheels.get w).factor
  let cap := s.wheelCap w
  let tPow := powerTorque c share (effSpeed c (s.wheelSpeed w))
  let request := retardRequest c s.dmc.effRetard s.tcu.vRef
  let tSlip := lowered c (lowered c (min cap tPow) derate) slip
  { request := request, tSlip := tSlip
    target := withSign (-s.wheelSpeed w) (min request tSlip)
    tPow := tPow, derate := derate, slip := slip, bias := 0, faded := fades c s.tcu.vRef
    retarding := true, found := tableBinding request tSlip cap tPow derate slip }

/-- The terms of a wheel in COAST and CHANGEOVER: target and request 0, T_pow not computed (R90), the
factors shown as 1000 (assumption log 25), the binding limit REQUEST (R93). -/
def restTerms : Terms :=
  { request := 0, tSlip := 0, target := 0, tPow := 0, derate := 1000, slip := 1000, bias := 0
    faded := false, retarding := false, found := .request }

/-- The share P_w of the event, truncated whatever the rounding mode (R81, R85, R87). -/
def State.shareOf (s : State) (n : Nat) : Nat :=
  match s.dmc.substate with
  | .propel =>
    tractionBudget s.dmc.demand.enginePower s.tqa.propelCap s.stc.reserve / n
  | .retard => min 5000 (s.rgc.capacity / n)
  | .none | .coast | .changeover => 0

/-- The terms of an active wheel by substate. -/
def State.terms (s : State) (w : Wheel) (share : Nat) : Terms :=
  match s.dmc.substate with
  | .propel => propelTerms s w share
  | .retard => retardTerms s w share
  | .none | .coast | .changeover => restTerms

/-- The sign guard acts on a previous reference (R89). -/
def guards (retarding : Bool) (speed previous : Int) : Bool := retarding && decide (0 < speed * previous)

/-- The record of an active wheel from its terms (R89 to R94). Where the target's sign is opposite to a nonzero
previous reference, R91 takes it as 0 for the rate limit: that the target shown, and tested for RATE, is
the computed one also then is the model's choice (assumption log 53). -/
def TqaWheel.compute (t : TqaWheel) (c : Params) (speed : Int) (cap : Nat) (k : Terms) : TqaWheel :=
  let guarded := guards k.retarding speed t.reference
  let limited := rateLimited c (if guarded then 0 else t.reference) k.target
  let final := clamped cap limited
  { t with
    reference := final
    target := k.target
    request := k.request
    binding := overrideBinding k.found k.target limited final
    flags :=
      { zero := decide (final = 0), negative := decide (final < 0), inactive := false
        biased := decide (k.bias ≠ 0), faded := k.faded, guarded := guarded }
    nEff := effSpeed c speed
    tPow := k.tPow
    cap := cap
    derateApplied := k.derate
    slipApplied := k.slip
    biasApplied := k.bias }

/-- A wheel that is not active, or a mode without allocation (R78, R80, R94). The table of R101 gives no
value for a factor that is not applied: that the derate and slip factors are then shown as 1000 is the
model's choice (assumption log 25). -/
def TqaWheel.rest (t : TqaWheel) : TqaWheel := TqaWheel.reset t.credit t.spent t.spentByUse

/-- The reference of a wheel is a retarding reference, and its power in kW (R96). -/
def retardPower (c : Params) (reference speed : Int) : Nat :=
  if reference * speed < 0 then divNat c.nearest (reference * speed).natAbs Config.powerConstant else 0

/-! ## The allocation event (R78) -/

/-- The number of active wheels (R80). -/
def State.activeCount (s : State) : Nat := (allWheels.filter s.active).length

/-- The computation of READY, DRIVE and SAFE_STOP (R80 to R94). -/
def allocate (s : State) : State :=
  let n := s.activeCount
  let share := s.shareOf n
  s.setTqa { s.tqa with
    wheels := PerWheel.ofFn fun w =>
      let t := s.tqa.wheels.get w
      if s.active w then t.compute s.cfg (s.wheelSpeed w) (s.wheelCap w) (s.terms w share)
      else t.rest
    nAct := n
    pTrac :=
      if s.dmc.substate = .propel ∧ n ≠ 0 then
        tractionBudget s.dmc.demand.enginePower s.tqa.propelCap s.stc.reserve
      else 0
    pW := share }

/-- STARTING, STANDBY and TRIPPED: the computation is skipped (R78). -/
def skipAllocation (s : State) : State :=
  s.setTqa { s.tqa with
    wheels := PerWheel.ofFn fun w => (s.tqa.wheels.get w).rest
    nAct := 0
    pTrac := 0
    pW := 0 }

/-- P_ret over the references of the event (R96). -/
def State.retardTotal (s : State) : Nat :=
  (allWheels.map fun w => retardPower s.cfg (s.tqa.wheels.get w).reference (s.wheelSpeed w)).sum

/-- A torque written into a wheel's command slot. -/
def setSlot (w : Wheel) (torque : Int) (s : State) : State :=
  s.setWlc { s.wlc with
    wheels := s.wlc.wheels.set w { s.wlc.wheels.get w with slotValue := torque } }

/-- Each wheel's reference goes into its command slot, unconfigured wheels 0 (R95). -/
def writeSlots (s : State) : State :=
  forWheels (fun w s => setSlot w (s.tqa.wheels.get w).reference s) s

/-- P_ret is posted, 0 included (R96). -/
def postRetard (s : State) : State :=
  let p := s.retardTotal
  postDemand p (s.setTqa { s.tqa with pRet := p })

/-- K_max (R97). -/
def Params.maxCredit (c : Params) : Nat := (c.tPeak - c.tCont) * c.peakTime

/-- The credit after an event with a reference magnitude (R97). -/
def nextCredit (c : Params) (period credit magnitude : Nat) : Nat :=
  min c.maxCredit
    (if c.tCont < magnitude then credit - (magnitude - c.tCont) * period
    else credit + divNat c.nearest ((c.tCont - magnitude) * period * c.recovery) 1000)

/-- The peak state after an update (R98). -/
def TqaWheel.movePeak (t : TqaWheel) (c : Params) : TqaWheel :=
  if c.maxCredit = 0 then { t with spent := true, spentByUse := false }
  else if t.spent then
    if divNat c.nearest c.maxCredit 4 ≤ t.credit then { t with spent := false, spentByUse := false }
    else t
  else if t.credit = 0 then { t with spent := true, spentByUse := true }
  else t

/-- The PEAK_SPENT condition (R98). -/
def TqaWheel.peakCond (t : TqaWheel) : Bool := t.spent && t.spentByUse

/-- The credit update of one configured wheel, and its report to the PRU (R97, R98). -/
def updateCredit (w : Wheel) (s : State) : State :=
  if s.cfg.wheel w then
    let t := s.tqa.wheels.get w
    let t' := { t with
      credit := nextCredit s.cfg s.tqa.period t.credit t.reference.natAbs }.movePeak s.cfg
    noteChange .peakSpent (.wheel w) t.peakCond t'.peakCond
      (s.setTqa { s.tqa with wheels := s.tqa.wheels.set w t' })
  else s

/-- The credit update is made while the guard state is 1 (R78). -/
def updateCredits (s : State) : State := if s.cfl.guardOn then forWheels updateCredit s else s

/-! ## What the allocator shows (R101, R102) -/

def TqaWheel.words (t : TqaWheel) (clock : Long) : List Word :=
  [intWord t.reference, intWord t.target, natWord t.request, t.binding.code, bitsWord t.flags.bits,
    natWord t.nEff, natWord t.tPow, natWord t.cap, natWord t.derateApplied, natWord t.slipApplied,
    intWord t.biasApplied, boolWord t.spent] ++ natLong t.credit ++ longWords clock ++
    List.replicate 16 0

/-- The allocator section of a configured wheel's status block, 0x40 to 0x7F. -/
def putAllocator (w : Wheel) (s : State) : State :=
  if s.cfg.wheel w then
    putBlock (s.wlc.wheels.get w).block 0x40 ((s.tqa.wheels.get w).words s.clock) s
  else s

def State.tqaWords (s : State) : List Word :=
  let t := s.tqa
  [natWord t.nAct, natWord t.pTrac, natWord t.pW, natWord s.rgc.capacity, natWord t.pRet,
    natWord t.propelCap, natWord t.maxForward, natWord t.maxReverse] ++ longWords s.clock ++
    List.replicate 6 0

/-- The TQA section of the drive record, 0x2040 to 0x205F. -/
def putTqaSection (s : State) : State := put 0x2040 s.tqaWords s

/-- The allocation period of the active configuration is taken up at the start of a period (R78). -/
def takeAllocPeriod (s : State) : State := s.setTqa { s.tqa with period := s.cfg.allocPeriod }

/-- The allocation event (R78). -/
def allocationSteps (s : State) : State :=
  runAll [takeAllocPeriod, fun s => if s.dmc.mode.working then allocate s else skipAllocation s,
    writeSlots, postRetard, updateCredits, forWheels putAllocator, putTqaSection] s

/-! ## SET_LIMITS (R100) -/

/-- The limits of the arguments, each clamped (R100). -/
def setLimitValues (forward reverse cap : Word) (s : State) : State :=
  s.setTqa { s.tqa with
    maxForward := min forward.toNat 640
    maxReverse := min reverse.toNat 200
    propelCap := min cap.toNat 5000 }

/-- The detail of SET_LIMITS: the set of clamped arguments, and the values now in force (R100). -/
def limitDetail (forward reverse cap : Word) : List Word :=
  [bitsWord [decide (640 < forward.toNat), decide (200 < reverse.toNat), decide (5000 < cap.toNat)],
    natWord (min forward.toNat 640), natWord (min reverse.toNat 200), natWord (min cap.toNat 5000)]

/-- The limits in force are replaced by the block's values at an accepted configuration (R100). -/
def tqaConfig (s : State) : State :=
  s.setTqa { s.tqa with
    maxForward := s.cfg.maxForward, maxReverse := s.cfg.maxReverse, propelCap := s.cfg.propelCap }

end Sys2Proof.Machine
end

