-- ==== Sys2Proof/Machine/Wlc.lean ====
section
/-! DEFINITION. The Wheel Link Controller's operations: unit records, roll calls, rounds, status block
placement, the ROLL_CALL order and QUIET (chapter 3). -/

namespace Sys2Proof.Machine

/-! ## Unit records -/

/-- Replaces a unit's record. A change of the SAU record's state or report held is made known to the
STC (R147), and so is one by which it becomes or ceases to be configured, which is the model's choice
(assumption log 52). -/
def changeUnit (u : UnitId) (r : UnitRec) (s : State) : State :=
  let old := s.wlc.unit u
  let s := s.setWlc (s.wlc.setUnit u r)
  if u = .sau ∧ (old.state ≠ r.state ∨ old.held ≠ r.held ∨ old.configured ≠ r.configured) then
    sauChange s
  else s

/-- The link section of a unit's status block (section 3.6). -/
def UnitRec.words (r : UnitRec) (u : UnitId) : List Word :=
  [(unitAddress u).setWidth 16, (unitKind u).setWidth 16, r.state.code, natWord r.misses,
    natWord r.corrupt, natWord r.capability, natWord r.revision, r.lastSeq.setWidth 16,
    r.lastControl.setWidth 16, intWord r.lastValue, r.held.code] ++ longWords r.report.stamp ++
    [r.report.flags.setWidth 16, r.report.field1, r.report.field2, r.report.field3,
      r.report.field4, r.report.field5] ++ List.replicate 13 0

/-- Writes a unit's link section whole; a record without a status block is not written (R51). -/
def putLink (u : UnitId) (s : State) : State :=
  putBlock (s.wlc.unit u).block 0 ((s.wlc.unit u).words u) s

/-- The directory offset of a unit (section 1.2). -/
def unitDirectory : UnitId → Nat
  | .wheel .w1 => 0x0030
  | .wheel .w2 => 0x0032
  | .wheel .w3 => 0x0034
  | .wheel .w4 => 0x0036
  | .sau => 0x0038

/-- The directory offset of a bank (section 1.2). -/
def bankDirectory (b : Bank) : Nat := 0x0038 + 2 * bankNum b

/-- The capability of an answer, limited (R42). -/
def takenCapability (u : UnitId) (w : Word) : Nat :=
  match u with
  | .wheel _ => min w.toNat 20000
  | .sau => min w.toNat 4500

/-- The values a record takes from an accepted ROLL_ANSWER (R42, R50). -/
def UnitRec.enroll (r : UnitRec) (u : UnitId) (bytes : List Byte) : UnitRec :=
  { r with
    state := .enrolled
    misses := 0
    held := .none
    report := Report.cleared
    capability := takenCapability u (wordAt bytes 4)
    revision := (byteAt bytes 3).toNat }

/-- The values a record takes when its unit did not answer a roll call, or is no longer configured
(R41, R42). -/
def UnitRec.absent (r : UnitRec) : UnitRec := { r with state := .absent, misses := 0, held := .none }

/-- The values a record takes from an accepted REPORT or STEER_REPORT (R49). -/
def UnitRec.accept (r : UnitRec) (report : Report) : UnitRec :=
  { r with state := .enrolled, misses := 0, held := .current, report := report }

/-- The values a record takes from a missed DRIVE or STEER exchange (R48). -/
def UnitRec.miss (r : UnitRec) (missLimit : Nat) : UnitRec :=
  let n := min missLimit (r.misses + 1)
  if missLimit ≤ n then { r with misses := n, state := .lost, held := .none }
  else
    { r with
      misses := n
      state := .missing
      held := match r.held with
        | .current | .held => .held
        | .none => .none }

/-- The corrupt count rises by 1, up to 65535 (R39). -/
def UnitRec.corrupted (r : UnitRec) : UnitRec := { r with corrupt := min 65535 (r.corrupt + 1) }

/-- A record takes up whether it is configured; one found no longer configured becomes ABSENT, its
loss condition is reported absent, and its link section is written (R41, R48, R51). That a record which
no configuration has named since the reset is not "no longer configured", so that an entry of its loss
kept through SOFT_RESTART or GUARD stands, is the model's choice (assumption log 64). -/
def takeConfigured (u : UnitId) (s : State) : State :=
  let r := s.wlc.unit u
  if s.cfg.unit u then changeUnit u { r with configured := true } s
  else if r.configured then
    putLink u (reportLoss u false (changeUnit u { r.absent with configured := false } s))
  else s

/-- Runs an operation for the five units in rank order. -/
def forUnits (f : UnitId → State → State) (s : State) : State :=
  f .sau (forWheels (fun w => f (.wheel w)) s)

/-! ## Placement (R43, R44) -/

/-- Places a unit's block at the placement cursor, writes its directory word and its link section. The
traction section of a wheel's new block is first written at the next event of R119, which is the
model's choice (assumption log 45). -/
def placeUnit (u : UnitId) (s : State) : State :=
  let at_ := s.wlc.cursor
  let r := s.wlc.unit u
  let l := { s.wlc with cursor := at_ + 256 }
  putLink u (put (unitDirectory u) [natWord at_] (s.setWlc (l.setUnit u { r with block := some at_ })))

/-- Places a bank's block at the placement cursor and writes its directory word. That the owners' sections
are written not then but at their next events is the model's choice (assumption log 45). -/
def placeBank (b : Bank) (s : State) : State :=
  let at_ := s.wlc.cursor
  put (bankDirectory b) [natWord at_]
    (s.setWlc { s.wlc with cursor := at_ + 256, bankBlock := s.wlc.bankBlock.set b (some at_) })

/-- An ENROLLED record without a block receives one (R43, R44). -/
def placeIfEnrolled (u : UnitId) (s : State) : State :=
  if (s.wlc.unit u).state = .enrolled ∧ (s.wlc.unit u).block = none then placeUnit u s else s

/-- A configured bank without a block receives one (R43, R44). -/
def placeIfConfigured (b : Bank) (s : State) : State :=
  if s.cfg.bank b ∧ s.wlc.bankBlock.get b = none then placeBank b s else s

/-- The placement at the end of a roll call, in rank order, over what a return from standby keeps (R43,
R44). -/
def placeBlocks (s : State) : State := forBanks placeIfConfigured (forUnits placeIfEnrolled s)

/-! ## The ROLL_CALL order (R52 to R54) -/

/-- The detail: for the record of each rank 1 FOUND, 2 NOT_FOUND, 0 otherwise (R54). -/
def EnrollOrder.detail (o : EnrollOrder) : List Word :=
  allUnits.map fun u => if o.found.contains u then 1 else if o.notFound.contains u then 2 else 0

/-- Replaces the order in flight; its cell and its lists change, the order does not end. -/
def setOrder (o : Option EnrollOrder) (s : State) : State := s.setWlc { s.wlc with order := o }

/-- The exchange in progress when a ROLL_CALL order ends belongs to that order no longer (R53). -/
def Exchange.orphan (x : Exchange) : Exchange :=
  match x.purpose with
  | .order => { x with purpose := .ended }
  | .rollCall | .round | .ended => x

/-- The order in flight ends, and the exchange of its last try, if one is in progress, is no more than
that (R52, R53). -/
def endOrder (s : State) : State :=
  s.setWlc { s.wlc with order := none, window := s.wlc.window.map Exchange.orphan }

/-- Targets that are no longer configured are marked not found when the WLC comes to them (R53). -/
def skipTargets (configured : UnitId → Bool) : List UnitId → List UnitId → List UnitId × List UnitId
  | [], missed => ([], missed)
  | u :: rest, missed =>
    if configured u then (u :: rest, missed) else skipTargets configured rest (missed ++ [u])

/-- The try count that a target list goes on with: that of the current target while it stays the
current target, and 0 for another (R52). -/
def EnrollOrder.triesFor (o : EnrollOrder) (todo : List UnitId) : Nat :=
  if todo.head? = o.todo.head? then o.tries else 0

/-- The WLC comes to the next target; with none left, it delivers the completion with result OK (R52 to
R54). -/
def nextTarget (s : State) : State :=
  match s.wlc.order with
  | none => s
  | some o =>
    match skipTargets (fun u => (s.wlc.unit u).configured) o.todo o.notFound with
    | ([], missed) =>
      complete .enroll o.cell .ok { o with todo := [], notFound := missed }.detail (endOrder s)
    | (todo, missed) =>
      setOrder (some { o with todo := todo, tries := o.triesFor todo, notFound := missed }) s

/-- The current target is finished, found or not found (R52). -/
def finishTarget (u : UnitId) (isFound : Bool) (s : State) : State :=
  match s.wlc.order with
  | none => s
  | some o =>
    nextTarget (setOrder (some { o with
      todo := o.todo.drop 1
      tries := 0
      found := if isFound then o.found ++ [u] else o.found
      notFound := if isFound then o.notFound else o.notFound ++ [u] }) s)

/-- The order ends ABORTED (R53, R54). -/
def abortRollCall (s : State) : State :=
  match s.wlc.order with
  | none => s
  | some o => complete .enroll o.cell .aborted o.detail (endOrder s)

/-- The target list: the configured records that are ABSENT, in rank order (R52). -/
def State.absentUnits (s : State) : List UnitId :=
  allUnits.filter fun u => (s.wlc.unit u).configured && (s.wlc.unit u).state == .absent

/-- The hand-off of a ROLL_CALL order to the WLC; with an empty list the completion is delivered at
once (R52). -/
def startRollCallOrder (cell : BitVec 6) (s : State) : State :=
  nextTarget (setOrder (some
    { cell := cell, todo := s.absentUnits, tries := 0, found := [], notFound := [] }) s)

/-! ## Rounds (R45) -/

/-- A record that a round visits: ENROLLED, MISSING or LOST (R45). -/
def UnitRec.visited (r : UnitRec) : Bool :=
  match r.state with
  | .enrolled | .missing | .lost => true
  | .absent => false

/-- The try of a ROLL_CALL order still belongs to the open round. -/
def Wlc.tryLeft (l : Wlc) : Bool := l.order.isSome && !l.orderTried

/-- Opens a round: the round period and the configured set are taken up, and the records to visit are
listed in rank order (R41, R45). -/
def openRound (s : State) : State :=
  let s := forUnits takeConfigured s
  let s := nextTarget s
  s.setWlc { s.wlc with
    roundPeriod := s.cfg.roundPeriod
    roundOpen := true
    visit := allUnits.filter fun u => (s.wlc.unit u).visited
    orderTried := false
    roundDue := false }

/-- An open round with nothing left to send and no window open ends (R45). -/
def endRound (s : State) : State :=
  let l := s.wlc
  if l.roundOpen ∧ l.visit = [] ∧ l.window = none ∧ l.tryLeft = false then
    s.setWlc { l with roundOpen := false }
  else s

/-- A round start that fell while the round before was open is taken when that round ends (R45). -/
def takeDueRound (s : State) : State :=
  if s.wlc.roundDue ∧ s.wlc.roundOpen = false ∧ s.wlc.roundsOn then endRound (openRound s) else s

/-- The round may end here, and a due one start. -/
def settleRound (s : State) : State := takeDueRound (endRound s)

/-- A round start (R45). While a round is open it is kept for that round's end; while rounds are
stopped it is none. -/
def roundStartSteps (s : State) : State :=
  if s.wlc.roundsOn then
    if s.wlc.roundOpen then s.setWlc { s.wlc with roundDue := true } else endRound (openRound s)
  else s

/-! ## Roll calls (R42) -/

/-- The roll call begins: the configured set is taken up, and the configured records are polled in rank
order (R41, R42). -/
def beginRollCall (s : State) : State :=
  let s := forUnits takeConfigured s
  s.setWlc { s.wlc with
    rollCallAsked := false
    rollCall := some
      { todo := allUnits.filter fun u => (s.wlc.unit u).configured, tries := 0 } }

/-- A roll call asked for begins when no exchange is in progress (R42). -/
def takeRollCall (s : State) : State :=
  if s.wlc.rollCallAsked ∧ s.wlc.window = none then beginRollCall s else s

/-- The CFL asks for a roll call: a ROLL_CALL order ends ABORTED (R53) and no further round starts; the
exchange in progress is finished before the roll call begins (R42). That the rest of the open round
is left is assumption log 30; that the order ends at the request, not when the roll call begins, is
the model's choice (assumption log 58). -/
def startRollCall (s : State) : State :=
  let s := abortRollCall s
  takeRollCall (s.setWlc { s.wlc with
    roundsOn := false
    roundOpen := false
    roundDue := false
    visit := []
    rollCallAsked := true
    rollCall := none })

/-- The loss condition that a record has: present while it is LOST or ABSENT (R48). -/
def UnitRec.lossCond (r : UnitRec) : Bool := !r.present

/-- The loss condition of a unit is reported when its record is configured (R44). -/
def reportLossOf (u : UnitId) (s : State) : State :=
  if (s.wlc.unit u).configured then reportLoss u (s.wlc.unit u).lossCond s else s

/-- A record changes in a roll call, and a change of its loss condition is reported at that change
(R48). -/
def changeInRollCall (u : UnitId) (r : UnitRec) (s : State) : State :=
  let before := (s.wlc.unit u).lossCond
  let s := changeUnit u r s
  if r.lossCond = before then s else reportLoss u r.lossCond s

/-- The loss condition of every configured record is reported (R44). -/
def reportLosses (s : State) : State := forUnits reportLossOf s

/-- Phase SETTLE begins with a settle time of 2 s (R33). -/
def enterSettle (s : State) : State :=
  s.setCfl { s.cfl with phase := .settle, settleEnd := some (s.clock + 2000) }

/-- The end of a roll call: placement, loss conditions, UNIT_CHANGE, phase SETTLE, and the first round,
which starts at once (R43 to R45). It is made known to the STC (R147): that this comes after the
placement and the loss reports and before SETTLE is the model's choice (assumption log 60). -/
def endRollCall (s : State) : State :=
  let s := placeBlocks (s.setWlc { s.wlc with rollCall := none, roundsOn := true })
  endRound (openRound (enterSettle (sauChange (raise .unitChange (reportLosses s)))))

/-- A try of the roll call's current record is over; `done` says that its tries have ended (R42). -/
def rollCallTry (done : Bool) (s : State) : State :=
  match s.wlc.rollCall with
  | none => s
  | some c =>
    if done then
      match c.todo.drop 1 with
      | [] => endRollCall s
      | rest => s.setWlc { s.wlc with rollCall := some { todo := rest, tries := 0 } }
    else s.setWlc { s.wlc with rollCall := some { c with tries := c.tries + 1 } }

/-- The tries that the roll call's current record has had. -/
def Wlc.rollTries (l : Wlc) : Nat :=
  match l.rollCall with
  | some c => c.tries
  | none => 0

/-- The tries that the current target of a ROLL_CALL order has had. -/
def Wlc.orderTries (l : Wlc) : Nat :=
  match l.order with
  | some o => o.tries
  | none => 0

/-! ## What an exchange brings (R39, R48 to R52) -/

/-- The outcome of the checks of R39. -/
inductive Verdict where
  | accepted | miss | corrupt
  deriving DecidableEq, Repr

/-- The last check of R39: the unit kind of a ROLL_ANSWER, the sequence echo of a report. -/
def echoes (x : Exchange) (r : UnitRec) (bytes : List Byte) : Bool :=
  match x.sent with
  | .roll => byteAt bytes 2 == unitKind x.unit
  | .drive | .steer => byteAt bytes 2 == r.lastSeq

/-- The checks of R39, in their order. -/
def judgeReply (x : Exchange) (r : UnitRec) (bytes : List Byte) : Verdict :=
  let n := bytes.length
  if telegramLength (byteAt bytes 1) ≠ some n then .miss
  else if crc (bytes.take (n - 2)) ≠ wordAt bytes (n - 2) then .corrupt
  else if byteAt bytes 0 ≠ unitAddress x.unit then .miss
  else if byteAt bytes 1 ≠ answerKind x.sent then .miss
  else if echoes x r bytes then .accepted
  else .miss

/-- A unit found by a ROLL outside a roll call: UNIT_CHANGE is raised and the loss condition reported
absent (R50, R52). -/
def findUnit (u : UnitId) (bytes : List Byte) (s : State) : State :=
  reportLoss u false (raise .unitChange (changeUnit u ((s.wlc.unit u).enroll u bytes) s))

/-- An accepted ROLL_ANSWER (R42, R50, R52). The answer to the last try of an order that has ended leaves
its record ABSENT (R53). That the STC hears of a SAU found by an order before its block is placed, so
that the STC's section of a new block is first written at its next event, is the model's choice
(assumption log 45). -/
def acceptAnswer (x : Exchange) (bytes : List Byte) (s : State) : State :=
  match x.purpose with
  | .rollCall =>
    rollCallTry true (putLink x.unit
      (changeInRollCall x.unit ((s.wlc.unit x.unit).enroll x.unit bytes) s))
  | .round => putLink x.unit (findUnit x.unit bytes s)
  | .order =>
    if s.wlc.order.isSome then
      finishTarget x.unit true (putLink x.unit (placeIfEnrolled x.unit (findUnit x.unit bytes s)))
    else putLink x.unit s
  | .ended => putLink x.unit s

/-- A missed DRIVE or STEER exchange (R48). -/
def missCommand (u : UnitId) (s : State) : State :=
  let r := s.wlc.unit u
  if r.present then
    let r' := r.miss s.cfg.missLimit
    let s := changeUnit u r' s
    if r'.state = .lost then reportLoss u true (raise .unitChange s) else s
  else s

/-- A missed exchange by what it belongs to: a record's third missed try in a roll call makes it
ABSENT (R42), a target's third leaves it not found (R52), and a ROLL to a LOST record changes nothing
(R50). -/
def missExchange (x : Exchange) (s : State) : State :=
  match x.sent with
  | .drive | .steer => putLink x.unit (missCommand x.unit s)
  | .roll =>
    match x.purpose with
    | .rollCall =>
      let done := decide (3 ≤ s.wlc.rollTries + 1)
      let s := if done then changeInRollCall x.unit (s.wlc.unit x.unit).absent s else s
      rollCallTry done (putLink x.unit s)
    | .round | .ended => putLink x.unit s
    | .order =>
      let s := putLink x.unit s
      if s.wlc.order.isSome && decide (3 ≤ s.wlc.orderTries) then finishTarget x.unit false s else s

/-- The window of an exchange is closed. -/
def closeWindow (s : State) : State := s.setWlc { s.wlc with window := none }

/-- A corrupt reply raises the corrupt count of the addressed unit (R39). -/
def countCorrupt (u : UnitId) (s : State) : State :=
  s.setWlc (s.wlc.setUnit u (s.wlc.unit u).corrupted)

/-! ## Transmits (R42, R45 to R47, R50, R52, R56) -/

/-- The bus is free for a telegram: no window is open and no QUIET is pending. -/
def Wlc.busFree (l : Wlc) : Bool := l.window.isNone && !l.quiet

/-- The next record of the open round is a unit. -/
def Wlc.visiting (l : Wlc) (u : UnitId) : Bool :=
  l.rollCall.isNone && l.roundOpen && l.visit.head? == some u

/-- A command telegram to a unit is due: it is the next of the round and is ENROLLED or MISSING
(R45). -/
def Wlc.commandDue (l : Wlc) (u : UnitId) : Bool := l.busFree && l.visiting u && (l.unit u).present

/-- What a ROLL to a unit would belong to at this moment, when one is due (R42, R45, R52). -/
def Wlc.rollDue (l : Wlc) (u : UnitId) : Option Purpose :=
  if !l.busFree then none
  else
    match l.rollCall with
    | some c => if c.todo.head? = some u then some .rollCall else none
    | none =>
      if !l.roundOpen then none
      else
        match l.visit with
        | v :: _ => if v = u ∧ (l.unit u).state = .lost then some .round else none
        | [] =>
          match l.order with
          | some o => if !l.orderTried && o.todo.head? == some u then some .order else none
          | none => none

/-- A telegram goes out and its reply window opens (R48). -/
def transmit (bytes : List Byte) (x : Exchange) (s : State) : State :=
  s.setWlc { s.wlc with sent := bytes, window := some x }

/-- The round moves past the record it visits. -/
def passVisit (s : State) : State := s.setWlc { s.wlc with visit := s.wlc.visit.drop 1 }

/-- The try count of the current target rises by 1 (R52). -/
def countTry (s : State) : State :=
  match s.wlc.order with
  | none => s
  | some o => s.setWlc { s.wlc with order := some { o with tries := o.tries + 1 }, orderTried := true }

/-- A ROLL telegram goes out (R42, R50, R52). -/
def sendRoll (u : UnitId) (p : Purpose) (s : State) : State :=
  let s := match p with
    | .rollCall | .ended => s
    | .round => passVisit s
    | .order => countTry s
  transmit (rollTelegram u) { unit := u, sent := .roll, purpose := p } s

/-- The enable of a DRIVE telegram (R46). -/
def State.driveEnable (s : State) (w : Wheel) : Bool :=
  let r := s.wlc.wheels.get w
  s.dmc.mode.working && !s.pru.wheelEx.get w && r.held != .none && r.report.ready

/-- The torque of a DRIVE telegram (R46). -/
def State.driveTorque (s : State) (w : Wheel) : Int :=
  if s.driveEnable w then
    limitAbs (if (s.tqa.wheels.get w).spent then s.cfg.tCont else s.cfg.tPeak)
      (s.wlc.wheels.get w).slotValue
  else 0

/-- The sequence, control byte and value of a command telegram become the record's last sent (R45,
R46). -/
def UnitRec.sendCommand (r : UnitRec) (control : Byte) (value : Int) : UnitRec :=
  { r with lastSeq := r.lastSeq + 1, lastControl := control, lastValue := value }

/-- The control byte of an enable and a calibrate flag (section 3.2). -/
def controlByte (enable calibrate : Bool) : Byte :=
  (if enable then 1 else 0) + (if calibrate then 2 else 0)

/-- A DRIVE telegram goes out (R45, R46). -/
def sendDrive (w : Wheel) (s : State) : State :=
  let control := controlByte (s.driveEnable w) false
  let r := (s.wlc.wheels.get w).sendCommand control (s.driveTorque w)
  transmit (driveTelegram w r.lastSeq control r.lastValue)
    { unit := .wheel w, sent := .drive, purpose := .round }
    (passVisit (s.setWlc (s.wlc.setUnit (.wheel w) r)))

/-- The enable of a STEER telegram: off in STARTING and TRIPPED whatever the slot holds (R47). -/
def State.steerSent (s : State) : Bool :=
  s.wlc.sau.slotEnable && !(s.dmc.mode == .starting || s.dmc.mode == .tripped)

/-- A STEER telegram goes out, its slot filled by the STC at this moment (R45, R47). -/
def sendSteer (s : State) : State :=
  let s := stcTransmit s
  let control := controlByte s.steerSent s.wlc.sau.slotCalibrate
  let r := s.wlc.sau.sendCommand control s.wlc.sau.slotValue
  transmit (steerTelegram r.lastSeq control r.lastValue)
    { unit := .sau, sent := .steer, purpose := .round }
    (passVisit (s.setWlc (s.wlc.setUnit .sau r)))

/-- A QUIET request: every wheel's command slot is set to torque 0, and a QUIET is marked pending
(R56). -/
def requestQuiet (s : State) : State :=
  let s := forWheels (fun w => setSlot w 0) s
  s.setWlc { s.wlc with quiet := true }

/-- The QUIET broadcast goes out; no window is opened (R56). -/
def sendQuiet (s : State) : State :=
  s.setWlc { s.wlc with sent := quietTelegram, quiet := false }

/-- A mode change at the WLC: rounds stop when STANDBY does not keep the link, and a ROLL_CALL order ends
ABORTED (R53, R55). -/
def wlcModeChange (s : State) : State :=
  if s.dmc.mode = .standby ∧ s.linkKept = false then
    endRound (abortRollCall (s.setWlc { s.wlc with roundsOn := false, roundDue := false }))
  else s

end Sys2Proof.Machine
end

