-- ==== Sys2Proof/Machine/Cfl.lean ====
section
/-! DEFINITION. The Configuration Loader's operations: the fields of the configuration block with
their bounds, validation, acceptance and the start-up phases (chapter 2). -/

namespace Sys2Proof.Machine

/-! ## The fields of the block (section 2.2) -/

/-- One field of the configuration block. `least` names a field whose resolved value plus an amount is
the least legal value, and `most` one whose resolved value less an amount is the greatest; `row` and
`column` name the envelope entries that bound this one. -/
structure Field where
  offset : Nat
  low : Nat
  high : Nat
  default : Option Nat
  wide : Bool := false
  patterns : List Nat := []
  least : Option (Nat × Nat) := none
  most : Option (Nat × Nat) := none
  floor : Nat := 0
  row : Option Nat := none
  column : Option Nat := none
  deriving DecidableEq, Repr

/-- A 16-bit field with fixed bounds and a default. -/
def plain (offset low high default : Nat) : Field :=
  { offset := offset, low := low, high := high, default := some default }

/-- A guarded word with its two legal patterns (section 2.4). -/
def guardedField (offset a b : Nat) : Field :=
  { offset := offset, low := 0, high := 65535, default := none, patterns := [a, b] }

/-- Offsets 0x000 to 0x022. -/
def fieldsTorque : List Field :=
  [guardedField 0x000 0x5A5A 0xA5A5, guardedField 0x002 0x2E2E 0x4E4E,
    guardedField 0x004 0x5C5C 0xC5C5, plain 0x006 2 6 4, plain 0x008 0 3 2, plain 0x00A 0 1 0,
    plain 0x00C 1000 20000 12000,
    { plain 0x00E 0 20000 18000 with least := some (0x00C, 0) },
    plain 0x010 0 60000 30000, plain 0x012 0 1000 500, plain 0x014 10 5000 500,
    plain 0x016 10 5000 1500, plain 0x018 100 5000 500, plain 0x01A 500 5000 2058,
    plain 0x01C 0 640 640, plain 0x01E 0 200 100, plain 0x020 0 5000 2600]

/-- Offsets 0x022 to 0x047. -/
def fieldsTraction : List Field :=
  [plain 0x022 20 1000 150, { plain 0x024 10 65535 80 with most := some (0x022, 1) },
    plain 0x026 1 20 3, plain 0x028 100 950 600, plain 0x02A 50 900 200, plain 0x02C 1 200 20,
    plain 0x02E 10 200 30, plain 0x030 100 10000 2000, plain 0x032 1 100 20,
    plain 0x034 0 2000 200, plain 0x036 0 1000 50, plain 0x038 0 1000 600,
    plain 0x03A 1000 2400 1900, plain 0x03C 0 200 20,
    { plain 0x03E 0 2500 2300 with least := some (0x03A, 1) }, plain 0x040 500 1500 900,
    { plain 0x042 0 65535 1200 with least := some (0x040, 1), most := some (0x03A, 1) },
    plain 0x044 400 2000 1000, plain 0x046 5 100 20]

/-- R_b and C_b of banks 1 to 6, offsets 0x048 to 0x06B. -/
def fieldsBanks : List Field :=
  (List.range 6).map (fun i => plain (0x048 + 2 * i) 500 20000 4000) ++
    (List.range 6).map (fun i => { plain (0x054 + 4 * i) 50000 2000000 400000 with wide := true })

/-- Offsets 0x06C to 0x091. -/
def fieldsHeat : List Field :=
  [plain 0x06C 0 5000 300, plain 0x06E 0 20000 2700, plain 0x070 100 900 550,
    { plain 0x072 0 1000 700 with least := some (0x070, 1) }, plain 0x074 20 500 150,
    { plain 0x076 0 1000 450 with least := some (0x074, 1) }, plain 0x078 0 60 35,
    { plain 0x07A 0 65535 300 with least := some (0x078, 0), most := some (0x072, 1) },
    plain 0x07C 0 1 0, plain 0x07E 500 4500 3800,
    { plain 0x080 100 65535 1000 with most := some (0x07E, 0) }, plain 0x082 10 1000 150,
    plain 0x084 50 2000 300, plain 0x086 3000 10000 6700, plain 0x088 1000 5000 3500,
    plain 0x08A 0 300 80, plain 0x08C 0 1000 800, plain 0x08E 0 500 120,
    { plain 0x090 0 65535 40 with most := some (0x08E, 0) }]

/-- Offsets 0x092 to 0x0A3. -/
def fieldsLoad : List Field :=
  [plain 0x092 1000 6000 3000, plain 0x094 100 220 160,
    { plain 0x096 0 250 200 with least := some (0x094, 1) }, plain 0x098 2 10 4,
    plain 0x09A 2 8 3, plain 0x09C 20 500 100, plain 0x09E 500 5000 2000, plain 0x0A0 0 1 0,
    plain 0x0A2 0 1 1]

/-- The action overrides and class priorities, offsets 0x0A4 to 0x0E5. -/
def fieldsActions : List Field :=
  (List.range 21).map (fun i =>
    { plain (0x0A4 + 2 * i) 0 3 (defaultOverrides.getD i 0) with floor := overrideFloors.getD i 0 }) ++
  (List.range 12).map (fun i => plain (0x0CE + 2 * i) 0 7 (defaultPriorities.getD i 0))

/-- The 48 envelope entries, offsets 0x100 to 0x15F. -/
def fieldsEnvelope : List Field :=
  (List.range 48).map fun i =>
    { offset := 0x100 + 2 * i, low := 30, high := 600, default := none
      row := if i % 8 = 0 then none else some (0x0FE + 2 * i)
      column := if i < 8 then none else some (0x0F0 + 2 * i) }

/-- Every field of the block in ascending offset. -/
def fields : List Field :=
  fieldsTorque ++ (fieldsTraction ++ (fieldsBanks ++ (fieldsHeat ++ (fieldsLoad ++
    (fieldsActions ++ fieldsEnvelope)))))

/-! ## Resolution (R24) -/

/-- The offset of the configuration block (section 1.1.1). -/
def blockBase : Nat := 0x0200

/-- What a field holds in the block. -/
def Field.raw (f : Field) (m : Memory) : Nat :=
  let a := blockBase + f.offset
  if f.wide then (m.word a).toNat + 65536 * (m.word (a + 2)).toNat else (m.word a).toNat

/-- The value that stands for the default of a field. -/
def Field.blank (f : Field) : Nat := if f.wide then 4294967295 else 65535

/-- The resolved value of a field (R24). -/
def Field.value (f : Field) (m : Memory) : Nat :=
  match f.default with
  | some d => if f.raw m = f.blank then d else f.raw m
  | none => f.raw m

/-- The resolved value of the field at an offset. -/
def valueAt (m : Memory) (offset : Nat) : Nat :=
  match fields.find? fun f => f.offset == offset with
  | some f => f.value m
  | none => 0

/-! ## Validation (R25) -/

/-- Codes of a validation (R25). -/
inductive Check where
  | accepted | outOfRange | badPattern | inconsistent | belowFloor
  deriving DecidableEq, Repr

def Check.code : Check → Word
  | .accepted => 1
  | .outOfRange => 2
  | .badPattern => 3
  | .inconsistent => 4
  | .belowFloor => 5

/-- A bound set by another parameter is broken (R25). -/
def Field.inconsistent (f : Field) (m : Memory) : Bool :=
  let v := f.value m
  (match f.least with
    | some (o, d) => decide (v < valueAt m o + d)
    | none => false) ||
  (match f.most with
    | some (o, d) => decide (valueAt m o < v + d)
    | none => false) ||
  (match f.row with
    | some o => decide (valueAt m o < v)
    | none => false) ||
  (match f.column with
    | some o => decide (valueAt m o < v)
    | none => false)

/-- The check that a field fails, if any; the fixed bounds come first (R25). -/
def Field.check (f : Field) (m : Memory) : Option Check :=
  let v := f.value m
  if f.patterns ≠ [] ∧ ¬ f.patterns.contains v then some .badPattern
  else if v < f.low ∨ f.high < v then some .outOfRange
  else if f.inconsistent m then some .inconsistent
  else if v < f.floor then some .belowFloor
  else none

/-- A validation: its result and the offset of the failing field, 0 with ACCEPTED (R25, R26). -/
def validate (m : Memory) : Check × Nat :=
  match fields.findSome? fun f => (f.check m).map fun c => (c, f.offset) with
  | some r => r
  | none => (.accepted, 0)

/-- The resolved block (R24). -/
def Params.ofBlock (m : Memory) : Params :=
  let v := valueAt m
  { profile := m.word blockBase, arrangement := m.word (blockBase + 2)
    steerSource := m.word (blockBase + 4), bankCount := v 0x006, allocCode := v 0x008
    rounding := v 0x00A, tCont := v 0x00C, tPeak := v 0x00E, peakTime := v 0x010
    recovery := v 0x012, rUp := v 0x014, rDown := v 0x016, nFloor := v 0x018
    groundFactor := v 0x01A, maxForward := v 0x01C, maxReverse := v 0x01E
    propelCap := v 0x020, lambdaOn := v 0x022, lambdaOff := v 0x024, nOn := v 0x026
    cut := v 0x028, sMin := v 0x02A, sStep := v 0x02C, vFloor := v 0x02E
    slideTime := v 0x030, vFade := v 0x032, kp := v 0x034, ki := v 0x036, dSafe := v 0x038
    vReg := v 0x03A, kTrim := v 0x03C, vTrip := v 0x03E, vMin := v 0x040, vLow := v 0x042
    chopperPeriod := v 0x044, minTime := v 0x046
    resistance := PerBank.ofFn fun b => v (0x046 + 2 * bankNum b)
    capacity := PerBank.ofFn fun b => v (0x050 + 4 * bankNum b)
    gNat := v 0x06C, gBlow := v 0x06E, thetaOn := v 0x070, thetaTrip := v 0x072
    thetaBs := v 0x074, thetaBf := v 0x076, designAmbient := v 0x078, thetaStart := v 0x07A
    outputMode := v 0x07C, lock := v 0x07E, highSpeedAngle := v 0x080, rateLo := v 0x082
    trackTol := v 0x084, wheelbase := v 0x086, halfTrack := v 0x088, assistSpeed := v 0x08A
    assistGain := v 0x08C, reserveHi := v 0x08E, reserveLo := v 0x090
    ratedPayload := v 0x092, windingOnset := v 0x094, windingLimit := v 0x096
    roundPeriod := v 0x098, missLimit := v 0x09A, freshLimit := v 0x09C
    holdLimit := v 0x09E, demandWake := v 0x0A0, stopMode := v 0x0A2
    overrides := (List.range 21).map fun i => v (0x0A4 + 2 * i)
    priorities := (List.range 12).map fun i => v (0x0CE + 2 * i)
    envelope := (List.range 48).map fun i => v (0x100 + 2 * i) }

/-! ## Acceptance (R26) -/

/-- The result code and offset in the header, and class CONFIG_RESULT (R26). -/
def showResult (r : Check × Nat) (s : State) : State :=
  raise .configResult (put 0x0018 [r.1.code, natWord r.2] s)

/-- The resolved block becomes the active configuration, the guarded words the internal copies, and the
guard state 1 (R26). -/
def activate (p : Params) (s : State) : State :=
  s.setCfl { s.cfl with
    active := p, profileCopy := p.profile, arrangementCopy := p.arrangement
    steerCopy := p.steerSource, guardOn := true }

/-- A change of EXTERNAL_STOP mode, when the acceptance brings one (R182). -/
def changeStopModeFrom (old : Nat) (s : State) : State :=
  if s.cfg.stopMode = old then s else changeStopMode s

/-- The blocks take up an accepted configuration: the ATC its priorities (R17), the TQA its limits
(R100), the PRU its actions and the EXTERNAL_STOP mode (R178, R182), the LMU the heat stores (R163),
the RGC the envelope table and the banks (R26). The spec orders the receivers of one acceptance in no way:
that the RGC sorts its rotation order over the stores that the LMU has just preset is the model's
choice (assumption log 11). -/
def acceptConfig (p : Params) (s : State) : State :=
  let old := s.cfg.stopMode
  runAll [activate p, applyPriorities, tqaConfig, rewriteActions, changeStopModeFrom old, lmuConfig,
    rgcConfig] s

/-- Phase ENROLL begins: the re-enrol mark is cleared, and the WLC starts its roll call (R32, R42). -/
def enterEnroll (s : State) : State :=
  startRollCall (s.setCfl { s.cfl with phase := .enroll, reEnrol := false, settleEnd := none })

/-- A validation in LOAD (R27): accepted, it moves the phase to ENROLL and the blower channel runs
(R133); refused, it clears the armed flag. -/
def validateInLoad (s : State) : State :=
  let r := validate s.xm
  let p := Params.ofBlock s.xm
  let s := showResult r s
  if r.1 = .accepted then startBlower (enterEnroll (acceptConfig p s))
  else s.setCfl { s.cfl with armed := false }

/-- A ready-mark write reaching the CFL (R27). -/
def readyMark (value : Word) (s : State) : State :=
  if s.cfl.phase = .load then
    if value = Config.readyMark then
      if s.cfl.armed then validateInLoad s else s
    else s.setCfl { s.cfl with armed := true }
  else s

/-- On entering LOAD the CFL sets the armed flag and reads the ready mark once (R27). -/
def enterLoad (s : State) : State :=
  let s := s.setCfl { s.cfl with phase := .load, armed := true }
  if s.word 0x0006 = Config.readyMark then validateInLoad s else s

/-! ## Guarded words (R28) -/

/-- Every internal copy holds a legal pattern (R28). -/
def Cfl.copiesLegal (c : Cfl) : Bool :=
  (c.profileCopy == 0x5A5A || c.profileCopy == 0xA5A5) &&
    (c.arrangementCopy == 0x2E2E || c.arrangementCopy == 0x4E4E) &&
    (c.steerCopy == 0x5C5C || c.steerCopy == 0xC5C5)

/-- An upset alters an internal copy (R28). -/
def upsetCopy (copy : GuardedWord) (value : Word) (s : State) : State :=
  match copy with
  | .profile => s.setCfl { s.cfl with profileCopy := value }
  | .arrangement => s.setCfl { s.cfl with arrangementCopy := value }
  | .steerSource => s.setCfl { s.cfl with steerCopy := value }

/-! ## APPLY_CONFIG (R35, R36) -/

/-- The arrangement, steer source or bank count differ (R35). -/
def Params.reshapes (new old : Params) : Bool :=
  new.arrangement != old.arrangement || new.steerSource != old.steerSource ||
    new.bankCount != old.bankCount

/-- The re-enrol mark is set when an accepted APPLY_CONFIG changes one of the three values (R35). -/
def markReEnrol (b : Bool) (s : State) : State :=
  s.setCfl { s.cfl with reEnrol := s.cfl.reEnrol || b }

end Sys2Proof.Machine
end

