-- ==== Sys2Proof/Machine/Dmc.lean ====
section
/-! DEFINITION. The Drive Mode Controller's operations: the demand record, freshness, the modes and
the substates (chapter 4), with the end of SETTLE (R33) that moves the mode. -/

namespace Sys2Proof.Machine

/-! ## What the DMC shows (R76) -/

/-- The age of the demand, 0 while it is not counted (section 4.10.1). R60 forms it at the demand samples: a
section written at another moment shows the age at the write, which is the model's choice (assumption
log 37). -/
def State.demandAge (s : State) : Nat :=
  if s.dmc.fresh = .notCounted then 0 else s.since s.dmc.freshRef

/-- A pending direction's code, NONE when there is none (section 4.10.1). -/
def pendingCode : Option Direction → Word
  | some d => d.code
  | none => 0xFFFF

/-- A standby variant's code, NONE outside STANDBY (section 4.10.1). -/
def variantCode : Option Variant → Word
  | some v => v.code
  | none => 0xFFFF

def State.dmcWords (s : State) : List Word :=
  let d := s.dmc
  [d.mode.code, d.substate.code, d.target.code, d.adopted.code, pendingCode d.pendingDir,
    variantCode d.variant, d.fresh.code, natWord s.demandAge, d.lastSeq.getD 0, natWord d.effPropel,
    natWord d.effRetard, bitsWord d.masks.bits, natWord d.stopTime, boolWord d.credit] ++
    longWords d.lastChange

/-- The DMC section of the drive record, 0x2000 to 0x201F. -/
def putDmcSection (s : State) : State := put 0x2000 s.dmcWords s

/-! ## Substates (R66 to R68) -/

/-- A change of substate or of changeover target is made known at once (R68). That the RGC recomputes the
blower duty also at a change of the target alone is the model's reading of the "substate change" of R137
(assumption log 54); that the TCU acts before the STC is the model's choice (assumption log 61). -/
def announceSubstate (s : State) : State :=
  runAll [tcuSubstateChange, rgcSubstateChange, stcSubstateChange] s

/-- Moves the substate and the changeover target. -/
def setSubstate (sub : Substate) (t : Target) (s : State) : State :=
  if s.dmc.substate = sub ∧ s.dmc.target = t then s
  else announceSubstate (s.setDmc { s.dmc with substate := sub, target := t })

/-- The masks of R66. -/
def State.formedMasks (s : State) : Masks :=
  { mode := s.dmc.mode == .ready || s.dmc.mode == .safeStop
    pending := s.dmc.mode == .drive && s.dmc.pendingDir.isSome
    stale := s.dmc.fresh == .stale || s.dmc.fresh == .lost
    forced := s.rgc.forced
    brake := s.dmc.demand.serviceBrake }

/-- d_eff (R66). -/
def State.formedRetard (s : State) : Nat :=
  let d := max s.dmc.demand.retard s.rgc.dHold
  if s.dmc.mode = .safeStop then max d s.cfg.dSafe else d

/-- Forms the effective demands (R66). -/
def formDemands (s : State) : State :=
  let m := s.formedMasks
  s.setDmc { s.dmc with
    masks := m
    effRetard := s.formedRetard
    effPropel := if m.any then 0 else s.dmc.demand.propel }

/-- The wanted substate (R67). -/
def Dmc.wanted (d : Dmc) : Substate :=
  if 0 < d.effRetard then .retard else if 0 < d.effPropel then .propel else .coast

/-- The TQA's current reference of a wheel. -/
def State.reference (s : State) (w : Wheel) : Int := (s.tqa.wheels.get w).reference

/-- The sign of the adopted direction (R67). -/
def Direction.sign : Direction → Int
  | .neutral => 0
  | .forward => 1
  | .reverse => -1

/-- A reference agrees with PROPEL: 0, or the sign of the adopted direction (R67). -/
def State.agreesPropel (s : State) (w : Wheel) : Bool :=
  s.reference w == 0 || decide (0 < s.reference w * s.dmc.adopted.sign)

/-- A reference agrees with RETARD: 0, or the sign opposite to its wheel's last reported speed (R67,
assumption log 22). -/
def State.agreesRetard (s : State) (w : Wheel) : Bool :=
  s.reference w == 0 ||
    decide (s.reference w * (s.wlc.wheels.get w).report.field1.toInt < 0)

/-- Where the substate moves (R67). -/
def State.movedSubstate (s : State) : Substate × Target :=
  match s.dmc.substate, s.dmc.wanted with
  | _, .none | _, .coast | _, .changeover => (.coast, .none)
  | .propel, .propel => (.propel, .none)
  | .retard, .retard => (.retard, .none)
  | .coast, .propel | .none, .propel =>
    if s.cfg.wheels.all s.agreesPropel then (.propel, .none) else (.changeover, .propel)
  | .coast, .retard | .none, .retard =>
    if s.cfg.wheels.all s.agreesRetard then (.retard, .none) else (.changeover, .retard)
  | .propel, .retard | .changeover, .retard => (.changeover, .retard)
  | .retard, .propel | .changeover, .propel => (.changeover, .propel)

/-- The substate a changeover target stands for. -/
def Target.substate : Target → Substate
  | .none => .changeover
  | .propel => .propel
  | .retard => .retard

/-- CHANGEOVER ends when every reference of the configured wheels is 0 (R68). -/
def endChangeover (s : State) : State :=
  if s.dmc.substate = .changeover ∧ s.cfg.wheels.all (fun w => s.reference w == 0) then
    setSubstate s.dmc.target.substate .none s
  else s

/-- Step 6 of the demand sample: the demands and the substate (R66 to R68). -/
def formAndMove (s : State) : State :=
  let s := formDemands s
  let m := s.movedSubstate
  endChangeover (setSubstate m.1 m.2 s)

/-! ## Mode changes (R69, R70, R75) -/

/-- The modes in which freshness is counted (R60). -/
def Mode.counted : Mode → Bool
  | .ready | .drive | .safeStop | .tripped => true
  | .starting | .standby => false

/-- The freshness at an entry into a counted mode from STARTING or STANDBY (R60). -/
def Dmc.startCounting (d : Dmc) (m : Mode) (clock : Long) : Dmc :=
  if m.counted && !d.mode.counted then { d with fresh := .fresh, freshRef := clock } else d

/-- A mode change: the DMC's own fields, class MODE_CHANGE, the mode mirror, TRIP_OUT, the drive record
section, and the new mode made known to the other blocks (R75). No mode change writes the TQA's
references: they stand until its next event, also at an entry into READY, which R68 describes "with
every reference then 0" (assumption log 59). -/
def changeMode (m : Mode) (f : Dmc → Dmc) (s : State) : State :=
  let old := s.dmc
  let d := { f (old.startCounting m s.clock) with mode := m, lastChange := s.clock }
  let s := putDmcSection (put 0x0010 [m.code] (raise .modeChange
    ((s.setDmc d).setTripOut (m == .tripped))))
  let s := if d.substate = old.substate ∧ d.target = old.target then s else announceSubstate s
  runAll [rgcModeChange, stcModeChange, wlcModeChange] s

/-- "substate and target to NONE", with the directions that the modes without torque hold (R68, R70,
R73). -/
def Dmc.atRest (d : Dmc) : Dmc :=
  { d with substate := .none, target := .none, pendingDir := none, adopted := .neutral, variant := none }

/-- Entry into TRIPPED (R70). -/
def enterTripped (s : State) : State :=
  requestQuiet (changeMode .tripped (fun d => { d.atRest with credit := false }) s)

/-- Entry into SAFE_STOP (R69). -/
def enterSafeStop (s : State) : State :=
  formAndMove (changeMode .safeStop (fun d => { d with pendingDir := none, stopTime := 0 }) s)

/-- Entry into READY from STARTING, STANDBY or TRIPPED: substate COAST (R68), then the check of R69. -/
def enterReady (s : State) : State :=
  let s := changeMode .ready (fun d => { d.atRest with substate := .coast, credit := false }) s
  if s.pru.summary = .safeStop then enterSafeStop s else s

/-- Entry into READY from DRIVE, the substate carried over (R65), then the check of R69. -/
def driveToReady (s : State) : State :=
  let s := changeMode .ready (fun d => { d with adopted := .neutral, pendingDir := none }) s
  if s.pru.summary = .safeStop then enterSafeStop s else s

/-- The part leaves STANDBY for STARTING, through ENROLL (R34). -/
def standbyToStarting (s : State) : State :=
  enterEnroll (changeMode .starting (fun d => d.atRest) s)

/-- STANDBY is left straight, without ENROLL (R34, R74). -/
def State.leavesStraight (s : State) : Bool := s.linkKept && !s.cfl.reEnrol

/-- The part leaves STANDBY at LEAVE_STANDBY or demand wake (R74). -/
def leaveStandbySteps (s : State) : State :=
  if s.leavesStraight then enterReady s else standbyToStarting s

/-- The standby variant of the two arguments (R73). -/
def variantOf (keepLink keepBlower : Word) : Variant :=
  if keepLink = 0 then if keepBlower = 0 then .dark else .cool
  else if keepBlower = 0 then .link else .full

/-- Entry into STANDBY (R73). -/
def enterStandbySteps (v : Variant) (s : State) : State :=
  let s := changeMode .standby
    (fun d => { d.atRest with variant := some v, fresh := .notCounted }) s
  note .demandLost .global false (note .demandStale .global false s)

/-- A severity change reaching the DMC (R69, R70). -/
def severityChange (s : State) : State :=
  match s.pru.summary, s.dmc.mode with
  | .safeStop, .ready | .safeStop, .drive => enterSafeStop s
  | .trip, .ready | .trip, .drive | .trip, .safeStop => enterTripped s
  | .trip, .standby => if s.leavesStraight then enterTripped s else standbyToStarting s
  | _, _ => s

/-! ## The end of SETTLE (R33) -/

/-- Every WIU whose record is ENROLLED has READY set in its last accepted report (R33). -/
def State.settled (s : State) : Bool :=
  allWheels.all fun w =>
    let r := s.wlc.wheels.get w
    r.state != .enrolled || r.report.ready

/-- SETTLE ends: the phase becomes COMPLETE, and the DMC goes to TRIPPED or READY (R33). -/
def endSettle (s : State) : State :=
  let s := s.setCfl { s.cfl with phase := .complete, settleEnd := none }
  if s.pru.summary = .trip then enterTripped s else enterReady s

/-- A test of the end condition in SETTLE (R33). -/
def testSettle (s : State) : State :=
  if s.cfl.phase = .settle ∧ s.settled then endSettle s else s

/-- The settle time has run out (R33). -/
def State.settleOver (s : State) : Bool :=
  s.cfl.phase == .settle &&
    match s.cfl.settleEnd with
    | some due => s.reached due
    | none => false

/-! ## The demand sample (R59) -/

/-- A page acceptance (R8), with the acceptances at the TCU and the LMU (R110, R168). -/
def acceptPage (base : Nat) (p : Page) (s : State) : State :=
  let d := { s.dmc with
    demand := p.demand s.cfg.lock s.clock
    lastSeq := some p.sequence
    freshRef := if s.dmc.mode.counted then s.clock else s.dmc.freshRef }
  let s := put (base + 0x18) (longWords s.clock ++ [p.anomaly s.cfg.lock]) (s.setDmc d)
  lmuPage (tcuPage s)

/-- The page that the selector names (R6, R7). -/
def State.livePage (s : State) : Page := readPage s.xm (pageBase (s.word 0x0008))

/-- Step 1 accepts the live page (R7). -/
def State.pageAccepted (s : State) : Bool := s.livePage.accepted s.dmc.lastSeq

/-- Step 1 of R59. -/
def takePage (s : State) : State :=
  if s.pageAccepted then acceptPage (pageBase (s.word 0x0008)) s.livePage s else s

/-- The freshness state of an age (R61). -/
def freshnessOf (c : Params) (old : Freshness) (age : Nat) : Freshness :=
  if age ≤ c.freshLimit then .fresh
  else if age ≤ c.holdLimit then if old = .lost then .lost else .stale
  else .lost

/-- DEMAND_STALE's condition (R61). -/
def Freshness.isStale : Freshness → Bool
  | .stale | .lost => true
  | .fresh | .notCounted => false

/-- DEMAND_LOST's condition (R61). -/
def Freshness.isLost : Freshness → Bool
  | .lost => true
  | .fresh | .stale | .notCounted => false

/-- Class DEMAND_STALE is raised at this passage (R61). -/
def raisesStale (old new : Freshness) : Bool :=
  (old == .fresh && new.isStale) || (old == .stale && new.isLost)

/-- Step 2 of R59 (R61). Where one sample changes both conditions no rule orders the reports: that
DEMAND_STALE is reported before DEMAND_LOST is the model's choice (assumption log 47). -/
def updateFreshness (s : State) : State :=
  if s.dmc.mode.counted then
    let old := s.dmc.fresh
    let new := freshnessOf s.cfg old (s.since s.dmc.freshRef)
    let s := s.setDmc { s.dmc with fresh := new }
    let s := noteChange .demandStale .global old.isStale new.isStale s
    let s := noteChange .demandLost .global old.isLost new.isLost s
    raiseIf (raisesStale old new) .demandStale s
  else s

/-- Step 3 of R59: demand wake (R74); `accepted` says that step 1 accepted a page. -/
def wake (accepted : Bool) (s : State) : State :=
  if s.dmc.mode = .standby ∧ s.cfg.demandWake = 1 ∧ accepted ∧
      (0 < s.dmc.demand.propel ∨ 0 < s.dmc.demand.retard)
  then leaveStandbySteps s
  else s

/-- The return check of R72. -/
def returnCheck (s : State) : State :=
  if s.dmc.mode = .tripped ∧ s.dmc.credit ∧ s.pru.summary.code < Severity.code .safeStop ∧
      s.standstill ∧ s.dmc.demand.direction = .neutral
  then enterReady s
  else s

/-- The stop time has reached 1000 ms (R71). -/
def finishStop (s : State) : State := enterTripped (s.setDmc { s.dmc with stopTime := 1000 })

/-- The stop time of R71. -/
def countStop (s : State) : State :=
  if s.standstill then
    if 1000 ≤ s.dmc.stopTime + s.dmc.period then finishStop s
    else s.setDmc { s.dmc with stopTime := s.dmc.stopTime + s.dmc.period }
  else s.setDmc { s.dmc with stopTime := 0 }

/-- The entry check of R64. -/
def enterDriveCheck (s : State) : State :=
  let d := s.dmc.demand.direction
  if d = .neutral then s.setDmc { s.dmc with pendingDir := none }
  else if s.standstill ∧ s.dmc.demand.parkBrake = false ∧ s.dmc.fresh = .fresh then
    changeMode .drive (fun m => { m with adopted := d, pendingDir := none }) s
  else s.setDmc { s.dmc with pendingDir := some d }

/-- Step 4 of R59. -/
def modeChecks (s : State) : State :=
  match s.dmc.mode with
  | .tripped => returnCheck s
  | .safeStop => countStop s
  | .ready => enterDriveCheck s
  | .starting | .standby | .drive => s

/-- The other driving direction is adopted (R65). -/
def adoptDirection (d : Direction) (s : State) : State :=
  let s := s.setDmc { s.dmc with adopted := d, pendingDir := none }
  if s.dmc.substate = .propel then setSubstate .changeover .propel s else s

/-- Step 5 of R59, in DRIVE (R65). -/
def directionCheck (s : State) : State :=
  let d := s.dmc.demand.direction
  if s.dmc.mode ≠ .drive then s
  else if d = s.dmc.adopted then s.setDmc { s.dmc with pendingDir := none }
  else if d = .neutral then
    if s.standstill then driveToReady s else s.setDmc { s.dmc with pendingDir := some .neutral }
  else if s.standstill ∧ s.dmc.demand.parkBrake = false then adoptDirection d s
  else s.setDmc { s.dmc with pendingDir := some d }

/-- Step 6 of R59. -/
def demandStep (s : State) : State := if s.dmc.mode.working then formAndMove s else s

/-- The allocation period of the active configuration is taken up at the start of a period (R26). -/
def takeDemandPeriod (s : State) : State := s.setDmc { s.dmc with period := s.cfg.allocPeriod }

/-- The demand sample (R59). -/
def demandSteps (s : State) : State :=
  let s := takeDemandPeriod s
  let accepted := s.pageAccepted
  runAll [takePage, updateFreshness, wake accepted, modeChecks, directionCheck, demandStep,
    putDmcSection] s

/-! ## A CLEAR_FAULTS completion (R72) -/

/-- A CLEAR_FAULTS completion reaching the DMC sets the clear credit in TRIPPED, and the return check
follows (R72). -/
def clearCompletion (s : State) : State :=
  if s.dmc.mode = .tripped then returnCheck (s.setDmc { s.dmc with credit := true }) else s

end Sys2Proof.Machine
end

