-- ==== Sys2Proof/Machine/Settle.lean ====
section
/-! DEFINITION. What the Protection Unit does after an event that changed its table: it forms the
exclusion sets and the severity summary again and delivers each change (R179 to R181). -/

namespace Sys2Proof.Machine

/-- The exclusion sets are those the table gives (R180). -/
def State.setsFormed (s : State) : Bool :=
  s.pru.wheelEx == formWheelEx s.pru.entries && s.pru.bankEx == formBankEx s.pru.entries

/-- The severity summary is the one the table gives (R179). -/
def State.summaryFormed (s : State) : Bool := s.pru.summary == formSummary s.pru.entries

/-- A change of either set is delivered to both the TCU and the RGC (R180), and the escalation kinds are
observed (R181). -/
def deliverSets (s : State) : State :=
  let wheels := s.pru.wheelEx
  let banks := s.pru.bankEx
  let s := updatePru { s.pru with
    wheelEx := formWheelEx s.pru.entries, bankEx := formBankEx s.pru.entries } s
  let s :=
    if s.pru.wheelEx = wheels ∧ s.pru.bankEx = banks then s
    else rgcExclusion banks (tcuExclusion wheels s)
  observeEscalation s

/-- The classes and the QUIET request of a summary that has changed (R179). -/
def announceSummary (s : State) : State :=
  match s.pru.summary with
  | .trip => raise .trip (requestQuiet s)
  | .safeStop => raise .safeStop s
  | .none | .note | .exclude => s

/-- A change of the summary is announced, and the severity change delivered to the DMC (R179, R69). -/
def deliverSummary (s : State) : State :=
  severityChange (announceSummary
    (updatePru { s.pru with summary := formSummary s.pru.entries } s))

/-- One delivery, the sets before the summary (assumption log 10). -/
def deliver (s : State) : State :=
  if s.setsFormed then if s.summaryFormed then s else deliverSummary s else deliverSets s

/-- At most `n` deliveries. -/
def settleBy : Nat → State → State
  | 0, s => s
  | n + 1, s => if s.setsFormed && s.summaryFormed then s else settleBy n (deliver s)

/-- The sets and the summary are formed again until nothing changes (R179, R180). A delivery can make
only the few observations of R117 and R181, so that 16 deliveries are more than any event brings. -/
def settle (s : State) : State := settleBy 16 s

/-- An event of a running part whose observations can change the fault table. -/
def whenObserving (f : State → State) (s : State) : Host.Outcome State Fault Refusal :=
  whenRunning (fun s => settle (f s)) s

end Sys2Proof.Machine
end

