-- ==== Sys2Proof/Machine/DriveEvents.lean ====
section
/-! DEFINITION. The commands of the drive: DEMAND_SAMPLE, STOP_TIME_EXPIRY, SETTLE_TIME_EXPIRY and
ALLOCATION_EVENT (sections 2.6, 4.4, 4.8 and 5.2). -/

namespace Sys2Proof.Machine

/-- DEMAND_SAMPLE (R59). -/
def execDemandSample (s : State) : Host.Outcome State Fault Refusal := whenObserving demandSteps s

/-- The stop time stands one period short of 1000 ms and standstill holds (R71, assumption log 5). -/
def State.stopDue (s : State) : Bool :=
  s.dmc.mode == .safeStop && s.standstill && decide (1000 ≤ s.dmc.stopTime + s.dmc.period)

/-- STOP_TIME_EXPIRY (R71). -/
def execStopTimeExpiry (s : State) : Host.Outcome State Fault Refusal :=
  whenObserving (fun s => if s.stopDue then finishStop s else s) s

/-- SETTLE_TIME_EXPIRY (R33, assumption log 6). -/
def execSettleTimeExpiry (s : State) : Host.Outcome State Fault Refusal :=
  whenObserving (fun s => if s.settleOver then endSettle s else s) s

/-- ALLOCATION_EVENT (R78). -/
def execAllocationEvent (s : State) : Host.Outcome State Fault Refusal :=
  whenObserving allocationSteps s

end Sys2Proof.Machine
end

