-- ==== Sys2Proof/Machine/GridEvents.lean ====
section
/-! DEFINITION. The commands of the Retard and Grid Controller's events and of the calibration limit:
GRID_DEMAND_ARRIVAL to CALIBRATION_EXPIRY (chapters 7 and 8). -/

namespace Sys2Proof.Machine

/-- GRID_DEMAND_ARRIVAL (R132): the record is taken when a post stands unprocessed. -/
def execGridDemandArrival (s : State) : Host.Outcome State Fault Refusal :=
  whenRunning (fun s => if s.rgc.demandNew then arrival s else s) s

/-- LINK_VOLTAGE_SAMPLE (R122). -/
def execLinkVoltageSample (volts : Nat) (s : State) : Host.Outcome State Fault Refusal :=
  whenRunning (takeVoltage volts) s

/-- The four acts of a filtered update, in turn (R122). -/
def filteredSteps (s : State) : State :=
  runAll [takeFiltered, recomputeCapacity, lmuLink, fun s => noteOvervolt s.rgc.vF s, lowerLowest,
    checkTestStandstill] s

/-- FILTERED_UPDATE (R122). -/
def execFilteredUpdate (s : State) : Host.Outcome State Fault Refusal :=
  whenObserving filteredSteps s

/-- LINK_UNDERVOLT is judged: the guard state is 1 and the mode READY, DRIVE or SAFE_STOP (R170). -/
def State.linkJudged (s : State) : Bool := s.cfl.guardOn && s.dmc.mode.working

/-- The undervolt count stands one short of 25 and the link below V_min (R170, assumption log 5). -/
def State.undervoltDue (s : State) : Bool :=
  s.linkJudged && !s.lmu.undervolt && decide (25 ≤ s.lmu.undervoltCount + 1) &&
    decide (s.rgc.vF < s.cfg.vMin)

/-- LINK_UNDERVOLT_SET (R170). -/
def execLinkUndervoltSet (s : State) : Host.Outcome State Fault Refusal :=
  whenObserving (fun s => if s.undervoltDue then setUndervolt s else s) s

/-- The undervolt clear count stands one short of 25 and the link at V_min or above (R170, assumption
log 5). -/
def State.undervoltOver (s : State) : Bool :=
  s.linkJudged && s.lmu.undervolt && decide (25 ≤ s.lmu.undervoltClear + 1) &&
    decide (s.cfg.vMin ≤ s.rgc.vF)

/-- LINK_UNDERVOLT_CLEAR (R170). -/
def execLinkUndervoltClear (s : State) : Host.Outcome State Fault Refusal :=
  whenObserving (fun s => if s.undervoltOver then clearUndervolt s else s) s

/-- HOLD_UPDATE (R125). -/
def execHoldUpdate (s : State) : Host.Outcome State Fault Refusal := whenObserving holdSteps s

/-- The exceed time stands one period short of 1000 ms and V_ref above V_env + 20 (R129, assumption
log 5). -/
def State.exceedDue (s : State) : Bool :=
  s.holdRuns && !s.rgc.exceeded && s.above (s.rgc.vEnv + 20) &&
    decide (1000 ≤ s.rgc.exceedTime + s.rgc.period)

/-- ENVELOPE_EXCEEDED becomes present (R129). -/
def setExceeded (s : State) : State :=
  changeExceeded true (s.setRgc { s.rgc with exceedTime := 1000, clearTime := 0 })

/-- ENVELOPE_EXCEEDED_SET (R129). -/
def execEnvelopeExceededSet (s : State) : Host.Outcome State Fault Refusal :=
  whenObserving (fun s => if s.exceedDue then setExceeded s else s) s

/-- The clear time stands one period short of 1000 ms and V_ref not above V_env (R129, assumption
log 5). -/
def State.exceedOver (s : State) : Bool :=
  s.holdRuns && s.rgc.exceeded && s.withinEnvelope &&
    decide (1000 ≤ s.rgc.clearTime + s.rgc.period)

/-- ENVELOPE_EXCEEDED becomes absent (R129). -/
def clearExceeded (s : State) : State :=
  changeExceeded false (s.setRgc { s.rgc with clearTime := 1000, exceedTime := 0 })

/-- ENVELOPE_EXCEEDED_CLEAR (R129). -/
def execEnvelopeExceededClear (s : State) : Host.Outcome State Fault Refusal :=
  whenObserving (fun s => if s.exceedOver then clearExceeded s else s) s

/-- The shortfall time stands one period short of 300 ms and the retarding is short (R142, assumption
log 5). -/
def State.shortfallDue (s : State) : Bool :=
  s.dmc.substate == .retard && !s.rgc.causes.shortfall && s.isShort &&
    decide (300 ≤ s.rgc.shortfallTime + s.rgc.period)

/-- SHORTFALL_ADD (R142). -/
def execShortfallAdd (s : State) : Host.Outcome State Fault Refusal :=
  whenRunning (fun s => if s.shortfallDue then addShortfall s else s) s

/-- The recovery time stands one period short of 300 ms and the retarding is sufficient (R142,
assumption log 5). -/
def State.shortfallOver (s : State) : Bool :=
  s.rgc.causes.shortfall && s.dmc.substate == .retard && s.isSufficient &&
    decide (300 ≤ s.rgc.recoveryTime + s.rgc.period)

/-- SHORTFALL_REMOVE (R142). -/
def execShortfallRemove (s : State) : Host.Outcome State Fault Refusal :=
  whenRunning (fun s => if s.shortfallOver then removeShortfall s else s) s

/-- The rotation order is sorted, the blower duty recomputed, and the banks' sections written (R131,
R137, R145). -/
def reviewSteps (s : State) : State :=
  runAll [sortRotation, recomputeBlower, forBanks putBankSection] s

/-- ROTATION_REVIEW (R131). -/
def execRotationReview (s : State) : Host.Outcome State Fault Refusal := whenRunning reviewSteps s

/-- CHANNEL_PERIOD_START (R135). -/
def execChannelPeriodStart (channel : Channel) (s : State) : Host.Outcome State Fault Refusal :=
  whenRunning (fun s =>
    match channel with
    | .bank b => bankPeriod b s
    | .blower => blowerPeriod s) s

/-- ON_EXPIRY (R134). -/
def execOnExpiry (channel : Channel) (s : State) : Host.Outcome State Fault Refusal :=
  whenRunning (fun s =>
    match channel with
    | .bank b => bankExpiry b s
    | .blower => blowerExpiry s) s

/-- A timer that runs has run out (assumption log 6). -/
def State.ranOut (s : State) : Option Long → Bool
  | some due => s.reached due
  | none => false

/-- The bank channels become OFF when the discharge timer runs out (R138). -/
def endDischarge (s : State) : State :=
  judgeChannels (s.setRgc { s.rgc with discharge := none })

/-- DISCHARGE_EXPIRY (R138). -/
def execDischargeExpiry (s : State) : Host.Outcome State Fault Refusal :=
  whenRunning (fun s => if s.ranOut s.rgc.discharge then endDischarge s else s) s

/-- PULSE_EXPIRY (R144). -/
def execPulseExpiry (s : State) : Host.Outcome State Fault Refusal :=
  whenRunning (fun s =>
    if s.ranOut s.rgc.pulse then s.setRgc { s.rgc with pulse := none } else s) s

/-- A calibration has run for 30 s (R158, assumption log 6). -/
def State.calibrationOver (s : State) : Bool :=
  s.stc.cal != .none && decide (30000 ≤ s.since s.stc.calStart)

/-- CALIBRATION_EXPIRY (R158). -/
def execCalibrationExpiry (s : State) : Host.Outcome State Fault Refusal :=
  whenRunning (fun s =>
    if s.calibrationOver then putStcSection (endCalibrationIf true .timeout .timeout s) else s) s

end Sys2Proof.Machine
end

