-- ==== Sys2Proof/Machine/HostPort.lean ====
section
/-! DEFINITION. The host port: writes of the exchange memory, the drive clock mirror, and the register
window (chapter 1). -/

namespace Sys2Proof.Machine

/-- DRIVE_CLOCK_TICK: the drive clock advances and its mirror is rewritten (R5). -/
def execDriveClockTick (s : State) : Host.Outcome State Fault Refusal :=
  whenRunning (fun s => put 0x000C (longWords (s.clock + 1)) (s.setClock (s.clock + 1))) s

/-- A host write of one word; a write of the ready mark also reaches the CFL (R1, R27). -/
def hostWrite (address : BitVec 13) (value : Word) (s : State) : State :=
  let s := put (2 * address.toNat) [value] s
  if address = 3 then settle (readyMark value s) else s

/-- HOST_WORD_WRITE (R1). -/
def execHostWordWrite (address : BitVec 13) (value : Word) (s : State) :
    Host.Outcome State Fault Refusal :=
  whenRunning (hostWrite address value) s

/-- READY_MARK_WRITE (R27): the write of the word at 0x0006, and the CFL's act on it. -/
def execReadyMarkWrite (value : Word) (s : State) : Host.Outcome State Fault Refusal :=
  whenRunning (fun s => settle (readyMark value (put 0x0006 [value] s))) s

/-- CHAIN_RESTART (R16). -/
def execChainRestart (index : BitVec 7) (s : State) : Host.Outcome State Fault Refusal :=
  whenRunning (restartChain index) s

/-- ATTN_POLL (R20). While RESET is low, or with the supply out of its range, the read returns 0x0000 and
changes nothing else (R30). -/
def execAttnPoll (s : State) : Host.Outcome State Fault Refusal :=
  .next (if s.isRunning then poll s else s.setHostData 0)

/-- ATTN_END_SPECIFIC (R21, R23). -/
def execAttnEndSpecific (cls : BitVec 4) (s : State) : Host.Outcome State Fault Refusal :=
  whenRunning (endSpecific cls) s

/-- ATTN_END_NON_SPECIFIC (R21). -/
def execAttnEndNonSpecific (s : State) : Host.Outcome State Fault Refusal :=
  whenRunning endNonSpecific s

/-- ATTN_MASK_WRITE (R22). -/
def execAttnMaskWrite (value : Word) (s : State) : Host.Outcome State Fault Refusal :=
  whenRunning (writeMask value) s

/-- ATTN_THRESHOLD_WRITE (R22). -/
def execAttnThresholdWrite (value : Word) (s : State) : Host.Outcome State Fault Refusal :=
  whenRunning (writeThreshold value) s

/-- REGISTER_WRITE_IGNORED: the write changes nothing (R23). -/
def execRegisterWriteIgnored (_register : BitVec 3) (_value : Word) (s : State) :
    Host.Outcome State Fault Refusal :=
  .next s

end Sys2Proof.Machine
end

