-- ==== Sys2Proof/Machine/LinkEvents.lean ====
section
/-! DEFINITION. The commands of the wheel link: ROUND_START, the four transmits, the three arrivals and
REPLY_WINDOW_EXPIRY (chapter 3). -/

namespace Sys2Proof.Machine

/-- The end of an event of the wheel link: a round may end and a roll call asked for begin, the PRU
delivers, and the CFL tests the end of SETTLE, to which each accepted WIU report and each change of a
WIU's state leads (R33, R48). R48 orders neither the report of a loss condition to the PRU nor the
notice of the change to the CFL before the other: that the PRU's summary is delivered first is the
model's choice (assumption log 39). -/
def finishLink (s : State) : State := settle (testSettle (settle (takeRollCall (settleRound s))))

/-! ## Arrivals (R39, R49, R151) -/

/-- Runs three hand-offs in an order (R49, assumption log 4). -/
def inOrder (order : HandOff) (a b c : State → State) (s : State) : State :=
  match order with
  | .o123 => c (b (a s))
  | .o132 => b (c (a s))
  | .o213 => c (a (b s))
  | .o231 => a (c (b s))
  | .o312 => b (a (c s))
  | .o321 => a (b (c s))

/-- An accepted REPORT of a wheel: the record, then the TCU, the PRU with the FAULT flag, and the CFL
(R49). -/
def acceptReport (w : Wheel) (order : HandOff) (bytes : List Byte) (s : State) : State :=
  let u := UnitId.wheel w
  let report := readReport .drive bytes s.clock
  let s := putLink u (changeUnit u ((s.wlc.unit u).accept report) s)
  inOrder order (fun s => settle (tcuReport w s))
    (fun s => settle (note .wheelFault (.wheel w) report.fault s)) (fun s => settle (testSettle s)) s

/-- An accepted STEER_REPORT: the record, then the STC, the TCU and the PRU with the FAULT flag (R49,
R151). -/
def acceptSteerReport (order : HandOff) (bytes : List Byte) (s : State) : State :=
  let report := readReport .steer bytes s.clock
  let s := putLink .sau (changeUnit .sau (s.wlc.sau.accept report) s)
  inOrder order (fun s => settle (stcReport s)) (fun s => settle (tcuSteerReport s))
    (fun s => settle (note .steerFault .steering report.fault s)) s

/-- An accepted reply by the telegram that it answers. -/
def acceptReply (x : Exchange) (order : HandOff) (bytes : List Byte) (s : State) : State :=
  match x.sent, x.unit with
  | .roll, _ => acceptAnswer x bytes s
  | .drive, .wheel w => acceptReport w order bytes s
  | .drive, .sau | .steer, .sau | .steer, .wheel _ => acceptSteerReport order bytes s

/-- A reply arrives. Without an open window its bytes are discarded (R37); in the window it is judged
(R39), and the window closes. -/
def replyArrival (order : HandOff) (bytes : List Byte) (s : State) : State :=
  match s.wlc.window with
  | none => s
  | some x =>
    let verdict := judgeReply x (s.wlc.unit x.unit) bytes
    let s := closeWindow s
    finishLink (match verdict with
      | .accepted => acceptReply x order bytes s
      | .miss => missExchange x s
      | .corrupt => missExchange x (countCorrupt x.unit s))

/-- ROLL_ANSWER_ARRIVAL (R50). -/
def execRollAnswerArrival (bytes : List Byte) (s : State) : Host.Outcome State Fault Refusal :=
  whenRunning (replyArrival .o123 bytes) s

/-- REPORT_ARRIVAL (R49). -/
def execReportArrival (bytes : List Byte) (order : HandOff) (s : State) :
    Host.Outcome State Fault Refusal :=
  whenRunning (replyArrival order bytes) s

/-- STEER_REPORT_ARRIVAL (R151). -/
def execSteerReportArrival (bytes : List Byte) (order : HandOff) (s : State) :
    Host.Outcome State Fault Refusal :=
  whenRunning (fun s => replyArrival order bytes s) s

/-- The open window expires without a reply (R48). -/
def windowExpiry (s : State) : State :=
  match s.wlc.window with
  | none => s
  | some x => finishLink (missExchange x (closeWindow s))

/-- REPLY_WINDOW_EXPIRY (R48). -/
def execReplyWindowExpiry (s : State) : Host.Outcome State Fault Refusal :=
  whenRunning windowExpiry s

/-! ## Rounds and transmits (R42, R45 to R47, R50, R52, R56) -/

/-- ROUND_START (R45). -/
def execRoundStart (s : State) : Host.Outcome State Fault Refusal :=
  whenRunning (fun s => finishLink (roundStartSteps s)) s

/-- DRIVE_TRANSMIT (R46), in its turn of the round (assumption log 7). -/
def execDriveTransmit (w : Wheel) (s : State) : Host.Outcome State Fault Refusal :=
  whenRunning (fun s => if s.wlc.commandDue (.wheel w) then sendDrive w s else s) s

/-- STEER_TRANSMIT (R47), in its turn of the round (assumption log 7). -/
def execSteerTransmit (s : State) : Host.Outcome State Fault Refusal :=
  whenRunning (fun s => if s.wlc.commandDue .sau then sendSteer s else s) s

/-- ROLL_TRANSMIT (R42, R50, R52), when a ROLL to the unit is due (assumption log 7). -/
def execRollTransmit (u : UnitId) (s : State) : Host.Outcome State Fault Refusal :=
  whenRunning (fun s =>
    match s.wlc.rollDue u with
    | some p => sendRoll u p s
    | none => s) s

/-- The QUIET broadcast goes out when one is pending and no window is open (R56). -/
def State.quietDue (s : State) : Bool := s.wlc.quiet && s.wlc.window.isNone

/-- QUIET_TRANSMIT (R56). -/
def execQuietTransmit (s : State) : Host.Outcome State Fault Refusal :=
  whenRunning (fun s => if s.quietDue then sendQuiet s else s) s

end Sys2Proof.Machine
end

