-- ==== Sys2Proof/Machine/LoadEvents.lean ====
section
/-! DEFINITION. The commands of the Load Model Unit: THERMAL_SAMPLE and the changes of its conditions
(chapter 9). A change of a condition is the sample's judgement that completes its count (assumption
log 5). -/

namespace Sys2Proof.Machine

/-- THERMAL_SAMPLE (R161): BLOWER_RUN is active high. -/
def execThermalSample (blowerRun : Level) (s : State) : Host.Outcome State Fault Refusal :=
  whenObserving (thermalSteps (blowerRun == .high)) s

/-- The clear count of a hot bank stands one short of 10 and the bank is below the clear level (R164). -/
def State.gridHotOver (s : State) (b : Bank) : Bool :=
  s.cfl.guardOn && s.cfg.bank b && s.lmu.hot.get b && s.gridCool b &&
    decide (10 ≤ s.lmu.hotClear.get b + 1)

/-- GRID_HOT_CLEAR (R164). -/
def execGridHotClear (b : Bank) (s : State) : Host.Outcome State Fault Refusal :=
  whenObserving (fun s => if s.gridHotOver b then clearGridHot b s else s) s

/-- The inactive count stands one short of 30 with a duty that is judged (R165). -/
def State.blowerFailDue (s : State) : Bool :=
  s.cfl.guardOn && !s.lmu.blowerFail && decide (judgedDuty ≤ s.lmu.commanded) &&
    decide (30 ≤ s.lmu.inactive + 1)

/-- BLOWER_FAIL_SET (R165). -/
def execBlowerFailSet (s : State) : Host.Outcome State Fault Refusal :=
  whenObserving (fun s => if s.blowerFailDue then setBlowerFail s else s) s

/-- The active count stands one short of 10 (R165). -/
def State.blowerFailOver (s : State) : Bool :=
  s.cfl.guardOn && s.lmu.blowerFail && decide (10 ≤ s.lmu.activeCount + 1)

/-- BLOWER_FAIL_CLEAR (R165). -/
def execBlowerFailClear (s : State) : Host.Outcome State Fault Refusal :=
  whenObserving (fun s => if s.blowerFailOver then clearBlowerFail s else s) s

/-- The hot count stands one short of 2 with the winding at its limit or above (R166). -/
def State.windingDue (s : State) (w : Wheel) : Bool :=
  s.cfl.guardOn && s.evaluated w && !s.lmu.windingHot.get w &&
    decide ((s.cfg.windingLimit : Int) ≤ s.reportedTemp w) &&
    decide (2 ≤ s.lmu.windingCount.get w + 1)

/-- WINDING_HOT_SET (R166). -/
def execWindingHotSet (w : Wheel) (s : State) : Host.Outcome State Fault Refusal :=
  whenObserving (fun s => if s.windingDue w then setWindingHot w s else s) s

/-- The clear count stands one short of 10 with the winding below its limit − 10 °C (R166). -/
def State.windingOver (s : State) (w : Wheel) : Bool :=
  s.cfl.guardOn && s.evaluated w && s.lmu.windingHot.get w &&
    decide (s.reportedTemp w < (s.cfg.windingLimit : Int) - 10) &&
    decide (10 ≤ s.lmu.windingClear.get w + 1)

/-- WINDING_HOT_CLEAR (R166). -/
def execWindingHotClear (w : Wheel) (s : State) : Host.Outcome State Fault Refusal :=
  whenObserving (fun s => if s.windingOver w then clearWindingHot w s else s) s

end Sys2Proof.Machine
end

