-- ==== Sys2Proof/Machine/Orders.lean ====
section
/-! DEFINITION. The ten order kinds as the Order Engine decides and carries them out (R13), the chain
scan that takes them (R11, R12), ABORT (R15) and completions (R14). A row of an order is the ORE's
decision for a cell that it took with those arguments (assumption log 3). -/

namespace Sys2Proof.Machine

/-! ## Admission (R13, section 1.6) -/

/-- A mode in which most orders are admitted: any but STARTING. -/
def State.started (s : State) : Bool := s.dmc.mode != .starting

/-- READY at standstill. -/
def State.readyStill (s : State) : Bool := s.dmc.mode == .ready && s.standstill

/-- STANDBY with the link kept. -/
def State.standbyLinked (s : State) : Bool := s.dmc.mode == .standby && s.linkKept

/-- The in-flight table holds no resource (R13). -/
def Ore.idle (o : Ore) : Bool := o.grid.isNone && o.steer.isNone && o.enroll.isNone

/-- Check 2 of R13: the order is carried out where it is admitted, and fails with WRONG_MODE
elsewhere. -/
def admitIf (b : Bool) (cell : BitVec 6) (f : State → State) (s : State) : State :=
  if b then f s else endCell cell .wrongMode [] s

/-- Check 3 of R13, and the entry in the in-flight table with the hand-off. An order whose owner check fails
is no event of its owner, which then writes no section: the model's choice (assumption log 51). -/
def handOver (r : Resource) (cell : BitVec 6) (check : Option (Result × List Word))
    (start : State → State) (s : State) : State :=
  if (s.ore.inFlight r).isSome then endCell cell .busy [] s
  else
    match check with
    | some (code, detail) => endCell cell code detail s
    | none => start (s.setOre (s.ore.setFlight r (some cell)))

/-! ## The immediate orders -/

/-- SET_LIMITS (R100). -/
def decideSetLimits (cell : BitVec 6) (forward reverse cap : Word) (s : State) : State :=
  admitIf s.started cell (fun s =>
    endCell cell .ok (limitDetail forward reverse cap) (setLimitValues forward reverse cap s)) s

/-- LOAD_ENVELOPE (R130). -/
def decideLoadEnvelope (cell : BitVec 6) (s : State) : State :=
  admitIf s.started cell (fun s =>
    match envelopeRefusal s.stagedEnvelope with
    | some detail => endCell cell .badArgument detail s
    | none => endCell cell .ok [] (setEnvelope s.stagedEnvelope s)) s

/-- Step 1 of R183 releases the filter when this holds. -/
def StopFilter.releasable (f : StopFilter) : Bool := f.active && f.edgeHeld && !f.lastLow

/-- Step 1 of R183. -/
def releaseStop (s : State) : State :=
  if s.pru.filter.releasable then
    note .externalStop .global false
      (updatePru { s.pru with filter := { s.pru.filter.turnInactive with edgeHeld := false } } s)
  else s

/-- Step 2 of R183 clears this entry. -/
def Entry.clearable (e : Entry) : Bool := e.state == .latched && !e.cond

/-- The table after step 2 of R183. -/
def clearEntries (clock : Long) (es : List Entry) : List Entry :=
  es.map fun e => if e.clearable then e.move .cleared clock else e

/-- The table after step 3 of R183. -/
def forgetEntries (forget : Word) (es : List Entry) : List Entry :=
  if forget = 0 then es else es.filter fun e => e.state != .cleared

/-- Steps 2 and 3 of R183, with FAULT_CHANGE when any entry changed. -/
def clearTable (forget : Word) (s : State) : State :=
  let es := forgetEntries forget (clearEntries s.clock s.pru.entries)
  raiseIf (es != s.pru.entries) .faultChange (updatePru { s.pru with entries := es } s)

/-- The detail of CLEAR_FAULTS from the table before step 2 and the table as step 4 leaves it: the entries
made CLEARED in step 2, those LATCHED at the end, those removed in step 3, and those in the table at
the end (R183). -/
def clearDetail (forget : Word) (clock : Long) (before after : List Entry) : List Word :=
  let cleared := clearEntries clock before
  [natWord (before.filter Entry.clearable).length,
    natWord (after.filter fun e => e.state == .latched).length,
    natWord (cleared.length - (forgetEntries forget cleared).length), natWord after.length]

/-- CLEAR_FAULTS (R183), with its completion at the DMC (R72). That the escalation observation of step 4
comes beside the one that R181 brings at a change of a set, after the deliveries, is the model's choice
(assumption log 63). -/
def decideClearFaults (cell : BitVec 6) (forget : Word) (s : State) : State :=
  let s := releaseStop s
  let before := s.pru.entries
  let s := settle (observeEscalation (settle (clearTable forget s)))
  settle (clearCompletion (endCell cell .ok (clearDetail forget s.clock before s.pru.entries) s))

/-- ENTER_STANDBY (R73). -/
def decideEnterStandby (cell : BitVec 6) (keepLink keepBlower : Word) (s : State) : State :=
  let v := variantOf keepLink keepBlower
  admitIf s.readyStill cell (fun s =>
    endCell cell .ok [v.code] (settle (enterStandbySteps v s))) s

/-- LEAVE_STANDBY (R74). -/
def decideLeaveStandby (cell : BitVec 6) (s : State) : State :=
  admitIf (s.dmc.mode == .standby) cell (fun s =>
    endCell cell .ok [boolWord !s.leavesStraight] (settle (leaveStandbySteps s))) s

/-- An accepted APPLY_CONFIG (R35). -/
def acceptApplied (cell : BitVec 6) (p : Params) (s : State) : State :=
  let mark := p.reshapes s.cfg
  endCell cell .ok [0, Check.accepted.code, boolWord mark]
    (settle (markReEnrol mark (acceptConfig p s)))

/-- APPLY_CONFIG (R13, R35). -/
def decideApplyConfig (cell : BitVec 6) (s : State) : State :=
  admitIf (s.dmc.mode == .standby) cell (fun s =>
    if !s.ore.idle then endCell cell .conflict [] s
    else
      let r := validate s.xm
      let p := Params.ofBlock s.xm
      let s := showResult r s
      if r.1 = .accepted then acceptApplied cell p s
      else endCell cell .badArgument [natWord r.2, r.1.code] s) s

/-! ## The lasting orders -/

/-- GRID_TEST (R13, R139). -/
def decideGridTest (cell : BitVec 6) (banks duty count : Word) (s : State) : State :=
  admitIf (s.readyStill || s.dmc.mode == .standby) cell (fun s =>
    handOver .grid cell ((s.testRefusal banks count).map fun d => (.badArgument, d))
      (startTest cell banks duty count) s) s

/-- STEER_CALIBRATE (R13, R156). -/
def decideSteerCalibrate (cell : BitVec 6) (s : State) : State :=
  admitIf ((s.dmc.mode == .ready || s.standbyLinked) && s.standstill) cell (fun s =>
    handOver .steer cell (if s.sauReady then none else some (.unitAbsent, []))
      (startCalibration cell) s) s

/-- ROLL_CALL (R13, R52). -/
def decideRollCall (cell : BitVec 6) (s : State) : State :=
  admitIf (s.dmc.mode == .ready || s.standbyLinked) cell
    (handOver .enroll cell none (startRollCallOrder cell)) s

/-! ## ABORT (R15) -/

/-- The resource against which the in-flight table names a cell. A cell that the host posted again while
its order was TAKEN can be named against two: that GRID comes before STEER and STEER before ENROLL is
the model's choice (assumption log 43). -/
def Ore.heldBy (o : Ore) (cell : BitVec 6) : Option Resource :=
  if o.grid = some cell then some .grid
  else if o.steer = some cell then some .steer
  else if o.enroll = some cell then some .enroll
  else none

/-- The detail that the owner gives for an aborted order (R54, R141, R158). -/
def State.abortDetail (s : State) : Resource → List Word
  | .grid => s.testAbortDetail
  | .steer => s.calAbortDetail
  | .enroll =>
    match s.wlc.order with
    | some o => o.detail
    | none => []

/-- The owner stops the work (R53, R141, R158). -/
def stopOwner (r : Resource) (s : State) : State :=
  match r with
  | .grid => stopTest s
  | .steer => abortCalibration s
  | .enroll => settleRound (endOrder s)

/-- ABORT (R15). -/
def decideAbort (cell : BitVec 6) (index : Word) (s : State) : State :=
  if 64 ≤ index.toNat then endBadArgument cell 0x0008 s
  else
    let target : BitVec 6 := index.setWidth 6
    match s.ore.heldBy target with
    | none => endBadArgument cell 0x0008 s
    | some r =>
      let s := writeEnd target .aborted (s.abortDetail r) (stopOwner r s)
      settle (endCell cell .ok [] (raise .orderDone (freeResource r s)))

/-! ## The chain scan (R11, R12) -/

/-- The ORE decides a taken order by its kind and its arguments as read (R12, R13). -/
def decideOrder (cell : BitVec 6) (s : State) : State :=
  let a := s.cellArg cell
  match (s.word (cellBase cell + 0x02)).toNat with
  | 1 => decideSetLimits cell (a 0) (a 1) (a 2) s
  | 2 => decideLoadEnvelope cell s
  | 3 => decideClearFaults cell (a 0) s
  | 4 => decideEnterStandby cell (a 0) (a 1) s
  | 5 => decideLeaveStandby cell s
  | 6 => decideApplyConfig cell s
  | 7 => decideGridTest cell (a 0) (a 1) (a 2) s
  | 8 => decideSteerCalibrate cell s
  | 9 => decideRollCall cell s
  | 10 => decideAbort cell (a 0) s
  | _ => endCell cell .badKind [] s

/-- TAKEN in the state word and the drive clock in the taken stamp (R9, R12). -/
def markTaken (cell : BitVec 6) (s : State) : State :=
  put (cellBase cell + 0x32) (longWords s.clock) (put (cellBase cell) [2] s)

/-- The chain state becomes HALTED and CHAIN_HALT is raised (R11, R12). -/
def haltChain (s : State) : State := raise .chainHalt (setChain { s.ore with chain := .halted } s)

/-- The ORE waits (R11). -/
def waitChain (s : State) : State := setChain { s.ore with chain := .waiting } s

/-- A cell is taken and decided; the chain state is RUNNING (R11, R12). -/
def takeCell (cell : BitVec 6) (s : State) : State :=
  decideOrder cell (setChain { s.ore with chain := .running } (markTaken cell s))

/-- Third step of R12: the link of the cell just decided, and whether the scan goes on. -/
def followLink (cell : BitVec 6) (s : State) : State × Bool :=
  match s.link cell with
  | .finish => (setChain { s.ore with behind := true } s, true)
  | .cell c => (setChain { s.ore with cursor := c } s, true)
  | .bad => (haltChain s, false)

/-- The steps of a scan: `takes` is the number of takes left. Each take follows at most one move past
a cell already decided, so that 9 steps hold every scan (R11). -/
def scanSteps : Nat → Nat → State → State
  | 0, _, s => s
  | n + 1, takes, s =>
    let cell := s.ore.cursor
    if s.ore.behind then
      match s.link cell with
      | .finish => waitChain s
      | .cell c => scanSteps n takes (setChain { s.ore with cursor := c, behind := false } s)
      | .bad => haltChain s
    else if s.cellPosted cell then
      let r := followLink cell (takeCell cell s)
      if r.2 && decide (1 < takes) then scanSteps n (takes - 1) r.1 else r.1
    else waitChain s

/-- A chain scan; in HALTED it does nothing (R11). -/
def scan (s : State) : State := if s.ore.chain = .halted then s else scanSteps 9 4 s

/-! ## The commands -/

/-- CHAIN_SCAN (R11). -/
def execChainScan (s : State) : Host.Outcome State Fault Refusal := whenRunning scan s

/-- SET_LIMITS (R100). -/
def execSetLimits (cell : BitVec 6) (forward reverse cap : Word) (s : State) :
    Host.Outcome State Fault Refusal :=
  whenRunning (decideSetLimits cell forward reverse cap) s

/-- LOAD_ENVELOPE (R130). -/
def execLoadEnvelope (cell : BitVec 6) (s : State) : Host.Outcome State Fault Refusal :=
  whenRunning (decideLoadEnvelope cell) s

/-- CLEAR_FAULTS (R183). -/
def execClearFaults (cell : BitVec 6) (forget : Word) (s : State) :
    Host.Outcome State Fault Refusal :=
  whenRunning (decideClearFaults cell forget) s

/-- ENTER_STANDBY (R73). -/
def execEnterStandby (cell : BitVec 6) (keepLink keepBlower : Word) (s : State) :
    Host.Outcome State Fault Refusal :=
  whenRunning (decideEnterStandby cell keepLink keepBlower) s

/-- LEAVE_STANDBY (R74). -/
def execLeaveStandby (cell : BitVec 6) (s : State) : Host.Outcome State Fault Refusal :=
  whenRunning (decideLeaveStandby cell) s

/-- APPLY_CONFIG (R35). -/
def execApplyConfig (cell : BitVec 6) (s : State) : Host.Outcome State Fault Refusal :=
  whenRunning (decideApplyConfig cell) s

/-- GRID_TEST (R139). -/
def execGridTest (cell : BitVec 6) (banks duty count : Word) (s : State) :
    Host.Outcome State Fault Refusal :=
  whenRunning (decideGridTest cell banks duty count) s

/-- STEER_CALIBRATE (R156). -/
def execSteerCalibrate (cell : BitVec 6) (s : State) : Host.Outcome State Fault Refusal :=
  whenRunning (decideSteerCalibrate cell) s

/-- ROLL_CALL (R52). -/
def execRollCall (cell : BitVec 6) (s : State) : Host.Outcome State Fault Refusal :=
  whenRunning (decideRollCall cell) s

/-- ABORT (R15). -/
def execAbort (cell : BitVec 6) (index : Word) (s : State) : Host.Outcome State Fault Refusal :=
  whenRunning (decideAbort cell index) s

/-- ORDER_COMPLETION (R14). -/
def execOrderCompletion (resource : Resource) (cell : BitVec 6) (result : Result)
    (detail : List Word) (s : State) : Host.Outcome State Fault Refusal :=
  whenRunning (complete resource cell result detail) s

end Sys2Proof.Machine
end

