-- ==== Sys2Proof/Machine/ProtectionEvents.lean ====
section
/-! DEFINITION. The commands of the EXTERNAL_STOP input: DISCRETE_INPUT_SAMPLE, EXTERNAL_STOP_ACTIVE
and EXTERNAL_STOP_INACTIVE (section 10.6). -/

namespace Sys2Proof.Machine

/-- The filter moves; at each change of filter state EXTERNAL_STOP is observed, and at the change to
ACTIVE a running grid test ends (R141, R182). -/
def moveFilter (f : StopFilter) (s : State) : State :=
  let before := s.pru.filter.active
  let s := updatePru { s.pru with filter := f } s
  let s := settle (noteChange .externalStop .global before f.active s)
  abortTestIf (f.active && !before) s

/-- One sample of the input, low or high, by the mode in force (R182). -/
def sampleStop (low : Bool) (s : State) : State :=
  moveFilter (s.pru.filter.sample s.cfg.stopLevel low) s

/-- DISCRETE_INPUT_SAMPLE (R182), with the observations of R181 after the filter. -/
def execDiscreteInputSample (externalStop : Level) (s : State) :
    Host.Outcome State Fault Refusal :=
  whenObserving (fun s => observeEscalation (sampleStop (externalStop == .low) s)) s

/-- A third low sample would turn the filter ACTIVE (R182, assumption log 5). -/
def State.stopInputDue (s : State) : Bool :=
  !s.pru.filter.active && (s.pru.filter.sample s.cfg.stopLevel true).active

/-- EXTERNAL_STOP_ACTIVE (R182). -/
def execExternalStopActive (s : State) : Host.Outcome State Fault Refusal :=
  whenObserving (fun s => if s.stopInputDue then sampleStop true s else s) s

/-- A third high sample would turn the filter INACTIVE, which only LEVEL mode does (R182, assumption log 5). -/
def State.stopInputOver (s : State) : Bool :=
  s.pru.filter.active && !(s.pru.filter.sample s.cfg.stopLevel false).active

/-- EXTERNAL_STOP_INACTIVE (R182). -/
def execExternalStopInactive (s : State) : Host.Outcome State Fault Refusal :=
  whenObserving (fun s => if s.stopInputOver then sampleStop false s else s) s

end Sys2Proof.Machine
end

