-- ==== Sys2Proof/Machine/Resets.lean ====
section
/-! DEFINITION. The four resets, start-up, and the commands that cause them: POWER_ON,
RESET_PIN_ASSERT, RESET_PIN_RELEASE, SOFT_RESTART, GUARD_CHECK, GUARDED_COPY_UPSET and SUPPLY_FALL
(sections 2.4 and 2.5). -/

namespace Sys2Proof.Machine

/-! ## Taking a reset (R30) -/

/-- The guard reset count after a reset of a kind (R29). -/
def nextGuardCount (kind : ResetKind) (count : Nat) : Nat :=
  match kind with
  | .powerOn => 0
  | .guard => min 65535 (count + 1)
  | .resetPin | .softRestart => count

/-- What a reset of a kind keeps of the fault table (R174). -/
def tableKept (kind : ResetKind) (entries : List Entry) : List Entry :=
  match kind with
  | .softRestart | .guard => entries
  | .powerOn | .resetPin => []

/-- A reset other than POWER_ON is taken: every block takes its values for that kind, and the exchange
memory keeps its contents (R2, R30). -/
def takeReset (kind : ResetKind) (s : State) : State :=
  { s with
    clock := 0
    tripOut := false
    atc := Atc.reset
    ore := Ore.reset
    cfl := Cfl.reset (nextGuardCount kind s.cfl.guardCount) kind (some s.dmc.mode)
    wlc := Wlc.reset
    dmc := Dmc.reset
    tqa := Tqa.reset (PerWheel.ofFn fun w =>
      let t := s.tqa.wheels.get w
      TqaWheel.reset t.credit t.spent t.spentByUse)
    tcu := Tcu.reset
    rgc := Rgc.reset
    stc := Stc.reset
    lmu := Lmu.reset s.lmu.heat s.lmu.theta s.lmu.hot s.lmu.hotClear s.lmu.heatSet
    pru := Pru.reset (tableKept kind s.pru.entries) }

/-! ## Start-up (R31) -/

/-- The reset cause record comes first, then the other header fields; 0x0006 and 0x0008 are not written
(R4). -/
def writeHeader (s : State) : State :=
  let c := s.cfl
  runAll [put 0x0012 [c.cause.code, modeBeforeCode c.modeBefore, natWord c.guardCount],
    put 0x0000 [Config.vendorCode, Config.partCode, Config.revision],
    put 0x000A (0 :: longWords s.clock ++ [s.dmc.mode.code]),
    put 0x0018 ([0, 0, natWord s.ore.cursor.toNat, s.ore.chain.code, boolWord s.ore.behind,
      s.atc.pending.setWidth 16, s.atc.inService.setWidth 16] ++ List.replicate 5 0 ++
      List.replicate 11 Config.absentWord ++ List.replicate 93 0)] s

/-- The visit of TAKEN cells, which is not made after POWER_ON (R10). -/
def visitAfterReset (s : State) : State :=
  if s.cfl.cause = .powerOn then s else visitTaken s

/-- What start-up makes of a kept table (R174). -/
def restoredEntries (cause : ResetKind) (clock : Long) (entries : List Entry) : List Entry :=
  match cause with
  | .guard => enterGuardFault clock (keptEntries entries)
  | .powerOn | .resetPin | .softRestart => keptEntries entries

/-- The fault table at start-up; EXTERNAL_STOP is observed absent, and the image is written (R174,
R184). -/
def restoreTable (s : State) : State :=
  let es := restoredEntries s.cfl.cause s.clock s.pru.entries
  let changed := es.map (fun e => (e.kind, e.subject, e.state)) !=
    s.pru.entries.map (fun e => (e.kind, e.subject, e.state))
  let s := raiseIf changed .faultChange (s.setPru { s.pru with entries := es })
  settle (putFaultImage (note .externalStop .global false s))

/-- The owners' start-up reports of their conditions (R57, R77, R103, R120, R146, R160). -/
def reportConditions (s : State) : State :=
  runAll [note .demandStale .global false, note .demandLost .global false,
    forWheels (fun w s => note .peakSpent (.wheel w) (s.tqa.wheels.get w).peakCond s),
    forWheels (fun w => note .wheelSlide (.wheel w) false),
    forWheels (fun w => note .speedImplausible (.wheel w) false),
    note .envelopeExceeded .global false, note .steerTracking .steering false,
    forBanks (fun b s => note .gridHot (.bank b) (s.lmu.hot.get b) s),
    forWheels (fun w => note .windingHot (.wheel w) false), note .blowerFail .global false,
    note .payloadOverload .global false, note .linkUndervolt .global false] s

/-- The modes before a reset that set POST_RESET (R120). -/
def setsPostReset : Option Mode → Bool
  | some .starting | some .drive | some .safeStop | some .tripped => true
  | some .standby | some .ready | none => false

/-- The cause set at start-up, class BRAKE_ASSIST and the pulse of a set that is not empty (R120, R144,
assumption log 34). -/
def startCauses (s : State) : State :=
  if setsPostReset s.cfl.modeBefore then
    raise .brakeAssist (s.setRgc { s.rgc with
      causes := { s.rgc.causes with postReset := true }, pulse := some (s.clock + 500) })
  else s

/-- The images and the drive record sections written at start-up (R76, R119, R120, R145, R159, R160,
R173). No wheel holds a status block at start-up (R40), so that no traction section is written; this
reading, and for the same reason no bank's block, is assumption log 45. Each section shows the values
that the reset leaves: it is written before the fault table's sets are formed and delivered, which may
form the grid capacity again (R123, R145). -/
def writeSections (s : State) : State :=
  runAll [putEnvelopeImage, putDerateImage, putDmcSection, putTcuSection, putRgcSection,
    putStcSection, putLmuSection] s

/-- Start-up after a reset (R31), with the blocks in a fixed order (assumption log 11). -/
def startUp (s : State) : State :=
  runAll [writeHeader, visitAfterReset, startCauses, writeSections, restoreTable, reportConditions,
    settle, enterLoad, settle] s

/-- A reset of a running part, with its start-up (R30, R31). -/
def resetNow (kind : ResetKind) (s : State) : State := startUp (takeReset kind s)

/-! ## The commands -/

/-- The supply rises into its range: every block at its POWER_ON values, every word of the exchange
memory 0x0000 (R2, R30). -/
def powerUp (s : State) : State := State.blank s.resetLow s.draws s.pending

/-- POWER_ON (R30). A RESET input held low does not change the kind; start-up then waits for it. -/
def execPowerOn (s : State) : Host.Outcome State Fault Refusal :=
  let s := powerUp s
  .next (if s.resetLow then s else startUp s)

/-- RESET_PIN_ASSERT (R30). -/
def execResetPinAssert (s : State) : Host.Outcome State Fault Refusal :=
  .next (if s.isRunning then (takeReset .resetPin s).setResetLow true else s.setResetLow true)

/-- RESET_PIN_RELEASE: start-up begins when the input goes high (R30). -/
def execResetPinRelease (s : State) : Host.Outcome State Fault Refusal :=
  .next (if s.supply && s.resetLow then startUp (s.setResetLow false) else s.setResetLow false)

/-- SOFT_RESTART (R23, R30). -/
def execSoftRestart (s : State) : Host.Outcome State Fault Refusal :=
  whenRunning (resetNow .softRestart) s

/-- GUARD_CHECK (R28). -/
def execGuardCheck (s : State) : Host.Outcome State Fault Refusal :=
  whenRunning (fun s => if s.cfl.guardOn && !s.cfl.copiesLegal then resetNow .guard s else s) s

/-- GUARDED_COPY_UPSET (R28). -/
def execGuardedCopyUpset (copy : GuardedWord) (value : Word) (s : State) :
    Host.Outcome State Fault Refusal :=
  whenRunning (upsetCopy copy value) s

/-- SUPPLY_FALL: all work of the part ends, so that a later rise is a POWER_ON reset (R30). The blocks
stand at their POWER_ON values, with no output driven (assumption log 13). -/
def execSupplyFall (s : State) : Host.Outcome State Fault Refusal :=
  .next (((powerUp s).setXm s.xm).setSupply false)

end Sys2Proof.Machine
end

