-- ==== Sys2Proof/Machine/Dispatch.lean ====
section
/-! DEFINITION. The dispatch: one arm per command, each one direct call of the command's meaning. -/

namespace Sys2Proof.Machine

def exec (i : Instr) (s : State) : Host.Outcome State Fault Refusal :=
  match i with
  | .powerOn => Sys2Proof.Machine.execPowerOn s
  | .resetPinAssert => Sys2Proof.Machine.execResetPinAssert s
  | .resetPinRelease => Sys2Proof.Machine.execResetPinRelease s
  | .driveClockTick => Sys2Proof.Machine.execDriveClockTick s
  | .hostWordWrite address value => Sys2Proof.Machine.execHostWordWrite address value s
  | .readyMarkWrite value => Sys2Proof.Machine.execReadyMarkWrite value s
  | .guardCheck => Sys2Proof.Machine.execGuardCheck s
  | .guardedCopyUpset copy value => Sys2Proof.Machine.execGuardedCopyUpset copy value s
  | .softRestart => Sys2Proof.Machine.execSoftRestart s
  | .chainRestart index => Sys2Proof.Machine.execChainRestart index s
  | .attnPoll => Sys2Proof.Machine.execAttnPoll s
  | .attnEndSpecific cls => Sys2Proof.Machine.execAttnEndSpecific cls s
  | .attnEndNonSpecific => Sys2Proof.Machine.execAttnEndNonSpecific s
  | .attnMaskWrite value => Sys2Proof.Machine.execAttnMaskWrite value s
  | .attnThresholdWrite value => Sys2Proof.Machine.execAttnThresholdWrite value s
  | .registerWriteIgnored register value => Sys2Proof.Machine.execRegisterWriteIgnored register value s
  | .chainScan => Sys2Proof.Machine.execChainScan s
  | .setLimits cell forward reverse cap => Sys2Proof.Machine.execSetLimits cell forward reverse cap s
  | .loadEnvelope cell => Sys2Proof.Machine.execLoadEnvelope cell s
  | .clearFaults cell forget => Sys2Proof.Machine.execClearFaults cell forget s
  | .enterStandby cell keepLink keepBlower => Sys2Proof.Machine.execEnterStandby cell keepLink keepBlower s
  | .leaveStandby cell => Sys2Proof.Machine.execLeaveStandby cell s
  | .applyConfig cell => Sys2Proof.Machine.execApplyConfig cell s
  | .gridTest cell banks duty count => Sys2Proof.Machine.execGridTest cell banks duty count s
  | .steerCalibrate cell => Sys2Proof.Machine.execSteerCalibrate cell s
  | .rollCall cell => Sys2Proof.Machine.execRollCall cell s
  | .abort cell index => Sys2Proof.Machine.execAbort cell index s
  | .orderCompletion resource cell result detail => Sys2Proof.Machine.execOrderCompletion resource cell result detail s
  | .demandSample => Sys2Proof.Machine.execDemandSample s
  | .stopTimeExpiry => Sys2Proof.Machine.execStopTimeExpiry s
  | .settleTimeExpiry => Sys2Proof.Machine.execSettleTimeExpiry s
  | .roundStart => Sys2Proof.Machine.execRoundStart s
  | .driveTransmit wheel => Sys2Proof.Machine.execDriveTransmit wheel s
  | .steerTransmit => Sys2Proof.Machine.execSteerTransmit s
  | .rollTransmit unit => Sys2Proof.Machine.execRollTransmit unit s
  | .quietTransmit => Sys2Proof.Machine.execQuietTransmit s
  | .rollAnswerArrival bytes => Sys2Proof.Machine.execRollAnswerArrival bytes s
  | .reportArrival bytes order => Sys2Proof.Machine.execReportArrival bytes order s
  | .steerReportArrival bytes order => Sys2Proof.Machine.execSteerReportArrival bytes order s
  | .replyWindowExpiry => Sys2Proof.Machine.execReplyWindowExpiry s
  | .allocationEvent => Sys2Proof.Machine.execAllocationEvent s
  | .gridDemandArrival => Sys2Proof.Machine.execGridDemandArrival s
  | .linkVoltageSample volts => Sys2Proof.Machine.execLinkVoltageSample volts s
  | .filteredUpdate => Sys2Proof.Machine.execFilteredUpdate s
  | .linkUndervoltSet => Sys2Proof.Machine.execLinkUndervoltSet s
  | .linkUndervoltClear => Sys2Proof.Machine.execLinkUndervoltClear s
  | .holdUpdate => Sys2Proof.Machine.execHoldUpdate s
  | .envelopeExceededSet => Sys2Proof.Machine.execEnvelopeExceededSet s
  | .envelopeExceededClear => Sys2Proof.Machine.execEnvelopeExceededClear s
  | .shortfallAdd => Sys2Proof.Machine.execShortfallAdd s
  | .shortfallRemove => Sys2Proof.Machine.execShortfallRemove s
  | .rotationReview => Sys2Proof.Machine.execRotationReview s
  | .channelPeriodStart channel => Sys2Proof.Machine.execChannelPeriodStart channel s
  | .onExpiry channel => Sys2Proof.Machine.execOnExpiry channel s
  | .dischargeExpiry => Sys2Proof.Machine.execDischargeExpiry s
  | .pulseExpiry => Sys2Proof.Machine.execPulseExpiry s
  | .calibrationExpiry => Sys2Proof.Machine.execCalibrationExpiry s
  | .thermalSample blowerRun => Sys2Proof.Machine.execThermalSample blowerRun s
  | .gridHotClear bank => Sys2Proof.Machine.execGridHotClear bank s
  | .blowerFailSet => Sys2Proof.Machine.execBlowerFailSet s
  | .blowerFailClear => Sys2Proof.Machine.execBlowerFailClear s
  | .windingHotSet wheel => Sys2Proof.Machine.execWindingHotSet wheel s
  | .windingHotClear wheel => Sys2Proof.Machine.execWindingHotClear wheel s
  | .discreteInputSample externalStop => Sys2Proof.Machine.execDiscreteInputSample externalStop s
  | .externalStopActive => Sys2Proof.Machine.execExternalStopActive s
  | .externalStopInactive => Sys2Proof.Machine.execExternalStopInactive s
  | .supplyFall => Sys2Proof.Machine.execSupplyFall s

end Sys2Proof.Machine
end

