-- ==== Sys2Proof/Safety.lean ====
section
/-! DEFINITION. What counts as a safe run: the bounds and forms that the blocks' state keeps, the bytes
of the exchange memory that are the host's, and the words in which a frame is stated. -/

namespace Sys2Proof

/-! ## Groups of commands -/

/-- The commands by which the host writes the exchange memory, and the one that clears it (R1, R2).
-/
def Instr.writesHost : Instr → Bool
  | .hostWordWrite _ _ | .readyMarkWrite _ | .powerOn => true
  | _ => false

/-- The commands that act on a part whose supply is off or whose RESET input is low (R30). -/
def Instr.actsStopped : Instr → Bool
  | .powerOn | .resetPinAssert | .resetPinRelease | .supplyFall | .attnPoll => true
  | _ => false

end Sys2Proof

namespace Sys2Proof.Machine

/-! ## Invariants of the blocks -/

/-- "ATTN_THRESHOLD holds 0..8" (R22). -/
def Atc.ok (a : Atc) : Prop := a.threshold ≤ 8

/-- Two entries of the fault table are of different pairs. -/
def Entry.differs (e f : Entry) : Prop := ¬(e.kind = f.kind ∧ e.subject = f.subject)

/-- The fault table holds at most one entry for each (kind, subject) pair (section 10.1, R176). -/
def Pru.ok (p : Pru) : Prop := p.entries.Pairwise Entry.differs

/-- Two derates are of different (source, target) pairs. -/
def Derate.differs (d e : Derate) : Prop := ¬(d.source = e.source ∧ d.target = e.target)

/-- The derate list holds at most one entry for each (source, target) pair, each with a factor below
1000 (R171). -/
def Lmu.ok (l : Lmu) : Prop :=
  l.derates.Pairwise Derate.differs ∧ ∀ d ∈ l.derates, d.factor < 1000

/-- The fields of the demand record lie in the ranges of the page table (R8, section 1.3). -/
def Demand.ok (d : Demand) : Prop :=
  d.propel ≤ 1000 ∧ d.retard ≤ 1000 ∧ d.holdSpeed ≤ 600 ∧ d.enginePower ≤ 5000 ∧
    d.payload ≤ 6000 ∧ d.grade.natAbs ≤ 300 ∧ d.hint.getD 0 ≤ 1000 ∧
    ∀ t ∈ d.ambient, -50 ≤ t ∧ t ≤ 70

/-- The hold demand, the integrator and the link voltage lie in the ranges of R128 and R122: 16
samples of at most 2500 V are kept. -/
def Rgc.ok (g : Rgc) : Prop :=
  g.dHold ≤ 1000 ∧ g.integrator ≤ 1000000 ∧ g.samples.length = 16 ∧ (∀ v ∈ g.samples, v ≤ 2500) ∧
    g.vF ≤ 2500

/-- The Ackermann factor and the bias lie in the ranges of R150 and R152. -/
def Stc.ok (t : Stc) : Prop := t.kappa ≤ 900 ∧ t.beta ≤ 300

/-- A status block lies in the status region, behind the drive record (section 3.3, R43). -/
def blockOk (block : Option Nat) : Prop := ∀ a ∈ block, Config.firstBlock ≤ a

/-- Every status block placed lies at 0x2100 or above, and so will the next (section 3.3, R43). -/
def Wlc.placed (l : Wlc) : Prop :=
  Config.firstBlock ≤ l.cursor ∧ (∀ u, blockOk (l.unit u).block) ∧ ∀ b, blockOk (l.bankBlock.get b)

/-- Two status blocks, 256 bytes each, have no byte in common. -/
def blocksApart (a b : Option Nat) : Prop := ∀ x ∈ a, ∀ y ∈ b, x + 256 ≤ y ∨ y + 256 ≤ x

/-- The status blocks have no byte in common, and the placement cursor stands behind each of them
(section 3.3, R43). -/
structure Wlc.apart (l : Wlc) : Prop where
  units : ∀ u v, u ≠ v → blocksApart (l.unit u).block (l.unit v).block
  mixed : ∀ u b, blocksApart (l.unit u).block (l.bankBlock.get b)
  banks : ∀ b c, b ≠ c → blocksApart (l.bankBlock.get b) (l.bankBlock.get c)
  unitsBehind : ∀ u, ∀ a ∈ (l.unit u).block, a + 256 ≤ l.cursor
  banksBehind : ∀ b, ∀ a ∈ l.bankBlock.get b, a + 256 ≤ l.cursor

/-! ## What the memory shows -/

/-- The words at an offset are those of a section or an image. -/
def State.showsAt (s : State) (a : Nat) (ws : List Word) : Prop :=
  ∀ i < ws.length, s.word (a + 2 * i) = ws.getD i 0

/-- A section of a status block, when there is a block, holds those words. -/
def State.showsIn (s : State) (block : Option Nat) (offset : Nat) (ws : List Word) : Prop :=
  ∀ base ∈ block, s.showsAt (base + offset) ws

/-- The drive clock stamp of the fault table image (R184). -/
def State.imageStamp (s : State) : Long := s.word 0x1AFC ++ s.word 0x1AFA

/-! ## The host's bytes -/

/-- The bytes that the part never writes but at POWER_ON, by section 1.1.1, R3 and R9: the ready
mark and the selector, the setpoint pages but for the taken stamp and the anomaly mark, the
configuration block, the staging area, the kind, link, tag, arguments and unused end of each order
cell, and the offsets that are not assigned. -/
def hostByte (a : Nat) : Bool :=
  decide (0x0006 ≤ a ∧ a < 0x000A) ||
  decide (0x0100 ≤ a ∧ a < 0x0200 ∧ (a % 128 < 0x18 ∨ 0x1E ≤ a % 128)) ||
  decide (0x0200 ≤ a ∧ a < 0x0800) ||
  decide (0x0800 ≤ a ∧ a < 0x1800 ∧ (2 ≤ a % 64 ∧ a % 64 < 0x20 ∨ 0x3A ≤ a % 64)) ||
  decide (0x1CE0 ≤ a ∧ a < 0x2000)

/-- The word that a directory shows for a status block: its offset, or ABSENT (section 1.2). -/
def directoryWord : Option Nat → Word
  | some a => natWord a
  | none => Config.absentWord

/-- The header shows the state: the drive clock mirror, the mode mirror, the cursor, chain state and
behind flag, the two attention mirrors and the two directories (R5). -/
structure State.headerShown (s : State) : Prop where
  clockLow : s.word 0x000C = s.clock.setWidth 16
  clockHigh : s.word 0x000E = s.clock.extractLsb' 16 16
  mode : s.word 0x0010 = s.dmc.mode.code
  cursor : s.word 0x001C = natWord s.ore.cursor.toNat
  chain : s.word 0x001E = s.ore.chain.code
  behind : s.word 0x0020 = boolWord s.ore.behind
  attention : s.word 0x0022 = s.atc.pending.setWidth 16
  service : s.word 0x0024 = s.atc.inService.setWidth 16
  units : ∀ u, s.word (unitDirectory u) = directoryWord (s.wlc.unit u).block
  banks : ∀ b, s.word (bankDirectory b) = directoryWord (s.wlc.bankBlock.get b)

/-- The images show the state: the fault table with its summary place, stamped at its last change
(R184); the derate list (R172); the envelope table (R130, 0 while there is no table); and the TCU's
section, with the stamp of the last V_ref (R119). -/
structure State.imagesShown (s : State) : Prop where
  faults : s.showsAt 0x1800 (s.pru.image s.imageStamp)
  derates : s.showsAt 0x1B00 (derateImage s.lmu.derates)
  envelope : ∀ i < 48, s.word (0x1C80 + 2 * i) = natWord (s.rgc.table.getD i 0)
  traction : s.showsAt 0x2020 s.tcu.words

/-- The bytes of the identity words and of the reset cause record, which the part writes at start-up
only (R4). -/
def recordByte (a : Nat) : Bool := decide (a < 0x0006 ∨ 0x0012 ≤ a ∧ a < 0x0018)

/-- The bytes of the header fields that the part keeps current (R5). -/
def mirrorByte (a : Nat) : Bool :=
  decide (0x000C ≤ a ∧ a < 0x0012 ∨ 0x001C ≤ a ∧ a < 0x0026 ∨ 0x0030 ≤ a ∧ a < 0x0046)

/-- The bytes of the fault table, derate list and envelope images (R130, R172, R184) and of the
TCU's section (R119). -/
def imageByte (a : Nat) : Bool := decide (0x1800 ≤ a ∧ a < 0x1CE0 ∨ 0x2020 ≤ a ∧ a < 0x2040)

/-- Each block keeps the ranges and forms that Safety.lean names. -/
structure State.ok (s : State) : Prop where
  atc : s.atc.ok
  pru : s.pru.ok
  lmu : s.lmu.ok
  demand : s.dmc.demand.ok
  lock : s.cfg.lock ≤ 4500
  steer : s.dmc.demand.steerAngle.natAbs ≤ 4500
  rgc : s.rgc.ok
  stc : s.stc.ok
  placed : s.wlc.placed
  apart : s.wlc.apart

/-- No unit and no bank holds a status block. -/
def Wlc.noBlocks (l : Wlc) : Prop := (∀ u, (l.unit u).block = none) ∧ ∀ b, l.bankBlock.get b = none

/-- The header and the images show the state of a running part, and a part in reset or without
supply has placed no status block (R4, R5, R40). -/
structure State.headerOk (s : State) : Prop where
  placed : s.wlc.placed
  shown : s.isRunning = true → s.headerShown
  images : s.isRunning = true → s.imagesShown
  unplaced : s.isRunning = false → s.wlc.noBlocks

/-! ## Frames -/

/-- Every byte of the exchange memory outside the regions named, each an offset and a length in
bytes, is the same in both states. -/
def SameOutside (regions : List (Nat × Nat)) (s t : State) : Prop :=
  ∀ a, (∀ r ∈ regions, a < r.1 ∨ r.1 + r.2 ≤ a) → t.xm.byte a = s.xm.byte a

/-- The fault table's sets and summary are those that the table gives, so that no delivery is due
(R179, R180). -/
def State.delivered (s : State) : Bool := s.setsFormed && s.summaryFormed

/-- What the blocks have made of the fault table (R69, R70, R117, R124, R133, R179, R180): no
delivery is due; with the summary TRIP the mode is STARTING or TRIPPED, and with SAFE_STOP it is
neither READY nor DRIVE; no excluded bank's channel is in RUN or TEST, and none stands in the
rotation order; an excluded wheel is in GRIP with a whole slip factor, persistence count 0, no slide
start and no WHEEL_SLIDE. -/
structure State.heeded (s : State) : Prop where
  delivered : s.delivered = true
  trip : s.pru.summary = .trip → s.dmc.mode = .starting ∨ s.dmc.mode = .tripped
  safeStop : s.pru.summary = .safeStop → s.dmc.mode ≠ .ready ∧ s.dmc.mode ≠ .drive
  channels : ∀ b, s.pru.bankEx.get b = true →
    (s.rgc.chans.get b).state ≠ .run ∧ (s.rgc.chans.get b).state ≠ .test
  rotation : ∀ b ∈ s.rgc.rotation, s.pru.bankEx.get b = false
  wheels : ∀ w, s.pru.wheelEx.get w = true →
    (s.tcu.wheels.get w).slip = .grip ∧ 1000 ≤ (s.tcu.wheels.get w).factor ∧
      (s.tcu.wheels.get w).count = 0 ∧ (s.tcu.wheels.get w).slideStart = none ∧
      (s.tcu.wheels.get w).slideCond = false

/-- The kind of fault that stands for the loss of a unit (R44, R48). -/
def lossKind : UnitId → Kind
  | .wheel _ => .wheelLost
  | .sau => .sauLost

/-- The subject of a unit's fault (R44, R48). -/
def lossSubject : UnitId → Subject
  | .wheel w => .wheel w
  | .sau => .steering

/-- The fault table holds no entry of a pair. -/
def Pru.noEntry (p : Pru) (k : Kind) (subject : Subject) : Prop :=
  ∀ e ∈ p.entries, ¬(e.kind = k ∧ e.subject = subject)

/-- The kinds that a delivery of the fault table, or the end of an event of the wheel link, can
observe (R44, R48, R117, R181). -/
def Kind.loud : Kind → Bool
  | .wheelLost | .sauLost | .wheelSlide | .noTractionUnits | .noGrid => true
  | .wheelFault | .windingHot | .speedImplausible | .peakSpent | .gridHot | .steerTracking
  | .steerFault | .linkOvervolt | .linkUndervolt | .demandStale | .demandLost | .payloadOverload
  | .envelopeExceeded | .blowerFail | .configGuard | .externalStop => false

/-- What an observation leaves in the table: a present one an entry of the pair whose condition mark
is set, an absent one no entry of the pair whose mark is set (R176). -/
def Pru.observed (p : Pru) (k : Kind) (subject : Subject) : Bool → Prop
  | true => ∃ e ∈ p.entries, e.kind = k ∧ e.subject = subject ∧ e.cond = true
  | false => ∀ e ∈ p.entries, e.kind = k → e.subject = subject → e.cond = false

/-- A kind stands as a NOTE: the configuration gives it that action, and so does every entry of it.
-/
def State.notes (s : State) (k : Kind) : Bool :=
  s.cfg.action k == .note && s.pru.entries.all fun e => e.kind != k || e.action == .note

/-- What steps 2 and 3 of R183 make of an entry: a LATCHED one whose condition mark is absent
becomes CLEARED, and with the forget flag a CLEARED one is removed. -/
def Entry.afterClear (forget : Word) (clock : Long) (e : Entry) : Option Entry :=
  let e : Entry :=
    if e.state = .latched ∧ e.cond = false then { e with state := .cleared, lastChange := clock } else e
  if forget ≠ 0 ∧ e.state = .cleared then none else some e

/-! ## What an event shows -/

/-- Classes become pending, and nothing else of the Attention Controller changes; a pending mirror
that showed the set goes on showing it (R18). -/
structure Raised (classes : List Cls) (s t : State) : Prop where
  pending : ∀ c : Cls, c.isIn t.atc.pending = (c.isIn s.atc.pending || classes.contains c)
  rest : { t.atc with pending := s.atc.pending } = s.atc
  mirror : s.word 0x0022 = s.atc.pending.setWidth 16 → t.word 0x0022 = t.atc.pending.setWidth 16

/-- A cell shows the end of an order: the final state, the result code, the eight detail words and
the done stamp (section 1.4, R13). That a detail word which no rule names is 0, so that those not
given are shown as 0, is the model's reading (assumption log 9, DEDUCED). -/
structure State.cellEnded (t : State) (cell : BitVec 6) (r : Result) (detail : List Word)
    (clock : Long) : Prop where
  state : t.word (cellBase cell) = if r = .ok then 3 else 4
  code : t.word (cellBase cell + 0x20) = resultCode r
  detail : ∀ i < 8, t.word (cellBase cell + 0x22 + 2 * i) = detail.getD i 0
  stampLow : t.word (cellBase cell + 0x36) = clock.setWidth 16
  stampHigh : t.word (cellBase cell + 0x38) = clock.extractLsb' 16 16

/-- The words of a cell that the end of an order writes (R9). -/
def endRegions (cell : BitVec 6) : List (Nat × Nat) :=
  [(cellBase cell, 2), (cellBase cell + 0x20, 0x12), (cellBase cell + 0x36, 4)]

/-- The pending mirror (section 1.2). -/
def pendingRegion : Nat × Nat := (0x0022, 2)

/-- An order ends at a state's drive clock: its cell shows the end, ORDER_DONE is raised, and no
other byte of the exchange memory but the pending mirror and the regions named is written. -/
structure OrderEnded (cell : BitVec 6) (r : Result) (detail : List Word) (also : List (Nat × Nat))
    (s t : State) : Prop where
  ended : t.cellEnded cell r detail s.clock
  raised : Raised [.orderDone] s t
  same : SameOutside (pendingRegion :: endRegions cell ++ also) s t

/-- A lasting order in flight is ended by its owner within the event (assumption log 28): where the
table names its cell for that resource alone, the resource is free, the cell shows the end, and
ORDER_DONE is pending. -/
structure LastingEnded (r : Resource) (cell : BitVec 6) (result : Result) (detail : List Word)
    (s t : State) : Prop where
  free : s.ore.inFlight r = some cell → t.ore.inFlight r = none
  done : s.ore.inFlight r = some cell → Cls.orderDone.isIn t.atc.pending = true
  ended : s.ore.inFlight r = some cell → s.wlc.placed →
    (∀ q, s.ore.inFlight q = some cell → q = r) → t.cellEnded cell result detail s.clock

/-- The detail that the STC gives with TIMEOUT, ABORTED and UNIT_ABSENT: the flags and the angle of
the report that a SAU record holds, 0 when it holds none, and the time since the calibration's start
(R158). -/
def State.calibrationDetail (s : State) (r : UnitRec) : List Word :=
  if r.held = .none then [0, 0, 0, natWord (s.clock - s.stc.calStart).toNat]
  else [0, r.report.flags.setWidth 16, r.report.field1, natWord (s.clock - s.stc.calStart).toNat]

/-- The detail of a ROLL_CALL order: 1 for a target found, 2 for one not found, 0 for the other
records, in rank order (R54). -/
def targetDetail (found notFound : List UnitId) : List Word :=
  allUnits.map fun u => if found.contains u then 1 else if notFound.contains u then 2 else 0

/-- A class leaves the in-service set, and nothing else changes but the in-service mirror (R21). -/
structure ServiceEnded (c : Cls) (s t : State) : Prop where
  inService : ∀ d : Cls, d.isIn t.atc.inService = (d.isIn s.atc.inService && d != c)
  mirror : t.word 0x0024 = t.atc.inService.setWidth 16
  same : SameOutside [(0x0024, 2)] s t
  rest : { t with xm := s.xm, atc := { t.atc with inService := s.atc.inService } } = s

/-- The command that the row of an order's kind is, with the cell's argument words (section 1.4,
R12); none for a kind that is none of the ten codes. -/
def State.orderRow (s : State) (cell : BitVec 6) : Option Instr :=
  let a := fun i => s.word (cellBase cell + 0x08 + 2 * i)
  match (s.word (cellBase cell + 0x02)).toNat with
  | 1 => some (.setLimits cell (a 0) (a 1) (a 2))
  | 2 => some (.loadEnvelope cell)
  | 3 => some (.clearFaults cell (a 0))
  | 4 => some (.enterStandby cell (a 0) (a 1))
  | 5 => some (.leaveStandby cell)
  | 6 => some (.applyConfig cell)
  | 7 => some (.gridTest cell (a 0) (a 1) (a 2))
  | 8 => some (.steerCalibrate cell)
  | 9 => some (.rollCall cell)
  | 10 => some (.abort cell (a 0))
  | _ => none

/-- The state in which the order of the cursor cell is decided: the cell TAKEN and stamped, the
chain RUNNING (R11, R12). -/
def State.taking (s : State) : State :=
  setChain { s.ore with chain := .running } (markTaken s.ore.cursor s)

/-- The state in which the cursor cell's order is decided: as its row, or BAD_KIND (R13). -/
def State.decided (s : State) : Option State :=
  match s.orderRow s.ore.cursor with
  | none => some (endCell s.ore.cursor .badKind [] s.taking)
  | some c =>
    match exec c s.taking with
    | .next u => some u
    | .fault _ | .refused _ => none

/-- One take of a scan that goes on at the linked cell (R11 to R13): the cursor cell stands POSTED,
its order is decided, and its link names a cell, to which the cursor moves. -/
def State.takeOn (s : State) : Option State :=
  if s.ore.chain ≠ .halted ∧ s.ore.behind = false ∧ s.cellPosted s.ore.cursor = true then
    match s.decided with
    | none => none
    | some u =>
      match u.link s.ore.cursor with
      | .cell l => some (setChain { u.ore with cursor := l } u)
      | .finish | .bad => none
  else none

/-- A sum over the wheels that the shortfall looks at: those the TQA's last event found active, and
not in SLIDE (R142). -/
def State.retarding (s : State) (f : TqaWheel → Nat) : Nat :=
  ((allWheels.filter fun w =>
    !(s.tqa.wheels.get w).flags.inactive && (s.tcu.wheels.get w).slip != .slide).map fun w =>
      f (s.tqa.wheels.get w)).sum

/-- The bytes of a section of a status block, when there is a block. -/
def blockRegion (block : Option Nat) (offset bytes : Nat) : List (Nat × Nat) :=
  block.toList.map fun base => (base + offset, bytes)

/-- The check that entry `i` of an envelope table fails first: 1 range, 2 row, 3 column, or 0 when
it passes all three (R130). -/
def envelopeCheck (e : Nat → Nat) (i : Nat) : Nat :=
  if e i < 30 ∨ 600 < e i then 1
  else if i % 8 ≠ 0 ∧ e (i - 1) < e i then 2
  else if 8 ≤ i ∧ e (i - 8) < e i then 3
  else 0

/-! ## The configuration block -/

/-- What a 16-bit field of the configuration block resolves to (R24): its default when it holds
0xFFFF. -/
def resolved (m : Memory) (offset default : Nat) : Nat :=
  if m.word (0x0200 + offset) = 0xFFFF then default else (m.word (0x0200 + offset)).toNat

/-- What the heat capacity of a bank resolves to (R24): its default when both words hold 0xFFFF. -/
def resolvedCapacity (m : Memory) (b : Bank) : Nat :=
  let low := m.word (0x0250 + 4 * bankNum b)
  let high := m.word (0x0252 + 4 * bankNum b)
  if low = 0xFFFF ∧ high = 0xFFFF then 400000 else low.toNat + 65536 * high.toNat

/-- The rows of the table of section 2.2 for the single words with a default: the offset, the value,
the default, and the least and the greatest legal value. -/
def blockRows (p : Params) : List (Nat × Nat × Nat × Nat × Nat) :=
  [(0x006, p.bankCount, 4, 2, 6), (0x008, p.allocCode, 2, 0, 3), (0x00A, p.rounding, 0, 0, 1),
    (0x00C, p.tCont, 12000, 1000, 20000), (0x00E, p.tPeak, 18000, p.tCont, 20000),
    (0x010, p.peakTime, 30000, 0, 60000), (0x012, p.recovery, 500, 0, 1000),
    (0x014, p.rUp, 500, 10, 5000), (0x016, p.rDown, 1500, 10, 5000),
    (0x018, p.nFloor, 500, 100, 5000), (0x01A, p.groundFactor, 2058, 500, 5000),
    (0x01C, p.maxForward, 640, 0, 640), (0x01E, p.maxReverse, 100, 0, 200),
    (0x020, p.propelCap, 2600, 0, 5000), (0x022, p.lambdaOn, 150, 20, 1000),
    (0x024, p.lambdaOff, 80, 10, p.lambdaOn - 1)] ++
  [(0x026, p.nOn, 3, 1, 20), (0x028, p.cut, 600, 100, 950), (0x02A, p.sMin, 200, 50, 900),
    (0x02C, p.sStep, 20, 1, 200), (0x02E, p.vFloor, 30, 10, 200),
    (0x030, p.slideTime, 2000, 100, 10000), (0x032, p.vFade, 20, 1, 100),
    (0x034, p.kp, 200, 0, 2000), (0x036, p.ki, 50, 0, 1000), (0x038, p.dSafe, 600, 0, 1000),
    (0x03A, p.vReg, 1900, 1000, 2400), (0x03C, p.kTrim, 20, 0, 200),
    (0x03E, p.vTrip, 2300, p.vReg + 1, 2500), (0x040, p.vMin, 900, 500, 1500),
    (0x042, p.vLow, 1200, p.vMin + 1, p.vReg - 1), (0x044, p.chopperPeriod, 1000, 400, 2000)] ++
  [(0x046, p.minTime, 20, 5, 100), (0x06C, p.gNat, 300, 0, 5000),
    (0x06E, p.gBlow, 2700, 0, 20000), (0x070, p.thetaOn, 550, 100, 900),
    (0x072, p.thetaTrip, 700, p.thetaOn + 1, 1000), (0x074, p.thetaBs, 150, 20, 500),
    (0x076, p.thetaBf, 450, p.thetaBs + 1, 1000), (0x078, p.designAmbient, 35, 0, 60),
    (0x07A, p.thetaStart, 300, p.designAmbient, p.thetaTrip - 1), (0x07C, p.outputMode, 0, 0, 1),
    (0x07E, p.lock, 3800, 500, 4500), (0x080, p.highSpeedAngle, 1000, 100, p.lock),
    (0x082, p.rateLo, 150, 10, 1000), (0x084, p.trackTol, 300, 50, 2000),
    (0x086, p.wheelbase, 6700, 3000, 10000), (0x088, p.halfTrack, 3500, 1000, 5000)] ++
  [(0x08A, p.assistSpeed, 80, 0, 300), (0x08C, p.assistGain, 800, 0, 1000),
    (0x08E, p.reserveHi, 120, 0, 500), (0x090, p.reserveLo, 40, 0, p.reserveHi),
    (0x092, p.ratedPayload, 3000, 1000, 6000), (0x094, p.windingOnset, 160, 100, 220),
    (0x096, p.windingLimit, 200, p.windingOnset + 1, 250), (0x098, p.roundPeriod, 4, 2, 10),
    (0x09A, p.missLimit, 3, 2, 8), (0x09C, p.freshLimit, 100, 20, 500),
    (0x09E, p.holdLimit, 2000, 500, 5000), (0x0A0, p.demandWake, 0, 0, 1),
    (0x0A2, p.stopMode, 1, 0, 1)]

/-- The parameters are those that the block resolves to, each field at its offset and with its
default (R24, section 2.2). -/
structure BlockResolved (m : Memory) (p : Params) : Prop where
  guarded : p.profile = m.word 0x0200 ∧ p.arrangement = m.word 0x0202 ∧ p.steerSource = m.word 0x0204
  words : ∀ r ∈ blockRows p, r.2.1 = resolved m r.1 r.2.2.1
  banks : ∀ b, p.resistance.get b = resolved m (0x046 + 2 * bankNum b) 4000 ∧
    p.capacity.get b = resolvedCapacity m b
  overrides : p.overrides = (List.range 21).map fun i =>
    resolved m (0x0A4 + 2 * i) (defaultOverrides.getD i 0)
  priorities : p.priorities = (List.range 12).map fun i =>
    resolved m (0x0CE + 2 * i) (defaultPriorities.getD i 0)
  envelope : p.envelope = (List.range 48).map fun i => (m.word (0x0300 + 2 * i)).toNat

/-- Every parameter lies in the range that section 2.2 gives it (R25). -/
structure BlockLegal (p : Params) : Prop where
  guarded : (p.profile = 0x5A5A ∨ p.profile = 0xA5A5) ∧
    (p.arrangement = 0x2E2E ∨ p.arrangement = 0x4E4E) ∧
    (p.steerSource = 0x5C5C ∨ p.steerSource = 0xC5C5)
  words : ∀ r ∈ blockRows p, r.2.2.2.1 ≤ r.2.1 ∧ r.2.1 ≤ r.2.2.2.2
  banks : ∀ b, 500 ≤ p.resistance.get b ∧ p.resistance.get b ≤ 20000 ∧
    50000 ≤ p.capacity.get b ∧ p.capacity.get b ≤ 2000000
  overrides : ∀ i < 21, overrideFloors.getD i 0 ≤ p.overrides.getD i 0 ∧ p.overrides.getD i 0 ≤ 3
  priorities : ∀ i < 12, p.priorities.getD i 0 ≤ 7
  envelope : ∀ i < 48, envelopeCheck (fun j => p.envelope.getD j 0) i = 0

/-- A field breaks a bound set by another parameter, or an envelope entry is greater than its
neighbour at a lower grade band or payload band (R25). -/
def Field.breaksBound (f : Field) (m : Memory) : Prop :=
  (∃ q ∈ f.least.toList, f.value m < valueAt m q.1 + q.2) ∨
    (∃ q ∈ f.most.toList, valueAt m q.1 < f.value m + q.2) ∨
    ∃ o ∈ f.row.toList ++ f.column.toList, valueAt m o < f.value m

/-- The code of the check that a field fails first, ACCEPTED when it passes them all (R25). -/
structure FieldJudged (m : Memory) (f : Field) (c : Check) : Prop where
  pattern : c = .badPattern ↔ f.patterns ≠ [] ∧ ∀ v ∈ f.patterns, f.value m ≠ v
  range : c = .outOfRange ↔ ¬(f.patterns ≠ [] ∧ ∀ v ∈ f.patterns, f.value m ≠ v) ∧
    (f.value m < f.low ∨ f.high < f.value m)
  bound : c = .inconsistent ↔ ¬(f.patterns ≠ [] ∧ ∀ v ∈ f.patterns, f.value m ≠ v) ∧
    f.low ≤ f.value m ∧ f.value m ≤ f.high ∧ f.breaksBound m
  floor : c = .belowFloor ↔ ¬(f.patterns ≠ [] ∧ ∀ v ∈ f.patterns, f.value m ≠ v) ∧
    f.low ≤ f.value m ∧ f.value m ≤ f.high ∧ ¬f.breaksBound m ∧ f.value m < f.floor

/-- The PRU after an accepted configuration (R178, R182): every entry acts by the new overrides,
CONFIG_GUARD by TRIP; the entries of the kinds that no delivery observes stay as they are but for a
changed action and its stamp, an unchanged action keeping the stamp (assumption log 18); a changed
action raises FAULT_CHANGE; the sets and the summary are formed again; and a changed EXTERNAL_STOP
mode starts its filter afresh in the state it held. -/
structure ActionsTaken (p : Params) (s t : State) : Prop where
  acts : ∀ e ∈ t.pru.entries, e.action =
    if e.kind = .configGuard then .trip else Action.ofCode (p.overrides.getD (e.kind.num - 1) 0)
  kept : ∀ k : Kind, k.loud = false → ∀ a : Action,
    (a = if k = .configGuard then .trip else Action.ofCode (p.overrides.getD (k.num - 1) 0)) →
    t.pru.entries.filter (fun e => e.kind == k) =
      (s.pru.entries.filter (fun e => e.kind == k)).map fun e =>
        if e.action = a then e else { e with action := a, lastChange := s.clock }
  change : (∃ e ∈ s.pru.entries, e.action ≠
      if e.kind = .configGuard then .trip else Action.ofCode (p.overrides.getD (e.kind.num - 1) 0)) →
    Cls.faultChange.isIn t.atc.pending = true
  delivered : t.delivered = true
  filter : t.pru.filter = if p.stopMode = s.cfg.stopMode then s.pru.filter
    else { s.pru.filter with
      lowRun := 0, highRun := 0, lastLow := false
      edgeHeld := decide (p.stopMode ≠ 1) && s.pru.filter.active }

/-! ## The reference speed and the roll call -/

/-- A speed wheel (R111, as its three conditions read, assumption log 44): configured, its record
ENROLLED or MISSING with a report held, a plausible speed held, and not excluded. -/
def State.isSpeedWheel (s : State) (w : Wheel) : Prop :=
  s.cfg.wheel w = true ∧
    ((s.wlc.wheels.get w).state = .enrolled ∨ (s.wlc.wheels.get w).state = .missing) ∧
    (s.wlc.wheels.get w).held ≠ .none ∧ (s.tcu.wheels.get w).held ≠ none ∧
    s.pru.wheelEx.get w = false

/-- |V_p| of a wheel's held speed (R105). -/
def State.groundOf (s : State) (w : Wheel) : Nat :=
  (divInt s.cfg.nearest ((s.tcu.wheels.get w).held.getD 0 * s.cfg.groundFactor) 100000).natAbs

/-- The quality of the reference speed by the rows of R108: FRONT with REAR_PAIR, the SAU as the
steer source and a report of it held, else HINT with a ground speed hint, else DEGRADED. -/
def State.qualityNow (s : State) : Quality :=
  if s.cfg.arrangement = 0x2E2E ∧ s.cfg.steerSource = 0x5C5C ∧
      (s.wlc.sau.state = .enrolled ∨ s.wlc.sau.state = .missing) ∧ s.wlc.sau.held ≠ .none
  then .front
  else if s.dmc.demand.hint ≠ none then .hint
  else .degraded

/-- The reference speed after an event at which its quality is judged and, in quality DEGRADED,
V_ref recomputed: the quality is that of R108, and a DEGRADED V_ref is the least or the greatest of
the speed wheels' speeds by the substate, also above 1000 (assumption log 20), unknown when there is
none (R111). -/
structure ReferenceTaken (t : State) : Prop where
  quality : t.tcu.quality = t.qualityNow
  unknown : t.tcu.quality = .degraded → (∀ w, ¬t.isSpeedWheel w) → t.tcu.vRef = none
  known : t.tcu.quality = .degraded → ∀ w, t.isSpeedWheel w →
    ∃ v, t.tcu.vRef = some v ∧ (∃ x, t.isSpeedWheel x ∧ t.groundOf x = v) ∧
      (t.dmc.substate = .propel ∨ t.dmc.substate = .coast ∨
          t.dmc.substate = .changeover ∧ t.dmc.target = .propel →
        v ≤ t.groundOf w) ∧
      (t.dmc.substate = .retard ∨ t.dmc.substate = .none ∨
          t.dmc.substate = .changeover ∧ t.dmc.target ≠ .propel →
        t.groundOf w ≤ v)

/-- The six conditions of R152, in a state that the STC evaluates the bias in. -/
def State.biasConditions (s : State) : Prop :=
  s.dmc.substate = .propel ∧ (∃ v, s.tcu.vRef = some v ∧ v < s.cfg.assistSpeed) ∧
    s.stc.stale = false ∧ 500 ≤ s.stc.measured.natAbs ∧
    (∀ w, s.cfg.wheel w = true → s.active w = true ∧ s.pru.wheelEx.get w = false) ∧
    ∀ w, s.cfg.wheel w = true → (s.tcu.wheels.get w).slip = .grip

/-- A bias as R152 forms it in a state: from κ and the assist gain under the six conditions, else 0.
-/
structure BiasFormed (s : State) (beta : Nat) : Prop where
  allowed : s.biasConditions →
    beta = min 300 (divNat s.cfg.nearest (s.stc.kappa * s.cfg.assistGain) 1000)
  otherwise : ¬s.biasConditions → beta = 0

/-- The STC after the SAU's record came to hold no report (R147): κ and β 0, the turn side STRAIGHT,
the angle kept and marked stale, both counts 0. -/
structure SauSilent (s t : State) : Prop where
  turn : t.stc.kappa = 0 ∧ t.stc.beta = 0 ∧ t.stc.turn = .straight
  angle : t.stc.measured = s.stc.measured ∧ t.stc.stale = true
  counts : t.stc.exceed = 0 ∧ t.stc.within = 0

/-- The STC after the SAU's record became LOST, ABSENT or not configured (R147, R153, R158): beside
what a silent SAU brings, P_res is 0 for one that is gone, and a calibration in progress ends
UNIT_ABSENT. -/
structure SauGone (s t : State) : Prop extends SauSilent s t where
  reserve : t.stc.reserve = 0
  stopped : t.stc.cal = .none ∧
    t.stc.calResult = if s.stc.cal = .none then s.stc.calResult else .unitAbsent
  ended : s.stc.cal ≠ .none → LastingEnded .steer s.stc.calCell .unitAbsent
    [0, 0, 0, natWord (s.clock - s.stc.calStart).toNat] s t

/-- A ROLL_CALL order after its current target was found or not found, with the lists so far, the
targets that remain and the records configured (R52 to R54): those no longer configured are not
found, the next configured one becomes the current target with no tries, and with none left the
order ends OK. -/
structure TargetDone (o : EnrollOrder) (found notFound rest : List UnitId) (on : UnitId → Bool)
    (s t : State) : Prop where
  next : ∀ missed left, missed = rest.takeWhile (fun v => !on v) →
    left = rest.dropWhile (fun v => !on v) → left ≠ [] →
    t.ore.enroll = s.ore.enroll ∧ t.wlc.order = some
      { cell := o.cell, todo := left, tries := 0, found := found, notFound := notFound ++ missed }
  last : (∀ v ∈ rest, on v = false) → t.wlc.order = none ∧
    LastingEnded .enroll o.cell .ok (targetDetail found (notFound ++ rest)) s t

/-- A unit is found ENROLLED at the end of a roll call without a status block, and receives one
(R43). -/
def placesUnit (s t : State) (u : UnitId) : Bool :=
  (t.wlc.unit u).state == .enrolled && (s.wlc.unit u).block.isNone

/-- A configured bank holds no status block at the end of a roll call, and receives one (R43). -/
def placesBank (s : State) (b : Bank) : Bool := s.cfg.bank b && (s.wlc.bankBlock.get b).isNone

/-- The end of a roll call in STARTING, before and after the event that brings it (R42 to R45, R33):
the blocks are placed at the cursor in rank order, the banks' behind the units', each with its
directory word; the loss condition of every configured unit is reported; UNIT_CHANGE is raised; the
first round starts at once; SETTLE begins with a settle time of 2 s, unless no enrolled WIU is
without READY, and SETTLE ends in the same event; and the STC acts by the SAU's record as it finds
it (R147). -/
structure RollCallEnded (s t : State) : Prop where
  ended : t.wlc.rollCall = none ∧ t.wlc.roundsOn = true
  round : t.wlc.visit = allUnits.filter fun u => (t.wlc.unit u).state != .absent
  opened : t.wlc.roundOpen = (t.wlc.visit != []) ∧ t.wlc.roundPeriod = s.cfg.roundPeriod
  units : ∀ u, (t.wlc.unit u).block =
    if placesUnit s t u then
      some (s.wlc.cursor + 256 * ((allUnits.take (allUnits.idxOf u)).countP (placesUnit s t)))
    else (s.wlc.unit u).block
  banks : ∀ b, t.wlc.bankBlock.get b =
    if placesBank s b then
      some (s.wlc.cursor + 256 * (allUnits.countP (placesUnit s t) +
        (allBanks.take (allBanks.idxOf b)).countP (placesBank s)))
    else s.wlc.bankBlock.get b
  cursor : t.wlc.cursor = s.wlc.cursor +
    256 * (allUnits.countP (placesUnit s t) + allBanks.countP (placesBank s))
  unitWords : ∀ u, placesUnit s t u = true →
    t.word (unitDirectory u) = directoryWord (t.wlc.unit u).block
  bankWords : ∀ b, placesBank s b = true →
    t.word (bankDirectory b) = directoryWord (t.wlc.bankBlock.get b)
  losses : ∀ u, s.cfg.unit u = true → t.pru.observed (lossKind u) (lossSubject u)
    ((t.wlc.unit u).state == .absent || (t.wlc.unit u).state == .lost)
  change : Cls.unitChange.isIn t.atc.pending = true
  settle : (∃ w, (t.wlc.wheels.get w).state = .enrolled ∧
      (t.wlc.wheels.get w).report.flags.getLsbD 0 = false) →
    t.cfl.phase = .settle ∧ t.cfl.settleEnd = some (s.clock + 2000) ∧ t.dmc.mode = .starting
  complete : (∀ w, (t.wlc.wheels.get w).state = .enrolled →
      (t.wlc.wheels.get w).report.flags.getLsbD 0 = true) →
    t.cfl.phase = .complete ∧ t.dmc.mode ≠ .starting
  silent : t.wlc.sau.held = .none → SauSilent s t
  gone : t.wlc.sau.configured = false ∨ t.wlc.sau.state = .absent ∨ t.wlc.sau.state = .lost →
    SauGone s t

/-! ## Conditions -/

/-- What an event that reports a condition leaves as it is, whatever the delivery of the fault table
does after it: the clock and the pins but TRIP_OUT, the allocator, the configuration, the demand
record, the EXTERNAL_STOP filter, the attention registers, every pending class and the host's bytes.
-/
structure Undisturbed (s t : State) : Prop where
  supply : t.supply = s.supply
  resetLow : t.resetLow = s.resetLow
  clock : t.clock = s.clock
  hostData : t.hostData = s.hostData
  tqa : t.tqa = s.tqa
  queue : t.pending = s.pending
  configuration : t.cfg = s.cfg
  demand : t.dmc.demand = s.dmc.demand
  filter : t.pru.filter = s.pru.filter
  attention : { t.atc with pending := s.atc.pending } = s.atc
  classes : ∀ c : Cls, c.isIn s.atc.pending = true → c.isIn t.atc.pending = true
  hostBytes : s.wlc.placed → ∀ a, hostByte a = true → t.xm.byte a = s.xm.byte a

/-- The rows of R135 for a channel before and after its period start, with what R134 and R136 add:
the shadow becomes the duty in force, a phase that runs to this start ends, and a pulse that begins
counts. -/
structure PeriodRow (period minTime : Nat) (before after : Chan) : Prop where
  kept : after.state = before.state ∧ after.shadow = before.shadow ∧ after.duty = before.shadow
  ended : after.onTotal = before.onTotal + (if before.gate then before.onTime else 0) ∧
    after.lastOn = if before.gate then before.onTime else before.lastOn
  none : before.shadow = 0 →
    after.gate = false ∧ after.carry = 0 ∧ after.saturated = false ∧ after.pulses = before.pulses
  full : before.shadow ≠ 0 → period - minTime < (before.shadow * period + before.carry) / 65536 →
    after.gate = true ∧ after.fullOn = true ∧ after.onTime = period ∧ after.carry = 0 ∧
      after.saturated = true ∧ after.pulses = min 4294967295 (before.pulses + 1)
  skipped : before.shadow ≠ 0 →
    (before.shadow * period + before.carry) / 65536 ≤ period - minTime →
    (before.shadow * period + before.carry) / 65536 < minTime →
    after.gate = false ∧ after.carry = before.shadow * period + before.carry ∧
      after.saturated = false ∧ after.pulses = before.pulses
  pulse : before.shadow ≠ 0 →
    (before.shadow * period + before.carry) / 65536 ≤ period - minTime →
    minTime ≤ (before.shadow * period + before.carry) / 65536 →
    after.gate = true ∧ after.fullOn = false ∧
      after.onTime = (before.shadow * period + before.carry) / 65536 ∧
      after.carry = (before.shadow * period + before.carry) % 65536 ∧
      after.saturated = false ∧ after.pulses = min 4294967295 (before.pulses + 1)

/-- A condition's owner reports it: the table holds the observation, and the entries of every other
kind that no delivery observes stay as they are. -/
structure ConditionMoved (k : Kind) (subject : Subject) (present : Bool) (s t : State) : Prop where
  undisturbed : Undisturbed s t
  observed : t.pru.observed k subject present
  others : ∀ j : Kind, j ≠ k → j.loud = false →
    t.pru.entries.filter (fun e => e.kind == j) = s.pru.entries.filter (fun e => e.kind == j)

/-- The rows of R182 for the filter before and after a sample, in LEVEL or EDGE mode, low or high;
each sample becomes the last sample level. -/
structure FilterRow (level low : Bool) (before after : StopFilter) : Prop where
  last : after.lastLow = low
  levelLow : level = true → before.active = false → low = true →
    after = if before.lowRun < 2 then { before with lowRun := before.lowRun + 1, lastLow := true }
      else { before with
        active := true, lowRun := 0, highRun := 0, edgeHeld := false, lastLow := true }
  levelHigh : level = true → before.active = true → low = false →
    after = if before.highRun < 2 then
        { before with highRun := before.highRun + 1, lastLow := false }
      else { before with active := false, lowRun := 0, highRun := 0, lastLow := false }
  levelIdle : level = true → before.active = false → low = false →
    after = { before with lowRun := 0, lastLow := false }
  levelHeld : level = true → before.active = true → low = true →
    after = { before with highRun := 0, lastLow := true }
  edgeFall : level = false → before.active = false → low = true → before.lastLow = false →
    after = { before with lowRun := 1, lastLow := true }
  edgeLow : level = false → before.active = false → low = true → before.lastLow = true →
    after = if before.lowRun = 0 then before
      else if before.lowRun < 2 then { before with lowRun := before.lowRun + 1 }
      else { before with active := true, lowRun := 0, highRun := 0, edgeHeld := true }
  edgeHigh : level = false → before.active = false → low = false →
    after = { before with lowRun := 0, lastLow := false }
  edgeHeld : level = false → before.active = true → after = { before with lastLow := low }

end Sys2Proof.Machine
end

