-- ==== Sys2Proof/Certificates/Slice0/Obligations.lean ====
section
/-! DEFINITION. The statements for the provers. Each docstring names the rule of spec/ that the
statement formalises; where a clause is the model's choice it says so and names the log entry. A
frame is written as the next state with the altered blocks put back, which is the state before. -/

open Sys2Proof Sys2Proof.Machine

/-! ## The step and the invariants -/

/-- A step takes the command at the front of the queue and is `exec` on the queue's rest. On an
empty queue the block idles: that clause is the model's choice (assumption log 1). -/
def Obligations.StepTakesFront : Prop :=
  (∀ (c : Instr) (rest : List Instr) (s : State), s.pending = c :: rest →
    step s = exec c (s.setPending rest)) ∧
  ∀ s : State, s.pending = [] → step s = .next s

/-- No command stops the part and none alters the queue: `exec` answers a next state for every
command in every state, with the same commands waiting. -/
def Obligations.EveryCommandAnswers : Prop :=
  ∀ (c : Instr) (s : State), ∃ t, exec c s = .next t ∧ t.pending = s.pending

/-- Every step keeps the exchange memory in its canonical form. -/
def Obligations.MemoryFormKept : Prop :=
  ∀ s t : State, s.xm.wf → step s = .next t → t.xm.wf

/-- Every step keeps the ranges that the spec states for the blocks' state: the threshold of R22,
one fault entry for each pair (R176), one derate for each pair with a factor below 1000 (R171), the
clamped demand record with its ambient and, at the widest lock of section 2.2, its steer angle (R8),
d_hold, the integrator and V_f (R122, R128), κ and β (R150, R152), and every status block at 0x2100
or above, no two with a byte in common and all before the cursor (R43). -/
def Obligations.RangesKept : Prop :=
  ∀ s t : State, s.ok → step s = .next t → t.ok

/-- No command but the host's own writes, and POWER_ON, alters a byte that the host alone writes:
the part reads the pages, the configuration block, the staging area and the kind, link, tag and
arguments of a cell, and writes none of them (R3, R9, section 1.1.1). -/
def Obligations.HostBytesKept : Prop :=
  ∀ (c : Instr) (s t : State), s.wlc.placed → c.writesHost = false → exec c s = .next t →
    ∀ a, hostByte a = true → t.xm.byte a = s.xm.byte a

/-- Every command but a host write onto them keeps showing the state: the header fields of R5 (the
drive clock, the mode, the cursor, chain state and behind flag, the two attention sets and the two
directories), the fault table image (R184), the derate list image (R172), the envelope table image
(R130) and the TCU's section (R119). A part in reset or without supply holds no status block. -/
def Obligations.HeaderKept : Prop :=
  ∀ (c : Instr) (s t : State), s.headerOk →
    (∀ address value, c = .hostWordWrite address value →
      mirrorByte (2 * address.toNat) = false ∧ imageByte (2 * address.toNat) = false) →
    exec c s = .next t → t.headerOk

/-- The state after reset has the canonical memory form, the ranges and the header of the three
invariants before this. -/
def Obligations.InvariantsAtReset : Prop :=
  State.reset.xm.wf ∧ State.reset.ok ∧ State.reset.headerOk

/-! ## Resets and start-up -/

/-- POWER_ON ends in the state after reset, whatever the state before: only the RESET input's level,
the commands waiting and the model's counter of free values stay. With the RESET input low the
blocks take their POWER_ON values with every word 0x0000, and start-up waits (assumption log 15). -/
def Obligations.PowerOnResets : Prop :=
  ∀ s : State,
    (s.resetLow = false →
      exec .powerOn s = .next { State.reset with draws := s.draws, pending := s.pending }) ∧
    (s.resetLow = true → exec .powerOn s = .next (State.blank true s.draws s.pending))

/-- RESET_PIN held low: every block takes its reset values at once, the drive clock starts from 0,
and the exchange memory keeps its contents (R2, R30). What is kept besides: the guard reset count
(R29), the mode held for the reset cause record (R4), the heat stores, temperatures and GRID_HOT
conditions (R160) and the peak credit, peak state and mark (R77); the fault table is empty (R174).
That whether the heat stores were ever preset (R163) is kept too is the model's reading (assumption
log 26). Host reads then return 0x0000. -/
def Obligations.ResetPinHeld : Prop :=
  ∀ s : State, s.isRunning = true → ∃ t, exec .resetPinAssert s = .next t ∧
    t.resetLow = true ∧ t.clock = 0 ∧ t.tripOut = false ∧ t.xm = s.xm ∧ t.supply = s.supply ∧
    t.hostData = s.hostData ∧ t.draws = s.draws ∧ t.pending = s.pending ∧
    t.atc = Atc.reset ∧ t.ore = Ore.reset ∧ t.wlc = Wlc.reset ∧ t.dmc = Dmc.reset ∧
    t.tcu = Tcu.reset ∧ t.rgc = Rgc.reset ∧ t.stc = Stc.reset ∧ t.pru = Pru.reset [] ∧
    t.cfl = Cfl.reset s.cfl.guardCount .resetPin (some s.dmc.mode) ∧
    (∀ w, t.tqa.wheels.get w = TqaWheel.reset (s.tqa.wheels.get w).credit (s.tqa.wheels.get w).spent
      (s.tqa.wheels.get w).spentByUse) ∧
    t.tqa = { wheels := t.tqa.wheels, nAct := 0, pTrac := 0, pW := 0, pRet := 0
              maxForward := 640, maxReverse := 100, propelCap := 2600, period := 5 } ∧
    t.lmu = Lmu.reset s.lmu.heat s.lmu.theta s.lmu.hot s.lmu.hotClear s.lmu.heatSet ∧
    (∀ a, t.readMemory a = 0) ∧ ∀ r, t.readRegister r = 0

/-- A start-up after RESET_PIN, SOFT_RESTART or GUARD leaves the reset cause record of R4 and R29:
the cause, the mode that the DMC held when the reset was taken, and the guard reset count, which a
GUARD reset raises by 1 up to 65535. The drive clock is 0, the mode STARTING, TRIP_OUT is
deasserted, and no byte of the host is altered. After GUARD the table holds CONFIG_GUARD latched
with action TRIP (R174). -/
def Obligations.StartUpLeaves : Prop :=
  ∀ (c : Instr) (kind : ResetKind) (before : Option Mode) (s : State), s.wlc.placed →
    (c = .softRestart ∧ s.isRunning = true ∧ kind = .softRestart ∧ before = some s.dmc.mode ∨
      c = .guardCheck ∧ s.isRunning = true ∧ s.cfl.guardOn = true ∧ s.cfl.copiesLegal = false ∧
        kind = .guard ∧ before = some s.dmc.mode ∨
      c = .resetPinRelease ∧ s.supply = true ∧ s.resetLow = true ∧ s.clock = 0 ∧ s.tripOut = false ∧
        s.dmc = Dmc.reset ∧ s.cfl = Cfl.reset s.cfl.guardCount kind before ∧ kind ≠ .guard) →
    ∃ t, exec c s = .next t ∧ t.isRunning = true ∧ t.word 0x0012 = kind.code ∧
      t.word 0x0014 = modeBeforeCode before ∧ t.word 0x0016 = natWord t.cfl.guardCount ∧
      t.cfl.guardCount =
        (if kind = .guard then min 65535 (s.cfl.guardCount + 1) else s.cfl.guardCount) ∧
      t.clock = 0 ∧ t.dmc.mode = .starting ∧ t.tripOut = false ∧
      (∀ a, hostByte a = true → t.xm.byte a = s.xm.byte a) ∧
      (kind = .guard → ∃ e ∈ t.pru.entries,
        e.kind = .configGuard ∧ e.state = .latched ∧ e.action = .trip ∧ e.cond = false)

/-- The visit of the order cells (R10): a cell found TAKEN is ended INTERRUPTED with detail 0 and
the drive clock as done stamp, and keeps its other bytes, the taken stamp among them; every other
cell keeps all its bytes, and ORDER_DONE is raised when at least one was ended. A start-up after
RESET_PIN, SOFT_RESTART or GUARD makes it, at drive clock 0, and writes no other byte of a cell. -/
def Obligations.TakenCellsInterrupted : Prop :=
  (∀ (c : Instr) (s : State), s.wlc.placed →
    (c = .softRestart ∧ s.isRunning = true ∨
      c = .guardCheck ∧ s.isRunning = true ∧ s.cfl.guardOn = true ∧ s.cfl.copiesLegal = false ∨
      c = .resetPinRelease ∧ s.supply = true ∧ s.resetLow = true ∧ s.clock = 0 ∧
        s.cfl.cause = .resetPin ∧ s.ore = Ore.reset) →
    ∃ t, exec c s = .next t ∧
      (∀ cell : BitVec 6, s.cellTaken cell = true → t.cellEnded cell .interrupted [] 0 ∧
        ∀ x, cellBase cell ≤ x → x < cellBase cell + 64 →
          (∀ r ∈ endRegions cell, x < r.1 ∨ r.1 + r.2 ≤ x) → t.xm.byte x = s.xm.byte x) ∧
      (∀ cell : BitVec 6, s.cellTaken cell = false →
        ∀ x, cellBase cell ≤ x → x < cellBase cell + 64 → t.xm.byte x = s.xm.byte x) ∧
      ((∃ cell : BitVec 6, s.cellTaken cell = true) →
        Cls.orderDone.isIn t.atc.pending = true)) ∧
  ∀ s : State,
    (∀ cell : BitVec 6, s.cellTaken cell = true →
      (visitTaken s).cellEnded cell .interrupted [] s.clock ∧
      ∀ x, cellBase cell ≤ x → x < cellBase cell + 64 →
        (∀ r ∈ endRegions cell, x < r.1 ∨ r.1 + r.2 ≤ x) →
        (visitTaken s).xm.byte x = s.xm.byte x) ∧
    (∀ cell : BitVec 6, s.cellTaken cell = false →
      ∀ x, cellBase cell ≤ x → x < cellBase cell + 64 → (visitTaken s).xm.byte x = s.xm.byte x) ∧
    ((∃ cell : BitVec 6, s.cellTaken cell = true) → Raised [.orderDone] s (visitTaken s)) ∧
    ((∀ cell : BitVec 6, s.cellTaken cell = false) → visitTaken s = s)

/-- A guard check that finds every copy legal, or is made while the guard state is 0, has no effect;
an upset alters the one internal copy and nothing else (R28). -/
def Obligations.GuardCopies : Prop :=
  ∀ s : State, s.isRunning = true →
    (s.cfl.guardOn = false ∨ s.cfl.copiesLegal = true → exec .guardCheck s = .next s) ∧
    (∀ v, exec (.guardedCopyUpset .profile v) s =
      .next { s with cfl := { s.cfl with profileCopy := v } }) ∧
    (∀ v, exec (.guardedCopyUpset .arrangement v) s =
      .next { s with cfl := { s.cfl with arrangementCopy := v } }) ∧
    ∀ v, exec (.guardedCopyUpset .steerSource v) s =
      .next { s with cfl := { s.cfl with steerCopy := v } }

/-- A part that is held in reset or has no supply ignores every command but those of R30: host
writes change nothing, and every read, a poll included, returns 0x0000. That the other commands,
too, change nothing, and that a part without supply reads 0x0000, is the model's reading (assumption
log 2); that RESET_PIN_ASSERT of a part already held or without supply only records the level is the
model's choice (assumption log 15). SUPPLY_FALL ends all work of the part and leaves it without
supply, no output driven; that the blocks then stand at their POWER_ON values with the memory
unaltered is the model's choice (assumption log 13). -/
def Obligations.StoppedPart : Prop :=
  (∀ (c : Instr) (s : State), s.isRunning = false →
    (c.actsStopped = false → exec c s = .next s) ∧
    exec .attnPoll s = .next { s with hostData := 0 } ∧
    (exec .resetPinAssert s = .next { s with resetLow := true }) ∧
    (∀ a, s.readMemory a = 0) ∧ ∀ r, s.readRegister r = 0) ∧
  ∀ s : State, ∃ t, exec .supplyFall s = .next t ∧ t.supply = false ∧ t.isRunning = false ∧
    t.tripOut = false ∧ t.attn = false ∧ t.brakeAssist = false ∧
    (∀ b, (t.rgc.chans.get b).gate = false) ∧ t.xm = s.xm ∧
    { t with supply := true, xm := [] } = State.blank s.resetLow s.draws s.pending

/-! ## The host port -/

/-- The host port. DRIVE_CLOCK_TICK advances the drive clock by 1 and shows it in the header (R5); a
host write of any word but the ready mark alters that word and nothing else, and a read then returns
it (R1, R3). PART_STATUS holds the mode, the start-up phase, the chain state, the behind flag, the
guard state and the reset cause in their bits, word offsets 1, 3, 6 and 7 of the register window
read 0. A write of the window is the command that its word spells: of PART_CONTROL, 0xA in bits 15
to 12 the soft restart and 0x5 the chain restart at the index of bits 6 to 0; of ATTN_END, bit 15
the specific form with the class of bits 3 to 0, and else the non-specific one; of offsets 4 and 5
the mask and the threshold; and any other write is ignored (R21 to R23). That bits 15 to 12 of
PART_STATUS read 0, and that the bits of a written word which section 1.9 does not name are ignored,
is the model's choice (assumption log 46). -/
def Obligations.HostPort : Prop :=
  (∀ s : State, s.isRunning = true →
    (∃ t, exec .driveClockTick s = .next t ∧ t.clock = s.clock + 1 ∧
      t.word 0x000C = t.clock.setWidth 16 ∧ t.word 0x000E = t.clock.extractLsb' 16 16 ∧
      SameOutside [(0x000C, 4)] s t ∧ { t with clock := s.clock, xm := s.xm } = s) ∧
    ∀ (address : BitVec 13) (value : Word), address ≠ 3 →
      ∃ t, exec (.hostWordWrite address value) s = .next t ∧ t.readMemory address = value ∧
        SameOutside [(2 * address.toNat, 2)] s t ∧ { t with xm := s.xm } = s) ∧
  (∀ s : State, s.isRunning = true →
    (s.readRegister 0).extractLsb' 0 3 = s.dmc.mode.code.setWidth 3 ∧
    (s.readRegister 0).extractLsb' 3 2 = s.cfl.phase.code.setWidth 2 ∧
    (s.readRegister 0).extractLsb' 5 2 = s.ore.chain.code.setWidth 2 ∧
    (s.readRegister 0).getLsbD 7 = s.ore.behind ∧ (s.readRegister 0).getLsbD 8 = s.cfl.guardOn ∧
    (s.readRegister 0).extractLsb' 9 3 = s.cfl.cause.code.setWidth 3 ∧
    (s.readRegister 0).extractLsb' 12 4 = 0 ∧
    s.readRegister 1 = 0 ∧ s.readRegister 3 = 0 ∧ s.readRegister 6 = 0 ∧ s.readRegister 7 = 0) ∧
  (∀ (r : BitVec 3) (v : Word) (s : State), exec (.registerWriteIgnored r v) s = .next s ∧
    (r.toNat ∈ [0, 2, 6, 7] ∨ r.toNat = 1 ∧ v.toNat / 4096 ≠ 10 ∧ v.toNat / 4096 ≠ 5 →
      exec (registerWrite r v) s = .next s)) ∧
  ∀ v : Word,
    (v.toNat / 4096 = 10 → registerWrite 1 v = .softRestart) ∧
    (v.toNat / 4096 = 5 → registerWrite 1 v = .chainRestart (BitVec.ofNat 7 (v.toNat % 128))) ∧
    (32768 ≤ v.toNat → registerWrite 3 v = .attnEndSpecific (BitVec.ofNat 4 (v.toNat % 16))) ∧
    (v.toNat < 32768 → registerWrite 3 v = .attnEndNonSpecific) ∧
    registerWrite 4 v = .attnMaskWrite v ∧ registerWrite 5 v = .attnThresholdWrite v

/-- A ready-mark write that brings no accepted validation (R27): outside LOAD it acts on the word
alone; in LOAD another value than 0x3C96 arms, 0x3C96 while not armed has no effect, and 0x3C96
while armed with a block that fails clears the armed flag, shows the code and the offset of the
first failing field and raises CONFIG_RESULT (R26). A HOST_WORD_WRITE to 0x0006 acts like
READY_MARK_WRITE. The fields stand in ascending offset; a validation that refuses names one of them,
every field before it passes, and its code is that of the first check that the field fails; one that
accepts names offset 0, and every field passes (R25). -/
def Obligations.ReadyMarkKept : Prop :=
  (fields.Pairwise (fun f g => f.offset < g.offset) ∧
    ∀ (m : Memory) (r : Check × Nat), r = validate m →
      (r.1 = .accepted → r.2 = 0 ∧ ∀ f ∈ fields, FieldJudged m f .accepted) ∧
      (r.1 ≠ .accepted → (∃ f ∈ fields, f.offset = r.2) ∧ ∀ f ∈ fields,
        (f.offset < r.2 → FieldJudged m f .accepted) ∧ (f.offset = r.2 → FieldJudged m f r.1))) ∧
  ∀ (s : State) (v : Word) (c : Instr), s.isRunning = true → s.delivered = true →
    (c = .readyMarkWrite v ∨ c = .hostWordWrite 3 v) →
    ((s.cfl.phase ≠ .load ∨ v = 0x3C96 ∧ s.cfl.armed = false →
      ∃ t, exec c s = .next t ∧ t.word 0x0006 = v ∧ SameOutside [(0x0006, 2)] s t ∧
        { t with xm := s.xm } = s) ∧
    (s.cfl.phase = .load ∧ v ≠ 0x3C96 →
      ∃ t, exec c s = .next t ∧ t.word 0x0006 = v ∧ SameOutside [(0x0006, 2)] s t ∧
        { t with xm := s.xm } = { s with cfl := { s.cfl with armed := true } }) ∧
    ∀ r : Check × Nat, r = validate (s.xm.store 0x0006 [v]) →
      s.cfl.phase = .load ∧ v = 0x3C96 ∧ s.cfl.armed = true ∧ r.1 ≠ .accepted →
      ∃ t, exec c s = .next t ∧ t.word 0x0006 = v ∧ t.word 0x0018 = r.1.code ∧
        t.word 0x001A = natWord r.2 ∧ Raised [.configResult] s t ∧
        SameOutside [(0x0006, 2), (0x0018, 4), pendingRegion] s t ∧
        { t with xm := s.xm, atc := s.atc } = { s with cfl := { s.cfl with armed := false } })

/-- The parameters of a block are its fields as R24 resolves them, each with the default of section
2.2, and a validation accepts it when each lies in the range of that section (R25). The ready mark
0x3C96, written in LOAD while armed with such a block (R26, R27, R32): the resolved block becomes
the active configuration, the guarded words the internal copies, the guard state 1 and the phase
ENROLL; the header shows ACCEPTED with offset 0 and CONFIG_RESULT is pending. The ATC takes the
priorities (R17), the TQA the limits (R100), the LMU the heat stores and, at a preset, the estimates
(R163; over which ambient they stand is assumption log 56), the RGC the envelope table (R26), the
rotation order (R131), the grid capacity (R123), RUN for the blower channel and the bank channels'
states (R133); the WLC begins a roll call of the configured units with rounds stopped, once no
exchange is in progress (R42; that the rest of an open round is left is assumption log 30). The PRU
rewrites the action of every entry and takes a changed EXTERNAL_STOP mode (R178, R182); that an
entry whose action stays keeps its stamp is the model's reading (assumption log 18). The mode stays
STARTING and no other byte of the host is altered. -/
def Obligations.ConfigurationAccepted : Prop :=
  (∀ m : Memory, BlockResolved m (Params.ofBlock m) ∧
    ((validate m).1 = .accepted ↔ BlockLegal (Params.ofBlock m))) ∧
  ∀ (s : State) (c : Instr) (p : Params), s.isRunning = true → s.wlc.placed →
    s.dmc.mode = .starting → s.cfl.phase = .load → s.cfl.armed = true →
    (c = .readyMarkWrite 0x3C96 ∨ c = .hostWordWrite 3 0x3C96) →
    (validate (s.xm.store 0x0006 [0x3C96])).1 = .accepted →
    p = Params.ofBlock (s.xm.store 0x0006 [0x3C96]) →
    ∃ t, exec c s = .next t ∧
      t.cfl = { s.cfl with
        phase := .enroll, guardOn := true, active := p, profileCopy := p.profile
        arrangementCopy := p.arrangement, steerCopy := p.steerSource, reEnrol := false
        settleEnd := none } ∧
      t.dmc = s.dmc ∧ t.word 0x0006 = 0x3C96 ∧ t.word 0x0018 = 1 ∧ t.word 0x001A = 0 ∧
      Cls.configResult.isIn t.atc.pending = true ∧ t.atc.priorities = p.priorities ∧
      t.tqa = { s.tqa with
        maxForward := p.maxForward, maxReverse := p.maxReverse, propelCap := p.propelCap } ∧
      t.lmu.heatSet = true ∧
      (∀ b, t.lmu.heat.get b =
        if s.lmu.heatSet then min (s.lmu.heat.get b) (p.capacity.get b * 1000)
        else min (p.capacity.get b * 1000)
          ((p.capacity.get b : Int) * ((p.thetaStart : Int) -
            s.dmc.demand.ambient.getD (p.designAmbient : Int))).toNat) ∧
      (∀ b, t.lmu.theta.get b = if s.lmu.heatSet then s.lmu.theta.get b
        else 10 * s.dmc.demand.ambient.getD (p.designAmbient : Int) +
          (t.lmu.heat.get b * 10 / p.capacity.get b : Nat)) ∧
      (∀ b, b ∈ t.rgc.rotation ↔ p.bank b = true ∧ t.pru.bankEx.get b = false) ∧
      t.rgc.rotation.Pairwise (fun b c => t.lmu.heat.get b < t.lmu.heat.get c ∨
        t.lmu.heat.get b = t.lmu.heat.get c ∧ bankNum b < bankNum c) ∧
      t.rgc.capacity = ((allBanks.filter fun b => p.bank b && !t.pru.bankEx.get b).map fun b =>
        p.vReg * p.vReg * t.lmu.dBank b / (p.resistance.get b * 1000)).sum ∧
      (∀ b, (t.rgc.chans.get b).state = if p.bank b = false then .off
        else if t.pru.bankEx.get b then .blocked
        else if t.rgc.test.bind (fun g => g.current) = some b then .test else .off) ∧
      ActionsTaken p s t ∧
      t.rgc.table = p.envelope ∧ t.rgc.blower.state = .run ∧ t.wlc.roundsOn = false ∧
      t.wlc.order = none ∧
      (s.wlc.window = none → t.wlc.rollCallAsked = false ∧
        t.wlc.rollCall = some { todo := allUnits.filter p.unit, tries := 0 }) ∧
      (s.wlc.window ≠ none → t.wlc.rollCallAsked = true ∧ t.wlc.rollCall = none) ∧
      ∀ a, hostByte a = true → a ≠ 0x0006 → a ≠ 0x0007 → t.xm.byte a = s.xm.byte a

/-- CHAIN_RESTART (R16): an index of 0 to 63 sets the cursor, clears the behind flag and sets
RUNNING, whatever the chain state, and touches no lasting order; an index of 64 or more is ignored.
A scan that follows, at a cursor cell that is not POSTED, sets WAITING there. -/
def Obligations.ChainRestarts : Prop :=
  ∀ (s : State) (index : BitVec 7), s.isRunning = true →
    (index.toNat < 64 → ∃ t, exec (.chainRestart index) s = .next t ∧
      t.ore = { s.ore with cursor := index.setWidth 6, behind := false, chain := .running } ∧
      (s.headerShown → t.word 0x001C = index.setWidth 16 ∧ t.word 0x001E = 1 ∧ t.word 0x0020 = 0) ∧
      SameOutside [(0x001C, 6)] s t ∧ { t with ore := s.ore, xm := s.xm } = s ∧
      (s.cellPosted (index.setWidth 6) = false → ∃ u, exec .chainScan t = .next u ∧
        u.ore = { t.ore with chain := .waiting } ∧ u.word 0x001E = 2 ∧
        SameOutside [(0x001C, 6)] t u ∧ { u with ore := t.ore, xm := t.xm } = t)) ∧
    (64 ≤ index.toNat → exec (.chainRestart index) s = .next s)

/-- A read of ATTN_POLL presents the most urgent presentable class: the numerically lowest priority,
and among equal priorities the lower class number. It returns the valid flag with the class number,
moves the class from the pending to the in-service set and rewrites both mirrors; with no class
presentable it returns 0x0000 and changes nothing else (R20). That bits 14 to 4 of the word are 0 is
the model's choice (assumption log 46). -/
def Obligations.PollPresents : Prop :=
  ∀ s : State, s.isRunning = true →
    (∀ c : Cls, s.atc.presentable c = true →
      (∀ d : Cls, s.atc.presentable d = true → s.atc.priority c < s.atc.priority d ∨
        s.atc.priority c = s.atc.priority d ∧ c.num ≤ d.num) →
      ∃ t, exec .attnPoll s = .next t ∧ t.hostData = 0x8000 + natWord c.num ∧
        (∀ d : Cls, d.isIn t.atc.pending = (d.isIn s.atc.pending && d != c)) ∧
        (∀ d : Cls, d.isIn t.atc.inService = (d.isIn s.atc.inService || d == c)) ∧
        t.word 0x0022 = t.atc.pending.setWidth 16 ∧ t.word 0x0024 = t.atc.inService.setWidth 16 ∧
        SameOutside [(0x0022, 4)] s t ∧
        { t with
          hostData := s.hostData, xm := s.xm
          atc := { t.atc with pending := s.atc.pending, inService := s.atc.inService } } = s) ∧
    ((∀ c : Cls, s.atc.presentable c = false) →
      exec .attnPoll s = .next { s with hostData := 0 })

/-- ATTN_END (R21): in the specific form a class in service is removed, and a class not in service,
or no class at all (12 to 15), is ignored; in the non-specific form the most urgent class in service
is removed, and with none in service the write is ignored. A class is presentable exactly while the
four conditions of R19 hold, so that one pending again meanwhile stays pending and is presented only
when they admit it, and ATTN is asserted while at least one class is presentable. -/
def Obligations.ServiceEnds : Prop :=
  ∀ s : State, s.isRunning = true →
    (∀ (n : BitVec 4) (c : Cls), c.num = n.toNat → c.isIn s.atc.inService = true →
      ∃ t, exec (.attnEndSpecific n) s = .next t ∧ ServiceEnded c s t) ∧
    (∀ n : BitVec 4, (∀ c : Cls, c.num = n.toNat → c.isIn s.atc.inService = false) →
      exec (.attnEndSpecific n) s = .next s) ∧
    (∀ c : Cls, c.isIn s.atc.inService = true →
      (∀ d : Cls, d.isIn s.atc.inService = true → s.atc.priority c < s.atc.priority d ∨
        s.atc.priority c = s.atc.priority d ∧ c.num ≤ d.num) →
      ∃ t, exec .attnEndNonSpecific s = .next t ∧ ServiceEnded c s t) ∧
    ((∀ c : Cls, c.isIn s.atc.inService = false) → exec .attnEndNonSpecific s = .next s) ∧
    (s.attn = true ↔ ∃ c : Cls, s.atc.presentable c = true) ∧
    ∀ c : Cls, s.atc.presentable c = true ↔
      c.isIn s.atc.pending = true ∧ c.isIn s.atc.mask = false ∧
        s.atc.priority c < s.atc.threshold ∧
        ∀ d : Cls, d.isIn s.atc.inService = true → s.atc.priority c < s.atc.priority d

/-- ATTN_MASK and ATTN_THRESHOLD (R22): a write of the mask takes bits 0 to 11, and a read returns
them with bits 12 to 15 zero; a masked class stays pending, and in service, but is not presentable.
A write of the threshold stores 0 to 8, and 8 for any value above; a read returns it. Threshold 8
admits every priority of 0 to 7, and threshold 0 none. -/
def Obligations.MaskAndThreshold : Prop :=
  ∀ (s : State) (v : Word), s.isRunning = true →
    (∃ t, exec (.attnMaskWrite v) s = .next t ∧ (∀ c : Cls, c.isIn t.atc.mask = v.getLsbD c.num) ∧
      t.readRegister 4 = v &&& 0x0FFF ∧
      (∀ c : Cls, v.getLsbD c.num = true → t.atc.presentable c = false) ∧
      { t with atc := { t.atc with mask := s.atc.mask } } = s) ∧
    ∃ t, exec (.attnThresholdWrite v) s = .next t ∧
      t.atc.threshold = (if v.toNat ≤ 8 then v.toNat else 8) ∧
      (t.readRegister 5).toNat = t.atc.threshold ∧
      (8 ≤ v.toNat → ∀ c : Cls, s.atc.priority c ≤ 7 → (t.atc.presentable c = true ↔
        c.isIn s.atc.pending = true ∧ c.isIn s.atc.mask = false ∧
          ∀ d : Cls, d.isIn s.atc.inService = true → s.atc.priority c < s.atc.priority d)) ∧
      (v = 0 → ∀ c : Cls, t.atc.presentable c = false) ∧
      { t with atc := { t.atc with threshold := s.atc.threshold } } = s

/-- A class event (R18): its class is pending afterwards, whether or not it was before and whether
or not it is in service; a second event leaves no trace; a change of the set is written to the
mirror, and nothing else changes. -/
def Obligations.ClassEventPends : Prop :=
  ∀ (c : Cls) (s : State), Raised [c] s (raise c s) ∧ raise c (raise c s) = raise c s ∧
    (c.isIn s.atc.pending = true → raise c s = s) ∧
    (c.isIn s.atc.pending = false →
      (raise c s).word 0x0022 = (raise c s).atc.pending.setWidth 16) ∧
    SameOutside [pendingRegion] s (raise c s) ∧ { raise c s with atc := s.atc, xm := s.xm } = s

/-! ## Orders -/

/-- A completion (R14): when the in-flight table holds that cell for that resource, the cell is
ended with the result, the detail and the drive clock as done stamp, DONE for OK and FAILED for
every other code, the resource is freed and ORDER_DONE raised; otherwise the completion is dropped.
A well-formed one carries eight detail words; that a word not carried is shown as 0 is the model's
reading (assumption log 9). Cursor and chain state stay, whatever the chain state. -/
def Obligations.CompletionArrives : Prop :=
  ∀ (r : Resource) (cell : BitVec 6) (result : Result) (detail : List Word) (s : State),
    s.isRunning = true →
    (s.ore.inFlight r = some cell →
      ∃ t, exec (.orderCompletion r cell result detail) s = .next t ∧
        OrderEnded cell result detail [] s t ∧ t.ore.inFlight r = none ∧
        (∀ q, q ≠ r → t.ore.inFlight q = s.ore.inFlight q) ∧ t.ore.cursor = s.ore.cursor ∧
        t.ore.chain = s.ore.chain ∧ t.ore.behind = s.ore.behind ∧
        { t with atc := s.atc, xm := s.xm, ore := s.ore } = s) ∧
    (s.ore.inFlight r ≠ some cell →
      exec (.orderCompletion r cell result detail) s = .next s)

/-- The first checks of R13 over every kind that they can fail: an order outside its allowed-in
entry (section 1.6) ends WRONG_MODE, a lasting order whose resource is held BUSY, and an
APPLY_CONFIG with a lasting order in flight CONFLICT. The cell shows the code, and nothing else
changes. That every detail word is then 0 is the model's reading (assumption log 9). -/
def Obligations.OrdersTurnedAway : Prop :=
  ∀ (c : Instr) (cell : BitVec 6) (r : Result) (s : State), s.isRunning = true →
    (r = .wrongMode ∧
      (s.dmc.mode = .starting ∧
          ((∃ f v k, c = .setLimits cell f v k) ∨ c = .loadEnvelope cell) ∨
        ¬(s.dmc.mode = .ready ∧ s.standstill = true) ∧ (∃ l b, c = .enterStandby cell l b) ∨
        s.dmc.mode ≠ .standby ∧ (c = .leaveStandby cell ∨ c = .applyConfig cell) ∨
        ¬(s.dmc.mode = .ready ∧ s.standstill = true) ∧ s.dmc.mode ≠ .standby ∧
          (∃ b d n, c = .gridTest cell b d n) ∨
        ¬((s.dmc.mode = .ready ∨ s.dmc.mode = .standby ∧ s.linkKept = true) ∧ s.standstill = true) ∧
          c = .steerCalibrate cell ∨
        ¬(s.dmc.mode = .ready ∨ s.dmc.mode = .standby ∧ s.linkKept = true) ∧ c = .rollCall cell) ∨
    r = .busy ∧
      ((s.dmc.mode = .ready ∧ s.standstill = true ∨ s.dmc.mode = .standby) ∧ s.ore.grid ≠ none ∧
          (∃ b d n, c = .gridTest cell b d n) ∨
        (s.dmc.mode = .ready ∨ s.dmc.mode = .standby ∧ s.linkKept = true) ∧ s.standstill = true ∧
          s.ore.steer ≠ none ∧ c = .steerCalibrate cell ∨
        (s.dmc.mode = .ready ∨ s.dmc.mode = .standby ∧ s.linkKept = true) ∧ s.ore.enroll ≠ none ∧
          c = .rollCall cell) ∨
    r = .conflict ∧ s.dmc.mode = .standby ∧ ¬(s.ore.grid = none ∧ s.ore.steer = none ∧
      s.ore.enroll = none) ∧ c = .applyConfig cell) →
    ∃ t, exec c s = .next t ∧ OrderEnded cell r [] [] s t ∧ { t with atc := s.atc, xm := s.xm } = s

/-- SET_LIMITS in every mode but STARTING (R100): the three limits in force take the arguments, each
clamped; the order ends OK with the set of clamped arguments and the values now in force. That
detail words 4 to 7 are 0 is the model's reading (assumption log 9). -/
def Obligations.LimitsSet : Prop :=
  ∀ (cell : BitVec 6) (forward reverse cap : Word) (s : State), s.isRunning = true →
    s.dmc.mode ≠ .starting →
    ∃ t, exec (.setLimits cell forward reverse cap) s = .next t ∧
      t.tqa = { s.tqa with
        maxForward := min forward.toNat 640, maxReverse := min reverse.toNat 200
        propelCap := min cap.toNat 5000 } ∧
      OrderEnded cell .ok
        [(if 640 < forward.toNat then 1 else 0) + (if 200 < reverse.toNat then 2 else 0) +
            (if 5000 < cap.toNat then 4 else 0),
          natWord t.tqa.maxForward, natWord t.tqa.maxReverse, natWord t.tqa.propelCap] [] s t ∧
      { t with atc := s.atc, xm := s.xm, tqa := s.tqa } = s

/-- LOAD_ENVELOPE in every mode but STARTING (R130): with every staged entry in range, not above its
left neighbour and not above the entry over it, the live table is replaced and shown; the first
entry that fails ends the order BAD_ARGUMENT with its payload band, its grade band and the check,
and the table stays. That the detail words beyond those are 0 is the model's reading (assumption log
9). -/
def Obligations.EnvelopeLoaded : Prop :=
  ∀ (cell : BitVec 6) (s : State) (e : Nat → Nat), s.isRunning = true → s.dmc.mode ≠ .starting →
    (∀ i, e i = (s.word (0x0600 + 2 * i)).toNat) →
    ((∀ i < 48, envelopeCheck e i = 0) →
      ∃ t, exec (.loadEnvelope cell) s = .next t ∧ t.rgc.table = (List.range 48).map e ∧
        (∀ i < 48, t.word (0x1C80 + 2 * i) = s.word (0x0600 + 2 * i)) ∧
        OrderEnded cell .ok [] [(0x1C80, 96)] s t ∧
        { t with atc := s.atc, xm := s.xm, rgc := { t.rgc with table := s.rgc.table } } = s) ∧
    ∀ i < 48, (∀ j < i, envelopeCheck e j = 0) → envelopeCheck e i ≠ 0 →
      ∃ t, exec (.loadEnvelope cell) s = .next t ∧
        OrderEnded cell .badArgument
          [natWord (i / 8), natWord (i % 8), natWord (envelopeCheck e i)] [] s t ∧
        { t with atc := s.atc, xm := s.xm } = s

/-- CLEAR_FAULTS (R183), with no lasting order in flight. Step 1: a filter that is ACTIVE, edge-held
and last high becomes INACTIVE with the mark cleared, and the EXTERNAL_STOP entry ends CLEARED, or
removed. Steps 2 and 3, without step 1: of every kind that the deliveries of step 4 do not observe,
the entries are those that the two steps leave, in their order, and the order ends OK with the
number made CLEARED, the number still LATCHED at its end, the number removed and the number left at
its end, after step 4. That detail words 4 to 7 are 0 is the model's reading (assumption log 9). -/
def Obligations.FaultsCleared : Prop :=
  ∀ (cell : BitVec 6) (forget : Word) (s : State), s.isRunning = true → s.ore.idle = true →
    s.wlc.placed → s.pru.ok →
    ∃ t, exec (.clearFaults cell forget) s = .next t ∧ t.ore = s.ore ∧
      Cls.orderDone.isIn t.atc.pending = true ∧
      (∀ a, hostByte a = true → t.xm.byte a = s.xm.byte a) ∧
      (s.pru.filter.active = true ∧ s.pru.filter.edgeHeld = true ∧ s.pru.filter.lastLow = false →
        t.pru.filter =
          { s.pru.filter with active := false, edgeHeld := false, lowRun := 0, highRun := 0 } ∧
        ∀ e ∈ t.pru.entries, e.kind = .externalStop → e.subject = .global →
          e.state = .cleared ∧ e.cond = false ∧ forget = 0) ∧
      (¬(s.pru.filter.active = true ∧ s.pru.filter.edgeHeld = true ∧ s.pru.filter.lastLow = false) →
        t.pru.filter = s.pru.filter ∧
        (∀ k : Kind, k.loud = false →
          t.pru.entries.filter (fun e => e.kind == k) =
            (s.pru.entries.filter (fun e => e.kind == k)).filterMap
              (Entry.afterClear forget s.clock)) ∧
        t.cellEnded cell .ok
          [natWord (s.pru.entries.countP fun e => e.state == .latched && !e.cond),
            natWord (t.pru.entries.countP fun e => e.state == .latched),
            natWord (if forget = 0 then 0
              else s.pru.entries.countP fun e =>
                e.state == .cleared || (e.state == .latched && !e.cond)),
            natWord t.pru.entries.length] s.clock)

/-- A CLEAR_FAULTS that leaves the table as it is, with no escalation to observe, and its completion
at the DMC (R72): outside TRIPPED nothing changes but the cell; in TRIPPED the clear credit is set,
and when the summary is below SAFE_STOP, standstill holds and the record names NEUTRAL, the DMC
enters READY with substate COAST and the credit cleared, TRIP_OUT deasserted. That detail words 4 to
7 are 0 is the model's reading (assumption log 9). The same check is made at a DEMAND_SAMPLE in
TRIPPED, with a fresh demand and no page to accept: with the credit set and the three conditions the
DMC enters READY, and else stays. -/
def Obligations.ClearFaultsReturns : Prop :=
  (∀ s : State, s.isRunning = true → s.delivered = true → s.wlc.placed → s.dmc.mode = .tripped →
    s.pageAccepted = false → (s.clock - s.dmc.freshRef).toNat ≤ s.cfg.freshLimit →
    s.dmc.fresh = .fresh →
    ∃ t, exec .demandSample s = .next t ∧ t.pru = s.pru ∧ t.dmc.demand = s.dmc.demand ∧
      (s.dmc.credit = true ∧ s.pru.summary.code < 3 ∧ s.standstill = true ∧
          s.dmc.demand.direction = .neutral →
        t.dmc.mode = .ready ∧ t.dmc.credit = false ∧ t.tripOut = false ∧ t.word 0x0010 = 2 ∧
        t.dmc.lastChange = s.clock ∧ t.rgc.discharge = none ∧ t.rgc.causes.tripped = false ∧
        Cls.modeChange.isIn t.atc.pending = true) ∧
      (¬(s.dmc.credit = true ∧ s.pru.summary.code < 3 ∧ s.standstill = true ∧
          s.dmc.demand.direction = .neutral) →
        t.dmc = { s.dmc with period := s.cfg.allocPeriod } ∧ t.tripOut = s.tripOut ∧
        t.rgc = s.rgc ∧ t.atc = s.atc)) ∧
  ∀ (cell : BitVec 6) (s : State), s.isRunning = true → s.delivered = true → s.wlc.placed →
    (s.pru.filter.active && s.pru.filter.edgeHeld && !s.pru.filter.lastLow) = false →
    (∀ e ∈ s.pru.entries, e.state = .latched → e.cond = true) →
    s.noTraction = false → s.noGridLeft = false → s.pru.noEntry .noTractionUnits .global →
    s.pru.noEntry .noGrid .global →
    ∃ t, exec (.clearFaults cell 0) s = .next t ∧
      t.cellEnded cell .ok [0, natWord (s.pru.entries.countP fun e => e.state == .latched), 0,
        natWord s.pru.entries.length] s.clock ∧
      (s.dmc.mode ≠ .tripped → { t with atc := s.atc, xm := s.xm } = s) ∧
      (s.dmc.mode = .tripped →
        ¬(s.pru.summary.code < 3 ∧ s.standstill = true ∧ s.dmc.demand.direction = .neutral) →
        { t with atc := s.atc, xm := s.xm } = { s with dmc := { s.dmc with credit := true } }) ∧
      (s.dmc.mode = .tripped →
        s.pru.summary.code < 3 ∧ s.standstill = true ∧ s.dmc.demand.direction = .neutral →
        t.dmc = { s.dmc with
          mode := .ready, substate := .coast, target := .none, adopted := .neutral
          pendingDir := none, variant := none, credit := false, lastChange := s.clock } ∧
        t.tripOut = false ∧ t.rgc.discharge = none ∧ t.rgc.causes.tripped = false ∧
        t.word 0x0010 = 2 ∧ Cls.modeChange.isIn t.atc.pending = true ∧ t.pru = s.pru)

/-- ENTER_STANDBY in READY at standstill (R73): the variant follows the two arguments (DARK, COOL,
LINK, FULL), the mode becomes STANDBY with substate, target and pending direction NONE and the
adopted direction NEUTRAL, freshness NOT_COUNTED with both conditions observed absent; rounds go on
only when the link is kept; the order ends OK with the variant code. A grid test in flight stays in
flight. Without the link a calibration and a ROLL_CALL order end ABORTED with their details (R158,
R53, R54), within the event (assumption log 28); with it both go on. That detail words 1 to 7 are 0
is the model's reading (assumption log 9). -/
def Obligations.StandbyEntered : Prop :=
  ∀ (cell : BitVec 6) (keepLink keepBlower : Word) (s : State) (v : Variant), s.isRunning = true →
    s.delivered = true → s.wlc.placed → s.pru.ok → s.dmc.mode = .ready → s.standstill = true →
    (v = if keepLink = 0 then (if keepBlower = 0 then .dark else .cool)
      else if keepBlower = 0 then .link else .full) →
    ∃ t, exec (.enterStandby cell keepLink keepBlower) s = .next t ∧
      t.dmc = { s.dmc with
        mode := .standby, substate := .none, target := .none, adopted := .neutral
        pendingDir := none, variant := some v, fresh := .notCounted, lastChange := s.clock } ∧
      t.cellEnded cell .ok [v.code] s.clock ∧ t.word 0x0010 = 1 ∧ t.tripOut = false ∧
      Cls.modeChange.isIn t.atc.pending = true ∧ Cls.orderDone.isIn t.atc.pending = true ∧
      t.wlc.roundsOn = (keepLink != 0 && s.wlc.roundsOn) ∧ t.ore.grid = s.ore.grid ∧
      t.pru.observed .demandStale .global false ∧ t.pru.observed .demandLost .global false ∧
      t.tqa = s.tqa ∧ t.cfl = s.cfl ∧ t.clock = s.clock ∧
      (keepLink ≠ 0 → t.stc.cal = s.stc.cal ∧ t.stc.calResult = s.stc.calResult ∧
        t.wlc.order = s.wlc.order ∧ t.ore = s.ore) ∧
      (keepLink = 0 → t.stc.cal = .none ∧ t.wlc.order = none ∧
        t.stc.calResult = (if s.stc.cal = .none then s.stc.calResult else .aborted) ∧
        (s.stc.cal ≠ .none → s.stc.calCell ≠ cell → LastingEnded .steer s.stc.calCell .aborted
          (s.calibrationDetail s.wlc.sau) s t) ∧
        ∀ o : EnrollOrder, s.wlc.order = some o → o.cell ≠ cell → LastingEnded .enroll o.cell
          .aborted (targetDetail o.found o.notFound) s t) ∧
      ∀ a, hostByte a = true → t.xm.byte a = s.xm.byte a

/-- LEAVE_STANDBY in STANDBY (R74). With the link kept and the re-enrol mark clear the DMC enters
READY, or through READY SAFE_STOP when the summary stands there (R69); freshness counting begins,
the phase stays, and detail word 0 is 0. In any other case the mode becomes STARTING and the phase
ENROLL with the re-enrol mark cleared and a roll call begun, once no exchange is in progress (R34,
R42), and detail word 0 is 1. The variant becomes NONE. That detail words 1 to 7 are 0 is the
model's reading (assumption log 9). Demand wake: a DEMAND_SAMPLE in STANDBY leaves it by the same
two ways, without an order, when the configuration enables it and the page just accepted asks for
propel or retard; else STANDBY goes on. -/
def Obligations.StandbyLeft : Prop :=
  ∀ (cell : BitVec 6) (s : State), s.isRunning = true → s.delivered = true → s.wlc.placed →
    s.dmc.mode = .standby →
    (s.linkKept = true ∧ s.cfl.reEnrol = false → ∃ t, exec (.leaveStandby cell) s = .next t ∧
      t.dmc.mode = (if s.pru.summary = .safeStop then .safeStop else .ready) ∧
      t.word 0x0010 = t.dmc.mode.code ∧ t.dmc.fresh = .fresh ∧ t.dmc.freshRef = s.clock ∧
      t.dmc.variant = none ∧ t.dmc.adopted = .neutral ∧ t.dmc.pendingDir = none ∧
      t.dmc.demand = s.dmc.demand ∧ t.cfl = s.cfl ∧ t.pru = s.pru ∧ t.tqa = s.tqa ∧
      (s.pru.summary ≠ .safeStop → t.dmc.substate = .coast) ∧
      Cls.modeChange.isIn t.atc.pending = true ∧ t.cellEnded cell .ok [0] s.clock ∧
      ∀ a, hostByte a = true → t.xm.byte a = s.xm.byte a) ∧
    (¬(s.linkKept = true ∧ s.cfl.reEnrol = false) → ∃ t, exec (.leaveStandby cell) s = .next t ∧
      t.dmc = { s.dmc with
        mode := .starting, substate := .none, target := .none, adopted := .neutral
        pendingDir := none, variant := none, lastChange := s.clock } ∧
      t.word 0x0010 = 0 ∧
      t.cfl = { s.cfl with phase := .enroll, reEnrol := false, settleEnd := none } ∧
      t.wlc.roundsOn = false ∧ t.wlc.order = none ∧
      (s.wlc.window = none → t.wlc.rollCallAsked = false ∧
        t.wlc.rollCall = some { todo := allUnits.filter s.cfg.unit, tries := 0 }) ∧
      (s.wlc.window ≠ none → t.wlc.rollCallAsked = true ∧ t.wlc.rollCall = none) ∧ t.tqa = s.tqa ∧
      Cls.modeChange.isIn t.atc.pending = true ∧ t.cellEnded cell .ok [1] s.clock ∧
      ∀ a, hostByte a = true → t.xm.byte a = s.xm.byte a) ∧
    ∀ wakes : Prop, (wakes ↔ s.cfg.demandWake = 1 ∧ s.pageAccepted = true ∧
        (s.livePage.propel ≠ 0 ∨ s.livePage.retard ≠ 0)) →
      ∃ t, exec .demandSample s = .next t ∧
        (¬wakes → t.dmc.mode = .standby ∧ t.dmc.variant = s.dmc.variant ∧ t.cfl = s.cfl ∧
          t.dmc.fresh = s.dmc.fresh ∧ t.dmc.freshRef = s.dmc.freshRef ∧ t.pru = s.pru) ∧
        (wakes → s.linkKept = true ∧ s.cfl.reEnrol = false →
          (t.dmc.mode = .ready ∨ t.dmc.mode = .drive ∨ t.dmc.mode = .safeStop) ∧
          (s.pru.summary = .safeStop → t.dmc.mode = .safeStop) ∧ t.dmc.variant = none ∧
          t.dmc.fresh = .fresh ∧ t.dmc.freshRef = s.clock ∧ t.cfl = s.cfl ∧ t.pru = s.pru ∧
          Cls.modeChange.isIn t.atc.pending = true) ∧
        (wakes → ¬(s.linkKept = true ∧ s.cfl.reEnrol = false) →
          t.dmc.mode = .starting ∧ t.dmc.variant = none ∧ t.word 0x0010 = 0 ∧
          t.cfl = { s.cfl with phase := .enroll, reEnrol := false, settleEnd := none } ∧
          t.wlc.roundsOn = false ∧ Cls.modeChange.isIn t.atc.pending = true)

/-- APPLY_CONFIG in STANDBY with no lasting order in flight (R35). A block that fails ends the order
BAD_ARGUMENT with the field's offset and the code; the header shows both, CONFIG_RESULT is raised,
and nothing else changes. A block that passes becomes the active configuration, with the guarded
words copied and the guard state 1; the PRU rewrites the action of every entry and takes a changed
EXTERNAL_STOP mode (R178, R182; the stamp of an entry whose action stays is assumption log 18); the
armed flag stays; the order ends OK with detail word 2 the re-enrol mark that the order itself sets.
Where no action of a fault entry changes, the mode and the phase stay, and the mark is kept or set
(R36). That the detail words beyond those named are 0 is the model's reading (assumption log 9). -/
def Obligations.ConfigurationApplied : Prop :=
  ∀ (cell : BitVec 6) (s : State) (p : Params) (mark : Bool), s.isRunning = true →
    s.wlc.placed → s.dmc.mode = .standby → s.ore.idle = true → p = Params.ofBlock s.xm →
    (mark = true ↔ p.arrangement ≠ s.cfg.arrangement ∨ p.steerSource ≠ s.cfg.steerSource ∨
      p.bankCount ≠ s.cfg.bankCount) →
    ((validate s.xm).1 ≠ .accepted → ∃ t, exec (.applyConfig cell) s = .next t ∧
      t.word 0x0018 = (validate s.xm).1.code ∧ t.word 0x001A = natWord (validate s.xm).2 ∧
      t.cellEnded cell .badArgument [natWord (validate s.xm).2, (validate s.xm).1.code] s.clock ∧
      Raised [.configResult, .orderDone] s t ∧
      SameOutside (pendingRegion :: (0x0018, 4) :: endRegions cell) s t ∧
      { t with atc := s.atc, xm := s.xm } = s) ∧
    ((validate s.xm).1 = .accepted → ∃ t, exec (.applyConfig cell) s = .next t ∧
      t.cfl.active = p ∧ t.cfl.guardOn = true ∧ t.cfl.profileCopy = p.profile ∧
      t.cfl.arrangementCopy = p.arrangement ∧ t.cfl.steerCopy = p.steerSource ∧
      t.cfl.armed = s.cfl.armed ∧ t.word 0x0018 = 1 ∧ t.word 0x001A = 0 ∧
      t.cellEnded cell .ok [0, 1, boolWord mark] s.clock ∧
      Cls.configResult.isIn t.atc.pending = true ∧ Cls.orderDone.isIn t.atc.pending = true ∧
      t.atc.priorities = p.priorities ∧
      t.tqa = { s.tqa with
        maxForward := p.maxForward, maxReverse := p.maxReverse, propelCap := p.propelCap } ∧
      t.rgc.table = p.envelope ∧ (∀ a, hostByte a = true → t.xm.byte a = s.xm.byte a) ∧
      ActionsTaken p s t ∧
      (s.delivered = true → (∀ e ∈ s.pru.entries, p.action e.kind = e.action) →
        t.dmc = s.dmc ∧ t.cfl.phase = s.cfl.phase ∧ t.cfl.reEnrol = (s.cfl.reEnrol || mark) ∧
        t.pru.entries = s.pru.entries ∧ t.wlc = s.wlc))

/-- GRID_TEST where it is admitted and GRID is free (R139, R140): the first owner check that fails
ends the order BAD_ARGUMENT with the detail of R139; when all pass, the order holds GRID, the record
holds the banks waiting, and the lowest-numbered one is the current bank, in TEST at the test duty,
with V_f recorded and a delivered count of 0. That its shown result is then NONE is the model's
choice (assumption log 40), and that the detail words beyond those of R139 are 0 its reading
(assumption log 9). -/
def Obligations.GridTestStarts : Prop :=
  ∀ (cell : BitVec 6) (banks duty count : Word) (s : State), s.isRunning = true →
    (s.dmc.mode = .ready ∧ s.standstill = true ∨ s.dmc.mode = .standby) → s.ore.grid = none →
    (∀ detail : List Word,
      (banks = 0 ∨ 2 ^ s.cfg.bankCount ≤ banks.toNat) ∧ detail = [0x0008, 0] ∨
      ¬(banks = 0 ∨ 2 ^ s.cfg.bankCount ≤ banks.toNat) ∧
        ((∃ b, banks.getLsbD (bankNum b - 1) = true ∧ s.pru.bankEx.get b = true) ∧
          detail = [0x0008, 0] ∨
        (∀ b, banks.getLsbD (bankNum b - 1) = true → s.pru.bankEx.get b = false) ∧
          ((count = 0 ∨ 1000 < count.toNat) ∧ detail = [0x000C, 0] ∨
            count ≠ 0 ∧ count.toNat ≤ 1000 ∧ s.rgc.vF < 600 ∧
              detail = [0xFFFF, natWord s.rgc.vF])) →
      ∃ t, exec (.gridTest cell banks duty count) s = .next t ∧
        OrderEnded cell .badArgument detail [] s t ∧ { t with atc := s.atc, xm := s.xm } = s) ∧
    ∀ b : Bank, banks ≠ 0 → banks.toNat < 2 ^ s.cfg.bankCount → s.cfg.bankCount ≤ 6 →
      (∀ c, banks.getLsbD (bankNum c - 1) = true → s.pru.bankEx.get c = false) →
      count ≠ 0 → count.toNat ≤ 1000 → 600 ≤ s.rgc.vF → s.cfl.guardOn = true →
      banks.getLsbD (bankNum b - 1) = true →
      (∀ c, banks.getLsbD (bankNum c - 1) = true → bankNum b ≤ bankNum c) →
      (s.rgc.chans.get b).state ≠ .test →
      ∃ t, exec (.gridTest cell banks duty count) s = .next t ∧
        t.ore = { s.ore with grid := some cell } ∧
        t.rgc.test = some
          { cell := cell, duty := max 50 (min 1000 duty.toNat) * 65536 / 1000
            count := count.toNat, current := some b, finishing := false
            waiting := allBanks.filter fun c => banks.getLsbD (bankNum c - 1) && c != b
            passed := [], skipped := [], aborted := [], lowest := s.rgc.vF } ∧
        t.rgc.chans.get b = { s.rgc.chans.get b with
          state := .test, carry := 0, shadow := max 50 (min 1000 duty.toNat) * 65536 / 1000 } ∧
        t.rgc.shows.get b = { s.rgc.shows.get b with
          result := .none, delivered := 0, before := s.rgc.vF, lowest := s.rgc.vF } ∧
        (∀ c, c ≠ b → t.rgc.chans.get c = s.rgc.chans.get c ∧
          t.rgc.shows.get c = s.rgc.shows.get c) ∧
        SameOutside (blockRegion (s.wlc.bankBlock.get b) 0 64) s t ∧
        { t with
          xm := s.xm, ore := s.ore
          rgc := { t.rgc with
            test := s.rgc.test, chans := s.rgc.chans, shows := s.rgc.shows } } = s

/-- STEER_CALIBRATE at standstill in READY, or in STANDBY with the link kept, with STEER free
(R156): with the SAU configured and present the order holds STEER, the calibration state is STARTING
from the drive clock, and the last result NONE; otherwise it ends UNIT_ABSENT with detail 0, and the
sections of the STC are not written, which is the model's choice (assumption log 51). -/
def Obligations.CalibrationStarts : Prop :=
  ∀ (cell : BitVec 6) (s : State), s.isRunning = true → s.standstill = true →
    (s.dmc.mode = .ready ∨ s.dmc.mode = .standby ∧ s.linkKept = true) → s.ore.steer = none →
    (s.cfg.steerSau = true ∧ (s.wlc.sau.state = .enrolled ∨ s.wlc.sau.state = .missing) →
      ∃ t, exec (.steerCalibrate cell) s = .next t ∧ t.ore = { s.ore with steer := some cell } ∧
        t.stc = { s.stc with
          cal := .starting, calStart := s.clock, calCell := cell, calResult := .none } ∧
        SameOutside ((0x20A0, 32) :: blockRegion s.wlc.sau.block 0x40 192) s t ∧
        { t with xm := s.xm, ore := s.ore, stc := s.stc } = s) ∧
    (¬(s.cfg.steerSau = true ∧ (s.wlc.sau.state = .enrolled ∨ s.wlc.sau.state = .missing)) →
      ∃ t, exec (.steerCalibrate cell) s = .next t ∧ OrderEnded cell .unitAbsent [] [] s t ∧
        { t with atc := s.atc, xm := s.xm } = s)

/-- ROLL_CALL in READY, or in STANDBY with the link kept, with ENROLL free (R52, R54): the targets
are the configured records that are ABSENT, in rank order. With none the order ends OK at once with
detail 0 (the words beyond the five of R54 by assumption log 9), and an exchange of an earlier order
in progress belongs to none; otherwise it holds ENROLL and the first of them is the current target
with a try count of 0. -/
def Obligations.RollCallOrdered : Prop :=
  ∀ (cell : BitVec 6) (s : State) (absent : List UnitId), s.isRunning = true →
    (s.dmc.mode = .ready ∨ s.dmc.mode = .standby ∧ s.linkKept = true) → s.ore.enroll = none →
    s.wlc.order = none →
    (absent = [.wheel .w1, .wheel .w2, .wheel .w3, .wheel .w4, .sau].filter fun u =>
      (s.wlc.unit u).configured && (s.wlc.unit u).state == .absent) →
    (absent = [] → ∃ t, exec (.rollCall cell) s = .next t ∧ OrderEnded cell .ok [] [] s t ∧
      t.wlc.window = s.wlc.window.map Exchange.orphan ∧
      { t with atc := s.atc, xm := s.xm, wlc := { t.wlc with window := s.wlc.window } } = s) ∧
    (absent ≠ [] → exec (.rollCall cell) s = .next { s with
      ore := { s.ore with enroll := some cell }
      wlc := { s.wlc with
        order := some { cell := cell, todo := absent, tries := 0, found := [], notFound := [] } } })

/-- ABORT (R15): an index of 64 or more, or one against which the in-flight table names no resource,
ends it BAD_ARGUMENT with detail 0x08. Otherwise the named cell shows ABORTED with the owner's
detail, the resource is free, and the ABORT's own cell shows OK: for a grid test the four sets and
the lowest V_f, with the current bank aborted (R141); for a calibration the SAU's held report and
the elapsed time (R158); for a roll call what became of each target (R54), an exchange in progress
then belonging to no order. That detail words which R15, R54, R141 and R158 do not name are 0, those
of the ABORT's own cell among them, is the model's reading (assumption log 9); that of the orders
which name one cell the one that holds GRID is ended before STEER, and STEER before ENROLL, is the
model's choice (assumption log 43). An ABORT whose own cell is the one it names, which the table can
hold only when the host posted that cell again while it was TAKEN, is left out. -/
def Obligations.OrderAborted : Prop :=
  ∀ (cell target : BitVec 6) (index : Word) (s : State), s.isRunning = true →
    s.delivered = true →
    (64 ≤ index.toNat ∨ (∀ r, s.ore.inFlight r ≠ some (index.setWidth 6)) →
      ∃ t, exec (.abort cell index) s = .next t ∧ OrderEnded cell .badArgument [8] [] s t ∧
        { t with atc := s.atc, xm := s.xm } = s) ∧
    (index.toNat = target.toNat → target ≠ cell →
      (∀ g : GridTest, s.ore.grid = some target → s.rgc.test = some g → s.wlc.placed →
        ∃ t, exec (.abort cell index) s = .next t ∧
          t.cellEnded target .aborted
            [bankSet g.passed, bankSet g.skipped, bankSet (g.aborted ++ g.current.toList),
              bankSet g.waiting, natWord g.lowest] s.clock ∧
          t.cellEnded cell .ok [] s.clock ∧ Raised [.orderDone] s t ∧
          t.ore = { s.ore with grid := none } ∧ t.rgc.test = none ∧
          (∀ b, g.current = some b → (t.rgc.shows.get b).result = .aborted ∧
            (t.rgc.chans.get b).state ≠ .test ∧ (t.rgc.chans.get b).gate = false) ∧
          (∀ a, hostByte a = true → t.xm.byte a = s.xm.byte a) ∧
          { t with atc := s.atc, xm := s.xm, ore := s.ore, rgc := s.rgc, draws := s.draws } = s) ∧
      (s.ore.grid ≠ some target → s.ore.steer = some target → s.wlc.placed →
        ∃ t, exec (.abort cell index) s = .next t ∧
          t.cellEnded target .aborted
            (if s.wlc.sau.held = .none then [0, 0, 0, natWord (s.clock - s.stc.calStart).toNat]
            else [0, s.wlc.sau.report.flags.setWidth 16, s.wlc.sau.report.field1,
              natWord (s.clock - s.stc.calStart).toNat]) s.clock ∧
          t.cellEnded cell .ok [] s.clock ∧ Raised [.orderDone] s t ∧
          t.ore = { s.ore with steer := none } ∧
          t.stc = { s.stc with cal := .none, calResult := .aborted } ∧
          (∀ a, hostByte a = true → t.xm.byte a = s.xm.byte a) ∧
          { t with atc := s.atc, xm := s.xm, ore := s.ore, stc := s.stc } = s) ∧
      ∀ o : EnrollOrder, s.ore.grid ≠ some target → s.ore.steer ≠ some target →
        s.ore.enroll = some target → s.wlc.order = some o → s.wlc.roundDue = false →
        ∃ t, exec (.abort cell index) s = .next t ∧
          t.cellEnded target .aborted (allUnits.map fun u =>
            if o.found.contains u then 1 else if o.notFound.contains u then 2 else 0) s.clock ∧
          t.cellEnded cell .ok [] s.clock ∧ Raised [.orderDone] s t ∧
          t.ore = { s.ore with enroll := none } ∧ t.wlc.order = none ∧
          t.wlc.window = s.wlc.window.map Exchange.orphan ∧
          { t with
            atc := s.atc, xm := s.xm, ore := s.ore
            wlc := { t.wlc with
              order := s.wlc.order, roundOpen := s.wlc.roundOpen, window := s.wlc.window } } = s)

/-- A chain scan (R11, R12). In HALTED it does nothing. At a cursor cell that is not POSTED it sets
WAITING. Behind the last cell it follows the link: END waits, a bad link sets HALTED and raises
CHAIN_HALT with cursor and flag kept, and a cell is gone to and waited at, or taken when it is
POSTED. A POSTED cell is taken: TAKEN, stamped, the chain RUNNING. With one of the ten kinds it is
decided as its row with the cell's argument words; with any other kind it ends BAD_KIND (R13), whose
detail words are 0 by the model's reading (assumption log 9). Then the link is followed: END waits
behind the cell, a bad one halts the chain at it, and one of 0 to 63 moves the cursor there, where
the scan goes on until it has made four takes. The fourth ends it with the chain RUNNING, also
behind a cell whose link is END; a bad link of the fourth cell halts the chain at it. -/
def Obligations.ChainScanned : Prop :=
  ∀ s : State, s.isRunning = true →
    (s.ore.chain = .halted → exec .chainScan s = .next s) ∧
    (s.ore.chain ≠ .halted → s.ore.behind = false → s.cellPosted s.ore.cursor = false →
      ∃ t, exec .chainScan s = .next t ∧ t.ore = { s.ore with chain := .waiting } ∧
        SameOutside [(0x001C, 6)] s t ∧ { t with ore := s.ore, xm := s.xm } = s) ∧
    (s.ore.chain ≠ .halted → s.ore.behind = true →
      (s.link s.ore.cursor = .finish → ∃ t, exec .chainScan s = .next t ∧
        t.ore = { s.ore with chain := .waiting } ∧ SameOutside [(0x001C, 6)] s t ∧
        { t with ore := s.ore, xm := s.xm } = s) ∧
      (s.link s.ore.cursor = .bad → ∃ t, exec .chainScan s = .next t ∧
        t.ore = { s.ore with chain := .halted } ∧
        (∀ c : Cls, c.isIn t.atc.pending = (c.isIn s.atc.pending || c == .chainHalt)) ∧
        SameOutside [(0x001C, 6), pendingRegion] s t ∧
        { t with ore := s.ore, xm := s.xm, atc := s.atc } = s) ∧
      (∀ c, s.link s.ore.cursor = .cell c → s.cellPosted c = false →
        ∃ t, exec .chainScan s = .next t ∧
          t.ore = { s.ore with cursor := c, behind := false, chain := .waiting } ∧
          SameOutside [(0x001C, 6)] s t ∧ { t with ore := s.ore, xm := s.xm } = s) ∧
      ∀ (c : BitVec 6) (next : State), s.link s.ore.cursor = .cell c → s.cellPosted c = true →
        next = setChain { s.ore with cursor := c, behind := false } s →
        exec .chainScan s = exec .chainScan next) ∧
    (s.cellPosted s.ore.cursor = true → s.taking.word (cellBase s.ore.cursor) = 2 ∧
      s.taking.word (cellBase s.ore.cursor + 0x32) = s.clock.setWidth 16 ∧
      s.taking.word (cellBase s.ore.cursor + 0x34) = s.clock.extractLsb' 16 16 ∧
      s.taking.ore = { s.ore with chain := .running } ∧
      SameOutside [(0x001C, 6), (cellBase s.ore.cursor, 2), (cellBase s.ore.cursor + 0x32, 4)]
        s s.taking ∧
      { s.taking with ore := s.ore, xm := s.xm } = s) ∧
    (∀ (c : Instr) (u : State), s.ore.chain ≠ .halted → s.ore.behind = false →
      s.cellPosted s.ore.cursor = true → s.orderRow s.ore.cursor = some c →
      exec c s.taking = .next u →
      (u.link s.ore.cursor = .finish → ∃ t, exec .chainScan s = .next t ∧
        t.ore = { u.ore with behind := true, chain := .waiting } ∧ SameOutside [(0x001C, 6)] u t ∧
        { t with ore := u.ore, xm := u.xm } = u) ∧
      (u.link s.ore.cursor = .bad → ∃ t, exec .chainScan s = .next t ∧
        t.ore = { u.ore with chain := .halted } ∧
        (∀ d : Cls, d.isIn t.atc.pending = (d.isIn u.atc.pending || d == .chainHalt)) ∧
        SameOutside [(0x001C, 6), pendingRegion] u t ∧
        { t with ore := u.ore, xm := u.xm, atc := u.atc } = u)) ∧
    (∀ s1, s.takeOn = some s1 →
      (s1.takeOn = none → exec .chainScan s = exec .chainScan s1) ∧
      ∀ s2, s1.takeOn = some s2 →
        (s2.takeOn = none → exec .chainScan s = exec .chainScan s1) ∧
        ∀ s3, s2.takeOn = some s3 →
          (s3.cellPosted s3.ore.cursor = false → exec .chainScan s = exec .chainScan s1) ∧
          (∀ s4, s3.takeOn = some s4 → exec .chainScan s = .next s4 ∧ s4.ore.chain = .running) ∧
          (∀ u, s3.cellPosted s3.ore.cursor = true → s3.decided = some u →
            u.link s3.ore.cursor = .finish → ∃ t, exec .chainScan s = .next t ∧
            t.ore = { u.ore with behind := true } ∧ t.ore.chain = .running ∧
            SameOutside [(0x001C, 6)] u t ∧ { t with ore := u.ore, xm := u.xm } = u) ∧
          ∀ u, s3.cellPosted s3.ore.cursor = true → s3.decided = some u →
            u.link s3.ore.cursor = .bad → ∃ t, exec .chainScan s = .next t ∧
            t.ore = { u.ore with chain := .halted } ∧
            (∀ d : Cls, d.isIn t.atc.pending = (d.isIn u.atc.pending || d == .chainHalt)) ∧
            SameOutside [(0x001C, 6), pendingRegion] u t ∧
            { t with ore := u.ore, xm := u.xm, atc := u.atc } = u) ∧
    ∀ kind : Word, s.ore.chain ≠ .halted → s.ore.behind = false →
      s.cellPosted s.ore.cursor = true → kind = s.word (cellBase s.ore.cursor + 2) →
      kind.toNat = 0 ∨ 10 < kind.toNat → ∀ w, w = s.word (cellBase s.ore.cursor + 4) →
      w.toNat = 255 ∨ 64 ≤ w.toNat →
      ∃ t, exec .chainScan s = .next t ∧ t.cellEnded s.ore.cursor .badKind [] s.clock ∧
        t.word (cellBase s.ore.cursor + 0x32) = s.clock.setWidth 16 ∧
        t.word (cellBase s.ore.cursor + 0x34) = s.clock.extractLsb' 16 16 ∧
        (∀ c : Cls, c.isIn t.atc.pending =
          (c.isIn s.atc.pending || c == .orderDone ||
            (c == .chainHalt && decide (w.toNat ≠ 255)))) ∧
        t.ore = (if w.toNat = 255 then { s.ore with behind := true, chain := .waiting }
          else { s.ore with chain := .halted }) ∧
        SameOutside ([(0x001C, 6), pendingRegion, (cellBase s.ore.cursor + 0x32, 4)] ++
          endRegions s.ore.cursor) s t ∧
        { t with ore := s.ore, xm := s.xm, atc := s.atc } = s

/-! ## The drive -/

/-- DEMAND_SAMPLE, the page (R6 to R8): the selector 1 names page B and every other value page A. A
page whose sequence is not 0, equals its echo and differs from the last accepted one replaces the
whole demand record, each field read and clamped as the page table gives, and receives the drive
clock as taken stamp and the anomaly mark; any other page is ignored, and receives neither. The
allocation period of the configuration is taken up (R26). In READY, DRIVE, SAFE_STOP and TRIPPED
freshness follows: an accepted page sets the reference, the age gives the state, a change of it
reports DEMAND_STALE and DEMAND_LOST and raises the class, and while it is STALE or LOST propel is
masked (R60 to R62, R66). The first page accepted while no payload is latched latches the payload
(R168). An acceptance judges the quality of the reference speed, a change of which raises
UNIT_CHANGE, and in quality HINT V_ref is the hint (R108, R110). Which wheels give a DEGRADED V_ref,
and that it may exceed 1000, are assumption logs 44 and 20. -/
def Obligations.PageTaken : Prop :=
  ∀ (s : State) (base : Nat), s.isRunning = true → s.wlc.placed →
    (base = if s.word 0x0008 = 1 then 0x0180 else 0x0100) →
    ∃ t, exec .demandSample s = .next t ∧ t.dmc.period = s.cfg.allocPeriod ∧ t.cfg = s.cfg ∧
      t.tqa = s.tqa ∧ t.clock = s.clock ∧ t.pru.filter = s.pru.filter ∧
      (s.word base ≠ 0 ∧ s.word base = s.word (base + 0x1E) ∧
          s.dmc.lastSeq ≠ some (s.word base) →
        t.dmc.lastSeq = some (s.word base) ∧
        t.dmc.demand =
          { propel := min (s.word (base + 0x02)).toNat 1000
            retard := min (s.word (base + 0x04)).toNat 1000
            direction := if s.word (base + 0x06) = 1 then .forward
              else if s.word (base + 0x06) = 2 then .reverse else .neutral
            holdSpeed := min (s.word (base + 0x08)).toNat 600
            steerAngle := max (-(s.cfg.lock : Int)) (min s.cfg.lock (s.word (base + 0x0A)).toInt)
            enginePower := min (s.word (base + 0x0C)).toNat 5000
            payload := min (s.word (base + 0x0E)).toNat 6000
            payloadKnown := true
            grade := max (-300) (min 300 (s.word (base + 0x10)).toInt)
            gradeKnown := true
            hint := if s.word (base + 0x12) = 0xFFFF then none
              else some (min (s.word (base + 0x12)).toNat 1000)
            ambient := if s.word (base + 0x14) = 0x7FFF then none
              else some (max (-50) (min 70 (s.word (base + 0x14)).toInt))
            serviceBrake := (s.word (base + 0x16)).getLsbD 0
            parkBrake := (s.word (base + 0x16)).getLsbD 1
            acceptance := s.clock } ∧
        t.word (base + 0x18) = s.clock.setWidth 16 ∧
        t.word (base + 0x1A) = s.clock.extractLsb' 16 16 ∧
        (t.word (base + 0x1C)).getLsbD 0 = decide (1000 < (s.word (base + 0x02)).toNat) ∧
        (t.word (base + 0x1C)).getLsbD 1 = decide (1000 < (s.word (base + 0x04)).toNat) ∧
        (t.word (base + 0x1C)).getLsbD 2 = decide (2 < (s.word (base + 0x06)).toNat) ∧
        (t.word (base + 0x1C)).getLsbD 3 = decide (600 < (s.word (base + 0x08)).toNat) ∧
        (t.word (base + 0x1C)).getLsbD 4 = decide (t.dmc.demand.steerAngle ≠
          (s.word (base + 0x0A)).toInt) ∧
        (t.word (base + 0x1C)).getLsbD 5 = decide (5000 < (s.word (base + 0x0C)).toNat) ∧
        (t.word (base + 0x1C)).getLsbD 6 = decide (6000 < (s.word (base + 0x0E)).toNat) ∧
        (t.word (base + 0x1C)).getLsbD 7 = decide (t.dmc.demand.grade ≠
          (s.word (base + 0x10)).toInt) ∧
        (t.word (base + 0x1C)).getLsbD 8 = decide (1000 < (s.word (base + 0x12)).toNat ∧
          (s.word (base + 0x12)).toNat < 0xFFFF) ∧
        (t.word (base + 0x1C)).getLsbD 9 = decide (s.word (base + 0x14) ≠ 0x7FFF ∧
          t.dmc.demand.ambient ≠ some (s.word (base + 0x14)).toInt) ∧
        ∀ a, 0x0100 ≤ a → a < 0x0200 → (a < base + 0x18 ∨ base + 0x1E ≤ a) →
          t.xm.byte a = s.xm.byte a) ∧
      (¬(s.word base ≠ 0 ∧ s.word base = s.word (base + 0x1E) ∧
          s.dmc.lastSeq ≠ some (s.word base)) →
        t.dmc.demand = s.dmc.demand ∧ t.dmc.lastSeq = s.dmc.lastSeq ∧
        ∀ a, 0x0100 ≤ a → a < 0x0200 → t.xm.byte a = s.xm.byte a) ∧
      (s.word base ≠ 0 ∧ s.word base = s.word (base + 0x1E) ∧
          s.dmc.lastSeq ≠ some (s.word base) →
        t.tcu.quality = t.qualityNow ∧
        (t.tcu.quality = .hint → t.tcu.vRef = t.dmc.demand.hint) ∧
        (t.tcu.quality ≠ s.tcu.quality →
          ReferenceTaken t ∧ Cls.unitChange.isIn t.atc.pending = true)) ∧
      t.lmu.payload = (if s.pageAccepted = true ∧ s.lmu.payload = none
        then some t.dmc.demand.payload else s.lmu.payload) ∧
      (s.dmc.mode = .starting →
        t.dmc.fresh = s.dmc.fresh ∧ t.dmc.freshRef = s.dmc.freshRef ∧ t.dmc.mode = .starting) ∧
      (s.dmc.mode ≠ .starting → s.dmc.mode ≠ .standby →
        t.dmc.freshRef = if s.pageAccepted then s.clock else s.dmc.freshRef) ∧
      ∀ (age : Nat) (fresh : Freshness) (stale lost : Bool),
        s.dmc.mode ≠ .starting → s.dmc.mode ≠ .standby → s.pru.ok →
        age = (s.clock - t.dmc.freshRef).toNat →
        fresh = (if age ≤ s.cfg.freshLimit then .fresh
          else if s.cfg.holdLimit < age ∨ s.dmc.fresh = .lost then .lost else .stale) →
        (stale = true ↔ fresh = .stale ∨ fresh = .lost) → (lost = true ↔ fresh = .lost) →
        t.dmc.fresh = fresh ∧
        (stale ≠ s.dmc.fresh.isStale → t.pru.observed .demandStale .global stale) ∧
        (lost ≠ s.dmc.fresh.isLost → t.pru.observed .demandLost .global lost) ∧
        (s.dmc.fresh = .fresh ∧ stale = true ∨ s.dmc.fresh = .stale ∧ lost = true →
          Cls.demandStale.isIn t.atc.pending = true) ∧
        (t.dmc.mode = .ready ∨ t.dmc.mode = .drive ∨ t.dmc.mode = .safeStop →
          t.dmc.masks.stale = stale ∧ (stale = true → t.dmc.effPropel = 0))

/-- DEMAND_SAMPLE in READY, with a fresh demand and no page to accept (R64). A record that names a
direction, at standstill with the park brake flag clear, takes the DMC into DRIVE with that
direction adopted and none pending, and the mode mirror shows it; without standstill, or with the
flag set, READY holds with that direction pending; a record that names NEUTRAL leaves none pending.
The same in DRIVE, for a record that does not name the adopted direction (R65): NEUTRAL at
standstill returns to READY, and the other driving direction at standstill with the flag clear is
adopted, a PROPEL over references that are not 0 going through CHANGEOVER; else the direction is
pending and propel masked. The drive record shows it (R76). -/
def Obligations.DriveEntered : Prop :=
  (∀ s : State, s.isRunning = true → s.delivered = true → s.wlc.placed → s.dmc.mode = .drive →
    s.pru.summary ≠ .safeStop → s.pageAccepted = false → s.dmc.fresh = .fresh →
    (s.clock - s.dmc.freshRef).toNat ≤ s.cfg.freshLimit →
    s.dmc.demand.direction ≠ s.dmc.adopted →
    ∃ t, exec .demandSample s = .next t ∧ t.dmc.demand = s.dmc.demand ∧ t.wlc = s.wlc ∧
      t.tqa = s.tqa ∧ t.cfl = s.cfl ∧ t.pru = s.pru ∧ t.showsAt 0x2000 t.dmcWords ∧
      (s.dmc.demand.direction = .neutral → s.standstill = true →
        t.dmc.mode = .ready ∧ t.dmc.adopted = .neutral ∧ t.dmc.pendingDir = none ∧
        t.word 0x0010 = 2 ∧ Cls.modeChange.isIn t.atc.pending = true ∧
        t.dmc.lastChange = s.clock ∧ t.dmc.masks.mode = true ∧ t.dmc.effPropel = 0) ∧
      (s.standstill = false ∨
          s.dmc.demand.direction ≠ .neutral ∧ s.dmc.demand.parkBrake = true →
        t.dmc.mode = .drive ∧ t.dmc.adopted = s.dmc.adopted ∧
        t.dmc.pendingDir = some s.dmc.demand.direction ∧ t.dmc.masks.pending = true ∧
        t.dmc.effPropel = 0) ∧
      (s.dmc.demand.direction ≠ .neutral → s.standstill = true →
        s.dmc.demand.parkBrake = false →
        t.dmc.mode = .drive ∧ t.dmc.adopted = s.dmc.demand.direction ∧ t.dmc.pendingDir = none ∧
        (s.dmc.substate = .propel → t.dmc.effRetard = 0 → 0 < t.dmc.effPropel →
          (∃ w, s.cfg.wheel w = true ∧ (s.tqa.wheels.get w).reference ≠ 0) →
          t.dmc.substate = .changeover ∧ t.dmc.target = .propel))) ∧
  ∀ s : State, s.isRunning = true → s.delivered = true → s.wlc.placed → s.dmc.mode = .ready →
    s.pageAccepted = false → s.dmc.fresh = .fresh →
    (s.clock - s.dmc.freshRef).toNat ≤ s.cfg.freshLimit →
    ∃ t, exec .demandSample s = .next t ∧ t.dmc.demand = s.dmc.demand ∧ t.wlc = s.wlc ∧
      t.tqa = s.tqa ∧ t.cfl = s.cfl ∧ t.pru = s.pru ∧ t.showsAt 0x2000 t.dmcWords ∧
      (s.dmc.demand.direction ≠ .neutral → s.standstill = true →
        s.dmc.demand.parkBrake = false →
        t.dmc.mode = .drive ∧ t.dmc.adopted = s.dmc.demand.direction ∧
        t.dmc.pendingDir = none ∧ t.word 0x0010 = 3 ∧
        Cls.modeChange.isIn t.atc.pending = true ∧ t.dmc.lastChange = s.clock) ∧
      (s.dmc.demand.direction ≠ .neutral →
        s.standstill = false ∨ s.dmc.demand.parkBrake = true →
        t.dmc.mode = .ready ∧ t.dmc.pendingDir = some s.dmc.demand.direction ∧
        t.dmc.adopted = s.dmc.adopted ∧ t.dmc.effPropel = 0) ∧
      (s.dmc.demand.direction = .neutral →
        t.dmc.mode = .ready ∧ t.dmc.pendingDir = none ∧ t.dmc.adopted = s.dmc.adopted ∧
        t.dmc.effPropel = 0)

/-- DEMAND_SAMPLE in DRIVE with a fresh demand of the adopted direction, and in SAFE_STOP short of
the end of its stop time, with no page to accept: the effective demands of R66, d_safe among them in
SAFE_STOP, and the substate and target of R67 and R68, from the references of the configured wheels.
A RETARD reference agrees by the speed of its wheel's last accepted report, which is the model's
reading (assumption log 22). A change of substate or target is made known to the TCU, which acts on
every wheel as R117 gives, by tcuSubstateChange of SlipJudged, to the RGC, and to the STC, which
evaluates the bias by the six conditions of R152 and shows its section (a change of the target alone
counts there by assumption log 54, and the TCU acts before the STC by assumption log 61); the drive
record shows the demands (R76). Which wheels give a DEGRADED V_ref, and that it may exceed 1000, are
assumption logs 44 and 20. -/
def Obligations.DemandsFormed : Prop :=
  ∀ s : State, s.isRunning = true → s.delivered = true →
    (s.dmc.mode = .drive ∧ s.dmc.demand.direction = s.dmc.adopted ∨ s.dmc.mode = .safeStop ∧
      (s.standstill = false ∨ s.dmc.stopTime + s.cfg.allocPeriod < 1000)) →
    s.pageAccepted = false → s.dmc.fresh = .fresh →
    (s.clock - s.dmc.freshRef).toNat ≤ s.cfg.freshLimit →
    ∃ t, exec .demandSample s = .next t ∧ t.dmc.mode = s.dmc.mode ∧
      t.dmc.pendingDir = (if s.dmc.mode = .drive then none else s.dmc.pendingDir) ∧
      t.dmc.adopted = s.dmc.adopted ∧ t.dmc.demand = s.dmc.demand ∧
      t.dmc.masks = { mode := s.dmc.mode == .safeStop, pending := false, stale := false
                      forced := s.rgc.forced, brake := s.dmc.demand.serviceBrake } ∧
      t.dmc.effRetard = (if s.dmc.mode = .drive then max s.dmc.demand.retard s.rgc.dHold
        else max (max s.dmc.demand.retard s.rgc.dHold) s.cfg.dSafe) ∧
      t.dmc.effPropel =
        (if s.dmc.mode = .safeStop ∨ s.rgc.forced = true ∨ s.dmc.demand.serviceBrake = true then 0
        else s.dmc.demand.propel) ∧
      (s.wlc.placed → t.showsAt 0x2000 t.dmcWords) ∧
      (t.dmc.substate ≠ s.dmc.substate ∨ t.dmc.target ≠ s.dmc.target → ∀ w,
        (t.tcu.wheels.get w).count = 0 ∧
        ((s.tcu.wheels.get w).slip = .slip ∨ (s.tcu.wheels.get w).slip = .slide →
          (t.tcu.wheels.get w).slip = .recover) ∧
        (t.tcu.wheels.get w).factor = (s.tcu.wheels.get w).factor) ∧
      (t.dmc.substate ≠ s.dmc.substate ∨ t.dmc.target ≠ s.dmc.target →
        t.tcu = (tcuSubstateChange { s with dmc := t.dmc }).tcu ∧
        BiasFormed t t.stc.beta ∧ { t.stc with beta := s.stc.beta } = s.stc ∧
        (s.wlc.placed → t.showsAt 0x20A0 t.stcWords ∧
          t.showsIn s.wlc.sau.block 0x40 t.stcWords) ∧
        ReferenceTaken t ∧ t.rgc.blower.shadow = t.lmu.commanded) ∧
      (t.dmc.effRetard = 0 → t.dmc.effPropel = 0 →
        t.dmc.substate = .coast ∧ t.dmc.target = .none) ∧
      (∀ zero agree : Prop,
        (zero ↔ ∀ w, s.cfg.wheel w = true → (s.tqa.wheels.get w).reference = 0) →
        (agree ↔ ∀ w, s.cfg.wheel w = true → (s.tqa.wheels.get w).reference = 0 ∨
          (s.tqa.wheels.get w).reference * (s.wlc.wheels.get w).report.field1.toInt < 0) →
        0 < t.dmc.effRetard →
        (s.dmc.substate = .retard ∨ s.dmc.substate = .coast ∧ agree →
          t.dmc.substate = .retard ∧ t.dmc.target = .none) ∧
        (s.dmc.substate = .propel ∨ s.dmc.substate = .changeover ∨
            s.dmc.substate = .coast ∧ ¬agree →
          (zero → t.dmc.substate = .retard ∧ t.dmc.target = .none) ∧
          (¬zero → t.dmc.substate = .changeover ∧ t.dmc.target = .retard))) ∧
      (∀ zero agree : Prop,
        (zero ↔ ∀ w, s.cfg.wheel w = true → (s.tqa.wheels.get w).reference = 0) →
        (agree ↔ ∀ w, s.cfg.wheel w = true → (s.tqa.wheels.get w).reference = 0 ∨
          s.dmc.adopted = .forward ∧ 0 < (s.tqa.wheels.get w).reference ∨
          s.dmc.adopted = .reverse ∧ (s.tqa.wheels.get w).reference < 0) →
        t.dmc.effRetard = 0 → 0 < t.dmc.effPropel →
        (s.dmc.substate = .propel ∨ s.dmc.substate = .coast ∧ agree →
          t.dmc.substate = .propel ∧ t.dmc.target = .none) ∧
        (s.dmc.substate = .retard ∨ s.dmc.substate = .changeover ∨
            s.dmc.substate = .coast ∧ ¬agree →
          (zero → t.dmc.substate = .propel ∧ t.dmc.target = .none) ∧
          (¬zero → t.dmc.substate = .changeover ∧ t.dmc.target = .propel))) ∧
      t.wlc = s.wlc ∧ t.tqa = s.tqa ∧ t.ore = s.ore ∧ t.pru = s.pru ∧ t.cfl = s.cfl ∧
      t.tripOut = s.tripOut

/-- The two timers that move the mode. STOP_TIME_EXPIRY: in SAFE_STOP at standstill, with the stop
time one period short of 1000 ms, the DMC enters TRIPPED as R70 gives (R71); that the row acts when
the count stands so is the model's reading (assumption log 5). SETTLE_TIME_EXPIRY, with no delivery
due: once the drive clock has reached the end of the settle time, the phase becomes COMPLETE and the
DMC leaves STARTING, for TRIPPED when the summary is TRIP, and otherwise for READY, or through it
for SAFE_STOP (R33, R69); freshness counting begins (R60). Before that it has no effect (assumption
log 6). At a DEMAND_SAMPLE in SAFE_STOP, with a fresh demand and no page to accept, the stop time
rises by the period at standstill and is 0 otherwise, and at 1000 ms the DMC enters TRIPPED (R71).
-/
def Obligations.ModeTimersEnd : Prop :=
  (∀ s : State, s.isRunning = true → s.delivered = true → s.dmc.mode = .safeStop →
    s.pageAccepted = false → s.dmc.fresh = .fresh →
    (s.clock - s.dmc.freshRef).toNat ≤ s.cfg.freshLimit →
    ∃ t, exec .demandSample s = .next t ∧
      (s.standstill = false → t.dmc.mode = .safeStop ∧ t.dmc.stopTime = 0) ∧
      (s.standstill = true → s.dmc.stopTime + s.cfg.allocPeriod < 1000 →
        t.dmc.mode = .safeStop ∧ t.dmc.stopTime = s.dmc.stopTime + s.cfg.allocPeriod) ∧
      (s.standstill = true → 1000 ≤ s.dmc.stopTime + s.cfg.allocPeriod →
        t.dmc.mode = .tripped ∧ t.dmc.stopTime = 1000 ∧ t.tripOut = true ∧ t.wlc.quiet = true ∧
        t.dmc.substate = .none ∧ t.dmc.adopted = .neutral ∧ t.dmc.credit = false ∧
        t.rgc.discharge = some (s.clock + 2000) ∧ Cls.modeChange.isIn t.atc.pending = true)) ∧
  (∀ s : State, s.isRunning = true →
    (s.dmc.mode = .safeStop ∧ s.standstill = true ∧ 1000 ≤ s.dmc.stopTime + s.dmc.period →
      ∃ t, exec .stopTimeExpiry s = .next t ∧
        t.dmc = { s.dmc with
          mode := .tripped, substate := .none, target := .none, adopted := .neutral
          pendingDir := none, variant := none, credit := false, stopTime := 1000
          lastChange := s.clock } ∧
        t.tripOut = true ∧ t.brakeAssist = true ∧ t.wlc.quiet = true ∧
        (∀ w, (t.wlc.wheels.get w).slotValue = 0) ∧ t.rgc.discharge = some (s.clock + 2000) ∧
        Cls.modeChange.isIn t.atc.pending = true ∧ (s.wlc.placed → t.word 0x0010 = 5) ∧
        t.tqa = s.tqa ∧ t.cfl = s.cfl ∧ t.clock = s.clock) ∧
    (¬(s.dmc.mode = .safeStop ∧ s.standstill = true ∧ 1000 ≤ s.dmc.stopTime + s.dmc.period) →
      s.delivered = true → exec .stopTimeExpiry s = .next s)) ∧
  ∀ s : State, s.isRunning = true → s.delivered = true →
    (∀ due, s.cfl.phase = .settle → s.cfl.settleEnd = some due →
      (s.clock - due).toNat < 2 ^ 31 → s.dmc.mode = .starting → s.wlc.placed →
      ∃ t, exec .settleTimeExpiry s = .next t ∧
        t.cfl = { s.cfl with phase := .complete, settleEnd := none } ∧
        t.dmc.mode = (if s.pru.summary = .trip then .tripped
          else if s.pru.summary = .safeStop then .safeStop else .ready) ∧
        t.tripOut = decide (s.pru.summary = .trip) ∧ t.dmc.fresh = .fresh ∧
        t.dmc.freshRef = s.clock ∧ t.dmc.credit = false ∧ t.dmc.adopted = .neutral ∧
        t.dmc.pendingDir = none ∧ t.dmc.variant = none ∧ t.dmc.demand = s.dmc.demand ∧
        t.word 0x0010 = t.dmc.mode.code ∧ Cls.modeChange.isIn t.atc.pending = true ∧
        (s.pru.summary = .trip → t.wlc.quiet = true) ∧ t.pru = s.pru ∧ t.tqa = s.tqa ∧
        t.clock = s.clock) ∧
    (¬(s.cfl.phase = .settle ∧
        ∃ due, s.cfl.settleEnd = some due ∧ (s.clock - due).toNat < 2 ^ 31) →
      exec .settleTimeExpiry s = .next s)

/-- The terms of an allocation event that stand before the rate limit: the least derate factors of a
wheel, over the derates of either scope in propel and over those of scope BOTH in retard (R84); the
share of the traction budget (R85) or of the grid capacity (R87), the request (R86, R88, R90), the
limited torque (R86, R89) and the signed target. -/
def Obligations.AllocationTerms : Prop :=
  ∀ (s : State) (w : Wheel) (n cap nEff : Nat) (speed : Int) (d : Nat → Nat → Nat),
    (d = fun a b => if s.cfg.rounding = 1 then (2 * a + b) / (2 * b) else a / b) →
    speed = (s.tcu.wheels.get w).held.getD 0 → nEff = max speed.natAbs s.cfg.nFloor →
    cap = min (if (s.tqa.wheels.get w).spent then s.cfg.tCont else s.cfg.tPeak)
      (s.wlc.wheels.get w).capability →
    (s.lmu.dProp w ≤ 1000 ∧
      (∀ e ∈ s.lmu.derates, e.target = .wheel w ∨ e.target = .allWheels →
        s.lmu.dProp w ≤ e.factor) ∧
      (s.lmu.dProp w = 1000 ∨ ∃ e ∈ s.lmu.derates,
        (e.target = .wheel w ∨ e.target = .allWheels) ∧ e.factor = s.lmu.dProp w)) ∧
    (s.lmu.dBoth w ≤ 1000 ∧
      (∀ e ∈ s.lmu.derates, e.target = .wheel w ∨ e.target = .allWheels →
        e.source ≠ .payload → e.source ≠ .linkLow → s.lmu.dBoth w ≤ e.factor) ∧
      (s.lmu.dBoth w = 1000 ∨ ∃ e ∈ s.lmu.derates,
        (e.target = .wheel w ∨ e.target = .allWheels) ∧ e.source ≠ .payload ∧
          e.source ≠ .linkLow ∧ e.factor = s.lmu.dBoth w)) ∧
    (s.dmc.substate = .propel →
      s.shareOf n = (min s.dmc.demand.enginePower s.tqa.propelCap - s.stc.reserve) / n) ∧
    (s.dmc.substate = .retard → s.shareOf n = min 5000 (s.rgc.capacity / n)) ∧
    (s.dmc.substate = .propel → ∀ share,
      (s.terms w share).tPow = d (95493 * share) nEff ∧
      (s.terms w share).request =
        d (d (s.cfg.tPeak * s.dmc.effPropel) 1000 *
          (1000 + outerSign s.stc.turn w * (s.stc.beta : Int)).toNat) 1000 ∧
      (s.terms w share).tSlip =
        d (d (min cap (s.terms w share).tPow * s.lmu.dProp w) 1000 *
          (s.tcu.wheels.get w).factor) 1000 ∧
      (s.terms w share).target =
        (if s.dmc.adopted = .reverse then -1 else 1) *
          (min (s.terms w share).request (s.terms w share).tSlip : Nat)) ∧
    (s.dmc.substate = .retard → ∀ share,
      (s.terms w share).tPow = d (95493 * share) nEff ∧
      (s.terms w share).request =
        (match s.tcu.vRef with
        | some v =>
          if v < s.cfg.vFade then d (d (s.cfg.tPeak * s.dmc.effRetard) 1000 * v) s.cfg.vFade
          else d (s.cfg.tPeak * s.dmc.effRetard) 1000
        | none => d (s.cfg.tPeak * s.dmc.effRetard) 1000) ∧
      (s.terms w share).tSlip =
        d (d (min cap (s.terms w share).tPow * s.lmu.dBoth w) 1000 *
          (s.tcu.wheels.get w).factor) 1000 ∧
      (s.terms w share).target =
        -speed.sign * (min (s.terms w share).request (s.terms w share).tSlip : Nat)) ∧
    (s.dmc.substate = .coast ∨ s.dmc.substate = .changeover → ∀ share,
      (s.terms w share).request = 0 ∧ (s.terms w share).target = 0)

/-- ALLOCATION_EVENT in READY, DRIVE and SAFE_STOP: a wheel that is not active loses its reference
at once (R80); an active wheel's reference moves toward its target by the rate limit, from 0 where
the sign guard acts (R89, R91), and is then clamped to C_p (R92); RATE and CLAMP override the
binding limit found (R93), the target shown and tested for RATE as computed also where R91 takes it
as 0, which is the model's choice (assumption log 53), and the flags follow, BIASED where a bias
that is not 0 is applied in PROPEL and FADED where the fade is applied in RETARD (R94). The budget
P_trac and the share P_w are those of R85 and R87, 0 where no wheel is active (R80); P_ret is held
and posted over the retarding references (R96). Where no PEAK_SPENT condition changes and no
delivery is due, the references stand in the command slots (R95), and only the allocator, the slots,
the grid demand record, the status blocks of the configured wheels and the TQA section change, and
the sections show them (R101, R102; that a factor not applied is shown as 1000 is assumption log
25). -/
def Obligations.AllocationComputed : Prop :=
  ∀ s : State, s.isRunning = true →
    (s.dmc.mode = .ready ∨ s.dmc.mode = .drive ∨ s.dmc.mode = .safeStop) →
    ∃ t, exec .allocationEvent s = .next t ∧
      t.tqa.nAct = (allWheels.filter s.active).length ∧
      (∀ w, s.active w = false →
        (t.tqa.wheels.get w).reference = 0 ∧ (t.tqa.wheels.get w).target = 0 ∧
        (t.tqa.wheels.get w).request = 0 ∧ (t.tqa.wheels.get w).binding = .none ∧
        (t.tqa.wheels.get w).flags = TqaFlags.idle) ∧
      (∀ (w : Wheel) (k : Terms) (cap : Nat) (speed prev : Int) (guarded : Bool),
        s.active w = true → k = s.terms w (s.shareOf t.tqa.nAct) →
        cap = min (if (s.tqa.wheels.get w).spent then s.cfg.tCont else s.cfg.tPeak)
          (s.wlc.wheels.get w).capability →
        speed = (s.tcu.wheels.get w).held.getD 0 →
        guarded = (s.dmc.substate == .retard &&
          decide (0 < speed * (s.tqa.wheels.get w).reference)) →
        prev = (if guarded then 0 else (s.tqa.wheels.get w).reference) →
        (t.tqa.wheels.get w).target = k.target ∧ (t.tqa.wheels.get w).request = k.request ∧
        (s.dmc.substate = .propel ∨ s.dmc.substate = .retard →
          k.slip = (s.tcu.wheels.get w).factor ∧
          k.derate = if s.dmc.substate = .propel then s.lmu.dProp w else s.lmu.dBoth w) ∧
        ∃ limited : Int,
          (prev * k.target < 0 →
            limited.natAbs = prev.natAbs - s.cfg.rDown ∧ 0 ≤ limited * prev) ∧
          (0 ≤ prev * k.target → prev.natAbs < k.target.natAbs →
            limited.natAbs = min k.target.natAbs (prev.natAbs + s.cfg.rUp) ∧
            0 ≤ limited * k.target) ∧
          (0 ≤ prev * k.target → k.target.natAbs < prev.natAbs →
            limited.natAbs = max k.target.natAbs (prev.natAbs - s.cfg.rDown) ∧
            0 ≤ limited * prev) ∧
          (k.target = prev → limited = prev) ∧
          (limited.natAbs ≤ cap → (t.tqa.wheels.get w).reference = limited) ∧
          (cap < limited.natAbs → (t.tqa.wheels.get w).reference.natAbs = cap ∧
            0 ≤ (t.tqa.wheels.get w).reference * limited) ∧
          (t.tqa.wheels.get w).binding =
            (if cap < limited.natAbs then .clamp
            else if limited ≠ k.target then .rate
            else if s.dmc.substate ≠ .propel ∧ s.dmc.substate ≠ .retard then .request
            else if k.request ≤ k.tSlip then .request
            else if 1000 ≤ k.derate ∧ 1000 ≤ k.slip then
              (if cap ≤ k.tPow then .capacity else .power)
            else if 1000 ≤ k.slip ∨ k.derate < 1000 ∧ k.derate ≤ k.slip then .derate
            else .slip) ∧
          (t.tqa.wheels.get w).flags.zero = decide ((t.tqa.wheels.get w).reference = 0) ∧
          (t.tqa.wheels.get w).flags.negative = decide ((t.tqa.wheels.get w).reference < 0) ∧
          (t.tqa.wheels.get w).flags.guarded = guarded ∧
          (t.tqa.wheels.get w).flags.inactive = false ∧
          ((t.tqa.wheels.get w).flags.biased = true ↔ s.dmc.substate = .propel ∧
            outerSign s.stc.turn w * (s.stc.beta : Int) ≠ 0) ∧
          ((t.tqa.wheels.get w).flags.faded = true ↔ s.dmc.substate = .retard ∧
            ∃ v, s.tcu.vRef = some v ∧ v < s.cfg.vFade)) ∧
      t.tqa.pTrac = (if s.dmc.substate = .propel ∧ t.tqa.nAct ≠ 0 then
        min s.dmc.demand.enginePower s.tqa.propelCap - s.stc.reserve else 0) ∧
      t.tqa.pW = (if t.tqa.nAct = 0 then 0
        else if s.dmc.substate = .propel then t.tqa.pTrac / t.tqa.nAct
        else if s.dmc.substate = .retard then min 5000 (s.rgc.capacity / t.tqa.nAct) else 0) ∧
      t.rgc.demandNew = true ∧ t.tqa.pRet = t.rgc.demand ∧
      t.rgc.demand = (allWheels.map fun w =>
        if (t.tqa.wheels.get w).reference * (s.tcu.wheels.get w).held.getD 0 < 0 then
          divNat s.cfg.nearest
            ((t.tqa.wheels.get w).reference * (s.tcu.wheels.get w).held.getD 0).natAbs 95493
        else 0).sum ∧
      (s.delivered = true →
        (∀ w, (t.tqa.wheels.get w).peakCond = (s.tqa.wheels.get w).peakCond) →
        (∀ w, t.wlc.wheels.get w = { s.wlc.wheels.get w with
          slotValue := (t.tqa.wheels.get w).reference }) ∧
        (s.wlc.placed → t.showsAt 0x2040 t.tqaWords ∧ (s.wlc.apart → ∀ w, s.cfg.wheel w = true →
          t.showsIn (s.wlc.wheels.get w).block 0x40 ((t.tqa.wheels.get w).words s.clock))) ∧
        SameOutside ((0x2040, 32) ::
          s.cfg.wheels.flatMap fun w => blockRegion (s.wlc.wheels.get w).block 0x40 64) s t ∧
        { t with
          xm := s.xm, tqa := s.tqa
          rgc := { t.rgc with demand := s.rgc.demand, demandNew := s.rgc.demandNew }
          wlc := { t.wlc with wheels := s.wlc.wheels } } = s)

/-- ALLOCATION_EVENT in STARTING, STANDBY and TRIPPED (R78): every reference, target and request is
0 at once, the binding limits NONE, the flags ZERO and INACTIVE, n_act, P_trac and P_w 0, every
command slot 0, and P_ret 0 is posted. The allocation period of the configuration is taken up. -/
def Obligations.AllocationSkipped : Prop :=
  ∀ s : State, s.isRunning = true →
    (s.dmc.mode = .starting ∨ s.dmc.mode = .standby ∨ s.dmc.mode = .tripped) →
    ∃ t, exec .allocationEvent s = .next t ∧ t.tqa.period = s.cfg.allocPeriod ∧
      t.tqa.nAct = 0 ∧ t.tqa.pTrac = 0 ∧ t.tqa.pW = 0 ∧ t.tqa.pRet = 0 ∧ t.rgc.demand = 0 ∧
      t.rgc.demandNew = true ∧ t.tqa.maxForward = s.tqa.maxForward ∧
      t.tqa.maxReverse = s.tqa.maxReverse ∧ t.tqa.propelCap = s.tqa.propelCap ∧
      ∀ w, (t.tqa.wheels.get w).reference = 0 ∧ (t.tqa.wheels.get w).target = 0 ∧
        (t.tqa.wheels.get w).request = 0 ∧ (t.tqa.wheels.get w).binding = .none ∧
        (t.tqa.wheels.get w).flags.zero = true ∧ (t.tqa.wheels.get w).flags.inactive = true ∧
        (t.wlc.wheels.get w).slotValue = 0

/-- The peak credit at the end of every allocation event (R97, R98): while the guard state is 1, the
credit of each configured wheel falls or rises from its reference's magnitude and is limited to 0 to
K_max, the peak state moves, and a change of the condition PEAK_SPENT is reported; otherwise they
stay. -/
def Obligations.PeakCreditMoves : Prop :=
  ∀ s : State, s.isRunning = true → s.pru.ok → ∃ t, exec .allocationEvent s = .next t ∧
    ∀ (w : Wheel) (limit ms mag : Nat) (credit : Int),
      limit = (s.cfg.tPeak - s.cfg.tCont) * s.cfg.peakTime → ms = s.cfg.allocPeriod →
      mag = (t.tqa.wheels.get w).reference.natAbs →
      credit = (s.tqa.wheels.get w).credit +
        (if s.cfg.tCont < mag then -(((mag - s.cfg.tCont) * ms : Nat) : Int)
        else (divNat s.cfg.nearest ((s.cfg.tCont - mag) * ms * s.cfg.recovery) 1000 : Nat)) →
      (s.cfl.guardOn = true ∧ s.cfg.wheel w = true →
        (t.tqa.wheels.get w).credit = min limit credit.toNat ∧
        (limit = 0 → (t.tqa.wheels.get w).spent = true ∧
          (t.tqa.wheels.get w).spentByUse = false) ∧
        (0 < limit → (s.tqa.wheels.get w).spent = true →
          (t.tqa.wheels.get w).spent =
            decide ((t.tqa.wheels.get w).credit < divNat s.cfg.nearest limit 4) ∧
          (t.tqa.wheels.get w).spentByUse =
            ((t.tqa.wheels.get w).spent && (s.tqa.wheels.get w).spentByUse)) ∧
        (0 < limit → (s.tqa.wheels.get w).spent = false →
          (t.tqa.wheels.get w).spent = decide ((t.tqa.wheels.get w).credit = 0) ∧
          (t.tqa.wheels.get w).spentByUse =
            ((t.tqa.wheels.get w).spent || (s.tqa.wheels.get w).spentByUse)) ∧
        ((t.tqa.wheels.get w).peakCond ≠ (s.tqa.wheels.get w).peakCond →
          t.pru.observed .peakSpent (.wheel w) (t.tqa.wheels.get w).peakCond)) ∧
      (¬(s.cfl.guardOn = true ∧ s.cfg.wheel w = true) →
        (t.tqa.wheels.get w).credit = (s.tqa.wheels.get w).credit ∧
        (t.tqa.wheels.get w).spent = (s.tqa.wheels.get w).spent ∧
        (t.tqa.wheels.get w).spentByUse = (s.tqa.wheels.get w).spentByUse)

/-! ## The wheel link -/

/-- ROUND_START, with no delivery due, no roll call asked for and outside phase SETTLE (R45). While
rounds are stopped it has no effect; while a round is open it is kept for that round's end;
otherwise a round opens over the records ENROLLED, MISSING and LOST, in rank order, at the round
period of the configuration. The configured set is taken up there (R41): a record that the
configuration no longer names becomes ABSENT with no misses and no report held, keeps its block, is
not visited and its loss condition is reported absent (R48); a SAU so dropped leaves the STC as R147
gives, a calibration in progress ended UNIT_ABSENT (R158). A ROLL_CALL order whose current target is
no longer configured comes to its next one, or ends (R53, R54). All this where the event does not
bring the DMC from STANDBY back to STARTING (R70). That a completion is taken within the event is
assumption log 28. That a start which falls in an open round is kept, and how the end of a round is
found, is assumption log 7. -/
def Obligations.RoundStarts : Prop :=
  ∀ s : State, s.isRunning = true → s.delivered = true → s.cfl.phase ≠ .settle →
    s.wlc.rollCallAsked = false →
    (s.wlc.roundsOn = true → s.wlc.roundOpen = false → s.wlc.order = none → s.pru.ok →
      ∃ t, exec .roundStart s = .next t ∧ ((t.dmc.mode = .starting → s.dmc.mode = .starting) →
        t.wlc.roundPeriod = s.cfg.roundPeriod ∧
        t.wlc.visit = allUnits.filter (fun u => (t.wlc.unit u).state != .absent) ∧
        (t.wlc.visit ≠ [] → t.wlc.roundOpen = true) ∧
        (∀ u, s.cfg.unit u = true →
          t.wlc.unit u = { s.wlc.unit u with
            configured := true, slotValue := (t.wlc.unit u).slotValue }) ∧
        (∀ u, s.cfg.unit u = false → (s.wlc.unit u).configured = true →
          t.wlc.unit u = { s.wlc.unit u with
            configured := false, state := .absent, misses := 0, held := .none
            slotValue := (t.wlc.unit u).slotValue } ∧
          t.pru.observed (lossKind u) (lossSubject u) false ∧
          (u = .sau → SauGone s t) ∧
          (s.wlc.placed → s.wlc.apart →
            t.showsIn (s.wlc.unit u).block 0 ((t.wlc.unit u).words u))))) ∧
    (∀ (o : EnrollOrder) (v : UnitId) (rest : List UnitId), s.wlc.roundsOn = true →
      s.wlc.roundOpen = false → s.wlc.order = some o → o.todo = v :: rest →
      ∃ t, exec .roundStart s = .next t ∧ ((t.dmc.mode = .starting → s.dmc.mode = .starting) →
        (s.cfg.unit v = true → t.wlc.order = some o ∧ t.ore.enroll = s.ore.enroll) ∧
        (s.cfg.unit v = false → TargetDone o o.found (o.notFound ++ [v]) rest s.cfg.unit s t))) ∧
    (s.wlc.roundsOn = false → s.wlc.roundOpen = false → exec .roundStart s = .next s) ∧
    (s.wlc.roundsOn = true → s.wlc.roundOpen = true → s.wlc.visit ≠ [] ∨ s.wlc.window ≠ none →
      exec .roundStart s = .next { s with wlc := { s.wlc with roundDue := true } }) ∧
    (s.wlc.roundsOn = true → s.wlc.roundOpen = false → s.wlc.window = none → s.wlc.order = none →
      (∀ u, (s.wlc.unit u).configured = s.cfg.unit u) →
      ∀ visit : List UnitId,
        visit = [.wheel .w1, .wheel .w2, .wheel .w3, .wheel .w4, .sau].filter
          (fun u => (s.wlc.unit u).state != .absent) →
        exec .roundStart s = .next { s with
          wlc := { s.wlc with
            roundPeriod := s.cfg.roundPeriod, visit := visit, orderTried := false
            roundDue := false, roundOpen := visit != [] } })

/-- DRIVE_TRANSMIT and STEER_TRANSMIT in their turn of the round, with the bus free and the record
ENROLLED or MISSING (R45 to R47): the telegram carries the next sequence, the control byte and the
value, becomes the record's last sent command, and opens the reply window. A DRIVE has the enable on
only in READY, DRIVE and SAFE_STOP for a wheel that is not excluded and whose held report has READY
set, with the slot's reference limited to T_cont while the wheel is PEAK_SPENT and to T_peak
otherwise; else it carries torque 0. A STEER carries the slot as the STC fills it, its enable off in
STARTING and TRIPPED; the angle command holds while the enable is off, and with it on moves toward
the limited demand by at most the rate limit, from the measured angle when the enable has just come
on (R148, R149). The bias is evaluated, 0 unless the six conditions of R152 hold. While a
calibration is on, the calibrate flag is set and the angle command holds even where the enable has
just come on, which is the model's reading (assumption log 23); a STEER transmit without standstill
still carries the flag, and the calibration ends ABORTED with it (R158; detail words beyond the four
of R157 are 0 by assumption log 9, and the order's cell is completed within the event by assumption
log 28). Out of its turn a transmit has no effect (assumption log 7). -/
def Obligations.CommandsSent : Prop :=
  ∀ s : State, s.isRunning = true →
    (∀ u, ¬(s.wlc.window = none ∧ s.wlc.quiet = false ∧ s.wlc.rollCall = none ∧
        s.wlc.roundOpen = true ∧ s.wlc.visit.head? = some u ∧ (s.wlc.unit u).present = true) →
      (∀ w, u = .wheel w → exec (.driveTransmit w) s = .next s) ∧
      (u = .sau → exec .steerTransmit s = .next s)) ∧
    (s.wlc.window = none → s.wlc.quiet = false → s.wlc.rollCall = none →
      s.wlc.roundOpen = true →
      (∀ (w : Wheel) (rest : List UnitId) (r : UnitRec) (enable : Bool) (torque : Int),
        s.wlc.visit = .wheel w :: rest → r = s.wlc.wheels.get w →
        r.state = .enrolled ∨ r.state = .missing →
        enable = ((s.dmc.mode == .ready || s.dmc.mode == .drive || s.dmc.mode == .safeStop) &&
          !s.pru.wheelEx.get w && r.held != .none && r.report.flags.getLsbD 0) →
        torque = (if enable then
          max (-((if (s.tqa.wheels.get w).spent then s.cfg.tCont else s.cfg.tPeak : Nat) : Int))
            (min (if (s.tqa.wheels.get w).spent then s.cfg.tCont else s.cfg.tPeak : Nat)
              r.slotValue) else 0) →
        exec (.driveTransmit w) s = .next { s with
          wlc := { s.wlc with
            visit := rest
            window := some { unit := .wheel w, sent := .drive, purpose := .round }
            wheels := s.wlc.wheels.set w { r with
              lastSeq := r.lastSeq + 1, lastControl := if enable then 1 else 0
              lastValue := torque }
            sent := withCrc [BitVec.ofNat 8 (wheelNum w), 0x21, r.lastSeq + 1,
              if enable then 1 else 0, highByte (intWord torque), lowByte (intWord torque)] } }) ∧
      ∀ (rest : List UnitId) (enable : Bool) (target start : Int) (widest rate : Nat),
        s.wlc.visit = .sau :: rest →
        s.wlc.sau.state = .enrolled ∨ s.wlc.sau.state = .missing →
        widest = (match s.tcu.vRef with
          | none => s.cfg.highSpeedAngle
          | some v => if v < 200 then s.cfg.lock
            else if v ≤ 500 then
              s.cfg.lock - (s.cfg.lock - s.cfg.highSpeedAngle) * (v - 200) / 300
            else s.cfg.highSpeedAngle) →
        rate = (match s.tcu.vRef with
          | none => s.cfg.rateLo / 4
          | some v => if v < 200 then s.cfg.rateLo
            else if v ≤ 500 then
              s.cfg.rateLo - (s.cfg.rateLo - s.cfg.rateLo / 4) * (v - 200) / 300
            else s.cfg.rateLo / 4) →
        enable = ((s.dmc.mode == .ready || s.dmc.mode == .drive || s.dmc.mode == .safeStop ||
          s.dmc.mode == .standby) && s.wlc.sau.held != .none &&
          s.wlc.sau.report.flags.getLsbD 0) →
        target = max (-(min widest s.wlc.sau.capability : Nat) : Int)
          (min (min widest s.wlc.sau.capability : Nat) s.dmc.demand.steerAngle) →
        start = (if s.stc.enable then s.stc.command else s.stc.measured) →
        ∃ t, exec .steerTransmit s = .next t ∧
          t.stc.angleLimit = min widest s.wlc.sau.capability ∧
          t.stc.rateLimit = rate ∧ t.stc.enable = enable ∧
          t.stc.calibrateSent = (s.stc.cal != .none) ∧
          (enable = false ∨ s.stc.cal ≠ .none → t.stc.command = s.stc.command) ∧
          (enable = true → s.stc.cal = .none →
            ((target - start).natAbs ≤ t.stc.rateLimit → t.stc.command = target) ∧
            (t.stc.rateLimit < (target - start).natAbs →
              (t.stc.command - start).natAbs = t.stc.rateLimit ∧
              0 ≤ (t.stc.command - start) * (target - start))) ∧
          t.stc.reserve = (if s.wlc.sau.configured then
            (match s.tcu.vRef with
            | some v => if v < 300 then s.cfg.reserveHi else s.cfg.reserveLo
            | none => s.cfg.reserveHi) else 0) ∧
          BiasFormed s t.stc.beta ∧
          t.wlc.visit = rest ∧
          t.wlc.window = some { unit := .sau, sent := .steer, purpose := .round } ∧
          t.wlc.sau = { s.wlc.sau with
            slotValue := t.stc.command, slotEnable := enable
            slotCalibrate := t.stc.calibrateSent, lastSeq := s.wlc.sau.lastSeq + 1
            lastControl := (if enable && s.dmc.mode != .starting && s.dmc.mode != .tripped
              then 1 else 0) + (if t.stc.calibrateSent then 2 else 0)
            lastValue := t.stc.command } ∧
          t.wlc.sent = withCrc [8, 0x31, t.wlc.sau.lastSeq, t.wlc.sau.lastControl,
            highByte (intWord t.stc.command), lowByte (intWord t.stc.command)] ∧
          (s.wlc.placed → t.showsAt 0x20A0 t.stcWords ∧
            t.showsIn s.wlc.sau.block 0x40 t.stcWords) ∧
          (s.stc.cal ≠ .none ∧ s.standstill = false →
            t.stc.cal = .none ∧ t.stc.calResult = .aborted ∧
            (s.ore.steer = some s.stc.calCell → s.wlc.placed →
              t.ore = { s.ore with steer := none } ∧ Cls.orderDone.isIn t.atc.pending = true ∧
              t.cellEnded s.stc.calCell .aborted
                (if s.wlc.sau.held = .none then [0, 0, 0, natWord (s.clock - s.stc.calStart).toNat]
                else [0, s.wlc.sau.report.flags.setWidth 16, s.wlc.sau.report.field1,
                  natWord (s.clock - s.stc.calStart).toNat]) s.clock)) ∧
          (s.stc.cal = .none ∨ s.standstill = true →
            SameOutside ((0x20A0, 32) :: blockRegion s.wlc.sau.block 0x40 192) s t ∧
            { t with
              xm := s.xm
              wlc := { t.wlc with
                sau := s.wlc.sau, visit := s.wlc.visit, window := s.wlc.window, sent := s.wlc.sent }
              stc := { t.stc with
                angleLimit := s.stc.angleLimit, rateLimit := s.stc.rateLimit
                enable := s.stc.enable, calibrateSent := s.stc.calibrateSent
                command := s.stc.command, reserve := s.stc.reserve, beta := s.stc.beta } } = s))

/-- ROLL_TRANSMIT: a ROLL goes out to the record that a roll call polls (R42), to a LOST record in
its turn of the round (R50), and to the current target of a ROLL_CALL order after the visited
records, whose try count rises by 1 (R52). QUIET_TRANSMIT: the broadcast goes out at the first
moment the bus is free, and opens no window (R56). Otherwise neither has an effect (assumption log
7). -/
def Obligations.RollAndQuietSent : Prop :=
  ∀ s : State, s.isRunning = true →
    (∀ (u : UnitId) (sent : List Byte), s.wlc.window = none → s.wlc.quiet = false →
      sent = withCrc [unitAddress u, 0x11] →
      (∀ c : RollCall, s.wlc.rollCall = some c → c.todo.head? = some u →
        exec (.rollTransmit u) s = .next { s with
          wlc := { s.wlc with
            sent := sent, window := some { unit := u, sent := .roll, purpose := .rollCall } } }) ∧
      (∀ rest, s.wlc.rollCall = none → s.wlc.roundOpen = true → s.wlc.visit = u :: rest →
        (s.wlc.unit u).state = .lost →
        exec (.rollTransmit u) s = .next { s with
          wlc := { s.wlc with
            sent := sent, visit := rest
            window := some { unit := u, sent := .roll, purpose := .round } } }) ∧
      (∀ o : EnrollOrder, s.wlc.rollCall = none → s.wlc.roundOpen = true → s.wlc.visit = [] →
        s.wlc.order = some o → s.wlc.orderTried = false → o.todo.head? = some u →
        exec (.rollTransmit u) s = .next { s with
          wlc := { s.wlc with
            sent := sent, order := some { o with tries := o.tries + 1 }, orderTried := true
            window := some { unit := u, sent := .roll, purpose := .order } } })) ∧
    (∀ u, ¬(s.wlc.window = none ∧ s.wlc.quiet = false ∧
        ((∃ c, s.wlc.rollCall = some c ∧ c.todo.head? = some u) ∨
          s.wlc.rollCall = none ∧ s.wlc.roundOpen = true ∧
            (s.wlc.visit.head? = some u ∧ (s.wlc.unit u).state = .lost ∨
              s.wlc.visit = [] ∧ s.wlc.orderTried = false ∧
                ∃ o, s.wlc.order = some o ∧ o.todo.head? = some u))) →
      exec (.rollTransmit u) s = .next s) ∧
    (s.wlc.quiet = true → s.wlc.window = none →
      exec .quietTransmit s = .next { s with
        wlc := { s.wlc with sent := withCrc [0xFF, 0x7E], quiet := false } }) ∧
    (s.wlc.quiet = false ∨ s.wlc.window ≠ none → exec .quietTransmit s = .next s)

/-- A REPORT or STEER_REPORT that passes the checks of R39 in the open window: its length and CRC,
the unit's address, the kind and the sequence echo. The record of a configured unit becomes ENROLLED
with no misses, its report CURRENT, the fields those of the telegram, most significant byte first,
stamped with the drive clock (R49). The TCU takes a wheel's speed when it is plausible by R106, with
the ground speed of R105, and keeps the one it holds otherwise, reports a change of
SPEED_IMPLAUSIBLE, which five discards in a row bring and 20 plausible reports in a row end (R107),
and judges the reference speed (R108, R109, R111); the STC takes the SAU's angle (R151). The FAULT
flag reaches the fault table as WHEEL_FAULT or STEER_FAULT (R175). In SETTLE a wheel's report ends
it once every enrolled WIU has READY set (R33). The sections of the unit's block show the record and
the event (R51, R119, R159). Where the arrival brings no FAULT_CHANGE, or its kinds stand as NOTEs,
so that no set changes, the TCU is the one that the steps of R104 make of it, with judgeSlip of
SlipJudged the last, and the STC with its calibration's cell the one that stcReport of
SteeringFollowed makes, before or after the TCU's hand-off. Without an open window the bytes are
discarded (R37). Which wheels give a DEGRADED V_ref, and that it may exceed 1000, are assumption
logs 44 and 20; that a factor below S_min is raised first is log 48. The order of the hand-offs does
not matter to this (R49). -/
def Obligations.ReportsAccepted : Prop :=
  ∀ (s : State) (bytes : List Byte) (order : HandOff), s.isRunning = true →
    (s.wlc.window = none → exec (.reportArrival bytes order) s = .next s ∧
      exec (.steerReportArrival bytes order) s = .next s) ∧
    (∀ w : Wheel, s.wlc.window = some { unit := .wheel w, sent := .drive, purpose := .round } →
      s.cfg.wheel w = true → bytes.length = 16 → byteAt bytes 0 = BitVec.ofNat 8 (wheelNum w) →
      byteAt bytes 1 = 0x22 → byteAt bytes 2 = (s.wlc.wheels.get w).lastSeq →
      crc (bytes.take 14) = byteAt bytes 14 ++ byteAt bytes 15 →
      ∃ t, exec (.reportArrival bytes order) s = .next t ∧
        (t.wlc.wheels.get w).state = .enrolled ∧ (t.wlc.wheels.get w).misses = 0 ∧
        (t.wlc.wheels.get w).held = .current ∧
        (t.wlc.wheels.get w).report =
          { flags := byteAt bytes 3, field1 := byteAt bytes 4 ++ byteAt bytes 5
            field2 := byteAt bytes 6 ++ byteAt bytes 7, field3 := byteAt bytes 8 ++ byteAt bytes 9
            field4 := byteAt bytes 10 ++ byteAt bytes 11
            field5 := byteAt bytes 12 ++ byteAt bytes 13, stamp := s.clock } ∧
        (t.wlc.wheels.get w).lastSeq = (s.wlc.wheels.get w).lastSeq ∧
        (t.wlc.wheels.get w).capability = (s.wlc.wheels.get w).capability ∧
        (∀ (speed : Int) (before : TcuWheel), speed = (byteAt bytes 4 ++ byteAt bytes 5).toInt →
          before = s.tcu.wheels.get w →
          (speed.natAbs ≤ 32000 ∧ (∀ h, before.held = some h → (speed - h).natAbs ≤ 2000 *
              max 1 (((s.clock - before.heldStamp).toNat + s.wlc.roundPeriod / 2) /
                s.wlc.roundPeriod)) →
            (t.tcu.wheels.get w).held = some speed ∧ (t.tcu.wheels.get w).heldStamp = s.clock ∧
            (t.tcu.wheels.get w).ground =
              divInt s.cfg.nearest (speed * s.cfg.groundFactor) 100000 ∧
            (t.tcu.wheels.get w).discards = 0) ∧
          (¬(speed.natAbs ≤ 32000 ∧ (∀ h, before.held = some h → (speed - h).natAbs ≤ 2000 *
              max 1 (((s.clock - before.heldStamp).toNat + s.wlc.roundPeriod / 2) /
                s.wlc.roundPeriod))) →
            (t.tcu.wheels.get w).held = before.held ∧
            (t.tcu.wheels.get w).heldStamp = before.heldStamp ∧
            (t.tcu.wheels.get w).discards = min 65535 (before.discards + 1) ∧
            (t.tcu.wheels.get w).plausibleRun = 0)) ∧
        (t.tcu.wheels.get w).implausibleCond =
          (if (t.tcu.wheels.get w).discards = 0 then
            (s.tcu.wheels.get w).implausibleCond && decide ((t.tcu.wheels.get w).plausibleRun < 20)
          else (s.tcu.wheels.get w).implausibleCond || (t.tcu.wheels.get w).discards == 5) ∧
        ((t.tcu.wheels.get w).discards = 0 → (t.tcu.wheels.get w).plausibleRun =
          min 20 ((s.tcu.wheels.get w).plausibleRun + 1)) ∧
        (s.pru.ok →
          ((t.tcu.wheels.get w).implausibleCond ≠ (s.tcu.wheels.get w).implausibleCond →
            t.pru.observed .speedImplausible (.wheel w) (t.tcu.wheels.get w).implausibleCond) ∧
          t.pru.observed .wheelFault (.wheel w) ((byteAt bytes 3).getLsbD 1)) ∧
        ReferenceTaken t ∧
        (t.tcu.quality ≠ s.tcu.quality → Cls.unitChange.isIn t.atc.pending = true) ∧
        (s.cfl.phase = .settle → s.dmc.mode = .starting → ∀ ready : Prop,
          (ready ↔ ∀ v, (t.wlc.wheels.get v).state = .enrolled →
            (t.wlc.wheels.get v).report.flags.getLsbD 0 = true) →
          (ready → t.cfl.phase = .complete ∧ t.cfl.settleEnd = none ∧ t.dmc.mode ≠ .starting) ∧
          (¬ready → t.cfl.phase = .settle ∧ t.cfl.settleEnd = s.cfl.settleEnd ∧
            t.dmc.mode = .starting)) ∧
        (s.wlc.placed → s.wlc.apart →
          t.showsIn (s.wlc.wheels.get w).block 0 ((t.wlc.wheels.get w).words (.wheel w)) ∧
          t.showsIn (s.wlc.wheels.get w).block 0x80 ((t.tcu.wheels.get w).words s.clock)) ∧
        (s.delivered = true → s.cfl.phase ≠ .settle →
          Cls.faultChange.isIn t.atc.pending = false ∨
            (s.notes .wheelLost && s.notes .wheelFault && s.notes .speedImplausible &&
              s.notes .wheelSlide) = true →
          ∀ u : State, u = { s with wlc := { s.wlc with
              wheels := s.wlc.wheels.set w (t.wlc.wheels.get w) } } →
            t.tcu = (judgeSlip w (recomputeIn .degraded (judgeQuality (takeSpeed w u)))).tcu)) ∧
    (s.wlc.window = some { unit := .sau, sent := .steer, purpose := .round } →
      s.cfg.unit .sau = true → bytes.length = 12 → byteAt bytes 0 = 8 → byteAt bytes 1 = 0x32 →
      byteAt bytes 2 = s.wlc.sau.lastSeq →
      crc (bytes.take 10) = byteAt bytes 10 ++ byteAt bytes 11 →
      ∃ t, exec (.steerReportArrival bytes order) s = .next t ∧ t.wlc.sau.state = .enrolled ∧
        t.wlc.sau.misses = 0 ∧ t.wlc.sau.held = .current ∧
        t.wlc.sau.report =
          { flags := byteAt bytes 3, field1 := byteAt bytes 4 ++ byteAt bytes 5
            field2 := byteAt bytes 6 ++ byteAt bytes 7, field3 := byteAt bytes 8 ++ byteAt bytes 9
            field4 := 0, field5 := 0, stamp := s.clock } ∧
        t.wlc.sau.lastSeq = s.wlc.sau.lastSeq ∧
        t.stc.measured = (byteAt bytes 4 ++ byteAt bytes 5).toInt ∧
        (s.pru.ok →
          t.pru.observed .steerFault .steering ((byteAt bytes 3).getLsbD 1) ∧
          (t.stc.tracking ≠ s.stc.tracking →
            t.pru.observed .steerTracking .steering t.stc.tracking)) ∧
        (∀ left right : Nat, left = (byteAt bytes 6 ++ byteAt bytes 7).toNat →
          right = (byteAt bytes 8 ++ byteAt bytes 9).toNat → left ≤ 1000 → right ≤ 1000 →
          t.tcu.quality = (if s.cfg.arrangement = 0x2E2E then .front
            else if s.dmc.demand.hint ≠ none then .hint else .degraded) ∧
          (t.tcu.quality = .front → t.tcu.vRef = some (divNat s.cfg.nearest
            ((left + right) * cos10000 (byteAt bytes 4 ++ byteAt bytes 5).toInt) 20000))) ∧
        (s.wlc.placed → s.wlc.apart → t.showsAt 0x20A0 t.stcWords ∧
          t.showsIn s.wlc.sau.block 0 (t.wlc.sau.words .sau) ∧
          t.showsIn s.wlc.sau.block 0x40 t.stcWords) ∧
        (s.delivered = true → Cls.faultChange.isIn t.atc.pending = false ∨
            (s.notes .sauLost && s.notes .steerFault && s.notes .steerTracking) = true →
          ∃ x ∈ [s.tcu, t.tcu], ∀ u : State,
            u = { s with
              tcu := x, wlc := { s.wlc with sau := t.wlc.sau }
              stc := { s.stc with reserve := t.stc.reserve } } →
            t.stc = (stcReport u).stc ∧ t.ore = (stcReport u).ore ∧
            ∀ cell : BitVec 6, ∀ a, cellBase cell ≤ a → a < cellBase cell + 64 →
              t.xm.byte a = (stcReport u).xm.byte a))

/-- The five steps of the STC at a STEER_REPORT arrival that alter its state (R150 to R154): the
angle, the turn side and the Ackermann factor, limited to 900; the tracking counts, judged against
the last sent command, with the condition present at N_track reports outside tolerance and absent
after ten within; the calibration flags of a report that answers a STEER sent with the calibrate
flag (R157), which start the run, and end it OK or BAD_ARGUMENT with the detail of the report (its
words beyond the four of R157 are 0 by assumption log 9, and the completion within the event is
assumption log 28); and the bias, 0 unless the six conditions of R152 hold. The sections show it
(R159). -/
def Obligations.SteeringFollowed : Prop :=
  ∀ (s : State) (angle : Int) (within : Bool), angle = s.wlc.sau.report.field1.toInt →
    (within = (!s.wlc.sau.lastControl.getLsbD 0 || s.wlc.sau.lastControl.getLsbD 1 ||
      decide ((s.wlc.sau.lastValue - angle).natAbs ≤ s.cfg.trackTol))) →
    (stcReport s).stc.measured = angle ∧ (stcReport s).stc.stale = false ∧
    ((stcReport s).stc.turn = .left ↔ 0 < angle) ∧
    ((stcReport s).stc.turn = .right ↔ angle < 0) ∧
    (stcReport s).stc.kappa =
      min 900 (divNat s.cfg.nearest (s.cfg.halfTrack * tan10000 angle) (s.cfg.wheelbase * 10)) ∧
    (stcReport s).stc.exceed = (if within then 0 else min 65535 (s.stc.exceed + 1)) ∧
    (stcReport s).stc.within = (if within then min 65535 (s.stc.within + 1) else 0) ∧
    (s.stc.tracking = false → (stcReport s).stc.tracking =
      decide ((500 + s.wlc.roundPeriod - 1) / s.wlc.roundPeriod ≤ (stcReport s).stc.exceed)) ∧
    (s.stc.tracking = true →
      (stcReport s).stc.tracking = decide ((stcReport s).stc.within < 10)) ∧
    (∀ allowed : Prop, (allowed ↔ s.dmc.substate = .propel ∧
        (∃ v, s.tcu.vRef = some v ∧ v < s.cfg.assistSpeed) ∧ 500 ≤ angle.natAbs ∧
        ∀ w, s.cfg.wheel w = true → s.active w = true ∧ (s.tcu.wheels.get w).slip = .grip) →
      (allowed → (stcReport s).stc.beta =
        min 300 (divNat s.cfg.nearest ((stcReport s).stc.kappa * s.cfg.assistGain) 1000)) ∧
      (¬allowed → (stcReport s).stc.beta = 0)) ∧
    (stcReport s).stc.command = s.stc.command ∧
    (∀ running ended well : Prop,
      (running ↔ s.wlc.sau.lastControl.getLsbD 1 = true ∧ s.stc.cal = .starting ∧
        s.wlc.sau.report.flags.getLsbD 2 = true) →
      (ended ↔ s.wlc.sau.lastControl.getLsbD 1 = true ∧ s.stc.cal = .running ∧
        s.wlc.sau.report.flags.getLsbD 3 = true) →
      (well ↔ s.wlc.sau.report.flags.getLsbD 4 = true) →
      (¬running → ¬ended → (stcReport s).stc.cal = s.stc.cal ∧
        (stcReport s).stc.calResult = s.stc.calResult ∧ (stcReport s).ore = s.ore) ∧
      (running → (stcReport s).stc.cal = .running ∧
        (stcReport s).stc.calResult = s.stc.calResult ∧ (stcReport s).ore = s.ore) ∧
      (ended → (stcReport s).stc.cal = .none ∧
        (well → (stcReport s).stc.calResult = .ok) ∧
        (¬well → (stcReport s).stc.calResult = .failed) ∧
        (s.ore.steer = some s.stc.calCell → s.wlc.placed →
          (stcReport s).ore = { s.ore with steer := none } ∧
          Cls.orderDone.isIn (stcReport s).atc.pending = true ∧
          (well → (stcReport s).cellEnded s.stc.calCell .ok
            [0, s.wlc.sau.report.flags.setWidth 16, s.wlc.sau.report.field1,
              natWord (s.clock - s.stc.calStart).toNat] s.clock) ∧
          (¬well → (stcReport s).cellEnded s.stc.calCell .badArgument
            [0xFFFF, s.wlc.sau.report.flags.setWidth 16, s.wlc.sau.report.field1,
              natWord (s.clock - s.stc.calStart).toNat] s.clock)))) ∧
    (s.wlc.placed → (stcReport s).showsAt 0x20A0 (stcReport s).stcWords ∧
      (stcReport s).showsIn s.wlc.sau.block 0x40 (stcReport s).stcWords)

/-- A ROLL_ANSWER that passes the checks of R39 in the open window: its length and CRC, the unit's
address, the kind and the unit kind. The record of a configured unit becomes ENROLLED with no misses
and no report held, its capability limited and its revision taken, the last sent sequence kept (R42,
R50, R52). Outside a roll call UNIT_CHANGE is raised and the loss condition is reported absent. A
SAU that so enrolls leaves the STC without its angle (R147). A target of a ROLL_CALL order receives
a status block at the cursor when it has none, and the order comes to its next target, or ends OK
with its detail (R52 to R54), within the event (assumption log 28). The answer to the last try of an
order that has ended leaves its record as it is (R53), and the answer of the last record that a roll
call polls ends it (R43 to R45). Without an open window the bytes are discarded (R37). -/
def Obligations.AnswersAccepted : Prop :=
  ∀ (s : State) (bytes : List Byte), s.isRunning = true →
    (s.wlc.window = none → exec (.rollAnswerArrival bytes) s = .next s) ∧
    ∀ (u : UnitId) (p : Purpose), s.wlc.window = some { unit := u, sent := .roll, purpose := p } →
      s.cfg.unit u = true → bytes.length = 8 →
      byteAt bytes 0 = unitAddress u → byteAt bytes 1 = 0x12 → byteAt bytes 2 = unitKind u →
      crc (bytes.take 6) = byteAt bytes 6 ++ byteAt bytes 7 →
      (p = .ended → ∃ t, exec (.rollAnswerArrival bytes) s = .next t ∧
        t.wlc.unit u = { s.wlc.unit u with
          configured := (t.wlc.unit u).configured, slotValue := (t.wlc.unit u).slotValue } ∧
        (s.wlc.placed → s.wlc.apart →
          t.showsIn (s.wlc.unit u).block 0 ((t.wlc.unit u).words u))) ∧
      (∀ c : RollCall, p = .rollCall → s.wlc.rollCall = some c → s.wlc.rollCallAsked = false →
        s.dmc.mode = .starting → s.wlc.placed → s.pru.ok → s.wlc.order = none →
        (∀ v, (s.wlc.unit v).configured = s.cfg.unit v) → c.todo = [u] →
        ∃ t, exec (.rollAnswerArrival bytes) s = .next t ∧ RollCallEnded s t) ∧
      (p ≠ .ended → (p = .order → s.wlc.order ≠ none) →
      ∃ t, exec (.rollAnswerArrival bytes) s = .next t ∧ (t.wlc.unit u).state = .enrolled ∧
        (t.wlc.unit u).misses = 0 ∧ (t.wlc.unit u).held = .none ∧
        (t.wlc.unit u).report = Report.cleared ∧
        (t.wlc.unit u).capability =
          min (if u = .sau then 4500 else 20000) (byteAt bytes 4 ++ byteAt bytes 5).toNat ∧
        (t.wlc.unit u).revision = (byteAt bytes 3).toNat ∧
        (t.wlc.unit u).lastSeq = (s.wlc.unit u).lastSeq ∧
        (u = .sau → s.wlc.sau.configured = true → s.wlc.sau.state ≠ .enrolled → SauSilent s t) ∧
        (p ≠ .rollCall → Cls.unitChange.isIn t.atc.pending = true ∧
          (s.pru.ok → t.pru.observed (lossKind u) (lossSubject u) false)) ∧
        (p = .order →
          (t.wlc.unit u).block = some ((s.wlc.unit u).block.getD s.wlc.cursor) ∧
          t.wlc.cursor =
            (if (s.wlc.unit u).block = none then s.wlc.cursor + 256 else s.wlc.cursor) ∧
          ((s.wlc.unit u).block = none → s.wlc.placed →
            t.word (unitDirectory u) = natWord s.wlc.cursor) ∧
          ∀ (o : EnrollOrder) (rest : List UnitId), s.wlc.order = some o → o.todo = u :: rest →
            s.wlc.roundDue = false → s.wlc.rollCallAsked = false →
            (t.dmc.mode = .starting → s.dmc.mode = .starting) →
            TargetDone o (o.found ++ [u]) o.notFound rest
              (fun v => (s.wlc.unit v).configured) s t))

/-- REPLY_WINDOW_EXPIRY (R48). With no window open it has no effect. For a DRIVE or STEER exchange
of a configured unit that is ENROLLED or MISSING the consecutive misses rise by 1: below the miss
limit the record is MISSING and a current report becomes HELD, at the limit it is LOST with none
held, UNIT_CHANGE is raised, the loss condition is reported present, and a SAU leaves the STC as
R147 gives, a calibration in progress ended UNIT_ABSENT (R158). The third try of a ROLL_CALL order's
target leaves it not found, and the order comes to its next target, or ends (R52 to R54; the
completion within the event is assumption log 28). A ROLL to a LOST record changes nothing in it
(R50), nor does one of an order that has ended (R53); the third try of a roll call makes a record
ABSENT (R42), and that of the last record polled ends the roll call (R43 to R45). A reply that fails
a check of R39 counts as the expiry: one of another length than its kind's, or with another address,
kind, unit kind or sequence echo than expected; one of the right length whose CRC fails raises the
corrupt count of the unit first. Below the limit, for a wheel, with no delivery or round start due
and outside SETTLE, nothing else changes but the window, the end of the round and the wheel's link
section. -/
def Obligations.ExchangeMissed : Prop :=
  ∀ s : State, s.isRunning = true →
    (s.wlc.window = none → exec .replyWindowExpiry s = .next s) ∧
    (∀ (u : UnitId) (k : Sent) (p : Purpose) (r : UnitRec) (n : Nat),
      s.wlc.window = some { unit := u, sent := k, purpose := p } → k ≠ .roll →
      s.cfg.unit u = true → r = s.wlc.unit u → r.state = .enrolled ∨ r.state = .missing →
      n = min s.cfg.missLimit (r.misses + 1) →
      ∃ t, exec .replyWindowExpiry s = .next t ∧ (t.wlc.unit u).misses = n ∧
        (t.wlc.unit u).report = r.report ∧ (t.wlc.unit u).corrupt = r.corrupt ∧
        (n < s.cfg.missLimit → (t.wlc.unit u).state = .missing ∧
          (t.wlc.unit u).held = (if r.held = .none then .none else .held)) ∧
        (s.cfg.missLimit ≤ n → (t.wlc.unit u).state = .lost ∧ (t.wlc.unit u).held = .none ∧
          Cls.unitChange.isIn t.atc.pending = true ∧ (u = .sau → SauGone s t) ∧
          (s.pru.ok → t.pru.observed (lossKind u) (lossSubject u) true))) ∧
    (∀ (u : UnitId) (o : EnrollOrder) (rest : List UnitId),
      s.wlc.window = some { unit := u, sent := .roll, purpose := .order } →
      s.wlc.order = some o → o.todo = u :: rest → s.wlc.roundDue = false →
      s.wlc.rollCallAsked = false → s.cfg.unit u = true →
      ∃ t, exec .replyWindowExpiry s = .next t ∧ (t.wlc.unit u).state = (s.wlc.unit u).state ∧
        (t.wlc.unit u).block = (s.wlc.unit u).block ∧
        ((t.dmc.mode = .starting → s.dmc.mode = .starting) →
          (o.tries < 3 → t.wlc.order = some o ∧ t.ore = s.ore) ∧
          (3 ≤ o.tries → TargetDone o o.found (o.notFound ++ [u]) rest
            (fun v => (s.wlc.unit v).configured) s t))) ∧
    (∀ (x : Exchange) (r : UnitRec) (n : Nat) (bytes : List Byte) (order : HandOff) (c : Instr),
      s.wlc.window = some x → r = s.wlc.unit x.unit → n = bytes.length →
      c = .rollAnswerArrival bytes ∨ c = .reportArrival bytes order ∨
        c = .steerReportArrival bytes order →
      (telegramLength (byteAt bytes 1) ≠ some n → exec c s = exec .replyWindowExpiry s) ∧
      (telegramLength (byteAt bytes 1) = some n →
        crc (bytes.take (n - 2)) ≠ byteAt bytes (n - 2) ++ byteAt bytes (n - 1) →
        exec c s = exec .replyWindowExpiry (s.setWlc (s.wlc.setUnit x.unit
          { r with corrupt := min 65535 (r.corrupt + 1) }))) ∧
      (telegramLength (byteAt bytes 1) = some n →
        crc (bytes.take (n - 2)) = byteAt bytes (n - 2) ++ byteAt bytes (n - 1) →
        byteAt bytes 0 ≠ unitAddress x.unit ∨
          x.sent = .roll ∧ (byteAt bytes 1 ≠ 0x12 ∨ byteAt bytes 2 ≠ unitKind x.unit) ∨
          x.sent = .drive ∧ (byteAt bytes 1 ≠ 0x22 ∨ byteAt bytes 2 ≠ r.lastSeq) ∨
          x.sent = .steer ∧ (byteAt bytes 1 ≠ 0x32 ∨ byteAt bytes 2 ≠ r.lastSeq) →
        exec c s = exec .replyWindowExpiry s)) ∧
    (∀ (u : UnitId) (c : RollCall),
      s.wlc.window = some { unit := u, sent := .roll, purpose := .rollCall } →
      s.wlc.rollCall = some c → 2 ≤ c.tries → s.wlc.rollCallAsked = false →
      s.dmc.mode = .starting → s.wlc.placed → s.pru.ok → s.wlc.order = none →
      (∀ v, (s.wlc.unit v).configured = s.cfg.unit v) → c.todo = [u] →
      ∃ t, exec .replyWindowExpiry s = .next t ∧ RollCallEnded s t) ∧
    (∀ (u : UnitId) (p : Purpose), s.wlc.window = some { unit := u, sent := .roll, purpose := p } →
      p = .round ∨ p = .ended → s.cfg.unit u = true →
      ∃ t, exec .replyWindowExpiry s = .next t ∧ (t.wlc.unit u).state = (s.wlc.unit u).state ∧
        (t.wlc.unit u).misses = (s.wlc.unit u).misses) ∧
    (∀ (u : UnitId) (c : RollCall),
      s.wlc.window = some { unit := u, sent := .roll, purpose := .rollCall } →
      s.wlc.rollCall = some c → 2 ≤ c.tries → s.cfg.unit u = true →
      ∃ t, exec .replyWindowExpiry s = .next t ∧ (t.wlc.unit u).state = .absent ∧
        (t.wlc.unit u).misses = 0 ∧ (t.wlc.unit u).held = .none ∧
        (u = .sau → s.wlc.sau.state ≠ .absent → SauGone s t) ∧
        (s.pru.ok → (s.wlc.unit u).state = .enrolled ∨ (s.wlc.unit u).state = .missing →
          t.pru.observed (lossKind u) (lossSubject u) true)) ∧
    ∀ (w : Wheel) (r : UnitRec),
      s.wlc.window = some { unit := .wheel w, sent := .drive, purpose := .round } →
      r = s.wlc.wheels.get w → r.state = .enrolled ∨ r.state = .missing →
      r.misses + 1 < s.cfg.missLimit → s.delivered = true → s.cfl.phase ≠ .settle →
      s.wlc.roundDue = false → s.wlc.rollCallAsked = false →
      ∃ t, exec .replyWindowExpiry s = .next t ∧ t.wlc.window = none ∧
        t.wlc.wheels.get w = { r with
          misses := r.misses + 1, state := .missing
          held := if r.held = .none then .none else .held } ∧
        (∀ v, v ≠ w → t.wlc.wheels.get v = s.wlc.wheels.get v) ∧
        SameOutside (blockRegion r.block 0 64) s t ∧
        { t with
          xm := s.xm
          wlc := { t.wlc with
            window := s.wlc.window, wheels := s.wlc.wheels, roundOpen := s.wlc.roundOpen } } = s

/-! ## The grids -/

/-- The link voltage (R122). LINK_VOLTAGE_SAMPLE: the reading, at most 2500 V, enters the list of
the last samples, and the oldest leaves it. FILTERED_UPDATE: V_f is the truncated mean of the 16
samples; the trim and the grid capacity follow (R123); the LMU takes the link-low derate and
LINK_UNDERVOLT (R170); the PRU observes LINK_OVERVOLT, and in the band between clears both progress
counts (R175). With neither condition about and no delivery due, a running grid test lowers its
lowest V_f (R140), or ends in READY without standstill (R141). -/
def Obligations.LinkFiltered : Prop :=
  (∀ (s : State) (volts : Nat), s.isRunning = true →
    exec (.linkVoltageSample volts) s = .next { s with
      rgc := { s.rgc with samples := s.rgc.samples.drop 1 ++ [min volts 2500] } }) ∧
  ∀ (s : State) (v : Nat), s.isRunning = true → s.lmu.ok → s.pru.ok →
    v = s.rgc.samples.sum / 16 →
    ∃ t, exec .filteredUpdate s = .next t ∧ Undisturbed s t ∧ t.rgc.vF = v ∧
      t.rgc.samples = s.rgc.samples ∧ t.rgc.pTrim = (v - s.cfg.vReg) * s.cfg.kTrim ∧
      t.rgc.capacity = ((allBanks.filter fun b => s.cfg.bank b && !t.pru.bankEx.get b).map fun b =>
        s.cfg.vReg * s.cfg.vReg * s.lmu.dBank b / (s.cfg.resistance.get b * 1000)).sum ∧
      (∀ b, t.lmu.dBank b = s.lmu.dBank b) ∧
      (s.cfl.guardOn = false → { t.lmu with commanded := s.lmu.commanded } = s.lmu) ∧
      (s.cfl.guardOn = true →
        s.dmc.mode = .starting ∨ s.dmc.mode = .standby ∨ s.dmc.mode = .tripped →
        t.lmu.factorOf .linkLow .allWheels = 1000 ∧ t.lmu.undervolt = false ∧
        t.lmu.undervoltCount = 0 ∧ t.lmu.undervoltClear = 0 ∧
        (s.lmu.undervolt = true → t.pru.observed .linkUndervolt .global false)) ∧
      (s.cfl.guardOn = true →
        s.dmc.mode = .ready ∨ s.dmc.mode = .drive ∨ s.dmc.mode = .safeStop →
        t.lmu.factorOf .linkLow .allWheels =
          (if s.cfg.vLow ≤ v then 1000 else if v ≤ s.cfg.vMin then 0
          else (v - s.cfg.vMin) * 1000 / (s.cfg.vLow - s.cfg.vMin)) ∧
        (s.lmu.undervolt = false →
          t.lmu.undervoltCount = (if v < s.cfg.vMin then min 25 (s.lmu.undervoltCount + 1) else 0) ∧
          t.lmu.undervolt = decide (v < s.cfg.vMin ∧ 25 ≤ s.lmu.undervoltCount + 1)) ∧
        (s.lmu.undervolt = true →
          t.lmu.undervoltClear = (if s.cfg.vMin ≤ v then min 25 (s.lmu.undervoltClear + 1) else 0) ∧
          t.lmu.undervolt = !decide (s.cfg.vMin ≤ v ∧ 25 ≤ s.lmu.undervoltClear + 1)) ∧
        (t.lmu.undervolt ≠ s.lmu.undervolt →
          t.pru.observed .linkUndervolt .global t.lmu.undervolt)) ∧
      (s.cfg.vTrip < v → t.pru.observed .linkOvervolt .global true) ∧
      (v + 100 < s.cfg.vTrip → t.pru.observed .linkOvervolt .global false) ∧
      (v ≤ s.cfg.vTrip → s.cfg.vTrip ≤ v + 100 →
        t.pru.entries.filter (fun e => e.kind == .linkOvervolt) =
          (s.pru.entries.filter (fun e => e.kind == .linkOvervolt)).map fun e =>
            { e with setProgress := 0, clearProgress := 0 }) ∧
      (s.delivered = true → s.pru.noEntry .linkOvervolt .global → v ≤ s.cfg.vTrip →
        s.lmu.undervolt = false → s.cfg.vMin ≤ v → ∀ g : GridTest, s.rgc.test = some g →
        (s.dmc.mode = .ready ∧ s.standstill = false → t.rgc.test = none) ∧
        (¬(s.dmc.mode = .ready ∧ s.standstill = false) → ∀ b, g.current = some b →
          t.rgc.test = some { g with lowest := min g.lowest v } ∧
          (t.rgc.shows.get b).lowest = min (s.rgc.shows.get b).lowest v))

/-- HOLD_UPDATE (R125). Where hold does not run, its values rest at OFF and 0, and ENVELOPE_EXCEEDED
is absent. Where it runs: the envelope speed from the payload band, the grade band, the direction's
maximum and the payload speed cap (R126), the hold mode and the forced-retard flag (R127), the
integrator and d_hold (R128), and the exceed and clear times with their condition (R129). The
shortfall and recovery times follow R142, over the wheels that the TQA's last event found active.
The allocation period of the configuration is taken up (R26). Where the condition stays and no
delivery is due, SHORTFALL enters and leaves the cause set with its times, POST_RESET leaves it at
standstill, the other causes stay (R142, R143), a change raises BRAKE_ASSIST, and a change from
empty to not empty starts the pulse in PULSE (R144); only these fields change, and the RGC section,
which shows them (R145). A change of ENVELOPE_EXCEEDED moves its cause. The output follows the set
in LEVEL, and in PULSE the timer and TRIPPED (R144). That an unknown V_ref clears the forced-retard
flag is the model's choice (assumption log 50), and what the two times hold after a change of
SHORTFALL is its reading (assumption log 32). -/
def Obligations.HoldUpdated : Prop :=
  (∀ s : State, s.brakeAssist = true ↔
    if s.cfg.outputMode = 1 then s.rgc.pulse ≠ none ∨ s.dmc.mode = .tripped
    else s.rgc.causes.shortfall = true ∨ s.rgc.causes.envelope = true ∨
      s.rgc.causes.tripped = true ∨ s.rgc.causes.safeStop = true ∨
      s.rgc.causes.postReset = true) ∧
  ∀ (s : State) (g : Int) (top row col ms : Nat), s.isRunning = true → s.pru.ok →
    (g = if s.dmc.adopted = .forward then -s.dmc.demand.grade else s.dmc.demand.grade) →
    (top = if s.dmc.adopted = .forward then s.tqa.maxForward else s.tqa.maxReverse) →
    row = (match s.lmu.payload with
      | some p => min 5 ((p * 1000 / s.cfg.ratedPayload - 1) / 200)
      | none => 5) →
    (col = if s.dmc.demand.gradeKnown then min 7 ((g.toNat - 1) / 20) else 7) →
    ms = s.cfg.allocPeriod →
    ∃ t, exec .holdUpdate s = .next t ∧ Undisturbed s t ∧ t.rgc.period = ms ∧
      (¬((s.dmc.mode = .drive ∨ s.dmc.mode = .safeStop) ∧ s.dmc.adopted ≠ .neutral) →
        t.rgc.hold = .off ∧ t.rgc.vEnv = 0 ∧ t.rgc.vHoldEff = 0 ∧ t.rgc.integrator = 0 ∧
        t.rgc.dHold = 0 ∧ t.rgc.forced = false ∧ t.rgc.exceedTime = 0 ∧ t.rgc.clearTime = 0 ∧
        t.rgc.exceeded = false) ∧
      ((s.dmc.mode = .drive ∨ s.dmc.mode = .safeStop) ∧ s.dmc.adopted ≠ .neutral →
        t.rgc.vEnv = (if s.dmc.demand.gradeKnown = true ∧ g ≤ 0 then top
          else min (min (s.rgc.table.getD (8 * row + col) 0) top) (s.lmu.speedCap.getD top)) ∧
        (s.tcu.vRef = none → t.rgc.hold = .off ∧ t.rgc.vHoldEff = 0 ∧ t.rgc.integrator = 0 ∧
          t.rgc.dHold = 0 ∧ t.rgc.forced = false ∧ t.rgc.exceedTime = 0 ∧ t.rgc.clearTime = 0 ∧
          t.rgc.exceeded = s.rgc.exceeded) ∧
        ∀ v, s.tcu.vRef = some v →
          (0 < s.dmc.demand.holdSpeed → t.rgc.hold = .setpoint ∧
            t.rgc.vHoldEff = min s.dmc.demand.holdSpeed t.rgc.vEnv) ∧
          (s.dmc.demand.holdSpeed = 0 → t.rgc.vEnv < v →
            t.rgc.hold = .envelope ∧ t.rgc.vHoldEff = t.rgc.vEnv) ∧
          (s.dmc.demand.holdSpeed = 0 → v ≤ t.rgc.vEnv → t.rgc.hold = .off ∧ t.rgc.vHoldEff = 0) ∧
          (∀ live : Prop, (live ↔ 0 < s.dmc.demand.propel ∧ s.dmc.masks.mode = false ∧
              s.dmc.masks.pending = false ∧ s.dmc.masks.stale = false ∧ s.dmc.masks.brake = false) →
            (t.rgc.forced = true ↔ live ∧ t.rgc.vEnv < v) ∧
            (t.rgc.hold = .off ∨ live ∧ v ≤ t.rgc.vEnv →
              t.rgc.integrator = 0 ∧ t.rgc.dHold = 0) ∧
            (t.rgc.hold ≠ .off → ¬(live ∧ v ≤ t.rgc.vEnv) → ∀ (e inc : Int) (frozen : Prop),
              e = (v : Int) - t.rgc.vHoldEff → inc = divInt s.cfg.nearest (s.cfg.ki * e * ms) 10 →
              (frozen ↔ s.dmc.substate = .retard ∧
                (∃ w, (s.tqa.wheels.get w).flags.inactive = false) ∧
                ∀ w, (s.tqa.wheels.get w).flags.inactive = false →
                  (s.tqa.wheels.get w).binding ∈ [.power, .derate, .slip, .capacity, .clamp]) →
              (frozen ∧ 0 < inc → t.rgc.integrator = min 1000000 s.rgc.integrator) ∧
              (¬(frozen ∧ 0 < inc) →
                t.rgc.integrator = min 1000000 ((s.rgc.integrator : Int) + inc).toNat) ∧
              t.rgc.dHold = min 1000 (divInt s.cfg.nearest (s.cfg.kp * e) 10 +
                divInt s.cfg.nearest t.rgc.integrator 1000).toNat)) ∧
          (t.rgc.vEnv + 20 < v → t.rgc.exceedTime = min 1000 (s.rgc.exceedTime + ms) ∧
            t.rgc.clearTime = 0 ∧
            t.rgc.exceeded = (s.rgc.exceeded || decide (1000 ≤ t.rgc.exceedTime))) ∧
          (v ≤ t.rgc.vEnv → t.rgc.clearTime = min 1000 (s.rgc.clearTime + ms) ∧
            t.rgc.exceedTime = 0 ∧
            t.rgc.exceeded = (s.rgc.exceeded && !decide (1000 ≤ t.rgc.clearTime))) ∧
          (t.rgc.vEnv < v → v ≤ t.rgc.vEnv + 20 → t.rgc.exceedTime = 0 ∧ t.rgc.clearTime = 0 ∧
            t.rgc.exceeded = s.rgc.exceeded)) ∧
      (t.rgc.exceeded ≠ s.rgc.exceeded → Cls.envelope.isIn t.atc.pending = true ∧
        t.pru.observed .envelopeExceeded .global t.rgc.exceeded ∧
        t.rgc.causes.envelope = t.rgc.exceeded ∧
        (s.rgc.causes.envelope ≠ t.rgc.exceeded →
          Cls.brakeAssist.isIn t.atc.pending = true)) ∧
      (s.dmc.substate ≠ .retard → t.rgc.shortfallTime = 0 ∧ t.rgc.recoveryTime = 0) ∧
      (∀ held asked : Nat,
        held = s.retarding (fun x => x.reference.natAbs) →
        asked = s.retarding TqaWheel.request →
        s.dmc.substate = .retard →
        (s.rgc.causes.shortfall = false → t.rgc.shortfallTime =
          if 0 < asked ∧ held * 1000 < 900 * asked then
            (if 300 ≤ s.rgc.shortfallTime + ms then 300 else s.rgc.shortfallTime + ms) else 0) ∧
        (s.rgc.causes.shortfall = true → t.rgc.recoveryTime =
          if asked = 0 ∨ 950 * asked ≤ held * 1000 then
            (if 300 ≤ s.rgc.recoveryTime + ms then 300 else s.rgc.recoveryTime + ms) else 0)) ∧
      (s.delivered = true → t.rgc.exceeded = s.rgc.exceeded → ∀ c : Causes,
        c = { s.rgc.causes with
          shortfall := s.dmc.substate == .retard &&
            (if s.rgc.causes.shortfall then decide (t.rgc.recoveryTime < 300)
            else decide (300 ≤ t.rgc.shortfallTime))
          postReset := s.rgc.causes.postReset && !s.standstill } →
        t.rgc.causes = c ∧
          (c ≠ s.rgc.causes → Cls.brakeAssist.isIn t.atc.pending = true) ∧
          t.rgc.pulse = (if s.cfg.outputMode = 1 ∧ s.rgc.causes.any = false ∧ c.shortfall = true
            then some (s.clock + 500) else s.rgc.pulse)) ∧
      (s.delivered = true → t.rgc.exceeded = s.rgc.exceeded →
        (s.wlc.placed → t.showsAt 0x2060 t.rgcWords) ∧
        SameOutside [(0x2060, 64), pendingRegion] s t ∧
        { t with
          xm := s.xm, atc := { t.atc with pending := s.atc.pending }
          rgc := { t.rgc with
            hold := s.rgc.hold, vEnv := s.rgc.vEnv, vHoldEff := s.rgc.vHoldEff
            integrator := s.rgc.integrator, dHold := s.rgc.dHold, forced := s.rgc.forced
            frozen := s.rgc.frozen, payloadBand := s.rgc.payloadBand
            gradeBand := s.rgc.gradeBand, exceedTime := s.rgc.exceedTime
            clearTime := s.rgc.clearTime, causes := s.rgc.causes, pulse := s.rgc.pulse
            shortfallTime := s.rgc.shortfallTime, recoveryTime := s.rgc.recoveryTime
            period := s.rgc.period } } = s)

/-- ROTATION_REVIEW and GRID_DEMAND_ARRIVAL. A review sorts the rotation order, the configured banks
that are not excluded, coolest first and equal stores by number (R131), and recomputes the blower
duty by the law over the hottest configured bank and its floor (R137); that the duty is 0 in phase
LOAD is the model's reading (assumption log 31). The configured banks' sections show it (R145). An
arrival takes an unprocessed demand record: where the bank channels run, the banks of the order
share the need in turn, skipping a bank in TEST, each up to its cap, and what is left is the grid
unmet; with V_f below 100 V every duty is 0, which reaches no bank in TEST by the model's choice
(assumption log 41); elsewhere need and unmet are 0 and no shadow is written (R132). That the
full-duty power of each configured bank is taken at every arrival, also where no distribution is
made, is the model's choice (assumption log 25). -/
def Obligations.GridWork : Prop :=
  (∀ s : State, s.isRunning = true → ∃ t, exec .rotationReview s = .next t ∧
    (∀ b, b ∈ t.rgc.rotation ↔
      s.cfl.guardOn = true ∧ s.cfg.bank b = true ∧ s.pru.bankEx.get b = false) ∧
    t.rgc.rotation.Pairwise (fun b c => s.lmu.heat.get b < s.lmu.heat.get c ∨
      s.lmu.heat.get b = s.lmu.heat.get c ∧ bankNum b < bankNum c) ∧
    t.rgc.blower.shadow = t.lmu.commanded ∧
    (s.cfl.phase = .load → t.lmu.commanded = 0) ∧
    (∀ (b : Bank) (law : Nat) (theta : Int), s.cfl.phase ≠ .load → s.cfg.bank b = true →
      theta = s.lmu.theta.get b → (∀ c, s.cfg.bank c = true → s.lmu.theta.get c ≤ theta) →
      (law = if theta < 10 * s.cfg.thetaBs then 0
        else if theta < 10 * s.cfg.thetaBf then
          (theta - 10 * s.cfg.thetaBs).toNat * 65536 / (10 * (s.cfg.thetaBf - s.cfg.thetaBs))
        else 65536) →
      t.lmu.commanded =
        if s.dmc.substate = .retard ∨
          (s.dmc.variant = some .cool ∨ s.dmc.variant = some .full) ∧ s.lmu.ambient + 500 < theta
        then max law 19661 else law) ∧
    (s.wlc.placed → s.wlc.apart → ∀ b, s.cfg.bank b = true →
      t.showsIn (s.wlc.bankBlock.get b) 0 (t.bankWords b)) ∧
    SameOutside (s.cfg.banks.flatMap fun b => blockRegion (s.wlc.bankBlock.get b) 0 64) s t ∧
    { t with
      xm := s.xm, lmu := { t.lmu with commanded := s.lmu.commanded }
      rgc := { t.rgc with
        rotation := s.rgc.rotation
        blower := { t.rgc.blower with shadow := s.rgc.blower.shadow } } } = s) ∧
  ∀ s : State, s.isRunning = true →
    (s.rgc.demandNew = false → exec .gridDemandArrival s = .next s) ∧
    (s.rgc.demandNew = true → ∀ runs : Prop,
      (runs ↔ s.dmc.mode = .ready ∨ s.dmc.mode = .drive ∨ s.dmc.mode = .safeStop ∨
        s.dmc.mode = .tripped ∧ s.rgc.discharge ≠ none) →
      ∃ t, exec .gridDemandArrival s = .next t ∧ t.rgc.demandNew = false ∧
        (¬runs → t.rgc.need = 0 ∧ t.rgc.unmet = 0 ∧ t.rgc.chans = s.rgc.chans) ∧
        (runs → t.rgc.need = s.rgc.demand + s.rgc.pTrim) ∧
        (runs → s.rgc.vF < 100 → t.rgc.unmet = t.rgc.need ∧ ∀ b ∈ s.rgc.rotation,
          (s.rgc.chans.get b).state = .run → (t.rgc.chans.get b).shadow = 0) ∧
        (runs → 100 ≤ s.rgc.vF → s.rgc.rotation.Nodup → ∃ remaining : Nat → Nat,
          remaining 0 = t.rgc.need ∧ remaining s.rgc.rotation.length = t.rgc.unmet ∧
          ∀ (i : Nat) (b : Bank) (full cap left : Nat), s.rgc.rotation[i]? = some b →
            full = s.rgc.vF * s.rgc.vF / s.cfg.resistance.get b →
            cap = s.lmu.dBank b * 65536 / 1000 → left = remaining i →
            ((s.rgc.chans.get b).state = .test → remaining (i + 1) = left) ∧
            ((s.rgc.chans.get b).state ≠ .test → ∃ duty,
              ((s.rgc.chans.get b).state = .run → (t.rgc.chans.get b).shadow = duty) ∧
              (full = 0 ∨ left = 0 → duty = 0 ∧ remaining (i + 1) = left) ∧
              (full ≠ 0 → left ≠ 0 → duty = min cap (left * 65536 / full) ∧
                (duty = cap → remaining (i + 1) = left - cap * full / 65536) ∧
                (duty ≠ cap → remaining (i + 1) = 0)))) ∧
        (∀ b, s.rgc.rotation.contains b = false ∨ (s.rgc.chans.get b).state ≠ .run →
          t.rgc.chans.get b = s.rgc.chans.get b) ∧
        (∀ b, { t.rgc.chans.get b with shadow := (s.rgc.chans.get b).shadow } =
          s.rgc.chans.get b) ∧
        (∀ b, t.rgc.shows.get b = { s.rgc.shows.get b with
          pFull := if s.cfg.bank b then s.rgc.vF * s.rgc.vF / s.cfg.resistance.get b
            else (s.rgc.shows.get b).pFull }) ∧
        { t with
          rgc := { t.rgc with
            demandNew := s.rgc.demandNew, need := s.rgc.need, unmet := s.rgc.unmet
            chans := s.rgc.chans, shows := s.rgc.shows } } = s)

/-- CHANNEL_PERIOD_START and ON_EXPIRY. A channel in RUN or TEST takes its shadow and decides the
period by the rows of R135, counting a pulse that begins and adding the phase that ends (R134,
R136); a channel in OFF or BLOCKED does nothing. The blower's start takes up the chopper period
(R134). In a grid test the current bank's pulse is counted, and the count reached marks the test as
waiting for that pulse's end; then the bank passes, and the next waiting bank is started or the test
ends with OK (R140), whose detail words 5 to 7 are 0 by the model's reading (assumption log 9), the
order completed within the event (assumption log 28). An ON expiry ends a phase that is not full on;
that at any other time it has no effect is the model's reading (assumption log 6). -/
def Obligations.ChannelPeriods : Prop :=
  (∀ (s : State) (b : Bank), s.isRunning = true →
    ((s.rgc.chans.get b).state = .off ∨ (s.rgc.chans.get b).state = .blocked →
      exec (.channelPeriodStart (.bank b)) s = .next s) ∧
    ((s.rgc.chans.get b).state = .run ∨ (s.rgc.chans.get b).state = .test →
      (∀ g, s.rgc.test = some g → g.current ≠ some b) →
      ∃ c, PeriodRow s.rgc.chopper s.cfg.minTime (s.rgc.chans.get b) c ∧
        exec (.channelPeriodStart (.bank b)) s = .next { s with
          rgc := { s.rgc with chans := s.rgc.chans.set b c } }) ∧
    (∀ g : GridTest, (s.rgc.chans.get b).state = .test → s.rgc.test = some g →
      g.current = some b → g.finishing = false →
      ∃ t, exec (.channelPeriodStart (.bank b)) s = .next t ∧
        PeriodRow s.rgc.chopper s.cfg.minTime (s.rgc.chans.get b) (t.rgc.chans.get b) ∧
        (∀ d, d ≠ b → t.rgc.chans.get d = s.rgc.chans.get d) ∧
        ((t.rgc.chans.get b).gate = false → t.rgc.shows = s.rgc.shows ∧ t.rgc.test = some g) ∧
        ((t.rgc.chans.get b).gate = true →
          t.rgc.shows = s.rgc.shows.set b { s.rgc.shows.get b with
            delivered := (s.rgc.shows.get b).delivered + 1 } ∧
          t.rgc.test = some { g with
            finishing := decide (g.count ≤ (s.rgc.shows.get b).delivered + 1) }) ∧
        SameOutside (blockRegion (s.wlc.bankBlock.get b) 0 64) s t ∧
        { t with
          xm := s.xm
          rgc := { t.rgc with
            chans := s.rgc.chans, shows := s.rgc.shows, test := s.rgc.test } } = s) ∧
    (∀ (g : GridTest) (c : Instr), s.rgc.test = some g → g.current = some b →
      g.finishing = true → s.wlc.placed → s.ore.grid = some g.cell →
      s.cfl.guardOn = true → s.cfg.bank b = true → s.pru.bankEx.get b = false →
      (s.rgc.chans.get b).state = .test →
      g.passed.contains b = false → g.skipped.contains b = false → g.waiting.contains b = false →
      (c = .channelPeriodStart (.bank b) ∨ c = .onExpiry (.bank b) ∧
        (s.rgc.chans.get b).gate = true ∧ (s.rgc.chans.get b).fullOn = false) →
      ∃ t, exec c s = .next t ∧ (t.rgc.shows.get b).result = .pass ∧
        (t.rgc.chans.get b).gate = false ∧ (t.rgc.chans.get b).state ≠ .test ∧
        (t.rgc.chans.get b).onTotal = (s.rgc.chans.get b).onTotal +
          (if (s.rgc.chans.get b).gate then (s.rgc.chans.get b).onTime else 0) ∧
        (t.rgc.chans.get b).pulses = (s.rgc.chans.get b).pulses ∧
        (∀ d rest, g.waiting = d :: rest → t.ore = s.ore ∧
          t.rgc.test = some { g with
            passed := g.passed ++ [b], current := some d, waiting := rest, finishing := false
            lowest := min g.lowest s.rgc.vF } ∧
          (t.rgc.shows.get d).before = s.rgc.vF ∧ (t.rgc.shows.get d).lowest = s.rgc.vF ∧
          (t.rgc.shows.get d).delivered = 0) ∧
        (g.waiting = [] → t.rgc.test = none ∧ t.ore = { s.ore with grid := none } ∧
          Cls.orderDone.isIn t.atc.pending = true ∧
          t.cellEnded g.cell .ok [bankSet (g.passed ++ [b]), bankSet g.skipped, bankSet g.aborted,
            0, natWord g.lowest] s.clock) ∧
        (∀ a, hostByte a = true → t.xm.byte a = s.xm.byte a) ∧
        { t with atc := s.atc, xm := s.xm, ore := s.ore, rgc := s.rgc, draws := s.draws } = s) ∧
    ((s.rgc.chans.get b).gate = false ∨ (s.rgc.chans.get b).fullOn = true →
      exec (.onExpiry (.bank b)) s = .next s) ∧
    ((s.rgc.chans.get b).gate = true → (s.rgc.chans.get b).fullOn = false →
      (∀ g, s.rgc.test = some g → ¬(g.current = some b ∧ g.finishing = true)) →
      exec (.onExpiry (.bank b)) s = .next { s with
        rgc := { s.rgc with
          chans := s.rgc.chans.set b { s.rgc.chans.get b with
            gate := false, onTime := 0, lastOn := (s.rgc.chans.get b).onTime
            onTotal := (s.rgc.chans.get b).onTotal + (s.rgc.chans.get b).onTime } } })) ∧
  ∀ s : State, s.isRunning = true →
    (s.rgc.blower.state = .off ∨ s.rgc.blower.state = .blocked →
      exec (.channelPeriodStart .blower) s = .next { s with
        rgc := { s.rgc with chopper := s.cfg.chopperPeriod } }) ∧
    (s.rgc.blower.state = .run ∨ s.rgc.blower.state = .test →
      ∃ c, PeriodRow s.cfg.chopperPeriod s.cfg.minTime s.rgc.blower c ∧
        exec (.channelPeriodStart .blower) s = .next { s with
          rgc := { s.rgc with chopper := s.cfg.chopperPeriod, blower := c } }) ∧
    (s.rgc.blower.gate = false ∨ s.rgc.blower.fullOn = true →
      exec (.onExpiry .blower) s = .next s) ∧
    (s.rgc.blower.gate = true → s.rgc.blower.fullOn = false →
      exec (.onExpiry .blower) s = .next { s with
        rgc := { s.rgc with
          blower := { s.rgc.blower with
            gate := false, onTime := 0, lastOn := s.rgc.blower.onTime
            onTotal := s.rgc.blower.onTotal + s.rgc.blower.onTime } } })

/-- DISCHARGE_EXPIRY, PULSE_EXPIRY and CALIBRATION_EXPIRY act once the drive clock has reached the
timer's end, and before that, or with the timer stopped, change nothing (assumption log 6). The
discharge timer's end takes every bank channel in TRIPPED to OFF, or BLOCKED, with its gate off
(R138); the pulse timer's end ends the pulse (R144); 30 s after its start a calibration ends with
TIMEOUT, the detail laid out as R157 gives (R158; its words beyond those are 0 by assumption log 9,
and the completion within the event is assumption log 28). -/
def Obligations.GridTimersExpire : Prop :=
  ∀ s : State, s.isRunning = true →
    (∀ due, s.rgc.discharge = some due → s.dmc.mode = .tripped → s.rgc.test = none →
      (s.clock - due).toNat < 2 ^ 31 →
      (∀ b, (s.rgc.chans.get b).gate = true → (s.rgc.chans.get b).state = .run) →
      ∃ t, exec .dischargeExpiry s = .next t ∧ t.rgc.discharge = none ∧
        (∀ b, (t.rgc.chans.get b).gate = false ∧ (t.rgc.chans.get b).state =
          if s.cfl.guardOn = true ∧ s.cfg.bank b = true ∧ s.pru.bankEx.get b = true then .blocked
          else .off) ∧
        (∀ b, (s.rgc.chans.get b).state = .run →
          (t.rgc.chans.get b).duty = 0 ∧ (t.rgc.chans.get b).shadow = 0) ∧
        SameOutside (s.cfg.banks.flatMap fun b => blockRegion (s.wlc.bankBlock.get b) 0 64) s t ∧
        { t with
          xm := s.xm, draws := s.draws
          rgc := { t.rgc with discharge := s.rgc.discharge, chans := s.rgc.chans } } = s) ∧
    (∀ due, s.rgc.pulse = some due → (s.clock - due).toNat < 2 ^ 31 →
      exec .pulseExpiry s = .next { s with rgc := { s.rgc with pulse := none } }) ∧
    ((∀ due, s.rgc.discharge = some due → 2 ^ 31 ≤ (s.clock - due).toNat) →
      exec .dischargeExpiry s = .next s) ∧
    ((∀ due, s.rgc.pulse = some due → 2 ^ 31 ≤ (s.clock - due).toNat) →
      exec .pulseExpiry s = .next s) ∧
    (s.stc.cal ≠ .none → 30000 ≤ (s.clock - s.stc.calStart).toNat →
      s.ore.steer = some s.stc.calCell → s.wlc.placed → ∃ t, exec .calibrationExpiry s = .next t ∧
        t.stc = { s.stc with cal := .none, calResult := .timeout } ∧
        t.ore = { s.ore with steer := none } ∧
        t.cellEnded s.stc.calCell .timeout
          (if s.wlc.sau.held = .none then [0, 0, 0, natWord (s.clock - s.stc.calStart).toNat]
          else [0, s.wlc.sau.report.flags.setWidth 16, s.wlc.sau.report.field1,
            natWord (s.clock - s.stc.calStart).toNat]) s.clock ∧
        Raised [.orderDone] s t ∧ (∀ a, hostByte a = true → t.xm.byte a = s.xm.byte a) ∧
        { t with atc := s.atc, xm := s.xm, ore := s.ore, stc := s.stc } = s) ∧
    (s.stc.cal = .none ∨ (s.clock - s.stc.calStart).toNat < 30000 →
      exec .calibrationExpiry s = .next s)

/-! ## Heat and load -/

/-- THERMAL_SAMPLE. While the guard state is 0 it does nothing (R161). While it is 1: the ambient
(R161); the judgement of BLOWER_RUN with its counts, condition and derate, and the duty used (R165);
the store, the temperature, the GRID_HEAT factor and GRID_HOT of each configured bank (R162, R164);
the WINDING and UNIT_REQUEST factors and WINDING_HOT of each wheel that holds a report (R166, R167);
the standstill count and the latched payload (R168); and the payload effects (R169). A derate that
comes or goes raises DERATE_CHANGE (R171). Each configured bank's on-time accumulator is read and
set to 0 (R162, R136); only a phase that a delivery of the fault table then cuts enters it again.
The LMU's section and the configured banks' sections show it (R173). A bank that is not configured
keeps its store and temperature, which is the model's reading (assumption log 33), and loses its
factor and condition. The payload is latched only from a record that holds one (assumption log 27),
and the other count starts from 0 at a change of WINDING_HOT (assumption log 32). -/
def Obligations.ThermalSampled : Prop :=
  ∀ (s : State) (run : Level), s.isRunning = true →
    (s.cfl.guardOn = false → s.delivered = true → exec (.thermalSample run) s = .next s) ∧
    (s.cfl.guardOn = true → s.lmu.ok → s.pru.ok →
      ∃ t, exec (.thermalSample run) s = .next t ∧ Undisturbed s t ∧
        t.lmu.ambient = 10 * s.dmc.demand.ambient.getD (s.cfg.designAmbient : Int) ∧
        (s.lmu.blowerFail = false → 19661 ≤ s.lmu.commanded → run = .low →
          t.lmu.inactive = min 30 (s.lmu.inactive + 1) ∧
          t.lmu.blowerFail = decide (30 ≤ s.lmu.inactive + 1) ∧
          (t.lmu.blowerFail = true → t.lmu.activeCount = 0 ∧
            t.lmu.factorOf .blower .allBanks = 250)) ∧
        (s.lmu.blowerFail = false → s.lmu.commanded < 19661 ∨ run = .high →
          t.lmu.inactive = 0 ∧ t.lmu.blowerFail = false) ∧
        (s.lmu.blowerFail = true → run = .high →
          t.lmu.activeCount = min 10 (s.lmu.activeCount + 1) ∧
          t.lmu.blowerFail = decide (s.lmu.activeCount + 1 < 10) ∧
          (t.lmu.blowerFail = false → t.lmu.inactive = 0 ∧
            t.lmu.factorOf .blower .allBanks = 1000)) ∧
        (s.lmu.blowerFail = true → run = .low → t.lmu.activeCount = 0 ∧ t.lmu.blowerFail = true) ∧
        (t.lmu.blowerFail ≠ s.lmu.blowerFail →
          t.pru.observed .blowerFail .global t.lmu.blowerFail) ∧
        t.lmu.dutyUsed = (if t.lmu.blowerFail then 0 else s.lmu.commanded) ∧
        (∀ (b : Bank) (onUs : Nat) (put off : Int), s.cfg.bank b = true →
          onUs = (s.rgc.chans.get b).onTotal →
          put = (s.rgc.vF * s.rgc.vF * onUs / (s.cfg.resistance.get b * 1000) : Nat) →
          off = ((s.cfg.gNat + s.cfg.gBlow * t.lmu.dutyUsed / 65536 : Nat) *
            (s.lmu.theta.get b - t.lmu.ambient)).tdiv 100 →
          t.lmu.heat.get b = min (s.cfg.capacity.get b * 1000)
            ((s.lmu.heat.get b : Int) + put - off).toNat ∧
          t.lmu.theta.get b =
            t.lmu.ambient + (t.lmu.heat.get b * 10 / s.cfg.capacity.get b : Nat) ∧
          t.lmu.onUs.get b = onUs ∧ (t.lmu.eIn.get b : Int) = put ∧ t.lmu.eOut.get b = off ∧
          (t.rgc.chans.get b).onTotal ≤ (s.rgc.chans.get b).onTime ∧
          ((t.rgc.chans.get b).gate = (s.rgc.chans.get b).gate →
            (t.rgc.chans.get b).onTotal = 0) ∧
          (t.lmu.theta.get b ≤ 10 * s.cfg.thetaOn →
            t.lmu.factorOf .gridHeat (.bank b) = 1000) ∧
          (10 * s.cfg.thetaOn < t.lmu.theta.get b → t.lmu.theta.get b < 10 * s.cfg.thetaTrip →
            t.lmu.factorOf .gridHeat (.bank b) =
              (10 * s.cfg.thetaTrip - t.lmu.theta.get b).toNat * 1000 /
                (10 * s.cfg.thetaTrip - 10 * s.cfg.thetaOn)) ∧
          (10 * s.cfg.thetaOn < t.lmu.theta.get b → 10 * s.cfg.thetaTrip ≤ t.lmu.theta.get b →
            t.lmu.factorOf .gridHeat (.bank b) = 0) ∧
          (s.lmu.hot.get b = false →
            t.lmu.hot.get b = decide (10 * s.cfg.thetaTrip ≤ t.lmu.theta.get b) ∧
            t.lmu.hotClear.get b = 0) ∧
          (s.lmu.hot.get b = true → t.lmu.theta.get b < 10 * ((s.cfg.thetaTrip : Int) - 50) →
            t.lmu.hotClear.get b = min 10 (s.lmu.hotClear.get b + 1) ∧
            t.lmu.hot.get b = decide (s.lmu.hotClear.get b + 1 < 10)) ∧
          (s.lmu.hot.get b = true → 10 * ((s.cfg.thetaTrip : Int) - 50) ≤ t.lmu.theta.get b →
            t.lmu.hotClear.get b = 0 ∧ t.lmu.hot.get b = true) ∧
          (t.lmu.hot.get b ≠ s.lmu.hot.get b →
            t.pru.observed .gridHot (.bank b) (t.lmu.hot.get b))) ∧
        (∀ b, s.cfg.bank b = false → t.lmu.heat.get b = s.lmu.heat.get b ∧
          t.lmu.theta.get b = s.lmu.theta.get b ∧ t.lmu.hot.get b = false ∧
          t.lmu.hotClear.get b = 0 ∧ t.lmu.factorOf .gridHeat (.bank b) = 1000 ∧
          (s.lmu.hot.get b = true → t.pru.observed .gridHot (.bank b) false)) ∧
        (∀ (w : Wheel) (temp : Int), s.cfg.wheel w = true → (s.wlc.wheels.get w).held ≠ .none →
          temp = (s.wlc.wheels.get w).report.field2.toInt →
          t.lmu.factorOf .winding (.wheel w) =
            (if temp ≤ s.cfg.windingOnset then 1000
            else if (s.cfg.windingLimit : Int) ≤ temp then 0
            else ((s.cfg.windingLimit : Int) - temp).toNat * 1000 /
              (s.cfg.windingLimit - s.cfg.windingOnset)) ∧
          t.lmu.factorOf .unitRequest (.wheel w) =
            min 1000 (s.wlc.wheels.get w).report.field3.toNat ∧
          (s.lmu.windingHot.get w = false →
            t.lmu.windingCount.get w = (if (s.cfg.windingLimit : Int) ≤ temp
              then min 2 (s.lmu.windingCount.get w + 1) else 0) ∧
            t.lmu.windingHot.get w = decide ((s.cfg.windingLimit : Int) ≤ temp ∧
              2 ≤ s.lmu.windingCount.get w + 1)) ∧
          (s.lmu.windingHot.get w = true →
            t.lmu.windingClear.get w = (if temp < (s.cfg.windingLimit : Int) - 10
              then min 10 (s.lmu.windingClear.get w + 1) else 0) ∧
            t.lmu.windingHot.get w = !decide (temp < (s.cfg.windingLimit : Int) - 10 ∧
              10 ≤ s.lmu.windingClear.get w + 1)) ∧
          (t.lmu.windingHot.get w ≠ s.lmu.windingHot.get w →
            t.pru.observed .windingHot (.wheel w) (t.lmu.windingHot.get w) ∧
            (if t.lmu.windingHot.get w then t.lmu.windingClear.get w = 0
            else t.lmu.windingCount.get w = 0))) ∧
        (∀ w, s.cfg.wheel w = true → (s.wlc.wheels.get w).held = .none →
          t.lmu.factorOf .winding (.wheel w) = s.lmu.factorOf .winding (.wheel w) ∧
          t.lmu.factorOf .unitRequest (.wheel w) = s.lmu.factorOf .unitRequest (.wheel w) ∧
          t.lmu.windingHot.get w = s.lmu.windingHot.get w ∧
          t.lmu.windingCount.get w = s.lmu.windingCount.get w ∧
          t.lmu.windingClear.get w = s.lmu.windingClear.get w) ∧
        (∀ w, s.cfg.wheel w = false → t.lmu.factorOf .winding (.wheel w) = 1000 ∧
          t.lmu.factorOf .unitRequest (.wheel w) = 1000 ∧ t.lmu.windingHot.get w = false ∧
          t.lmu.windingCount.get w = 0 ∧ t.lmu.windingClear.get w = 0 ∧
          (s.lmu.windingHot.get w = true → t.pru.observed .windingHot (.wheel w) false)) ∧
        (s.standstill = false → t.lmu.standstill = 0 ∧ t.lmu.payload = s.lmu.payload) ∧
        (s.standstill = true → t.lmu.standstill = min 20 (s.lmu.standstill + 1) ∧
          t.lmu.payload = (if 20 ≤ s.lmu.standstill + 1 ∧ s.dmc.demand.payloadKnown = true
            then some s.dmc.demand.payload else s.lmu.payload)) ∧
        (∀ ratio : Nat, ratio = (match t.lmu.payload with
            | some p => p * 1000 / s.cfg.ratedPayload
            | none => 0) →
          (ratio ≤ 1100 → t.lmu.factorOf .payload .allWheels = 1000 ∧ t.lmu.speedCap = none ∧
            t.lmu.overload = false) ∧
          (1100 < ratio → ratio ≤ 1200 →
            t.lmu.factorOf .payload .allWheels = 1000 - 3 * (ratio - 1100) ∧
            t.lmu.speedCap = some 400 ∧ t.lmu.overload = false) ∧
          (1200 < ratio → t.lmu.factorOf .payload .allWheels = 300 ∧
            t.lmu.speedCap = some 80 ∧ t.lmu.overload = true)) ∧
        (t.lmu.overload ≠ s.lmu.overload →
          t.pru.observed .payloadOverload .global t.lmu.overload) ∧
        (∀ source target, decide (t.lmu.factorOf source target < 1000) ≠
            decide (s.lmu.factorOf source target < 1000) →
          Cls.derateChange.isIn t.atc.pending = true) ∧
        (s.wlc.placed → t.showsAt 0x20C0 (t.lmu.words s.cfg s.clock) ∧
          (s.wlc.apart → ∀ b, s.cfg.bank b = true →
            t.showsIn (s.wlc.bankBlock.get b) 0x40 (t.lmu.bankWords b s.clock))) ∧
        t.lmu.undervolt = s.lmu.undervolt ∧ t.rgc.vF = s.rgc.vF ∧ t.rgc.demand = s.rgc.demand)

/-- The rows in which a condition's count is reached (R129, R142, R164 to R166, R170). Each acts
when the condition stands the other way, the quantity observed in the state is the one that counts,
and the count is one short; it then leaves the count at its bound, turns the condition and reports
it, BLOWER_FAIL with its derate, ENVELOPE_EXCEEDED with its class and cause. Otherwise it has no
effect. That the row is the observation that completes the count, and takes the observed quantity
from the state, is the model's reading (assumption log 5), and so is the other count's 0 (assumption
log 32). -/
def Obligations.ConditionsChange : Prop :=
  (∀ s : State, s.isRunning = true → s.pru.ok → ∀ judged : Prop,
    (judged ↔ s.cfl.guardOn = true ∧
      (s.dmc.mode = .ready ∨ s.dmc.mode = .drive ∨ s.dmc.mode = .safeStop)) →
    (judged ∧ s.lmu.undervolt = false ∧ 24 ≤ s.lmu.undervoltCount ∧ s.rgc.vF < s.cfg.vMin →
      ∃ t, exec .linkUndervoltSet s = .next t ∧ ConditionMoved .linkUndervolt .global true s t ∧
        { t.lmu with commanded := s.lmu.commanded } =
          { s.lmu with undervolt := true, undervoltCount := 25, undervoltClear := 0 }) ∧
    (¬(judged ∧ s.lmu.undervolt = false ∧ 24 ≤ s.lmu.undervoltCount ∧ s.rgc.vF < s.cfg.vMin) →
      s.delivered = true → exec .linkUndervoltSet s = .next s) ∧
    (judged ∧ s.lmu.undervolt = true ∧ 24 ≤ s.lmu.undervoltClear ∧ s.cfg.vMin ≤ s.rgc.vF →
      ∃ t, exec .linkUndervoltClear s = .next t ∧ ConditionMoved .linkUndervolt .global false s t ∧
        { t.lmu with commanded := s.lmu.commanded } =
          { s.lmu with undervolt := false, undervoltCount := 0, undervoltClear := 25 }) ∧
    (¬(judged ∧ s.lmu.undervolt = true ∧ 24 ≤ s.lmu.undervoltClear ∧ s.cfg.vMin ≤ s.rgc.vF) →
      s.delivered = true → exec .linkUndervoltClear s = .next s)) ∧
  (∀ (s : State) (b : Bank), s.isRunning = true → s.pru.ok →
    ∀ due : Prop, (due ↔ s.cfl.guardOn = true ∧ s.cfg.bank b = true ∧ s.lmu.hot.get b = true ∧
      s.lmu.theta.get b < 10 * ((s.cfg.thetaTrip : Int) - 50) ∧ 9 ≤ s.lmu.hotClear.get b) →
    (due → ∃ t, exec (.gridHotClear b) s = .next t ∧ ConditionMoved .gridHot (.bank b) false s t ∧
      { t.lmu with commanded := s.lmu.commanded } =
        { s.lmu with hot := s.lmu.hot.set b false, hotClear := s.lmu.hotClear.set b 10 }) ∧
    (¬due → s.delivered = true → exec (.gridHotClear b) s = .next s)) ∧
  (∀ s : State, s.isRunning = true → s.pru.ok → s.lmu.ok →
    (s.cfl.guardOn = true ∧ s.lmu.blowerFail = false ∧ 19661 ≤ s.lmu.commanded ∧
        29 ≤ s.lmu.inactive →
      ∃ t, exec .blowerFailSet s = .next t ∧ ConditionMoved .blowerFail .global true s t ∧
        t.lmu.factorOf .blower .allBanks = 250 ∧
        (s.lmu.factorOf .blower .allBanks = 1000 → Cls.derateChange.isIn t.atc.pending = true) ∧
        { t.lmu with commanded := s.lmu.commanded, derates := s.lmu.derates } =
          { s.lmu with blowerFail := true, inactive := 30, activeCount := 0 }) ∧
    (¬(s.cfl.guardOn = true ∧ s.lmu.blowerFail = false ∧ 19661 ≤ s.lmu.commanded ∧
        29 ≤ s.lmu.inactive) → s.delivered = true → exec .blowerFailSet s = .next s) ∧
    (s.cfl.guardOn = true ∧ s.lmu.blowerFail = true ∧ 9 ≤ s.lmu.activeCount →
      ∃ t, exec .blowerFailClear s = .next t ∧ ConditionMoved .blowerFail .global false s t ∧
        t.lmu.factorOf .blower .allBanks = 1000 ∧
        (s.lmu.factorOf .blower .allBanks < 1000 → Cls.derateChange.isIn t.atc.pending = true) ∧
        { t.lmu with commanded := s.lmu.commanded, derates := s.lmu.derates } =
          { s.lmu with blowerFail := false, activeCount := 10, inactive := 0 }) ∧
    (¬(s.cfl.guardOn = true ∧ s.lmu.blowerFail = true ∧ 9 ≤ s.lmu.activeCount) →
      s.delivered = true → exec .blowerFailClear s = .next s)) ∧
  (∀ (s : State) (w : Wheel) (temp : Int), s.isRunning = true → s.pru.ok →
    temp = (s.wlc.wheels.get w).report.field2.toInt →
    ∀ held : Prop, (held ↔ s.cfl.guardOn = true ∧ s.cfg.wheel w = true ∧
      (s.wlc.wheels.get w).held ≠ .none) →
    (held ∧ s.lmu.windingHot.get w = false ∧ (s.cfg.windingLimit : Int) ≤ temp ∧
        1 ≤ s.lmu.windingCount.get w →
      ∃ t, exec (.windingHotSet w) s = .next t ∧ ConditionMoved .windingHot (.wheel w) true s t ∧
        { t.lmu with commanded := s.lmu.commanded } = { s.lmu with
          windingHot := s.lmu.windingHot.set w true
          windingCount := s.lmu.windingCount.set w 2
          windingClear := s.lmu.windingClear.set w 0 }) ∧
    (¬(held ∧ s.lmu.windingHot.get w = false ∧ (s.cfg.windingLimit : Int) ≤ temp ∧
        1 ≤ s.lmu.windingCount.get w) → s.delivered = true →
      exec (.windingHotSet w) s = .next s) ∧
    (held ∧ s.lmu.windingHot.get w = true ∧ temp < (s.cfg.windingLimit : Int) - 10 ∧
        9 ≤ s.lmu.windingClear.get w →
      ∃ t, exec (.windingHotClear w) s = .next t ∧
        ConditionMoved .windingHot (.wheel w) false s t ∧
        { t.lmu with commanded := s.lmu.commanded } = { s.lmu with
          windingHot := s.lmu.windingHot.set w false
          windingClear := s.lmu.windingClear.set w 10
          windingCount := s.lmu.windingCount.set w 0 }) ∧
    (¬(held ∧ s.lmu.windingHot.get w = true ∧ temp < (s.cfg.windingLimit : Int) - 10 ∧
        9 ≤ s.lmu.windingClear.get w) → s.delivered = true →
      exec (.windingHotClear w) s = .next s)) ∧
  (∀ (s : State) (runs : Prop), s.isRunning = true → s.pru.ok →
    (runs ↔ (s.dmc.mode = .drive ∨ s.dmc.mode = .safeStop) ∧ s.dmc.adopted ≠ .neutral) →
    (runs ∧ s.rgc.exceeded = false ∧ (∃ v, s.tcu.vRef = some v ∧ s.rgc.vEnv + 20 < v) ∧
        1000 ≤ s.rgc.exceedTime + s.rgc.period →
      ∃ t, exec .envelopeExceededSet s = .next t ∧
        ConditionMoved .envelopeExceeded .global true s t ∧
        Cls.envelope.isIn t.atc.pending = true ∧ t.rgc.exceeded = true ∧
        t.rgc.exceedTime = 1000 ∧ t.rgc.clearTime = 0 ∧
        (s.rgc.causes.envelope = false → Cls.brakeAssist.isIn t.atc.pending = true) ∧
        t.rgc.vEnv = s.rgc.vEnv ∧ t.rgc.dHold = s.rgc.dHold ∧ t.rgc.integrator = s.rgc.integrator ∧
        (s.delivered = true → s.notes .envelopeExceeded = true →
          SameOutside [(0x1800, 768), pendingRegion] s t ∧
          { t with
            xm := s.xm, atc := s.atc, pru := s.pru
            rgc := { t.rgc with pulse := s.rgc.pulse } } = { s with
              rgc := { s.rgc with
                exceeded := true, exceedTime := 1000, clearTime := 0
                causes := { s.rgc.causes with envelope := true } } })) ∧
    (¬(runs ∧ s.rgc.exceeded = false ∧ (∃ v, s.tcu.vRef = some v ∧ s.rgc.vEnv + 20 < v) ∧
        1000 ≤ s.rgc.exceedTime + s.rgc.period) → s.delivered = true →
      exec .envelopeExceededSet s = .next s) ∧
    (runs ∧ s.rgc.exceeded = true ∧ (∃ v, s.tcu.vRef = some v ∧ v ≤ s.rgc.vEnv) ∧
        1000 ≤ s.rgc.clearTime + s.rgc.period →
      ∃ t, exec .envelopeExceededClear s = .next t ∧
        ConditionMoved .envelopeExceeded .global false s t ∧
        Cls.envelope.isIn t.atc.pending = true ∧ t.rgc.exceeded = false ∧
        t.rgc.clearTime = 1000 ∧ t.rgc.exceedTime = 0 ∧
        (s.rgc.causes.envelope = true → Cls.brakeAssist.isIn t.atc.pending = true) ∧
        t.rgc.vEnv = s.rgc.vEnv ∧ t.rgc.dHold = s.rgc.dHold ∧ t.rgc.integrator = s.rgc.integrator ∧
        (s.delivered = true → s.notes .envelopeExceeded = true →
          SameOutside [(0x1800, 768), pendingRegion] s t ∧
          { t with
            xm := s.xm, atc := s.atc, pru := s.pru
            rgc := { t.rgc with pulse := s.rgc.pulse } } = { s with
              rgc := { s.rgc with
                exceeded := false, exceedTime := 0, clearTime := 1000
                causes := { s.rgc.causes with envelope := false } } })) ∧
    (¬(runs ∧ s.rgc.exceeded = true ∧ (∃ v, s.tcu.vRef = some v ∧ v ≤ s.rgc.vEnv) ∧
        1000 ≤ s.rgc.clearTime + s.rgc.period) → s.delivered = true →
      exec .envelopeExceededClear s = .next s)) ∧
  ∀ (s : State) (held asked : Nat), s.isRunning = true →
    held = s.retarding (fun x => x.reference.natAbs) →
    asked = s.retarding TqaWheel.request →
    (s.dmc.substate = .retard ∧ s.rgc.causes.shortfall = false ∧
        (0 < asked ∧ held * 1000 < 900 * asked) ∧ 300 ≤ s.rgc.shortfallTime + s.rgc.period →
      ∃ t, exec .shortfallAdd s = .next t ∧ Raised [.brakeAssist] s t ∧
        SameOutside [pendingRegion] s t ∧
        { t with xm := s.xm, atc := s.atc, rgc := { t.rgc with pulse := s.rgc.pulse } } = { s with
          rgc := { s.rgc with
            causes := { s.rgc.causes with shortfall := true }
            shortfallTime := 300, recoveryTime := 0 } } ∧
        t.rgc.pulse = (if s.cfg.outputMode = 1 ∧ s.rgc.causes.any = false then some (s.clock + 500)
          else s.rgc.pulse)) ∧
    (¬(s.dmc.substate = .retard ∧ s.rgc.causes.shortfall = false ∧
        (0 < asked ∧ held * 1000 < 900 * asked) ∧ 300 ≤ s.rgc.shortfallTime + s.rgc.period) →
      exec .shortfallAdd s = .next s) ∧
    (s.dmc.substate = .retard ∧ s.rgc.causes.shortfall = true ∧
        (asked = 0 ∨ 950 * asked ≤ held * 1000) ∧ 300 ≤ s.rgc.recoveryTime + s.rgc.period →
      ∃ t, exec .shortfallRemove s = .next t ∧ Raised [.brakeAssist] s t ∧
        SameOutside [pendingRegion] s t ∧
        { t with xm := s.xm, atc := s.atc } = { s with
          rgc := { s.rgc with
            causes := { s.rgc.causes with shortfall := false }
            recoveryTime := 300, shortfallTime := 0 } }) ∧
    (¬(s.dmc.substate = .retard ∧ s.rgc.causes.shortfall = true ∧
        (asked = 0 ∨ 950 * asked ≤ held * 1000) ∧ 300 ≤ s.rgc.recoveryTime + s.rgc.period) →
      exec .shortfallRemove s = .next s)

/-! ## Traction and protection -/

/-- The judgement of slip at step 5 of a REPORT arrival (R112 to R116), on the wheel's record alone.
Without a plausible report or a known V_ref, or for an excluded wheel, the slip state, factor and
persistence count stay. Otherwise the expected speed and the slip ratio are formed, and the wheel
moves by its state and the substate: a departure in the relevant sense counts in GRIP and cuts at
N_on; in SLIP and SLIDE a ratio still beyond λ_on cuts again and one within λ_off leads to RECOVER;
in RECOVER a departure cuts at once and any other report raises the factor, to GRIP at 1000. In
SLIDE at S_min the slide start is set, and WHEEL_SLIDE becomes present after the slide time; leaving
SLIDE stops the slide start, and entering GRIP makes the condition absent (R118). At a substate
change a wheel in SLIP or SLIDE becomes RECOVER, and every persistence count is 0; an exclusion
change that adds a wheel sets it to GRIP with factor 1000, and its WHEEL_SLIDE is reported absent;
both judge the reference speed (R108, R111, R117). Which wheels give a DEGRADED V_ref, and that it
may exceed 1000, are assumption logs 44 and 20; that the slide is judged on the state after the
report's own move is log 49. -/
def Obligations.SlipJudged : Prop :=
  (∀ (s : State) (w : Wheel) (before after : TcuWheel),
    before = s.tcu.wheels.get w → after = (tcuSubstateChange s).tcu.wheels.get w →
    after = { before with
      slip := if before.slip = .slip ∨ before.slip = .slide then .recover else before.slip
      slideStart := if before.slip = .slip ∨ before.slip = .slide then none else before.slideStart
      count := 0 } ∧
    ReferenceTaken (tcuSubstateChange s)) ∧
  (∀ (s : State) (old : PerWheel Bool) (w : Wheel) (before after : TcuWheel), s.pru.ok →
    before = s.tcu.wheels.get w → after = (tcuExclusion old s).tcu.wheels.get w →
    (s.pru.wheelEx.get w = true → old.get w = false →
      after = { before with
        slip := .grip, factor := 1000, count := 0, slideStart := none, slideCond := false } ∧
      (before.slideCond = true →
        (tcuExclusion old s).pru.observed .wheelSlide (.wheel w) false)) ∧
    (¬(s.pru.wheelEx.get w = true ∧ old.get w = false) → after = before) ∧
    ReferenceTaken (tcuExclusion old s)) ∧
  ∀ (s : State) (w : Wheel) (before after : TcuWheel), s.pru.ok →
    before = s.tcu.wheels.get w → after = (judgeSlip w s).tcu.wheels.get w →
    (∀ v, v ≠ w → (judgeSlip w s).tcu.wheels.get v = s.tcu.wheels.get v) ∧
    (after.slideCond ≠ before.slideCond →
      (judgeSlip w s).pru.observed .wheelSlide (.wheel w) after.slideCond) ∧
    (before.discarded = true ∨ s.tcu.vRef = none ∨ s.pru.wheelEx.get w = true →
      after.slip = before.slip ∧ after.factor = before.factor ∧ after.count = before.count ∧
      after.notEvaluated = true) ∧
    ∀ (v : Nat) (expected lambda : Int) (cut : Nat) (depart : Option Slip),
      before.discarded = false → s.tcu.vRef = some v → s.pru.wheelEx.get w = false →
      expected = divInt s.cfg.nearest (v * (1000 + outerSign s.stc.turn w * s.stc.kappa)) 1000 →
      lambda = divInt s.cfg.nearest (((before.ground.natAbs : Int) - expected) * 1000)
        (max expected s.cfg.vFloor) →
      cut = max s.cfg.sMin (divNat s.cfg.nearest (before.factor * s.cfg.cut) 1000) →
      depart = (if s.dmc.substate = .propel ∧ (s.cfg.lambdaOn : Int) < lambda then some .slip
        else if s.dmc.substate = .retard ∧ lambda < -(s.cfg.lambdaOn : Int) then some .slide
        else none) →
      after.expected = expected ∧ after.lambda = lambda ∧ after.notEvaluated = false ∧
      (after.slip = .slide → after.factor = s.cfg.sMin →
        (before.slideStart = none → after.slideStart = some s.clock ∧
          after.slideCond = before.slideCond) ∧
        ∀ start, before.slideStart = some start → after.slideStart = some start ∧
          after.slideCond = (before.slideCond ||
            decide (s.cfg.slideTime ≤ (s.clock - start).toNat))) ∧
      (before.slip = .slide → after.slip ≠ .slide → after.slideStart = none) ∧
      (¬(after.slip = .slide ∧ after.factor = s.cfg.sMin) →
        (after.slip = before.slip ∨ before.slip = .grip →
          after.slideStart = before.slideStart) ∧
        (after.slip = before.slip ∨ after.slip ≠ .grip → after.slideCond = before.slideCond)) ∧
      (after.slip = .grip → before.slip ≠ .grip → after.slideCond = false) ∧
      (before.slip = .grip → depart = none →
        after.slip = .grip ∧ after.factor = before.factor ∧ after.count = 0) ∧
      (before.slip = .grip → ∀ k, depart = some k → before.count + 1 < s.cfg.nOn →
        after.slip = .grip ∧ after.factor = before.factor ∧ after.count = before.count + 1) ∧
      (before.slip = .grip → ∀ k, depart = some k → s.cfg.nOn ≤ before.count + 1 →
        after.slip = k ∧ after.factor = cut ∧ after.count = 0) ∧
      (∀ beyond : Prop, (beyond ↔ before.slip = .slip ∧ (s.cfg.lambdaOn : Int) < lambda ∨
          before.slip = .slide ∧ lambda < -(s.cfg.lambdaOn : Int)) →
        before.slip = .slip ∨ before.slip = .slide → after.count = before.count ∧
        (beyond → after.slip = before.slip ∧ after.factor = cut) ∧
        (¬beyond → after.factor = before.factor ∧
          after.slip = if lambda.natAbs < s.cfg.lambdaOff then .recover else before.slip)) ∧
      (before.slip = .recover → (∀ k, depart = some k →
          after.slip = k ∧ after.factor = cut ∧ after.count = before.count) ∧
        (depart = none →
          after.factor = min 1000 (before.factor + s.cfg.sStep) ∧
          (1000 ≤ before.factor + s.cfg.sStep → after.slip = .grip ∧ after.count = 0) ∧
          (before.factor + s.cfg.sStep < 1000 →
            after.slip = .recover ∧ after.count = before.count)))

/-- An observation of a (kind, subject) pair acts on its entry by the rows of R176: appended
PENDING, or ACTIVE at once with a set count of 1; set progress and clear progress to the counts of
R175; LATCHED or CLEARED by the profile, the action and the filter's mode (R177); that an absent
observation sets set progress to 0 is the model's reading (assumption log 17). FAULT_CHANGE is
raised at a creation, a change of state and a removal, no other entry changes, and the table keeps
its order. Every command keeps the table delivered: the sets and the summary are those that the
table gives, and the mode, the bank channels, the rotation order and the excluded wheels' slip
states heed them (R69, R70, R117, R124, R133, R179, R180). -/
def Obligations.ObservationActs : Prop :=
  (∀ (c : Instr) (s t : State), s.heeded → exec c s = .next t → t.heeded) ∧
  ∀ (s t : State) (k : Kind) (subject : Subject) (present : Bool) (setCount clearCount : Nat)
    (latches : Action → Prop), s.pru.ok → k ≠ .configGuard → t = note k subject present s →
    (setCount = if k = .wheelFault ∨ k = .steerFault ∨ k = .linkOvervolt then 3 else 1) →
    (clearCount = if k = .wheelFault ∨ k = .steerFault then 10 else if k = .linkOvervolt then 25
      else 1) →
    (∀ a, latches a ↔ a = .safeStop ∨ a = .trip ∨ a = .exclude ∧ s.cfg.profile = 0xA5A5 ∨
      k = .externalStop ∧ s.cfg.stopMode ≠ 1) →
    { t with xm := s.xm, atc := s.atc, pru := { t.pru with entries := s.pru.entries } } = s ∧
    SameOutside [(0x1800, 768), pendingRegion] s t ∧ t.pru.ok ∧
    (s.pru.noEntry k subject → present = true → Raised [.faultChange] s t ∧
      t.pru.entries = s.pru.entries ++ [{
        kind := k, subject := subject, action := s.cfg.action k, setProgress := 1
        clearProgress := 0, cond := true, firstSeen := s.clock, lastChange := s.clock
        state := if setCount = 1 then .active else .pending
        occurrence := if setCount = 1 then 1 else 0 }]) ∧
    (s.pru.noEntry k subject → present = false → t = s) ∧
    ∀ (front back : List Entry) (e : Entry), s.pru.entries = front ++ e :: back →
      e.kind = k → e.subject = subject →
      (present = true → e.state = .active → Raised [] s t ∧
        t.pru.entries = front ++ { e with clearProgress := 0, cond := true } :: back) ∧
      (present = true → e.state ≠ .active →
        (e.setProgress + 1 < setCount → Raised [] s t ∧
          t.pru.entries =
            front ++ { e with setProgress := e.setProgress + 1, cond := true } :: back) ∧
        (setCount ≤ e.setProgress + 1 → Raised [.faultChange] s t ∧
          t.pru.entries = front ++ { e with
            setProgress := e.setProgress + 1, clearProgress := 0, cond := true, state := .active
            occurrence := min 65535 (e.occurrence + 1), lastChange := s.clock } :: back)) ∧
      (present = false → e.state = .pending → Raised [.faultChange] s t ∧
        t.pru.entries = front ++ back) ∧
      (present = false → e.state = .active →
        (e.clearProgress + 1 < clearCount → Raised [] s t ∧
          t.pru.entries = front ++ { e with
            clearProgress := e.clearProgress + 1, setProgress := 0, cond := false } :: back) ∧
        (clearCount ≤ e.clearProgress + 1 → Raised [.faultChange] s t ∧
          ∃ ended : EntryState, (latches e.action → ended = .latched) ∧
            (¬latches e.action → ended = .cleared) ∧
            t.pru.entries = front ++ { e with
              clearProgress := e.clearProgress + 1, setProgress := 0, cond := false
              state := ended, lastChange := s.clock } :: back)) ∧
      (present = false → e.state = .latched ∨ e.state = .cleared → Raised [] s t ∧
        t.pru.entries = front ++ { e with setProgress := 0, cond := false } :: back)

/-- DISCRETE_INPUT_SAMPLE: the filter moves by the rows of R182 for the mode in force, and at each
change of its state EXTERNAL_STOP is observed, present on ACTIVE and absent on INACTIVE; at the
change to ACTIVE a running grid test is ended. NO_TRACTION_UNITS and NO_GRID are observed after it,
as R181 gives; where no delivery is due and the filter's state stays, they are as the mode, the loss
conditions and the sets before the sample say, and where neither is present nor entered, only the
filter and its image change. EXTERNAL_STOP_ACTIVE and EXTERNAL_STOP_INACTIVE are the sample that
completes the count of three, low or high, without those observations, and otherwise change nothing
(assumption log 5). -/
def Obligations.ExternalStop : Prop :=
  ∀ s : State, s.isRunning = true → s.pru.ok →
    (∀ level : Level, ∃ t, exec (.discreteInputSample level) s = .next t ∧
      FilterRow s.cfg.stopLevel (level == .low) s.pru.filter t.pru.filter ∧
      (t.pru.filter.active ≠ s.pru.filter.active →
        t.pru.observed .externalStop .global t.pru.filter.active) ∧
      (t.pru.filter.active = true → s.pru.filter.active = false → t.rgc.test = none) ∧
      (t.pru.filter.active = s.pru.filter.active → s.delivered = true →
        s.noGridLeft = false → s.noTraction = false →
        s.pru.noEntry .noTractionUnits .global → s.pru.noEntry .noGrid .global →
        SameOutside [(0x1800, 768)] s t ∧
        { t with xm := s.xm, pru := { t.pru with filter := s.pru.filter } } = s) ∧
      (t.pru.filter.active = s.pru.filter.active → s.delivered = true → ∀ lone bare : Bool,
        (lone = true ↔ (s.dmc.mode = .ready ∨ s.dmc.mode = .drive ∨ s.dmc.mode = .safeStop) ∧
          ∀ w, s.cfg.wheel w = true → s.pru.lossHeld.get w = true ∨ s.pru.wheelEx.get w = true) →
        (bare = true ↔ s.cfl.guardOn = true ∧
          ∀ b, s.cfg.bank b = true → s.pru.bankEx.get b = true) →
        t.pru.observed .noTractionUnits .global lone ∧ t.pru.observed .noGrid .global bare) ∧
      t.clock = s.clock ∧ t.dmc.demand = s.dmc.demand ∧ t.tqa = s.tqa ∧ t.cfg = s.cfg) ∧
    (∀ lone bare : Bool,
      (lone = true ↔ (s.dmc.mode = .ready ∨ s.dmc.mode = .drive ∨ s.dmc.mode = .safeStop) ∧
        ∀ w, s.cfg.wheel w = true → s.pru.lossHeld.get w = true ∨ s.pru.wheelEx.get w = true) →
      (bare = true ↔ s.cfl.guardOn = true ∧
        ∀ b, s.cfg.bank b = true → s.pru.bankEx.get b = true) →
      (observeEscalation s).pru.observed .noTractionUnits .global lone ∧
      (observeEscalation s).pru.observed .noGrid .global bare) ∧
    (s.pru.filter.active = false → 2 ≤ s.pru.filter.lowRun →
      s.cfg.stopLevel = true ∨ s.pru.filter.lastLow = true →
      ∃ t, exec .externalStopActive s = .next t ∧
        t.pru.filter = { s.pru.filter with
          active := true, lowRun := 0, highRun := 0, lastLow := true
          edgeHeld := !s.cfg.stopLevel } ∧
        t.pru.observed .externalStop .global true ∧ t.rgc.test = none ∧ t.tqa = s.tqa) ∧
    (s.pru.filter.active = true ∨ s.pru.filter.lowRun < 2 ∨
        s.cfg.stopLevel = false ∧ s.pru.filter.lastLow = false → s.delivered = true →
      exec .externalStopActive s = .next s) ∧
    (s.pru.filter.active = true → s.cfg.stopLevel = true → 2 ≤ s.pru.filter.highRun →
      ∃ t, exec .externalStopInactive s = .next t ∧
        t.pru.filter = { s.pru.filter with
          active := false, lowRun := 0, highRun := 0, lastLow := false } ∧
        t.pru.observed .externalStop .global false ∧ t.tqa = s.tqa) ∧
    (s.pru.filter.active = false ∨ s.cfg.stopLevel = false ∨ s.pru.filter.highRun < 2 →
      s.delivered = true → exec .externalStopInactive s = .next s)
end

