-- ==== Sys2Proof/Laws/State.lean ====
section
/-! SUPPORT. The small lemmas of the record updates: what each named update of `State` writes and what
it leaves, and what a wheel's, a bank's or a unit's place holds after a replacement. -/

namespace Sys2Proof.Machine

/-! ### State.setSupply -/

@[simp] theorem State.setSupply_supply (v : Bool) (s : State) : (s.setSupply v).supply = v := rfl
@[simp] theorem State.setSupply_resetLow (v : Bool) (s : State) : (s.setSupply v).resetLow = s.resetLow := rfl
@[simp] theorem State.setSupply_clock (v : Bool) (s : State) : (s.setSupply v).clock = s.clock := rfl
@[simp] theorem State.setSupply_xm (v : Bool) (s : State) : (s.setSupply v).xm = s.xm := rfl
@[simp] theorem State.setSupply_hostData (v : Bool) (s : State) : (s.setSupply v).hostData = s.hostData := rfl
@[simp] theorem State.setSupply_tripOut (v : Bool) (s : State) : (s.setSupply v).tripOut = s.tripOut := rfl
@[simp] theorem State.setSupply_atc (v : Bool) (s : State) : (s.setSupply v).atc = s.atc := rfl
@[simp] theorem State.setSupply_ore (v : Bool) (s : State) : (s.setSupply v).ore = s.ore := rfl
@[simp] theorem State.setSupply_cfl (v : Bool) (s : State) : (s.setSupply v).cfl = s.cfl := rfl
@[simp] theorem State.setSupply_wlc (v : Bool) (s : State) : (s.setSupply v).wlc = s.wlc := rfl
@[simp] theorem State.setSupply_dmc (v : Bool) (s : State) : (s.setSupply v).dmc = s.dmc := rfl
@[simp] theorem State.setSupply_tqa (v : Bool) (s : State) : (s.setSupply v).tqa = s.tqa := rfl
@[simp] theorem State.setSupply_tcu (v : Bool) (s : State) : (s.setSupply v).tcu = s.tcu := rfl
@[simp] theorem State.setSupply_rgc (v : Bool) (s : State) : (s.setSupply v).rgc = s.rgc := rfl
@[simp] theorem State.setSupply_stc (v : Bool) (s : State) : (s.setSupply v).stc = s.stc := rfl
@[simp] theorem State.setSupply_lmu (v : Bool) (s : State) : (s.setSupply v).lmu = s.lmu := rfl
@[simp] theorem State.setSupply_pru (v : Bool) (s : State) : (s.setSupply v).pru = s.pru := rfl
@[simp] theorem State.setSupply_draws (v : Bool) (s : State) : (s.setSupply v).draws = s.draws := rfl
@[simp] theorem State.setSupply_pending (v : Bool) (s : State) : (s.setSupply v).pending = s.pending := rfl

/-! ### State.setResetLow -/

@[simp] theorem State.setResetLow_resetLow (v : Bool) (s : State) : (s.setResetLow v).resetLow = v := rfl
@[simp] theorem State.setResetLow_supply (v : Bool) (s : State) : (s.setResetLow v).supply = s.supply := rfl
@[simp] theorem State.setResetLow_clock (v : Bool) (s : State) : (s.setResetLow v).clock = s.clock := rfl
@[simp] theorem State.setResetLow_xm (v : Bool) (s : State) : (s.setResetLow v).xm = s.xm := rfl
@[simp] theorem State.setResetLow_hostData (v : Bool) (s : State) : (s.setResetLow v).hostData = s.hostData := rfl
@[simp] theorem State.setResetLow_tripOut (v : Bool) (s : State) : (s.setResetLow v).tripOut = s.tripOut := rfl
@[simp] theorem State.setResetLow_atc (v : Bool) (s : State) : (s.setResetLow v).atc = s.atc := rfl
@[simp] theorem State.setResetLow_ore (v : Bool) (s : State) : (s.setResetLow v).ore = s.ore := rfl
@[simp] theorem State.setResetLow_cfl (v : Bool) (s : State) : (s.setResetLow v).cfl = s.cfl := rfl
@[simp] theorem State.setResetLow_wlc (v : Bool) (s : State) : (s.setResetLow v).wlc = s.wlc := rfl
@[simp] theorem State.setResetLow_dmc (v : Bool) (s : State) : (s.setResetLow v).dmc = s.dmc := rfl
@[simp] theorem State.setResetLow_tqa (v : Bool) (s : State) : (s.setResetLow v).tqa = s.tqa := rfl
@[simp] theorem State.setResetLow_tcu (v : Bool) (s : State) : (s.setResetLow v).tcu = s.tcu := rfl
@[simp] theorem State.setResetLow_rgc (v : Bool) (s : State) : (s.setResetLow v).rgc = s.rgc := rfl
@[simp] theorem State.setResetLow_stc (v : Bool) (s : State) : (s.setResetLow v).stc = s.stc := rfl
@[simp] theorem State.setResetLow_lmu (v : Bool) (s : State) : (s.setResetLow v).lmu = s.lmu := rfl
@[simp] theorem State.setResetLow_pru (v : Bool) (s : State) : (s.setResetLow v).pru = s.pru := rfl
@[simp] theorem State.setResetLow_draws (v : Bool) (s : State) : (s.setResetLow v).draws = s.draws := rfl
@[simp] theorem State.setResetLow_pending (v : Bool) (s : State) : (s.setResetLow v).pending = s.pending := rfl

/-! ### State.setClock -/

@[simp] theorem State.setClock_clock (v : Long) (s : State) : (s.setClock v).clock = v := rfl
@[simp] theorem State.setClock_supply (v : Long) (s : State) : (s.setClock v).supply = s.supply := rfl
@[simp] theorem State.setClock_resetLow (v : Long) (s : State) : (s.setClock v).resetLow = s.resetLow := rfl
@[simp] theorem State.setClock_xm (v : Long) (s : State) : (s.setClock v).xm = s.xm := rfl
@[simp] theorem State.setClock_hostData (v : Long) (s : State) : (s.setClock v).hostData = s.hostData := rfl
@[simp] theorem State.setClock_tripOut (v : Long) (s : State) : (s.setClock v).tripOut = s.tripOut := rfl
@[simp] theorem State.setClock_atc (v : Long) (s : State) : (s.setClock v).atc = s.atc := rfl
@[simp] theorem State.setClock_ore (v : Long) (s : State) : (s.setClock v).ore = s.ore := rfl
@[simp] theorem State.setClock_cfl (v : Long) (s : State) : (s.setClock v).cfl = s.cfl := rfl
@[simp] theorem State.setClock_wlc (v : Long) (s : State) : (s.setClock v).wlc = s.wlc := rfl
@[simp] theorem State.setClock_dmc (v : Long) (s : State) : (s.setClock v).dmc = s.dmc := rfl
@[simp] theorem State.setClock_tqa (v : Long) (s : State) : (s.setClock v).tqa = s.tqa := rfl
@[simp] theorem State.setClock_tcu (v : Long) (s : State) : (s.setClock v).tcu = s.tcu := rfl
@[simp] theorem State.setClock_rgc (v : Long) (s : State) : (s.setClock v).rgc = s.rgc := rfl
@[simp] theorem State.setClock_stc (v : Long) (s : State) : (s.setClock v).stc = s.stc := rfl
@[simp] theorem State.setClock_lmu (v : Long) (s : State) : (s.setClock v).lmu = s.lmu := rfl
@[simp] theorem State.setClock_pru (v : Long) (s : State) : (s.setClock v).pru = s.pru := rfl
@[simp] theorem State.setClock_draws (v : Long) (s : State) : (s.setClock v).draws = s.draws := rfl
@[simp] theorem State.setClock_pending (v : Long) (s : State) : (s.setClock v).pending = s.pending := rfl

/-! ### State.setXm -/

@[simp] theorem State.setXm_xm (v : Memory) (s : State) : (s.setXm v).xm = v := rfl
@[simp] theorem State.setXm_supply (v : Memory) (s : State) : (s.setXm v).supply = s.supply := rfl
@[simp] theorem State.setXm_resetLow (v : Memory) (s : State) : (s.setXm v).resetLow = s.resetLow := rfl
@[simp] theorem State.setXm_clock (v : Memory) (s : State) : (s.setXm v).clock = s.clock := rfl
@[simp] theorem State.setXm_hostData (v : Memory) (s : State) : (s.setXm v).hostData = s.hostData := rfl
@[simp] theorem State.setXm_tripOut (v : Memory) (s : State) : (s.setXm v).tripOut = s.tripOut := rfl
@[simp] theorem State.setXm_atc (v : Memory) (s : State) : (s.setXm v).atc = s.atc := rfl
@[simp] theorem State.setXm_ore (v : Memory) (s : State) : (s.setXm v).ore = s.ore := rfl
@[simp] theorem State.setXm_cfl (v : Memory) (s : State) : (s.setXm v).cfl = s.cfl := rfl
@[simp] theorem State.setXm_wlc (v : Memory) (s : State) : (s.setXm v).wlc = s.wlc := rfl
@[simp] theorem State.setXm_dmc (v : Memory) (s : State) : (s.setXm v).dmc = s.dmc := rfl
@[simp] theorem State.setXm_tqa (v : Memory) (s : State) : (s.setXm v).tqa = s.tqa := rfl
@[simp] theorem State.setXm_tcu (v : Memory) (s : State) : (s.setXm v).tcu = s.tcu := rfl
@[simp] theorem State.setXm_rgc (v : Memory) (s : State) : (s.setXm v).rgc = s.rgc := rfl
@[simp] theorem State.setXm_stc (v : Memory) (s : State) : (s.setXm v).stc = s.stc := rfl
@[simp] theorem State.setXm_lmu (v : Memory) (s : State) : (s.setXm v).lmu = s.lmu := rfl
@[simp] theorem State.setXm_pru (v : Memory) (s : State) : (s.setXm v).pru = s.pru := rfl
@[simp] theorem State.setXm_draws (v : Memory) (s : State) : (s.setXm v).draws = s.draws := rfl
@[simp] theorem State.setXm_pending (v : Memory) (s : State) : (s.setXm v).pending = s.pending := rfl

/-! ### State.setHostData -/

@[simp] theorem State.setHostData_hostData (v : Word) (s : State) : (s.setHostData v).hostData = v := rfl
@[simp] theorem State.setHostData_supply (v : Word) (s : State) : (s.setHostData v).supply = s.supply := rfl
@[simp] theorem State.setHostData_resetLow (v : Word) (s : State) : (s.setHostData v).resetLow = s.resetLow := rfl
@[simp] theorem State.setHostData_clock (v : Word) (s : State) : (s.setHostData v).clock = s.clock := rfl
@[simp] theorem State.setHostData_xm (v : Word) (s : State) : (s.setHostData v).xm = s.xm := rfl
@[simp] theorem State.setHostData_tripOut (v : Word) (s : State) : (s.setHostData v).tripOut = s.tripOut := rfl
@[simp] theorem State.setHostData_atc (v : Word) (s : State) : (s.setHostData v).atc = s.atc := rfl
@[simp] theorem State.setHostData_ore (v : Word) (s : State) : (s.setHostData v).ore = s.ore := rfl
@[simp] theorem State.setHostData_cfl (v : Word) (s : State) : (s.setHostData v).cfl = s.cfl := rfl
@[simp] theorem State.setHostData_wlc (v : Word) (s : State) : (s.setHostData v).wlc = s.wlc := rfl
@[simp] theorem State.setHostData_dmc (v : Word) (s : State) : (s.setHostData v).dmc = s.dmc := rfl
@[simp] theorem State.setHostData_tqa (v : Word) (s : State) : (s.setHostData v).tqa = s.tqa := rfl
@[simp] theorem State.setHostData_tcu (v : Word) (s : State) : (s.setHostData v).tcu = s.tcu := rfl
@[simp] theorem State.setHostData_rgc (v : Word) (s : State) : (s.setHostData v).rgc = s.rgc := rfl
@[simp] theorem State.setHostData_stc (v : Word) (s : State) : (s.setHostData v).stc = s.stc := rfl
@[simp] theorem State.setHostData_lmu (v : Word) (s : State) : (s.setHostData v).lmu = s.lmu := rfl
@[simp] theorem State.setHostData_pru (v : Word) (s : State) : (s.setHostData v).pru = s.pru := rfl
@[simp] theorem State.setHostData_draws (v : Word) (s : State) : (s.setHostData v).draws = s.draws := rfl
@[simp] theorem State.setHostData_pending (v : Word) (s : State) : (s.setHostData v).pending = s.pending := rfl

/-! ### State.setTripOut -/

@[simp] theorem State.setTripOut_tripOut (v : Bool) (s : State) : (s.setTripOut v).tripOut = v := rfl
@[simp] theorem State.setTripOut_supply (v : Bool) (s : State) : (s.setTripOut v).supply = s.supply := rfl
@[simp] theorem State.setTripOut_resetLow (v : Bool) (s : State) : (s.setTripOut v).resetLow = s.resetLow := rfl
@[simp] theorem State.setTripOut_clock (v : Bool) (s : State) : (s.setTripOut v).clock = s.clock := rfl
@[simp] theorem State.setTripOut_xm (v : Bool) (s : State) : (s.setTripOut v).xm = s.xm := rfl
@[simp] theorem State.setTripOut_hostData (v : Bool) (s : State) : (s.setTripOut v).hostData = s.hostData := rfl
@[simp] theorem State.setTripOut_atc (v : Bool) (s : State) : (s.setTripOut v).atc = s.atc := rfl
@[simp] theorem State.setTripOut_ore (v : Bool) (s : State) : (s.setTripOut v).ore = s.ore := rfl
@[simp] theorem State.setTripOut_cfl (v : Bool) (s : State) : (s.setTripOut v).cfl = s.cfl := rfl
@[simp] theorem State.setTripOut_wlc (v : Bool) (s : State) : (s.setTripOut v).wlc = s.wlc := rfl
@[simp] theorem State.setTripOut_dmc (v : Bool) (s : State) : (s.setTripOut v).dmc = s.dmc := rfl
@[simp] theorem State.setTripOut_tqa (v : Bool) (s : State) : (s.setTripOut v).tqa = s.tqa := rfl
@[simp] theorem State.setTripOut_tcu (v : Bool) (s : State) : (s.setTripOut v).tcu = s.tcu := rfl
@[simp] theorem State.setTripOut_rgc (v : Bool) (s : State) : (s.setTripOut v).rgc = s.rgc := rfl
@[simp] theorem State.setTripOut_stc (v : Bool) (s : State) : (s.setTripOut v).stc = s.stc := rfl
@[simp] theorem State.setTripOut_lmu (v : Bool) (s : State) : (s.setTripOut v).lmu = s.lmu := rfl
@[simp] theorem State.setTripOut_pru (v : Bool) (s : State) : (s.setTripOut v).pru = s.pru := rfl
@[simp] theorem State.setTripOut_draws (v : Bool) (s : State) : (s.setTripOut v).draws = s.draws := rfl
@[simp] theorem State.setTripOut_pending (v : Bool) (s : State) : (s.setTripOut v).pending = s.pending := rfl

/-! ### State.setAtc -/

@[simp] theorem State.setAtc_atc (v : Atc) (s : State) : (s.setAtc v).atc = v := rfl
@[simp] theorem State.setAtc_supply (v : Atc) (s : State) : (s.setAtc v).supply = s.supply := rfl
@[simp] theorem State.setAtc_resetLow (v : Atc) (s : State) : (s.setAtc v).resetLow = s.resetLow := rfl
@[simp] theorem State.setAtc_clock (v : Atc) (s : State) : (s.setAtc v).clock = s.clock := rfl
@[simp] theorem State.setAtc_xm (v : Atc) (s : State) : (s.setAtc v).xm = s.xm := rfl
@[simp] theorem State.setAtc_hostData (v : Atc) (s : State) : (s.setAtc v).hostData = s.hostData := rfl
@[simp] theorem State.setAtc_tripOut (v : Atc) (s : State) : (s.setAtc v).tripOut = s.tripOut := rfl
@[simp] theorem State.setAtc_ore (v : Atc) (s : State) : (s.setAtc v).ore = s.ore := rfl
@[simp] theorem State.setAtc_cfl (v : Atc) (s : State) : (s.setAtc v).cfl = s.cfl := rfl
@[simp] theorem State.setAtc_wlc (v : Atc) (s : State) : (s.setAtc v).wlc = s.wlc := rfl
@[simp] theorem State.setAtc_dmc (v : Atc) (s : State) : (s.setAtc v).dmc = s.dmc := rfl
@[simp] theorem State.setAtc_tqa (v : Atc) (s : State) : (s.setAtc v).tqa = s.tqa := rfl
@[simp] theorem State.setAtc_tcu (v : Atc) (s : State) : (s.setAtc v).tcu = s.tcu := rfl
@[simp] theorem State.setAtc_rgc (v : Atc) (s : State) : (s.setAtc v).rgc = s.rgc := rfl
@[simp] theorem State.setAtc_stc (v : Atc) (s : State) : (s.setAtc v).stc = s.stc := rfl
@[simp] theorem State.setAtc_lmu (v : Atc) (s : State) : (s.setAtc v).lmu = s.lmu := rfl
@[simp] theorem State.setAtc_pru (v : Atc) (s : State) : (s.setAtc v).pru = s.pru := rfl
@[simp] theorem State.setAtc_draws (v : Atc) (s : State) : (s.setAtc v).draws = s.draws := rfl
@[simp] theorem State.setAtc_pending (v : Atc) (s : State) : (s.setAtc v).pending = s.pending := rfl

/-! ### State.setOre -/

@[simp] theorem State.setOre_ore (v : Ore) (s : State) : (s.setOre v).ore = v := rfl
@[simp] theorem State.setOre_supply (v : Ore) (s : State) : (s.setOre v).supply = s.supply := rfl
@[simp] theorem State.setOre_resetLow (v : Ore) (s : State) : (s.setOre v).resetLow = s.resetLow := rfl
@[simp] theorem State.setOre_clock (v : Ore) (s : State) : (s.setOre v).clock = s.clock := rfl
@[simp] theorem State.setOre_xm (v : Ore) (s : State) : (s.setOre v).xm = s.xm := rfl
@[simp] theorem State.setOre_hostData (v : Ore) (s : State) : (s.setOre v).hostData = s.hostData := rfl
@[simp] theorem State.setOre_tripOut (v : Ore) (s : State) : (s.setOre v).tripOut = s.tripOut := rfl
@[simp] theorem State.setOre_atc (v : Ore) (s : State) : (s.setOre v).atc = s.atc := rfl
@[simp] theorem State.setOre_cfl (v : Ore) (s : State) : (s.setOre v).cfl = s.cfl := rfl
@[simp] theorem State.setOre_wlc (v : Ore) (s : State) : (s.setOre v).wlc = s.wlc := rfl
@[simp] theorem State.setOre_dmc (v : Ore) (s : State) : (s.setOre v).dmc = s.dmc := rfl
@[simp] theorem State.setOre_tqa (v : Ore) (s : State) : (s.setOre v).tqa = s.tqa := rfl
@[simp] theorem State.setOre_tcu (v : Ore) (s : State) : (s.setOre v).tcu = s.tcu := rfl
@[simp] theorem State.setOre_rgc (v : Ore) (s : State) : (s.setOre v).rgc = s.rgc := rfl
@[simp] theorem State.setOre_stc (v : Ore) (s : State) : (s.setOre v).stc = s.stc := rfl
@[simp] theorem State.setOre_lmu (v : Ore) (s : State) : (s.setOre v).lmu = s.lmu := rfl
@[simp] theorem State.setOre_pru (v : Ore) (s : State) : (s.setOre v).pru = s.pru := rfl
@[simp] theorem State.setOre_draws (v : Ore) (s : State) : (s.setOre v).draws = s.draws := rfl
@[simp] theorem State.setOre_pending (v : Ore) (s : State) : (s.setOre v).pending = s.pending := rfl

/-! ### State.setCfl -/

@[simp] theorem State.setCfl_cfl (v : Cfl) (s : State) : (s.setCfl v).cfl = v := rfl
@[simp] theorem State.setCfl_supply (v : Cfl) (s : State) : (s.setCfl v).supply = s.supply := rfl
@[simp] theorem State.setCfl_resetLow (v : Cfl) (s : State) : (s.setCfl v).resetLow = s.resetLow := rfl
@[simp] theorem State.setCfl_clock (v : Cfl) (s : State) : (s.setCfl v).clock = s.clock := rfl
@[simp] theorem State.setCfl_xm (v : Cfl) (s : State) : (s.setCfl v).xm = s.xm := rfl
@[simp] theorem State.setCfl_hostData (v : Cfl) (s : State) : (s.setCfl v).hostData = s.hostData := rfl
@[simp] theorem State.setCfl_tripOut (v : Cfl) (s : State) : (s.setCfl v).tripOut = s.tripOut := rfl
@[simp] theorem State.setCfl_atc (v : Cfl) (s : State) : (s.setCfl v).atc = s.atc := rfl
@[simp] theorem State.setCfl_ore (v : Cfl) (s : State) : (s.setCfl v).ore = s.ore := rfl
@[simp] theorem State.setCfl_wlc (v : Cfl) (s : State) : (s.setCfl v).wlc = s.wlc := rfl
@[simp] theorem State.setCfl_dmc (v : Cfl) (s : State) : (s.setCfl v).dmc = s.dmc := rfl
@[simp] theorem State.setCfl_tqa (v : Cfl) (s : State) : (s.setCfl v).tqa = s.tqa := rfl
@[simp] theorem State.setCfl_tcu (v : Cfl) (s : State) : (s.setCfl v).tcu = s.tcu := rfl
@[simp] theorem State.setCfl_rgc (v : Cfl) (s : State) : (s.setCfl v).rgc = s.rgc := rfl
@[simp] theorem State.setCfl_stc (v : Cfl) (s : State) : (s.setCfl v).stc = s.stc := rfl
@[simp] theorem State.setCfl_lmu (v : Cfl) (s : State) : (s.setCfl v).lmu = s.lmu := rfl
@[simp] theorem State.setCfl_pru (v : Cfl) (s : State) : (s.setCfl v).pru = s.pru := rfl
@[simp] theorem State.setCfl_draws (v : Cfl) (s : State) : (s.setCfl v).draws = s.draws := rfl
@[simp] theorem State.setCfl_pending (v : Cfl) (s : State) : (s.setCfl v).pending = s.pending := rfl

/-! ### State.setWlc -/

@[simp] theorem State.setWlc_wlc (v : Wlc) (s : State) : (s.setWlc v).wlc = v := rfl
@[simp] theorem State.setWlc_supply (v : Wlc) (s : State) : (s.setWlc v).supply = s.supply := rfl
@[simp] theorem State.setWlc_resetLow (v : Wlc) (s : State) : (s.setWlc v).resetLow = s.resetLow := rfl
@[simp] theorem State.setWlc_clock (v : Wlc) (s : State) : (s.setWlc v).clock = s.clock := rfl
@[simp] theorem State.setWlc_xm (v : Wlc) (s : State) : (s.setWlc v).xm = s.xm := rfl
@[simp] theorem State.setWlc_hostData (v : Wlc) (s : State) : (s.setWlc v).hostData = s.hostData := rfl
@[simp] theorem State.setWlc_tripOut (v : Wlc) (s : State) : (s.setWlc v).tripOut = s.tripOut := rfl
@[simp] theorem State.setWlc_atc (v : Wlc) (s : State) : (s.setWlc v).atc = s.atc := rfl
@[simp] theorem State.setWlc_ore (v : Wlc) (s : State) : (s.setWlc v).ore = s.ore := rfl
@[simp] theorem State.setWlc_cfl (v : Wlc) (s : State) : (s.setWlc v).cfl = s.cfl := rfl
@[simp] theorem State.setWlc_dmc (v : Wlc) (s : State) : (s.setWlc v).dmc = s.dmc := rfl
@[simp] theorem State.setWlc_tqa (v : Wlc) (s : State) : (s.setWlc v).tqa = s.tqa := rfl
@[simp] theorem State.setWlc_tcu (v : Wlc) (s : State) : (s.setWlc v).tcu = s.tcu := rfl
@[simp] theorem State.setWlc_rgc (v : Wlc) (s : State) : (s.setWlc v).rgc = s.rgc := rfl
@[simp] theorem State.setWlc_stc (v : Wlc) (s : State) : (s.setWlc v).stc = s.stc := rfl
@[simp] theorem State.setWlc_lmu (v : Wlc) (s : State) : (s.setWlc v).lmu = s.lmu := rfl
@[simp] theorem State.setWlc_pru (v : Wlc) (s : State) : (s.setWlc v).pru = s.pru := rfl
@[simp] theorem State.setWlc_draws (v : Wlc) (s : State) : (s.setWlc v).draws = s.draws := rfl
@[simp] theorem State.setWlc_pending (v : Wlc) (s : State) : (s.setWlc v).pending = s.pending := rfl

/-! ### State.setDmc -/

@[simp] theorem State.setDmc_dmc (v : Dmc) (s : State) : (s.setDmc v).dmc = v := rfl
@[simp] theorem State.setDmc_supply (v : Dmc) (s : State) : (s.setDmc v).supply = s.supply := rfl
@[simp] theorem State.setDmc_resetLow (v : Dmc) (s : State) : (s.setDmc v).resetLow = s.resetLow := rfl
@[simp] theorem State.setDmc_clock (v : Dmc) (s : State) : (s.setDmc v).clock = s.clock := rfl
@[simp] theorem State.setDmc_xm (v : Dmc) (s : State) : (s.setDmc v).xm = s.xm := rfl
@[simp] theorem State.setDmc_hostData (v : Dmc) (s : State) : (s.setDmc v).hostData = s.hostData := rfl
@[simp] theorem State.setDmc_tripOut (v : Dmc) (s : State) : (s.setDmc v).tripOut = s.tripOut := rfl
@[simp] theorem State.setDmc_atc (v : Dmc) (s : State) : (s.setDmc v).atc = s.atc := rfl
@[simp] theorem State.setDmc_ore (v : Dmc) (s : State) : (s.setDmc v).ore = s.ore := rfl
@[simp] theorem State.setDmc_cfl (v : Dmc) (s : State) : (s.setDmc v).cfl = s.cfl := rfl
@[simp] theorem State.setDmc_wlc (v : Dmc) (s : State) : (s.setDmc v).wlc = s.wlc := rfl
@[simp] theorem State.setDmc_tqa (v : Dmc) (s : State) : (s.setDmc v).tqa = s.tqa := rfl
@[simp] theorem State.setDmc_tcu (v : Dmc) (s : State) : (s.setDmc v).tcu = s.tcu := rfl
@[simp] theorem State.setDmc_rgc (v : Dmc) (s : State) : (s.setDmc v).rgc = s.rgc := rfl
@[simp] theorem State.setDmc_stc (v : Dmc) (s : State) : (s.setDmc v).stc = s.stc := rfl
@[simp] theorem State.setDmc_lmu (v : Dmc) (s : State) : (s.setDmc v).lmu = s.lmu := rfl
@[simp] theorem State.setDmc_pru (v : Dmc) (s : State) : (s.setDmc v).pru = s.pru := rfl
@[simp] theorem State.setDmc_draws (v : Dmc) (s : State) : (s.setDmc v).draws = s.draws := rfl
@[simp] theorem State.setDmc_pending (v : Dmc) (s : State) : (s.setDmc v).pending = s.pending := rfl

/-! ### State.setTqa -/

@[simp] theorem State.setTqa_tqa (v : Tqa) (s : State) : (s.setTqa v).tqa = v := rfl
@[simp] theorem State.setTqa_supply (v : Tqa) (s : State) : (s.setTqa v).supply = s.supply := rfl
@[simp] theorem State.setTqa_resetLow (v : Tqa) (s : State) : (s.setTqa v).resetLow = s.resetLow := rfl
@[simp] theorem State.setTqa_clock (v : Tqa) (s : State) : (s.setTqa v).clock = s.clock := rfl
@[simp] theorem State.setTqa_xm (v : Tqa) (s : State) : (s.setTqa v).xm = s.xm := rfl
@[simp] theorem State.setTqa_hostData (v : Tqa) (s : State) : (s.setTqa v).hostData = s.hostData := rfl
@[simp] theorem State.setTqa_tripOut (v : Tqa) (s : State) : (s.setTqa v).tripOut = s.tripOut := rfl
@[simp] theorem State.setTqa_atc (v : Tqa) (s : State) : (s.setTqa v).atc = s.atc := rfl
@[simp] theorem State.setTqa_ore (v : Tqa) (s : State) : (s.setTqa v).ore = s.ore := rfl
@[simp] theorem State.setTqa_cfl (v : Tqa) (s : State) : (s.setTqa v).cfl = s.cfl := rfl
@[simp] theorem State.setTqa_wlc (v : Tqa) (s : State) : (s.setTqa v).wlc = s.wlc := rfl
@[simp] theorem State.setTqa_dmc (v : Tqa) (s : State) : (s.setTqa v).dmc = s.dmc := rfl
@[simp] theorem State.setTqa_tcu (v : Tqa) (s : State) : (s.setTqa v).tcu = s.tcu := rfl
@[simp] theorem State.setTqa_rgc (v : Tqa) (s : State) : (s.setTqa v).rgc = s.rgc := rfl
@[simp] theorem State.setTqa_stc (v : Tqa) (s : State) : (s.setTqa v).stc = s.stc := rfl
@[simp] theorem State.setTqa_lmu (v : Tqa) (s : State) : (s.setTqa v).lmu = s.lmu := rfl
@[simp] theorem State.setTqa_pru (v : Tqa) (s : State) : (s.setTqa v).pru = s.pru := rfl
@[simp] theorem State.setTqa_draws (v : Tqa) (s : State) : (s.setTqa v).draws = s.draws := rfl
@[simp] theorem State.setTqa_pending (v : Tqa) (s : State) : (s.setTqa v).pending = s.pending := rfl

/-! ### State.setTcu -/

@[simp] theorem State.setTcu_tcu (v : Tcu) (s : State) : (s.setTcu v).tcu = v := rfl
@[simp] theorem State.setTcu_supply (v : Tcu) (s : State) : (s.setTcu v).supply = s.supply := rfl
@[simp] theorem State.setTcu_resetLow (v : Tcu) (s : State) : (s.setTcu v).resetLow = s.resetLow := rfl
@[simp] theorem State.setTcu_clock (v : Tcu) (s : State) : (s.setTcu v).clock = s.clock := rfl
@[simp] theorem State.setTcu_xm (v : Tcu) (s : State) : (s.setTcu v).xm = s.xm := rfl
@[simp] theorem State.setTcu_hostData (v : Tcu) (s : State) : (s.setTcu v).hostData = s.hostData := rfl
@[simp] theorem State.setTcu_tripOut (v : Tcu) (s : State) : (s.setTcu v).tripOut = s.tripOut := rfl
@[simp] theorem State.setTcu_atc (v : Tcu) (s : State) : (s.setTcu v).atc = s.atc := rfl
@[simp] theorem State.setTcu_ore (v : Tcu) (s : State) : (s.setTcu v).ore = s.ore := rfl
@[simp] theorem State.setTcu_cfl (v : Tcu) (s : State) : (s.setTcu v).cfl = s.cfl := rfl
@[simp] theorem State.setTcu_wlc (v : Tcu) (s : State) : (s.setTcu v).wlc = s.wlc := rfl
@[simp] theorem State.setTcu_dmc (v : Tcu) (s : State) : (s.setTcu v).dmc = s.dmc := rfl
@[simp] theorem State.setTcu_tqa (v : Tcu) (s : State) : (s.setTcu v).tqa = s.tqa := rfl
@[simp] theorem State.setTcu_rgc (v : Tcu) (s : State) : (s.setTcu v).rgc = s.rgc := rfl
@[simp] theorem State.setTcu_stc (v : Tcu) (s : State) : (s.setTcu v).stc = s.stc := rfl
@[simp] theorem State.setTcu_lmu (v : Tcu) (s : State) : (s.setTcu v).lmu = s.lmu := rfl
@[simp] theorem State.setTcu_pru (v : Tcu) (s : State) : (s.setTcu v).pru = s.pru := rfl
@[simp] theorem State.setTcu_draws (v : Tcu) (s : State) : (s.setTcu v).draws = s.draws := rfl
@[simp] theorem State.setTcu_pending (v : Tcu) (s : State) : (s.setTcu v).pending = s.pending := rfl

/-! ### State.setRgc -/

@[simp] theorem State.setRgc_rgc (v : Rgc) (s : State) : (s.setRgc v).rgc = v := rfl
@[simp] theorem State.setRgc_supply (v : Rgc) (s : State) : (s.setRgc v).supply = s.supply := rfl
@[simp] theorem State.setRgc_resetLow (v : Rgc) (s : State) : (s.setRgc v).resetLow = s.resetLow := rfl
@[simp] theorem State.setRgc_clock (v : Rgc) (s : State) : (s.setRgc v).clock = s.clock := rfl
@[simp] theorem State.setRgc_xm (v : Rgc) (s : State) : (s.setRgc v).xm = s.xm := rfl
@[simp] theorem State.setRgc_hostData (v : Rgc) (s : State) : (s.setRgc v).hostData = s.hostData := rfl
@[simp] theorem State.setRgc_tripOut (v : Rgc) (s : State) : (s.setRgc v).tripOut = s.tripOut := rfl
@[simp] theorem State.setRgc_atc (v : Rgc) (s : State) : (s.setRgc v).atc = s.atc := rfl
@[simp] theorem State.setRgc_ore (v : Rgc) (s : State) : (s.setRgc v).ore = s.ore := rfl
@[simp] theorem State.setRgc_cfl (v : Rgc) (s : State) : (s.setRgc v).cfl = s.cfl := rfl
@[simp] theorem State.setRgc_wlc (v : Rgc) (s : State) : (s.setRgc v).wlc = s.wlc := rfl
@[simp] theorem State.setRgc_dmc (v : Rgc) (s : State) : (s.setRgc v).dmc = s.dmc := rfl
@[simp] theorem State.setRgc_tqa (v : Rgc) (s : State) : (s.setRgc v).tqa = s.tqa := rfl
@[simp] theorem State.setRgc_tcu (v : Rgc) (s : State) : (s.setRgc v).tcu = s.tcu := rfl
@[simp] theorem State.setRgc_stc (v : Rgc) (s : State) : (s.setRgc v).stc = s.stc := rfl
@[simp] theorem State.setRgc_lmu (v : Rgc) (s : State) : (s.setRgc v).lmu = s.lmu := rfl
@[simp] theorem State.setRgc_pru (v : Rgc) (s : State) : (s.setRgc v).pru = s.pru := rfl
@[simp] theorem State.setRgc_draws (v : Rgc) (s : State) : (s.setRgc v).draws = s.draws := rfl
@[simp] theorem State.setRgc_pending (v : Rgc) (s : State) : (s.setRgc v).pending = s.pending := rfl

/-! ### State.setStc -/

@[simp] theorem State.setStc_stc (v : Stc) (s : State) : (s.setStc v).stc = v := rfl
@[simp] theorem State.setStc_supply (v : Stc) (s : State) : (s.setStc v).supply = s.supply := rfl
@[simp] theorem State.setStc_resetLow (v : Stc) (s : State) : (s.setStc v).resetLow = s.resetLow := rfl
@[simp] theorem State.setStc_clock (v : Stc) (s : State) : (s.setStc v).clock = s.clock := rfl
@[simp] theorem State.setStc_xm (v : Stc) (s : State) : (s.setStc v).xm = s.xm := rfl
@[simp] theorem State.setStc_hostData (v : Stc) (s : State) : (s.setStc v).hostData = s.hostData := rfl
@[simp] theorem State.setStc_tripOut (v : Stc) (s : State) : (s.setStc v).tripOut = s.tripOut := rfl
@[simp] theorem State.setStc_atc (v : Stc) (s : State) : (s.setStc v).atc = s.atc := rfl
@[simp] theorem State.setStc_ore (v : Stc) (s : State) : (s.setStc v).ore = s.ore := rfl
@[simp] theorem State.setStc_cfl (v : Stc) (s : State) : (s.setStc v).cfl = s.cfl := rfl
@[simp] theorem State.setStc_wlc (v : Stc) (s : State) : (s.setStc v).wlc = s.wlc := rfl
@[simp] theorem State.setStc_dmc (v : Stc) (s : State) : (s.setStc v).dmc = s.dmc := rfl
@[simp] theorem State.setStc_tqa (v : Stc) (s : State) : (s.setStc v).tqa = s.tqa := rfl
@[simp] theorem State.setStc_tcu (v : Stc) (s : State) : (s.setStc v).tcu = s.tcu := rfl
@[simp] theorem State.setStc_rgc (v : Stc) (s : State) : (s.setStc v).rgc = s.rgc := rfl
@[simp] theorem State.setStc_lmu (v : Stc) (s : State) : (s.setStc v).lmu = s.lmu := rfl
@[simp] theorem State.setStc_pru (v : Stc) (s : State) : (s.setStc v).pru = s.pru := rfl
@[simp] theorem State.setStc_draws (v : Stc) (s : State) : (s.setStc v).draws = s.draws := rfl
@[simp] theorem State.setStc_pending (v : Stc) (s : State) : (s.setStc v).pending = s.pending := rfl

/-! ### State.setLmu -/

@[simp] theorem State.setLmu_lmu (v : Lmu) (s : State) : (s.setLmu v).lmu = v := rfl
@[simp] theorem State.setLmu_supply (v : Lmu) (s : State) : (s.setLmu v).supply = s.supply := rfl
@[simp] theorem State.setLmu_resetLow (v : Lmu) (s : State) : (s.setLmu v).resetLow = s.resetLow := rfl
@[simp] theorem State.setLmu_clock (v : Lmu) (s : State) : (s.setLmu v).clock = s.clock := rfl
@[simp] theorem State.setLmu_xm (v : Lmu) (s : State) : (s.setLmu v).xm = s.xm := rfl
@[simp] theorem State.setLmu_hostData (v : Lmu) (s : State) : (s.setLmu v).hostData = s.hostData := rfl
@[simp] theorem State.setLmu_tripOut (v : Lmu) (s : State) : (s.setLmu v).tripOut = s.tripOut := rfl
@[simp] theorem State.setLmu_atc (v : Lmu) (s : State) : (s.setLmu v).atc = s.atc := rfl
@[simp] theorem State.setLmu_ore (v : Lmu) (s : State) : (s.setLmu v).ore = s.ore := rfl
@[simp] theorem State.setLmu_cfl (v : Lmu) (s : State) : (s.setLmu v).cfl = s.cfl := rfl
@[simp] theorem State.setLmu_wlc (v : Lmu) (s : State) : (s.setLmu v).wlc = s.wlc := rfl
@[simp] theorem State.setLmu_dmc (v : Lmu) (s : State) : (s.setLmu v).dmc = s.dmc := rfl
@[simp] theorem State.setLmu_tqa (v : Lmu) (s : State) : (s.setLmu v).tqa = s.tqa := rfl
@[simp] theorem State.setLmu_tcu (v : Lmu) (s : State) : (s.setLmu v).tcu = s.tcu := rfl
@[simp] theorem State.setLmu_rgc (v : Lmu) (s : State) : (s.setLmu v).rgc = s.rgc := rfl
@[simp] theorem State.setLmu_stc (v : Lmu) (s : State) : (s.setLmu v).stc = s.stc := rfl
@[simp] theorem State.setLmu_pru (v : Lmu) (s : State) : (s.setLmu v).pru = s.pru := rfl
@[simp] theorem State.setLmu_draws (v : Lmu) (s : State) : (s.setLmu v).draws = s.draws := rfl
@[simp] theorem State.setLmu_pending (v : Lmu) (s : State) : (s.setLmu v).pending = s.pending := rfl

/-! ### State.setPru -/

@[simp] theorem State.setPru_pru (v : Pru) (s : State) : (s.setPru v).pru = v := rfl
@[simp] theorem State.setPru_supply (v : Pru) (s : State) : (s.setPru v).supply = s.supply := rfl
@[simp] theorem State.setPru_resetLow (v : Pru) (s : State) : (s.setPru v).resetLow = s.resetLow := rfl
@[simp] theorem State.setPru_clock (v : Pru) (s : State) : (s.setPru v).clock = s.clock := rfl
@[simp] theorem State.setPru_xm (v : Pru) (s : State) : (s.setPru v).xm = s.xm := rfl
@[simp] theorem State.setPru_hostData (v : Pru) (s : State) : (s.setPru v).hostData = s.hostData := rfl
@[simp] theorem State.setPru_tripOut (v : Pru) (s : State) : (s.setPru v).tripOut = s.tripOut := rfl
@[simp] theorem State.setPru_atc (v : Pru) (s : State) : (s.setPru v).atc = s.atc := rfl
@[simp] theorem State.setPru_ore (v : Pru) (s : State) : (s.setPru v).ore = s.ore := rfl
@[simp] theorem State.setPru_cfl (v : Pru) (s : State) : (s.setPru v).cfl = s.cfl := rfl
@[simp] theorem State.setPru_wlc (v : Pru) (s : State) : (s.setPru v).wlc = s.wlc := rfl
@[simp] theorem State.setPru_dmc (v : Pru) (s : State) : (s.setPru v).dmc = s.dmc := rfl
@[simp] theorem State.setPru_tqa (v : Pru) (s : State) : (s.setPru v).tqa = s.tqa := rfl
@[simp] theorem State.setPru_tcu (v : Pru) (s : State) : (s.setPru v).tcu = s.tcu := rfl
@[simp] theorem State.setPru_rgc (v : Pru) (s : State) : (s.setPru v).rgc = s.rgc := rfl
@[simp] theorem State.setPru_stc (v : Pru) (s : State) : (s.setPru v).stc = s.stc := rfl
@[simp] theorem State.setPru_lmu (v : Pru) (s : State) : (s.setPru v).lmu = s.lmu := rfl
@[simp] theorem State.setPru_draws (v : Pru) (s : State) : (s.setPru v).draws = s.draws := rfl
@[simp] theorem State.setPru_pending (v : Pru) (s : State) : (s.setPru v).pending = s.pending := rfl

/-! ### State.setDraws -/

@[simp] theorem State.setDraws_draws (v : Nat) (s : State) : (s.setDraws v).draws = v := rfl
@[simp] theorem State.setDraws_supply (v : Nat) (s : State) : (s.setDraws v).supply = s.supply := rfl
@[simp] theorem State.setDraws_resetLow (v : Nat) (s : State) : (s.setDraws v).resetLow = s.resetLow := rfl
@[simp] theorem State.setDraws_clock (v : Nat) (s : State) : (s.setDraws v).clock = s.clock := rfl
@[simp] theorem State.setDraws_xm (v : Nat) (s : State) : (s.setDraws v).xm = s.xm := rfl
@[simp] theorem State.setDraws_hostData (v : Nat) (s : State) : (s.setDraws v).hostData = s.hostData := rfl
@[simp] theorem State.setDraws_tripOut (v : Nat) (s : State) : (s.setDraws v).tripOut = s.tripOut := rfl
@[simp] theorem State.setDraws_atc (v : Nat) (s : State) : (s.setDraws v).atc = s.atc := rfl
@[simp] theorem State.setDraws_ore (v : Nat) (s : State) : (s.setDraws v).ore = s.ore := rfl
@[simp] theorem State.setDraws_cfl (v : Nat) (s : State) : (s.setDraws v).cfl = s.cfl := rfl
@[simp] theorem State.setDraws_wlc (v : Nat) (s : State) : (s.setDraws v).wlc = s.wlc := rfl
@[simp] theorem State.setDraws_dmc (v : Nat) (s : State) : (s.setDraws v).dmc = s.dmc := rfl
@[simp] theorem State.setDraws_tqa (v : Nat) (s : State) : (s.setDraws v).tqa = s.tqa := rfl
@[simp] theorem State.setDraws_tcu (v : Nat) (s : State) : (s.setDraws v).tcu = s.tcu := rfl
@[simp] theorem State.setDraws_rgc (v : Nat) (s : State) : (s.setDraws v).rgc = s.rgc := rfl
@[simp] theorem State.setDraws_stc (v : Nat) (s : State) : (s.setDraws v).stc = s.stc := rfl
@[simp] theorem State.setDraws_lmu (v : Nat) (s : State) : (s.setDraws v).lmu = s.lmu := rfl
@[simp] theorem State.setDraws_pru (v : Nat) (s : State) : (s.setDraws v).pru = s.pru := rfl
@[simp] theorem State.setDraws_pending (v : Nat) (s : State) : (s.setDraws v).pending = s.pending := rfl

/-! ### State.setPending -/

@[simp] theorem State.setPending_pending (v : List Instr) (s : State) : (s.setPending v).pending = v := rfl
@[simp] theorem State.setPending_supply (v : List Instr) (s : State) : (s.setPending v).supply = s.supply := rfl
@[simp] theorem State.setPending_resetLow (v : List Instr) (s : State) : (s.setPending v).resetLow = s.resetLow := rfl
@[simp] theorem State.setPending_clock (v : List Instr) (s : State) : (s.setPending v).clock = s.clock := rfl
@[simp] theorem State.setPending_xm (v : List Instr) (s : State) : (s.setPending v).xm = s.xm := rfl
@[simp] theorem State.setPending_hostData (v : List Instr) (s : State) : (s.setPending v).hostData = s.hostData := rfl
@[simp] theorem State.setPending_tripOut (v : List Instr) (s : State) : (s.setPending v).tripOut = s.tripOut := rfl
@[simp] theorem State.setPending_atc (v : List Instr) (s : State) : (s.setPending v).atc = s.atc := rfl
@[simp] theorem State.setPending_ore (v : List Instr) (s : State) : (s.setPending v).ore = s.ore := rfl
@[simp] theorem State.setPending_cfl (v : List Instr) (s : State) : (s.setPending v).cfl = s.cfl := rfl
@[simp] theorem State.setPending_wlc (v : List Instr) (s : State) : (s.setPending v).wlc = s.wlc := rfl
@[simp] theorem State.setPending_dmc (v : List Instr) (s : State) : (s.setPending v).dmc = s.dmc := rfl
@[simp] theorem State.setPending_tqa (v : List Instr) (s : State) : (s.setPending v).tqa = s.tqa := rfl
@[simp] theorem State.setPending_tcu (v : List Instr) (s : State) : (s.setPending v).tcu = s.tcu := rfl
@[simp] theorem State.setPending_rgc (v : List Instr) (s : State) : (s.setPending v).rgc = s.rgc := rfl
@[simp] theorem State.setPending_stc (v : List Instr) (s : State) : (s.setPending v).stc = s.stc := rfl
@[simp] theorem State.setPending_lmu (v : List Instr) (s : State) : (s.setPending v).lmu = s.lmu := rfl
@[simp] theorem State.setPending_pru (v : List Instr) (s : State) : (s.setPending v).pru = s.pru := rfl
@[simp] theorem State.setPending_draws (v : List Instr) (s : State) : (s.setPending v).draws = s.draws := rfl

/-! ### Places of wheels, banks and units -/

@[simp] theorem PerWheel_get_set_self {α : Type} (p : PerWheel α) (w : Wheel) (a : α) :
    (p.set w a).get w = a := by cases w <;> rfl

theorem PerWheel_get_set {α : Type} (p : PerWheel α) (w v : Wheel) (a : α) :
    (p.set w a).get v = if v = w then a else p.get v := by cases w <;> cases v <;> rfl

@[simp] theorem PerWheel_get_ofFn {α : Type} (f : Wheel → α) (w : Wheel) :
    (PerWheel.ofFn f).get w = f w := by cases w <;> rfl

@[simp] theorem PerWheel_get_fill {α : Type} (a : α) (w : Wheel) : (PerWheel.fill a).get w = a := by
  cases w <;> rfl

@[simp] theorem PerBank_get_set_self {α : Type} (p : PerBank α) (b : Bank) (a : α) :
    (p.set b a).get b = a := by cases b <;> rfl

theorem PerBank_get_set {α : Type} (p : PerBank α) (b c : Bank) (a : α) :
    (p.set b a).get c = if c = b then a else p.get c := by cases b <;> cases c <;> rfl

@[simp] theorem PerBank_get_ofFn {α : Type} (f : Bank → α) (b : Bank) :
    (PerBank.ofFn f).get b = f b := by cases b <;> rfl

@[simp] theorem PerBank_get_fill {α : Type} (a : α) (b : Bank) : (PerBank.fill a).get b = a := by
  cases b <;> rfl

@[simp] theorem Wlc.unit_setUnit_self (l : Wlc) (u : UnitId) (r : UnitRec) :
    (l.setUnit u r).unit u = r := by cases u <;> simp [Wlc.unit, Wlc.setUnit]

theorem Wlc.unit_setUnit (l : Wlc) (u v : UnitId) (r : UnitRec) :
    (l.setUnit u r).unit v = if v = u then r else l.unit v := by
  cases u <;> cases v <;> simp [Wlc.unit, Wlc.setUnit, PerWheel_get_set]

@[simp] theorem Ore.inFlight_setFlight_self (o : Ore) (r : Resource) (c : Option (BitVec 6)) :
    (o.setFlight r c).inFlight r = c := by cases r <;> rfl

theorem Ore.inFlight_setFlight (o : Ore) (r q : Resource) (c : Option (BitVec 6)) :
    (o.setFlight r c).inFlight q = if q = r then c else o.inFlight q := by
  cases r <;> cases q <;> rfl

@[simp] theorem Ore.setFlight_cursor (o : Ore) (r : Resource) (c : Option (BitVec 6)) :
    (o.setFlight r c).cursor = o.cursor := by cases r <;> rfl

@[simp] theorem Ore.setFlight_chain (o : Ore) (r : Resource) (c : Option (BitVec 6)) :
    (o.setFlight r c).chain = o.chain := by cases r <;> rfl

@[simp] theorem Ore.setFlight_behind (o : Ore) (r : Resource) (c : Option (BitVec 6)) :
    (o.setFlight r c).behind = o.behind := by cases r <;> rfl

end Sys2Proof.Machine
end

