-- ==== Sys2Proof/Laws/FramesTable.lean ====
section
/-! SUPPORT. The frames of the operations of the orders, the attention classes and the fault table: what each one leaves. -/

namespace Sys2Proof.Machine

@[simp] theorem put_frame (a : Nat) (ws : List Word) (s : State) :
    (put a ws s).supply = s.supply ∧ (put a ws s).resetLow = s.resetLow ∧
    (put a ws s).clock = s.clock ∧ (put a ws s).hostData = s.hostData ∧
    (put a ws s).tripOut = s.tripOut ∧ (put a ws s).atc = s.atc ∧ (put a ws s).ore = s.ore ∧
    (put a ws s).cfl = s.cfl ∧ (put a ws s).wlc = s.wlc ∧ (put a ws s).dmc = s.dmc ∧
    (put a ws s).tqa = s.tqa ∧ (put a ws s).tcu = s.tcu ∧ (put a ws s).rgc = s.rgc ∧
    (put a ws s).stc = s.stc ∧ (put a ws s).lmu = s.lmu ∧ (put a ws s).pru = s.pru ∧
    (put a ws s).draws = s.draws ∧ (put a ws s).pending = s.pending := by simp [put]

@[simp] theorem putBlock_frame (block : Option Nat) (offset : Nat) (ws : List Word) (s : State) :
    (putBlock block offset ws s).supply = s.supply ∧
    (putBlock block offset ws s).resetLow = s.resetLow ∧
    (putBlock block offset ws s).clock = s.clock ∧
    (putBlock block offset ws s).hostData = s.hostData ∧
    (putBlock block offset ws s).tripOut = s.tripOut ∧ (putBlock block offset ws s).atc = s.atc ∧
    (putBlock block offset ws s).ore = s.ore ∧ (putBlock block offset ws s).cfl = s.cfl ∧
    (putBlock block offset ws s).wlc = s.wlc ∧ (putBlock block offset ws s).dmc = s.dmc ∧
    (putBlock block offset ws s).tqa = s.tqa ∧ (putBlock block offset ws s).tcu = s.tcu ∧
    (putBlock block offset ws s).rgc = s.rgc ∧ (putBlock block offset ws s).stc = s.stc ∧
    (putBlock block offset ws s).lmu = s.lmu ∧ (putBlock block offset ws s).pru = s.pru ∧
    (putBlock block offset ws s).draws = s.draws ∧ (putBlock block offset ws s).pending = s.pending := by
  simp only [putBlock]
  (repeat' split) <;> simp

@[simp] theorem putPendingMirror_frame (s : State) :
    (putPendingMirror s).supply = s.supply ∧ (putPendingMirror s).resetLow = s.resetLow ∧
    (putPendingMirror s).clock = s.clock ∧ (putPendingMirror s).hostData = s.hostData ∧
    (putPendingMirror s).tripOut = s.tripOut ∧ (putPendingMirror s).atc = s.atc ∧
    (putPendingMirror s).ore = s.ore ∧ (putPendingMirror s).cfl = s.cfl ∧
    (putPendingMirror s).wlc = s.wlc ∧ (putPendingMirror s).dmc = s.dmc ∧
    (putPendingMirror s).tqa = s.tqa ∧ (putPendingMirror s).tcu = s.tcu ∧
    (putPendingMirror s).rgc = s.rgc ∧ (putPendingMirror s).stc = s.stc ∧
    (putPendingMirror s).lmu = s.lmu ∧ (putPendingMirror s).pru = s.pru ∧
    (putPendingMirror s).draws = s.draws ∧ (putPendingMirror s).pending = s.pending := by simp [putPendingMirror]

@[simp] theorem putServiceMirror_frame (s : State) :
    (putServiceMirror s).supply = s.supply ∧ (putServiceMirror s).resetLow = s.resetLow ∧
    (putServiceMirror s).clock = s.clock ∧ (putServiceMirror s).hostData = s.hostData ∧
    (putServiceMirror s).tripOut = s.tripOut ∧ (putServiceMirror s).atc = s.atc ∧
    (putServiceMirror s).ore = s.ore ∧ (putServiceMirror s).cfl = s.cfl ∧
    (putServiceMirror s).wlc = s.wlc ∧ (putServiceMirror s).dmc = s.dmc ∧
    (putServiceMirror s).tqa = s.tqa ∧ (putServiceMirror s).tcu = s.tcu ∧
    (putServiceMirror s).rgc = s.rgc ∧ (putServiceMirror s).stc = s.stc ∧
    (putServiceMirror s).lmu = s.lmu ∧ (putServiceMirror s).pru = s.pru ∧
    (putServiceMirror s).draws = s.draws ∧ (putServiceMirror s).pending = s.pending := by simp [putServiceMirror]

@[simp] theorem raise_frame (c : Cls) (s : State) :
    (raise c s).supply = s.supply ∧ (raise c s).resetLow = s.resetLow ∧
    (raise c s).clock = s.clock ∧ (raise c s).hostData = s.hostData ∧
    (raise c s).tripOut = s.tripOut ∧ (raise c s).ore = s.ore ∧ (raise c s).cfl = s.cfl ∧
    (raise c s).wlc = s.wlc ∧ (raise c s).dmc = s.dmc ∧ (raise c s).tqa = s.tqa ∧
    (raise c s).tcu = s.tcu ∧ (raise c s).rgc = s.rgc ∧ (raise c s).stc = s.stc ∧
    (raise c s).lmu = s.lmu ∧ (raise c s).pru = s.pru ∧ (raise c s).draws = s.draws ∧
    (raise c s).pending = s.pending := by
  simp only [raise]
  (repeat' split) <;> simp

@[simp] theorem raiseIf_frame (b : Bool) (c : Cls) (s : State) :
    (raiseIf b c s).supply = s.supply ∧ (raiseIf b c s).resetLow = s.resetLow ∧
    (raiseIf b c s).clock = s.clock ∧ (raiseIf b c s).hostData = s.hostData ∧
    (raiseIf b c s).tripOut = s.tripOut ∧ (raiseIf b c s).ore = s.ore ∧
    (raiseIf b c s).cfl = s.cfl ∧ (raiseIf b c s).wlc = s.wlc ∧ (raiseIf b c s).dmc = s.dmc ∧
    (raiseIf b c s).tqa = s.tqa ∧ (raiseIf b c s).tcu = s.tcu ∧ (raiseIf b c s).rgc = s.rgc ∧
    (raiseIf b c s).stc = s.stc ∧ (raiseIf b c s).lmu = s.lmu ∧ (raiseIf b c s).pru = s.pru ∧
    (raiseIf b c s).draws = s.draws ∧ (raiseIf b c s).pending = s.pending := by
  simp only [raiseIf]
  (repeat' split) <;> simp

@[simp] theorem endService_frame (c : Cls) (s : State) :
    (endService c s).supply = s.supply ∧ (endService c s).resetLow = s.resetLow ∧
    (endService c s).clock = s.clock ∧ (endService c s).hostData = s.hostData ∧
    (endService c s).tripOut = s.tripOut ∧ (endService c s).ore = s.ore ∧
    (endService c s).cfl = s.cfl ∧ (endService c s).wlc = s.wlc ∧ (endService c s).dmc = s.dmc ∧
    (endService c s).tqa = s.tqa ∧ (endService c s).tcu = s.tcu ∧ (endService c s).rgc = s.rgc ∧
    (endService c s).stc = s.stc ∧ (endService c s).lmu = s.lmu ∧ (endService c s).pru = s.pru ∧
    (endService c s).draws = s.draws ∧ (endService c s).pending = s.pending := by
  simp only [endService]
  (repeat' split) <;> simp

@[simp] theorem presentClass_frame (c : Cls) (s : State) :
    (presentClass c s).supply = s.supply ∧ (presentClass c s).resetLow = s.resetLow ∧
    (presentClass c s).clock = s.clock ∧ (presentClass c s).tripOut = s.tripOut ∧
    (presentClass c s).ore = s.ore ∧ (presentClass c s).cfl = s.cfl ∧
    (presentClass c s).wlc = s.wlc ∧ (presentClass c s).dmc = s.dmc ∧
    (presentClass c s).tqa = s.tqa ∧ (presentClass c s).tcu = s.tcu ∧
    (presentClass c s).rgc = s.rgc ∧ (presentClass c s).stc = s.stc ∧
    (presentClass c s).lmu = s.lmu ∧ (presentClass c s).pru = s.pru ∧
    (presentClass c s).draws = s.draws ∧ (presentClass c s).pending = s.pending := by simp [presentClass]

@[simp] theorem poll_frame (s : State) :
    (poll s).supply = s.supply ∧ (poll s).resetLow = s.resetLow ∧ (poll s).clock = s.clock ∧
    (poll s).tripOut = s.tripOut ∧ (poll s).ore = s.ore ∧ (poll s).cfl = s.cfl ∧
    (poll s).wlc = s.wlc ∧ (poll s).dmc = s.dmc ∧ (poll s).tqa = s.tqa ∧ (poll s).tcu = s.tcu ∧
    (poll s).rgc = s.rgc ∧ (poll s).stc = s.stc ∧ (poll s).lmu = s.lmu ∧ (poll s).pru = s.pru ∧
    (poll s).draws = s.draws ∧ (poll s).pending = s.pending := by
  unfold poll
  generalize Atc.mostUrgent _ _ _ = o
  cases o <;> simp

@[simp] theorem endSpecific_frame (n : BitVec 4) (s : State) :
    (endSpecific n s).supply = s.supply ∧ (endSpecific n s).resetLow = s.resetLow ∧
    (endSpecific n s).clock = s.clock ∧ (endSpecific n s).hostData = s.hostData ∧
    (endSpecific n s).tripOut = s.tripOut ∧ (endSpecific n s).ore = s.ore ∧
    (endSpecific n s).cfl = s.cfl ∧ (endSpecific n s).wlc = s.wlc ∧ (endSpecific n s).dmc = s.dmc ∧
    (endSpecific n s).tqa = s.tqa ∧ (endSpecific n s).tcu = s.tcu ∧ (endSpecific n s).rgc = s.rgc ∧
    (endSpecific n s).stc = s.stc ∧ (endSpecific n s).lmu = s.lmu ∧ (endSpecific n s).pru = s.pru ∧
    (endSpecific n s).draws = s.draws ∧ (endSpecific n s).pending = s.pending := by
  unfold endSpecific
  generalize allClasses.find? _ = o
  cases o <;> simp

@[simp] theorem endNonSpecific_frame (s : State) :
    (endNonSpecific s).supply = s.supply ∧ (endNonSpecific s).resetLow = s.resetLow ∧
    (endNonSpecific s).clock = s.clock ∧ (endNonSpecific s).hostData = s.hostData ∧
    (endNonSpecific s).tripOut = s.tripOut ∧ (endNonSpecific s).ore = s.ore ∧
    (endNonSpecific s).cfl = s.cfl ∧ (endNonSpecific s).wlc = s.wlc ∧
    (endNonSpecific s).dmc = s.dmc ∧ (endNonSpecific s).tqa = s.tqa ∧
    (endNonSpecific s).tcu = s.tcu ∧ (endNonSpecific s).rgc = s.rgc ∧
    (endNonSpecific s).stc = s.stc ∧ (endNonSpecific s).lmu = s.lmu ∧
    (endNonSpecific s).pru = s.pru ∧ (endNonSpecific s).draws = s.draws ∧
    (endNonSpecific s).pending = s.pending := by
  simp only [endNonSpecific]
  (repeat' split) <;> simp

@[simp] theorem writeMask_frame (value : Word) (s : State) :
    (writeMask value s).supply = s.supply ∧ (writeMask value s).resetLow = s.resetLow ∧
    (writeMask value s).clock = s.clock ∧ (writeMask value s).xm = s.xm ∧
    (writeMask value s).hostData = s.hostData ∧ (writeMask value s).tripOut = s.tripOut ∧
    (writeMask value s).ore = s.ore ∧ (writeMask value s).cfl = s.cfl ∧
    (writeMask value s).wlc = s.wlc ∧ (writeMask value s).dmc = s.dmc ∧
    (writeMask value s).tqa = s.tqa ∧ (writeMask value s).tcu = s.tcu ∧
    (writeMask value s).rgc = s.rgc ∧ (writeMask value s).stc = s.stc ∧
    (writeMask value s).lmu = s.lmu ∧ (writeMask value s).pru = s.pru ∧
    (writeMask value s).draws = s.draws ∧ (writeMask value s).pending = s.pending := by simp [writeMask]

@[simp] theorem writeThreshold_frame (value : Word) (s : State) :
    (writeThreshold value s).supply = s.supply ∧ (writeThreshold value s).resetLow = s.resetLow ∧
    (writeThreshold value s).clock = s.clock ∧ (writeThreshold value s).xm = s.xm ∧
    (writeThreshold value s).hostData = s.hostData ∧ (writeThreshold value s).tripOut = s.tripOut ∧
    (writeThreshold value s).ore = s.ore ∧ (writeThreshold value s).cfl = s.cfl ∧
    (writeThreshold value s).wlc = s.wlc ∧ (writeThreshold value s).dmc = s.dmc ∧
    (writeThreshold value s).tqa = s.tqa ∧ (writeThreshold value s).tcu = s.tcu ∧
    (writeThreshold value s).rgc = s.rgc ∧ (writeThreshold value s).stc = s.stc ∧
    (writeThreshold value s).lmu = s.lmu ∧ (writeThreshold value s).pru = s.pru ∧
    (writeThreshold value s).draws = s.draws ∧ (writeThreshold value s).pending = s.pending := by simp [writeThreshold]

@[simp] theorem applyPriorities_frame (s : State) :
    (applyPriorities s).supply = s.supply ∧ (applyPriorities s).resetLow = s.resetLow ∧
    (applyPriorities s).clock = s.clock ∧ (applyPriorities s).xm = s.xm ∧
    (applyPriorities s).hostData = s.hostData ∧ (applyPriorities s).tripOut = s.tripOut ∧
    (applyPriorities s).ore = s.ore ∧ (applyPriorities s).cfl = s.cfl ∧
    (applyPriorities s).wlc = s.wlc ∧ (applyPriorities s).dmc = s.dmc ∧
    (applyPriorities s).tqa = s.tqa ∧ (applyPriorities s).tcu = s.tcu ∧
    (applyPriorities s).rgc = s.rgc ∧ (applyPriorities s).stc = s.stc ∧
    (applyPriorities s).lmu = s.lmu ∧ (applyPriorities s).pru = s.pru ∧
    (applyPriorities s).draws = s.draws ∧ (applyPriorities s).pending = s.pending := by simp [applyPriorities]

@[simp] theorem writeEnd_frame (cell : BitVec 6) (r : Result) (detail : List Word) (s : State) :
    (writeEnd cell r detail s).supply = s.supply ∧
    (writeEnd cell r detail s).resetLow = s.resetLow ∧ (writeEnd cell r detail s).clock = s.clock ∧
    (writeEnd cell r detail s).hostData = s.hostData ∧
    (writeEnd cell r detail s).tripOut = s.tripOut ∧ (writeEnd cell r detail s).atc = s.atc ∧
    (writeEnd cell r detail s).ore = s.ore ∧ (writeEnd cell r detail s).cfl = s.cfl ∧
    (writeEnd cell r detail s).wlc = s.wlc ∧ (writeEnd cell r detail s).dmc = s.dmc ∧
    (writeEnd cell r detail s).tqa = s.tqa ∧ (writeEnd cell r detail s).tcu = s.tcu ∧
    (writeEnd cell r detail s).rgc = s.rgc ∧ (writeEnd cell r detail s).stc = s.stc ∧
    (writeEnd cell r detail s).lmu = s.lmu ∧ (writeEnd cell r detail s).pru = s.pru ∧
    (writeEnd cell r detail s).draws = s.draws ∧ (writeEnd cell r detail s).pending = s.pending := by simp [writeEnd]

@[simp] theorem endCell_frame (cell : BitVec 6) (r : Result) (detail : List Word) (s : State) :
    (endCell cell r detail s).supply = s.supply ∧ (endCell cell r detail s).resetLow = s.resetLow ∧
    (endCell cell r detail s).clock = s.clock ∧ (endCell cell r detail s).hostData = s.hostData ∧
    (endCell cell r detail s).tripOut = s.tripOut ∧ (endCell cell r detail s).ore = s.ore ∧
    (endCell cell r detail s).cfl = s.cfl ∧ (endCell cell r detail s).wlc = s.wlc ∧
    (endCell cell r detail s).dmc = s.dmc ∧ (endCell cell r detail s).tqa = s.tqa ∧
    (endCell cell r detail s).tcu = s.tcu ∧ (endCell cell r detail s).rgc = s.rgc ∧
    (endCell cell r detail s).stc = s.stc ∧ (endCell cell r detail s).lmu = s.lmu ∧
    (endCell cell r detail s).pru = s.pru ∧ (endCell cell r detail s).draws = s.draws ∧
    (endCell cell r detail s).pending = s.pending := by simp [endCell]

@[simp] theorem endBadArgument_frame (cell : BitVec 6) (offset : Word) (s : State) :
    (endBadArgument cell offset s).supply = s.supply ∧
    (endBadArgument cell offset s).resetLow = s.resetLow ∧
    (endBadArgument cell offset s).clock = s.clock ∧
    (endBadArgument cell offset s).hostData = s.hostData ∧
    (endBadArgument cell offset s).tripOut = s.tripOut ∧
    (endBadArgument cell offset s).ore = s.ore ∧ (endBadArgument cell offset s).cfl = s.cfl ∧
    (endBadArgument cell offset s).wlc = s.wlc ∧ (endBadArgument cell offset s).dmc = s.dmc ∧
    (endBadArgument cell offset s).tqa = s.tqa ∧ (endBadArgument cell offset s).tcu = s.tcu ∧
    (endBadArgument cell offset s).rgc = s.rgc ∧ (endBadArgument cell offset s).stc = s.stc ∧
    (endBadArgument cell offset s).lmu = s.lmu ∧ (endBadArgument cell offset s).pru = s.pru ∧
    (endBadArgument cell offset s).draws = s.draws ∧
    (endBadArgument cell offset s).pending = s.pending := by simp [endBadArgument]

@[simp] theorem freeResource_frame (r : Resource) (s : State) :
    (freeResource r s).supply = s.supply ∧ (freeResource r s).resetLow = s.resetLow ∧
    (freeResource r s).clock = s.clock ∧ (freeResource r s).xm = s.xm ∧
    (freeResource r s).hostData = s.hostData ∧ (freeResource r s).tripOut = s.tripOut ∧
    (freeResource r s).atc = s.atc ∧ (freeResource r s).cfl = s.cfl ∧
    (freeResource r s).wlc = s.wlc ∧ (freeResource r s).dmc = s.dmc ∧
    (freeResource r s).tqa = s.tqa ∧ (freeResource r s).tcu = s.tcu ∧
    (freeResource r s).rgc = s.rgc ∧ (freeResource r s).stc = s.stc ∧
    (freeResource r s).lmu = s.lmu ∧ (freeResource r s).pru = s.pru ∧
    (freeResource r s).draws = s.draws ∧ (freeResource r s).pending = s.pending := by simp [freeResource]

@[simp] theorem complete_frame (r : Resource) (cell : BitVec 6) (result : Result) (detail : List Word) (s : State) :
    (complete r cell result detail s).supply = s.supply ∧
    (complete r cell result detail s).resetLow = s.resetLow ∧
    (complete r cell result detail s).clock = s.clock ∧
    (complete r cell result detail s).hostData = s.hostData ∧
    (complete r cell result detail s).tripOut = s.tripOut ∧
    (complete r cell result detail s).cfl = s.cfl ∧ (complete r cell result detail s).wlc = s.wlc ∧
    (complete r cell result detail s).dmc = s.dmc ∧ (complete r cell result detail s).tqa = s.tqa ∧
    (complete r cell result detail s).tcu = s.tcu ∧ (complete r cell result detail s).rgc = s.rgc ∧
    (complete r cell result detail s).stc = s.stc ∧ (complete r cell result detail s).lmu = s.lmu ∧
    (complete r cell result detail s).pru = s.pru ∧
    (complete r cell result detail s).draws = s.draws ∧
    (complete r cell result detail s).pending = s.pending := by
  simp only [complete]
  (repeat' split) <;> simp

@[simp] theorem setChain_frame (o : Ore) (s : State) :
    (setChain o s).supply = s.supply ∧ (setChain o s).resetLow = s.resetLow ∧
    (setChain o s).clock = s.clock ∧ (setChain o s).hostData = s.hostData ∧
    (setChain o s).tripOut = s.tripOut ∧ (setChain o s).atc = s.atc ∧ (setChain o s).cfl = s.cfl ∧
    (setChain o s).wlc = s.wlc ∧ (setChain o s).dmc = s.dmc ∧ (setChain o s).tqa = s.tqa ∧
    (setChain o s).tcu = s.tcu ∧ (setChain o s).rgc = s.rgc ∧ (setChain o s).stc = s.stc ∧
    (setChain o s).lmu = s.lmu ∧ (setChain o s).pru = s.pru ∧ (setChain o s).draws = s.draws ∧
    (setChain o s).pending = s.pending := by
  simp only [setChain]
  (repeat' split) <;> simp

@[simp] theorem restartChain_frame (index : BitVec 7) (s : State) :
    (restartChain index s).supply = s.supply ∧ (restartChain index s).resetLow = s.resetLow ∧
    (restartChain index s).clock = s.clock ∧ (restartChain index s).hostData = s.hostData ∧
    (restartChain index s).tripOut = s.tripOut ∧ (restartChain index s).atc = s.atc ∧
    (restartChain index s).cfl = s.cfl ∧ (restartChain index s).wlc = s.wlc ∧
    (restartChain index s).dmc = s.dmc ∧ (restartChain index s).tqa = s.tqa ∧
    (restartChain index s).tcu = s.tcu ∧ (restartChain index s).rgc = s.rgc ∧
    (restartChain index s).stc = s.stc ∧ (restartChain index s).lmu = s.lmu ∧
    (restartChain index s).pru = s.pru ∧ (restartChain index s).draws = s.draws ∧
    (restartChain index s).pending = s.pending := by
  simp only [restartChain]
  (repeat' split) <;> simp

@[simp] theorem foldl_writeEnd_frame (l : List Nat) (s : State) :
    (l.foldl (fun s n => writeEnd (BitVec.ofNat 6 n) .interrupted [] s) s).supply = s.supply ∧
    (l.foldl (fun s n => writeEnd (BitVec.ofNat 6 n) .interrupted [] s) s).resetLow = s.resetLow ∧
    (l.foldl (fun s n => writeEnd (BitVec.ofNat 6 n) .interrupted [] s) s).clock = s.clock ∧
    (l.foldl (fun s n => writeEnd (BitVec.ofNat 6 n) .interrupted [] s) s).hostData = s.hostData ∧
    (l.foldl (fun s n => writeEnd (BitVec.ofNat 6 n) .interrupted [] s) s).tripOut = s.tripOut ∧
    (l.foldl (fun s n => writeEnd (BitVec.ofNat 6 n) .interrupted [] s) s).atc = s.atc ∧
    (l.foldl (fun s n => writeEnd (BitVec.ofNat 6 n) .interrupted [] s) s).ore = s.ore ∧
    (l.foldl (fun s n => writeEnd (BitVec.ofNat 6 n) .interrupted [] s) s).cfl = s.cfl ∧
    (l.foldl (fun s n => writeEnd (BitVec.ofNat 6 n) .interrupted [] s) s).wlc = s.wlc ∧
    (l.foldl (fun s n => writeEnd (BitVec.ofNat 6 n) .interrupted [] s) s).dmc = s.dmc ∧
    (l.foldl (fun s n => writeEnd (BitVec.ofNat 6 n) .interrupted [] s) s).tqa = s.tqa ∧
    (l.foldl (fun s n => writeEnd (BitVec.ofNat 6 n) .interrupted [] s) s).tcu = s.tcu ∧
    (l.foldl (fun s n => writeEnd (BitVec.ofNat 6 n) .interrupted [] s) s).rgc = s.rgc ∧
    (l.foldl (fun s n => writeEnd (BitVec.ofNat 6 n) .interrupted [] s) s).stc = s.stc ∧
    (l.foldl (fun s n => writeEnd (BitVec.ofNat 6 n) .interrupted [] s) s).lmu = s.lmu ∧
    (l.foldl (fun s n => writeEnd (BitVec.ofNat 6 n) .interrupted [] s) s).pru = s.pru ∧
    (l.foldl (fun s n => writeEnd (BitVec.ofNat 6 n) .interrupted [] s) s).draws = s.draws ∧
    (l.foldl (fun s n => writeEnd (BitVec.ofNat 6 n) .interrupted [] s) s).pending = s.pending := by
  induction l generalizing s with
  | nil => simp
  | cons n l ih => simp [ih]

@[simp] theorem visitTaken_frame (s : State) :
    (visitTaken s).supply = s.supply ∧ (visitTaken s).resetLow = s.resetLow ∧
    (visitTaken s).clock = s.clock ∧ (visitTaken s).hostData = s.hostData ∧
    (visitTaken s).tripOut = s.tripOut ∧ (visitTaken s).ore = s.ore ∧ (visitTaken s).cfl = s.cfl ∧
    (visitTaken s).wlc = s.wlc ∧ (visitTaken s).dmc = s.dmc ∧ (visitTaken s).tqa = s.tqa ∧
    (visitTaken s).tcu = s.tcu ∧ (visitTaken s).rgc = s.rgc ∧ (visitTaken s).stc = s.stc ∧
    (visitTaken s).lmu = s.lmu ∧ (visitTaken s).pru = s.pru ∧ (visitTaken s).draws = s.draws ∧
    (visitTaken s).pending = s.pending := by simp [visitTaken]

@[simp] theorem putFaultImage_frame (s : State) :
    (putFaultImage s).supply = s.supply ∧ (putFaultImage s).resetLow = s.resetLow ∧
    (putFaultImage s).clock = s.clock ∧ (putFaultImage s).hostData = s.hostData ∧
    (putFaultImage s).tripOut = s.tripOut ∧ (putFaultImage s).atc = s.atc ∧
    (putFaultImage s).ore = s.ore ∧ (putFaultImage s).cfl = s.cfl ∧ (putFaultImage s).wlc = s.wlc ∧
    (putFaultImage s).dmc = s.dmc ∧ (putFaultImage s).tqa = s.tqa ∧ (putFaultImage s).tcu = s.tcu ∧
    (putFaultImage s).rgc = s.rgc ∧ (putFaultImage s).stc = s.stc ∧ (putFaultImage s).lmu = s.lmu ∧
    (putFaultImage s).pru = s.pru ∧ (putFaultImage s).draws = s.draws ∧
    (putFaultImage s).pending = s.pending := by simp [putFaultImage]

@[simp] theorem updatePru_frame (p : Pru) (s : State) :
    (updatePru p s).supply = s.supply ∧ (updatePru p s).resetLow = s.resetLow ∧
    (updatePru p s).clock = s.clock ∧ (updatePru p s).hostData = s.hostData ∧
    (updatePru p s).tripOut = s.tripOut ∧ (updatePru p s).atc = s.atc ∧
    (updatePru p s).ore = s.ore ∧ (updatePru p s).cfl = s.cfl ∧ (updatePru p s).wlc = s.wlc ∧
    (updatePru p s).dmc = s.dmc ∧ (updatePru p s).tqa = s.tqa ∧ (updatePru p s).tcu = s.tcu ∧
    (updatePru p s).rgc = s.rgc ∧ (updatePru p s).stc = s.stc ∧ (updatePru p s).lmu = s.lmu ∧
    (updatePru p s).draws = s.draws ∧ (updatePru p s).pending = s.pending := by
  simp only [updatePru]
  (repeat' split) <;> simp

@[simp] theorem note_frame (k : Kind) (subject : Subject) (present : Bool) (s : State) :
    (note k subject present s).supply = s.supply ∧
    (note k subject present s).resetLow = s.resetLow ∧ (note k subject present s).clock = s.clock ∧
    (note k subject present s).hostData = s.hostData ∧
    (note k subject present s).tripOut = s.tripOut ∧ (note k subject present s).ore = s.ore ∧
    (note k subject present s).cfl = s.cfl ∧ (note k subject present s).wlc = s.wlc ∧
    (note k subject present s).dmc = s.dmc ∧ (note k subject present s).tqa = s.tqa ∧
    (note k subject present s).tcu = s.tcu ∧ (note k subject present s).rgc = s.rgc ∧
    (note k subject present s).stc = s.stc ∧ (note k subject present s).lmu = s.lmu ∧
    (note k subject present s).draws = s.draws ∧ (note k subject present s).pending = s.pending := by simp [note]

@[simp] theorem noteIf_frame (b : Bool) (k : Kind) (subject : Subject) (present : Bool) (s : State) :
    (noteIf b k subject present s).supply = s.supply ∧
    (noteIf b k subject present s).resetLow = s.resetLow ∧
    (noteIf b k subject present s).clock = s.clock ∧
    (noteIf b k subject present s).hostData = s.hostData ∧
    (noteIf b k subject present s).tripOut = s.tripOut ∧
    (noteIf b k subject present s).ore = s.ore ∧ (noteIf b k subject present s).cfl = s.cfl ∧
    (noteIf b k subject present s).wlc = s.wlc ∧ (noteIf b k subject present s).dmc = s.dmc ∧
    (noteIf b k subject present s).tqa = s.tqa ∧ (noteIf b k subject present s).tcu = s.tcu ∧
    (noteIf b k subject present s).rgc = s.rgc ∧ (noteIf b k subject present s).stc = s.stc ∧
    (noteIf b k subject present s).lmu = s.lmu ∧ (noteIf b k subject present s).draws = s.draws ∧
    (noteIf b k subject present s).pending = s.pending := by
  simp only [noteIf]
  (repeat' split) <;> simp

@[simp] theorem reportLoss_frame (u : UnitId) (present : Bool) (s : State) :
    (reportLoss u present s).supply = s.supply ∧ (reportLoss u present s).resetLow = s.resetLow ∧
    (reportLoss u present s).clock = s.clock ∧ (reportLoss u present s).hostData = s.hostData ∧
    (reportLoss u present s).tripOut = s.tripOut ∧ (reportLoss u present s).ore = s.ore ∧
    (reportLoss u present s).cfl = s.cfl ∧ (reportLoss u present s).wlc = s.wlc ∧
    (reportLoss u present s).dmc = s.dmc ∧ (reportLoss u present s).tqa = s.tqa ∧
    (reportLoss u present s).tcu = s.tcu ∧ (reportLoss u present s).rgc = s.rgc ∧
    (reportLoss u present s).stc = s.stc ∧ (reportLoss u present s).lmu = s.lmu ∧
    (reportLoss u present s).draws = s.draws ∧ (reportLoss u present s).pending = s.pending := by
  simp only [reportLoss]
  (repeat' split) <;> simp

@[simp] theorem clearProgressOf_frame (k : Kind) (s : State) :
    (clearProgressOf k s).supply = s.supply ∧ (clearProgressOf k s).resetLow = s.resetLow ∧
    (clearProgressOf k s).clock = s.clock ∧ (clearProgressOf k s).hostData = s.hostData ∧
    (clearProgressOf k s).tripOut = s.tripOut ∧ (clearProgressOf k s).atc = s.atc ∧
    (clearProgressOf k s).ore = s.ore ∧ (clearProgressOf k s).cfl = s.cfl ∧
    (clearProgressOf k s).wlc = s.wlc ∧ (clearProgressOf k s).dmc = s.dmc ∧
    (clearProgressOf k s).tqa = s.tqa ∧ (clearProgressOf k s).tcu = s.tcu ∧
    (clearProgressOf k s).rgc = s.rgc ∧ (clearProgressOf k s).stc = s.stc ∧
    (clearProgressOf k s).lmu = s.lmu ∧ (clearProgressOf k s).draws = s.draws ∧
    (clearProgressOf k s).pending = s.pending := by
  simp only [clearProgressOf]
  (repeat' split) <;> simp

@[simp] theorem noteOvervolt_frame (vF : Nat) (s : State) :
    (noteOvervolt vF s).supply = s.supply ∧ (noteOvervolt vF s).resetLow = s.resetLow ∧
    (noteOvervolt vF s).clock = s.clock ∧ (noteOvervolt vF s).hostData = s.hostData ∧
    (noteOvervolt vF s).tripOut = s.tripOut ∧ (noteOvervolt vF s).ore = s.ore ∧
    (noteOvervolt vF s).cfl = s.cfl ∧ (noteOvervolt vF s).wlc = s.wlc ∧
    (noteOvervolt vF s).dmc = s.dmc ∧ (noteOvervolt vF s).tqa = s.tqa ∧
    (noteOvervolt vF s).tcu = s.tcu ∧ (noteOvervolt vF s).rgc = s.rgc ∧
    (noteOvervolt vF s).stc = s.stc ∧ (noteOvervolt vF s).lmu = s.lmu ∧
    (noteOvervolt vF s).draws = s.draws ∧ (noteOvervolt vF s).pending = s.pending := by
  simp only [noteOvervolt]
  (repeat' split) <;> simp

@[simp] theorem observeEscalation_frame (s : State) :
    (observeEscalation s).supply = s.supply ∧ (observeEscalation s).resetLow = s.resetLow ∧
    (observeEscalation s).clock = s.clock ∧ (observeEscalation s).hostData = s.hostData ∧
    (observeEscalation s).tripOut = s.tripOut ∧ (observeEscalation s).ore = s.ore ∧
    (observeEscalation s).cfl = s.cfl ∧ (observeEscalation s).wlc = s.wlc ∧
    (observeEscalation s).dmc = s.dmc ∧ (observeEscalation s).tqa = s.tqa ∧
    (observeEscalation s).tcu = s.tcu ∧ (observeEscalation s).rgc = s.rgc ∧
    (observeEscalation s).stc = s.stc ∧ (observeEscalation s).lmu = s.lmu ∧
    (observeEscalation s).draws = s.draws ∧ (observeEscalation s).pending = s.pending := by simp [observeEscalation]

@[simp] theorem rewriteActions_frame (s : State) :
    (rewriteActions s).supply = s.supply ∧ (rewriteActions s).resetLow = s.resetLow ∧
    (rewriteActions s).clock = s.clock ∧ (rewriteActions s).hostData = s.hostData ∧
    (rewriteActions s).tripOut = s.tripOut ∧ (rewriteActions s).ore = s.ore ∧
    (rewriteActions s).cfl = s.cfl ∧ (rewriteActions s).wlc = s.wlc ∧
    (rewriteActions s).dmc = s.dmc ∧ (rewriteActions s).tqa = s.tqa ∧
    (rewriteActions s).tcu = s.tcu ∧ (rewriteActions s).rgc = s.rgc ∧
    (rewriteActions s).stc = s.stc ∧ (rewriteActions s).lmu = s.lmu ∧
    (rewriteActions s).draws = s.draws ∧ (rewriteActions s).pending = s.pending := by simp [rewriteActions]

@[simp] theorem changeStopMode_frame (s : State) :
    (changeStopMode s).supply = s.supply ∧ (changeStopMode s).resetLow = s.resetLow ∧
    (changeStopMode s).clock = s.clock ∧ (changeStopMode s).hostData = s.hostData ∧
    (changeStopMode s).tripOut = s.tripOut ∧ (changeStopMode s).atc = s.atc ∧
    (changeStopMode s).ore = s.ore ∧ (changeStopMode s).cfl = s.cfl ∧
    (changeStopMode s).wlc = s.wlc ∧ (changeStopMode s).dmc = s.dmc ∧
    (changeStopMode s).tqa = s.tqa ∧ (changeStopMode s).tcu = s.tcu ∧
    (changeStopMode s).rgc = s.rgc ∧ (changeStopMode s).stc = s.stc ∧
    (changeStopMode s).lmu = s.lmu ∧ (changeStopMode s).draws = s.draws ∧
    (changeStopMode s).pending = s.pending := by simp [changeStopMode]

end Sys2Proof.Machine
end

