-- ==== Sys2Proof/Laws/FramesDrive.lean ====
section
/-! SUPPORT. The frames of the operations of the traction, load model and steering blocks: what each one leaves. -/

namespace Sys2Proof.Machine

@[simp] theorem setTcuWheel_frame (w : Wheel) (t : TcuWheel) (s : State) :
    (setTcuWheel w t s).supply = s.supply ∧ (setTcuWheel w t s).resetLow = s.resetLow ∧
    (setTcuWheel w t s).clock = s.clock ∧ (setTcuWheel w t s).xm = s.xm ∧
    (setTcuWheel w t s).hostData = s.hostData ∧ (setTcuWheel w t s).tripOut = s.tripOut ∧
    (setTcuWheel w t s).atc = s.atc ∧ (setTcuWheel w t s).ore = s.ore ∧
    (setTcuWheel w t s).cfl = s.cfl ∧ (setTcuWheel w t s).wlc = s.wlc ∧
    (setTcuWheel w t s).dmc = s.dmc ∧ (setTcuWheel w t s).tqa = s.tqa ∧
    (setTcuWheel w t s).rgc = s.rgc ∧ (setTcuWheel w t s).stc = s.stc ∧
    (setTcuWheel w t s).lmu = s.lmu ∧ (setTcuWheel w t s).pru = s.pru ∧
    (setTcuWheel w t s).draws = s.draws ∧ (setTcuWheel w t s).pending = s.pending := by simp [setTcuWheel]

@[simp] theorem putTcuSection_frame (s : State) :
    (putTcuSection s).supply = s.supply ∧ (putTcuSection s).resetLow = s.resetLow ∧
    (putTcuSection s).clock = s.clock ∧ (putTcuSection s).hostData = s.hostData ∧
    (putTcuSection s).tripOut = s.tripOut ∧ (putTcuSection s).atc = s.atc ∧
    (putTcuSection s).ore = s.ore ∧ (putTcuSection s).cfl = s.cfl ∧ (putTcuSection s).wlc = s.wlc ∧
    (putTcuSection s).dmc = s.dmc ∧ (putTcuSection s).tqa = s.tqa ∧ (putTcuSection s).tcu = s.tcu ∧
    (putTcuSection s).rgc = s.rgc ∧ (putTcuSection s).stc = s.stc ∧ (putTcuSection s).lmu = s.lmu ∧
    (putTcuSection s).pru = s.pru ∧ (putTcuSection s).draws = s.draws ∧
    (putTcuSection s).pending = s.pending := by simp [putTcuSection]

@[simp] theorem putTraction_frame (w : Wheel) (s : State) :
    (putTraction w s).supply = s.supply ∧ (putTraction w s).resetLow = s.resetLow ∧
    (putTraction w s).clock = s.clock ∧ (putTraction w s).hostData = s.hostData ∧
    (putTraction w s).tripOut = s.tripOut ∧ (putTraction w s).atc = s.atc ∧
    (putTraction w s).ore = s.ore ∧ (putTraction w s).cfl = s.cfl ∧ (putTraction w s).wlc = s.wlc ∧
    (putTraction w s).dmc = s.dmc ∧ (putTraction w s).tqa = s.tqa ∧ (putTraction w s).tcu = s.tcu ∧
    (putTraction w s).rgc = s.rgc ∧ (putTraction w s).stc = s.stc ∧ (putTraction w s).lmu = s.lmu ∧
    (putTraction w s).pru = s.pru ∧ (putTraction w s).draws = s.draws ∧
    (putTraction w s).pending = s.pending := by simp [putTraction]

@[simp] theorem setVRef_frame (v : Option Nat) (s : State) :
    (setVRef v s).supply = s.supply ∧ (setVRef v s).resetLow = s.resetLow ∧
    (setVRef v s).clock = s.clock ∧ (setVRef v s).xm = s.xm ∧ (setVRef v s).hostData = s.hostData ∧
    (setVRef v s).tripOut = s.tripOut ∧ (setVRef v s).atc = s.atc ∧ (setVRef v s).ore = s.ore ∧
    (setVRef v s).cfl = s.cfl ∧ (setVRef v s).wlc = s.wlc ∧ (setVRef v s).dmc = s.dmc ∧
    (setVRef v s).tqa = s.tqa ∧ (setVRef v s).rgc = s.rgc ∧ (setVRef v s).stc = s.stc ∧
    (setVRef v s).lmu = s.lmu ∧ (setVRef v s).pru = s.pru ∧ (setVRef v s).draws = s.draws ∧
    (setVRef v s).pending = s.pending := by simp [setVRef]

@[simp] theorem recomputeVRef_frame (s : State) :
    (recomputeVRef s).supply = s.supply ∧ (recomputeVRef s).resetLow = s.resetLow ∧
    (recomputeVRef s).clock = s.clock ∧ (recomputeVRef s).xm = s.xm ∧
    (recomputeVRef s).hostData = s.hostData ∧ (recomputeVRef s).tripOut = s.tripOut ∧
    (recomputeVRef s).atc = s.atc ∧ (recomputeVRef s).ore = s.ore ∧ (recomputeVRef s).cfl = s.cfl ∧
    (recomputeVRef s).wlc = s.wlc ∧ (recomputeVRef s).dmc = s.dmc ∧ (recomputeVRef s).tqa = s.tqa ∧
    (recomputeVRef s).rgc = s.rgc ∧ (recomputeVRef s).stc = s.stc ∧ (recomputeVRef s).lmu = s.lmu ∧
    (recomputeVRef s).pru = s.pru ∧ (recomputeVRef s).draws = s.draws ∧
    (recomputeVRef s).pending = s.pending := by
  simp only [recomputeVRef]
  (repeat' split) <;> simp

@[simp] theorem judgeQuality_frame (s : State) :
    (judgeQuality s).supply = s.supply ∧ (judgeQuality s).resetLow = s.resetLow ∧
    (judgeQuality s).clock = s.clock ∧ (judgeQuality s).hostData = s.hostData ∧
    (judgeQuality s).tripOut = s.tripOut ∧ (judgeQuality s).ore = s.ore ∧
    (judgeQuality s).cfl = s.cfl ∧ (judgeQuality s).wlc = s.wlc ∧ (judgeQuality s).dmc = s.dmc ∧
    (judgeQuality s).tqa = s.tqa ∧ (judgeQuality s).rgc = s.rgc ∧ (judgeQuality s).stc = s.stc ∧
    (judgeQuality s).lmu = s.lmu ∧ (judgeQuality s).pru = s.pru ∧
    (judgeQuality s).draws = s.draws ∧ (judgeQuality s).pending = s.pending := by
  simp only [judgeQuality]
  (repeat' split) <;> simp

@[simp] theorem recomputeIn_frame (q : Quality) (s : State) :
    (recomputeIn q s).supply = s.supply ∧ (recomputeIn q s).resetLow = s.resetLow ∧
    (recomputeIn q s).clock = s.clock ∧ (recomputeIn q s).xm = s.xm ∧
    (recomputeIn q s).hostData = s.hostData ∧ (recomputeIn q s).tripOut = s.tripOut ∧
    (recomputeIn q s).atc = s.atc ∧ (recomputeIn q s).ore = s.ore ∧ (recomputeIn q s).cfl = s.cfl ∧
    (recomputeIn q s).wlc = s.wlc ∧ (recomputeIn q s).dmc = s.dmc ∧ (recomputeIn q s).tqa = s.tqa ∧
    (recomputeIn q s).rgc = s.rgc ∧ (recomputeIn q s).stc = s.stc ∧ (recomputeIn q s).lmu = s.lmu ∧
    (recomputeIn q s).pru = s.pru ∧ (recomputeIn q s).draws = s.draws ∧
    (recomputeIn q s).pending = s.pending := by
  simp only [recomputeIn]
  (repeat' split) <;> simp

@[simp] theorem noteChange_frame (k : Kind) (subject : Subject) (before after : Bool) (s : State) :
    (noteChange k subject before after s).supply = s.supply ∧
    (noteChange k subject before after s).resetLow = s.resetLow ∧
    (noteChange k subject before after s).clock = s.clock ∧
    (noteChange k subject before after s).hostData = s.hostData ∧
    (noteChange k subject before after s).tripOut = s.tripOut ∧
    (noteChange k subject before after s).ore = s.ore ∧
    (noteChange k subject before after s).cfl = s.cfl ∧
    (noteChange k subject before after s).wlc = s.wlc ∧
    (noteChange k subject before after s).dmc = s.dmc ∧
    (noteChange k subject before after s).tqa = s.tqa ∧
    (noteChange k subject before after s).tcu = s.tcu ∧
    (noteChange k subject before after s).rgc = s.rgc ∧
    (noteChange k subject before after s).stc = s.stc ∧
    (noteChange k subject before after s).lmu = s.lmu ∧
    (noteChange k subject before after s).draws = s.draws ∧
    (noteChange k subject before after s).pending = s.pending := by simp [noteChange]

@[simp] theorem takeSpeed_frame (w : Wheel) (s : State) :
    (takeSpeed w s).supply = s.supply ∧ (takeSpeed w s).resetLow = s.resetLow ∧
    (takeSpeed w s).clock = s.clock ∧ (takeSpeed w s).hostData = s.hostData ∧
    (takeSpeed w s).tripOut = s.tripOut ∧ (takeSpeed w s).ore = s.ore ∧
    (takeSpeed w s).cfl = s.cfl ∧ (takeSpeed w s).wlc = s.wlc ∧ (takeSpeed w s).dmc = s.dmc ∧
    (takeSpeed w s).tqa = s.tqa ∧ (takeSpeed w s).rgc = s.rgc ∧ (takeSpeed w s).stc = s.stc ∧
    (takeSpeed w s).lmu = s.lmu ∧ (takeSpeed w s).draws = s.draws ∧
    (takeSpeed w s).pending = s.pending := by
  simp only [takeSpeed]
  (repeat' split) <;> simp

@[simp] theorem judgeSlip_frame (w : Wheel) (s : State) :
    (judgeSlip w s).supply = s.supply ∧ (judgeSlip w s).resetLow = s.resetLow ∧
    (judgeSlip w s).clock = s.clock ∧ (judgeSlip w s).hostData = s.hostData ∧
    (judgeSlip w s).tripOut = s.tripOut ∧ (judgeSlip w s).ore = s.ore ∧
    (judgeSlip w s).cfl = s.cfl ∧ (judgeSlip w s).wlc = s.wlc ∧ (judgeSlip w s).dmc = s.dmc ∧
    (judgeSlip w s).tqa = s.tqa ∧ (judgeSlip w s).rgc = s.rgc ∧ (judgeSlip w s).stc = s.stc ∧
    (judgeSlip w s).lmu = s.lmu ∧ (judgeSlip w s).draws = s.draws ∧
    (judgeSlip w s).pending = s.pending := by simp [judgeSlip]

@[simp] theorem tcuReport_frame (w : Wheel) (s : State) :
    (tcuReport w s).supply = s.supply ∧ (tcuReport w s).resetLow = s.resetLow ∧
    (tcuReport w s).clock = s.clock ∧ (tcuReport w s).hostData = s.hostData ∧
    (tcuReport w s).tripOut = s.tripOut ∧ (tcuReport w s).ore = s.ore ∧
    (tcuReport w s).cfl = s.cfl ∧ (tcuReport w s).wlc = s.wlc ∧ (tcuReport w s).dmc = s.dmc ∧
    (tcuReport w s).tqa = s.tqa ∧ (tcuReport w s).rgc = s.rgc ∧ (tcuReport w s).stc = s.stc ∧
    (tcuReport w s).lmu = s.lmu ∧ (tcuReport w s).draws = s.draws ∧
    (tcuReport w s).pending = s.pending := by simp [tcuReport, runAll]

@[simp] theorem tcuSteerReport_frame (s : State) :
    (tcuSteerReport s).supply = s.supply ∧ (tcuSteerReport s).resetLow = s.resetLow ∧
    (tcuSteerReport s).clock = s.clock ∧ (tcuSteerReport s).hostData = s.hostData ∧
    (tcuSteerReport s).tripOut = s.tripOut ∧ (tcuSteerReport s).ore = s.ore ∧
    (tcuSteerReport s).cfl = s.cfl ∧ (tcuSteerReport s).wlc = s.wlc ∧
    (tcuSteerReport s).dmc = s.dmc ∧ (tcuSteerReport s).tqa = s.tqa ∧
    (tcuSteerReport s).rgc = s.rgc ∧ (tcuSteerReport s).stc = s.stc ∧
    (tcuSteerReport s).lmu = s.lmu ∧ (tcuSteerReport s).pru = s.pru ∧
    (tcuSteerReport s).draws = s.draws ∧ (tcuSteerReport s).pending = s.pending := by
  simp only [tcuSteerReport, runAll]
  (repeat' split) <;> simp

@[simp] theorem tcuPage_frame (s : State) :
    (tcuPage s).supply = s.supply ∧ (tcuPage s).resetLow = s.resetLow ∧
    (tcuPage s).clock = s.clock ∧ (tcuPage s).hostData = s.hostData ∧
    (tcuPage s).tripOut = s.tripOut ∧ (tcuPage s).ore = s.ore ∧ (tcuPage s).cfl = s.cfl ∧
    (tcuPage s).wlc = s.wlc ∧ (tcuPage s).dmc = s.dmc ∧ (tcuPage s).tqa = s.tqa ∧
    (tcuPage s).rgc = s.rgc ∧ (tcuPage s).stc = s.stc ∧ (tcuPage s).lmu = s.lmu ∧
    (tcuPage s).pru = s.pru ∧ (tcuPage s).draws = s.draws ∧ (tcuPage s).pending = s.pending := by simp [tcuPage, runAll]

@[simp] theorem alterWheel_frame (w : Wheel) (t : TcuWheel) (s : State) :
    (alterWheel w t s).supply = s.supply ∧ (alterWheel w t s).resetLow = s.resetLow ∧
    (alterWheel w t s).clock = s.clock ∧ (alterWheel w t s).hostData = s.hostData ∧
    (alterWheel w t s).tripOut = s.tripOut ∧ (alterWheel w t s).atc = s.atc ∧
    (alterWheel w t s).ore = s.ore ∧ (alterWheel w t s).cfl = s.cfl ∧
    (alterWheel w t s).wlc = s.wlc ∧ (alterWheel w t s).dmc = s.dmc ∧
    (alterWheel w t s).tqa = s.tqa ∧ (alterWheel w t s).rgc = s.rgc ∧
    (alterWheel w t s).stc = s.stc ∧ (alterWheel w t s).lmu = s.lmu ∧
    (alterWheel w t s).pru = s.pru ∧ (alterWheel w t s).draws = s.draws ∧
    (alterWheel w t s).pending = s.pending := by
  simp only [alterWheel]
  (repeat' split) <;> simp

@[simp] theorem tcuSubstateChange_frame (s : State) :
    (tcuSubstateChange s).supply = s.supply ∧ (tcuSubstateChange s).resetLow = s.resetLow ∧
    (tcuSubstateChange s).clock = s.clock ∧ (tcuSubstateChange s).hostData = s.hostData ∧
    (tcuSubstateChange s).tripOut = s.tripOut ∧ (tcuSubstateChange s).ore = s.ore ∧
    (tcuSubstateChange s).cfl = s.cfl ∧ (tcuSubstateChange s).wlc = s.wlc ∧
    (tcuSubstateChange s).dmc = s.dmc ∧ (tcuSubstateChange s).tqa = s.tqa ∧
    (tcuSubstateChange s).rgc = s.rgc ∧ (tcuSubstateChange s).stc = s.stc ∧
    (tcuSubstateChange s).lmu = s.lmu ∧ (tcuSubstateChange s).pru = s.pru ∧
    (tcuSubstateChange s).draws = s.draws ∧ (tcuSubstateChange s).pending = s.pending := by simp [tcuSubstateChange, runAll, forWheels]

@[simp] theorem excludeAtTcu_frame (w : Wheel) (s : State) :
    (excludeAtTcu w s).supply = s.supply ∧ (excludeAtTcu w s).resetLow = s.resetLow ∧
    (excludeAtTcu w s).clock = s.clock ∧ (excludeAtTcu w s).hostData = s.hostData ∧
    (excludeAtTcu w s).tripOut = s.tripOut ∧ (excludeAtTcu w s).ore = s.ore ∧
    (excludeAtTcu w s).cfl = s.cfl ∧ (excludeAtTcu w s).wlc = s.wlc ∧
    (excludeAtTcu w s).dmc = s.dmc ∧ (excludeAtTcu w s).tqa = s.tqa ∧
    (excludeAtTcu w s).rgc = s.rgc ∧ (excludeAtTcu w s).stc = s.stc ∧
    (excludeAtTcu w s).lmu = s.lmu ∧ (excludeAtTcu w s).draws = s.draws ∧
    (excludeAtTcu w s).pending = s.pending := by simp [excludeAtTcu]

@[simp] theorem tcuExclusion_frame (before : PerWheel Bool) (s : State) :
    (tcuExclusion before s).supply = s.supply ∧ (tcuExclusion before s).resetLow = s.resetLow ∧
    (tcuExclusion before s).clock = s.clock ∧ (tcuExclusion before s).hostData = s.hostData ∧
    (tcuExclusion before s).tripOut = s.tripOut ∧ (tcuExclusion before s).ore = s.ore ∧
    (tcuExclusion before s).cfl = s.cfl ∧ (tcuExclusion before s).wlc = s.wlc ∧
    (tcuExclusion before s).dmc = s.dmc ∧ (tcuExclusion before s).tqa = s.tqa ∧
    (tcuExclusion before s).rgc = s.rgc ∧ (tcuExclusion before s).stc = s.stc ∧
    (tcuExclusion before s).lmu = s.lmu ∧ (tcuExclusion before s).draws = s.draws ∧
    (tcuExclusion before s).pending = s.pending := by
  simp only [tcuExclusion, runAll, forWheels]
  (repeat' split) <;> simp

@[simp] theorem putDerateImage_frame (s : State) :
    (putDerateImage s).supply = s.supply ∧ (putDerateImage s).resetLow = s.resetLow ∧
    (putDerateImage s).clock = s.clock ∧ (putDerateImage s).hostData = s.hostData ∧
    (putDerateImage s).tripOut = s.tripOut ∧ (putDerateImage s).atc = s.atc ∧
    (putDerateImage s).ore = s.ore ∧ (putDerateImage s).cfl = s.cfl ∧
    (putDerateImage s).wlc = s.wlc ∧ (putDerateImage s).dmc = s.dmc ∧
    (putDerateImage s).tqa = s.tqa ∧ (putDerateImage s).tcu = s.tcu ∧
    (putDerateImage s).rgc = s.rgc ∧ (putDerateImage s).stc = s.stc ∧
    (putDerateImage s).lmu = s.lmu ∧ (putDerateImage s).pru = s.pru ∧
    (putDerateImage s).draws = s.draws ∧ (putDerateImage s).pending = s.pending := by simp [putDerateImage]

@[simp] theorem post_frame (source : DSource) (target : DTarget) (factor : Nat) (s : State) :
    (post source target factor s).supply = s.supply ∧
    (post source target factor s).resetLow = s.resetLow ∧
    (post source target factor s).clock = s.clock ∧
    (post source target factor s).hostData = s.hostData ∧
    (post source target factor s).tripOut = s.tripOut ∧ (post source target factor s).ore = s.ore ∧
    (post source target factor s).cfl = s.cfl ∧ (post source target factor s).wlc = s.wlc ∧
    (post source target factor s).dmc = s.dmc ∧ (post source target factor s).tqa = s.tqa ∧
    (post source target factor s).tcu = s.tcu ∧ (post source target factor s).rgc = s.rgc ∧
    (post source target factor s).stc = s.stc ∧ (post source target factor s).pru = s.pru ∧
    (post source target factor s).draws = s.draws ∧
    (post source target factor s).pending = s.pending := by
  simp only [post]
  (repeat' split) <;> simp

@[simp] theorem putLmuSection_frame (s : State) :
    (putLmuSection s).supply = s.supply ∧ (putLmuSection s).resetLow = s.resetLow ∧
    (putLmuSection s).clock = s.clock ∧ (putLmuSection s).hostData = s.hostData ∧
    (putLmuSection s).tripOut = s.tripOut ∧ (putLmuSection s).atc = s.atc ∧
    (putLmuSection s).ore = s.ore ∧ (putLmuSection s).cfl = s.cfl ∧ (putLmuSection s).wlc = s.wlc ∧
    (putLmuSection s).dmc = s.dmc ∧ (putLmuSection s).tqa = s.tqa ∧ (putLmuSection s).tcu = s.tcu ∧
    (putLmuSection s).rgc = s.rgc ∧ (putLmuSection s).stc = s.stc ∧ (putLmuSection s).lmu = s.lmu ∧
    (putLmuSection s).pru = s.pru ∧ (putLmuSection s).draws = s.draws ∧
    (putLmuSection s).pending = s.pending := by simp [putLmuSection]

@[simp] theorem putBankHeat_frame (b : Bank) (s : State) :
    (putBankHeat b s).supply = s.supply ∧ (putBankHeat b s).resetLow = s.resetLow ∧
    (putBankHeat b s).clock = s.clock ∧ (putBankHeat b s).hostData = s.hostData ∧
    (putBankHeat b s).tripOut = s.tripOut ∧ (putBankHeat b s).atc = s.atc ∧
    (putBankHeat b s).ore = s.ore ∧ (putBankHeat b s).cfl = s.cfl ∧ (putBankHeat b s).wlc = s.wlc ∧
    (putBankHeat b s).dmc = s.dmc ∧ (putBankHeat b s).tqa = s.tqa ∧ (putBankHeat b s).tcu = s.tcu ∧
    (putBankHeat b s).rgc = s.rgc ∧ (putBankHeat b s).stc = s.stc ∧ (putBankHeat b s).lmu = s.lmu ∧
    (putBankHeat b s).pru = s.pru ∧ (putBankHeat b s).draws = s.draws ∧
    (putBankHeat b s).pending = s.pending := by simp [putBankHeat]

@[simp] theorem takeAmbient_frame (s : State) :
    (takeAmbient s).supply = s.supply ∧ (takeAmbient s).resetLow = s.resetLow ∧
    (takeAmbient s).clock = s.clock ∧ (takeAmbient s).xm = s.xm ∧
    (takeAmbient s).hostData = s.hostData ∧ (takeAmbient s).tripOut = s.tripOut ∧
    (takeAmbient s).atc = s.atc ∧ (takeAmbient s).ore = s.ore ∧ (takeAmbient s).cfl = s.cfl ∧
    (takeAmbient s).wlc = s.wlc ∧ (takeAmbient s).dmc = s.dmc ∧ (takeAmbient s).tqa = s.tqa ∧
    (takeAmbient s).tcu = s.tcu ∧ (takeAmbient s).rgc = s.rgc ∧ (takeAmbient s).stc = s.stc ∧
    (takeAmbient s).pru = s.pru ∧ (takeAmbient s).draws = s.draws ∧
    (takeAmbient s).pending = s.pending := by simp [takeAmbient]

@[simp] theorem setBlowerFail_frame (s : State) :
    (setBlowerFail s).supply = s.supply ∧ (setBlowerFail s).resetLow = s.resetLow ∧
    (setBlowerFail s).clock = s.clock ∧ (setBlowerFail s).hostData = s.hostData ∧
    (setBlowerFail s).tripOut = s.tripOut ∧ (setBlowerFail s).ore = s.ore ∧
    (setBlowerFail s).cfl = s.cfl ∧ (setBlowerFail s).wlc = s.wlc ∧ (setBlowerFail s).dmc = s.dmc ∧
    (setBlowerFail s).tqa = s.tqa ∧ (setBlowerFail s).tcu = s.tcu ∧ (setBlowerFail s).rgc = s.rgc ∧
    (setBlowerFail s).stc = s.stc ∧ (setBlowerFail s).draws = s.draws ∧
    (setBlowerFail s).pending = s.pending := by simp [setBlowerFail]

@[simp] theorem clearBlowerFail_frame (s : State) :
    (clearBlowerFail s).supply = s.supply ∧ (clearBlowerFail s).resetLow = s.resetLow ∧
    (clearBlowerFail s).clock = s.clock ∧ (clearBlowerFail s).hostData = s.hostData ∧
    (clearBlowerFail s).tripOut = s.tripOut ∧ (clearBlowerFail s).ore = s.ore ∧
    (clearBlowerFail s).cfl = s.cfl ∧ (clearBlowerFail s).wlc = s.wlc ∧
    (clearBlowerFail s).dmc = s.dmc ∧ (clearBlowerFail s).tqa = s.tqa ∧
    (clearBlowerFail s).tcu = s.tcu ∧ (clearBlowerFail s).rgc = s.rgc ∧
    (clearBlowerFail s).stc = s.stc ∧ (clearBlowerFail s).draws = s.draws ∧
    (clearBlowerFail s).pending = s.pending := by simp [clearBlowerFail]

@[simp] theorem judgeBlower_frame (running : Bool) (s : State) :
    (judgeBlower running s).supply = s.supply ∧ (judgeBlower running s).resetLow = s.resetLow ∧
    (judgeBlower running s).clock = s.clock ∧ (judgeBlower running s).hostData = s.hostData ∧
    (judgeBlower running s).tripOut = s.tripOut ∧ (judgeBlower running s).ore = s.ore ∧
    (judgeBlower running s).cfl = s.cfl ∧ (judgeBlower running s).wlc = s.wlc ∧
    (judgeBlower running s).dmc = s.dmc ∧ (judgeBlower running s).tqa = s.tqa ∧
    (judgeBlower running s).tcu = s.tcu ∧ (judgeBlower running s).rgc = s.rgc ∧
    (judgeBlower running s).stc = s.stc ∧ (judgeBlower running s).draws = s.draws ∧
    (judgeBlower running s).pending = s.pending := by
  simp only [judgeBlower]
  (repeat' split) <;> simp

@[simp] theorem settleDuty_frame (s : State) :
    (settleDuty s).supply = s.supply ∧ (settleDuty s).resetLow = s.resetLow ∧
    (settleDuty s).clock = s.clock ∧ (settleDuty s).xm = s.xm ∧
    (settleDuty s).hostData = s.hostData ∧ (settleDuty s).tripOut = s.tripOut ∧
    (settleDuty s).atc = s.atc ∧ (settleDuty s).ore = s.ore ∧ (settleDuty s).cfl = s.cfl ∧
    (settleDuty s).wlc = s.wlc ∧ (settleDuty s).dmc = s.dmc ∧ (settleDuty s).tqa = s.tqa ∧
    (settleDuty s).tcu = s.tcu ∧ (settleDuty s).rgc = s.rgc ∧ (settleDuty s).stc = s.stc ∧
    (settleDuty s).pru = s.pru ∧ (settleDuty s).draws = s.draws ∧
    (settleDuty s).pending = s.pending := by
  simp only [settleDuty]
  (repeat' split) <;> simp

@[simp] theorem updateHeat_frame (b : Bank) (s : State) :
    (updateHeat b s).supply = s.supply ∧ (updateHeat b s).resetLow = s.resetLow ∧
    (updateHeat b s).clock = s.clock ∧ (updateHeat b s).xm = s.xm ∧
    (updateHeat b s).hostData = s.hostData ∧ (updateHeat b s).tripOut = s.tripOut ∧
    (updateHeat b s).atc = s.atc ∧ (updateHeat b s).ore = s.ore ∧ (updateHeat b s).cfl = s.cfl ∧
    (updateHeat b s).wlc = s.wlc ∧ (updateHeat b s).dmc = s.dmc ∧ (updateHeat b s).tqa = s.tqa ∧
    (updateHeat b s).tcu = s.tcu ∧ (updateHeat b s).stc = s.stc ∧ (updateHeat b s).pru = s.pru ∧
    (updateHeat b s).draws = s.draws ∧ (updateHeat b s).pending = s.pending := by simp [updateHeat]

@[simp] theorem clearGridHot_frame (b : Bank) (s : State) :
    (clearGridHot b s).supply = s.supply ∧ (clearGridHot b s).resetLow = s.resetLow ∧
    (clearGridHot b s).clock = s.clock ∧ (clearGridHot b s).hostData = s.hostData ∧
    (clearGridHot b s).tripOut = s.tripOut ∧ (clearGridHot b s).ore = s.ore ∧
    (clearGridHot b s).cfl = s.cfl ∧ (clearGridHot b s).wlc = s.wlc ∧
    (clearGridHot b s).dmc = s.dmc ∧ (clearGridHot b s).tqa = s.tqa ∧
    (clearGridHot b s).tcu = s.tcu ∧ (clearGridHot b s).rgc = s.rgc ∧
    (clearGridHot b s).stc = s.stc ∧ (clearGridHot b s).draws = s.draws ∧
    (clearGridHot b s).pending = s.pending := by simp [clearGridHot]

@[simp] theorem judgeGridHot_frame (b : Bank) (s : State) :
    (judgeGridHot b s).supply = s.supply ∧ (judgeGridHot b s).resetLow = s.resetLow ∧
    (judgeGridHot b s).clock = s.clock ∧ (judgeGridHot b s).hostData = s.hostData ∧
    (judgeGridHot b s).tripOut = s.tripOut ∧ (judgeGridHot b s).ore = s.ore ∧
    (judgeGridHot b s).cfl = s.cfl ∧ (judgeGridHot b s).wlc = s.wlc ∧
    (judgeGridHot b s).dmc = s.dmc ∧ (judgeGridHot b s).tqa = s.tqa ∧
    (judgeGridHot b s).tcu = s.tcu ∧ (judgeGridHot b s).rgc = s.rgc ∧
    (judgeGridHot b s).stc = s.stc ∧ (judgeGridHot b s).draws = s.draws ∧
    (judgeGridHot b s).pending = s.pending := by
  simp only [judgeGridHot]
  (repeat' split) <;> simp

@[simp] theorem dropBank_frame (b : Bank) (s : State) :
    (dropBank b s).supply = s.supply ∧ (dropBank b s).resetLow = s.resetLow ∧
    (dropBank b s).clock = s.clock ∧ (dropBank b s).hostData = s.hostData ∧
    (dropBank b s).tripOut = s.tripOut ∧ (dropBank b s).ore = s.ore ∧ (dropBank b s).cfl = s.cfl ∧
    (dropBank b s).wlc = s.wlc ∧ (dropBank b s).dmc = s.dmc ∧ (dropBank b s).tqa = s.tqa ∧
    (dropBank b s).tcu = s.tcu ∧ (dropBank b s).rgc = s.rgc ∧ (dropBank b s).stc = s.stc ∧
    (dropBank b s).draws = s.draws ∧ (dropBank b s).pending = s.pending := by simp [dropBank]

@[simp] theorem sampleBank_frame (b : Bank) (s : State) :
    (sampleBank b s).supply = s.supply ∧ (sampleBank b s).resetLow = s.resetLow ∧
    (sampleBank b s).clock = s.clock ∧ (sampleBank b s).hostData = s.hostData ∧
    (sampleBank b s).tripOut = s.tripOut ∧ (sampleBank b s).ore = s.ore ∧
    (sampleBank b s).cfl = s.cfl ∧ (sampleBank b s).wlc = s.wlc ∧ (sampleBank b s).dmc = s.dmc ∧
    (sampleBank b s).tqa = s.tqa ∧ (sampleBank b s).tcu = s.tcu ∧ (sampleBank b s).stc = s.stc ∧
    (sampleBank b s).draws = s.draws ∧ (sampleBank b s).pending = s.pending := by
  simp only [sampleBank]
  (repeat' split) <;> simp

@[simp] theorem setWindingHot_frame (w : Wheel) (s : State) :
    (setWindingHot w s).supply = s.supply ∧ (setWindingHot w s).resetLow = s.resetLow ∧
    (setWindingHot w s).clock = s.clock ∧ (setWindingHot w s).hostData = s.hostData ∧
    (setWindingHot w s).tripOut = s.tripOut ∧ (setWindingHot w s).ore = s.ore ∧
    (setWindingHot w s).cfl = s.cfl ∧ (setWindingHot w s).wlc = s.wlc ∧
    (setWindingHot w s).dmc = s.dmc ∧ (setWindingHot w s).tqa = s.tqa ∧
    (setWindingHot w s).tcu = s.tcu ∧ (setWindingHot w s).rgc = s.rgc ∧
    (setWindingHot w s).stc = s.stc ∧ (setWindingHot w s).draws = s.draws ∧
    (setWindingHot w s).pending = s.pending := by simp [setWindingHot]

@[simp] theorem clearWindingHot_frame (w : Wheel) (s : State) :
    (clearWindingHot w s).supply = s.supply ∧ (clearWindingHot w s).resetLow = s.resetLow ∧
    (clearWindingHot w s).clock = s.clock ∧ (clearWindingHot w s).hostData = s.hostData ∧
    (clearWindingHot w s).tripOut = s.tripOut ∧ (clearWindingHot w s).ore = s.ore ∧
    (clearWindingHot w s).cfl = s.cfl ∧ (clearWindingHot w s).wlc = s.wlc ∧
    (clearWindingHot w s).dmc = s.dmc ∧ (clearWindingHot w s).tqa = s.tqa ∧
    (clearWindingHot w s).tcu = s.tcu ∧ (clearWindingHot w s).rgc = s.rgc ∧
    (clearWindingHot w s).stc = s.stc ∧ (clearWindingHot w s).draws = s.draws ∧
    (clearWindingHot w s).pending = s.pending := by simp [clearWindingHot]

@[simp] theorem judgeWinding_frame (w : Wheel) (s : State) :
    (judgeWinding w s).supply = s.supply ∧ (judgeWinding w s).resetLow = s.resetLow ∧
    (judgeWinding w s).clock = s.clock ∧ (judgeWinding w s).hostData = s.hostData ∧
    (judgeWinding w s).tripOut = s.tripOut ∧ (judgeWinding w s).ore = s.ore ∧
    (judgeWinding w s).cfl = s.cfl ∧ (judgeWinding w s).wlc = s.wlc ∧
    (judgeWinding w s).dmc = s.dmc ∧ (judgeWinding w s).tqa = s.tqa ∧
    (judgeWinding w s).tcu = s.tcu ∧ (judgeWinding w s).rgc = s.rgc ∧
    (judgeWinding w s).stc = s.stc ∧ (judgeWinding w s).draws = s.draws ∧
    (judgeWinding w s).pending = s.pending := by
  simp only [judgeWinding]
  (repeat' split) <;> simp

@[simp] theorem dropWheel_frame (w : Wheel) (s : State) :
    (dropWheel w s).supply = s.supply ∧ (dropWheel w s).resetLow = s.resetLow ∧
    (dropWheel w s).clock = s.clock ∧ (dropWheel w s).hostData = s.hostData ∧
    (dropWheel w s).tripOut = s.tripOut ∧ (dropWheel w s).ore = s.ore ∧
    (dropWheel w s).cfl = s.cfl ∧ (dropWheel w s).wlc = s.wlc ∧ (dropWheel w s).dmc = s.dmc ∧
    (dropWheel w s).tqa = s.tqa ∧ (dropWheel w s).tcu = s.tcu ∧ (dropWheel w s).rgc = s.rgc ∧
    (dropWheel w s).stc = s.stc ∧ (dropWheel w s).draws = s.draws ∧
    (dropWheel w s).pending = s.pending := by simp [dropWheel]

@[simp] theorem sampleWheel_frame (w : Wheel) (s : State) :
    (sampleWheel w s).supply = s.supply ∧ (sampleWheel w s).resetLow = s.resetLow ∧
    (sampleWheel w s).clock = s.clock ∧ (sampleWheel w s).hostData = s.hostData ∧
    (sampleWheel w s).tripOut = s.tripOut ∧ (sampleWheel w s).ore = s.ore ∧
    (sampleWheel w s).cfl = s.cfl ∧ (sampleWheel w s).wlc = s.wlc ∧ (sampleWheel w s).dmc = s.dmc ∧
    (sampleWheel w s).tqa = s.tqa ∧ (sampleWheel w s).tcu = s.tcu ∧ (sampleWheel w s).rgc = s.rgc ∧
    (sampleWheel w s).stc = s.stc ∧ (sampleWheel w s).draws = s.draws ∧
    (sampleWheel w s).pending = s.pending := by
  simp only [sampleWheel]
  (repeat' split) <;> simp

@[simp] theorem latchPayload_frame (s : State) :
    (latchPayload s).supply = s.supply ∧ (latchPayload s).resetLow = s.resetLow ∧
    (latchPayload s).clock = s.clock ∧ (latchPayload s).xm = s.xm ∧
    (latchPayload s).hostData = s.hostData ∧ (latchPayload s).tripOut = s.tripOut ∧
    (latchPayload s).atc = s.atc ∧ (latchPayload s).ore = s.ore ∧ (latchPayload s).cfl = s.cfl ∧
    (latchPayload s).wlc = s.wlc ∧ (latchPayload s).dmc = s.dmc ∧ (latchPayload s).tqa = s.tqa ∧
    (latchPayload s).tcu = s.tcu ∧ (latchPayload s).rgc = s.rgc ∧ (latchPayload s).stc = s.stc ∧
    (latchPayload s).pru = s.pru ∧ (latchPayload s).draws = s.draws ∧
    (latchPayload s).pending = s.pending := by
  simp only [latchPayload]
  (repeat' split) <;> simp

@[simp] theorem countStandstill_frame (s : State) :
    (countStandstill s).supply = s.supply ∧ (countStandstill s).resetLow = s.resetLow ∧
    (countStandstill s).clock = s.clock ∧ (countStandstill s).xm = s.xm ∧
    (countStandstill s).hostData = s.hostData ∧ (countStandstill s).tripOut = s.tripOut ∧
    (countStandstill s).atc = s.atc ∧ (countStandstill s).ore = s.ore ∧
    (countStandstill s).cfl = s.cfl ∧ (countStandstill s).wlc = s.wlc ∧
    (countStandstill s).dmc = s.dmc ∧ (countStandstill s).tqa = s.tqa ∧
    (countStandstill s).tcu = s.tcu ∧ (countStandstill s).rgc = s.rgc ∧
    (countStandstill s).stc = s.stc ∧ (countStandstill s).pru = s.pru ∧
    (countStandstill s).draws = s.draws ∧ (countStandstill s).pending = s.pending := by
  simp only [countStandstill]
  (repeat' split) <;> simp

@[simp] theorem payloadEffects_frame (s : State) :
    (payloadEffects s).supply = s.supply ∧ (payloadEffects s).resetLow = s.resetLow ∧
    (payloadEffects s).clock = s.clock ∧ (payloadEffects s).hostData = s.hostData ∧
    (payloadEffects s).tripOut = s.tripOut ∧ (payloadEffects s).ore = s.ore ∧
    (payloadEffects s).cfl = s.cfl ∧ (payloadEffects s).wlc = s.wlc ∧
    (payloadEffects s).dmc = s.dmc ∧ (payloadEffects s).tqa = s.tqa ∧
    (payloadEffects s).tcu = s.tcu ∧ (payloadEffects s).rgc = s.rgc ∧
    (payloadEffects s).stc = s.stc ∧ (payloadEffects s).draws = s.draws ∧
    (payloadEffects s).pending = s.pending := by
  simp only [payloadEffects]
  (repeat' split) <;> simp

@[simp] theorem lmuPage_frame (s : State) :
    (lmuPage s).supply = s.supply ∧ (lmuPage s).resetLow = s.resetLow ∧
    (lmuPage s).clock = s.clock ∧ (lmuPage s).hostData = s.hostData ∧
    (lmuPage s).tripOut = s.tripOut ∧ (lmuPage s).atc = s.atc ∧ (lmuPage s).ore = s.ore ∧
    (lmuPage s).cfl = s.cfl ∧ (lmuPage s).wlc = s.wlc ∧ (lmuPage s).dmc = s.dmc ∧
    (lmuPage s).tqa = s.tqa ∧ (lmuPage s).tcu = s.tcu ∧ (lmuPage s).rgc = s.rgc ∧
    (lmuPage s).stc = s.stc ∧ (lmuPage s).pru = s.pru ∧ (lmuPage s).draws = s.draws ∧
    (lmuPage s).pending = s.pending := by
  simp only [lmuPage]
  (repeat' split) <;> simp

@[simp] theorem showLmu_frame (s : State) :
    (showLmu s).supply = s.supply ∧ (showLmu s).resetLow = s.resetLow ∧
    (showLmu s).clock = s.clock ∧ (showLmu s).hostData = s.hostData ∧
    (showLmu s).tripOut = s.tripOut ∧ (showLmu s).atc = s.atc ∧ (showLmu s).ore = s.ore ∧
    (showLmu s).cfl = s.cfl ∧ (showLmu s).wlc = s.wlc ∧ (showLmu s).dmc = s.dmc ∧
    (showLmu s).tqa = s.tqa ∧ (showLmu s).tcu = s.tcu ∧ (showLmu s).rgc = s.rgc ∧
    (showLmu s).stc = s.stc ∧ (showLmu s).lmu = s.lmu ∧ (showLmu s).pru = s.pru ∧
    (showLmu s).draws = s.draws ∧ (showLmu s).pending = s.pending := by
  simp only [showLmu, forBanks]
  (repeat' split) <;> simp

@[simp] theorem thermalSteps_frame (blowerRun : Bool) (s : State) :
    (thermalSteps blowerRun s).supply = s.supply ∧
    (thermalSteps blowerRun s).resetLow = s.resetLow ∧ (thermalSteps blowerRun s).clock = s.clock ∧
    (thermalSteps blowerRun s).hostData = s.hostData ∧
    (thermalSteps blowerRun s).tripOut = s.tripOut ∧ (thermalSteps blowerRun s).ore = s.ore ∧
    (thermalSteps blowerRun s).cfl = s.cfl ∧ (thermalSteps blowerRun s).wlc = s.wlc ∧
    (thermalSteps blowerRun s).dmc = s.dmc ∧ (thermalSteps blowerRun s).tqa = s.tqa ∧
    (thermalSteps blowerRun s).tcu = s.tcu ∧ (thermalSteps blowerRun s).stc = s.stc ∧
    (thermalSteps blowerRun s).draws = s.draws ∧ (thermalSteps blowerRun s).pending = s.pending := by
  simp only [thermalSteps, runAll, forWheels, forBanks]
  (repeat' split) <;> simp

@[simp] theorem setUndervolt_frame (s : State) :
    (setUndervolt s).supply = s.supply ∧ (setUndervolt s).resetLow = s.resetLow ∧
    (setUndervolt s).clock = s.clock ∧ (setUndervolt s).hostData = s.hostData ∧
    (setUndervolt s).tripOut = s.tripOut ∧ (setUndervolt s).ore = s.ore ∧
    (setUndervolt s).cfl = s.cfl ∧ (setUndervolt s).wlc = s.wlc ∧ (setUndervolt s).dmc = s.dmc ∧
    (setUndervolt s).tqa = s.tqa ∧ (setUndervolt s).tcu = s.tcu ∧ (setUndervolt s).rgc = s.rgc ∧
    (setUndervolt s).stc = s.stc ∧ (setUndervolt s).draws = s.draws ∧
    (setUndervolt s).pending = s.pending := by simp [setUndervolt]

@[simp] theorem clearUndervolt_frame (s : State) :
    (clearUndervolt s).supply = s.supply ∧ (clearUndervolt s).resetLow = s.resetLow ∧
    (clearUndervolt s).clock = s.clock ∧ (clearUndervolt s).hostData = s.hostData ∧
    (clearUndervolt s).tripOut = s.tripOut ∧ (clearUndervolt s).ore = s.ore ∧
    (clearUndervolt s).cfl = s.cfl ∧ (clearUndervolt s).wlc = s.wlc ∧
    (clearUndervolt s).dmc = s.dmc ∧ (clearUndervolt s).tqa = s.tqa ∧
    (clearUndervolt s).tcu = s.tcu ∧ (clearUndervolt s).rgc = s.rgc ∧
    (clearUndervolt s).stc = s.stc ∧ (clearUndervolt s).draws = s.draws ∧
    (clearUndervolt s).pending = s.pending := by simp [clearUndervolt]

@[simp] theorem judgeUndervolt_frame (vF : Nat) (s : State) :
    (judgeUndervolt vF s).supply = s.supply ∧ (judgeUndervolt vF s).resetLow = s.resetLow ∧
    (judgeUndervolt vF s).clock = s.clock ∧ (judgeUndervolt vF s).hostData = s.hostData ∧
    (judgeUndervolt vF s).tripOut = s.tripOut ∧ (judgeUndervolt vF s).ore = s.ore ∧
    (judgeUndervolt vF s).cfl = s.cfl ∧ (judgeUndervolt vF s).wlc = s.wlc ∧
    (judgeUndervolt vF s).dmc = s.dmc ∧ (judgeUndervolt vF s).tqa = s.tqa ∧
    (judgeUndervolt vF s).tcu = s.tcu ∧ (judgeUndervolt vF s).rgc = s.rgc ∧
    (judgeUndervolt vF s).stc = s.stc ∧ (judgeUndervolt vF s).draws = s.draws ∧
    (judgeUndervolt vF s).pending = s.pending := by
  simp only [judgeUndervolt]
  (repeat' split) <;> simp

@[simp] theorem restLink_frame (s : State) :
    (restLink s).supply = s.supply ∧ (restLink s).resetLow = s.resetLow ∧
    (restLink s).clock = s.clock ∧ (restLink s).hostData = s.hostData ∧
    (restLink s).tripOut = s.tripOut ∧ (restLink s).ore = s.ore ∧ (restLink s).cfl = s.cfl ∧
    (restLink s).wlc = s.wlc ∧ (restLink s).dmc = s.dmc ∧ (restLink s).tqa = s.tqa ∧
    (restLink s).tcu = s.tcu ∧ (restLink s).rgc = s.rgc ∧ (restLink s).stc = s.stc ∧
    (restLink s).draws = s.draws ∧ (restLink s).pending = s.pending := by simp [restLink]

@[simp] theorem lmuLink_frame (s : State) :
    (lmuLink s).supply = s.supply ∧ (lmuLink s).resetLow = s.resetLow ∧
    (lmuLink s).clock = s.clock ∧ (lmuLink s).hostData = s.hostData ∧
    (lmuLink s).tripOut = s.tripOut ∧ (lmuLink s).ore = s.ore ∧ (lmuLink s).cfl = s.cfl ∧
    (lmuLink s).wlc = s.wlc ∧ (lmuLink s).dmc = s.dmc ∧ (lmuLink s).tqa = s.tqa ∧
    (lmuLink s).tcu = s.tcu ∧ (lmuLink s).rgc = s.rgc ∧ (lmuLink s).stc = s.stc ∧
    (lmuLink s).draws = s.draws ∧ (lmuLink s).pending = s.pending := by
  simp only [lmuLink]
  (repeat' split) <;> simp

@[simp] theorem lmuConfig_frame (s : State) :
    (lmuConfig s).supply = s.supply ∧ (lmuConfig s).resetLow = s.resetLow ∧
    (lmuConfig s).clock = s.clock ∧ (lmuConfig s).xm = s.xm ∧ (lmuConfig s).hostData = s.hostData ∧
    (lmuConfig s).tripOut = s.tripOut ∧ (lmuConfig s).atc = s.atc ∧ (lmuConfig s).ore = s.ore ∧
    (lmuConfig s).cfl = s.cfl ∧ (lmuConfig s).wlc = s.wlc ∧ (lmuConfig s).dmc = s.dmc ∧
    (lmuConfig s).tqa = s.tqa ∧ (lmuConfig s).tcu = s.tcu ∧ (lmuConfig s).rgc = s.rgc ∧
    (lmuConfig s).stc = s.stc ∧ (lmuConfig s).pru = s.pru ∧ (lmuConfig s).draws = s.draws ∧
    (lmuConfig s).pending = s.pending := by
  simp only [lmuConfig]
  (repeat' split) <;> simp

@[simp] theorem putStcSection_frame (s : State) :
    (putStcSection s).supply = s.supply ∧ (putStcSection s).resetLow = s.resetLow ∧
    (putStcSection s).clock = s.clock ∧ (putStcSection s).hostData = s.hostData ∧
    (putStcSection s).tripOut = s.tripOut ∧ (putStcSection s).atc = s.atc ∧
    (putStcSection s).ore = s.ore ∧ (putStcSection s).cfl = s.cfl ∧ (putStcSection s).wlc = s.wlc ∧
    (putStcSection s).dmc = s.dmc ∧ (putStcSection s).tqa = s.tqa ∧ (putStcSection s).tcu = s.tcu ∧
    (putStcSection s).rgc = s.rgc ∧ (putStcSection s).stc = s.stc ∧ (putStcSection s).lmu = s.lmu ∧
    (putStcSection s).pru = s.pru ∧ (putStcSection s).draws = s.draws ∧
    (putStcSection s).pending = s.pending := by simp [putStcSection]

@[simp] theorem evaluateBias_frame (s : State) :
    (evaluateBias s).supply = s.supply ∧ (evaluateBias s).resetLow = s.resetLow ∧
    (evaluateBias s).clock = s.clock ∧ (evaluateBias s).xm = s.xm ∧
    (evaluateBias s).hostData = s.hostData ∧ (evaluateBias s).tripOut = s.tripOut ∧
    (evaluateBias s).atc = s.atc ∧ (evaluateBias s).ore = s.ore ∧ (evaluateBias s).cfl = s.cfl ∧
    (evaluateBias s).wlc = s.wlc ∧ (evaluateBias s).dmc = s.dmc ∧ (evaluateBias s).tqa = s.tqa ∧
    (evaluateBias s).tcu = s.tcu ∧ (evaluateBias s).rgc = s.rgc ∧ (evaluateBias s).lmu = s.lmu ∧
    (evaluateBias s).pru = s.pru ∧ (evaluateBias s).draws = s.draws ∧
    (evaluateBias s).pending = s.pending := by
  simp only [evaluateBias]
  (repeat' split) <;> simp

@[simp] theorem formReserve_frame (s : State) :
    (formReserve s).supply = s.supply ∧ (formReserve s).resetLow = s.resetLow ∧
    (formReserve s).clock = s.clock ∧ (formReserve s).xm = s.xm ∧
    (formReserve s).hostData = s.hostData ∧ (formReserve s).tripOut = s.tripOut ∧
    (formReserve s).atc = s.atc ∧ (formReserve s).ore = s.ore ∧ (formReserve s).cfl = s.cfl ∧
    (formReserve s).wlc = s.wlc ∧ (formReserve s).dmc = s.dmc ∧ (formReserve s).tqa = s.tqa ∧
    (formReserve s).tcu = s.tcu ∧ (formReserve s).rgc = s.rgc ∧ (formReserve s).lmu = s.lmu ∧
    (formReserve s).pru = s.pru ∧ (formReserve s).draws = s.draws ∧
    (formReserve s).pending = s.pending := by
  simp only [formReserve]
  (repeat' split) <;> simp

@[simp] theorem stopCalibration_frame (r : CalResult) (s : State) :
    (stopCalibration r s).supply = s.supply ∧ (stopCalibration r s).resetLow = s.resetLow ∧
    (stopCalibration r s).clock = s.clock ∧ (stopCalibration r s).xm = s.xm ∧
    (stopCalibration r s).hostData = s.hostData ∧ (stopCalibration r s).tripOut = s.tripOut ∧
    (stopCalibration r s).atc = s.atc ∧ (stopCalibration r s).ore = s.ore ∧
    (stopCalibration r s).cfl = s.cfl ∧ (stopCalibration r s).wlc = s.wlc ∧
    (stopCalibration r s).dmc = s.dmc ∧ (stopCalibration r s).tqa = s.tqa ∧
    (stopCalibration r s).tcu = s.tcu ∧ (stopCalibration r s).rgc = s.rgc ∧
    (stopCalibration r s).lmu = s.lmu ∧ (stopCalibration r s).pru = s.pru ∧
    (stopCalibration r s).draws = s.draws ∧ (stopCalibration r s).pending = s.pending := by simp [stopCalibration]

@[simp] theorem endCalibration_frame (result : Result) (shown : CalResult) (detail : List Word) (s : State) :
    (endCalibration result shown detail s).supply = s.supply ∧
    (endCalibration result shown detail s).resetLow = s.resetLow ∧
    (endCalibration result shown detail s).clock = s.clock ∧
    (endCalibration result shown detail s).hostData = s.hostData ∧
    (endCalibration result shown detail s).tripOut = s.tripOut ∧
    (endCalibration result shown detail s).cfl = s.cfl ∧
    (endCalibration result shown detail s).wlc = s.wlc ∧
    (endCalibration result shown detail s).dmc = s.dmc ∧
    (endCalibration result shown detail s).tqa = s.tqa ∧
    (endCalibration result shown detail s).tcu = s.tcu ∧
    (endCalibration result shown detail s).rgc = s.rgc ∧
    (endCalibration result shown detail s).lmu = s.lmu ∧
    (endCalibration result shown detail s).pru = s.pru ∧
    (endCalibration result shown detail s).draws = s.draws ∧
    (endCalibration result shown detail s).pending = s.pending := by simp [endCalibration]

@[simp] theorem endCalibrationIf_frame (b : Bool) (result : Result) (shown : CalResult) (s : State) :
    (endCalibrationIf b result shown s).supply = s.supply ∧
    (endCalibrationIf b result shown s).resetLow = s.resetLow ∧
    (endCalibrationIf b result shown s).clock = s.clock ∧
    (endCalibrationIf b result shown s).hostData = s.hostData ∧
    (endCalibrationIf b result shown s).tripOut = s.tripOut ∧
    (endCalibrationIf b result shown s).cfl = s.cfl ∧
    (endCalibrationIf b result shown s).wlc = s.wlc ∧
    (endCalibrationIf b result shown s).dmc = s.dmc ∧
    (endCalibrationIf b result shown s).tqa = s.tqa ∧
    (endCalibrationIf b result shown s).tcu = s.tcu ∧
    (endCalibrationIf b result shown s).rgc = s.rgc ∧
    (endCalibrationIf b result shown s).lmu = s.lmu ∧
    (endCalibrationIf b result shown s).pru = s.pru ∧
    (endCalibrationIf b result shown s).draws = s.draws ∧
    (endCalibrationIf b result shown s).pending = s.pending := by
  simp only [endCalibrationIf]
  (repeat' split) <;> simp

@[simp] theorem readCalibration_frame (s : State) :
    (readCalibration s).supply = s.supply ∧ (readCalibration s).resetLow = s.resetLow ∧
    (readCalibration s).clock = s.clock ∧ (readCalibration s).hostData = s.hostData ∧
    (readCalibration s).tripOut = s.tripOut ∧ (readCalibration s).cfl = s.cfl ∧
    (readCalibration s).wlc = s.wlc ∧ (readCalibration s).dmc = s.dmc ∧
    (readCalibration s).tqa = s.tqa ∧ (readCalibration s).tcu = s.tcu ∧
    (readCalibration s).rgc = s.rgc ∧ (readCalibration s).lmu = s.lmu ∧
    (readCalibration s).pru = s.pru ∧ (readCalibration s).draws = s.draws ∧
    (readCalibration s).pending = s.pending := by
  simp only [readCalibration]
  (repeat' split) <;> simp

@[simp] theorem forgetAngle_frame (s : State) :
    (forgetAngle s).supply = s.supply ∧ (forgetAngle s).resetLow = s.resetLow ∧
    (forgetAngle s).clock = s.clock ∧ (forgetAngle s).xm = s.xm ∧
    (forgetAngle s).hostData = s.hostData ∧ (forgetAngle s).tripOut = s.tripOut ∧
    (forgetAngle s).atc = s.atc ∧ (forgetAngle s).ore = s.ore ∧ (forgetAngle s).cfl = s.cfl ∧
    (forgetAngle s).wlc = s.wlc ∧ (forgetAngle s).dmc = s.dmc ∧ (forgetAngle s).tqa = s.tqa ∧
    (forgetAngle s).tcu = s.tcu ∧ (forgetAngle s).rgc = s.rgc ∧ (forgetAngle s).lmu = s.lmu ∧
    (forgetAngle s).pru = s.pru ∧ (forgetAngle s).draws = s.draws ∧
    (forgetAngle s).pending = s.pending := by simp [forgetAngle]

@[simp] theorem sauChange_frame (s : State) :
    (sauChange s).supply = s.supply ∧ (sauChange s).resetLow = s.resetLow ∧
    (sauChange s).clock = s.clock ∧ (sauChange s).hostData = s.hostData ∧
    (sauChange s).tripOut = s.tripOut ∧ (sauChange s).cfl = s.cfl ∧ (sauChange s).wlc = s.wlc ∧
    (sauChange s).dmc = s.dmc ∧ (sauChange s).tqa = s.tqa ∧ (sauChange s).tcu = s.tcu ∧
    (sauChange s).rgc = s.rgc ∧ (sauChange s).lmu = s.lmu ∧ (sauChange s).pru = s.pru ∧
    (sauChange s).draws = s.draws ∧ (sauChange s).pending = s.pending := by
  simp only [sauChange, runAll]
  (repeat' split) <;> simp

@[simp] theorem formLimits_frame (s : State) :
    (formLimits s).supply = s.supply ∧ (formLimits s).resetLow = s.resetLow ∧
    (formLimits s).clock = s.clock ∧ (formLimits s).xm = s.xm ∧
    (formLimits s).hostData = s.hostData ∧ (formLimits s).tripOut = s.tripOut ∧
    (formLimits s).atc = s.atc ∧ (formLimits s).ore = s.ore ∧ (formLimits s).cfl = s.cfl ∧
    (formLimits s).wlc = s.wlc ∧ (formLimits s).dmc = s.dmc ∧ (formLimits s).tqa = s.tqa ∧
    (formLimits s).tcu = s.tcu ∧ (formLimits s).rgc = s.rgc ∧ (formLimits s).lmu = s.lmu ∧
    (formLimits s).pru = s.pru ∧ (formLimits s).draws = s.draws ∧
    (formLimits s).pending = s.pending := by simp [formLimits]

@[simp] theorem fillSlot_frame (s : State) :
    (fillSlot s).supply = s.supply ∧ (fillSlot s).resetLow = s.resetLow ∧
    (fillSlot s).clock = s.clock ∧ (fillSlot s).xm = s.xm ∧ (fillSlot s).hostData = s.hostData ∧
    (fillSlot s).tripOut = s.tripOut ∧ (fillSlot s).atc = s.atc ∧ (fillSlot s).ore = s.ore ∧
    (fillSlot s).cfl = s.cfl ∧ (fillSlot s).dmc = s.dmc ∧ (fillSlot s).tqa = s.tqa ∧
    (fillSlot s).tcu = s.tcu ∧ (fillSlot s).rgc = s.rgc ∧ (fillSlot s).lmu = s.lmu ∧
    (fillSlot s).pru = s.pru ∧ (fillSlot s).draws = s.draws ∧ (fillSlot s).pending = s.pending := by simp [fillSlot]

@[simp] theorem stcTransmit_frame (s : State) :
    (stcTransmit s).supply = s.supply ∧ (stcTransmit s).resetLow = s.resetLow ∧
    (stcTransmit s).clock = s.clock ∧ (stcTransmit s).hostData = s.hostData ∧
    (stcTransmit s).tripOut = s.tripOut ∧ (stcTransmit s).cfl = s.cfl ∧
    (stcTransmit s).dmc = s.dmc ∧ (stcTransmit s).tqa = s.tqa ∧ (stcTransmit s).tcu = s.tcu ∧
    (stcTransmit s).rgc = s.rgc ∧ (stcTransmit s).lmu = s.lmu ∧ (stcTransmit s).pru = s.pru ∧
    (stcTransmit s).draws = s.draws ∧ (stcTransmit s).pending = s.pending := by simp [stcTransmit, runAll]

@[simp] theorem takeAngle_frame (s : State) :
    (takeAngle s).supply = s.supply ∧ (takeAngle s).resetLow = s.resetLow ∧
    (takeAngle s).clock = s.clock ∧ (takeAngle s).xm = s.xm ∧ (takeAngle s).hostData = s.hostData ∧
    (takeAngle s).tripOut = s.tripOut ∧ (takeAngle s).atc = s.atc ∧ (takeAngle s).ore = s.ore ∧
    (takeAngle s).cfl = s.cfl ∧ (takeAngle s).wlc = s.wlc ∧ (takeAngle s).dmc = s.dmc ∧
    (takeAngle s).tqa = s.tqa ∧ (takeAngle s).tcu = s.tcu ∧ (takeAngle s).rgc = s.rgc ∧
    (takeAngle s).lmu = s.lmu ∧ (takeAngle s).pru = s.pru ∧ (takeAngle s).draws = s.draws ∧
    (takeAngle s).pending = s.pending := by
  simp only [takeAngle]
  (repeat' split) <;> simp

@[simp] theorem judgeTracking_frame (s : State) :
    (judgeTracking s).supply = s.supply ∧ (judgeTracking s).resetLow = s.resetLow ∧
    (judgeTracking s).clock = s.clock ∧ (judgeTracking s).hostData = s.hostData ∧
    (judgeTracking s).tripOut = s.tripOut ∧ (judgeTracking s).ore = s.ore ∧
    (judgeTracking s).cfl = s.cfl ∧ (judgeTracking s).wlc = s.wlc ∧ (judgeTracking s).dmc = s.dmc ∧
    (judgeTracking s).tqa = s.tqa ∧ (judgeTracking s).tcu = s.tcu ∧ (judgeTracking s).rgc = s.rgc ∧
    (judgeTracking s).lmu = s.lmu ∧ (judgeTracking s).draws = s.draws ∧
    (judgeTracking s).pending = s.pending := by simp [judgeTracking]

@[simp] theorem stcReport_frame (s : State) :
    (stcReport s).supply = s.supply ∧ (stcReport s).resetLow = s.resetLow ∧
    (stcReport s).clock = s.clock ∧ (stcReport s).hostData = s.hostData ∧
    (stcReport s).tripOut = s.tripOut ∧ (stcReport s).cfl = s.cfl ∧ (stcReport s).wlc = s.wlc ∧
    (stcReport s).dmc = s.dmc ∧ (stcReport s).tqa = s.tqa ∧ (stcReport s).tcu = s.tcu ∧
    (stcReport s).rgc = s.rgc ∧ (stcReport s).lmu = s.lmu ∧ (stcReport s).draws = s.draws ∧
    (stcReport s).pending = s.pending := by simp [stcReport, runAll]

@[simp] theorem stcSubstateChange_frame (s : State) :
    (stcSubstateChange s).supply = s.supply ∧ (stcSubstateChange s).resetLow = s.resetLow ∧
    (stcSubstateChange s).clock = s.clock ∧ (stcSubstateChange s).hostData = s.hostData ∧
    (stcSubstateChange s).tripOut = s.tripOut ∧ (stcSubstateChange s).atc = s.atc ∧
    (stcSubstateChange s).ore = s.ore ∧ (stcSubstateChange s).cfl = s.cfl ∧
    (stcSubstateChange s).wlc = s.wlc ∧ (stcSubstateChange s).dmc = s.dmc ∧
    (stcSubstateChange s).tqa = s.tqa ∧ (stcSubstateChange s).tcu = s.tcu ∧
    (stcSubstateChange s).rgc = s.rgc ∧ (stcSubstateChange s).lmu = s.lmu ∧
    (stcSubstateChange s).pru = s.pru ∧ (stcSubstateChange s).draws = s.draws ∧
    (stcSubstateChange s).pending = s.pending := by simp [stcSubstateChange, runAll]

@[simp] theorem stcModeChange_frame (s : State) :
    (stcModeChange s).supply = s.supply ∧ (stcModeChange s).resetLow = s.resetLow ∧
    (stcModeChange s).clock = s.clock ∧ (stcModeChange s).hostData = s.hostData ∧
    (stcModeChange s).tripOut = s.tripOut ∧ (stcModeChange s).cfl = s.cfl ∧
    (stcModeChange s).wlc = s.wlc ∧ (stcModeChange s).dmc = s.dmc ∧ (stcModeChange s).tqa = s.tqa ∧
    (stcModeChange s).tcu = s.tcu ∧ (stcModeChange s).rgc = s.rgc ∧ (stcModeChange s).lmu = s.lmu ∧
    (stcModeChange s).pru = s.pru ∧ (stcModeChange s).draws = s.draws ∧
    (stcModeChange s).pending = s.pending := by simp [stcModeChange, runAll]

@[simp] theorem startCalibration_frame (cell : BitVec 6) (s : State) :
    (startCalibration cell s).supply = s.supply ∧ (startCalibration cell s).resetLow = s.resetLow ∧
    (startCalibration cell s).clock = s.clock ∧ (startCalibration cell s).hostData = s.hostData ∧
    (startCalibration cell s).tripOut = s.tripOut ∧ (startCalibration cell s).atc = s.atc ∧
    (startCalibration cell s).ore = s.ore ∧ (startCalibration cell s).cfl = s.cfl ∧
    (startCalibration cell s).wlc = s.wlc ∧ (startCalibration cell s).dmc = s.dmc ∧
    (startCalibration cell s).tqa = s.tqa ∧ (startCalibration cell s).tcu = s.tcu ∧
    (startCalibration cell s).rgc = s.rgc ∧ (startCalibration cell s).lmu = s.lmu ∧
    (startCalibration cell s).pru = s.pru ∧ (startCalibration cell s).draws = s.draws ∧
    (startCalibration cell s).pending = s.pending := by simp [startCalibration]

@[simp] theorem abortCalibration_frame (s : State) :
    (abortCalibration s).supply = s.supply ∧ (abortCalibration s).resetLow = s.resetLow ∧
    (abortCalibration s).clock = s.clock ∧ (abortCalibration s).hostData = s.hostData ∧
    (abortCalibration s).tripOut = s.tripOut ∧ (abortCalibration s).atc = s.atc ∧
    (abortCalibration s).ore = s.ore ∧ (abortCalibration s).cfl = s.cfl ∧
    (abortCalibration s).wlc = s.wlc ∧ (abortCalibration s).dmc = s.dmc ∧
    (abortCalibration s).tqa = s.tqa ∧ (abortCalibration s).tcu = s.tcu ∧
    (abortCalibration s).rgc = s.rgc ∧ (abortCalibration s).lmu = s.lmu ∧
    (abortCalibration s).pru = s.pru ∧ (abortCalibration s).draws = s.draws ∧
    (abortCalibration s).pending = s.pending := by simp [abortCalibration]

end Sys2Proof.Machine
end

