-- ==== Sys2Proof/Laws/FramesGrid.lean ====
section
/-! SUPPORT. The frames of the operations of the grid controller and the allocator: what each one leaves. -/

namespace Sys2Proof.Machine

@[simp] theorem changeCauses_frame (c : Causes) (s : State) :
    (changeCauses c s).supply = s.supply ∧ (changeCauses c s).resetLow = s.resetLow ∧
    (changeCauses c s).clock = s.clock ∧ (changeCauses c s).hostData = s.hostData ∧
    (changeCauses c s).tripOut = s.tripOut ∧ (changeCauses c s).ore = s.ore ∧
    (changeCauses c s).cfl = s.cfl ∧ (changeCauses c s).wlc = s.wlc ∧
    (changeCauses c s).dmc = s.dmc ∧ (changeCauses c s).tqa = s.tqa ∧
    (changeCauses c s).tcu = s.tcu ∧ (changeCauses c s).stc = s.stc ∧
    (changeCauses c s).lmu = s.lmu ∧ (changeCauses c s).pru = s.pru ∧
    (changeCauses c s).draws = s.draws ∧ (changeCauses c s).pending = s.pending := by
  simp only [changeCauses]
  (repeat' split) <;> simp

@[simp] theorem putRgcSection_frame (s : State) :
    (putRgcSection s).supply = s.supply ∧ (putRgcSection s).resetLow = s.resetLow ∧
    (putRgcSection s).clock = s.clock ∧ (putRgcSection s).hostData = s.hostData ∧
    (putRgcSection s).tripOut = s.tripOut ∧ (putRgcSection s).atc = s.atc ∧
    (putRgcSection s).ore = s.ore ∧ (putRgcSection s).cfl = s.cfl ∧ (putRgcSection s).wlc = s.wlc ∧
    (putRgcSection s).dmc = s.dmc ∧ (putRgcSection s).tqa = s.tqa ∧ (putRgcSection s).tcu = s.tcu ∧
    (putRgcSection s).rgc = s.rgc ∧ (putRgcSection s).stc = s.stc ∧ (putRgcSection s).lmu = s.lmu ∧
    (putRgcSection s).pru = s.pru ∧ (putRgcSection s).draws = s.draws ∧
    (putRgcSection s).pending = s.pending := by simp [putRgcSection]

@[simp] theorem putBankSection_frame (b : Bank) (s : State) :
    (putBankSection b s).supply = s.supply ∧ (putBankSection b s).resetLow = s.resetLow ∧
    (putBankSection b s).clock = s.clock ∧ (putBankSection b s).hostData = s.hostData ∧
    (putBankSection b s).tripOut = s.tripOut ∧ (putBankSection b s).atc = s.atc ∧
    (putBankSection b s).ore = s.ore ∧ (putBankSection b s).cfl = s.cfl ∧
    (putBankSection b s).wlc = s.wlc ∧ (putBankSection b s).dmc = s.dmc ∧
    (putBankSection b s).tqa = s.tqa ∧ (putBankSection b s).tcu = s.tcu ∧
    (putBankSection b s).rgc = s.rgc ∧ (putBankSection b s).stc = s.stc ∧
    (putBankSection b s).lmu = s.lmu ∧ (putBankSection b s).pru = s.pru ∧
    (putBankSection b s).draws = s.draws ∧ (putBankSection b s).pending = s.pending := by
  simp only [putBankSection]
  (repeat' split) <;> simp

@[simp] theorem putEnvelopeImage_frame (s : State) :
    (putEnvelopeImage s).supply = s.supply ∧ (putEnvelopeImage s).resetLow = s.resetLow ∧
    (putEnvelopeImage s).clock = s.clock ∧ (putEnvelopeImage s).hostData = s.hostData ∧
    (putEnvelopeImage s).tripOut = s.tripOut ∧ (putEnvelopeImage s).atc = s.atc ∧
    (putEnvelopeImage s).ore = s.ore ∧ (putEnvelopeImage s).cfl = s.cfl ∧
    (putEnvelopeImage s).wlc = s.wlc ∧ (putEnvelopeImage s).dmc = s.dmc ∧
    (putEnvelopeImage s).tqa = s.tqa ∧ (putEnvelopeImage s).tcu = s.tcu ∧
    (putEnvelopeImage s).rgc = s.rgc ∧ (putEnvelopeImage s).stc = s.stc ∧
    (putEnvelopeImage s).lmu = s.lmu ∧ (putEnvelopeImage s).pru = s.pru ∧
    (putEnvelopeImage s).draws = s.draws ∧ (putEnvelopeImage s).pending = s.pending := by simp [putEnvelopeImage]

@[simp] theorem takeVoltage_frame (volts : Nat) (s : State) :
    (takeVoltage volts s).supply = s.supply ∧ (takeVoltage volts s).resetLow = s.resetLow ∧
    (takeVoltage volts s).clock = s.clock ∧ (takeVoltage volts s).xm = s.xm ∧
    (takeVoltage volts s).hostData = s.hostData ∧ (takeVoltage volts s).tripOut = s.tripOut ∧
    (takeVoltage volts s).atc = s.atc ∧ (takeVoltage volts s).ore = s.ore ∧
    (takeVoltage volts s).cfl = s.cfl ∧ (takeVoltage volts s).wlc = s.wlc ∧
    (takeVoltage volts s).dmc = s.dmc ∧ (takeVoltage volts s).tqa = s.tqa ∧
    (takeVoltage volts s).tcu = s.tcu ∧ (takeVoltage volts s).stc = s.stc ∧
    (takeVoltage volts s).lmu = s.lmu ∧ (takeVoltage volts s).pru = s.pru ∧
    (takeVoltage volts s).draws = s.draws ∧ (takeVoltage volts s).pending = s.pending := by simp [takeVoltage]

@[simp] theorem recomputeCapacity_frame (s : State) :
    (recomputeCapacity s).supply = s.supply ∧ (recomputeCapacity s).resetLow = s.resetLow ∧
    (recomputeCapacity s).clock = s.clock ∧ (recomputeCapacity s).xm = s.xm ∧
    (recomputeCapacity s).hostData = s.hostData ∧ (recomputeCapacity s).tripOut = s.tripOut ∧
    (recomputeCapacity s).atc = s.atc ∧ (recomputeCapacity s).ore = s.ore ∧
    (recomputeCapacity s).cfl = s.cfl ∧ (recomputeCapacity s).wlc = s.wlc ∧
    (recomputeCapacity s).dmc = s.dmc ∧ (recomputeCapacity s).tqa = s.tqa ∧
    (recomputeCapacity s).tcu = s.tcu ∧ (recomputeCapacity s).stc = s.stc ∧
    (recomputeCapacity s).lmu = s.lmu ∧ (recomputeCapacity s).pru = s.pru ∧
    (recomputeCapacity s).draws = s.draws ∧ (recomputeCapacity s).pending = s.pending := by simp [recomputeCapacity]

@[simp] theorem takeFiltered_frame (s : State) :
    (takeFiltered s).supply = s.supply ∧ (takeFiltered s).resetLow = s.resetLow ∧
    (takeFiltered s).clock = s.clock ∧ (takeFiltered s).xm = s.xm ∧
    (takeFiltered s).hostData = s.hostData ∧ (takeFiltered s).tripOut = s.tripOut ∧
    (takeFiltered s).atc = s.atc ∧ (takeFiltered s).ore = s.ore ∧ (takeFiltered s).cfl = s.cfl ∧
    (takeFiltered s).wlc = s.wlc ∧ (takeFiltered s).dmc = s.dmc ∧ (takeFiltered s).tqa = s.tqa ∧
    (takeFiltered s).tcu = s.tcu ∧ (takeFiltered s).stc = s.stc ∧ (takeFiltered s).lmu = s.lmu ∧
    (takeFiltered s).pru = s.pru ∧ (takeFiltered s).draws = s.draws ∧
    (takeFiltered s).pending = s.pending := by simp [takeFiltered]

@[simp] theorem sortRotation_frame (s : State) :
    (sortRotation s).supply = s.supply ∧ (sortRotation s).resetLow = s.resetLow ∧
    (sortRotation s).clock = s.clock ∧ (sortRotation s).xm = s.xm ∧
    (sortRotation s).hostData = s.hostData ∧ (sortRotation s).tripOut = s.tripOut ∧
    (sortRotation s).atc = s.atc ∧ (sortRotation s).ore = s.ore ∧ (sortRotation s).cfl = s.cfl ∧
    (sortRotation s).wlc = s.wlc ∧ (sortRotation s).dmc = s.dmc ∧ (sortRotation s).tqa = s.tqa ∧
    (sortRotation s).tcu = s.tcu ∧ (sortRotation s).stc = s.stc ∧ (sortRotation s).lmu = s.lmu ∧
    (sortRotation s).pru = s.pru ∧ (sortRotation s).draws = s.draws ∧
    (sortRotation s).pending = s.pending := by simp [sortRotation]

@[simp] theorem setChan_frame (b : Bank) (c : Chan) (s : State) :
    (setChan b c s).supply = s.supply ∧ (setChan b c s).resetLow = s.resetLow ∧
    (setChan b c s).clock = s.clock ∧ (setChan b c s).xm = s.xm ∧
    (setChan b c s).hostData = s.hostData ∧ (setChan b c s).tripOut = s.tripOut ∧
    (setChan b c s).atc = s.atc ∧ (setChan b c s).ore = s.ore ∧ (setChan b c s).cfl = s.cfl ∧
    (setChan b c s).wlc = s.wlc ∧ (setChan b c s).dmc = s.dmc ∧ (setChan b c s).tqa = s.tqa ∧
    (setChan b c s).tcu = s.tcu ∧ (setChan b c s).stc = s.stc ∧ (setChan b c s).lmu = s.lmu ∧
    (setChan b c s).pru = s.pru ∧ (setChan b c s).draws = s.draws ∧
    (setChan b c s).pending = s.pending := by simp [setChan]

@[simp] theorem cutPhase_frame (b : Bank) (s : State) :
    (cutPhase b s).supply = s.supply ∧ (cutPhase b s).resetLow = s.resetLow ∧
    (cutPhase b s).clock = s.clock ∧ (cutPhase b s).xm = s.xm ∧
    (cutPhase b s).hostData = s.hostData ∧ (cutPhase b s).tripOut = s.tripOut ∧
    (cutPhase b s).atc = s.atc ∧ (cutPhase b s).ore = s.ore ∧ (cutPhase b s).cfl = s.cfl ∧
    (cutPhase b s).wlc = s.wlc ∧ (cutPhase b s).dmc = s.dmc ∧ (cutPhase b s).tqa = s.tqa ∧
    (cutPhase b s).tcu = s.tcu ∧ (cutPhase b s).stc = s.stc ∧ (cutPhase b s).lmu = s.lmu ∧
    (cutPhase b s).pru = s.pru ∧ (cutPhase b s).pending = s.pending := by
  simp only [cutPhase]
  (repeat' split) <;> simp

@[simp] theorem cutIfOff_frame (st : ChanState) (b : Bank) (s : State) :
    (cutIfOff st b s).supply = s.supply ∧ (cutIfOff st b s).resetLow = s.resetLow ∧
    (cutIfOff st b s).clock = s.clock ∧ (cutIfOff st b s).xm = s.xm ∧
    (cutIfOff st b s).hostData = s.hostData ∧ (cutIfOff st b s).tripOut = s.tripOut ∧
    (cutIfOff st b s).atc = s.atc ∧ (cutIfOff st b s).ore = s.ore ∧ (cutIfOff st b s).cfl = s.cfl ∧
    (cutIfOff st b s).wlc = s.wlc ∧ (cutIfOff st b s).dmc = s.dmc ∧ (cutIfOff st b s).tqa = s.tqa ∧
    (cutIfOff st b s).tcu = s.tcu ∧ (cutIfOff st b s).stc = s.stc ∧ (cutIfOff st b s).lmu = s.lmu ∧
    (cutIfOff st b s).pru = s.pru ∧ (cutIfOff st b s).pending = s.pending := by
  simp only [cutIfOff]
  (repeat' split) <;> simp

@[simp] theorem judgeChannel_frame (b : Bank) (s : State) :
    (judgeChannel b s).supply = s.supply ∧ (judgeChannel b s).resetLow = s.resetLow ∧
    (judgeChannel b s).clock = s.clock ∧ (judgeChannel b s).hostData = s.hostData ∧
    (judgeChannel b s).tripOut = s.tripOut ∧ (judgeChannel b s).atc = s.atc ∧
    (judgeChannel b s).ore = s.ore ∧ (judgeChannel b s).cfl = s.cfl ∧
    (judgeChannel b s).wlc = s.wlc ∧ (judgeChannel b s).dmc = s.dmc ∧
    (judgeChannel b s).tqa = s.tqa ∧ (judgeChannel b s).tcu = s.tcu ∧
    (judgeChannel b s).stc = s.stc ∧ (judgeChannel b s).lmu = s.lmu ∧
    (judgeChannel b s).pru = s.pru ∧ (judgeChannel b s).pending = s.pending := by
  simp only [judgeChannel]
  (repeat' split) <;> simp

@[simp] theorem judgeChannels_frame (s : State) :
    (judgeChannels s).supply = s.supply ∧ (judgeChannels s).resetLow = s.resetLow ∧
    (judgeChannels s).clock = s.clock ∧ (judgeChannels s).hostData = s.hostData ∧
    (judgeChannels s).tripOut = s.tripOut ∧ (judgeChannels s).atc = s.atc ∧
    (judgeChannels s).ore = s.ore ∧ (judgeChannels s).cfl = s.cfl ∧ (judgeChannels s).wlc = s.wlc ∧
    (judgeChannels s).dmc = s.dmc ∧ (judgeChannels s).tqa = s.tqa ∧ (judgeChannels s).tcu = s.tcu ∧
    (judgeChannels s).stc = s.stc ∧ (judgeChannels s).lmu = s.lmu ∧ (judgeChannels s).pru = s.pru ∧
    (judgeChannels s).pending = s.pending := by simp [judgeChannels, forBanks]

@[simp] theorem recomputeBlower_frame (s : State) :
    (recomputeBlower s).supply = s.supply ∧ (recomputeBlower s).resetLow = s.resetLow ∧
    (recomputeBlower s).clock = s.clock ∧ (recomputeBlower s).xm = s.xm ∧
    (recomputeBlower s).hostData = s.hostData ∧ (recomputeBlower s).tripOut = s.tripOut ∧
    (recomputeBlower s).atc = s.atc ∧ (recomputeBlower s).ore = s.ore ∧
    (recomputeBlower s).cfl = s.cfl ∧ (recomputeBlower s).wlc = s.wlc ∧
    (recomputeBlower s).dmc = s.dmc ∧ (recomputeBlower s).tqa = s.tqa ∧
    (recomputeBlower s).tcu = s.tcu ∧ (recomputeBlower s).stc = s.stc ∧
    (recomputeBlower s).pru = s.pru ∧ (recomputeBlower s).draws = s.draws ∧
    (recomputeBlower s).pending = s.pending := by simp [recomputeBlower]

@[simp] theorem showTest_frame (b : Bank) (f : BankShow → BankShow) (s : State) :
    (showTest b f s).supply = s.supply ∧ (showTest b f s).resetLow = s.resetLow ∧
    (showTest b f s).clock = s.clock ∧ (showTest b f s).hostData = s.hostData ∧
    (showTest b f s).tripOut = s.tripOut ∧ (showTest b f s).atc = s.atc ∧
    (showTest b f s).ore = s.ore ∧ (showTest b f s).cfl = s.cfl ∧ (showTest b f s).wlc = s.wlc ∧
    (showTest b f s).dmc = s.dmc ∧ (showTest b f s).tqa = s.tqa ∧ (showTest b f s).tcu = s.tcu ∧
    (showTest b f s).stc = s.stc ∧ (showTest b f s).lmu = s.lmu ∧ (showTest b f s).pru = s.pru ∧
    (showTest b f s).draws = s.draws ∧ (showTest b f s).pending = s.pending := by
  simp only [showTest]
  (repeat' split) <;> simp

@[simp] theorem setTest_frame (t : Option GridTest) (s : State) :
    (setTest t s).supply = s.supply ∧ (setTest t s).resetLow = s.resetLow ∧
    (setTest t s).clock = s.clock ∧ (setTest t s).xm = s.xm ∧ (setTest t s).hostData = s.hostData ∧
    (setTest t s).tripOut = s.tripOut ∧ (setTest t s).atc = s.atc ∧ (setTest t s).ore = s.ore ∧
    (setTest t s).cfl = s.cfl ∧ (setTest t s).wlc = s.wlc ∧ (setTest t s).dmc = s.dmc ∧
    (setTest t s).tqa = s.tqa ∧ (setTest t s).tcu = s.tcu ∧ (setTest t s).stc = s.stc ∧
    (setTest t s).lmu = s.lmu ∧ (setTest t s).pru = s.pru ∧ (setTest t s).draws = s.draws ∧
    (setTest t s).pending = s.pending := by simp [setTest]

@[simp] theorem nextBank_frame (s : State) :
    (nextBank s).supply = s.supply ∧ (nextBank s).resetLow = s.resetLow ∧
    (nextBank s).clock = s.clock ∧ (nextBank s).hostData = s.hostData ∧
    (nextBank s).tripOut = s.tripOut ∧ (nextBank s).cfl = s.cfl ∧ (nextBank s).wlc = s.wlc ∧
    (nextBank s).dmc = s.dmc ∧ (nextBank s).tqa = s.tqa ∧ (nextBank s).tcu = s.tcu ∧
    (nextBank s).stc = s.stc ∧ (nextBank s).lmu = s.lmu ∧ (nextBank s).pru = s.pru ∧
    (nextBank s).pending = s.pending := by
  simp only [nextBank]
  (repeat' split) <;> simp

@[simp] theorem passBank_frame (b : Bank) (s : State) :
    (passBank b s).supply = s.supply ∧ (passBank b s).resetLow = s.resetLow ∧
    (passBank b s).clock = s.clock ∧ (passBank b s).hostData = s.hostData ∧
    (passBank b s).tripOut = s.tripOut ∧ (passBank b s).cfl = s.cfl ∧ (passBank b s).wlc = s.wlc ∧
    (passBank b s).dmc = s.dmc ∧ (passBank b s).tqa = s.tqa ∧ (passBank b s).tcu = s.tcu ∧
    (passBank b s).stc = s.stc ∧ (passBank b s).lmu = s.lmu ∧ (passBank b s).pru = s.pru ∧
    (passBank b s).pending = s.pending := by
  simp only [passBank]
  (repeat' split) <;> simp

@[simp] theorem stopTest_frame (s : State) :
    (stopTest s).supply = s.supply ∧ (stopTest s).resetLow = s.resetLow ∧
    (stopTest s).clock = s.clock ∧ (stopTest s).hostData = s.hostData ∧
    (stopTest s).tripOut = s.tripOut ∧ (stopTest s).atc = s.atc ∧ (stopTest s).ore = s.ore ∧
    (stopTest s).cfl = s.cfl ∧ (stopTest s).wlc = s.wlc ∧ (stopTest s).dmc = s.dmc ∧
    (stopTest s).tqa = s.tqa ∧ (stopTest s).tcu = s.tcu ∧ (stopTest s).stc = s.stc ∧
    (stopTest s).lmu = s.lmu ∧ (stopTest s).pru = s.pru ∧ (stopTest s).pending = s.pending := by
  simp only [stopTest]
  (repeat' split) <;> simp

@[simp] theorem abortTestIf_frame (b : Bool) (s : State) :
    (abortTestIf b s).supply = s.supply ∧ (abortTestIf b s).resetLow = s.resetLow ∧
    (abortTestIf b s).clock = s.clock ∧ (abortTestIf b s).hostData = s.hostData ∧
    (abortTestIf b s).tripOut = s.tripOut ∧ (abortTestIf b s).cfl = s.cfl ∧
    (abortTestIf b s).wlc = s.wlc ∧ (abortTestIf b s).dmc = s.dmc ∧ (abortTestIf b s).tqa = s.tqa ∧
    (abortTestIf b s).tcu = s.tcu ∧ (abortTestIf b s).stc = s.stc ∧ (abortTestIf b s).lmu = s.lmu ∧
    (abortTestIf b s).pru = s.pru ∧ (abortTestIf b s).pending = s.pending := by
  simp only [abortTestIf]
  (repeat' split) <;> simp

@[simp] theorem skipWaiting_frame (b : Bank) (s : State) :
    (skipWaiting b s).supply = s.supply ∧ (skipWaiting b s).resetLow = s.resetLow ∧
    (skipWaiting b s).clock = s.clock ∧ (skipWaiting b s).hostData = s.hostData ∧
    (skipWaiting b s).tripOut = s.tripOut ∧ (skipWaiting b s).atc = s.atc ∧
    (skipWaiting b s).ore = s.ore ∧ (skipWaiting b s).cfl = s.cfl ∧ (skipWaiting b s).wlc = s.wlc ∧
    (skipWaiting b s).dmc = s.dmc ∧ (skipWaiting b s).tqa = s.tqa ∧ (skipWaiting b s).tcu = s.tcu ∧
    (skipWaiting b s).stc = s.stc ∧ (skipWaiting b s).lmu = s.lmu ∧ (skipWaiting b s).pru = s.pru ∧
    (skipWaiting b s).draws = s.draws ∧ (skipWaiting b s).pending = s.pending := by
  simp only [skipWaiting]
  (repeat' split) <;> simp

@[simp] theorem skipCurrent_frame (s : State) :
    (skipCurrent s).supply = s.supply ∧ (skipCurrent s).resetLow = s.resetLow ∧
    (skipCurrent s).clock = s.clock ∧ (skipCurrent s).hostData = s.hostData ∧
    (skipCurrent s).tripOut = s.tripOut ∧ (skipCurrent s).cfl = s.cfl ∧
    (skipCurrent s).wlc = s.wlc ∧ (skipCurrent s).dmc = s.dmc ∧ (skipCurrent s).tqa = s.tqa ∧
    (skipCurrent s).tcu = s.tcu ∧ (skipCurrent s).stc = s.stc ∧ (skipCurrent s).lmu = s.lmu ∧
    (skipCurrent s).pru = s.pru ∧ (skipCurrent s).pending = s.pending := by
  simp only [skipCurrent]
  (repeat' split) <;> simp

@[simp] theorem startTest_frame (cell : BitVec 6) (banks duty count : Word) (s : State) :
    (startTest cell banks duty count s).supply = s.supply ∧
    (startTest cell banks duty count s).resetLow = s.resetLow ∧
    (startTest cell banks duty count s).clock = s.clock ∧
    (startTest cell banks duty count s).hostData = s.hostData ∧
    (startTest cell banks duty count s).tripOut = s.tripOut ∧
    (startTest cell banks duty count s).cfl = s.cfl ∧
    (startTest cell banks duty count s).wlc = s.wlc ∧
    (startTest cell banks duty count s).dmc = s.dmc ∧
    (startTest cell banks duty count s).tqa = s.tqa ∧
    (startTest cell banks duty count s).tcu = s.tcu ∧
    (startTest cell banks duty count s).stc = s.stc ∧
    (startTest cell banks duty count s).lmu = s.lmu ∧
    (startTest cell banks duty count s).pru = s.pru ∧
    (startTest cell banks duty count s).pending = s.pending := by simp [startTest]

@[simp] theorem lowerLowest_frame (s : State) :
    (lowerLowest s).supply = s.supply ∧ (lowerLowest s).resetLow = s.resetLow ∧
    (lowerLowest s).clock = s.clock ∧ (lowerLowest s).hostData = s.hostData ∧
    (lowerLowest s).tripOut = s.tripOut ∧ (lowerLowest s).atc = s.atc ∧
    (lowerLowest s).ore = s.ore ∧ (lowerLowest s).cfl = s.cfl ∧ (lowerLowest s).wlc = s.wlc ∧
    (lowerLowest s).dmc = s.dmc ∧ (lowerLowest s).tqa = s.tqa ∧ (lowerLowest s).tcu = s.tcu ∧
    (lowerLowest s).stc = s.stc ∧ (lowerLowest s).lmu = s.lmu ∧ (lowerLowest s).pru = s.pru ∧
    (lowerLowest s).draws = s.draws ∧ (lowerLowest s).pending = s.pending := by
  simp only [lowerLowest]
  (repeat' split) <;> simp

@[simp] theorem checkTestStandstill_frame (s : State) :
    (checkTestStandstill s).supply = s.supply ∧ (checkTestStandstill s).resetLow = s.resetLow ∧
    (checkTestStandstill s).clock = s.clock ∧ (checkTestStandstill s).hostData = s.hostData ∧
    (checkTestStandstill s).tripOut = s.tripOut ∧ (checkTestStandstill s).cfl = s.cfl ∧
    (checkTestStandstill s).wlc = s.wlc ∧ (checkTestStandstill s).dmc = s.dmc ∧
    (checkTestStandstill s).tqa = s.tqa ∧ (checkTestStandstill s).tcu = s.tcu ∧
    (checkTestStandstill s).stc = s.stc ∧ (checkTestStandstill s).lmu = s.lmu ∧
    (checkTestStandstill s).pru = s.pru ∧ (checkTestStandstill s).pending = s.pending := by simp [checkTestStandstill]

@[simp] theorem countPulse_frame (b : Bank) (s : State) :
    (countPulse b s).supply = s.supply ∧ (countPulse b s).resetLow = s.resetLow ∧
    (countPulse b s).clock = s.clock ∧ (countPulse b s).hostData = s.hostData ∧
    (countPulse b s).tripOut = s.tripOut ∧ (countPulse b s).atc = s.atc ∧
    (countPulse b s).ore = s.ore ∧ (countPulse b s).cfl = s.cfl ∧ (countPulse b s).wlc = s.wlc ∧
    (countPulse b s).dmc = s.dmc ∧ (countPulse b s).tqa = s.tqa ∧ (countPulse b s).tcu = s.tcu ∧
    (countPulse b s).stc = s.stc ∧ (countPulse b s).lmu = s.lmu ∧ (countPulse b s).pru = s.pru ∧
    (countPulse b s).draws = s.draws ∧ (countPulse b s).pending = s.pending := by
  simp only [countPulse]
  (repeat' split) <;> simp

@[simp] theorem bankPeriod_frame (b : Bank) (s : State) :
    (bankPeriod b s).supply = s.supply ∧ (bankPeriod b s).resetLow = s.resetLow ∧
    (bankPeriod b s).clock = s.clock ∧ (bankPeriod b s).hostData = s.hostData ∧
    (bankPeriod b s).tripOut = s.tripOut ∧ (bankPeriod b s).cfl = s.cfl ∧
    (bankPeriod b s).wlc = s.wlc ∧ (bankPeriod b s).dmc = s.dmc ∧ (bankPeriod b s).tqa = s.tqa ∧
    (bankPeriod b s).tcu = s.tcu ∧ (bankPeriod b s).stc = s.stc ∧ (bankPeriod b s).lmu = s.lmu ∧
    (bankPeriod b s).pru = s.pru ∧ (bankPeriod b s).pending = s.pending := by
  simp only [bankPeriod]
  (repeat' split) <;> simp

@[simp] theorem blowerPeriod_frame (s : State) :
    (blowerPeriod s).supply = s.supply ∧ (blowerPeriod s).resetLow = s.resetLow ∧
    (blowerPeriod s).clock = s.clock ∧ (blowerPeriod s).xm = s.xm ∧
    (blowerPeriod s).hostData = s.hostData ∧ (blowerPeriod s).tripOut = s.tripOut ∧
    (blowerPeriod s).atc = s.atc ∧ (blowerPeriod s).ore = s.ore ∧ (blowerPeriod s).cfl = s.cfl ∧
    (blowerPeriod s).wlc = s.wlc ∧ (blowerPeriod s).dmc = s.dmc ∧ (blowerPeriod s).tqa = s.tqa ∧
    (blowerPeriod s).tcu = s.tcu ∧ (blowerPeriod s).stc = s.stc ∧ (blowerPeriod s).lmu = s.lmu ∧
    (blowerPeriod s).pru = s.pru ∧ (blowerPeriod s).draws = s.draws ∧
    (blowerPeriod s).pending = s.pending := by
  simp only [blowerPeriod]
  (repeat' split) <;> simp

@[simp] theorem bankExpiry_frame (b : Bank) (s : State) :
    (bankExpiry b s).supply = s.supply ∧ (bankExpiry b s).resetLow = s.resetLow ∧
    (bankExpiry b s).clock = s.clock ∧ (bankExpiry b s).hostData = s.hostData ∧
    (bankExpiry b s).tripOut = s.tripOut ∧ (bankExpiry b s).cfl = s.cfl ∧
    (bankExpiry b s).wlc = s.wlc ∧ (bankExpiry b s).dmc = s.dmc ∧ (bankExpiry b s).tqa = s.tqa ∧
    (bankExpiry b s).tcu = s.tcu ∧ (bankExpiry b s).stc = s.stc ∧ (bankExpiry b s).lmu = s.lmu ∧
    (bankExpiry b s).pru = s.pru ∧ (bankExpiry b s).pending = s.pending := by
  simp only [bankExpiry]
  (repeat' split) <;> simp

@[simp] theorem blowerExpiry_frame (s : State) :
    (blowerExpiry s).supply = s.supply ∧ (blowerExpiry s).resetLow = s.resetLow ∧
    (blowerExpiry s).clock = s.clock ∧ (blowerExpiry s).xm = s.xm ∧
    (blowerExpiry s).hostData = s.hostData ∧ (blowerExpiry s).tripOut = s.tripOut ∧
    (blowerExpiry s).atc = s.atc ∧ (blowerExpiry s).ore = s.ore ∧ (blowerExpiry s).cfl = s.cfl ∧
    (blowerExpiry s).wlc = s.wlc ∧ (blowerExpiry s).dmc = s.dmc ∧ (blowerExpiry s).tqa = s.tqa ∧
    (blowerExpiry s).tcu = s.tcu ∧ (blowerExpiry s).stc = s.stc ∧ (blowerExpiry s).lmu = s.lmu ∧
    (blowerExpiry s).pru = s.pru ∧ (blowerExpiry s).draws = s.draws ∧
    (blowerExpiry s).pending = s.pending := by
  simp only [blowerExpiry]
  (repeat' split) <;> simp

@[simp] theorem writeShadow_frame (b : Bank) (duty : Nat) (s : State) :
    (writeShadow b duty s).supply = s.supply ∧ (writeShadow b duty s).resetLow = s.resetLow ∧
    (writeShadow b duty s).clock = s.clock ∧ (writeShadow b duty s).xm = s.xm ∧
    (writeShadow b duty s).hostData = s.hostData ∧ (writeShadow b duty s).tripOut = s.tripOut ∧
    (writeShadow b duty s).atc = s.atc ∧ (writeShadow b duty s).ore = s.ore ∧
    (writeShadow b duty s).cfl = s.cfl ∧ (writeShadow b duty s).wlc = s.wlc ∧
    (writeShadow b duty s).dmc = s.dmc ∧ (writeShadow b duty s).tqa = s.tqa ∧
    (writeShadow b duty s).tcu = s.tcu ∧ (writeShadow b duty s).stc = s.stc ∧
    (writeShadow b duty s).lmu = s.lmu ∧ (writeShadow b duty s).pru = s.pru ∧
    (writeShadow b duty s).draws = s.draws ∧ (writeShadow b duty s).pending = s.pending := by
  simp only [writeShadow]
  (repeat' split) <;> simp

@[simp] theorem foldl_writeShadow_frame (l : List Bank) (s : State) :
    (l.foldl (fun s n => writeShadow n 0 s) s).supply = s.supply ∧
    (l.foldl (fun s n => writeShadow n 0 s) s).resetLow = s.resetLow ∧
    (l.foldl (fun s n => writeShadow n 0 s) s).clock = s.clock ∧
    (l.foldl (fun s n => writeShadow n 0 s) s).xm = s.xm ∧
    (l.foldl (fun s n => writeShadow n 0 s) s).hostData = s.hostData ∧
    (l.foldl (fun s n => writeShadow n 0 s) s).tripOut = s.tripOut ∧
    (l.foldl (fun s n => writeShadow n 0 s) s).atc = s.atc ∧
    (l.foldl (fun s n => writeShadow n 0 s) s).ore = s.ore ∧
    (l.foldl (fun s n => writeShadow n 0 s) s).cfl = s.cfl ∧
    (l.foldl (fun s n => writeShadow n 0 s) s).wlc = s.wlc ∧
    (l.foldl (fun s n => writeShadow n 0 s) s).dmc = s.dmc ∧
    (l.foldl (fun s n => writeShadow n 0 s) s).tqa = s.tqa ∧
    (l.foldl (fun s n => writeShadow n 0 s) s).tcu = s.tcu ∧
    (l.foldl (fun s n => writeShadow n 0 s) s).stc = s.stc ∧
    (l.foldl (fun s n => writeShadow n 0 s) s).lmu = s.lmu ∧
    (l.foldl (fun s n => writeShadow n 0 s) s).pru = s.pru ∧
    (l.foldl (fun s n => writeShadow n 0 s) s).draws = s.draws ∧
    (l.foldl (fun s n => writeShadow n 0 s) s).pending = s.pending := by
  induction l generalizing s with
  | nil => simp
  | cons n l ih => simp [ih]

@[simp] theorem distributeNone_frame (need : Nat) (s : State) :
    (distributeNone need s).supply = s.supply ∧ (distributeNone need s).resetLow = s.resetLow ∧
    (distributeNone need s).clock = s.clock ∧ (distributeNone need s).xm = s.xm ∧
    (distributeNone need s).hostData = s.hostData ∧ (distributeNone need s).tripOut = s.tripOut ∧
    (distributeNone need s).atc = s.atc ∧ (distributeNone need s).ore = s.ore ∧
    (distributeNone need s).cfl = s.cfl ∧ (distributeNone need s).wlc = s.wlc ∧
    (distributeNone need s).dmc = s.dmc ∧ (distributeNone need s).tqa = s.tqa ∧
    (distributeNone need s).tcu = s.tcu ∧ (distributeNone need s).stc = s.stc ∧
    (distributeNone need s).lmu = s.lmu ∧ (distributeNone need s).pru = s.pru ∧
    (distributeNone need s).draws = s.draws ∧ (distributeNone need s).pending = s.pending := by simp [distributeNone]

@[simp] theorem showFull_frame (s : State) :
    (showFull s).supply = s.supply ∧ (showFull s).resetLow = s.resetLow ∧
    (showFull s).clock = s.clock ∧ (showFull s).xm = s.xm ∧ (showFull s).hostData = s.hostData ∧
    (showFull s).tripOut = s.tripOut ∧ (showFull s).atc = s.atc ∧ (showFull s).ore = s.ore ∧
    (showFull s).cfl = s.cfl ∧ (showFull s).wlc = s.wlc ∧ (showFull s).dmc = s.dmc ∧
    (showFull s).tqa = s.tqa ∧ (showFull s).tcu = s.tcu ∧ (showFull s).stc = s.stc ∧
    (showFull s).lmu = s.lmu ∧ (showFull s).pru = s.pru ∧ (showFull s).draws = s.draws ∧
    (showFull s).pending = s.pending := by
  simp only [showFull]
  (repeat' split) <;> simp

@[simp] theorem distribute_frame (bs : List Bank) (remaining : Nat) (s : State) :
    (distribute bs remaining s).supply = s.supply ∧
    (distribute bs remaining s).resetLow = s.resetLow ∧
    (distribute bs remaining s).clock = s.clock ∧ (distribute bs remaining s).xm = s.xm ∧
    (distribute bs remaining s).hostData = s.hostData ∧
    (distribute bs remaining s).tripOut = s.tripOut ∧ (distribute bs remaining s).atc = s.atc ∧
    (distribute bs remaining s).ore = s.ore ∧ (distribute bs remaining s).cfl = s.cfl ∧
    (distribute bs remaining s).wlc = s.wlc ∧ (distribute bs remaining s).dmc = s.dmc ∧
    (distribute bs remaining s).tqa = s.tqa ∧ (distribute bs remaining s).tcu = s.tcu ∧
    (distribute bs remaining s).stc = s.stc ∧ (distribute bs remaining s).lmu = s.lmu ∧
    (distribute bs remaining s).pru = s.pru ∧ (distribute bs remaining s).draws = s.draws ∧
    (distribute bs remaining s).pending = s.pending := by
  induction bs generalizing remaining s with
  | nil => simp [distribute]
  | cons b bs ih =>
    simp only [distribute]
    split <;> simp [ih]

@[simp] theorem arrival_frame (s : State) :
    (arrival s).supply = s.supply ∧ (arrival s).resetLow = s.resetLow ∧
    (arrival s).clock = s.clock ∧ (arrival s).xm = s.xm ∧ (arrival s).hostData = s.hostData ∧
    (arrival s).tripOut = s.tripOut ∧ (arrival s).atc = s.atc ∧ (arrival s).ore = s.ore ∧
    (arrival s).cfl = s.cfl ∧ (arrival s).wlc = s.wlc ∧ (arrival s).dmc = s.dmc ∧
    (arrival s).tqa = s.tqa ∧ (arrival s).tcu = s.tcu ∧ (arrival s).stc = s.stc ∧
    (arrival s).lmu = s.lmu ∧ (arrival s).pru = s.pru ∧ (arrival s).draws = s.draws ∧
    (arrival s).pending = s.pending := by
  simp only [arrival]
  (repeat' split) <;> simp

@[simp] theorem postDemand_frame (pRet : Nat) (s : State) :
    (postDemand pRet s).supply = s.supply ∧ (postDemand pRet s).resetLow = s.resetLow ∧
    (postDemand pRet s).clock = s.clock ∧ (postDemand pRet s).xm = s.xm ∧
    (postDemand pRet s).hostData = s.hostData ∧ (postDemand pRet s).tripOut = s.tripOut ∧
    (postDemand pRet s).atc = s.atc ∧ (postDemand pRet s).ore = s.ore ∧
    (postDemand pRet s).cfl = s.cfl ∧ (postDemand pRet s).wlc = s.wlc ∧
    (postDemand pRet s).dmc = s.dmc ∧ (postDemand pRet s).tqa = s.tqa ∧
    (postDemand pRet s).tcu = s.tcu ∧ (postDemand pRet s).stc = s.stc ∧
    (postDemand pRet s).lmu = s.lmu ∧ (postDemand pRet s).pru = s.pru ∧
    (postDemand pRet s).draws = s.draws ∧ (postDemand pRet s).pending = s.pending := by simp [postDemand]

@[simp] theorem formEnvelope_frame (s : State) :
    (formEnvelope s).supply = s.supply ∧ (formEnvelope s).resetLow = s.resetLow ∧
    (formEnvelope s).clock = s.clock ∧ (formEnvelope s).xm = s.xm ∧
    (formEnvelope s).hostData = s.hostData ∧ (formEnvelope s).tripOut = s.tripOut ∧
    (formEnvelope s).atc = s.atc ∧ (formEnvelope s).ore = s.ore ∧ (formEnvelope s).cfl = s.cfl ∧
    (formEnvelope s).wlc = s.wlc ∧ (formEnvelope s).dmc = s.dmc ∧ (formEnvelope s).tqa = s.tqa ∧
    (formEnvelope s).tcu = s.tcu ∧ (formEnvelope s).stc = s.stc ∧ (formEnvelope s).lmu = s.lmu ∧
    (formEnvelope s).pru = s.pru ∧ (formEnvelope s).draws = s.draws ∧
    (formEnvelope s).pending = s.pending := by simp [formEnvelope]

@[simp] theorem formHold_frame (s : State) :
    (formHold s).supply = s.supply ∧ (formHold s).resetLow = s.resetLow ∧
    (formHold s).clock = s.clock ∧ (formHold s).xm = s.xm ∧ (formHold s).hostData = s.hostData ∧
    (formHold s).tripOut = s.tripOut ∧ (formHold s).atc = s.atc ∧ (formHold s).ore = s.ore ∧
    (formHold s).cfl = s.cfl ∧ (formHold s).wlc = s.wlc ∧ (formHold s).dmc = s.dmc ∧
    (formHold s).tqa = s.tqa ∧ (formHold s).tcu = s.tcu ∧ (formHold s).stc = s.stc ∧
    (formHold s).lmu = s.lmu ∧ (formHold s).pru = s.pru ∧ (formHold s).draws = s.draws ∧
    (formHold s).pending = s.pending := by simp [formHold]

@[simp] theorem updateHold_frame (s : State) :
    (updateHold s).supply = s.supply ∧ (updateHold s).resetLow = s.resetLow ∧
    (updateHold s).clock = s.clock ∧ (updateHold s).xm = s.xm ∧
    (updateHold s).hostData = s.hostData ∧ (updateHold s).tripOut = s.tripOut ∧
    (updateHold s).atc = s.atc ∧ (updateHold s).ore = s.ore ∧ (updateHold s).cfl = s.cfl ∧
    (updateHold s).wlc = s.wlc ∧ (updateHold s).dmc = s.dmc ∧ (updateHold s).tqa = s.tqa ∧
    (updateHold s).tcu = s.tcu ∧ (updateHold s).stc = s.stc ∧ (updateHold s).lmu = s.lmu ∧
    (updateHold s).pru = s.pru ∧ (updateHold s).draws = s.draws ∧
    (updateHold s).pending = s.pending := by
  simp only [updateHold]
  (repeat' split) <;> simp

@[simp] theorem changeExceeded_frame (present : Bool) (s : State) :
    (changeExceeded present s).supply = s.supply ∧
    (changeExceeded present s).resetLow = s.resetLow ∧ (changeExceeded present s).clock = s.clock ∧
    (changeExceeded present s).hostData = s.hostData ∧
    (changeExceeded present s).tripOut = s.tripOut ∧ (changeExceeded present s).ore = s.ore ∧
    (changeExceeded present s).cfl = s.cfl ∧ (changeExceeded present s).wlc = s.wlc ∧
    (changeExceeded present s).dmc = s.dmc ∧ (changeExceeded present s).tqa = s.tqa ∧
    (changeExceeded present s).tcu = s.tcu ∧ (changeExceeded present s).stc = s.stc ∧
    (changeExceeded present s).lmu = s.lmu ∧ (changeExceeded present s).draws = s.draws ∧
    (changeExceeded present s).pending = s.pending := by
  simp only [changeExceeded]
  (repeat' split) <;> simp

@[simp] theorem countEnvelope_frame (s : State) :
    (countEnvelope s).supply = s.supply ∧ (countEnvelope s).resetLow = s.resetLow ∧
    (countEnvelope s).clock = s.clock ∧ (countEnvelope s).hostData = s.hostData ∧
    (countEnvelope s).tripOut = s.tripOut ∧ (countEnvelope s).ore = s.ore ∧
    (countEnvelope s).cfl = s.cfl ∧ (countEnvelope s).wlc = s.wlc ∧ (countEnvelope s).dmc = s.dmc ∧
    (countEnvelope s).tqa = s.tqa ∧ (countEnvelope s).tcu = s.tcu ∧ (countEnvelope s).stc = s.stc ∧
    (countEnvelope s).lmu = s.lmu ∧ (countEnvelope s).draws = s.draws ∧
    (countEnvelope s).pending = s.pending := by
  simp only [countEnvelope]
  (repeat' split) <;> simp

@[simp] theorem restHold_frame (s : State) :
    (restHold s).supply = s.supply ∧ (restHold s).resetLow = s.resetLow ∧
    (restHold s).clock = s.clock ∧ (restHold s).hostData = s.hostData ∧
    (restHold s).tripOut = s.tripOut ∧ (restHold s).ore = s.ore ∧ (restHold s).cfl = s.cfl ∧
    (restHold s).wlc = s.wlc ∧ (restHold s).dmc = s.dmc ∧ (restHold s).tqa = s.tqa ∧
    (restHold s).tcu = s.tcu ∧ (restHold s).stc = s.stc ∧ (restHold s).lmu = s.lmu ∧
    (restHold s).draws = s.draws ∧ (restHold s).pending = s.pending := by simp [restHold]

@[simp] theorem addShortfall_frame (s : State) :
    (addShortfall s).supply = s.supply ∧ (addShortfall s).resetLow = s.resetLow ∧
    (addShortfall s).clock = s.clock ∧ (addShortfall s).hostData = s.hostData ∧
    (addShortfall s).tripOut = s.tripOut ∧ (addShortfall s).ore = s.ore ∧
    (addShortfall s).cfl = s.cfl ∧ (addShortfall s).wlc = s.wlc ∧ (addShortfall s).dmc = s.dmc ∧
    (addShortfall s).tqa = s.tqa ∧ (addShortfall s).tcu = s.tcu ∧ (addShortfall s).stc = s.stc ∧
    (addShortfall s).lmu = s.lmu ∧ (addShortfall s).pru = s.pru ∧
    (addShortfall s).draws = s.draws ∧ (addShortfall s).pending = s.pending := by simp [addShortfall]

@[simp] theorem removeShortfall_frame (s : State) :
    (removeShortfall s).supply = s.supply ∧ (removeShortfall s).resetLow = s.resetLow ∧
    (removeShortfall s).clock = s.clock ∧ (removeShortfall s).hostData = s.hostData ∧
    (removeShortfall s).tripOut = s.tripOut ∧ (removeShortfall s).ore = s.ore ∧
    (removeShortfall s).cfl = s.cfl ∧ (removeShortfall s).wlc = s.wlc ∧
    (removeShortfall s).dmc = s.dmc ∧ (removeShortfall s).tqa = s.tqa ∧
    (removeShortfall s).tcu = s.tcu ∧ (removeShortfall s).stc = s.stc ∧
    (removeShortfall s).lmu = s.lmu ∧ (removeShortfall s).pru = s.pru ∧
    (removeShortfall s).draws = s.draws ∧ (removeShortfall s).pending = s.pending := by simp [removeShortfall]

@[simp] theorem testShortfall_frame (s : State) :
    (testShortfall s).supply = s.supply ∧ (testShortfall s).resetLow = s.resetLow ∧
    (testShortfall s).clock = s.clock ∧ (testShortfall s).hostData = s.hostData ∧
    (testShortfall s).tripOut = s.tripOut ∧ (testShortfall s).ore = s.ore ∧
    (testShortfall s).cfl = s.cfl ∧ (testShortfall s).wlc = s.wlc ∧ (testShortfall s).dmc = s.dmc ∧
    (testShortfall s).tqa = s.tqa ∧ (testShortfall s).tcu = s.tcu ∧ (testShortfall s).stc = s.stc ∧
    (testShortfall s).lmu = s.lmu ∧ (testShortfall s).pru = s.pru ∧
    (testShortfall s).draws = s.draws ∧ (testShortfall s).pending = s.pending := by
  simp only [testShortfall]
  (repeat' split) <;> simp

@[simp] theorem testPostReset_frame (s : State) :
    (testPostReset s).supply = s.supply ∧ (testPostReset s).resetLow = s.resetLow ∧
    (testPostReset s).clock = s.clock ∧ (testPostReset s).hostData = s.hostData ∧
    (testPostReset s).tripOut = s.tripOut ∧ (testPostReset s).ore = s.ore ∧
    (testPostReset s).cfl = s.cfl ∧ (testPostReset s).wlc = s.wlc ∧ (testPostReset s).dmc = s.dmc ∧
    (testPostReset s).tqa = s.tqa ∧ (testPostReset s).tcu = s.tcu ∧ (testPostReset s).stc = s.stc ∧
    (testPostReset s).lmu = s.lmu ∧ (testPostReset s).pru = s.pru ∧
    (testPostReset s).draws = s.draws ∧ (testPostReset s).pending = s.pending := by
  simp only [testPostReset]
  (repeat' split) <;> simp

@[simp] theorem takeHoldPeriod_frame (s : State) :
    (takeHoldPeriod s).supply = s.supply ∧ (takeHoldPeriod s).resetLow = s.resetLow ∧
    (takeHoldPeriod s).clock = s.clock ∧ (takeHoldPeriod s).xm = s.xm ∧
    (takeHoldPeriod s).hostData = s.hostData ∧ (takeHoldPeriod s).tripOut = s.tripOut ∧
    (takeHoldPeriod s).atc = s.atc ∧ (takeHoldPeriod s).ore = s.ore ∧
    (takeHoldPeriod s).cfl = s.cfl ∧ (takeHoldPeriod s).wlc = s.wlc ∧
    (takeHoldPeriod s).dmc = s.dmc ∧ (takeHoldPeriod s).tqa = s.tqa ∧
    (takeHoldPeriod s).tcu = s.tcu ∧ (takeHoldPeriod s).stc = s.stc ∧
    (takeHoldPeriod s).lmu = s.lmu ∧ (takeHoldPeriod s).pru = s.pru ∧
    (takeHoldPeriod s).draws = s.draws ∧ (takeHoldPeriod s).pending = s.pending := by simp [takeHoldPeriod]

@[simp] theorem holdSteps_frame (s : State) :
    (holdSteps s).supply = s.supply ∧ (holdSteps s).resetLow = s.resetLow ∧
    (holdSteps s).clock = s.clock ∧ (holdSteps s).hostData = s.hostData ∧
    (holdSteps s).tripOut = s.tripOut ∧ (holdSteps s).ore = s.ore ∧ (holdSteps s).cfl = s.cfl ∧
    (holdSteps s).wlc = s.wlc ∧ (holdSteps s).dmc = s.dmc ∧ (holdSteps s).tqa = s.tqa ∧
    (holdSteps s).tcu = s.tcu ∧ (holdSteps s).stc = s.stc ∧ (holdSteps s).lmu = s.lmu ∧
    (holdSteps s).draws = s.draws ∧ (holdSteps s).pending = s.pending := by
  simp only [holdSteps, runAll]
  (repeat' split) <;> simp

@[simp] theorem setEnvelope_frame (t : List Nat) (s : State) :
    (setEnvelope t s).supply = s.supply ∧ (setEnvelope t s).resetLow = s.resetLow ∧
    (setEnvelope t s).clock = s.clock ∧ (setEnvelope t s).hostData = s.hostData ∧
    (setEnvelope t s).tripOut = s.tripOut ∧ (setEnvelope t s).atc = s.atc ∧
    (setEnvelope t s).ore = s.ore ∧ (setEnvelope t s).cfl = s.cfl ∧ (setEnvelope t s).wlc = s.wlc ∧
    (setEnvelope t s).dmc = s.dmc ∧ (setEnvelope t s).tqa = s.tqa ∧ (setEnvelope t s).tcu = s.tcu ∧
    (setEnvelope t s).stc = s.stc ∧ (setEnvelope t s).lmu = s.lmu ∧ (setEnvelope t s).pru = s.pru ∧
    (setEnvelope t s).draws = s.draws ∧ (setEnvelope t s).pending = s.pending := by simp [setEnvelope]

@[simp] theorem followBanks_frame (before : PerBank Bool) (s : State) :
    (followBanks before s).supply = s.supply ∧ (followBanks before s).resetLow = s.resetLow ∧
    (followBanks before s).clock = s.clock ∧ (followBanks before s).hostData = s.hostData ∧
    (followBanks before s).tripOut = s.tripOut ∧ (followBanks before s).cfl = s.cfl ∧
    (followBanks before s).wlc = s.wlc ∧ (followBanks before s).dmc = s.dmc ∧
    (followBanks before s).tqa = s.tqa ∧ (followBanks before s).tcu = s.tcu ∧
    (followBanks before s).stc = s.stc ∧ (followBanks before s).lmu = s.lmu ∧
    (followBanks before s).pru = s.pru ∧ (followBanks before s).pending = s.pending := by 
  simp only [followBanks, runAll, forBanks]
  (repeat' split) <;> simp

@[simp] theorem rgcExclusion_frame (before : PerBank Bool) (s : State) :
    (rgcExclusion before s).supply = s.supply ∧ (rgcExclusion before s).resetLow = s.resetLow ∧
    (rgcExclusion before s).clock = s.clock ∧ (rgcExclusion before s).hostData = s.hostData ∧
    (rgcExclusion before s).tripOut = s.tripOut ∧ (rgcExclusion before s).cfl = s.cfl ∧
    (rgcExclusion before s).wlc = s.wlc ∧ (rgcExclusion before s).dmc = s.dmc ∧
    (rgcExclusion before s).tqa = s.tqa ∧ (rgcExclusion before s).tcu = s.tcu ∧
    (rgcExclusion before s).stc = s.stc ∧ (rgcExclusion before s).lmu = s.lmu ∧
    (rgcExclusion before s).pru = s.pru ∧ (rgcExclusion before s).pending = s.pending := by
  simp only [rgcExclusion]
  (repeat' split) <;> simp

@[simp] theorem startDischarge_frame (s : State) :
    (startDischarge s).supply = s.supply ∧ (startDischarge s).resetLow = s.resetLow ∧
    (startDischarge s).clock = s.clock ∧ (startDischarge s).xm = s.xm ∧
    (startDischarge s).hostData = s.hostData ∧ (startDischarge s).tripOut = s.tripOut ∧
    (startDischarge s).atc = s.atc ∧ (startDischarge s).ore = s.ore ∧
    (startDischarge s).cfl = s.cfl ∧ (startDischarge s).wlc = s.wlc ∧
    (startDischarge s).dmc = s.dmc ∧ (startDischarge s).tqa = s.tqa ∧
    (startDischarge s).tcu = s.tcu ∧ (startDischarge s).stc = s.stc ∧
    (startDischarge s).lmu = s.lmu ∧ (startDischarge s).pru = s.pru ∧
    (startDischarge s).draws = s.draws ∧ (startDischarge s).pending = s.pending := by
  simp only [startDischarge]
  (repeat' split) <;> simp

@[simp] theorem rgcModeChange_frame (s : State) :
    (rgcModeChange s).supply = s.supply ∧ (rgcModeChange s).resetLow = s.resetLow ∧
    (rgcModeChange s).clock = s.clock ∧ (rgcModeChange s).hostData = s.hostData ∧
    (rgcModeChange s).tripOut = s.tripOut ∧ (rgcModeChange s).cfl = s.cfl ∧
    (rgcModeChange s).wlc = s.wlc ∧ (rgcModeChange s).dmc = s.dmc ∧ (rgcModeChange s).tqa = s.tqa ∧
    (rgcModeChange s).tcu = s.tcu ∧ (rgcModeChange s).stc = s.stc ∧ (rgcModeChange s).pru = s.pru ∧
    (rgcModeChange s).pending = s.pending := by simp [rgcModeChange, runAll]

@[simp] theorem rgcSubstateChange_frame (s : State) :
    (rgcSubstateChange s).supply = s.supply ∧ (rgcSubstateChange s).resetLow = s.resetLow ∧
    (rgcSubstateChange s).clock = s.clock ∧ (rgcSubstateChange s).xm = s.xm ∧
    (rgcSubstateChange s).hostData = s.hostData ∧ (rgcSubstateChange s).tripOut = s.tripOut ∧
    (rgcSubstateChange s).atc = s.atc ∧ (rgcSubstateChange s).ore = s.ore ∧
    (rgcSubstateChange s).cfl = s.cfl ∧ (rgcSubstateChange s).wlc = s.wlc ∧
    (rgcSubstateChange s).dmc = s.dmc ∧ (rgcSubstateChange s).tqa = s.tqa ∧
    (rgcSubstateChange s).tcu = s.tcu ∧ (rgcSubstateChange s).stc = s.stc ∧
    (rgcSubstateChange s).pru = s.pru ∧ (rgcSubstateChange s).draws = s.draws ∧
    (rgcSubstateChange s).pending = s.pending := by simp [rgcSubstateChange]

@[simp] theorem rgcConfig_frame (s : State) :
    (rgcConfig s).supply = s.supply ∧ (rgcConfig s).resetLow = s.resetLow ∧
    (rgcConfig s).clock = s.clock ∧ (rgcConfig s).hostData = s.hostData ∧
    (rgcConfig s).tripOut = s.tripOut ∧ (rgcConfig s).atc = s.atc ∧ (rgcConfig s).ore = s.ore ∧
    (rgcConfig s).cfl = s.cfl ∧ (rgcConfig s).wlc = s.wlc ∧ (rgcConfig s).dmc = s.dmc ∧
    (rgcConfig s).tqa = s.tqa ∧ (rgcConfig s).tcu = s.tcu ∧ (rgcConfig s).stc = s.stc ∧
    (rgcConfig s).lmu = s.lmu ∧ (rgcConfig s).pru = s.pru ∧ (rgcConfig s).pending = s.pending := by simp [rgcConfig, runAll]

@[simp] theorem startBlower_frame (s : State) :
    (startBlower s).supply = s.supply ∧ (startBlower s).resetLow = s.resetLow ∧
    (startBlower s).clock = s.clock ∧ (startBlower s).xm = s.xm ∧
    (startBlower s).hostData = s.hostData ∧ (startBlower s).tripOut = s.tripOut ∧
    (startBlower s).atc = s.atc ∧ (startBlower s).ore = s.ore ∧ (startBlower s).cfl = s.cfl ∧
    (startBlower s).wlc = s.wlc ∧ (startBlower s).dmc = s.dmc ∧ (startBlower s).tqa = s.tqa ∧
    (startBlower s).tcu = s.tcu ∧ (startBlower s).stc = s.stc ∧ (startBlower s).lmu = s.lmu ∧
    (startBlower s).pru = s.pru ∧ (startBlower s).draws = s.draws ∧
    (startBlower s).pending = s.pending := by
  simp only [startBlower]
  (repeat' split) <;> simp

@[simp] theorem allocate_frame (s : State) :
    (allocate s).supply = s.supply ∧ (allocate s).resetLow = s.resetLow ∧
    (allocate s).clock = s.clock ∧ (allocate s).xm = s.xm ∧ (allocate s).hostData = s.hostData ∧
    (allocate s).tripOut = s.tripOut ∧ (allocate s).atc = s.atc ∧ (allocate s).ore = s.ore ∧
    (allocate s).cfl = s.cfl ∧ (allocate s).wlc = s.wlc ∧ (allocate s).dmc = s.dmc ∧
    (allocate s).tcu = s.tcu ∧ (allocate s).rgc = s.rgc ∧ (allocate s).stc = s.stc ∧
    (allocate s).lmu = s.lmu ∧ (allocate s).pru = s.pru ∧ (allocate s).draws = s.draws ∧
    (allocate s).pending = s.pending := by
  simp only [allocate]
  (repeat' split) <;> simp

@[simp] theorem skipAllocation_frame (s : State) :
    (skipAllocation s).supply = s.supply ∧ (skipAllocation s).resetLow = s.resetLow ∧
    (skipAllocation s).clock = s.clock ∧ (skipAllocation s).xm = s.xm ∧
    (skipAllocation s).hostData = s.hostData ∧ (skipAllocation s).tripOut = s.tripOut ∧
    (skipAllocation s).atc = s.atc ∧ (skipAllocation s).ore = s.ore ∧
    (skipAllocation s).cfl = s.cfl ∧ (skipAllocation s).wlc = s.wlc ∧
    (skipAllocation s).dmc = s.dmc ∧ (skipAllocation s).tcu = s.tcu ∧
    (skipAllocation s).rgc = s.rgc ∧ (skipAllocation s).stc = s.stc ∧
    (skipAllocation s).lmu = s.lmu ∧ (skipAllocation s).pru = s.pru ∧
    (skipAllocation s).draws = s.draws ∧ (skipAllocation s).pending = s.pending := by simp [skipAllocation]

@[simp] theorem setSlot_frame (w : Wheel) (torque : Int) (s : State) :
    (setSlot w torque s).supply = s.supply ∧ (setSlot w torque s).resetLow = s.resetLow ∧
    (setSlot w torque s).clock = s.clock ∧ (setSlot w torque s).xm = s.xm ∧
    (setSlot w torque s).hostData = s.hostData ∧ (setSlot w torque s).tripOut = s.tripOut ∧
    (setSlot w torque s).atc = s.atc ∧ (setSlot w torque s).ore = s.ore ∧
    (setSlot w torque s).cfl = s.cfl ∧ (setSlot w torque s).dmc = s.dmc ∧
    (setSlot w torque s).tqa = s.tqa ∧ (setSlot w torque s).tcu = s.tcu ∧
    (setSlot w torque s).rgc = s.rgc ∧ (setSlot w torque s).stc = s.stc ∧
    (setSlot w torque s).lmu = s.lmu ∧ (setSlot w torque s).pru = s.pru ∧
    (setSlot w torque s).draws = s.draws ∧ (setSlot w torque s).pending = s.pending := by simp [setSlot]

@[simp] theorem writeSlots_frame (s : State) :
    (writeSlots s).supply = s.supply ∧ (writeSlots s).resetLow = s.resetLow ∧
    (writeSlots s).clock = s.clock ∧ (writeSlots s).xm = s.xm ∧
    (writeSlots s).hostData = s.hostData ∧ (writeSlots s).tripOut = s.tripOut ∧
    (writeSlots s).atc = s.atc ∧ (writeSlots s).ore = s.ore ∧ (writeSlots s).cfl = s.cfl ∧
    (writeSlots s).dmc = s.dmc ∧ (writeSlots s).tqa = s.tqa ∧ (writeSlots s).tcu = s.tcu ∧
    (writeSlots s).rgc = s.rgc ∧ (writeSlots s).stc = s.stc ∧ (writeSlots s).lmu = s.lmu ∧
    (writeSlots s).pru = s.pru ∧ (writeSlots s).draws = s.draws ∧
    (writeSlots s).pending = s.pending := by simp [writeSlots, forWheels]

@[simp] theorem postRetard_frame (s : State) :
    (postRetard s).supply = s.supply ∧ (postRetard s).resetLow = s.resetLow ∧
    (postRetard s).clock = s.clock ∧ (postRetard s).xm = s.xm ∧
    (postRetard s).hostData = s.hostData ∧ (postRetard s).tripOut = s.tripOut ∧
    (postRetard s).atc = s.atc ∧ (postRetard s).ore = s.ore ∧ (postRetard s).cfl = s.cfl ∧
    (postRetard s).wlc = s.wlc ∧ (postRetard s).dmc = s.dmc ∧ (postRetard s).tcu = s.tcu ∧
    (postRetard s).stc = s.stc ∧ (postRetard s).lmu = s.lmu ∧ (postRetard s).pru = s.pru ∧
    (postRetard s).draws = s.draws ∧ (postRetard s).pending = s.pending := by simp [postRetard]

@[simp] theorem updateCredit_frame (w : Wheel) (s : State) :
    (updateCredit w s).supply = s.supply ∧ (updateCredit w s).resetLow = s.resetLow ∧
    (updateCredit w s).clock = s.clock ∧ (updateCredit w s).hostData = s.hostData ∧
    (updateCredit w s).tripOut = s.tripOut ∧ (updateCredit w s).ore = s.ore ∧
    (updateCredit w s).cfl = s.cfl ∧ (updateCredit w s).wlc = s.wlc ∧
    (updateCredit w s).dmc = s.dmc ∧ (updateCredit w s).tcu = s.tcu ∧
    (updateCredit w s).rgc = s.rgc ∧ (updateCredit w s).stc = s.stc ∧
    (updateCredit w s).lmu = s.lmu ∧ (updateCredit w s).draws = s.draws ∧
    (updateCredit w s).pending = s.pending := by
  simp only [updateCredit]
  (repeat' split) <;> simp

@[simp] theorem updateCredits_frame (s : State) :
    (updateCredits s).supply = s.supply ∧ (updateCredits s).resetLow = s.resetLow ∧
    (updateCredits s).clock = s.clock ∧ (updateCredits s).hostData = s.hostData ∧
    (updateCredits s).tripOut = s.tripOut ∧ (updateCredits s).ore = s.ore ∧
    (updateCredits s).cfl = s.cfl ∧ (updateCredits s).wlc = s.wlc ∧ (updateCredits s).dmc = s.dmc ∧
    (updateCredits s).tcu = s.tcu ∧ (updateCredits s).rgc = s.rgc ∧ (updateCredits s).stc = s.stc ∧
    (updateCredits s).lmu = s.lmu ∧ (updateCredits s).draws = s.draws ∧
    (updateCredits s).pending = s.pending := by
  simp only [updateCredits, forWheels]
  (repeat' split) <;> simp

@[simp] theorem putAllocator_frame (w : Wheel) (s : State) :
    (putAllocator w s).supply = s.supply ∧ (putAllocator w s).resetLow = s.resetLow ∧
    (putAllocator w s).clock = s.clock ∧ (putAllocator w s).hostData = s.hostData ∧
    (putAllocator w s).tripOut = s.tripOut ∧ (putAllocator w s).atc = s.atc ∧
    (putAllocator w s).ore = s.ore ∧ (putAllocator w s).cfl = s.cfl ∧
    (putAllocator w s).wlc = s.wlc ∧ (putAllocator w s).dmc = s.dmc ∧
    (putAllocator w s).tqa = s.tqa ∧ (putAllocator w s).tcu = s.tcu ∧
    (putAllocator w s).rgc = s.rgc ∧ (putAllocator w s).stc = s.stc ∧
    (putAllocator w s).lmu = s.lmu ∧ (putAllocator w s).pru = s.pru ∧
    (putAllocator w s).draws = s.draws ∧ (putAllocator w s).pending = s.pending := by
  simp only [putAllocator]
  (repeat' split) <;> simp

@[simp] theorem putTqaSection_frame (s : State) :
    (putTqaSection s).supply = s.supply ∧ (putTqaSection s).resetLow = s.resetLow ∧
    (putTqaSection s).clock = s.clock ∧ (putTqaSection s).hostData = s.hostData ∧
    (putTqaSection s).tripOut = s.tripOut ∧ (putTqaSection s).atc = s.atc ∧
    (putTqaSection s).ore = s.ore ∧ (putTqaSection s).cfl = s.cfl ∧ (putTqaSection s).wlc = s.wlc ∧
    (putTqaSection s).dmc = s.dmc ∧ (putTqaSection s).tqa = s.tqa ∧ (putTqaSection s).tcu = s.tcu ∧
    (putTqaSection s).rgc = s.rgc ∧ (putTqaSection s).stc = s.stc ∧ (putTqaSection s).lmu = s.lmu ∧
    (putTqaSection s).pru = s.pru ∧ (putTqaSection s).draws = s.draws ∧
    (putTqaSection s).pending = s.pending := by simp [putTqaSection]

@[simp] theorem takeAllocPeriod_frame (s : State) :
    (takeAllocPeriod s).supply = s.supply ∧ (takeAllocPeriod s).resetLow = s.resetLow ∧
    (takeAllocPeriod s).clock = s.clock ∧ (takeAllocPeriod s).xm = s.xm ∧
    (takeAllocPeriod s).hostData = s.hostData ∧ (takeAllocPeriod s).tripOut = s.tripOut ∧
    (takeAllocPeriod s).atc = s.atc ∧ (takeAllocPeriod s).ore = s.ore ∧
    (takeAllocPeriod s).cfl = s.cfl ∧ (takeAllocPeriod s).wlc = s.wlc ∧
    (takeAllocPeriod s).dmc = s.dmc ∧ (takeAllocPeriod s).tcu = s.tcu ∧
    (takeAllocPeriod s).rgc = s.rgc ∧ (takeAllocPeriod s).stc = s.stc ∧
    (takeAllocPeriod s).lmu = s.lmu ∧ (takeAllocPeriod s).pru = s.pru ∧
    (takeAllocPeriod s).draws = s.draws ∧ (takeAllocPeriod s).pending = s.pending := by simp [takeAllocPeriod]

@[simp] theorem allocationSteps_frame (s : State) :
    (allocationSteps s).supply = s.supply ∧ (allocationSteps s).resetLow = s.resetLow ∧
    (allocationSteps s).clock = s.clock ∧ (allocationSteps s).hostData = s.hostData ∧
    (allocationSteps s).tripOut = s.tripOut ∧ (allocationSteps s).ore = s.ore ∧
    (allocationSteps s).cfl = s.cfl ∧ (allocationSteps s).dmc = s.dmc ∧
    (allocationSteps s).tcu = s.tcu ∧ (allocationSteps s).stc = s.stc ∧
    (allocationSteps s).lmu = s.lmu ∧ (allocationSteps s).draws = s.draws ∧
    (allocationSteps s).pending = s.pending := by
  simp only [allocationSteps, runAll, forWheels]
  (repeat' split) <;> simp

@[simp] theorem setLimitValues_frame (forward reverse cap : Word) (s : State) :
    (setLimitValues forward reverse cap s).supply = s.supply ∧
    (setLimitValues forward reverse cap s).resetLow = s.resetLow ∧
    (setLimitValues forward reverse cap s).clock = s.clock ∧
    (setLimitValues forward reverse cap s).xm = s.xm ∧
    (setLimitValues forward reverse cap s).hostData = s.hostData ∧
    (setLimitValues forward reverse cap s).tripOut = s.tripOut ∧
    (setLimitValues forward reverse cap s).atc = s.atc ∧
    (setLimitValues forward reverse cap s).ore = s.ore ∧
    (setLimitValues forward reverse cap s).cfl = s.cfl ∧
    (setLimitValues forward reverse cap s).wlc = s.wlc ∧
    (setLimitValues forward reverse cap s).dmc = s.dmc ∧
    (setLimitValues forward reverse cap s).tcu = s.tcu ∧
    (setLimitValues forward reverse cap s).rgc = s.rgc ∧
    (setLimitValues forward reverse cap s).stc = s.stc ∧
    (setLimitValues forward reverse cap s).lmu = s.lmu ∧
    (setLimitValues forward reverse cap s).pru = s.pru ∧
    (setLimitValues forward reverse cap s).draws = s.draws ∧
    (setLimitValues forward reverse cap s).pending = s.pending := by simp [setLimitValues]

@[simp] theorem tqaConfig_frame (s : State) :
    (tqaConfig s).supply = s.supply ∧ (tqaConfig s).resetLow = s.resetLow ∧
    (tqaConfig s).clock = s.clock ∧ (tqaConfig s).xm = s.xm ∧ (tqaConfig s).hostData = s.hostData ∧
    (tqaConfig s).tripOut = s.tripOut ∧ (tqaConfig s).atc = s.atc ∧ (tqaConfig s).ore = s.ore ∧
    (tqaConfig s).cfl = s.cfl ∧ (tqaConfig s).wlc = s.wlc ∧ (tqaConfig s).dmc = s.dmc ∧
    (tqaConfig s).tcu = s.tcu ∧ (tqaConfig s).rgc = s.rgc ∧ (tqaConfig s).stc = s.stc ∧
    (tqaConfig s).lmu = s.lmu ∧ (tqaConfig s).pru = s.pru ∧ (tqaConfig s).draws = s.draws ∧
    (tqaConfig s).pending = s.pending := by simp [tqaConfig]

end Sys2Proof.Machine
end

