-- ==== Sys2Proof/Laws/FramesLink.lean ====
section
/-! SUPPORT. The frames of the operations of the wheel link and the configuration loader: what each one leaves. -/

namespace Sys2Proof.Machine

@[simp] theorem changeUnit_frame (u : UnitId) (r : UnitRec) (s : State) :
    (changeUnit u r s).supply = s.supply ∧ (changeUnit u r s).resetLow = s.resetLow ∧
    (changeUnit u r s).clock = s.clock ∧ (changeUnit u r s).hostData = s.hostData ∧
    (changeUnit u r s).tripOut = s.tripOut ∧ (changeUnit u r s).cfl = s.cfl ∧
    (changeUnit u r s).dmc = s.dmc ∧ (changeUnit u r s).tqa = s.tqa ∧
    (changeUnit u r s).tcu = s.tcu ∧ (changeUnit u r s).rgc = s.rgc ∧
    (changeUnit u r s).lmu = s.lmu ∧ (changeUnit u r s).pru = s.pru ∧
    (changeUnit u r s).draws = s.draws ∧ (changeUnit u r s).pending = s.pending := by
  simp only [changeUnit]
  (repeat' split) <;> simp

@[simp] theorem putLink_frame (u : UnitId) (s : State) :
    (putLink u s).supply = s.supply ∧ (putLink u s).resetLow = s.resetLow ∧
    (putLink u s).clock = s.clock ∧ (putLink u s).hostData = s.hostData ∧
    (putLink u s).tripOut = s.tripOut ∧ (putLink u s).atc = s.atc ∧ (putLink u s).ore = s.ore ∧
    (putLink u s).cfl = s.cfl ∧ (putLink u s).wlc = s.wlc ∧ (putLink u s).dmc = s.dmc ∧
    (putLink u s).tqa = s.tqa ∧ (putLink u s).tcu = s.tcu ∧ (putLink u s).rgc = s.rgc ∧
    (putLink u s).stc = s.stc ∧ (putLink u s).lmu = s.lmu ∧ (putLink u s).pru = s.pru ∧
    (putLink u s).draws = s.draws ∧ (putLink u s).pending = s.pending := by simp [putLink]

@[simp] theorem takeConfigured_frame (u : UnitId) (s : State) :
    (takeConfigured u s).supply = s.supply ∧ (takeConfigured u s).resetLow = s.resetLow ∧
    (takeConfigured u s).clock = s.clock ∧ (takeConfigured u s).hostData = s.hostData ∧
    (takeConfigured u s).tripOut = s.tripOut ∧ (takeConfigured u s).cfl = s.cfl ∧
    (takeConfigured u s).dmc = s.dmc ∧ (takeConfigured u s).tqa = s.tqa ∧
    (takeConfigured u s).tcu = s.tcu ∧ (takeConfigured u s).rgc = s.rgc ∧
    (takeConfigured u s).lmu = s.lmu ∧ (takeConfigured u s).draws = s.draws ∧
    (takeConfigured u s).pending = s.pending := by
  simp only [takeConfigured]
  (repeat' split) <;> simp

@[simp] theorem placeUnit_frame (u : UnitId) (s : State) :
    (placeUnit u s).supply = s.supply ∧ (placeUnit u s).resetLow = s.resetLow ∧
    (placeUnit u s).clock = s.clock ∧ (placeUnit u s).hostData = s.hostData ∧
    (placeUnit u s).tripOut = s.tripOut ∧ (placeUnit u s).atc = s.atc ∧
    (placeUnit u s).ore = s.ore ∧ (placeUnit u s).cfl = s.cfl ∧ (placeUnit u s).dmc = s.dmc ∧
    (placeUnit u s).tqa = s.tqa ∧ (placeUnit u s).tcu = s.tcu ∧ (placeUnit u s).rgc = s.rgc ∧
    (placeUnit u s).stc = s.stc ∧ (placeUnit u s).lmu = s.lmu ∧ (placeUnit u s).pru = s.pru ∧
    (placeUnit u s).draws = s.draws ∧ (placeUnit u s).pending = s.pending := by simp [placeUnit]

@[simp] theorem placeBank_frame (b : Bank) (s : State) :
    (placeBank b s).supply = s.supply ∧ (placeBank b s).resetLow = s.resetLow ∧
    (placeBank b s).clock = s.clock ∧ (placeBank b s).hostData = s.hostData ∧
    (placeBank b s).tripOut = s.tripOut ∧ (placeBank b s).atc = s.atc ∧
    (placeBank b s).ore = s.ore ∧ (placeBank b s).cfl = s.cfl ∧ (placeBank b s).dmc = s.dmc ∧
    (placeBank b s).tqa = s.tqa ∧ (placeBank b s).tcu = s.tcu ∧ (placeBank b s).rgc = s.rgc ∧
    (placeBank b s).stc = s.stc ∧ (placeBank b s).lmu = s.lmu ∧ (placeBank b s).pru = s.pru ∧
    (placeBank b s).draws = s.draws ∧ (placeBank b s).pending = s.pending := by simp [placeBank]

@[simp] theorem placeIfEnrolled_frame (u : UnitId) (s : State) :
    (placeIfEnrolled u s).supply = s.supply ∧ (placeIfEnrolled u s).resetLow = s.resetLow ∧
    (placeIfEnrolled u s).clock = s.clock ∧ (placeIfEnrolled u s).hostData = s.hostData ∧
    (placeIfEnrolled u s).tripOut = s.tripOut ∧ (placeIfEnrolled u s).atc = s.atc ∧
    (placeIfEnrolled u s).ore = s.ore ∧ (placeIfEnrolled u s).cfl = s.cfl ∧
    (placeIfEnrolled u s).dmc = s.dmc ∧ (placeIfEnrolled u s).tqa = s.tqa ∧
    (placeIfEnrolled u s).tcu = s.tcu ∧ (placeIfEnrolled u s).rgc = s.rgc ∧
    (placeIfEnrolled u s).stc = s.stc ∧ (placeIfEnrolled u s).lmu = s.lmu ∧
    (placeIfEnrolled u s).pru = s.pru ∧ (placeIfEnrolled u s).draws = s.draws ∧
    (placeIfEnrolled u s).pending = s.pending := by
  simp only [placeIfEnrolled]
  (repeat' split) <;> simp

@[simp] theorem placeIfConfigured_frame (b : Bank) (s : State) :
    (placeIfConfigured b s).supply = s.supply ∧ (placeIfConfigured b s).resetLow = s.resetLow ∧
    (placeIfConfigured b s).clock = s.clock ∧ (placeIfConfigured b s).hostData = s.hostData ∧
    (placeIfConfigured b s).tripOut = s.tripOut ∧ (placeIfConfigured b s).atc = s.atc ∧
    (placeIfConfigured b s).ore = s.ore ∧ (placeIfConfigured b s).cfl = s.cfl ∧
    (placeIfConfigured b s).dmc = s.dmc ∧ (placeIfConfigured b s).tqa = s.tqa ∧
    (placeIfConfigured b s).tcu = s.tcu ∧ (placeIfConfigured b s).rgc = s.rgc ∧
    (placeIfConfigured b s).stc = s.stc ∧ (placeIfConfigured b s).lmu = s.lmu ∧
    (placeIfConfigured b s).pru = s.pru ∧ (placeIfConfigured b s).draws = s.draws ∧
    (placeIfConfigured b s).pending = s.pending := by
  simp only [placeIfConfigured]
  (repeat' split) <;> simp

@[simp] theorem placeBlocks_frame (s : State) :
    (placeBlocks s).supply = s.supply ∧ (placeBlocks s).resetLow = s.resetLow ∧
    (placeBlocks s).clock = s.clock ∧ (placeBlocks s).hostData = s.hostData ∧
    (placeBlocks s).tripOut = s.tripOut ∧ (placeBlocks s).atc = s.atc ∧
    (placeBlocks s).ore = s.ore ∧ (placeBlocks s).cfl = s.cfl ∧ (placeBlocks s).dmc = s.dmc ∧
    (placeBlocks s).tqa = s.tqa ∧ (placeBlocks s).tcu = s.tcu ∧ (placeBlocks s).rgc = s.rgc ∧
    (placeBlocks s).stc = s.stc ∧ (placeBlocks s).lmu = s.lmu ∧ (placeBlocks s).pru = s.pru ∧
    (placeBlocks s).draws = s.draws ∧ (placeBlocks s).pending = s.pending := by simp [placeBlocks, forBanks, forUnits, forWheels]

@[simp] theorem setOrder_frame (o : Option EnrollOrder) (s : State) :
    (setOrder o s).supply = s.supply ∧ (setOrder o s).resetLow = s.resetLow ∧
    (setOrder o s).clock = s.clock ∧ (setOrder o s).xm = s.xm ∧
    (setOrder o s).hostData = s.hostData ∧ (setOrder o s).tripOut = s.tripOut ∧
    (setOrder o s).atc = s.atc ∧ (setOrder o s).ore = s.ore ∧ (setOrder o s).cfl = s.cfl ∧
    (setOrder o s).dmc = s.dmc ∧ (setOrder o s).tqa = s.tqa ∧ (setOrder o s).tcu = s.tcu ∧
    (setOrder o s).rgc = s.rgc ∧ (setOrder o s).stc = s.stc ∧ (setOrder o s).lmu = s.lmu ∧
    (setOrder o s).pru = s.pru ∧ (setOrder o s).draws = s.draws ∧
    (setOrder o s).pending = s.pending := by simp [setOrder]

@[simp] theorem endOrder_frame (s : State) :
    (endOrder s).supply = s.supply ∧ (endOrder s).resetLow = s.resetLow ∧
    (endOrder s).clock = s.clock ∧ (endOrder s).xm = s.xm ∧ (endOrder s).hostData = s.hostData ∧
    (endOrder s).tripOut = s.tripOut ∧ (endOrder s).atc = s.atc ∧ (endOrder s).ore = s.ore ∧
    (endOrder s).cfl = s.cfl ∧ (endOrder s).dmc = s.dmc ∧ (endOrder s).tqa = s.tqa ∧
    (endOrder s).tcu = s.tcu ∧ (endOrder s).rgc = s.rgc ∧ (endOrder s).stc = s.stc ∧
    (endOrder s).lmu = s.lmu ∧ (endOrder s).pru = s.pru ∧ (endOrder s).draws = s.draws ∧
    (endOrder s).pending = s.pending := by simp [endOrder]

@[simp] theorem nextTarget_frame (s : State) :
    (nextTarget s).supply = s.supply ∧ (nextTarget s).resetLow = s.resetLow ∧
    (nextTarget s).clock = s.clock ∧ (nextTarget s).hostData = s.hostData ∧
    (nextTarget s).tripOut = s.tripOut ∧ (nextTarget s).cfl = s.cfl ∧ (nextTarget s).dmc = s.dmc ∧
    (nextTarget s).tqa = s.tqa ∧ (nextTarget s).tcu = s.tcu ∧ (nextTarget s).rgc = s.rgc ∧
    (nextTarget s).stc = s.stc ∧ (nextTarget s).lmu = s.lmu ∧ (nextTarget s).pru = s.pru ∧
    (nextTarget s).draws = s.draws ∧ (nextTarget s).pending = s.pending := by
  simp only [nextTarget]
  (repeat' split) <;> simp

@[simp] theorem finishTarget_frame (u : UnitId) (isFound : Bool) (s : State) :
    (finishTarget u isFound s).supply = s.supply ∧
    (finishTarget u isFound s).resetLow = s.resetLow ∧ (finishTarget u isFound s).clock = s.clock ∧
    (finishTarget u isFound s).hostData = s.hostData ∧
    (finishTarget u isFound s).tripOut = s.tripOut ∧ (finishTarget u isFound s).cfl = s.cfl ∧
    (finishTarget u isFound s).dmc = s.dmc ∧ (finishTarget u isFound s).tqa = s.tqa ∧
    (finishTarget u isFound s).tcu = s.tcu ∧ (finishTarget u isFound s).rgc = s.rgc ∧
    (finishTarget u isFound s).stc = s.stc ∧ (finishTarget u isFound s).lmu = s.lmu ∧
    (finishTarget u isFound s).pru = s.pru ∧ (finishTarget u isFound s).draws = s.draws ∧
    (finishTarget u isFound s).pending = s.pending := by
  simp only [finishTarget]
  (repeat' split) <;> simp

@[simp] theorem abortRollCall_frame (s : State) :
    (abortRollCall s).supply = s.supply ∧ (abortRollCall s).resetLow = s.resetLow ∧
    (abortRollCall s).clock = s.clock ∧ (abortRollCall s).hostData = s.hostData ∧
    (abortRollCall s).tripOut = s.tripOut ∧ (abortRollCall s).cfl = s.cfl ∧
    (abortRollCall s).dmc = s.dmc ∧ (abortRollCall s).tqa = s.tqa ∧ (abortRollCall s).tcu = s.tcu ∧
    (abortRollCall s).rgc = s.rgc ∧ (abortRollCall s).stc = s.stc ∧ (abortRollCall s).lmu = s.lmu ∧
    (abortRollCall s).pru = s.pru ∧ (abortRollCall s).draws = s.draws ∧
    (abortRollCall s).pending = s.pending := by
  simp only [abortRollCall]
  (repeat' split) <;> simp

@[simp] theorem startRollCallOrder_frame (cell : BitVec 6) (s : State) :
    (startRollCallOrder cell s).supply = s.supply ∧
    (startRollCallOrder cell s).resetLow = s.resetLow ∧
    (startRollCallOrder cell s).clock = s.clock ∧
    (startRollCallOrder cell s).hostData = s.hostData ∧
    (startRollCallOrder cell s).tripOut = s.tripOut ∧ (startRollCallOrder cell s).cfl = s.cfl ∧
    (startRollCallOrder cell s).dmc = s.dmc ∧ (startRollCallOrder cell s).tqa = s.tqa ∧
    (startRollCallOrder cell s).tcu = s.tcu ∧ (startRollCallOrder cell s).rgc = s.rgc ∧
    (startRollCallOrder cell s).stc = s.stc ∧ (startRollCallOrder cell s).lmu = s.lmu ∧
    (startRollCallOrder cell s).pru = s.pru ∧ (startRollCallOrder cell s).draws = s.draws ∧
    (startRollCallOrder cell s).pending = s.pending := by simp [startRollCallOrder]

@[simp] theorem openRound_frame (s : State) :
    (openRound s).supply = s.supply ∧ (openRound s).resetLow = s.resetLow ∧
    (openRound s).clock = s.clock ∧ (openRound s).hostData = s.hostData ∧
    (openRound s).tripOut = s.tripOut ∧ (openRound s).cfl = s.cfl ∧ (openRound s).dmc = s.dmc ∧
    (openRound s).tqa = s.tqa ∧ (openRound s).tcu = s.tcu ∧ (openRound s).rgc = s.rgc ∧
    (openRound s).lmu = s.lmu ∧ (openRound s).draws = s.draws ∧ (openRound s).pending = s.pending := by simp [openRound, forUnits, forWheels]

@[simp] theorem endRound_frame (s : State) :
    (endRound s).supply = s.supply ∧ (endRound s).resetLow = s.resetLow ∧
    (endRound s).clock = s.clock ∧ (endRound s).xm = s.xm ∧ (endRound s).hostData = s.hostData ∧
    (endRound s).tripOut = s.tripOut ∧ (endRound s).atc = s.atc ∧ (endRound s).ore = s.ore ∧
    (endRound s).cfl = s.cfl ∧ (endRound s).dmc = s.dmc ∧ (endRound s).tqa = s.tqa ∧
    (endRound s).tcu = s.tcu ∧ (endRound s).rgc = s.rgc ∧ (endRound s).stc = s.stc ∧
    (endRound s).lmu = s.lmu ∧ (endRound s).pru = s.pru ∧ (endRound s).draws = s.draws ∧
    (endRound s).pending = s.pending := by
  simp only [endRound]
  (repeat' split) <;> simp

@[simp] theorem takeDueRound_frame (s : State) :
    (takeDueRound s).supply = s.supply ∧ (takeDueRound s).resetLow = s.resetLow ∧
    (takeDueRound s).clock = s.clock ∧ (takeDueRound s).hostData = s.hostData ∧
    (takeDueRound s).tripOut = s.tripOut ∧ (takeDueRound s).cfl = s.cfl ∧
    (takeDueRound s).dmc = s.dmc ∧ (takeDueRound s).tqa = s.tqa ∧ (takeDueRound s).tcu = s.tcu ∧
    (takeDueRound s).rgc = s.rgc ∧ (takeDueRound s).lmu = s.lmu ∧
    (takeDueRound s).draws = s.draws ∧ (takeDueRound s).pending = s.pending := by
  simp only [takeDueRound]
  (repeat' split) <;> simp

@[simp] theorem settleRound_frame (s : State) :
    (settleRound s).supply = s.supply ∧ (settleRound s).resetLow = s.resetLow ∧
    (settleRound s).clock = s.clock ∧ (settleRound s).hostData = s.hostData ∧
    (settleRound s).tripOut = s.tripOut ∧ (settleRound s).cfl = s.cfl ∧
    (settleRound s).dmc = s.dmc ∧ (settleRound s).tqa = s.tqa ∧ (settleRound s).tcu = s.tcu ∧
    (settleRound s).rgc = s.rgc ∧ (settleRound s).lmu = s.lmu ∧ (settleRound s).draws = s.draws ∧
    (settleRound s).pending = s.pending := by simp [settleRound]

@[simp] theorem roundStartSteps_frame (s : State) :
    (roundStartSteps s).supply = s.supply ∧ (roundStartSteps s).resetLow = s.resetLow ∧
    (roundStartSteps s).clock = s.clock ∧ (roundStartSteps s).hostData = s.hostData ∧
    (roundStartSteps s).tripOut = s.tripOut ∧ (roundStartSteps s).cfl = s.cfl ∧
    (roundStartSteps s).dmc = s.dmc ∧ (roundStartSteps s).tqa = s.tqa ∧
    (roundStartSteps s).tcu = s.tcu ∧ (roundStartSteps s).rgc = s.rgc ∧
    (roundStartSteps s).lmu = s.lmu ∧ (roundStartSteps s).draws = s.draws ∧
    (roundStartSteps s).pending = s.pending := by
  simp only [roundStartSteps]
  (repeat' split) <;> simp

@[simp] theorem beginRollCall_frame (s : State) :
    (beginRollCall s).supply = s.supply ∧ (beginRollCall s).resetLow = s.resetLow ∧
    (beginRollCall s).clock = s.clock ∧ (beginRollCall s).hostData = s.hostData ∧
    (beginRollCall s).tripOut = s.tripOut ∧ (beginRollCall s).cfl = s.cfl ∧
    (beginRollCall s).dmc = s.dmc ∧ (beginRollCall s).tqa = s.tqa ∧
    (beginRollCall s).tcu = s.tcu ∧ (beginRollCall s).rgc = s.rgc ∧
    (beginRollCall s).lmu = s.lmu ∧ (beginRollCall s).draws = s.draws ∧
    (beginRollCall s).pending = s.pending := by simp [beginRollCall, forUnits, forWheels]

@[simp] theorem takeRollCall_frame (s : State) :
    (takeRollCall s).supply = s.supply ∧ (takeRollCall s).resetLow = s.resetLow ∧
    (takeRollCall s).clock = s.clock ∧ (takeRollCall s).hostData = s.hostData ∧
    (takeRollCall s).tripOut = s.tripOut ∧ (takeRollCall s).cfl = s.cfl ∧
    (takeRollCall s).dmc = s.dmc ∧ (takeRollCall s).tqa = s.tqa ∧ (takeRollCall s).tcu = s.tcu ∧
    (takeRollCall s).rgc = s.rgc ∧ (takeRollCall s).lmu = s.lmu ∧
    (takeRollCall s).draws = s.draws ∧ (takeRollCall s).pending = s.pending := by 
  simp only [takeRollCall]
  (repeat' split) <;> simp

@[simp] theorem startRollCall_frame (s : State) :
    (startRollCall s).supply = s.supply ∧ (startRollCall s).resetLow = s.resetLow ∧
    (startRollCall s).clock = s.clock ∧ (startRollCall s).hostData = s.hostData ∧
    (startRollCall s).tripOut = s.tripOut ∧ (startRollCall s).cfl = s.cfl ∧
    (startRollCall s).dmc = s.dmc ∧ (startRollCall s).tqa = s.tqa ∧ (startRollCall s).tcu = s.tcu ∧
    (startRollCall s).rgc = s.rgc ∧ (startRollCall s).lmu = s.lmu ∧
    (startRollCall s).draws = s.draws ∧ (startRollCall s).pending = s.pending := by simp [startRollCall]

@[simp] theorem reportLossOf_frame (u : UnitId) (s : State) :
    (reportLossOf u s).supply = s.supply ∧ (reportLossOf u s).resetLow = s.resetLow ∧
    (reportLossOf u s).clock = s.clock ∧ (reportLossOf u s).hostData = s.hostData ∧
    (reportLossOf u s).tripOut = s.tripOut ∧ (reportLossOf u s).ore = s.ore ∧
    (reportLossOf u s).cfl = s.cfl ∧ (reportLossOf u s).wlc = s.wlc ∧
    (reportLossOf u s).dmc = s.dmc ∧ (reportLossOf u s).tqa = s.tqa ∧
    (reportLossOf u s).tcu = s.tcu ∧ (reportLossOf u s).rgc = s.rgc ∧
    (reportLossOf u s).stc = s.stc ∧ (reportLossOf u s).lmu = s.lmu ∧
    (reportLossOf u s).draws = s.draws ∧ (reportLossOf u s).pending = s.pending := by
  simp only [reportLossOf]
  (repeat' split) <;> simp

@[simp] theorem changeInRollCall_frame (u : UnitId) (r : UnitRec) (s : State) :
    (changeInRollCall u r s).supply = s.supply ∧ (changeInRollCall u r s).resetLow = s.resetLow ∧
    (changeInRollCall u r s).clock = s.clock ∧ (changeInRollCall u r s).hostData = s.hostData ∧
    (changeInRollCall u r s).tripOut = s.tripOut ∧ (changeInRollCall u r s).cfl = s.cfl ∧
    (changeInRollCall u r s).dmc = s.dmc ∧ (changeInRollCall u r s).tqa = s.tqa ∧
    (changeInRollCall u r s).tcu = s.tcu ∧ (changeInRollCall u r s).rgc = s.rgc ∧
    (changeInRollCall u r s).lmu = s.lmu ∧ (changeInRollCall u r s).draws = s.draws ∧
    (changeInRollCall u r s).pending = s.pending := by 
  simp only [changeInRollCall]
  (repeat' split) <;> simp

@[simp] theorem reportLosses_frame (s : State) :
    (reportLosses s).supply = s.supply ∧ (reportLosses s).resetLow = s.resetLow ∧
    (reportLosses s).clock = s.clock ∧ (reportLosses s).hostData = s.hostData ∧
    (reportLosses s).tripOut = s.tripOut ∧ (reportLosses s).ore = s.ore ∧
    (reportLosses s).cfl = s.cfl ∧ (reportLosses s).wlc = s.wlc ∧ (reportLosses s).dmc = s.dmc ∧
    (reportLosses s).tqa = s.tqa ∧ (reportLosses s).tcu = s.tcu ∧ (reportLosses s).rgc = s.rgc ∧
    (reportLosses s).stc = s.stc ∧ (reportLosses s).lmu = s.lmu ∧
    (reportLosses s).draws = s.draws ∧ (reportLosses s).pending = s.pending := by simp [reportLosses, forUnits, forWheels]

@[simp] theorem enterSettle_frame (s : State) :
    (enterSettle s).supply = s.supply ∧ (enterSettle s).resetLow = s.resetLow ∧
    (enterSettle s).clock = s.clock ∧ (enterSettle s).xm = s.xm ∧
    (enterSettle s).hostData = s.hostData ∧ (enterSettle s).tripOut = s.tripOut ∧
    (enterSettle s).atc = s.atc ∧ (enterSettle s).ore = s.ore ∧ (enterSettle s).wlc = s.wlc ∧
    (enterSettle s).dmc = s.dmc ∧ (enterSettle s).tqa = s.tqa ∧ (enterSettle s).tcu = s.tcu ∧
    (enterSettle s).rgc = s.rgc ∧ (enterSettle s).stc = s.stc ∧ (enterSettle s).lmu = s.lmu ∧
    (enterSettle s).pru = s.pru ∧ (enterSettle s).draws = s.draws ∧
    (enterSettle s).pending = s.pending := by simp [enterSettle]

@[simp] theorem endRollCall_frame (s : State) :
    (endRollCall s).supply = s.supply ∧ (endRollCall s).resetLow = s.resetLow ∧
    (endRollCall s).clock = s.clock ∧ (endRollCall s).hostData = s.hostData ∧
    (endRollCall s).tripOut = s.tripOut ∧ (endRollCall s).dmc = s.dmc ∧
    (endRollCall s).tqa = s.tqa ∧ (endRollCall s).tcu = s.tcu ∧ (endRollCall s).rgc = s.rgc ∧
    (endRollCall s).lmu = s.lmu ∧ (endRollCall s).draws = s.draws ∧
    (endRollCall s).pending = s.pending := by simp [endRollCall]

@[simp] theorem rollCallTry_frame (done : Bool) (s : State) :
    (rollCallTry done s).supply = s.supply ∧ (rollCallTry done s).resetLow = s.resetLow ∧
    (rollCallTry done s).clock = s.clock ∧ (rollCallTry done s).hostData = s.hostData ∧
    (rollCallTry done s).tripOut = s.tripOut ∧ (rollCallTry done s).dmc = s.dmc ∧
    (rollCallTry done s).tqa = s.tqa ∧ (rollCallTry done s).tcu = s.tcu ∧
    (rollCallTry done s).rgc = s.rgc ∧ (rollCallTry done s).lmu = s.lmu ∧
    (rollCallTry done s).draws = s.draws ∧ (rollCallTry done s).pending = s.pending := by
  simp only [rollCallTry]
  (repeat' split) <;> simp

@[simp] theorem findUnit_frame (u : UnitId) (bytes : List Byte) (s : State) :
    (findUnit u bytes s).supply = s.supply ∧ (findUnit u bytes s).resetLow = s.resetLow ∧
    (findUnit u bytes s).clock = s.clock ∧ (findUnit u bytes s).hostData = s.hostData ∧
    (findUnit u bytes s).tripOut = s.tripOut ∧ (findUnit u bytes s).cfl = s.cfl ∧
    (findUnit u bytes s).dmc = s.dmc ∧ (findUnit u bytes s).tqa = s.tqa ∧
    (findUnit u bytes s).tcu = s.tcu ∧ (findUnit u bytes s).rgc = s.rgc ∧
    (findUnit u bytes s).lmu = s.lmu ∧ (findUnit u bytes s).draws = s.draws ∧
    (findUnit u bytes s).pending = s.pending := by simp [findUnit]

@[simp] theorem acceptAnswer_frame (x : Exchange) (bytes : List Byte) (s : State) :
    (acceptAnswer x bytes s).supply = s.supply ∧ (acceptAnswer x bytes s).resetLow = s.resetLow ∧
    (acceptAnswer x bytes s).clock = s.clock ∧ (acceptAnswer x bytes s).hostData = s.hostData ∧
    (acceptAnswer x bytes s).tripOut = s.tripOut ∧ (acceptAnswer x bytes s).dmc = s.dmc ∧
    (acceptAnswer x bytes s).tqa = s.tqa ∧ (acceptAnswer x bytes s).tcu = s.tcu ∧
    (acceptAnswer x bytes s).rgc = s.rgc ∧ (acceptAnswer x bytes s).lmu = s.lmu ∧
    (acceptAnswer x bytes s).draws = s.draws ∧ (acceptAnswer x bytes s).pending = s.pending := by
  simp only [acceptAnswer]
  (repeat' split) <;> simp

@[simp] theorem missCommand_frame (u : UnitId) (s : State) :
    (missCommand u s).supply = s.supply ∧ (missCommand u s).resetLow = s.resetLow ∧
    (missCommand u s).clock = s.clock ∧ (missCommand u s).hostData = s.hostData ∧
    (missCommand u s).tripOut = s.tripOut ∧ (missCommand u s).cfl = s.cfl ∧
    (missCommand u s).dmc = s.dmc ∧ (missCommand u s).tqa = s.tqa ∧ (missCommand u s).tcu = s.tcu ∧
    (missCommand u s).rgc = s.rgc ∧ (missCommand u s).lmu = s.lmu ∧
    (missCommand u s).draws = s.draws ∧ (missCommand u s).pending = s.pending := by
  simp only [missCommand]
  (repeat' split) <;> simp

@[simp] theorem missExchange_frame (x : Exchange) (s : State) :
    (missExchange x s).supply = s.supply ∧ (missExchange x s).resetLow = s.resetLow ∧
    (missExchange x s).clock = s.clock ∧ (missExchange x s).hostData = s.hostData ∧
    (missExchange x s).tripOut = s.tripOut ∧ (missExchange x s).dmc = s.dmc ∧
    (missExchange x s).tqa = s.tqa ∧ (missExchange x s).tcu = s.tcu ∧
    (missExchange x s).rgc = s.rgc ∧ (missExchange x s).lmu = s.lmu ∧
    (missExchange x s).draws = s.draws ∧ (missExchange x s).pending = s.pending := by
  simp only [missExchange]
  (repeat' split) <;> simp

@[simp] theorem closeWindow_frame (s : State) :
    (closeWindow s).supply = s.supply ∧ (closeWindow s).resetLow = s.resetLow ∧
    (closeWindow s).clock = s.clock ∧ (closeWindow s).xm = s.xm ∧
    (closeWindow s).hostData = s.hostData ∧ (closeWindow s).tripOut = s.tripOut ∧
    (closeWindow s).atc = s.atc ∧ (closeWindow s).ore = s.ore ∧ (closeWindow s).cfl = s.cfl ∧
    (closeWindow s).dmc = s.dmc ∧ (closeWindow s).tqa = s.tqa ∧ (closeWindow s).tcu = s.tcu ∧
    (closeWindow s).rgc = s.rgc ∧ (closeWindow s).stc = s.stc ∧ (closeWindow s).lmu = s.lmu ∧
    (closeWindow s).pru = s.pru ∧ (closeWindow s).draws = s.draws ∧
    (closeWindow s).pending = s.pending := by simp [closeWindow]

@[simp] theorem countCorrupt_frame (u : UnitId) (s : State) :
    (countCorrupt u s).supply = s.supply ∧ (countCorrupt u s).resetLow = s.resetLow ∧
    (countCorrupt u s).clock = s.clock ∧ (countCorrupt u s).xm = s.xm ∧
    (countCorrupt u s).hostData = s.hostData ∧ (countCorrupt u s).tripOut = s.tripOut ∧
    (countCorrupt u s).atc = s.atc ∧ (countCorrupt u s).ore = s.ore ∧
    (countCorrupt u s).cfl = s.cfl ∧ (countCorrupt u s).dmc = s.dmc ∧
    (countCorrupt u s).tqa = s.tqa ∧ (countCorrupt u s).tcu = s.tcu ∧
    (countCorrupt u s).rgc = s.rgc ∧ (countCorrupt u s).stc = s.stc ∧
    (countCorrupt u s).lmu = s.lmu ∧ (countCorrupt u s).pru = s.pru ∧
    (countCorrupt u s).draws = s.draws ∧ (countCorrupt u s).pending = s.pending := by simp [countCorrupt]

@[simp] theorem transmit_frame (bytes : List Byte) (x : Exchange) (s : State) :
    (transmit bytes x s).supply = s.supply ∧ (transmit bytes x s).resetLow = s.resetLow ∧
    (transmit bytes x s).clock = s.clock ∧ (transmit bytes x s).xm = s.xm ∧
    (transmit bytes x s).hostData = s.hostData ∧ (transmit bytes x s).tripOut = s.tripOut ∧
    (transmit bytes x s).atc = s.atc ∧ (transmit bytes x s).ore = s.ore ∧
    (transmit bytes x s).cfl = s.cfl ∧ (transmit bytes x s).dmc = s.dmc ∧
    (transmit bytes x s).tqa = s.tqa ∧ (transmit bytes x s).tcu = s.tcu ∧
    (transmit bytes x s).rgc = s.rgc ∧ (transmit bytes x s).stc = s.stc ∧
    (transmit bytes x s).lmu = s.lmu ∧ (transmit bytes x s).pru = s.pru ∧
    (transmit bytes x s).draws = s.draws ∧ (transmit bytes x s).pending = s.pending := by simp [transmit]

@[simp] theorem passVisit_frame (s : State) :
    (passVisit s).supply = s.supply ∧ (passVisit s).resetLow = s.resetLow ∧
    (passVisit s).clock = s.clock ∧ (passVisit s).xm = s.xm ∧ (passVisit s).hostData = s.hostData ∧
    (passVisit s).tripOut = s.tripOut ∧ (passVisit s).atc = s.atc ∧ (passVisit s).ore = s.ore ∧
    (passVisit s).cfl = s.cfl ∧ (passVisit s).dmc = s.dmc ∧ (passVisit s).tqa = s.tqa ∧
    (passVisit s).tcu = s.tcu ∧ (passVisit s).rgc = s.rgc ∧ (passVisit s).stc = s.stc ∧
    (passVisit s).lmu = s.lmu ∧ (passVisit s).pru = s.pru ∧ (passVisit s).draws = s.draws ∧
    (passVisit s).pending = s.pending := by simp [passVisit]

@[simp] theorem countTry_frame (s : State) :
    (countTry s).supply = s.supply ∧ (countTry s).resetLow = s.resetLow ∧
    (countTry s).clock = s.clock ∧ (countTry s).xm = s.xm ∧ (countTry s).hostData = s.hostData ∧
    (countTry s).tripOut = s.tripOut ∧ (countTry s).atc = s.atc ∧ (countTry s).ore = s.ore ∧
    (countTry s).cfl = s.cfl ∧ (countTry s).dmc = s.dmc ∧ (countTry s).tqa = s.tqa ∧
    (countTry s).tcu = s.tcu ∧ (countTry s).rgc = s.rgc ∧ (countTry s).stc = s.stc ∧
    (countTry s).lmu = s.lmu ∧ (countTry s).pru = s.pru ∧ (countTry s).draws = s.draws ∧
    (countTry s).pending = s.pending := by
  simp only [countTry]
  (repeat' split) <;> simp

@[simp] theorem sendRoll_frame (u : UnitId) (p : Purpose) (s : State) :
    (sendRoll u p s).supply = s.supply ∧ (sendRoll u p s).resetLow = s.resetLow ∧
    (sendRoll u p s).clock = s.clock ∧ (sendRoll u p s).xm = s.xm ∧
    (sendRoll u p s).hostData = s.hostData ∧ (sendRoll u p s).tripOut = s.tripOut ∧
    (sendRoll u p s).atc = s.atc ∧ (sendRoll u p s).ore = s.ore ∧ (sendRoll u p s).cfl = s.cfl ∧
    (sendRoll u p s).dmc = s.dmc ∧ (sendRoll u p s).tqa = s.tqa ∧ (sendRoll u p s).tcu = s.tcu ∧
    (sendRoll u p s).rgc = s.rgc ∧ (sendRoll u p s).stc = s.stc ∧ (sendRoll u p s).lmu = s.lmu ∧
    (sendRoll u p s).pru = s.pru ∧ (sendRoll u p s).draws = s.draws ∧
    (sendRoll u p s).pending = s.pending := by
  simp only [sendRoll]
  (repeat' split) <;> simp

@[simp] theorem sendDrive_frame (w : Wheel) (s : State) :
    (sendDrive w s).supply = s.supply ∧ (sendDrive w s).resetLow = s.resetLow ∧
    (sendDrive w s).clock = s.clock ∧ (sendDrive w s).xm = s.xm ∧
    (sendDrive w s).hostData = s.hostData ∧ (sendDrive w s).tripOut = s.tripOut ∧
    (sendDrive w s).atc = s.atc ∧ (sendDrive w s).ore = s.ore ∧ (sendDrive w s).cfl = s.cfl ∧
    (sendDrive w s).dmc = s.dmc ∧ (sendDrive w s).tqa = s.tqa ∧ (sendDrive w s).tcu = s.tcu ∧
    (sendDrive w s).rgc = s.rgc ∧ (sendDrive w s).stc = s.stc ∧ (sendDrive w s).lmu = s.lmu ∧
    (sendDrive w s).pru = s.pru ∧ (sendDrive w s).draws = s.draws ∧
    (sendDrive w s).pending = s.pending := by simp [sendDrive]

@[simp] theorem sendSteer_frame (s : State) :
    (sendSteer s).supply = s.supply ∧ (sendSteer s).resetLow = s.resetLow ∧
    (sendSteer s).clock = s.clock ∧ (sendSteer s).hostData = s.hostData ∧
    (sendSteer s).tripOut = s.tripOut ∧ (sendSteer s).cfl = s.cfl ∧ (sendSteer s).dmc = s.dmc ∧
    (sendSteer s).tqa = s.tqa ∧ (sendSteer s).tcu = s.tcu ∧ (sendSteer s).rgc = s.rgc ∧
    (sendSteer s).lmu = s.lmu ∧ (sendSteer s).pru = s.pru ∧ (sendSteer s).draws = s.draws ∧
    (sendSteer s).pending = s.pending := by simp [sendSteer]

@[simp] theorem requestQuiet_frame (s : State) :
    (requestQuiet s).supply = s.supply ∧ (requestQuiet s).resetLow = s.resetLow ∧
    (requestQuiet s).clock = s.clock ∧ (requestQuiet s).xm = s.xm ∧
    (requestQuiet s).hostData = s.hostData ∧ (requestQuiet s).tripOut = s.tripOut ∧
    (requestQuiet s).atc = s.atc ∧ (requestQuiet s).ore = s.ore ∧ (requestQuiet s).cfl = s.cfl ∧
    (requestQuiet s).dmc = s.dmc ∧ (requestQuiet s).tqa = s.tqa ∧ (requestQuiet s).tcu = s.tcu ∧
    (requestQuiet s).rgc = s.rgc ∧ (requestQuiet s).stc = s.stc ∧ (requestQuiet s).lmu = s.lmu ∧
    (requestQuiet s).pru = s.pru ∧ (requestQuiet s).draws = s.draws ∧
    (requestQuiet s).pending = s.pending := by simp [requestQuiet, forWheels]

@[simp] theorem sendQuiet_frame (s : State) :
    (sendQuiet s).supply = s.supply ∧ (sendQuiet s).resetLow = s.resetLow ∧
    (sendQuiet s).clock = s.clock ∧ (sendQuiet s).xm = s.xm ∧ (sendQuiet s).hostData = s.hostData ∧
    (sendQuiet s).tripOut = s.tripOut ∧ (sendQuiet s).atc = s.atc ∧ (sendQuiet s).ore = s.ore ∧
    (sendQuiet s).cfl = s.cfl ∧ (sendQuiet s).dmc = s.dmc ∧ (sendQuiet s).tqa = s.tqa ∧
    (sendQuiet s).tcu = s.tcu ∧ (sendQuiet s).rgc = s.rgc ∧ (sendQuiet s).stc = s.stc ∧
    (sendQuiet s).lmu = s.lmu ∧ (sendQuiet s).pru = s.pru ∧ (sendQuiet s).draws = s.draws ∧
    (sendQuiet s).pending = s.pending := by simp [sendQuiet]

@[simp] theorem wlcModeChange_frame (s : State) :
    (wlcModeChange s).supply = s.supply ∧ (wlcModeChange s).resetLow = s.resetLow ∧
    (wlcModeChange s).clock = s.clock ∧ (wlcModeChange s).hostData = s.hostData ∧
    (wlcModeChange s).tripOut = s.tripOut ∧ (wlcModeChange s).cfl = s.cfl ∧
    (wlcModeChange s).dmc = s.dmc ∧ (wlcModeChange s).tqa = s.tqa ∧ (wlcModeChange s).tcu = s.tcu ∧
    (wlcModeChange s).rgc = s.rgc ∧ (wlcModeChange s).stc = s.stc ∧ (wlcModeChange s).lmu = s.lmu ∧
    (wlcModeChange s).pru = s.pru ∧ (wlcModeChange s).draws = s.draws ∧
    (wlcModeChange s).pending = s.pending := by
  simp only [wlcModeChange]
  (repeat' split) <;> simp

@[simp] theorem showResult_frame (r : Check × Nat) (s : State) :
    (showResult r s).supply = s.supply ∧ (showResult r s).resetLow = s.resetLow ∧
    (showResult r s).clock = s.clock ∧ (showResult r s).hostData = s.hostData ∧
    (showResult r s).tripOut = s.tripOut ∧ (showResult r s).ore = s.ore ∧
    (showResult r s).cfl = s.cfl ∧ (showResult r s).wlc = s.wlc ∧ (showResult r s).dmc = s.dmc ∧
    (showResult r s).tqa = s.tqa ∧ (showResult r s).tcu = s.tcu ∧ (showResult r s).rgc = s.rgc ∧
    (showResult r s).stc = s.stc ∧ (showResult r s).lmu = s.lmu ∧ (showResult r s).pru = s.pru ∧
    (showResult r s).draws = s.draws ∧ (showResult r s).pending = s.pending := by simp [showResult]

@[simp] theorem activate_frame (p : Params) (s : State) :
    (activate p s).supply = s.supply ∧ (activate p s).resetLow = s.resetLow ∧
    (activate p s).clock = s.clock ∧ (activate p s).xm = s.xm ∧
    (activate p s).hostData = s.hostData ∧ (activate p s).tripOut = s.tripOut ∧
    (activate p s).atc = s.atc ∧ (activate p s).ore = s.ore ∧ (activate p s).wlc = s.wlc ∧
    (activate p s).dmc = s.dmc ∧ (activate p s).tqa = s.tqa ∧ (activate p s).tcu = s.tcu ∧
    (activate p s).rgc = s.rgc ∧ (activate p s).stc = s.stc ∧ (activate p s).lmu = s.lmu ∧
    (activate p s).pru = s.pru ∧ (activate p s).draws = s.draws ∧
    (activate p s).pending = s.pending := by simp [activate]

@[simp] theorem changeStopModeFrom_frame (old : Nat) (s : State) :
    (changeStopModeFrom old s).supply = s.supply ∧
    (changeStopModeFrom old s).resetLow = s.resetLow ∧ (changeStopModeFrom old s).clock = s.clock ∧
    (changeStopModeFrom old s).hostData = s.hostData ∧
    (changeStopModeFrom old s).tripOut = s.tripOut ∧ (changeStopModeFrom old s).atc = s.atc ∧
    (changeStopModeFrom old s).ore = s.ore ∧ (changeStopModeFrom old s).cfl = s.cfl ∧
    (changeStopModeFrom old s).wlc = s.wlc ∧ (changeStopModeFrom old s).dmc = s.dmc ∧
    (changeStopModeFrom old s).tqa = s.tqa ∧ (changeStopModeFrom old s).tcu = s.tcu ∧
    (changeStopModeFrom old s).rgc = s.rgc ∧ (changeStopModeFrom old s).stc = s.stc ∧
    (changeStopModeFrom old s).lmu = s.lmu ∧ (changeStopModeFrom old s).draws = s.draws ∧
    (changeStopModeFrom old s).pending = s.pending := by
  simp only [changeStopModeFrom]
  (repeat' split) <;> simp

@[simp] theorem acceptConfig_frame (p : Params) (s : State) :
    (acceptConfig p s).supply = s.supply ∧ (acceptConfig p s).resetLow = s.resetLow ∧
    (acceptConfig p s).clock = s.clock ∧ (acceptConfig p s).hostData = s.hostData ∧
    (acceptConfig p s).tripOut = s.tripOut ∧ (acceptConfig p s).ore = s.ore ∧
    (acceptConfig p s).wlc = s.wlc ∧ (acceptConfig p s).dmc = s.dmc ∧
    (acceptConfig p s).tcu = s.tcu ∧ (acceptConfig p s).stc = s.stc ∧
    (acceptConfig p s).pending = s.pending := by simp [acceptConfig, runAll]

@[simp] theorem enterEnroll_frame (s : State) :
    (enterEnroll s).supply = s.supply ∧ (enterEnroll s).resetLow = s.resetLow ∧
    (enterEnroll s).clock = s.clock ∧ (enterEnroll s).hostData = s.hostData ∧
    (enterEnroll s).tripOut = s.tripOut ∧ (enterEnroll s).dmc = s.dmc ∧
    (enterEnroll s).tqa = s.tqa ∧ (enterEnroll s).tcu = s.tcu ∧ (enterEnroll s).rgc = s.rgc ∧
    (enterEnroll s).lmu = s.lmu ∧ (enterEnroll s).draws = s.draws ∧
    (enterEnroll s).pending = s.pending := by simp [enterEnroll]

@[simp] theorem validateInLoad_frame (s : State) :
    (validateInLoad s).supply = s.supply ∧ (validateInLoad s).resetLow = s.resetLow ∧
    (validateInLoad s).clock = s.clock ∧ (validateInLoad s).hostData = s.hostData ∧
    (validateInLoad s).tripOut = s.tripOut ∧ (validateInLoad s).dmc = s.dmc ∧
    (validateInLoad s).tcu = s.tcu ∧ (validateInLoad s).pending = s.pending := by
  simp only [validateInLoad]
  (repeat' split) <;> simp

@[simp] theorem readyMark_frame (value : Word) (s : State) :
    (readyMark value s).supply = s.supply ∧ (readyMark value s).resetLow = s.resetLow ∧
    (readyMark value s).clock = s.clock ∧ (readyMark value s).hostData = s.hostData ∧
    (readyMark value s).tripOut = s.tripOut ∧ (readyMark value s).dmc = s.dmc ∧
    (readyMark value s).tcu = s.tcu ∧ (readyMark value s).pending = s.pending := by
  simp only [readyMark]
  (repeat' split) <;> simp

@[simp] theorem enterLoad_frame (s : State) :
    (enterLoad s).supply = s.supply ∧ (enterLoad s).resetLow = s.resetLow ∧
    (enterLoad s).clock = s.clock ∧ (enterLoad s).hostData = s.hostData ∧
    (enterLoad s).tripOut = s.tripOut ∧ (enterLoad s).dmc = s.dmc ∧ (enterLoad s).tcu = s.tcu ∧
    (enterLoad s).pending = s.pending := by
  simp only [enterLoad]
  (repeat' split) <;> simp

@[simp] theorem upsetCopy_frame (copy : GuardedWord) (value : Word) (s : State) :
    (upsetCopy copy value s).supply = s.supply ∧ (upsetCopy copy value s).resetLow = s.resetLow ∧
    (upsetCopy copy value s).clock = s.clock ∧ (upsetCopy copy value s).xm = s.xm ∧
    (upsetCopy copy value s).hostData = s.hostData ∧ (upsetCopy copy value s).tripOut = s.tripOut ∧
    (upsetCopy copy value s).atc = s.atc ∧ (upsetCopy copy value s).ore = s.ore ∧
    (upsetCopy copy value s).wlc = s.wlc ∧ (upsetCopy copy value s).dmc = s.dmc ∧
    (upsetCopy copy value s).tqa = s.tqa ∧ (upsetCopy copy value s).tcu = s.tcu ∧
    (upsetCopy copy value s).rgc = s.rgc ∧ (upsetCopy copy value s).stc = s.stc ∧
    (upsetCopy copy value s).lmu = s.lmu ∧ (upsetCopy copy value s).pru = s.pru ∧
    (upsetCopy copy value s).draws = s.draws ∧ (upsetCopy copy value s).pending = s.pending := by
  simp only [upsetCopy]
  (repeat' split) <;> simp

@[simp] theorem markReEnrol_frame (b : Bool) (s : State) :
    (markReEnrol b s).supply = s.supply ∧ (markReEnrol b s).resetLow = s.resetLow ∧
    (markReEnrol b s).clock = s.clock ∧ (markReEnrol b s).xm = s.xm ∧
    (markReEnrol b s).hostData = s.hostData ∧ (markReEnrol b s).tripOut = s.tripOut ∧
    (markReEnrol b s).atc = s.atc ∧ (markReEnrol b s).ore = s.ore ∧ (markReEnrol b s).wlc = s.wlc ∧
    (markReEnrol b s).dmc = s.dmc ∧ (markReEnrol b s).tqa = s.tqa ∧ (markReEnrol b s).tcu = s.tcu ∧
    (markReEnrol b s).rgc = s.rgc ∧ (markReEnrol b s).stc = s.stc ∧ (markReEnrol b s).lmu = s.lmu ∧
    (markReEnrol b s).pru = s.pru ∧ (markReEnrol b s).draws = s.draws ∧
    (markReEnrol b s).pending = s.pending := by simp [markReEnrol]

end Sys2Proof.Machine
end

