-- ==== Sys2Proof/Laws/FramesMode.lean ====
section
/-! SUPPORT. The frames of the operations of the drive modes and the delivery of the fault table: what each one leaves. -/

namespace Sys2Proof.Machine

@[simp] theorem putDmcSection_frame (s : State) :
    (putDmcSection s).supply = s.supply ∧ (putDmcSection s).resetLow = s.resetLow ∧
    (putDmcSection s).clock = s.clock ∧ (putDmcSection s).hostData = s.hostData ∧
    (putDmcSection s).tripOut = s.tripOut ∧ (putDmcSection s).atc = s.atc ∧
    (putDmcSection s).ore = s.ore ∧ (putDmcSection s).cfl = s.cfl ∧ (putDmcSection s).wlc = s.wlc ∧
    (putDmcSection s).dmc = s.dmc ∧ (putDmcSection s).tqa = s.tqa ∧ (putDmcSection s).tcu = s.tcu ∧
    (putDmcSection s).rgc = s.rgc ∧ (putDmcSection s).stc = s.stc ∧ (putDmcSection s).lmu = s.lmu ∧
    (putDmcSection s).pru = s.pru ∧ (putDmcSection s).draws = s.draws ∧
    (putDmcSection s).pending = s.pending := by simp [putDmcSection]

@[simp] theorem announceSubstate_frame (s : State) :
    (announceSubstate s).supply = s.supply ∧ (announceSubstate s).resetLow = s.resetLow ∧
    (announceSubstate s).clock = s.clock ∧ (announceSubstate s).hostData = s.hostData ∧
    (announceSubstate s).tripOut = s.tripOut ∧ (announceSubstate s).ore = s.ore ∧
    (announceSubstate s).cfl = s.cfl ∧ (announceSubstate s).wlc = s.wlc ∧
    (announceSubstate s).dmc = s.dmc ∧ (announceSubstate s).tqa = s.tqa ∧
    (announceSubstate s).pru = s.pru ∧ (announceSubstate s).draws = s.draws ∧
    (announceSubstate s).pending = s.pending := by simp [announceSubstate, runAll]

@[simp] theorem setSubstate_frame (sub : Substate) (t : Target) (s : State) :
    (setSubstate sub t s).supply = s.supply ∧ (setSubstate sub t s).resetLow = s.resetLow ∧
    (setSubstate sub t s).clock = s.clock ∧ (setSubstate sub t s).hostData = s.hostData ∧
    (setSubstate sub t s).tripOut = s.tripOut ∧ (setSubstate sub t s).ore = s.ore ∧
    (setSubstate sub t s).cfl = s.cfl ∧ (setSubstate sub t s).wlc = s.wlc ∧
    (setSubstate sub t s).tqa = s.tqa ∧ (setSubstate sub t s).pru = s.pru ∧
    (setSubstate sub t s).draws = s.draws ∧ (setSubstate sub t s).pending = s.pending := by
  simp only [setSubstate]
  (repeat' split) <;> simp

@[simp] theorem formDemands_frame (s : State) :
    (formDemands s).supply = s.supply ∧ (formDemands s).resetLow = s.resetLow ∧
    (formDemands s).clock = s.clock ∧ (formDemands s).xm = s.xm ∧
    (formDemands s).hostData = s.hostData ∧ (formDemands s).tripOut = s.tripOut ∧
    (formDemands s).atc = s.atc ∧ (formDemands s).ore = s.ore ∧ (formDemands s).cfl = s.cfl ∧
    (formDemands s).wlc = s.wlc ∧ (formDemands s).tqa = s.tqa ∧ (formDemands s).tcu = s.tcu ∧
    (formDemands s).rgc = s.rgc ∧ (formDemands s).stc = s.stc ∧ (formDemands s).lmu = s.lmu ∧
    (formDemands s).pru = s.pru ∧ (formDemands s).draws = s.draws ∧
    (formDemands s).pending = s.pending := by
  simp only [formDemands]
  (repeat' split) <;> simp

@[simp] theorem endChangeover_frame (s : State) :
    (endChangeover s).supply = s.supply ∧ (endChangeover s).resetLow = s.resetLow ∧
    (endChangeover s).clock = s.clock ∧ (endChangeover s).hostData = s.hostData ∧
    (endChangeover s).tripOut = s.tripOut ∧ (endChangeover s).ore = s.ore ∧
    (endChangeover s).cfl = s.cfl ∧ (endChangeover s).wlc = s.wlc ∧ (endChangeover s).tqa = s.tqa ∧
    (endChangeover s).pru = s.pru ∧ (endChangeover s).draws = s.draws ∧
    (endChangeover s).pending = s.pending := by
  simp only [endChangeover]
  (repeat' split) <;> simp

@[simp] theorem formAndMove_frame (s : State) :
    (formAndMove s).supply = s.supply ∧ (formAndMove s).resetLow = s.resetLow ∧
    (formAndMove s).clock = s.clock ∧ (formAndMove s).hostData = s.hostData ∧
    (formAndMove s).tripOut = s.tripOut ∧ (formAndMove s).ore = s.ore ∧
    (formAndMove s).cfl = s.cfl ∧ (formAndMove s).wlc = s.wlc ∧ (formAndMove s).tqa = s.tqa ∧
    (formAndMove s).pru = s.pru ∧ (formAndMove s).draws = s.draws ∧
    (formAndMove s).pending = s.pending := by simp [formAndMove]

@[simp] theorem changeMode_frame (m : Mode) (f : Dmc → Dmc) (s : State) :
    (changeMode m f s).supply = s.supply ∧ (changeMode m f s).resetLow = s.resetLow ∧
    (changeMode m f s).clock = s.clock ∧ (changeMode m f s).hostData = s.hostData ∧
    (changeMode m f s).cfl = s.cfl ∧ (changeMode m f s).tqa = s.tqa ∧
    (changeMode m f s).pru = s.pru ∧ (changeMode m f s).pending = s.pending := by
  simp only [changeMode, runAll]
  (repeat' split) <;> simp

@[simp] theorem enterTripped_frame (s : State) :
    (enterTripped s).supply = s.supply ∧ (enterTripped s).resetLow = s.resetLow ∧
    (enterTripped s).clock = s.clock ∧ (enterTripped s).hostData = s.hostData ∧
    (enterTripped s).cfl = s.cfl ∧ (enterTripped s).tqa = s.tqa ∧ (enterTripped s).pru = s.pru ∧
    (enterTripped s).pending = s.pending := by simp [enterTripped]

@[simp] theorem enterSafeStop_frame (s : State) :
    (enterSafeStop s).supply = s.supply ∧ (enterSafeStop s).resetLow = s.resetLow ∧
    (enterSafeStop s).clock = s.clock ∧ (enterSafeStop s).hostData = s.hostData ∧
    (enterSafeStop s).cfl = s.cfl ∧ (enterSafeStop s).tqa = s.tqa ∧ (enterSafeStop s).pru = s.pru ∧
    (enterSafeStop s).pending = s.pending := by simp [enterSafeStop]

@[simp] theorem enterReady_frame (s : State) :
    (enterReady s).supply = s.supply ∧ (enterReady s).resetLow = s.resetLow ∧
    (enterReady s).clock = s.clock ∧ (enterReady s).hostData = s.hostData ∧
    (enterReady s).cfl = s.cfl ∧ (enterReady s).tqa = s.tqa ∧ (enterReady s).pru = s.pru ∧
    (enterReady s).pending = s.pending := by
  simp only [enterReady]
  (repeat' split) <;> simp

@[simp] theorem driveToReady_frame (s : State) :
    (driveToReady s).supply = s.supply ∧ (driveToReady s).resetLow = s.resetLow ∧
    (driveToReady s).clock = s.clock ∧ (driveToReady s).hostData = s.hostData ∧
    (driveToReady s).cfl = s.cfl ∧ (driveToReady s).tqa = s.tqa ∧ (driveToReady s).pru = s.pru ∧
    (driveToReady s).pending = s.pending := by
  simp only [driveToReady]
  (repeat' split) <;> simp

@[simp] theorem standbyToStarting_frame (s : State) :
    (standbyToStarting s).supply = s.supply ∧ (standbyToStarting s).resetLow = s.resetLow ∧
    (standbyToStarting s).clock = s.clock ∧ (standbyToStarting s).hostData = s.hostData ∧
    (standbyToStarting s).tqa = s.tqa ∧ (standbyToStarting s).pending = s.pending := by simp [standbyToStarting]

@[simp] theorem leaveStandbySteps_frame (s : State) :
    (leaveStandbySteps s).supply = s.supply ∧ (leaveStandbySteps s).resetLow = s.resetLow ∧
    (leaveStandbySteps s).clock = s.clock ∧ (leaveStandbySteps s).hostData = s.hostData ∧
    (leaveStandbySteps s).tqa = s.tqa ∧ (leaveStandbySteps s).pending = s.pending := by
  simp only [leaveStandbySteps]
  (repeat' split) <;> simp

@[simp] theorem enterStandbySteps_frame (v : Variant) (s : State) :
    (enterStandbySteps v s).supply = s.supply ∧ (enterStandbySteps v s).resetLow = s.resetLow ∧
    (enterStandbySteps v s).clock = s.clock ∧ (enterStandbySteps v s).hostData = s.hostData ∧
    (enterStandbySteps v s).cfl = s.cfl ∧ (enterStandbySteps v s).tqa = s.tqa ∧
    (enterStandbySteps v s).pending = s.pending := by simp [enterStandbySteps]

@[simp] theorem severityChange_frame (s : State) :
    (severityChange s).supply = s.supply ∧ (severityChange s).resetLow = s.resetLow ∧
    (severityChange s).clock = s.clock ∧ (severityChange s).hostData = s.hostData ∧
    (severityChange s).tqa = s.tqa ∧ (severityChange s).pending = s.pending := by
  simp only [severityChange]
  (repeat' split) <;> simp

@[simp] theorem endSettle_frame (s : State) :
    (endSettle s).supply = s.supply ∧ (endSettle s).resetLow = s.resetLow ∧
    (endSettle s).clock = s.clock ∧ (endSettle s).hostData = s.hostData ∧
    (endSettle s).tqa = s.tqa ∧ (endSettle s).pru = s.pru ∧ (endSettle s).pending = s.pending := by
  simp only [endSettle]
  (repeat' split) <;> simp

@[simp] theorem testSettle_frame (s : State) :
    (testSettle s).supply = s.supply ∧ (testSettle s).resetLow = s.resetLow ∧
    (testSettle s).clock = s.clock ∧ (testSettle s).hostData = s.hostData ∧
    (testSettle s).tqa = s.tqa ∧ (testSettle s).pru = s.pru ∧ (testSettle s).pending = s.pending := by
  simp only [testSettle]
  (repeat' split) <;> simp

@[simp] theorem acceptPage_frame (base : Nat) (p : Page) (s : State) :
    (acceptPage base p s).supply = s.supply ∧ (acceptPage base p s).resetLow = s.resetLow ∧
    (acceptPage base p s).clock = s.clock ∧ (acceptPage base p s).hostData = s.hostData ∧
    (acceptPage base p s).tripOut = s.tripOut ∧ (acceptPage base p s).ore = s.ore ∧
    (acceptPage base p s).cfl = s.cfl ∧ (acceptPage base p s).wlc = s.wlc ∧
    (acceptPage base p s).tqa = s.tqa ∧ (acceptPage base p s).rgc = s.rgc ∧
    (acceptPage base p s).stc = s.stc ∧ (acceptPage base p s).pru = s.pru ∧
    (acceptPage base p s).draws = s.draws ∧ (acceptPage base p s).pending = s.pending := by
  simp only [acceptPage]
  (repeat' split) <;> simp

@[simp] theorem takePage_frame (s : State) :
    (takePage s).supply = s.supply ∧ (takePage s).resetLow = s.resetLow ∧
    (takePage s).clock = s.clock ∧ (takePage s).hostData = s.hostData ∧
    (takePage s).tripOut = s.tripOut ∧ (takePage s).ore = s.ore ∧ (takePage s).cfl = s.cfl ∧
    (takePage s).wlc = s.wlc ∧ (takePage s).tqa = s.tqa ∧ (takePage s).rgc = s.rgc ∧
    (takePage s).stc = s.stc ∧ (takePage s).pru = s.pru ∧ (takePage s).draws = s.draws ∧
    (takePage s).pending = s.pending := by
  simp only [takePage]
  (repeat' split) <;> simp

@[simp] theorem updateFreshness_frame (s : State) :
    (updateFreshness s).supply = s.supply ∧ (updateFreshness s).resetLow = s.resetLow ∧
    (updateFreshness s).clock = s.clock ∧ (updateFreshness s).hostData = s.hostData ∧
    (updateFreshness s).tripOut = s.tripOut ∧ (updateFreshness s).ore = s.ore ∧
    (updateFreshness s).cfl = s.cfl ∧ (updateFreshness s).wlc = s.wlc ∧
    (updateFreshness s).tqa = s.tqa ∧ (updateFreshness s).tcu = s.tcu ∧
    (updateFreshness s).rgc = s.rgc ∧ (updateFreshness s).stc = s.stc ∧
    (updateFreshness s).lmu = s.lmu ∧ (updateFreshness s).draws = s.draws ∧
    (updateFreshness s).pending = s.pending := by
  simp only [updateFreshness]
  (repeat' split) <;> simp

@[simp] theorem wake_frame (accepted : Bool) (s : State) :
    (wake accepted s).supply = s.supply ∧ (wake accepted s).resetLow = s.resetLow ∧
    (wake accepted s).clock = s.clock ∧ (wake accepted s).hostData = s.hostData ∧
    (wake accepted s).tqa = s.tqa ∧ (wake accepted s).pending = s.pending := by
  simp only [wake]
  (repeat' split) <;> simp

@[simp] theorem returnCheck_frame (s : State) :
    (returnCheck s).supply = s.supply ∧ (returnCheck s).resetLow = s.resetLow ∧
    (returnCheck s).clock = s.clock ∧ (returnCheck s).hostData = s.hostData ∧
    (returnCheck s).cfl = s.cfl ∧ (returnCheck s).tqa = s.tqa ∧ (returnCheck s).pru = s.pru ∧
    (returnCheck s).pending = s.pending := by
  simp only [returnCheck]
  (repeat' split) <;> simp

@[simp] theorem finishStop_frame (s : State) :
    (finishStop s).supply = s.supply ∧ (finishStop s).resetLow = s.resetLow ∧
    (finishStop s).clock = s.clock ∧ (finishStop s).hostData = s.hostData ∧
    (finishStop s).cfl = s.cfl ∧ (finishStop s).tqa = s.tqa ∧ (finishStop s).pru = s.pru ∧
    (finishStop s).pending = s.pending := by simp [finishStop]

@[simp] theorem countStop_frame (s : State) :
    (countStop s).supply = s.supply ∧ (countStop s).resetLow = s.resetLow ∧
    (countStop s).clock = s.clock ∧ (countStop s).hostData = s.hostData ∧
    (countStop s).cfl = s.cfl ∧ (countStop s).tqa = s.tqa ∧ (countStop s).pru = s.pru ∧
    (countStop s).pending = s.pending := by
  simp only [countStop]
  (repeat' split) <;> simp

@[simp] theorem enterDriveCheck_frame (s : State) :
    (enterDriveCheck s).supply = s.supply ∧ (enterDriveCheck s).resetLow = s.resetLow ∧
    (enterDriveCheck s).clock = s.clock ∧ (enterDriveCheck s).hostData = s.hostData ∧
    (enterDriveCheck s).cfl = s.cfl ∧ (enterDriveCheck s).tqa = s.tqa ∧
    (enterDriveCheck s).pru = s.pru ∧ (enterDriveCheck s).pending = s.pending := by
  simp only [enterDriveCheck]
  (repeat' split) <;> simp

@[simp] theorem modeChecks_frame (s : State) :
    (modeChecks s).supply = s.supply ∧ (modeChecks s).resetLow = s.resetLow ∧
    (modeChecks s).clock = s.clock ∧ (modeChecks s).hostData = s.hostData ∧
    (modeChecks s).cfl = s.cfl ∧ (modeChecks s).tqa = s.tqa ∧ (modeChecks s).pru = s.pru ∧
    (modeChecks s).pending = s.pending := by
  simp only [modeChecks]
  (repeat' split) <;> simp

@[simp] theorem adoptDirection_frame (d : Direction) (s : State) :
    (adoptDirection d s).supply = s.supply ∧ (adoptDirection d s).resetLow = s.resetLow ∧
    (adoptDirection d s).clock = s.clock ∧ (adoptDirection d s).hostData = s.hostData ∧
    (adoptDirection d s).tripOut = s.tripOut ∧ (adoptDirection d s).ore = s.ore ∧
    (adoptDirection d s).cfl = s.cfl ∧ (adoptDirection d s).wlc = s.wlc ∧
    (adoptDirection d s).tqa = s.tqa ∧ (adoptDirection d s).pru = s.pru ∧
    (adoptDirection d s).draws = s.draws ∧ (adoptDirection d s).pending = s.pending := by
  simp only [adoptDirection]
  (repeat' split) <;> simp

@[simp] theorem directionCheck_frame (s : State) :
    (directionCheck s).supply = s.supply ∧ (directionCheck s).resetLow = s.resetLow ∧
    (directionCheck s).clock = s.clock ∧ (directionCheck s).hostData = s.hostData ∧
    (directionCheck s).cfl = s.cfl ∧ (directionCheck s).tqa = s.tqa ∧
    (directionCheck s).pru = s.pru ∧ (directionCheck s).pending = s.pending := by
  simp only [directionCheck]
  (repeat' split) <;> simp

@[simp] theorem demandStep_frame (s : State) :
    (demandStep s).supply = s.supply ∧ (demandStep s).resetLow = s.resetLow ∧
    (demandStep s).clock = s.clock ∧ (demandStep s).hostData = s.hostData ∧
    (demandStep s).tripOut = s.tripOut ∧ (demandStep s).ore = s.ore ∧ (demandStep s).cfl = s.cfl ∧
    (demandStep s).wlc = s.wlc ∧ (demandStep s).tqa = s.tqa ∧ (demandStep s).pru = s.pru ∧
    (demandStep s).draws = s.draws ∧ (demandStep s).pending = s.pending := by
  simp only [demandStep]
  (repeat' split) <;> simp

@[simp] theorem takeDemandPeriod_frame (s : State) :
    (takeDemandPeriod s).supply = s.supply ∧ (takeDemandPeriod s).resetLow = s.resetLow ∧
    (takeDemandPeriod s).clock = s.clock ∧ (takeDemandPeriod s).xm = s.xm ∧
    (takeDemandPeriod s).hostData = s.hostData ∧ (takeDemandPeriod s).tripOut = s.tripOut ∧
    (takeDemandPeriod s).atc = s.atc ∧ (takeDemandPeriod s).ore = s.ore ∧
    (takeDemandPeriod s).cfl = s.cfl ∧ (takeDemandPeriod s).wlc = s.wlc ∧
    (takeDemandPeriod s).tqa = s.tqa ∧ (takeDemandPeriod s).tcu = s.tcu ∧
    (takeDemandPeriod s).rgc = s.rgc ∧ (takeDemandPeriod s).stc = s.stc ∧
    (takeDemandPeriod s).lmu = s.lmu ∧ (takeDemandPeriod s).pru = s.pru ∧
    (takeDemandPeriod s).draws = s.draws ∧ (takeDemandPeriod s).pending = s.pending := by simp [takeDemandPeriod]

@[simp] theorem demandSteps_frame (s : State) :
    (demandSteps s).supply = s.supply ∧ (demandSteps s).resetLow = s.resetLow ∧
    (demandSteps s).clock = s.clock ∧ (demandSteps s).hostData = s.hostData ∧
    (demandSteps s).tqa = s.tqa ∧ (demandSteps s).pending = s.pending := by simp [demandSteps, runAll]

@[simp] theorem clearCompletion_frame (s : State) :
    (clearCompletion s).supply = s.supply ∧ (clearCompletion s).resetLow = s.resetLow ∧
    (clearCompletion s).clock = s.clock ∧ (clearCompletion s).hostData = s.hostData ∧
    (clearCompletion s).cfl = s.cfl ∧ (clearCompletion s).tqa = s.tqa ∧
    (clearCompletion s).pru = s.pru ∧ (clearCompletion s).pending = s.pending := by
  simp only [clearCompletion]
  (repeat' split) <;> simp

@[simp] theorem deliverSets_frame (s : State) :
    (deliverSets s).supply = s.supply ∧ (deliverSets s).resetLow = s.resetLow ∧
    (deliverSets s).clock = s.clock ∧ (deliverSets s).hostData = s.hostData ∧
    (deliverSets s).tripOut = s.tripOut ∧ (deliverSets s).cfl = s.cfl ∧
    (deliverSets s).wlc = s.wlc ∧ (deliverSets s).dmc = s.dmc ∧ (deliverSets s).tqa = s.tqa ∧
    (deliverSets s).stc = s.stc ∧ (deliverSets s).lmu = s.lmu ∧ (deliverSets s).pending = s.pending := by
  simp only [deliverSets]
  (repeat' split) <;> simp

@[simp] theorem announceSummary_frame (s : State) :
    (announceSummary s).supply = s.supply ∧ (announceSummary s).resetLow = s.resetLow ∧
    (announceSummary s).clock = s.clock ∧ (announceSummary s).hostData = s.hostData ∧
    (announceSummary s).tripOut = s.tripOut ∧ (announceSummary s).ore = s.ore ∧
    (announceSummary s).cfl = s.cfl ∧ (announceSummary s).dmc = s.dmc ∧
    (announceSummary s).tqa = s.tqa ∧ (announceSummary s).tcu = s.tcu ∧
    (announceSummary s).rgc = s.rgc ∧ (announceSummary s).stc = s.stc ∧
    (announceSummary s).lmu = s.lmu ∧ (announceSummary s).pru = s.pru ∧
    (announceSummary s).draws = s.draws ∧ (announceSummary s).pending = s.pending := by
  simp only [announceSummary]
  (repeat' split) <;> simp

@[simp] theorem deliverSummary_frame (s : State) :
    (deliverSummary s).supply = s.supply ∧ (deliverSummary s).resetLow = s.resetLow ∧
    (deliverSummary s).clock = s.clock ∧ (deliverSummary s).hostData = s.hostData ∧
    (deliverSummary s).tqa = s.tqa ∧ (deliverSummary s).pending = s.pending := by simp [deliverSummary]

@[simp] theorem deliver_frame (s : State) :
    (deliver s).supply = s.supply ∧ (deliver s).resetLow = s.resetLow ∧
    (deliver s).clock = s.clock ∧ (deliver s).hostData = s.hostData ∧ (deliver s).tqa = s.tqa ∧
    (deliver s).pending = s.pending := by
  simp only [deliver]
  (repeat' split) <;> simp

@[simp] theorem settleBy_frame (n : Nat) (s : State) :
    (settleBy n s).supply = s.supply ∧ (settleBy n s).resetLow = s.resetLow ∧
    (settleBy n s).clock = s.clock ∧ (settleBy n s).hostData = s.hostData ∧
    (settleBy n s).tqa = s.tqa ∧ (settleBy n s).pending = s.pending := by
  induction n generalizing s with
  | zero => simp [settleBy]
  | succ n ih =>
    simp only [settleBy]
    split <;> simp [ih]

@[simp] theorem settle_frame (s : State) :
    (settle s).supply = s.supply ∧ (settle s).resetLow = s.resetLow ∧ (settle s).clock = s.clock ∧
    (settle s).hostData = s.hostData ∧ (settle s).tqa = s.tqa ∧ (settle s).pending = s.pending := by simp [settle]

end Sys2Proof.Machine
end

