-- ==== Sys2Proof/Laws/FramesCommand.lean ====
section
/-! SUPPORT. The frames of the operations of the commands: what each one leaves. -/

namespace Sys2Proof.Machine

@[simp] theorem takeReset_frame (kind : ResetKind) (s : State) :
    (takeReset kind s).supply = s.supply ∧ (takeReset kind s).resetLow = s.resetLow ∧
    (takeReset kind s).xm = s.xm ∧ (takeReset kind s).hostData = s.hostData ∧
    (takeReset kind s).draws = s.draws ∧ (takeReset kind s).pending = s.pending := by simp [takeReset]

@[simp] theorem writeHeader_frame (s : State) :
    (writeHeader s).supply = s.supply ∧ (writeHeader s).resetLow = s.resetLow ∧
    (writeHeader s).clock = s.clock ∧ (writeHeader s).hostData = s.hostData ∧
    (writeHeader s).tripOut = s.tripOut ∧ (writeHeader s).atc = s.atc ∧
    (writeHeader s).ore = s.ore ∧ (writeHeader s).cfl = s.cfl ∧ (writeHeader s).wlc = s.wlc ∧
    (writeHeader s).dmc = s.dmc ∧ (writeHeader s).tqa = s.tqa ∧ (writeHeader s).tcu = s.tcu ∧
    (writeHeader s).rgc = s.rgc ∧ (writeHeader s).stc = s.stc ∧ (writeHeader s).lmu = s.lmu ∧
    (writeHeader s).pru = s.pru ∧ (writeHeader s).draws = s.draws ∧
    (writeHeader s).pending = s.pending := by simp [writeHeader, runAll]

@[simp] theorem visitAfterReset_frame (s : State) :
    (visitAfterReset s).supply = s.supply ∧ (visitAfterReset s).resetLow = s.resetLow ∧
    (visitAfterReset s).clock = s.clock ∧ (visitAfterReset s).hostData = s.hostData ∧
    (visitAfterReset s).tripOut = s.tripOut ∧ (visitAfterReset s).ore = s.ore ∧
    (visitAfterReset s).cfl = s.cfl ∧ (visitAfterReset s).wlc = s.wlc ∧
    (visitAfterReset s).dmc = s.dmc ∧ (visitAfterReset s).tqa = s.tqa ∧
    (visitAfterReset s).tcu = s.tcu ∧ (visitAfterReset s).rgc = s.rgc ∧
    (visitAfterReset s).stc = s.stc ∧ (visitAfterReset s).lmu = s.lmu ∧
    (visitAfterReset s).pru = s.pru ∧ (visitAfterReset s).draws = s.draws ∧
    (visitAfterReset s).pending = s.pending := by
  simp only [visitAfterReset]
  (repeat' split) <;> simp

@[simp] theorem restoreTable_frame (s : State) :
    (restoreTable s).supply = s.supply ∧ (restoreTable s).resetLow = s.resetLow ∧
    (restoreTable s).clock = s.clock ∧ (restoreTable s).hostData = s.hostData ∧
    (restoreTable s).tqa = s.tqa ∧ (restoreTable s).pending = s.pending := by simp [restoreTable]

@[simp] theorem reportConditions_frame (s : State) :
    (reportConditions s).supply = s.supply ∧ (reportConditions s).resetLow = s.resetLow ∧
    (reportConditions s).clock = s.clock ∧ (reportConditions s).hostData = s.hostData ∧
    (reportConditions s).tripOut = s.tripOut ∧ (reportConditions s).ore = s.ore ∧
    (reportConditions s).cfl = s.cfl ∧ (reportConditions s).wlc = s.wlc ∧
    (reportConditions s).dmc = s.dmc ∧ (reportConditions s).tqa = s.tqa ∧
    (reportConditions s).tcu = s.tcu ∧ (reportConditions s).rgc = s.rgc ∧
    (reportConditions s).stc = s.stc ∧ (reportConditions s).lmu = s.lmu ∧
    (reportConditions s).draws = s.draws ∧ (reportConditions s).pending = s.pending := by simp [reportConditions, runAll, forWheels, forBanks]

@[simp] theorem startCauses_frame (s : State) :
    (startCauses s).supply = s.supply ∧ (startCauses s).resetLow = s.resetLow ∧
    (startCauses s).clock = s.clock ∧ (startCauses s).hostData = s.hostData ∧
    (startCauses s).tripOut = s.tripOut ∧ (startCauses s).ore = s.ore ∧
    (startCauses s).cfl = s.cfl ∧ (startCauses s).wlc = s.wlc ∧ (startCauses s).dmc = s.dmc ∧
    (startCauses s).tqa = s.tqa ∧ (startCauses s).tcu = s.tcu ∧ (startCauses s).stc = s.stc ∧
    (startCauses s).lmu = s.lmu ∧ (startCauses s).pru = s.pru ∧ (startCauses s).draws = s.draws ∧
    (startCauses s).pending = s.pending := by
  simp only [startCauses]
  (repeat' split) <;> simp

@[simp] theorem writeSections_frame (s : State) :
    (writeSections s).supply = s.supply ∧ (writeSections s).resetLow = s.resetLow ∧
    (writeSections s).clock = s.clock ∧ (writeSections s).hostData = s.hostData ∧
    (writeSections s).tripOut = s.tripOut ∧ (writeSections s).atc = s.atc ∧
    (writeSections s).ore = s.ore ∧ (writeSections s).cfl = s.cfl ∧ (writeSections s).wlc = s.wlc ∧
    (writeSections s).dmc = s.dmc ∧ (writeSections s).tqa = s.tqa ∧ (writeSections s).tcu = s.tcu ∧
    (writeSections s).rgc = s.rgc ∧ (writeSections s).stc = s.stc ∧ (writeSections s).lmu = s.lmu ∧
    (writeSections s).pru = s.pru ∧ (writeSections s).draws = s.draws ∧
    (writeSections s).pending = s.pending := by simp [writeSections, runAll]

@[simp] theorem startUp_frame (s : State) :
    (startUp s).supply = s.supply ∧ (startUp s).resetLow = s.resetLow ∧
    (startUp s).clock = s.clock ∧ (startUp s).hostData = s.hostData ∧
    (startUp s).pending = s.pending := by simp [startUp, runAll]

@[simp] theorem resetNow_frame (kind : ResetKind) (s : State) :
    (resetNow kind s).supply = s.supply ∧ (resetNow kind s).resetLow = s.resetLow ∧
    (resetNow kind s).hostData = s.hostData ∧ (resetNow kind s).pending = s.pending := by simp [resetNow]

@[simp] theorem hostWrite_frame (address : BitVec 13) (value : Word) (s : State) :
    (hostWrite address value s).supply = s.supply ∧
    (hostWrite address value s).resetLow = s.resetLow ∧
    (hostWrite address value s).clock = s.clock ∧
    (hostWrite address value s).hostData = s.hostData ∧
    (hostWrite address value s).pending = s.pending := by
  simp only [hostWrite]
  (repeat' split) <;> simp

@[simp] theorem decideSetLimits_frame (cell : BitVec 6) (forward reverse cap : Word) (s : State) :
    (decideSetLimits cell forward reverse cap s).supply = s.supply ∧
    (decideSetLimits cell forward reverse cap s).resetLow = s.resetLow ∧
    (decideSetLimits cell forward reverse cap s).clock = s.clock ∧
    (decideSetLimits cell forward reverse cap s).hostData = s.hostData ∧
    (decideSetLimits cell forward reverse cap s).tripOut = s.tripOut ∧
    (decideSetLimits cell forward reverse cap s).ore = s.ore ∧
    (decideSetLimits cell forward reverse cap s).cfl = s.cfl ∧
    (decideSetLimits cell forward reverse cap s).wlc = s.wlc ∧
    (decideSetLimits cell forward reverse cap s).dmc = s.dmc ∧
    (decideSetLimits cell forward reverse cap s).tcu = s.tcu ∧
    (decideSetLimits cell forward reverse cap s).rgc = s.rgc ∧
    (decideSetLimits cell forward reverse cap s).stc = s.stc ∧
    (decideSetLimits cell forward reverse cap s).lmu = s.lmu ∧
    (decideSetLimits cell forward reverse cap s).pru = s.pru ∧
    (decideSetLimits cell forward reverse cap s).draws = s.draws ∧
    (decideSetLimits cell forward reverse cap s).pending = s.pending := by
  simp only [decideSetLimits, admitIf]
  (repeat' split) <;> simp

@[simp] theorem decideLoadEnvelope_frame (cell : BitVec 6) (s : State) :
    (decideLoadEnvelope cell s).supply = s.supply ∧
    (decideLoadEnvelope cell s).resetLow = s.resetLow ∧
    (decideLoadEnvelope cell s).clock = s.clock ∧
    (decideLoadEnvelope cell s).hostData = s.hostData ∧
    (decideLoadEnvelope cell s).tripOut = s.tripOut ∧ (decideLoadEnvelope cell s).ore = s.ore ∧
    (decideLoadEnvelope cell s).cfl = s.cfl ∧ (decideLoadEnvelope cell s).wlc = s.wlc ∧
    (decideLoadEnvelope cell s).dmc = s.dmc ∧ (decideLoadEnvelope cell s).tqa = s.tqa ∧
    (decideLoadEnvelope cell s).tcu = s.tcu ∧ (decideLoadEnvelope cell s).stc = s.stc ∧
    (decideLoadEnvelope cell s).lmu = s.lmu ∧ (decideLoadEnvelope cell s).pru = s.pru ∧
    (decideLoadEnvelope cell s).draws = s.draws ∧ (decideLoadEnvelope cell s).pending = s.pending := by
  simp only [decideLoadEnvelope, admitIf]
  (repeat' split) <;> simp

@[simp] theorem releaseStop_frame (s : State) :
    (releaseStop s).supply = s.supply ∧ (releaseStop s).resetLow = s.resetLow ∧
    (releaseStop s).clock = s.clock ∧ (releaseStop s).hostData = s.hostData ∧
    (releaseStop s).tripOut = s.tripOut ∧ (releaseStop s).ore = s.ore ∧
    (releaseStop s).cfl = s.cfl ∧ (releaseStop s).wlc = s.wlc ∧ (releaseStop s).dmc = s.dmc ∧
    (releaseStop s).tqa = s.tqa ∧ (releaseStop s).tcu = s.tcu ∧ (releaseStop s).rgc = s.rgc ∧
    (releaseStop s).stc = s.stc ∧ (releaseStop s).lmu = s.lmu ∧ (releaseStop s).draws = s.draws ∧
    (releaseStop s).pending = s.pending := by
  simp only [releaseStop]
  (repeat' split) <;> simp

@[simp] theorem clearTable_frame (forget : Word) (s : State) :
    (clearTable forget s).supply = s.supply ∧ (clearTable forget s).resetLow = s.resetLow ∧
    (clearTable forget s).clock = s.clock ∧ (clearTable forget s).hostData = s.hostData ∧
    (clearTable forget s).tripOut = s.tripOut ∧ (clearTable forget s).ore = s.ore ∧
    (clearTable forget s).cfl = s.cfl ∧ (clearTable forget s).wlc = s.wlc ∧
    (clearTable forget s).dmc = s.dmc ∧ (clearTable forget s).tqa = s.tqa ∧
    (clearTable forget s).tcu = s.tcu ∧ (clearTable forget s).rgc = s.rgc ∧
    (clearTable forget s).stc = s.stc ∧ (clearTable forget s).lmu = s.lmu ∧
    (clearTable forget s).draws = s.draws ∧ (clearTable forget s).pending = s.pending := by simp [clearTable]

@[simp] theorem decideClearFaults_frame (cell : BitVec 6) (forget : Word) (s : State) :
    (decideClearFaults cell forget s).supply = s.supply ∧
    (decideClearFaults cell forget s).resetLow = s.resetLow ∧
    (decideClearFaults cell forget s).clock = s.clock ∧
    (decideClearFaults cell forget s).hostData = s.hostData ∧
    (decideClearFaults cell forget s).tqa = s.tqa ∧
    (decideClearFaults cell forget s).pending = s.pending := by simp [decideClearFaults]

@[simp] theorem decideEnterStandby_frame (cell : BitVec 6) (keepLink keepBlower : Word) (s : State) :
    (decideEnterStandby cell keepLink keepBlower s).supply = s.supply ∧
    (decideEnterStandby cell keepLink keepBlower s).resetLow = s.resetLow ∧
    (decideEnterStandby cell keepLink keepBlower s).clock = s.clock ∧
    (decideEnterStandby cell keepLink keepBlower s).hostData = s.hostData ∧
    (decideEnterStandby cell keepLink keepBlower s).tqa = s.tqa ∧
    (decideEnterStandby cell keepLink keepBlower s).pending = s.pending := by
  simp only [decideEnterStandby, admitIf]
  (repeat' split) <;> simp

@[simp] theorem decideLeaveStandby_frame (cell : BitVec 6) (s : State) :
    (decideLeaveStandby cell s).supply = s.supply ∧
    (decideLeaveStandby cell s).resetLow = s.resetLow ∧
    (decideLeaveStandby cell s).clock = s.clock ∧
    (decideLeaveStandby cell s).hostData = s.hostData ∧ (decideLeaveStandby cell s).tqa = s.tqa ∧
    (decideLeaveStandby cell s).pending = s.pending := by
  simp only [decideLeaveStandby, admitIf]
  (repeat' split) <;> simp

@[simp] theorem acceptApplied_frame (cell : BitVec 6) (p : Params) (s : State) :
    (acceptApplied cell p s).supply = s.supply ∧ (acceptApplied cell p s).resetLow = s.resetLow ∧
    (acceptApplied cell p s).clock = s.clock ∧ (acceptApplied cell p s).hostData = s.hostData ∧
    (acceptApplied cell p s).pending = s.pending := by simp [acceptApplied]

@[simp] theorem decideApplyConfig_frame (cell : BitVec 6) (s : State) :
    (decideApplyConfig cell s).supply = s.supply ∧
    (decideApplyConfig cell s).resetLow = s.resetLow ∧ (decideApplyConfig cell s).clock = s.clock ∧
    (decideApplyConfig cell s).hostData = s.hostData ∧
    (decideApplyConfig cell s).pending = s.pending := by
  simp only [decideApplyConfig, admitIf]
  (repeat' split) <;> simp

@[simp] theorem decideGridTest_frame (cell : BitVec 6) (banks duty count : Word) (s : State) :
    (decideGridTest cell banks duty count s).supply = s.supply ∧
    (decideGridTest cell banks duty count s).resetLow = s.resetLow ∧
    (decideGridTest cell banks duty count s).clock = s.clock ∧
    (decideGridTest cell banks duty count s).hostData = s.hostData ∧
    (decideGridTest cell banks duty count s).tripOut = s.tripOut ∧
    (decideGridTest cell banks duty count s).cfl = s.cfl ∧
    (decideGridTest cell banks duty count s).wlc = s.wlc ∧
    (decideGridTest cell banks duty count s).dmc = s.dmc ∧
    (decideGridTest cell banks duty count s).tqa = s.tqa ∧
    (decideGridTest cell banks duty count s).tcu = s.tcu ∧
    (decideGridTest cell banks duty count s).stc = s.stc ∧
    (decideGridTest cell banks duty count s).lmu = s.lmu ∧
    (decideGridTest cell banks duty count s).pru = s.pru ∧
    (decideGridTest cell banks duty count s).pending = s.pending := by
  simp only [decideGridTest, admitIf, handOver]
  (repeat' split) <;> simp

@[simp] theorem decideSteerCalibrate_frame (cell : BitVec 6) (s : State) :
    (decideSteerCalibrate cell s).supply = s.supply ∧
    (decideSteerCalibrate cell s).resetLow = s.resetLow ∧
    (decideSteerCalibrate cell s).clock = s.clock ∧
    (decideSteerCalibrate cell s).hostData = s.hostData ∧
    (decideSteerCalibrate cell s).tripOut = s.tripOut ∧ (decideSteerCalibrate cell s).cfl = s.cfl ∧
    (decideSteerCalibrate cell s).wlc = s.wlc ∧ (decideSteerCalibrate cell s).dmc = s.dmc ∧
    (decideSteerCalibrate cell s).tqa = s.tqa ∧ (decideSteerCalibrate cell s).tcu = s.tcu ∧
    (decideSteerCalibrate cell s).rgc = s.rgc ∧ (decideSteerCalibrate cell s).lmu = s.lmu ∧
    (decideSteerCalibrate cell s).pru = s.pru ∧ (decideSteerCalibrate cell s).draws = s.draws ∧
    (decideSteerCalibrate cell s).pending = s.pending := by
  simp only [decideSteerCalibrate, admitIf, handOver]
  (repeat' split) <;> simp

@[simp] theorem decideRollCall_frame (cell : BitVec 6) (s : State) :
    (decideRollCall cell s).supply = s.supply ∧ (decideRollCall cell s).resetLow = s.resetLow ∧
    (decideRollCall cell s).clock = s.clock ∧ (decideRollCall cell s).hostData = s.hostData ∧
    (decideRollCall cell s).tripOut = s.tripOut ∧ (decideRollCall cell s).cfl = s.cfl ∧
    (decideRollCall cell s).dmc = s.dmc ∧ (decideRollCall cell s).tqa = s.tqa ∧
    (decideRollCall cell s).tcu = s.tcu ∧ (decideRollCall cell s).rgc = s.rgc ∧
    (decideRollCall cell s).stc = s.stc ∧ (decideRollCall cell s).lmu = s.lmu ∧
    (decideRollCall cell s).pru = s.pru ∧ (decideRollCall cell s).draws = s.draws ∧
    (decideRollCall cell s).pending = s.pending := by
  simp only [decideRollCall, admitIf, handOver]
  (repeat' split) <;> simp

@[simp] theorem stopOwner_frame (r : Resource) (s : State) :
    (stopOwner r s).supply = s.supply ∧ (stopOwner r s).resetLow = s.resetLow ∧
    (stopOwner r s).clock = s.clock ∧ (stopOwner r s).hostData = s.hostData ∧
    (stopOwner r s).tripOut = s.tripOut ∧ (stopOwner r s).cfl = s.cfl ∧
    (stopOwner r s).dmc = s.dmc ∧ (stopOwner r s).tqa = s.tqa ∧ (stopOwner r s).tcu = s.tcu ∧
    (stopOwner r s).lmu = s.lmu ∧ (stopOwner r s).pending = s.pending := by
  simp only [stopOwner]
  (repeat' split) <;> simp

@[simp] theorem decideAbort_frame (cell : BitVec 6) (index : Word) (s : State) :
    (decideAbort cell index s).supply = s.supply ∧
    (decideAbort cell index s).resetLow = s.resetLow ∧ (decideAbort cell index s).clock = s.clock ∧
    (decideAbort cell index s).hostData = s.hostData ∧ (decideAbort cell index s).tqa = s.tqa ∧
    (decideAbort cell index s).pending = s.pending := by
  simp only [decideAbort]
  (repeat' split) <;> simp

@[simp] theorem decideOrder_frame (cell : BitVec 6) (s : State) :
    (decideOrder cell s).supply = s.supply ∧ (decideOrder cell s).resetLow = s.resetLow ∧
    (decideOrder cell s).clock = s.clock ∧ (decideOrder cell s).hostData = s.hostData ∧
    (decideOrder cell s).pending = s.pending := by
  simp only [decideOrder]
  (repeat' split) <;> simp

@[simp] theorem markTaken_frame (cell : BitVec 6) (s : State) :
    (markTaken cell s).supply = s.supply ∧ (markTaken cell s).resetLow = s.resetLow ∧
    (markTaken cell s).clock = s.clock ∧ (markTaken cell s).hostData = s.hostData ∧
    (markTaken cell s).tripOut = s.tripOut ∧ (markTaken cell s).atc = s.atc ∧
    (markTaken cell s).ore = s.ore ∧ (markTaken cell s).cfl = s.cfl ∧
    (markTaken cell s).wlc = s.wlc ∧ (markTaken cell s).dmc = s.dmc ∧
    (markTaken cell s).tqa = s.tqa ∧ (markTaken cell s).tcu = s.tcu ∧
    (markTaken cell s).rgc = s.rgc ∧ (markTaken cell s).stc = s.stc ∧
    (markTaken cell s).lmu = s.lmu ∧ (markTaken cell s).pru = s.pru ∧
    (markTaken cell s).draws = s.draws ∧ (markTaken cell s).pending = s.pending := by simp [markTaken]

@[simp] theorem haltChain_frame (s : State) :
    (haltChain s).supply = s.supply ∧ (haltChain s).resetLow = s.resetLow ∧
    (haltChain s).clock = s.clock ∧ (haltChain s).hostData = s.hostData ∧
    (haltChain s).tripOut = s.tripOut ∧ (haltChain s).cfl = s.cfl ∧ (haltChain s).wlc = s.wlc ∧
    (haltChain s).dmc = s.dmc ∧ (haltChain s).tqa = s.tqa ∧ (haltChain s).tcu = s.tcu ∧
    (haltChain s).rgc = s.rgc ∧ (haltChain s).stc = s.stc ∧ (haltChain s).lmu = s.lmu ∧
    (haltChain s).pru = s.pru ∧ (haltChain s).draws = s.draws ∧ (haltChain s).pending = s.pending := by simp [haltChain]

@[simp] theorem waitChain_frame (s : State) :
    (waitChain s).supply = s.supply ∧ (waitChain s).resetLow = s.resetLow ∧
    (waitChain s).clock = s.clock ∧ (waitChain s).hostData = s.hostData ∧
    (waitChain s).tripOut = s.tripOut ∧ (waitChain s).atc = s.atc ∧ (waitChain s).cfl = s.cfl ∧
    (waitChain s).wlc = s.wlc ∧ (waitChain s).dmc = s.dmc ∧ (waitChain s).tqa = s.tqa ∧
    (waitChain s).tcu = s.tcu ∧ (waitChain s).rgc = s.rgc ∧ (waitChain s).stc = s.stc ∧
    (waitChain s).lmu = s.lmu ∧ (waitChain s).pru = s.pru ∧ (waitChain s).draws = s.draws ∧
    (waitChain s).pending = s.pending := by simp [waitChain]

@[simp] theorem takeCell_frame (cell : BitVec 6) (s : State) :
    (takeCell cell s).supply = s.supply ∧ (takeCell cell s).resetLow = s.resetLow ∧
    (takeCell cell s).clock = s.clock ∧ (takeCell cell s).hostData = s.hostData ∧
    (takeCell cell s).pending = s.pending := by simp [takeCell]

@[simp] theorem followLink_frame (cell : BitVec 6) (s : State) :
    (followLink cell s).1.supply = s.supply ∧ (followLink cell s).1.resetLow = s.resetLow ∧
    (followLink cell s).1.clock = s.clock ∧ (followLink cell s).1.hostData = s.hostData ∧
    (followLink cell s).1.tripOut = s.tripOut ∧ (followLink cell s).1.cfl = s.cfl ∧
    (followLink cell s).1.wlc = s.wlc ∧ (followLink cell s).1.dmc = s.dmc ∧
    (followLink cell s).1.tqa = s.tqa ∧ (followLink cell s).1.tcu = s.tcu ∧
    (followLink cell s).1.rgc = s.rgc ∧ (followLink cell s).1.stc = s.stc ∧
    (followLink cell s).1.lmu = s.lmu ∧ (followLink cell s).1.pru = s.pru ∧
    (followLink cell s).1.draws = s.draws ∧ (followLink cell s).1.pending = s.pending := by
  unfold followLink
  generalize s.link cell = l
  cases l <;> simp

@[simp] theorem scanSteps_frame (n takes : Nat) (s : State) :
    (scanSteps n takes s).supply = s.supply ∧ (scanSteps n takes s).resetLow = s.resetLow ∧
    (scanSteps n takes s).clock = s.clock ∧ (scanSteps n takes s).hostData = s.hostData ∧
    (scanSteps n takes s).pending = s.pending := by
  induction n generalizing takes s with
  | zero => simp [scanSteps]
  | succ n ih =>
    simp only [scanSteps]
    split
    · generalize s.link s.ore.cursor = l
      cases l <;> simp [ih]
    · split
      · split <;> simp [ih]
      · simp

@[simp] theorem scan_frame (s : State) :
    (scan s).supply = s.supply ∧ (scan s).resetLow = s.resetLow ∧ (scan s).clock = s.clock ∧
    (scan s).hostData = s.hostData ∧ (scan s).pending = s.pending := by
  simp only [scan]
  (repeat' split) <;> simp

@[simp] theorem finishLink_frame (s : State) :
    (finishLink s).supply = s.supply ∧ (finishLink s).resetLow = s.resetLow ∧
    (finishLink s).clock = s.clock ∧ (finishLink s).hostData = s.hostData ∧
    (finishLink s).tqa = s.tqa ∧ (finishLink s).pending = s.pending := by simp [finishLink]

@[simp] theorem acceptReport_frame (w : Wheel) (order : HandOff) (bytes : List Byte) (s : State) :
    (acceptReport w order bytes s).supply = s.supply ∧
    (acceptReport w order bytes s).resetLow = s.resetLow ∧
    (acceptReport w order bytes s).clock = s.clock ∧
    (acceptReport w order bytes s).hostData = s.hostData ∧
    (acceptReport w order bytes s).tqa = s.tqa ∧ (acceptReport w order bytes s).pending = s.pending := by
  simp only [acceptReport, inOrder]
  (repeat' split) <;> simp

@[simp] theorem acceptSteerReport_frame (order : HandOff) (bytes : List Byte) (s : State) :
    (acceptSteerReport order bytes s).supply = s.supply ∧
    (acceptSteerReport order bytes s).resetLow = s.resetLow ∧
    (acceptSteerReport order bytes s).clock = s.clock ∧
    (acceptSteerReport order bytes s).hostData = s.hostData ∧
    (acceptSteerReport order bytes s).tqa = s.tqa ∧
    (acceptSteerReport order bytes s).pending = s.pending := by
  simp only [acceptSteerReport, inOrder]
  (repeat' split) <;> simp

@[simp] theorem acceptReply_frame (x : Exchange) (order : HandOff) (bytes : List Byte) (s : State) :
    (acceptReply x order bytes s).supply = s.supply ∧
    (acceptReply x order bytes s).resetLow = s.resetLow ∧
    (acceptReply x order bytes s).clock = s.clock ∧
    (acceptReply x order bytes s).hostData = s.hostData ∧
    (acceptReply x order bytes s).tqa = s.tqa ∧ (acceptReply x order bytes s).pending = s.pending := by
  simp only [acceptReply]
  (repeat' split) <;> simp

@[simp] theorem replyArrival_frame (order : HandOff) (bytes : List Byte) (s : State) :
    (replyArrival order bytes s).supply = s.supply ∧
    (replyArrival order bytes s).resetLow = s.resetLow ∧
    (replyArrival order bytes s).clock = s.clock ∧
    (replyArrival order bytes s).hostData = s.hostData ∧ (replyArrival order bytes s).tqa = s.tqa ∧
    (replyArrival order bytes s).pending = s.pending := by
  simp only [replyArrival]
  (repeat' split) <;> simp

@[simp] theorem windowExpiry_frame (s : State) :
    (windowExpiry s).supply = s.supply ∧ (windowExpiry s).resetLow = s.resetLow ∧
    (windowExpiry s).clock = s.clock ∧ (windowExpiry s).hostData = s.hostData ∧
    (windowExpiry s).tqa = s.tqa ∧ (windowExpiry s).pending = s.pending := by
  simp only [windowExpiry]
  (repeat' split) <;> simp

@[simp] theorem filteredSteps_frame (s : State) :
    (filteredSteps s).supply = s.supply ∧ (filteredSteps s).resetLow = s.resetLow ∧
    (filteredSteps s).clock = s.clock ∧ (filteredSteps s).hostData = s.hostData ∧
    (filteredSteps s).tripOut = s.tripOut ∧ (filteredSteps s).cfl = s.cfl ∧
    (filteredSteps s).wlc = s.wlc ∧ (filteredSteps s).dmc = s.dmc ∧ (filteredSteps s).tqa = s.tqa ∧
    (filteredSteps s).tcu = s.tcu ∧ (filteredSteps s).stc = s.stc ∧
    (filteredSteps s).pending = s.pending := by simp [filteredSteps, runAll]

@[simp] theorem setExceeded_frame (s : State) :
    (setExceeded s).supply = s.supply ∧ (setExceeded s).resetLow = s.resetLow ∧
    (setExceeded s).clock = s.clock ∧ (setExceeded s).hostData = s.hostData ∧
    (setExceeded s).tripOut = s.tripOut ∧ (setExceeded s).ore = s.ore ∧
    (setExceeded s).cfl = s.cfl ∧ (setExceeded s).wlc = s.wlc ∧ (setExceeded s).dmc = s.dmc ∧
    (setExceeded s).tqa = s.tqa ∧ (setExceeded s).tcu = s.tcu ∧ (setExceeded s).stc = s.stc ∧
    (setExceeded s).lmu = s.lmu ∧ (setExceeded s).draws = s.draws ∧
    (setExceeded s).pending = s.pending := by simp [setExceeded]

@[simp] theorem clearExceeded_frame (s : State) :
    (clearExceeded s).supply = s.supply ∧ (clearExceeded s).resetLow = s.resetLow ∧
    (clearExceeded s).clock = s.clock ∧ (clearExceeded s).hostData = s.hostData ∧
    (clearExceeded s).tripOut = s.tripOut ∧ (clearExceeded s).ore = s.ore ∧
    (clearExceeded s).cfl = s.cfl ∧ (clearExceeded s).wlc = s.wlc ∧ (clearExceeded s).dmc = s.dmc ∧
    (clearExceeded s).tqa = s.tqa ∧ (clearExceeded s).tcu = s.tcu ∧ (clearExceeded s).stc = s.stc ∧
    (clearExceeded s).lmu = s.lmu ∧ (clearExceeded s).draws = s.draws ∧
    (clearExceeded s).pending = s.pending := by simp [clearExceeded]

@[simp] theorem reviewSteps_frame (s : State) :
    (reviewSteps s).supply = s.supply ∧ (reviewSteps s).resetLow = s.resetLow ∧
    (reviewSteps s).clock = s.clock ∧ (reviewSteps s).hostData = s.hostData ∧
    (reviewSteps s).tripOut = s.tripOut ∧ (reviewSteps s).atc = s.atc ∧
    (reviewSteps s).ore = s.ore ∧ (reviewSteps s).cfl = s.cfl ∧ (reviewSteps s).wlc = s.wlc ∧
    (reviewSteps s).dmc = s.dmc ∧ (reviewSteps s).tqa = s.tqa ∧ (reviewSteps s).tcu = s.tcu ∧
    (reviewSteps s).stc = s.stc ∧ (reviewSteps s).pru = s.pru ∧ (reviewSteps s).draws = s.draws ∧
    (reviewSteps s).pending = s.pending := by simp [reviewSteps, runAll, forBanks]

@[simp] theorem endDischarge_frame (s : State) :
    (endDischarge s).supply = s.supply ∧ (endDischarge s).resetLow = s.resetLow ∧
    (endDischarge s).clock = s.clock ∧ (endDischarge s).hostData = s.hostData ∧
    (endDischarge s).tripOut = s.tripOut ∧ (endDischarge s).atc = s.atc ∧
    (endDischarge s).ore = s.ore ∧ (endDischarge s).cfl = s.cfl ∧ (endDischarge s).wlc = s.wlc ∧
    (endDischarge s).dmc = s.dmc ∧ (endDischarge s).tqa = s.tqa ∧ (endDischarge s).tcu = s.tcu ∧
    (endDischarge s).stc = s.stc ∧ (endDischarge s).lmu = s.lmu ∧ (endDischarge s).pru = s.pru ∧
    (endDischarge s).pending = s.pending := by simp [endDischarge]

@[simp] theorem moveFilter_frame (f : StopFilter) (s : State) :
    (moveFilter f s).supply = s.supply ∧ (moveFilter f s).resetLow = s.resetLow ∧
    (moveFilter f s).clock = s.clock ∧ (moveFilter f s).hostData = s.hostData ∧
    (moveFilter f s).tqa = s.tqa ∧ (moveFilter f s).pending = s.pending := by simp [moveFilter]

@[simp] theorem sampleStop_frame (low : Bool) (s : State) :
    (sampleStop low s).supply = s.supply ∧ (sampleStop low s).resetLow = s.resetLow ∧
    (sampleStop low s).clock = s.clock ∧ (sampleStop low s).hostData = s.hostData ∧
    (sampleStop low s).tqa = s.tqa ∧ (sampleStop low s).pending = s.pending := by simp [sampleStop]

end Sys2Proof.Machine
end

