-- ==== Sys2Proof/Laws/Memory.lean ====
section
/-! SUPPORT. The laws of the exchange memory: a store keeps the canonical form, writes the words it
names, and leaves every other byte. -/

namespace Sys2Proof.Machine

/-! ### Lookups -/

theorem lookup_append (b : Nat) (l m : Memory) :
    (l ++ m).lookup b = ((l.lookup b).orElse fun _ => m.lookup b) := by
  induction l with
  | nil => simp
  | cons c l ih =>
    obtain ⟨k, v⟩ := c
    by_cases h : (b == k) = true <;> simp [List.lookup, h, ih]

theorem lookup_filter_of_true (b : Nat) (p : Nat → Bool) (m : Memory) (h : p b = true) :
    (m.filter fun c => p c.1).lookup b = m.lookup b := by
  induction m with
  | nil => rfl
  | cons c m ih =>
    obtain ⟨k, v⟩ := c
    by_cases hk : b = k
    · subst hk; simp [List.lookup, h]
    · have hbk : (b == k) = false := by simpa using hk
      by_cases hp : p k = true <;> simp [List.lookup, hp, hbk, ih]

theorem lookup_eq_none_of_forall (b : Nat) (m : Memory) (h : ∀ c ∈ m, c.1 ≠ b) : m.lookup b = none := by
  induction m with
  | nil => rfl
  | cons c m ih =>
    obtain ⟨k, v⟩ := c
    have hk : (b == k) = false := by
      have := h (k, v) (by simp)
      simpa using fun e => this e.symm
    simp [List.lookup, hk, ih fun c hc => h c (by simp [hc])]

/-! ### The entries of consecutive words -/

theorem cell_bounds {a : Nat} {v : Byte} {c : Host.Cell} (h : c ∈ Memory.cell a v) :
    c.1 = a ∧ c.2 ≠ Memory.blank := by
  unfold Memory.cell at h
  split at h
  · simp at h
  · simp only [List.mem_singleton] at h; subst h; exact ⟨rfl, by assumption⟩

theorem cells_bounds {a : Nat} {ws : List Word} {c : Host.Cell} (h : c ∈ Memory.cells a ws) :
    a ≤ c.1 ∧ c.1 < a + 2 * ws.length ∧ c.2 ≠ Memory.blank := by
  induction ws generalizing a with
  | nil => simp [Memory.cells] at h
  | cons w ws ih =>
    simp only [Memory.cells, List.mem_append] at h
    simp only [List.length_cons]
    rcases h with h | h | h
    · obtain ⟨h1, h2⟩ := cell_bounds h; exact ⟨by omega, by omega, h2⟩
    · obtain ⟨h1, h2⟩ := cell_bounds h; exact ⟨by omega, by omega, h2⟩
    · obtain ⟨h1, h2, h3⟩ := ih h; exact ⟨by omega, by omega, h3⟩

theorem cell_pairwise (a : Nat) (v : Byte) : (Memory.cell a v).Pairwise fun c d => c.1 < d.1 := by
  unfold Memory.cell; split <;> simp

theorem cells_pairwise (a : Nat) (ws : List Word) :
    (Memory.cells a ws).Pairwise fun c d => c.1 < d.1 := by
  induction ws generalizing a with
  | nil => simp [Memory.cells]
  | cons w ws ih =>
    simp only [Memory.cells]
    refine List.pairwise_append.2 ⟨cell_pairwise _ _, List.pairwise_append.2
      ⟨cell_pairwise _ _, ih _, ?_⟩, ?_⟩
    · intro c hc d hd
      have h1 := (cell_bounds hc).1
      have h2 := (cells_bounds hd).1
      omega
    · intro c hc d hd
      have h1 := (cell_bounds hc).1
      rcases List.mem_append.1 hd with hd | hd
      · have h2 := (cell_bounds hd).1; omega
      · have h2 := (cells_bounds hd).1; omega

/-- A store keeps the canonical form. -/
theorem store_wf {a : Nat} {ws : List Word} {m : Memory} (h : m.wf) : (m.store a ws).wf := by
  obtain ⟨h1, h2⟩ := h
  refine ⟨List.pairwise_append.2 ⟨h1.filter _, List.pairwise_append.2
    ⟨cells_pairwise _ _, h1.filter _, ?_⟩, ?_⟩, ?_⟩
  · intro c hc d hd
    have h3 := (cells_bounds hc).2.1
    have h4 := (List.mem_filter.1 hd).2
    simp only [decide_eq_true_eq] at h4
    omega
  · intro c hc d hd
    have h3 := (List.mem_filter.1 hc).2
    simp only [decide_eq_true_eq] at h3
    rcases List.mem_append.1 hd with hd | hd
    · have h4 := (cells_bounds hd).1; omega
    · have h4 := (List.mem_filter.1 hd).2
      simp only [decide_eq_true_eq] at h4
      omega
  · intro c hc
    rcases List.mem_append.1 hc with hc | hc
    · exact h2 c (List.mem_filter.1 hc).1
    · rcases List.mem_append.1 hc with hc | hc
      · exact (cells_bounds hc).2.2
      · exact h2 c (List.mem_filter.1 hc).1

/-- A store leaves every byte outside its words. -/
theorem byte_store_outside {a : Nat} {ws : List Word} {m : Memory} {b : Nat}
    (h : b < a ∨ a + 2 * ws.length ≤ b) : (m.store a ws).byte b = m.byte b := by
  have hc : (Memory.cells a ws).lookup b = none :=
    lookup_eq_none_of_forall _ _ fun c hc => by have := cells_bounds hc; omega
  unfold Memory.byte Memory.store
  rw [lookup_append, lookup_append, hc]
  rcases h with h | h
  · rw [lookup_filter_of_true b (fun k => decide (k < a)) m (by simpa using h),
      lookup_eq_none_of_forall b (m.filter fun c => a + 2 * ws.length ≤ c.1)
        fun c hc => by have := (List.mem_filter.1 hc).2; simp at this; omega]
    cases m.lookup b <;> rfl
  · rw [lookup_filter_of_true b (fun k => decide (a + 2 * ws.length ≤ k)) m (by simpa using h),
      lookup_eq_none_of_forall b (m.filter fun c => c.1 < a)
        fun c hc => by have := (List.mem_filter.1 hc).2; simp at this; omega]
    rfl

theorem cell_lookup (a : Nat) (v : Byte) : ((Memory.cell a v).lookup a).getD Memory.blank = v := by
  unfold Memory.cell; split <;> simp_all

theorem cell_lookup_ne {a b : Nat} (v : Byte) (h : a ≠ b) : (Memory.cell a v).lookup b = none :=
  lookup_eq_none_of_forall _ _ fun c hc => by rw [(cell_bounds hc).1]; exact h

/-- The byte of a word by the parity of its offset. -/
def wordByte (w : Word) (high : Bool) : Byte := if high then highByte w else lowByte w

theorem cells_byte (a : Nat) (ws : List Word) (i : Nat) (high : Bool) (h : i < ws.length) :
    ((Memory.cells a ws).lookup (a + 2 * i + if high then 1 else 0)).getD Memory.blank =
      wordByte (ws[i]) high := by
  induction ws generalizing a i with
  | nil => simp at h
  | cons w ws ih =>
    simp only [Memory.cells, lookup_append]
    cases i with
    | zero =>
      cases high
      · have h1 : (Memory.cell (a + 1) (highByte w)).lookup a = none := cell_lookup_ne _ (by omega)
        have h2 : (Memory.cells (a + 2) ws).lookup a = none :=
          lookup_eq_none_of_forall _ _ fun c hc => by have := cells_bounds hc; omega
        have h3 := cell_lookup a (lowByte w)
        simp [h1, h2, wordByte]; simpa using h3
      · have h1 : (Memory.cell a (lowByte w)).lookup (a + 1) = none := cell_lookup_ne _ (by omega)
        have h2 : (Memory.cells (a + 2) ws).lookup (a + 1) = none :=
          lookup_eq_none_of_forall _ _ fun c hc => by have := cells_bounds hc; omega
        have h3 := cell_lookup (a + 1) (highByte w)
        simp [h1, h2, wordByte]; simpa using h3
    | succ i =>
      have h' : i < ws.length := by simpa using h
      have e : a + 2 * (i + 1) + (if high then 1 else 0) = (a + 2) + 2 * i + if high then 1 else 0 := by
        omega
      have h1 : (Memory.cell a (lowByte w)).lookup ((a + 2) + 2 * i + if high then 1 else 0) = none :=
        cell_lookup_ne _ (by omega)
      have h2 : (Memory.cell (a + 1) (highByte w)).lookup ((a + 2) + 2 * i + if high then 1 else 0) =
          none := cell_lookup_ne _ (by omega)
      rw [e, h1, h2]
      simpa using ih (a + 2) i h'

/-- A store writes each byte of its words. -/
theorem byte_store_inside {a : Nat} {ws : List Word} {m : Memory} {i : Nat} (high : Bool)
    (h : i < ws.length) :
    (m.store a ws).byte (a + 2 * i + if high then 1 else 0) = wordByte ws[i] high := by
  unfold Memory.byte Memory.store
  rw [lookup_append, lookup_append,
    lookup_eq_none_of_forall _ (m.filter fun c => c.1 < a)
      fun c hc => by have := (List.mem_filter.1 hc).2; simp at this; omega,
    lookup_eq_none_of_forall _ (m.filter fun c => a + 2 * ws.length ≤ c.1)
      fun c hc => by
        have := (List.mem_filter.1 hc).2
        simp at this
        cases high <;> simp <;> omega]
  have := cells_byte a ws i high h
  simpa using this

theorem wordOf_lowByte_highByte (w : Word) : wordOf (lowByte w) (highByte w) = w := by
  unfold wordOf lowByte highByte
  apply BitVec.eq_of_getLsbD_eq
  intro i hi
  simp only [BitVec.getLsbD_append, BitVec.getLsbD_setWidth, BitVec.getLsbD_extractLsb']
  by_cases h : i < 8
  · simp [h]
  · have : i - 8 < 8 := by omega
    have h2 : 8 + (i - 8) = i := by omega
    simp [h, this, h2]

/-- A store writes each of its words (R1). -/
theorem word_store {a : Nat} {ws : List Word} {m : Memory} {i : Nat} (h : i < ws.length) :
    (m.store a ws).word (a + 2 * i) = ws[i] := by
  have h0 := byte_store_inside (a := a) (m := m) false h
  have h1 := byte_store_inside (a := a) (m := m) true h
  simp only [Bool.false_eq_true, if_false, if_true, Nat.add_zero, wordByte] at h0 h1
  unfold Memory.word
  rw [h0, h1, wordOf_lowByte_highByte]

/-- A store leaves every word outside its own. -/
theorem word_store_outside {a : Nat} {ws : List Word} {m : Memory} {b : Nat}
    (h : b + 2 ≤ a ∨ a + 2 * ws.length ≤ b) : (m.store a ws).word b = m.word b := by
  unfold Memory.word
  rw [byte_store_outside (by omega), byte_store_outside (by omega)]

/-! ### The part's writes -/

@[simp] theorem put_wf {a : Nat} {ws : List Word} {s : State} (h : s.xm.wf) : (put a ws s).xm.wf :=
  store_wf h

theorem put_byte_outside {a : Nat} {ws : List Word} {s : State} {b : Nat}
    (h : b < a ∨ a + 2 * ws.length ≤ b) : (put a ws s).xm.byte b = s.xm.byte b :=
  byte_store_outside h

theorem put_word {a : Nat} {ws : List Word} {s : State} {i : Nat} (h : i < ws.length) :
    (put a ws s).word (a + 2 * i) = ws[i] :=
  word_store h

theorem put_word_outside {a : Nat} {ws : List Word} {s : State} {b : Nat}
    (h : b + 2 ≤ a ∨ a + 2 * ws.length ≤ b) : (put a ws s).word b = s.word b :=
  word_store_outside h

@[simp] theorem blank_memory_wf : Memory.wf [] := by simp [Memory.wf]

/-- The exchange memory after POWER_ON has the canonical form. -/
theorem afterPowerOn_wf : Memory.afterPowerOn.wf := by decide +kernel

end Sys2Proof.Machine
end

