-- ==== Sys2Proof/Laws/Keeps.lean ====
section
/-! SUPPORT. What every operation keeps, said once: the invariants of Safety.lean, the host's bytes, and
the header fields that show the state. `Keeps full a b` holds of each operation's state before and
after; one lemma per operation builds it. With `full` true it speaks of the header too, which only
start-up writes afresh. -/

namespace Sys2Proof.Machine

/-- From state `a` to state `b` the invariant of each block is kept. -/
structure KeepsBlocks (a b : State) : Prop where
  atc : a.atc.ok → b.atc.ok := by intros; assumption
  pru : a.pru.ok → b.pru.ok := by intros; assumption
  lmu : a.lmu.ok → b.lmu.ok := by intros; assumption
  demand : a.dmc.demand.ok → b.dmc.demand.ok := by intros; assumption
  rgc : a.rgc.ok → b.rgc.ok := by intros; assumption
  stc : a.stc.ok → b.stc.ok := by intros; assumption
  placed : a.wlc.placed → b.wlc.placed := by intros; assumption

/-- From state `a` to state `b` the invariants are kept, and so are, while the status blocks lie in the
status region, the host's bytes, and with `full` the reset cause record and the truth of the header. -/
structure Keeps (full : Bool) (a b : State) : Prop extends KeepsBlocks a b where
  wf : a.xm.wf → b.xm.wf
  host : a.wlc.placed → ∀ x, hostByte x = true → b.xm.byte x = a.xm.byte x
  record : full = true → a.wlc.placed → ∀ x, recordByte x = true → b.xm.byte x = a.xm.byte x
  shown : full = true → a.wlc.placed → a.headerShown → b.headerShown

variable {full : Bool} {a b c s : State}

theorem KeepsBlocks.refl (a : State) : KeepsBlocks a a := { }

theorem KeepsBlocks.trans (h : KeepsBlocks a b) (k : KeepsBlocks b c) : KeepsBlocks a c :=
  ⟨k.atc ∘ h.atc, k.pru ∘ h.pru, k.lmu ∘ h.lmu, k.demand ∘ h.demand, k.rgc ∘ h.rgc, k.stc ∘ h.stc,
    k.placed ∘ h.placed⟩

theorem Keeps.refl (full : Bool) (a : State) : Keeps full a a :=
  ⟨KeepsBlocks.refl a, id, fun _ _ _ => rfl, fun _ _ _ _ => rfl, fun _ _ => id⟩

theorem Keeps.trans (h : Keeps full a b) (k : Keeps full b c) : Keeps full a c :=
  ⟨h.toKeepsBlocks.trans k.toKeepsBlocks, k.wf ∘ h.wf,
    fun p x hx => (k.host (h.placed p) x hx).trans (h.host p x hx),
    fun f p x hx => (k.record f (h.placed p) x hx).trans (h.record f p x hx),
    fun f p => k.shown f (h.placed p) ∘ h.shown f p⟩

/-- What is kept with the header is kept without it. -/
theorem Keeps.weaken (h : Keeps true a b) : Keeps full a b :=
  ⟨h.toKeepsBlocks, h.wf, h.host, fun _ => h.record rfl, fun _ => h.shown rfl⟩

/-- The fields that the header shows are the same in two states. -/
structure SameShown (s t : State) : Prop where
  xm : t.xm = s.xm := by intros; rfl
  clock : t.clock = s.clock := by intros; rfl
  mode : t.dmc.mode = s.dmc.mode := by intros; rfl
  cursor : t.ore.cursor = s.ore.cursor := by intros; rfl
  chain : t.ore.chain = s.ore.chain := by intros; rfl
  behind : t.ore.behind = s.ore.behind := by intros; rfl
  attention : t.atc.pending = s.atc.pending := by intros; rfl
  service : t.atc.inService = s.atc.inService := by intros; rfl
  units : ∀ u, (t.wlc.unit u).block = (s.wlc.unit u).block := by intros; rfl
  banks : ∀ b, t.wlc.bankBlock.get b = s.wlc.bankBlock.get b := by intros; rfl

theorem SameShown.shown {t : State} (k : SameShown s t) (h : s.headerShown) : t.headerShown := by
  have hw : ∀ x, t.word x = s.word x := fun x => by unfold State.word; rw [k.xm]
  exact ⟨by rw [hw, k.clock, h.clockLow], by rw [hw, k.clock, h.clockHigh], by rw [hw, k.mode, h.mode],
    by rw [hw, k.cursor, h.cursor], by rw [hw, k.chain, h.chain], by rw [hw, k.behind, h.behind],
    by rw [hw, k.attention, h.attention], by rw [hw, k.service, h.service],
    fun u => by rw [hw, k.units, h.units], fun b => by rw [hw, k.banks, h.banks]⟩

/-- A change of the state that leaves the memory and what the header shows. -/
theorem Keeps.blocks {t : State} (h : Keeps full a s) (k : KeepsBlocks s t) (m : SameShown s t) :
    Keeps full a t :=
  h.trans ⟨k, fun w => by rw [m.xm]; exact w, fun _ _ _ => by rw [m.xm],
    fun _ _ _ _ => by rw [m.xm], fun _ _ => m.shown⟩

/-- What a list holds, a longer one holds too. -/
theorem exists_cons {α : Type} {p : α → Prop} {q : Prop} {x : α} {l : List α} :
    (∃ e ∈ l, p e) ∨ q → (∃ e ∈ x :: l, p e) ∨ q :=
  Or.imp_left fun ⟨e, he, h⟩ => ⟨e, List.mem_cons_of_mem x he, h⟩

/-! ### The record updates -/

theorem setHostData_keeps (h : Keeps full a s) (v : Word) : Keeps full a (s.setHostData v) :=
  h.blocks { } { }

theorem setTripOut_keeps (h : Keeps full a s) (v : Bool) : Keeps full a (s.setTripOut v) :=
  h.blocks { } { }

theorem setSupply_keeps (h : Keeps full a s) (v : Bool) : Keeps full a (s.setSupply v) :=
  h.blocks { } { }

theorem setResetLow_keeps (h : Keeps full a s) (v : Bool) : Keeps full a (s.setResetLow v) :=
  h.blocks { } { }

theorem setDraws_keeps (h : Keeps full a s) (v : Nat) : Keeps full a (s.setDraws v) :=
  h.blocks { } { }

theorem setPending_keeps (h : Keeps full a s) (v : List Instr) : Keeps full a (s.setPending v) :=
  h.blocks { } { }

theorem setCfl_keeps (h : Keeps full a s) (v : Cfl) : Keeps full a (s.setCfl v) :=
  h.blocks { } { }

theorem setTqa_keeps (h : Keeps full a s) (v : Tqa) : Keeps full a (s.setTqa v) :=
  h.blocks { } { }

theorem setTcu_keeps (h : Keeps full a s) (v : Tcu) : Keeps full a (s.setTcu v) :=
  h.blocks { } { }

theorem setOre_keeps (h : Keeps full a s) {v : Ore} (hc : v.cursor = s.ore.cursor)
    (hn : v.chain = s.ore.chain) (hb : v.behind = s.ore.behind) : Keeps full a (s.setOre v) :=
  h.blocks { } { cursor := hc, chain := hn, behind := hb }

theorem setAtc_keeps (h : Keeps full a s) {v : Atc} (hv : s.atc.ok → v.ok)
    (hp : v.pending = s.atc.pending) (hi : v.inService = s.atc.inService) :
    Keeps full a (s.setAtc v) :=
  h.blocks { atc := hv } { attention := hp, service := hi }

theorem setPru_keeps (h : Keeps full a s) {v : Pru} (hv : s.pru.ok → v.ok) :
    Keeps full a (s.setPru v) :=
  h.blocks { pru := hv } { }

theorem setLmu_keeps (h : Keeps full a s) {v : Lmu} (hv : s.lmu.ok → v.ok) :
    Keeps full a (s.setLmu v) :=
  h.blocks { lmu := hv } { }

theorem setDmc_keeps (h : Keeps full a s) {v : Dmc} (hv : s.dmc.demand.ok → v.demand.ok)
    (hm : v.mode = s.dmc.mode) : Keeps full a (s.setDmc v) :=
  h.blocks { demand := hv } { mode := hm }

theorem setRgc_keeps (h : Keeps full a s) {v : Rgc} (hv : s.rgc.ok → v.ok) :
    Keeps full a (s.setRgc v) :=
  h.blocks { rgc := hv } { }

theorem setStc_keeps (h : Keeps full a s) {v : Stc} (hv : s.stc.ok → v.ok) :
    Keeps full a (s.setStc v) :=
  h.blocks { stc := hv } { }

/-- A replacement of the link's state that leaves every block where it is keeps the placement. -/
theorem setWlc_keeps (h : Keeps full a s) {v : Wlc} (hc : v.cursor = s.wlc.cursor)
    (hu : ∀ u, (v.unit u).block = (s.wlc.unit u).block) (hb : v.bankBlock = s.wlc.bankBlock) :
    Keeps full a (s.setWlc v) :=
  have hp : s.wlc.placed → v.placed := fun ⟨k1, k2, k3⟩ =>
    ⟨by rw [hc]; exact k1, fun u => by rw [hu]; exact k2 u, fun b => by rw [hb]; exact k3 b⟩
  h.blocks { placed := hp } { units := hu, banks := fun b => by rw [State.setWlc_wlc, hb] }

/-! A replacement that leaves the fields of an invariant keeps it. -/

theorem setLmu_keeps_same (h : Keeps full a s) {v : Lmu} (hv : v.derates = s.lmu.derates) :
    Keeps full a (s.setLmu v) := setLmu_keeps h fun k => by unfold Lmu.ok; rw [hv]; exact k

theorem setDmc_keeps_same (h : Keeps full a s) {v : Dmc} (hv : v.demand = s.dmc.demand)
    (hm : v.mode = s.dmc.mode) : Keeps full a (s.setDmc v) :=
  setDmc_keeps h (fun k => by rw [hv]; exact k) hm

theorem setPru_keeps_same (h : Keeps full a s) {v : Pru} (hv : v.entries = s.pru.entries) :
    Keeps full a (s.setPru v) := setPru_keeps h fun k => by unfold Pru.ok; rw [hv]; exact k

theorem setStc_keeps_same (h : Keeps full a s) {v : Stc} (hk : v.kappa = s.stc.kappa)
    (hb : v.beta = s.stc.beta) : Keeps full a (s.setStc v) :=
  setStc_keeps h fun k => by unfold Stc.ok; rw [hk, hb]; exact k

theorem setAtc_keeps_same (h : Keeps full a s) {v : Atc} (hv : v.threshold = s.atc.threshold)
    (hp : v.pending = s.atc.pending) (hi : v.inService = s.atc.inService) :
    Keeps full a (s.setAtc v) :=
  setAtc_keeps h (fun k => by unfold Atc.ok; rw [hv]; exact k) hp hi

theorem setRgc_keeps_same (h : Keeps full a s) {v : Rgc} (hd : v.dHold = s.rgc.dHold)
    (hi : v.integrator = s.rgc.integrator) (hs : v.samples = s.rgc.samples) (hf : v.vF = s.rgc.vF) :
    Keeps full a (s.setRgc v) :=
  setRgc_keeps h fun k => by unfold Rgc.ok; rw [hd, hi, hs, hf]; exact k

theorem setWlc_keeps_same (h : Keeps full a s) {v : Wlc} (hc : v.cursor = s.wlc.cursor)
    (hw : v.wheels = s.wlc.wheels) (hu : v.sau = s.wlc.sau) (hb : v.bankBlock = s.wlc.bankBlock) :
    Keeps full a (s.setWlc v) :=
  setWlc_keeps h hc (fun u => by cases u <;> simp [Wlc.unit, hw, hu]) hb

/-- A unit record is replaced by one with the same status block. -/
theorem setUnit_keeps (h : Keeps full a s) {u : UnitId} {r : UnitRec}
    (hr : r.block = (s.wlc.unit u).block) : Keeps full a (s.setWlc (s.wlc.setUnit u r)) :=
  setWlc_keeps h (by cases u <;> rfl)
    (fun v => by rw [Wlc.unit_setUnit]; split <;> simp_all) (by cases u <;> rfl)

/-! ### Writes of the exchange memory -/

/-- The words that the header shows are not written by a write outside their bytes. -/
theorem put_shown {x : Nat} {ws : List Word} (h : s.headerShown)
    (hx : ∀ b, x ≤ b → b < x + 2 * ws.length → mirrorByte b = false) :
    (put x ws s).headerShown := by
  have key : ∀ y, (∀ b, y ≤ b → b < y + 2 → mirrorByte b = true) → (put x ws s).word y = s.word y := by
    intro y hy
    have hb : ∀ b, y ≤ b → b < y + 2 → (put x ws s).xm.byte b = s.xm.byte b := fun b h1 h2 =>
      put_byte_outside (by
        by_contra hc
        have h3 := hx b (by omega) (by omega)
        simp [hy b h1 h2] at h3)
    unfold State.word Memory.word
    rw [hb y (by omega) (by omega), hb (y + 1) (by omega) (by omega)]
  have mk : ∀ y, (0x000C ≤ y ∧ y + 2 ≤ 0x0012 ∨ 0x001C ≤ y ∧ y + 2 ≤ 0x0026 ∨
      0x0030 ≤ y ∧ y + 2 ≤ 0x0046) → (put x ws s).word y = s.word y := by
    intro y hy
    refine key y fun b h1 h2 => ?_
    unfold mirrorByte
    simp only [decide_eq_true_eq]
    omega
  exact ⟨by rw [mk _ (by omega)]; exact h.clockLow, by rw [mk _ (by omega)]; exact h.clockHigh,
    by rw [mk _ (by omega)]; exact h.mode, by rw [mk _ (by omega)]; exact h.cursor,
    by rw [mk _ (by omega)]; exact h.chain, by rw [mk _ (by omega)]; exact h.behind,
    by rw [mk _ (by omega)]; exact h.attention, by rw [mk _ (by omega)]; exact h.service,
    fun u => by
      rw [mk _ (by cases u with
        | sau => simp [unitDirectory]
        | wheel w => cases w <;> simp [unitDirectory])]
      exact h.units u,
    fun b => by rw [mk _ (by cases b <;> simp [bankDirectory, bankNum])]; exact h.banks b⟩

/-- A write of bytes that are neither the host's nor the header's. -/
def freeByte (b : Nat) : Bool := !hostByte b && !recordByte b && !mirrorByte b

/-- A write of a section that lies wholly in free bytes. -/
theorem put_keeps_of (h : Keeps full a s) {x : Nat} {ws : List Word} (n : Nat) (hn : ws.length ≤ n)
    (hx : ∀ b, x ≤ b → b < x + 2 * n → freeByte b = true) : Keeps full a (put x ws s) := by
  have k : ∀ b, x ≤ b → b < x + 2 * ws.length →
      hostByte b = false ∧ recordByte b = false ∧ mirrorByte b = false := by
    intro b h1 h2
    have := hx b h1 (by omega)
    simp [freeByte] at this
    exact ⟨this.1.1, this.1.2, this.2⟩
  refine h.trans ⟨{ }, store_wf, fun _ b hb => byte_store_outside ?_,
    fun _ _ b hb => byte_store_outside ?_, fun _ _ hs => put_shown hs fun b h1 h2 => (k b h1 h2).2.2⟩
  all_goals
    by_contra hc
    have := k b (by omega) (by omega)
    simp [hb] at this

/-- The status region is free. -/
theorem freeByte_status {b : Nat} (h : 0x2000 ≤ b) : freeByte b = true := by
  unfold freeByte hostByte recordByte mirrorByte
  simp only [Bool.and_eq_true, Bool.not_eq_true', Bool.or_eq_false_iff, decide_eq_false_iff_not]
  omega

/-- A write in the status region. -/
theorem put_keeps_status (h : Keeps full a s) {x : Nat} {ws : List Word} (hx : 0x2000 ≤ x) :
    Keeps full a (put x ws s) :=
  put_keeps_of h ws.length (Nat.le_refl _) fun _ hb _ => freeByte_status (by omega)

/-- The images are free. -/
theorem freeByte_image {b : Nat} (h : 0x1800 ≤ b) (h' : b < 0x1CE0) : freeByte b = true := by
  unfold freeByte hostByte recordByte mirrorByte
  simp only [Bool.and_eq_true, Bool.not_eq_true', Bool.or_eq_false_iff, decide_eq_false_iff_not]
  omega

/-- The configuration result is free. -/
theorem freeByte_result {b : Nat} (h : 0x0018 ≤ b) (h' : b < 0x001C) : freeByte b = true := by
  unfold freeByte hostByte recordByte mirrorByte
  simp only [Bool.and_eq_true, Bool.not_eq_true', Bool.or_eq_false_iff, decide_eq_false_iff_not]
  omega

/-- The state, result, detail and stamps of an order cell are free. -/
theorem freeByte_cell {b : Nat} {cell : BitVec 6} (h : cellBase cell ≤ b)
    (h' : b < cellBase cell + 0x3A) (h'' : b < cellBase cell + 2 ∨ cellBase cell + 0x20 ≤ b) :
    freeByte b = true := by
  have hc := cell.isLt
  unfold cellBase at h h' h''
  unfold freeByte hostByte recordByte mirrorByte
  simp only [Bool.and_eq_true, Bool.not_eq_true', Bool.or_eq_false_iff, decide_eq_false_iff_not]
  omega

/-- The taken stamp and the anomaly mark of a page are free. -/
theorem freeByte_page {b : Nat} {selector : Word} (h : pageBase selector + 0x18 ≤ b)
    (h' : b < pageBase selector + 0x1E) : freeByte b = true := by
  unfold pageBase at h h'
  unfold freeByte hostByte recordByte mirrorByte
  simp only [Bool.and_eq_true, Bool.not_eq_true', Bool.or_eq_false_iff, decide_eq_false_iff_not]
  split at h <;> simp_all <;> omega

/-- A write of a section of a status block that is placed. -/
theorem putBlock_keeps (h : Keeps full a s) {block : Option Nat} {offset : Nat} {ws : List Word}
    (hb : s.wlc.placed → blockOk block) : Keeps full a (putBlock block offset ws s) := by
  cases block with
  | none => exact h
  | some base =>
    have free : s.wlc.placed → ∀ b, base + offset ≤ b → freeByte b = true := fun p b h1 => by
      have h2 : 0x2100 ≤ base := hb p base rfl
      exact freeByte_status (by omega)
    refine h.trans ⟨{ }, store_wf, fun p x hx => byte_store_outside ?_,
      fun _ p x hx => byte_store_outside ?_, fun _ p hs => put_shown hs fun b h1 _ => ?_⟩
    · by_contra hc
      have := free p x (by omega)
      simp [freeByte, hx] at this
    · by_contra hc
      have := free p x (by omega)
      simp [freeByte, hx] at this
    · have := free p b h1
      simp [freeByte] at this
      exact this.2

/-- A write of a header field together with the change of the state that it shows. -/
theorem mirror_keeps {t : State} (h : Keeps full a s) {x : Nat} {ws : List Word}
    (k : KeepsBlocks s t) (hm : t.xm = s.xm) (hx : x + 2 * ws.length ≤ 0x0046)
    (hy : 0x0018 ≤ x ∨ 0x000C ≤ x ∧ x + 2 * ws.length ≤ 0x0012)
    (hs : s.headerShown → (put x ws t).headerShown) : Keeps full a (put x ws t) := by
  have free : ∀ b, x ≤ b → b < x + 2 * ws.length → hostByte b = false ∧ recordByte b = false := by
    intro b h1 h2
    unfold hostByte recordByte
    simp only [Bool.or_eq_false_iff, decide_eq_false_iff_not]
    omega
  refine h.trans ⟨⟨k.atc, k.pru, k.lmu, k.demand, k.rgc, k.stc, k.placed⟩,
    fun w => store_wf (by rw [hm]; exact w), fun _ b hb => ?_, fun _ _ b hb => ?_, fun _ _ => hs⟩
  all_goals
    rw [← hm]
    refine byte_store_outside ?_
    by_contra hc
    have := free b (by omega) (by omega)
    simp [hb] at this

/-- A write of the header at start-up. -/
theorem put_keeps_header (h : Keeps false a s) {x : Nat} {ws : List Word} (hx : x + 2 * ws.length ≤ 0x0100)
    (hy : x + 2 * ws.length ≤ 6 ∨ 10 ≤ x) : Keeps false a (put x ws s) := by
  refine h.trans ⟨{ }, store_wf, fun _ b hb => byte_store_outside ?_,
    fun f => absurd f (by simp), fun f => absurd f (by simp)⟩
  unfold hostByte at hb
  simp only [Bool.or_eq_true, decide_eq_true_eq] at hb
  omega

/-! ### Header fields written with the state that they show -/

theorem unitDirectory_bounds (u : UnitId) : 0x0030 ≤ unitDirectory u ∧ unitDirectory u ≤ 0x0038 := by
  cases u with
  | sau => simp [unitDirectory]
  | wheel w => cases w <;> simp [unitDirectory]

theorem bankDirectory_bounds (b : Bank) : 0x003A ≤ bankDirectory b ∧ bankDirectory b ≤ 0x0044 := by
  cases b <;> simp [bankDirectory, bankNum]

/-- A write below the directories leaves them. -/
theorem put_directories {t : State} {x : Nat} {ws : List Word} (hx : x + 2 * ws.length ≤ 0x0030)
    (hm : t.xm = s.xm) (hw : t.wlc = s.wlc) (h : s.headerShown) :
    (∀ u, (put x ws t).word (unitDirectory u) = directoryWord (t.wlc.unit u).block) ∧
      ∀ b, (put x ws t).word (bankDirectory b) = directoryWord (t.wlc.bankBlock.get b) := by
  have hword : ∀ y, t.word y = s.word y := fun y => by unfold State.word; rw [hm]
  refine ⟨fun u => ?_, fun b => ?_⟩
  · have := unitDirectory_bounds u
    rw [put_word_outside (by omega), hword, hw, h.units]
  · have := bankDirectory_bounds b
    rw [put_word_outside (by omega), hword, hw, h.banks]

theorem shown_pending (h : s.headerShown) (p : BitVec 12) :
    (put 0x0022 [p.setWidth 16] (s.setAtc { s.atc with pending := p })).headerShown := by
  have hd := put_directories (s := s) (x := 0x0022) (ws := [p.setWidth 16]) (by simp)
    (t := s.setAtc { s.atc with pending := p }) rfl rfl h
  have hw := put_word (s := s.setAtc { s.atc with pending := p }) (a := 0x0022)
    (ws := [p.setWidth 16]) (i := 0) (by simp)
  have ho : ∀ y, y + 2 ≤ 0x0022 ∨ 0x0024 ≤ y →
      (put 0x0022 [p.setWidth 16] (s.setAtc { s.atc with pending := p })).word y = s.word y :=
    fun y hy => put_word_outside (by simpa using hy)
  exact ⟨(ho _ (by omega)).trans h.clockLow, (ho _ (by omega)).trans h.clockHigh,
    (ho _ (by omega)).trans h.mode, (ho _ (by omega)).trans h.cursor, (ho _ (by omega)).trans h.chain,
    (ho _ (by omega)).trans h.behind, hw, (ho _ (by omega)).trans h.service, hd.1, hd.2⟩

theorem shown_service (h : s.headerShown) (i : BitVec 12) :
    (put 0x0024 [i.setWidth 16] (s.setAtc { s.atc with inService := i })).headerShown := by
  have hd := put_directories (s := s) (x := 0x0024) (ws := [i.setWidth 16]) (by simp)
    (t := s.setAtc { s.atc with inService := i }) rfl rfl h
  have hw := put_word (s := s.setAtc { s.atc with inService := i }) (a := 0x0024)
    (ws := [i.setWidth 16]) (i := 0) (by simp)
  have ho : ∀ y, y + 2 ≤ 0x0024 ∨ 0x0026 ≤ y →
      (put 0x0024 [i.setWidth 16] (s.setAtc { s.atc with inService := i })).word y = s.word y :=
    fun y hy => put_word_outside (by simpa using hy)
  exact ⟨(ho _ (by omega)).trans h.clockLow, (ho _ (by omega)).trans h.clockHigh,
    (ho _ (by omega)).trans h.mode, (ho _ (by omega)).trans h.cursor, (ho _ (by omega)).trans h.chain,
    (ho _ (by omega)).trans h.behind, (ho _ (by omega)).trans h.attention, hw, hd.1, hd.2⟩

theorem shown_chain (h : s.headerShown) (o : Ore) :
    (put 0x001C [natWord o.cursor.toNat, o.chain.code, boolWord o.behind] (s.setOre o)).headerShown := by
  have hd := put_directories (s := s) (x := 0x001C)
    (ws := [natWord o.cursor.toNat, o.chain.code, boolWord o.behind]) (by simp)
    (t := s.setOre o) rfl rfl h
  have hw : ∀ i (hi : i < 3), _ := fun i hi => put_word (s := s.setOre o) (a := 0x001C)
    (ws := [natWord o.cursor.toNat, o.chain.code, boolWord o.behind]) (i := i) (by simpa using hi)
  have ho : ∀ y, y + 2 ≤ 0x001C ∨ 0x0022 ≤ y →
      (put 0x001C [natWord o.cursor.toNat, o.chain.code, boolWord o.behind] (s.setOre o)).word y =
        s.word y :=
    fun y hy => put_word_outside (by simpa using hy)
  exact ⟨(ho _ (by omega)).trans h.clockLow, (ho _ (by omega)).trans h.clockHigh,
    (ho _ (by omega)).trans h.mode, hw 0 (by omega), hw 1 (by omega), hw 2 (by omega),
    (ho _ (by omega)).trans h.attention, (ho _ (by omega)).trans h.service, hd.1, hd.2⟩

theorem shown_mode (h : s.headerShown) (d : Dmc) :
    (put 0x0010 [d.mode.code] (s.setDmc d)).headerShown := by
  have hd := put_directories (s := s) (x := 0x0010) (ws := [d.mode.code]) (by simp) (t := s.setDmc d) rfl rfl h
  have hw := put_word (s := s.setDmc d) (a := 0x0010) (ws := [d.mode.code]) (i := 0) (by simp)
  have ho : ∀ y, y + 2 ≤ 0x0010 ∨ 0x0012 ≤ y →
      (put 0x0010 [d.mode.code] (s.setDmc d)).word y = s.word y :=
    fun y hy => put_word_outside (by simpa using hy)
  exact ⟨(ho _ (by omega)).trans h.clockLow, (ho _ (by omega)).trans h.clockHigh, hw,
    (ho _ (by omega)).trans h.cursor, (ho _ (by omega)).trans h.chain, (ho _ (by omega)).trans h.behind,
    (ho _ (by omega)).trans h.attention, (ho _ (by omega)).trans h.service, hd.1, hd.2⟩

theorem shown_unit (h : s.headerShown) (u : UnitId) (r : UnitRec) (n : Nat) (v : Wlc)
    (hr : r.block = some n) (hv : ∀ x, (v.unit x).block = if x = u then r.block else (s.wlc.unit x).block)
    (hb : v.bankBlock = s.wlc.bankBlock) :
    (put (unitDirectory u) [natWord n] (s.setWlc v)).headerShown := by
  have hu := unitDirectory_bounds u
  have hw := put_word (s := s.setWlc v) (a := unitDirectory u) (ws := [natWord n]) (i := 0) (by simp)
  have ho : ∀ y, y + 2 ≤ unitDirectory u ∨ unitDirectory u + 2 ≤ y →
      (put (unitDirectory u) [natWord n] (s.setWlc v)).word y = s.word y :=
    fun y hy => put_word_outside (by simpa using hy)
  refine ⟨(ho _ (by omega)).trans h.clockLow, (ho _ (by omega)).trans h.clockHigh,
    (ho _ (by omega)).trans h.mode, (ho _ (by omega)).trans h.cursor, (ho _ (by omega)).trans h.chain,
    (ho _ (by omega)).trans h.behind, (ho _ (by omega)).trans h.attention,
    (ho _ (by omega)).trans h.service, fun x => ?_, fun b => ?_⟩
  · show _ = directoryWord (v.unit x).block
    rw [hv]
    by_cases hx : x = u
    · subst hx
      rw [if_pos rfl, hr]
      exact hw
    · rw [if_neg hx, ← h.units]
      refine ho _ ?_
      cases u with
      | sau =>
        cases x with
        | sau => exact absurd rfl hx
        | wheel w => cases w <;> simp [unitDirectory]
      | wheel y =>
        cases x with
        | sau => cases y <;> simp [unitDirectory]
        | wheel w => cases y <;> cases w <;> simp [unitDirectory] <;> exact absurd rfl hx
  · show _ = directoryWord (v.bankBlock.get b)
    have := bankDirectory_bounds b
    rw [hb, ← h.banks]
    exact ho _ (by omega)

theorem shown_bank (h : s.headerShown) (b : Bank) (n : Nat) (v : Wlc)
    (hu : ∀ x, (v.unit x).block = (s.wlc.unit x).block)
    (hb : v.bankBlock = s.wlc.bankBlock.set b (some n)) :
    (put (bankDirectory b) [natWord n] (s.setWlc v)).headerShown := by
  have hbd := bankDirectory_bounds b
  have hw := put_word (s := s.setWlc v) (a := bankDirectory b) (ws := [natWord n]) (i := 0) (by simp)
  have ho : ∀ y, y + 2 ≤ bankDirectory b ∨ bankDirectory b + 2 ≤ y →
      (put (bankDirectory b) [natWord n] (s.setWlc v)).word y = s.word y :=
    fun y hy => put_word_outside (by simpa using hy)
  refine ⟨(ho _ (by omega)).trans h.clockLow, (ho _ (by omega)).trans h.clockHigh,
    (ho _ (by omega)).trans h.mode, (ho _ (by omega)).trans h.cursor, (ho _ (by omega)).trans h.chain,
    (ho _ (by omega)).trans h.behind, (ho _ (by omega)).trans h.attention,
    (ho _ (by omega)).trans h.service, fun x => ?_, fun c => ?_⟩
  · show _ = directoryWord (v.unit x).block
    have := unitDirectory_bounds x
    rw [hu, ← h.units]
    exact ho _ (by omega)
  · show _ = directoryWord (v.bankBlock.get c)
    rw [hb, PerBank_get_set]
    by_cases hc : c = b
    · subst hc
      rw [if_pos rfl]
      exact hw
    · rw [if_neg hc, ← h.banks]
      refine ho _ ?_
      cases b <;> cases c <;> simp [bankDirectory, bankNum] <;> exact absurd rfl hc

theorem placed_unit {l : Wlc} (h : l.placed) (u : UnitId) : blockOk (l.unit u).block := h.2.1 u

theorem placed_wheel {l : Wlc} (h : l.placed) (w : Wheel) : blockOk (l.wheels.get w).block :=
  h.2.1 (.wheel w)

theorem placed_sau {l : Wlc} (h : l.placed) : blockOk l.sau.block := h.2.1 .sau

theorem placed_bank {l : Wlc} (h : l.placed) (b : Bank) : blockOk (l.bankBlock.get b) := h.2.2 b

end Sys2Proof.Machine
end

