-- ==== Sys2Proof/Laws/KeepsTable.lean ====
section
/-! SUPPORT. What the operations of the orders, the attention classes and the fault table keep: the invariants of Safety.lean and
the host's bytes. -/

namespace Sys2Proof.Machine

variable {full : Bool} {a s : State}

theorem raise_keeps (h : Keeps full a s) (c : Cls) : Keeps full a (raise c s) := by
  simp only [raise, putPendingMirror]
  split
  · exact h
  · exact mirror_keeps (t := s.setAtc { s.atc with pending := s.atc.pending ||| c.bit }) h
      { } rfl (by simp) (by simp) fun k => shown_pending k _

theorem raiseIf_keeps (h : Keeps full a s) (b : Bool) (c : Cls) : Keeps full a (raiseIf b c s) := by
  simp only [raiseIf]
  with_reducible
    repeat' first
      | exact h | rfl | apply raise_keeps | split

theorem endService_keeps (h : Keeps full a s) (c : Cls) : Keeps full a (endService c s) := by
  simp only [endService, putServiceMirror]
  split
  · exact mirror_keeps (t := s.setAtc { s.atc with inService := s.atc.inService &&& ~~~c.bit }) h
      { } rfl (by simp) (by simp) fun k => shown_service k _
  · exact h

theorem presentClass_keeps (h : Keeps full a s) (c : Cls) : Keeps full a (presentClass c s) := by
  have h1 : Keeps full a (put 0x0022 [(s.atc.pending &&& ~~~c.bit).setWidth 16]
      (s.setAtc { s.atc with pending := s.atc.pending &&& ~~~c.bit })) :=
    mirror_keeps h { } rfl (by simp) (by simp) fun k => shown_pending k _
  have h2 := mirror_keeps (x := 0x0024) (ws := [(s.atc.inService ||| c.bit).setWidth 16]) h1
    (t := (put 0x0022 [(s.atc.pending &&& ~~~c.bit).setWidth 16]
      (s.setAtc { s.atc with pending := s.atc.pending &&& ~~~c.bit })).setAtc
        { (s.setAtc { s.atc with pending := s.atc.pending &&& ~~~c.bit }).atc with
          inService := s.atc.inService ||| c.bit })
    { } rfl (by simp) (by simp) fun k => shown_service k _
  exact setHostData_keeps h2 _

theorem poll_keeps (h : Keeps full a s) : Keeps full a (poll s) := by
  unfold poll
  generalize Atc.mostUrgent _ _ _ = o
  cases o with
  | none => exact setHostData_keeps h _
  | some c => exact presentClass_keeps h c

theorem endSpecific_keeps (h : Keeps full a s) (n : BitVec 4) : Keeps full a (endSpecific n s) := by
  unfold endSpecific
  generalize allClasses.find? _ = o
  cases o with
  | none => exact h
  | some c => exact endService_keeps h c

theorem endNonSpecific_keeps (h : Keeps full a s) : Keeps full a (endNonSpecific s) := by
  unfold endNonSpecific
  generalize Atc.mostUrgent _ _ _ = o
  cases o with
  | none => exact h
  | some c => exact endService_keeps h c

theorem writeMask_keeps (h : Keeps full a s) (value : Word) : Keeps full a (writeMask value s) := by
  simp only [writeMask]
  with_reducible
    repeat' first
      | exact h | rfl | apply setAtc_keeps_same

theorem writeThreshold_keeps (h : Keeps full a s) (value : Word) :
    Keeps full a (writeThreshold value s) :=
  setAtc_keeps h (fun _ => Nat.min_le_right _ _) rfl rfl

theorem applyPriorities_keeps (h : Keeps full a s) : Keeps full a (applyPriorities s) := by
  simp only [applyPriorities]
  with_reducible
    repeat' first
      | exact h | rfl | apply setAtc_keeps_same

theorem writeEnd_keeps (h : Keeps full a s) (cell : BitVec 6) (r : Result) (detail : List Word) :
    Keeps full a (writeEnd cell r detail s) := by
  simp only [writeEnd]
  refine put_keeps_of (put_keeps_of (put_keeps_of h 9 (by simp [detailWords]) fun b h1 h2 =>
    freeByte_cell (cell := cell) (by omega) (by omega) (by omega)) 2 (by simp [longWords])
    fun b h1 h2 => freeByte_cell (cell := cell) (by omega) (by omega) (by omega)) 1 (by simp)
    fun b h1 h2 => freeByte_cell (cell := cell) (by omega) (by omega) (by omega)

theorem endCell_keeps (h : Keeps full a s) (cell : BitVec 6) (r : Result) (detail : List Word) :
    Keeps full a (endCell cell r detail s) := by
  simp only [endCell]
  with_reducible
    repeat' first
      | exact h | rfl | apply raise_keeps | apply writeEnd_keeps

theorem endBadArgument_keeps (h : Keeps full a s) (cell : BitVec 6) (offset : Word) :
    Keeps full a (endBadArgument cell offset s) := by
  simp only [endBadArgument]
  with_reducible
    repeat' first
      | exact h | rfl | apply endCell_keeps

theorem freeResource_keeps (h : Keeps full a s) (r : Resource) : Keeps full a (freeResource r s) := by
  simp only [freeResource]
  with_reducible
    repeat' first
      | exact h | rfl | apply setOre_keeps | simp

theorem complete_keeps (h : Keeps full a s) (r : Resource) (cell : BitVec 6) (result : Result) (detail : List Word) :
    Keeps full a (complete r cell result detail s) := by
  simp only [complete]
  with_reducible
    repeat' first
      | exact h | rfl | apply raise_keeps | apply writeEnd_keeps | apply freeResource_keeps | split

theorem setChain_keeps (h : Keeps full a s) (o : Ore) : Keeps full a (setChain o s) := by
  simp only [setChain]
  split
  case isTrue hk => exact setOre_keeps h hk.1 hk.2.1 hk.2.2
  case isFalse hk =>
    exact mirror_keeps (t := s.setOre o) h { } rfl (by simp) (by simp)
      fun k => shown_chain k o

theorem restartChain_keeps (h : Keeps full a s) (index : BitVec 7) :
    Keeps full a (restartChain index s) := by
  simp only [restartChain]
  with_reducible
    repeat' first
      | exact h | rfl | apply setChain_keeps | split

theorem foldl_writeEnd_keeps (h : Keeps full a s) (l : List Nat) : Keeps full a (l.foldl (fun s n => writeEnd (BitVec.ofNat 6 n) .interrupted [] s) s) := by
  induction l generalizing s with
  | nil => exact h
  | cons n l ih => exact ih (writeEnd_keeps h _ _ _)

theorem visitTaken_keeps (h : Keeps full a s) : Keeps full a (visitTaken s) := by
  simp only [visitTaken]
  with_reducible
    repeat' first
      | exact h | rfl | apply raiseIf_keeps | apply writeEnd_keeps | apply foldl_writeEnd_keeps

/-- The fault table image and the summary place fill 48 places (R184). -/
theorem image_length (p : Pru) (clock : Long) : (p.image clock).length = 384 := by
  unfold Pru.image
  rw [List.length_append, List.length_take, List.length_append, List.length_replicate]
  simp only [Pru.summaryWords, longWords, List.length_append, List.length_cons, List.length_nil]
  omega

theorem putFaultImage_keeps (h : Keeps full a s) : Keeps full a (putFaultImage s) :=
  put_keeps_of h 384 (Nat.le_of_eq (image_length _ _))
    fun b h1 h2 => freeByte_image (by omega) (by omega)

theorem updatePru_keeps (h : Keeps full a s) {p : Pru} (hp : s.pru.ok → p.ok) :
    Keeps full a (updatePru p s) := by
  simp only [updatePru]
  split
  · exact setPru_keeps h hp
  · exact putFaultImage_keeps (setPru_keeps h hp)

theorem updatePru_keeps_same (h : Keeps full a s) {p : Pru} (hp : p.entries = s.pru.entries) :
    Keeps full a (updatePru p s) :=
  updatePru_keeps h fun k => by unfold Pru.ok; rw [hp]; exact k

theorem observeEntries_mem {c : Params} {clock : Long} {k : Kind} {subject : Subject} {present : Bool}
    {es : List Entry} {f : Entry}
    (hf : f ∈ (observeEntries c clock k subject present es).1) :
    (∃ e ∈ es, f.kind = e.kind ∧ f.subject = e.subject) ∨ (f.kind = k ∧ f.subject = subject) := by
  induction es with
  | nil =>
    cases present <;> simp [observeEntries] at hf
    subst hf
    right
    simp only [Entry.fresh]
    split <;> simp [Entry.activate]
  | cons e es ih =>
    simp only [observeEntries] at hf
    split at hf
    case isTrue hk =>
      have key : f ∈ es ∨ (f.kind = e.kind ∧ f.subject = e.subject) := by
        cases present
        · simp only [Bool.false_eq_true, if_false, List.mem_append, Option.mem_toList] at hf
          rcases hf with hf | hf
          · right
            simp only [Entry.seeAbsent] at hf
            split at hf
            · simp at hf
            · split at hf <;> simp at hf <;> subst hf <;> simp [Entry.move]
            · simp at hf; subst hf; simp
            · simp at hf; subst hf; simp
          · exact Or.inl hf
        · simp only [if_true, List.mem_cons] at hf
          rcases hf with hf | hf
          · right
            subst hf
            simp only [Entry.seePresent]
            split <;> (try split) <;> simp [Entry.activate]
          · exact Or.inl hf
      rcases key with hm | hm
      · exact Or.inl ⟨f, by simp [hm], rfl, rfl⟩
      · exact Or.inl ⟨e, by simp, hm⟩
    case isFalse hk =>
      simp only [List.mem_cons] at hf
      rcases hf with hf | hf
      · exact Or.inl ⟨e, by simp, by simp [hf]⟩
      · exact exists_cons (ih hf)

/-- One observation leaves at most one entry for each pair (R176). -/
theorem observeEntries_ok {c : Params} {clock : Long} {k : Kind} {subject : Subject} {present : Bool}
    {es : List Entry} (h : es.Pairwise Entry.differs) :
    (observeEntries c clock k subject present es).1.Pairwise Entry.differs := by
  induction es with
  | nil => cases present <;> simp [observeEntries]
  | cons e es ih =>
    obtain ⟨h1, h2⟩ := List.pairwise_cons.1 h
    simp only [observeEntries]
    split
    case isTrue hk =>
      cases present
      · simp only [Bool.false_eq_true, if_false]
        refine List.pairwise_append.2 ⟨?_, h2, ?_⟩
        · cases (Entry.seeAbsent c clock e).1 <;> simp
        · intro f hf g hg
          simp only [Option.mem_toList] at hf
          have : f.kind = e.kind ∧ f.subject = e.subject := by
            simp only [Entry.seeAbsent] at hf
            split at hf
            · simp at hf
            · split at hf <;> simp at hf <;> subst hf <;> simp [Entry.move]
            · simp at hf; subst hf; simp
            · simp at hf; subst hf; simp
          have h3 := h1 g hg
          unfold Entry.differs at h3 ⊢
          rw [this.1, this.2]
          exact h3
      · simp only [if_true]
        refine List.pairwise_cons.2 ⟨?_, h2⟩
        intro g hg
        have : (e.seePresent clock).1.kind = e.kind ∧ (e.seePresent clock).1.subject = e.subject := by
          simp only [Entry.seePresent]
          split <;> (try split) <;> simp [Entry.activate]
        have h3 := h1 g hg
        unfold Entry.differs at h3 ⊢
        rw [this.1, this.2]
        exact h3
    case isFalse hk =>
      refine List.pairwise_cons.2 ⟨?_, ih h2⟩
      intro g hg
      unfold Entry.differs
      rcases observeEntries_mem hg with ⟨e', he', h'⟩ | h'
      · have h3 := h1 e' he'
        unfold Entry.differs at h3
        rw [h'.1, h'.2]
        exact h3
      · rw [h'.1, h'.2]
        exact hk

/-- A table whose entries are altered one by one, their pairs kept, and some of them dropped, holds at
most one entry for each pair. -/
theorem map_entries_ok {es : List Entry} {f : Entry → Entry}
    (hf : ∀ e, (f e).kind = e.kind ∧ (f e).subject = e.subject) (h : es.Pairwise Entry.differs) :
    (es.map f).Pairwise Entry.differs := by
  refine List.pairwise_map.2 (h.imp ?_)
  intro e g k
  unfold Entry.differs at k ⊢
  rw [(hf e).1, (hf e).2, (hf g).1, (hf g).2]
  exact k

theorem note_keeps (h : Keeps full a s) (k : Kind) (subject : Subject) (present : Bool) :
    Keeps full a (note k subject present s) := by
  simp only [note]
  refine raiseIf_keeps (updatePru_keeps h fun k => ?_) _ _
  exact observeEntries_ok k

theorem noteIf_keeps (h : Keeps full a s) (b : Bool) (k : Kind) (subject : Subject) (present : Bool) :
    Keeps full a (noteIf b k subject present s) := by
  simp only [noteIf]
  with_reducible
    repeat' first
      | exact h | rfl | apply note_keeps | split

theorem reportLoss_keeps (h : Keeps full a s) (u : UnitId) (present : Bool) :
    Keeps full a (reportLoss u present s) := by
  simp only [reportLoss]
  with_reducible
    repeat' first
      | exact h | rfl | apply note_keeps | apply setPru_keeps_same | split

theorem clearProgressOf_keeps (h : Keeps full a s) (k : Kind) :
    Keeps full a (clearProgressOf k s) := by
  simp only [clearProgressOf]
  refine updatePru_keeps h fun k => ?_
  exact map_entries_ok (fun e => by split <;> simp) k

theorem noteOvervolt_keeps (h : Keeps full a s) (vF : Nat) : Keeps full a (noteOvervolt vF s) := by
  simp only [noteOvervolt]
  with_reducible
    repeat' first
      | exact h | rfl | apply note_keeps | apply clearProgressOf_keeps | split

theorem observeEscalation_keeps (h : Keeps full a s) : Keeps full a (observeEscalation s) := by
  simp only [observeEscalation]
  with_reducible
    repeat' first
      | exact h | rfl | apply note_keeps

theorem rewriteActions_keeps (h : Keeps full a s) : Keeps full a (rewriteActions s) := by
  simp only [rewriteActions]
  refine raiseIf_keeps (updatePru_keeps h fun k => ?_) _ _
  exact map_entries_ok (fun e => by unfold Entry.rewriteAction; split <;> simp) k

theorem changeStopMode_keeps (h : Keeps full a s) : Keeps full a (changeStopMode s) := by
  simp only [changeStopMode]
  with_reducible
    repeat' first
      | exact h | rfl | apply updatePru_keeps_same

end Sys2Proof.Machine
end

