-- ==== Sys2Proof/Laws/KeepsDrive.lean ====
section
/-! SUPPORT. What the operations of the traction, load model and steering blocks keep: the invariants of Safety.lean and
the host's bytes. -/

namespace Sys2Proof.Machine

variable {full : Bool} {a s : State}

theorem setTcuWheel_keeps (h : Keeps full a s) (w : Wheel) (t : TcuWheel) :
    Keeps full a (setTcuWheel w t s) := by
  simp only [setTcuWheel]
  with_reducible
    repeat' first
      | exact h | rfl | apply setTcu_keeps

theorem putTcuSection_keeps (h : Keeps full a s) : Keeps full a (putTcuSection s) :=
  put_keeps_status h (by decide)

theorem putTraction_keeps (h : Keeps full a s) (w : Wheel) : Keeps full a (putTraction w s) :=
  putBlock_keeps h fun p => placed_wheel p w

theorem setVRef_keeps (h : Keeps full a s) (v : Option Nat) : Keeps full a (setVRef v s) := by
  simp only [setVRef]
  with_reducible
    repeat' first
      | exact h | rfl | apply setTcu_keeps

theorem recomputeVRef_keeps (h : Keeps full a s) : Keeps full a (recomputeVRef s) := by
  simp only [recomputeVRef]
  with_reducible
    repeat' first
      | exact h | rfl | apply setVRef_keeps | split

theorem judgeQuality_keeps (h : Keeps full a s) : Keeps full a (judgeQuality s) := by
  simp only [judgeQuality]
  with_reducible
    repeat' first
      | exact h | rfl | apply raise_keeps | apply recomputeVRef_keeps | apply setTcu_keeps | split

theorem recomputeIn_keeps (h : Keeps full a s) (q : Quality) : Keeps full a (recomputeIn q s) := by
  simp only [recomputeIn]
  with_reducible
    repeat' first
      | exact h | rfl | apply recomputeVRef_keeps | split

theorem noteChange_keeps (h : Keeps full a s) (k : Kind) (subject : Subject) (before after : Bool) :
    Keeps full a (noteChange k subject before after s) := by
  simp only [noteChange]
  with_reducible
    repeat' first
      | exact h | rfl | apply noteIf_keeps

theorem takeSpeed_keeps (h : Keeps full a s) (w : Wheel) : Keeps full a (takeSpeed w s) := by
  simp only [takeSpeed]
  with_reducible
    repeat' first
      | exact h | rfl | apply setTcuWheel_keeps | apply noteChange_keeps

theorem judgeSlip_keeps (h : Keeps full a s) (w : Wheel) : Keeps full a (judgeSlip w s) := by
  simp only [judgeSlip]
  with_reducible
    repeat' first
      | exact h | rfl | apply setTcuWheel_keeps | apply noteChange_keeps

theorem tcuReport_keeps (h : Keeps full a s) (w : Wheel) : Keeps full a (tcuReport w s) := by
  simp only [tcuReport, runAll]
  with_reducible
    repeat' first
      | exact h | rfl | apply putTcuSection_keeps | apply putTraction_keeps
      | apply judgeQuality_keeps | apply recomputeIn_keeps | apply takeSpeed_keeps
      | apply judgeSlip_keeps

theorem tcuSteerReport_keeps (h : Keeps full a s) : Keeps full a (tcuSteerReport s) := by
  simp only [tcuSteerReport, runAll]
  with_reducible
    repeat' first
      | exact h | rfl | apply putTcuSection_keeps | apply judgeQuality_keeps
      | apply recomputeIn_keeps | split

theorem tcuPage_keeps (h : Keeps full a s) : Keeps full a (tcuPage s) := by
  simp only [tcuPage, runAll]
  with_reducible
    repeat' first
      | exact h | rfl | apply putTcuSection_keeps | apply judgeQuality_keeps
      | apply recomputeIn_keeps

theorem alterWheel_keeps (h : Keeps full a s) (w : Wheel) (t : TcuWheel) :
    Keeps full a (alterWheel w t s) := by
  simp only [alterWheel]
  with_reducible
    repeat' first
      | exact h | rfl | apply setTcuWheel_keeps | apply putTraction_keeps | split

theorem tcuSubstateChange_keeps (h : Keeps full a s) : Keeps full a (tcuSubstateChange s) := by
  simp only [tcuSubstateChange, runAll, forWheels]
  with_reducible
    repeat' first
      | exact h | rfl | apply putTcuSection_keeps | apply judgeQuality_keeps
      | apply recomputeIn_keeps | apply alterWheel_keeps

theorem excludeAtTcu_keeps (h : Keeps full a s) (w : Wheel) : Keeps full a (excludeAtTcu w s) := by
  simp only [excludeAtTcu]
  with_reducible
    repeat' first
      | exact h | rfl | apply noteIf_keeps | apply alterWheel_keeps

theorem tcuExclusion_keeps (h : Keeps full a s) (before : PerWheel Bool) :
    Keeps full a (tcuExclusion before s) := by
  simp only [tcuExclusion, runAll, forWheels]
  with_reducible
    repeat' first
      | exact h | rfl | apply putTcuSection_keeps | apply judgeQuality_keeps
      | apply recomputeIn_keeps | apply excludeAtTcu_keeps | split

theorem putDerateImage_keeps (h : Keeps full a s) : Keeps full a (putDerateImage s) :=
  put_keeps_of h 192 (by unfold derateImage; rw [List.length_take]; omega)
    fun b h1 h2 => freeByte_image (by omega) (by omega)

theorem postEntry_mem {clock : Long} {source : DSource} {target : DTarget} {factor : Nat}
    {ds : List Derate} {f : Derate} (hf : f ∈ (postEntry clock source target factor ds).1) :
    (∃ d ∈ ds, f.source = d.source ∧ f.target = d.target) ∨ (f.source = source ∧ f.target = target) := by
  induction ds with
  | nil =>
    simp only [postEntry] at hf
    split at hf <;> simp at hf
    subst hf; simp
  | cons d ds ih =>
    simp only [postEntry] at hf
    split at hf
    · split at hf
      · exact Or.inl ⟨f, by simp [hf], rfl, rfl⟩
      · split at hf
        · exact Or.inl ⟨f, hf, rfl, rfl⟩
        · simp only [List.mem_cons] at hf
          rcases hf with hf | hf
          · subst hf; exact Or.inl ⟨d, by simp, rfl, rfl⟩
          · exact Or.inl ⟨f, by simp [hf], rfl, rfl⟩
    · simp only [List.mem_cons] at hf
      rcases hf with hf | hf
      · exact Or.inl ⟨d, by simp, by simp [hf]⟩
      · exact exists_cons (ih hf)

/-- A post leaves at most one derate for each pair, each with a factor below 1000 (R171). -/
theorem postEntry_ok {clock : Long} {source : DSource} {target : DTarget} {factor : Nat}
    {ds : List Derate} (h : ds.Pairwise Derate.differs ∧ ∀ d ∈ ds, d.factor < 1000) :
    (postEntry clock source target factor ds).1.Pairwise Derate.differs ∧
      ∀ d ∈ (postEntry clock source target factor ds).1, d.factor < 1000 := by
  induction ds with
  | nil =>
    simp only [postEntry]
    split <;> simp
    assumption
  | cons d ds ih =>
    obtain ⟨h1, h2⟩ := h
    obtain ⟨h3, h4⟩ := List.pairwise_cons.1 h1
    have h5 : ∀ e ∈ ds, e.factor < 1000 := fun e he => h2 e (by simp [he])
    simp only [postEntry]
    split
    · split
      · exact ⟨h4, h5⟩
      · split
        · exact ⟨h1, h2⟩
        · refine ⟨List.pairwise_cons.2 ⟨fun e he => h3 e he, h4⟩, ?_⟩
          intro e he
          simp only [List.mem_cons] at he
          rcases he with he | he
          · subst he; dsimp only; omega
          · exact h5 e he
    case isFalse hk =>
      obtain ⟨i1, i2⟩ := ih ⟨h4, h5⟩
      refine ⟨List.pairwise_cons.2 ⟨?_, i1⟩, ?_⟩
      · intro e he
        unfold Derate.differs
        rcases postEntry_mem he with ⟨g, hg, h'⟩ | h'
        · have := h3 g hg
          unfold Derate.differs at this
          rw [h'.1, h'.2]; exact this
        · rw [h'.1, h'.2]; exact hk
      · intro e he
        simp only [List.mem_cons] at he
        rcases he with he | he
        · subst he; exact h2 e (by simp)
        · exact i2 e he

theorem post_keeps (h : Keeps full a s) (source : DSource) (target : DTarget) (factor : Nat) :
    Keeps full a (post source target factor s) := by
  simp only [post]
  split
  · exact h
  · refine raiseIf_keeps (putDerateImage_keeps (setLmu_keeps h fun k => ?_)) _ _
    exact postEntry_ok k

theorem putLmuSection_keeps (h : Keeps full a s) : Keeps full a (putLmuSection s) :=
  put_keeps_status h (by decide)

theorem putBankHeat_keeps (h : Keeps full a s) (b : Bank) : Keeps full a (putBankHeat b s) :=
  putBlock_keeps h fun p => placed_bank p b

theorem takeAmbient_keeps (h : Keeps full a s) : Keeps full a (takeAmbient s) := by
  simp only [takeAmbient]
  with_reducible
    repeat' first
      | exact h | rfl | apply setLmu_keeps_same

theorem setBlowerFail_keeps (h : Keeps full a s) : Keeps full a (setBlowerFail s) := by
  simp only [setBlowerFail]
  with_reducible
    repeat' first
      | exact h | rfl | apply note_keeps | apply post_keeps | apply setLmu_keeps_same

theorem clearBlowerFail_keeps (h : Keeps full a s) : Keeps full a (clearBlowerFail s) := by
  simp only [clearBlowerFail]
  with_reducible
    repeat' first
      | exact h | rfl | apply note_keeps | apply post_keeps | apply setLmu_keeps_same

theorem judgeBlower_keeps (h : Keeps full a s) (running : Bool) :
    Keeps full a (judgeBlower running s) := by
  simp only [judgeBlower]
  with_reducible
    repeat' first
      | exact h | rfl | apply setBlowerFail_keeps | apply clearBlowerFail_keeps
      | apply setLmu_keeps_same | split

theorem settleDuty_keeps (h : Keeps full a s) : Keeps full a (settleDuty s) := by
  simp only [settleDuty]
  with_reducible
    repeat' first
      | exact h | rfl | apply setLmu_keeps_same

theorem updateHeat_keeps (h : Keeps full a s) (b : Bank) : Keeps full a (updateHeat b s) := by
  simp only [updateHeat]
  with_reducible
    repeat' first
      | exact h | rfl | apply setLmu_keeps_same | apply setRgc_keeps_same | simp

theorem clearGridHot_keeps (h : Keeps full a s) (b : Bank) : Keeps full a (clearGridHot b s) := by
  simp only [clearGridHot]
  with_reducible
    repeat' first
      | exact h | rfl | apply note_keeps | apply setLmu_keeps_same

theorem judgeGridHot_keeps (h : Keeps full a s) (b : Bank) : Keeps full a (judgeGridHot b s) := by
  simp only [judgeGridHot]
  with_reducible
    repeat' first
      | exact h | rfl | apply note_keeps | apply clearGridHot_keeps | apply setLmu_keeps_same
      | split

theorem dropBank_keeps (h : Keeps full a s) (b : Bank) : Keeps full a (dropBank b s) := by
  simp only [dropBank]
  with_reducible
    repeat' first
      | exact h | rfl | apply noteIf_keeps | apply post_keeps | apply setLmu_keeps_same

theorem sampleBank_keeps (h : Keeps full a s) (b : Bank) : Keeps full a (sampleBank b s) := by
  simp only [sampleBank]
  with_reducible
    repeat' first
      | exact h | rfl | apply post_keeps | apply updateHeat_keeps | apply judgeGridHot_keeps
      | apply dropBank_keeps | split

theorem setWindingHot_keeps (h : Keeps full a s) (w : Wheel) : Keeps full a (setWindingHot w s) := by
  simp only [setWindingHot]
  with_reducible
    repeat' first
      | exact h | rfl | apply note_keeps | apply setLmu_keeps_same

theorem clearWindingHot_keeps (h : Keeps full a s) (w : Wheel) :
    Keeps full a (clearWindingHot w s) := by
  simp only [clearWindingHot]
  with_reducible
    repeat' first
      | exact h | rfl | apply note_keeps | apply setLmu_keeps_same

theorem judgeWinding_keeps (h : Keeps full a s) (w : Wheel) : Keeps full a (judgeWinding w s) := by
  simp only [judgeWinding]
  with_reducible
    repeat' first
      | exact h | rfl | apply setWindingHot_keeps | apply clearWindingHot_keeps
      | apply setLmu_keeps_same | split

theorem dropWheel_keeps (h : Keeps full a s) (w : Wheel) : Keeps full a (dropWheel w s) := by
  simp only [dropWheel]
  with_reducible
    repeat' first
      | exact h | rfl | apply noteIf_keeps | apply post_keeps | apply setLmu_keeps_same

theorem sampleWheel_keeps (h : Keeps full a s) (w : Wheel) : Keeps full a (sampleWheel w s) := by
  simp only [sampleWheel]
  with_reducible
    repeat' first
      | exact h | rfl | apply post_keeps | apply judgeWinding_keeps | apply dropWheel_keeps
      | apply setLmu_keeps_same | split

theorem latchPayload_keeps (h : Keeps full a s) : Keeps full a (latchPayload s) := by
  simp only [latchPayload]
  with_reducible
    repeat' first
      | exact h | rfl | apply setLmu_keeps_same | split

theorem countStandstill_keeps (h : Keeps full a s) : Keeps full a (countStandstill s) := by
  simp only [countStandstill]
  with_reducible
    repeat' first
      | exact h | rfl | apply latchPayload_keeps | apply setLmu_keeps_same | split

theorem payloadEffects_keeps (h : Keeps full a s) : Keeps full a (payloadEffects s) := by
  simp only [payloadEffects]
  with_reducible
    repeat' first
      | exact h | rfl | apply noteChange_keeps | apply post_keeps | apply setLmu_keeps_same

theorem lmuPage_keeps (h : Keeps full a s) : Keeps full a (lmuPage s) := by
  simp only [lmuPage]
  with_reducible
    repeat' first
      | exact h | rfl | apply putLmuSection_keeps | apply latchPayload_keeps | split

theorem showLmu_keeps (h : Keeps full a s) : Keeps full a (showLmu s) := by
  simp only [showLmu, forBanks]
  with_reducible
    repeat' first
      | exact h | rfl | apply putLmuSection_keeps | apply putBankHeat_keeps | split

theorem thermalSteps_keeps (h : Keeps full a s) (blowerRun : Bool) :
    Keeps full a (thermalSteps blowerRun s) := by
  simp only [thermalSteps, runAll, forWheels, forBanks]
  with_reducible
    repeat' first
      | exact h | rfl | apply takeAmbient_keeps | apply judgeBlower_keeps | apply settleDuty_keeps
      | apply sampleBank_keeps | apply sampleWheel_keeps | apply countStandstill_keeps
      | apply payloadEffects_keeps | apply showLmu_keeps | split

theorem setUndervolt_keeps (h : Keeps full a s) : Keeps full a (setUndervolt s) := by
  simp only [setUndervolt]
  with_reducible
    repeat' first
      | exact h | rfl | apply note_keeps | apply setLmu_keeps_same

theorem clearUndervolt_keeps (h : Keeps full a s) : Keeps full a (clearUndervolt s) := by
  simp only [clearUndervolt]
  with_reducible
    repeat' first
      | exact h | rfl | apply note_keeps | apply setLmu_keeps_same

theorem judgeUndervolt_keeps (h : Keeps full a s) (vF : Nat) : Keeps full a (judgeUndervolt vF s) := by
  simp only [judgeUndervolt]
  with_reducible
    repeat' first
      | exact h | rfl | apply setUndervolt_keeps | apply clearUndervolt_keeps
      | apply setLmu_keeps_same | split

theorem restLink_keeps (h : Keeps full a s) : Keeps full a (restLink s) := by
  simp only [restLink]
  with_reducible
    repeat' first
      | exact h | rfl | apply noteIf_keeps | apply post_keeps | apply setLmu_keeps_same

theorem lmuLink_keeps (h : Keeps full a s) : Keeps full a (lmuLink s) := by
  simp only [lmuLink]
  with_reducible
    repeat' first
      | exact h | rfl | apply post_keeps | apply putLmuSection_keeps | apply judgeUndervolt_keeps
      | apply restLink_keeps | split

theorem lmuConfig_keeps (h : Keeps full a s) : Keeps full a (lmuConfig s) := by
  simp only [lmuConfig]
  with_reducible
    repeat' first
      | exact h | rfl | apply setLmu_keeps_same | split

theorem putStcSection_keeps (h : Keeps full a s) : Keeps full a (putStcSection s) :=
  putBlock_keeps (put_keeps_status h (by decide)) fun p => placed_sau p

theorem evaluateBias_keeps (h : Keeps full a s) : Keeps full a (evaluateBias s) :=
  setStc_keeps h fun k => ⟨k.1, by dsimp only; split <;> omega⟩

theorem formReserve_keeps (h : Keeps full a s) : Keeps full a (formReserve s) := by
  simp only [formReserve]
  with_reducible
    repeat' first
      | exact h | rfl | apply setStc_keeps_same

theorem stopCalibration_keeps (h : Keeps full a s) (r : CalResult) :
    Keeps full a (stopCalibration r s) := by
  simp only [stopCalibration]
  with_reducible
    repeat' first
      | exact h | rfl | apply setStc_keeps_same

theorem endCalibration_keeps (h : Keeps full a s) (result : Result) (shown : CalResult) (detail : List Word) :
    Keeps full a (endCalibration result shown detail s) := by
  simp only [endCalibration]
  with_reducible
    repeat' first
      | exact h | rfl | apply complete_keeps | apply stopCalibration_keeps

theorem endCalibrationIf_keeps (h : Keeps full a s) (b : Bool) (result : Result) (shown : CalResult) :
    Keeps full a (endCalibrationIf b result shown s) := by
  simp only [endCalibrationIf]
  with_reducible
    repeat' first
      | exact h | rfl | apply endCalibration_keeps | split

theorem readCalibration_keeps (h : Keeps full a s) : Keeps full a (readCalibration s) := by
  simp only [readCalibration]
  with_reducible
    repeat' first
      | exact h | rfl | apply endCalibration_keeps | apply setStc_keeps_same | split

theorem forgetAngle_keeps (h : Keeps full a s) : Keeps full a (forgetAngle s) :=
  setStc_keeps h fun _ => ⟨by simp, by simp⟩

theorem sauChange_keeps (h : Keeps full a s) : Keeps full a (sauChange s) := by
  simp only [sauChange, runAll]
  with_reducible
    repeat' first
      | exact h | rfl | apply putStcSection_keeps | apply evaluateBias_keeps
      | apply formReserve_keeps | apply endCalibrationIf_keeps | apply forgetAngle_keeps | split

theorem formLimits_keeps (h : Keeps full a s) : Keeps full a (formLimits s) := by
  simp only [formLimits]
  with_reducible
    repeat' first
      | exact h | rfl | apply setStc_keeps_same

theorem fillSlot_keeps (h : Keeps full a s) : Keeps full a (fillSlot s) := by
  simp only [fillSlot]
  refine setStc_keeps_same ?_ rfl rfl
  exact setUnit_keeps (u := .sau) h rfl

theorem stcTransmit_keeps (h : Keeps full a s) : Keeps full a (stcTransmit s) := by
  simp only [stcTransmit, runAll]
  with_reducible
    repeat' first
      | exact h | rfl | apply putStcSection_keeps | apply evaluateBias_keeps
      | apply formReserve_keeps | apply endCalibrationIf_keeps | apply formLimits_keeps
      | apply fillSlot_keeps

theorem takeAngle_keeps (h : Keeps full a s) : Keeps full a (takeAngle s) :=
  setStc_keeps h fun k => ⟨Nat.min_le_left _ _, k.2⟩

theorem judgeTracking_keeps (h : Keeps full a s) : Keeps full a (judgeTracking s) := by
  simp only [judgeTracking]
  refine noteChange_keeps (setStc_keeps_same h ?_ ?_) _ _ _ _ <;> rfl

theorem stcReport_keeps (h : Keeps full a s) : Keeps full a (stcReport s) := by
  simp only [stcReport, runAll]
  with_reducible
    repeat' first
      | exact h | rfl | apply putStcSection_keeps | apply evaluateBias_keeps
      | apply readCalibration_keeps | apply takeAngle_keeps | apply judgeTracking_keeps

theorem stcSubstateChange_keeps (h : Keeps full a s) : Keeps full a (stcSubstateChange s) := by
  simp only [stcSubstateChange, runAll]
  with_reducible
    repeat' first
      | exact h | rfl | apply putStcSection_keeps | apply evaluateBias_keeps

theorem stcModeChange_keeps (h : Keeps full a s) : Keeps full a (stcModeChange s) := by
  simp only [stcModeChange, runAll]
  with_reducible
    repeat' first
      | exact h | rfl | apply putStcSection_keeps | apply endCalibrationIf_keeps

theorem startCalibration_keeps (h : Keeps full a s) (cell : BitVec 6) :
    Keeps full a (startCalibration cell s) := by
  simp only [startCalibration]
  with_reducible
    repeat' first
      | exact h | rfl | apply putStcSection_keeps | apply setStc_keeps_same

theorem abortCalibration_keeps (h : Keeps full a s) : Keeps full a (abortCalibration s) := by
  simp only [abortCalibration]
  with_reducible
    repeat' first
      | exact h | rfl | apply putStcSection_keeps | apply stopCalibration_keeps

end Sys2Proof.Machine
end

