-- ==== Sys2Proof/Laws/KeepsGrid.lean ====
section
/-! SUPPORT. What the operations of the grid controller and the allocator keep: the invariants of Safety.lean and
the host's bytes. -/

namespace Sys2Proof.Machine

variable {full : Bool} {a s : State}

theorem changeCauses_keeps (h : Keeps full a s) (c : Causes) : Keeps full a (changeCauses c s) := by
  simp only [changeCauses]
  with_reducible
    repeat' first
      | exact h | rfl | apply raise_keeps | apply setRgc_keeps_same | split

theorem putRgcSection_keeps (h : Keeps full a s) : Keeps full a (putRgcSection s) :=
  put_keeps_status h (by decide)

theorem putBankSection_keeps (h : Keeps full a s) (b : Bank) : Keeps full a (putBankSection b s) := by
  simp only [putBankSection]
  split
  · exact putBlock_keeps h fun p => placed_bank p b
  · exact h

theorem putEnvelopeImage_keeps (h : Keeps full a s) : Keeps full a (putEnvelopeImage s) :=
  put_keeps_of h 48 (by rw [List.length_take]; omega)
    fun b h1 h2 => freeByte_image (by omega) (by omega)

theorem takeVoltage_keeps (h : Keeps full a s) (volts : Nat) : Keeps full a (takeVoltage volts s) :=
  setRgc_keeps h fun k => by
    obtain ⟨k1, k2, k3, k4, k5⟩ := k
    refine ⟨k1, k2, by simp [k3], ?_, k5⟩
    intro v hv
    simp only [List.mem_append, List.mem_singleton] at hv
    rcases hv with hv | hv
    · exact k4 v (List.mem_of_mem_drop hv)
    · omega

theorem sum_le_of_forall {l : List Nat} {n : Nat} (h : ∀ v ∈ l, v ≤ n) : l.sum ≤ l.length * n := by
  induction l with
  | nil => simp
  | cons v l ih =>
    have h1 := h v (by simp)
    have h2 := ih fun w hw => h w (by simp [hw])
    simp only [List.sum_cons, List.length_cons, Nat.add_mul]
    omega

theorem recomputeCapacity_keeps (h : Keeps full a s) : Keeps full a (recomputeCapacity s) := by
  simp only [recomputeCapacity]
  with_reducible
    repeat' first
      | exact h | rfl | apply setRgc_keeps_same

theorem takeFiltered_keeps (h : Keeps full a s) : Keeps full a (takeFiltered s) :=
  setRgc_keeps h fun k => by
    obtain ⟨k1, k2, k3, k4, _⟩ := k
    have := sum_le_of_forall k4
    rw [k3] at this
    exact ⟨k1, k2, k3, k4, by dsimp only; omega⟩

theorem sortRotation_keeps (h : Keeps full a s) : Keeps full a (sortRotation s) := by
  simp only [sortRotation]
  with_reducible
    repeat' first
      | exact h | rfl | apply setRgc_keeps_same

theorem setChan_keeps (h : Keeps full a s) (b : Bank) (c : Chan) : Keeps full a (setChan b c s) := by
  simp only [setChan]
  with_reducible
    repeat' first
      | exact h | rfl | apply setRgc_keeps_same

theorem cutPhase_keeps (h : Keeps full a s) (b : Bank) : Keeps full a (cutPhase b s) := by
  simp only [cutPhase]
  with_reducible
    repeat' first
      | exact h | rfl | apply setChan_keeps | apply setDraws_keeps | split

theorem cutIfOff_keeps (h : Keeps full a s) (st : ChanState) (b : Bank) :
    Keeps full a (cutIfOff st b s) := by
  simp only [cutIfOff]
  with_reducible
    repeat' first
      | exact h | rfl | apply cutPhase_keeps | split

theorem judgeChannel_keeps (h : Keeps full a s) (b : Bank) : Keeps full a (judgeChannel b s) := by
  simp only [judgeChannel]
  with_reducible
    repeat' first
      | exact h | rfl | apply putBankSection_keeps | apply setChan_keeps | apply cutIfOff_keeps
      | split

theorem judgeChannels_keeps (h : Keeps full a s) : Keeps full a (judgeChannels s) := by
  simp only [judgeChannels, forBanks]
  with_reducible
    repeat' first
      | exact h | rfl | apply judgeChannel_keeps

theorem recomputeBlower_keeps (h : Keeps full a s) : Keeps full a (recomputeBlower s) := by
  simp only [recomputeBlower]
  with_reducible
    repeat' first
      | exact h | rfl | apply setLmu_keeps_same | apply setRgc_keeps_same | simp

theorem showTest_keeps (h : Keeps full a s) (b : Bank) (f : BankShow → BankShow) :
    Keeps full a (showTest b f s) := by
  simp only [showTest]
  with_reducible
    repeat' first
      | exact h | rfl | apply putBankSection_keeps | apply setRgc_keeps_same | split

theorem setTest_keeps (h : Keeps full a s) (t : Option GridTest) : Keeps full a (setTest t s) := by
  simp only [setTest]
  with_reducible
    repeat' first
      | exact h | rfl | apply setRgc_keeps_same

theorem nextBank_keeps (h : Keeps full a s) : Keeps full a (nextBank s) := by
  simp only [nextBank]
  with_reducible
    repeat' first
      | exact h | rfl | apply complete_keeps | apply judgeChannel_keeps | apply judgeChannels_keeps
      | apply showTest_keeps | apply setTest_keeps | split

theorem passBank_keeps (h : Keeps full a s) (b : Bank) : Keeps full a (passBank b s) := by
  simp only [passBank]
  with_reducible
    repeat' first
      | exact h | rfl | apply judgeChannel_keeps | apply showTest_keeps | apply setTest_keeps
      | apply nextBank_keeps | split

theorem stopTest_keeps (h : Keeps full a s) : Keeps full a (stopTest s) := by
  simp only [stopTest]
  with_reducible
    repeat' first
      | exact h | rfl | apply cutPhase_keeps | apply judgeChannels_keeps | apply showTest_keeps
      | apply setTest_keeps | split

theorem abortTestIf_keeps (h : Keeps full a s) (b : Bool) : Keeps full a (abortTestIf b s) := by
  simp only [abortTestIf]
  with_reducible
    repeat' first
      | exact h | rfl | apply complete_keeps | apply stopTest_keeps | split

theorem skipWaiting_keeps (h : Keeps full a s) (b : Bank) : Keeps full a (skipWaiting b s) := by
  simp only [skipWaiting]
  with_reducible
    repeat' first
      | exact h | rfl | apply showTest_keeps | apply setTest_keeps | split

theorem skipCurrent_keeps (h : Keeps full a s) : Keeps full a (skipCurrent s) := by
  simp only [skipCurrent]
  with_reducible
    repeat' first
      | exact h | rfl | apply judgeChannel_keeps | apply showTest_keeps | apply setTest_keeps
      | apply nextBank_keeps | split

theorem startTest_keeps (h : Keeps full a s) (cell : BitVec 6) (banks duty count : Word) :
    Keeps full a (startTest cell banks duty count s) := by
  simp only [startTest]
  with_reducible
    repeat' first
      | exact h | rfl | apply setTest_keeps | apply nextBank_keeps

theorem lowerLowest_keeps (h : Keeps full a s) : Keeps full a (lowerLowest s) := by
  simp only [lowerLowest]
  with_reducible
    repeat' first
      | exact h | rfl | apply showTest_keeps | apply setTest_keeps | split

theorem checkTestStandstill_keeps (h : Keeps full a s) : Keeps full a (checkTestStandstill s) := by
  simp only [checkTestStandstill]
  with_reducible
    repeat' first
      | exact h | rfl | apply abortTestIf_keeps

theorem countPulse_keeps (h : Keeps full a s) (b : Bank) : Keeps full a (countPulse b s) := by
  simp only [countPulse]
  with_reducible
    repeat' first
      | exact h | rfl | apply showTest_keeps | apply setTest_keeps | split

theorem bankPeriod_keeps (h : Keeps full a s) (b : Bank) : Keeps full a (bankPeriod b s) := by
  simp only [bankPeriod]
  with_reducible
    repeat' first
      | exact h | rfl | apply setChan_keeps | apply passBank_keeps | apply countPulse_keeps | split

theorem blowerPeriod_keeps (h : Keeps full a s) : Keeps full a (blowerPeriod s) := by
  simp only [blowerPeriod]
  with_reducible
    repeat' first
      | exact h | rfl | apply setRgc_keeps_same | split

theorem bankExpiry_keeps (h : Keeps full a s) (b : Bank) : Keeps full a (bankExpiry b s) := by
  simp only [bankExpiry]
  with_reducible
    repeat' first
      | exact h | rfl | apply setChan_keeps | apply passBank_keeps | split

theorem blowerExpiry_keeps (h : Keeps full a s) : Keeps full a (blowerExpiry s) := by
  simp only [blowerExpiry]
  with_reducible
    repeat' first
      | exact h | rfl | apply setRgc_keeps_same | split

theorem writeShadow_keeps (h : Keeps full a s) (b : Bank) (duty : Nat) :
    Keeps full a (writeShadow b duty s) := by
  simp only [writeShadow]
  with_reducible
    repeat' first
      | exact h | rfl | apply setChan_keeps | split

theorem foldl_writeShadow_keeps (h : Keeps full a s) (l : List Bank) : Keeps full a (l.foldl (fun s n => writeShadow n 0 s) s) := by
  induction l generalizing s with
  | nil => exact h
  | cons n l ih => exact ih (writeShadow_keeps h _ _)

theorem distributeNone_keeps (h : Keeps full a s) (need : Nat) :
    Keeps full a (distributeNone need s) := by
  simp only [distributeNone]
  with_reducible
    repeat' first
      | exact h | rfl | apply writeShadow_keeps | apply setRgc_keeps_same
      | apply foldl_writeShadow_keeps

theorem showFull_keeps (h : Keeps full a s) : Keeps full a (showFull s) := by
  simp only [showFull]
  with_reducible
    repeat' first
      | exact h | rfl | apply setRgc_keeps_same

theorem distribute_keeps (h : Keeps full a s) (bs : List Bank) (remaining : Nat) :
    Keeps full a (distribute bs remaining s) := by
  induction bs generalizing remaining s with
  | nil => exact setRgc_keeps_same h rfl rfl rfl rfl
  | cons b bs ih =>
    simp only [distribute]
    split
    · exact ih h _
    · exact ih (writeShadow_keeps h _ _) _

theorem arrival_keeps (h : Keeps full a s) : Keeps full a (arrival s) := by
  simp only [arrival]
  with_reducible
    repeat' first
      | exact h | rfl | apply distributeNone_keeps | apply showFull_keeps | apply distribute_keeps
      | apply setRgc_keeps_same | split

theorem postDemand_keeps (h : Keeps full a s) (pRet : Nat) : Keeps full a (postDemand pRet s) := by
  simp only [postDemand]
  with_reducible
    repeat' first
      | exact h | rfl | apply setRgc_keeps_same

theorem formEnvelope_keeps (h : Keeps full a s) : Keeps full a (formEnvelope s) := by
  simp only [formEnvelope]
  with_reducible
    repeat' first
      | exact h | rfl | apply setRgc_keeps_same

theorem formHold_keeps (h : Keeps full a s) : Keeps full a (formHold s) := by
  simp only [formHold]
  with_reducible
    repeat' first
      | exact h | rfl | apply setRgc_keeps_same

theorem updateHold_keeps (h : Keeps full a s) : Keeps full a (updateHold s) := by
  simp only [updateHold]
  split
  · exact setRgc_keeps h fun k => ⟨by simp, by simp, k.2.2⟩
  · exact setRgc_keeps h fun k => ⟨Nat.min_le_left _ _, Nat.min_le_left _ _, k.2.2⟩

theorem changeExceeded_keeps (h : Keeps full a s) (present : Bool) :
    Keeps full a (changeExceeded present s) := by
  simp only [changeExceeded]
  with_reducible
    repeat' first
      | exact h | rfl | apply raise_keeps | apply note_keeps | apply changeCauses_keeps
      | apply setRgc_keeps_same | split

theorem countEnvelope_keeps (h : Keeps full a s) : Keeps full a (countEnvelope s) := by
  simp only [countEnvelope]
  with_reducible
    repeat' first
      | exact h | rfl | apply changeExceeded_keeps | apply setRgc_keeps_same | split

theorem restHold_keeps (h : Keeps full a s) : Keeps full a (restHold s) := by
  simp only [restHold]
  refine changeExceeded_keeps (setRgc_keeps h fun k => ?_) _
  exact ⟨by simp, by simp, k.2.2⟩

theorem addShortfall_keeps (h : Keeps full a s) : Keeps full a (addShortfall s) := by
  simp only [addShortfall]
  with_reducible
    repeat' first
      | exact h | rfl | apply changeCauses_keeps | apply setRgc_keeps_same

theorem removeShortfall_keeps (h : Keeps full a s) : Keeps full a (removeShortfall s) := by
  simp only [removeShortfall]
  with_reducible
    repeat' first
      | exact h | rfl | apply changeCauses_keeps | apply setRgc_keeps_same

theorem testShortfall_keeps (h : Keeps full a s) : Keeps full a (testShortfall s) := by
  simp only [testShortfall]
  with_reducible
    repeat' first
      | exact h | rfl | apply changeCauses_keeps | apply addShortfall_keeps
      | apply removeShortfall_keeps | apply setRgc_keeps_same | split

theorem testPostReset_keeps (h : Keeps full a s) : Keeps full a (testPostReset s) := by
  simp only [testPostReset]
  with_reducible
    repeat' first
      | exact h | rfl | apply changeCauses_keeps | split

theorem takeHoldPeriod_keeps (h : Keeps full a s) : Keeps full a (takeHoldPeriod s) := by
  simp only [takeHoldPeriod]
  with_reducible
    repeat' first
      | exact h | rfl | apply setRgc_keeps_same

theorem holdSteps_keeps (h : Keeps full a s) : Keeps full a (holdSteps s) := by
  simp only [holdSteps, runAll]
  with_reducible
    repeat' first
      | exact h | rfl | apply putRgcSection_keeps | apply formEnvelope_keeps | apply formHold_keeps
      | apply updateHold_keeps | apply countEnvelope_keeps | apply restHold_keeps
      | apply testShortfall_keeps | apply testPostReset_keeps | apply takeHoldPeriod_keeps | split

theorem setEnvelope_keeps (h : Keeps full a s) (t : List Nat) : Keeps full a (setEnvelope t s) := by
  simp only [setEnvelope]
  with_reducible
    repeat' first
      | exact h | rfl | apply putEnvelopeImage_keeps | apply setRgc_keeps_same

theorem followBanks_keeps (h : Keeps full a s) (before : PerBank Bool) :
    Keeps full a (followBanks before s) := by
  simp only [followBanks, runAll, forBanks]
  with_reducible
    repeat' first
      | exact h | rfl | apply sortRotation_keeps
      | apply judgeChannels_keeps | apply skipWaiting_keeps | apply skipCurrent_keeps | split

theorem rgcExclusion_keeps (h : Keeps full a s) (before : PerBank Bool) :
    Keeps full a (rgcExclusion before s) := by
  simp only [rgcExclusion]
  with_reducible
    repeat' first
      | exact h | rfl | apply recomputeCapacity_keeps | apply followBanks_keeps | split

theorem startDischarge_keeps (h : Keeps full a s) : Keeps full a (startDischarge s) := by
  simp only [startDischarge]
  with_reducible
    repeat' first
      | exact h | rfl | apply setRgc_keeps_same

theorem rgcModeChange_keeps (h : Keeps full a s) : Keeps full a (rgcModeChange s) := by
  simp only [rgcModeChange, runAll]
  with_reducible
    repeat' first
      | exact h | rfl | apply changeCauses_keeps | apply judgeChannels_keeps
      | apply recomputeBlower_keeps | apply abortTestIf_keeps | apply startDischarge_keeps

theorem rgcSubstateChange_keeps (h : Keeps full a s) : Keeps full a (rgcSubstateChange s) := by
  simp only [rgcSubstateChange]
  with_reducible
    repeat' first
      | exact h | rfl | apply recomputeBlower_keeps

theorem rgcConfig_keeps (h : Keeps full a s) : Keeps full a (rgcConfig s) := by
  simp only [rgcConfig, runAll]
  with_reducible
    repeat' first
      | exact h | rfl | apply recomputeCapacity_keeps | apply sortRotation_keeps
      | apply judgeChannels_keeps | apply setEnvelope_keeps

theorem startBlower_keeps (h : Keeps full a s) : Keeps full a (startBlower s) := by
  simp only [startBlower]
  with_reducible
    repeat' first
      | exact h | rfl | apply setRgc_keeps_same | split

theorem allocate_keeps (h : Keeps full a s) : Keeps full a (allocate s) := by
  simp only [allocate]
  with_reducible
    repeat' first
      | exact h | rfl | apply setTqa_keeps

theorem skipAllocation_keeps (h : Keeps full a s) : Keeps full a (skipAllocation s) := by
  simp only [skipAllocation]
  with_reducible
    repeat' first
      | exact h | rfl | apply setTqa_keeps

theorem setSlot_keeps (h : Keeps full a s) (w : Wheel) (torque : Int) :
    Keeps full a (setSlot w torque s) :=
  setUnit_keeps h (u := .wheel w) rfl

theorem writeSlots_keeps (h : Keeps full a s) : Keeps full a (writeSlots s) := by
  simp only [writeSlots, forWheels]
  with_reducible
    repeat' first
      | exact h | rfl | apply setSlot_keeps

theorem postRetard_keeps (h : Keeps full a s) : Keeps full a (postRetard s) := by
  simp only [postRetard]
  with_reducible
    repeat' first
      | exact h | rfl | apply postDemand_keeps | apply setTqa_keeps

theorem updateCredit_keeps (h : Keeps full a s) (w : Wheel) : Keeps full a (updateCredit w s) := by
  simp only [updateCredit]
  with_reducible
    repeat' first
      | exact h | rfl | apply noteChange_keeps | apply setTqa_keeps | split

theorem updateCredits_keeps (h : Keeps full a s) : Keeps full a (updateCredits s) := by
  simp only [updateCredits, forWheels]
  with_reducible
    repeat' first
      | exact h | rfl | apply updateCredit_keeps | split

theorem putAllocator_keeps (h : Keeps full a s) (w : Wheel) : Keeps full a (putAllocator w s) := by
  simp only [putAllocator]
  split
  · exact putBlock_keeps h fun p => placed_wheel p w
  · exact h

theorem putTqaSection_keeps (h : Keeps full a s) : Keeps full a (putTqaSection s) :=
  put_keeps_status h (by decide)

theorem takeAllocPeriod_keeps (h : Keeps full a s) : Keeps full a (takeAllocPeriod s) := by
  simp only [takeAllocPeriod]
  with_reducible
    repeat' first
      | exact h | rfl | apply setTqa_keeps

theorem allocationSteps_keeps (h : Keeps full a s) : Keeps full a (allocationSteps s) := by
  simp only [allocationSteps, runAll, forWheels]
  with_reducible
    repeat' first
      | exact h | rfl | apply allocate_keeps | apply skipAllocation_keeps | apply writeSlots_keeps
      | apply postRetard_keeps | apply updateCredits_keeps | apply putAllocator_keeps
      | apply putTqaSection_keeps | apply takeAllocPeriod_keeps | split

theorem setLimitValues_keeps (h : Keeps full a s) (forward reverse cap : Word) :
    Keeps full a (setLimitValues forward reverse cap s) := by
  simp only [setLimitValues]
  with_reducible
    repeat' first
      | exact h | rfl | apply setTqa_keeps

theorem tqaConfig_keeps (h : Keeps full a s) : Keeps full a (tqaConfig s) := by
  simp only [tqaConfig]
  with_reducible
    repeat' first
      | exact h | rfl | apply setTqa_keeps

end Sys2Proof.Machine
end

