-- ==== Sys2Proof/Laws/KeepsLink.lean ====
section
/-! SUPPORT. What the operations of the wheel link and the configuration loader keep: the invariants of Safety.lean and
the host's bytes. -/

namespace Sys2Proof.Machine

variable {full : Bool} {a s : State}

@[simp] theorem Wlc.unit_wheel (l : Wlc) (w : Wheel) : l.unit (.wheel w) = l.wheels.get w := rfl
@[simp] theorem Wlc.unit_sau (l : Wlc) : l.unit .sau = l.sau := rfl
@[simp] theorem UnitRec.enroll_block (r : UnitRec) (u : UnitId) (bytes : List Byte) :
    (r.enroll u bytes).block = r.block := rfl
@[simp] theorem UnitRec.absent_block (r : UnitRec) : r.absent.block = r.block := rfl
@[simp] theorem UnitRec.accept_block (r : UnitRec) (report : Report) :
    (r.accept report).block = r.block := rfl
@[simp] theorem UnitRec.corrupted_block (r : UnitRec) : r.corrupted.block = r.block := rfl
@[simp] theorem UnitRec.sendCommand_block (r : UnitRec) (control : Byte) (value : Int) :
    (r.sendCommand control value).block = r.block := rfl
@[simp] theorem UnitRec.miss_block (r : UnitRec) (missLimit : Nat) :
    (r.miss missLimit).block = r.block := by
  simp only [UnitRec.miss]
  split <;> rfl

theorem changeUnit_keeps (h : Keeps full a s) {u : UnitId} {r : UnitRec} (hr : r.block = (s.wlc.unit u).block) :
    Keeps full a (changeUnit u r s) := by
  simp only [changeUnit]
  split
  · exact sauChange_keeps (setUnit_keeps h hr)
  · exact setUnit_keeps h hr

theorem putLink_keeps (h : Keeps full a s) (u : UnitId) : Keeps full a (putLink u s) :=
  putBlock_keeps h fun p => placed_unit p u

theorem takeConfigured_keeps (h : Keeps full a s) (u : UnitId) :
    Keeps full a (takeConfigured u s) := by
  simp only [takeConfigured]
  split
  · refine changeUnit_keeps h ?_
    rfl
  · split
    · refine putLink_keeps (reportLoss_keeps (changeUnit_keeps h ?_) _ _) _
      rfl
    · exact h

theorem placeUnit_keeps (h : Keeps full a s) (u : UnitId) : Keeps full a (placeUnit u s) := by
  simp only [placeUnit]
  have hb := unitDirectory_bounds u
  apply putLink_keeps
  apply mirror_keeps (t := s.setWlc _) h
  · refine { placed := fun k => ?_ }
    obtain ⟨k1, k2, k3⟩ := k
    refine ⟨by cases u <;> (simp only [State.setWlc_wlc, Wlc.setUnit]; omega), fun v => ?_,
      fun b => by cases u <;> exact k3 b⟩
    rw [State.setWlc_wlc, Wlc.unit_setUnit]
    split
    · intro x hx
      simp at hx
      omega
    · have := k2 v
      cases v <;> exact this
  · rfl
  · simpa using by omega
  · omega
  · intro k
    refine shown_unit k u { s.wlc.unit u with block := some s.wlc.cursor } s.wlc.cursor _ rfl
      (fun x => ?_) (by cases u <;> rfl)
    rw [Wlc.unit_setUnit]
    split
    · rfl
    · cases x <;> rfl

theorem placeBank_keeps (h : Keeps full a s) (b : Bank) : Keeps full a (placeBank b s) := by
  simp only [placeBank]
  have hb := bankDirectory_bounds b
  apply mirror_keeps (t := s.setWlc _) h
  · refine { placed := fun k => ?_ }
    obtain ⟨k1, k2, k3⟩ := k
    refine ⟨by simp only [State.setWlc_wlc]; omega, fun v => by have := k2 v; cases v <;> exact this,
      fun c => ?_⟩
    rw [State.setWlc_wlc, PerBank_get_set]
    split
    · intro x hx
      simp at hx
      omega
    · exact k3 c
  · rfl
  · simpa using by omega
  · omega
  · intro k
    exact shown_bank k b s.wlc.cursor _ (fun x => by cases x <;> rfl) rfl

theorem placeIfEnrolled_keeps (h : Keeps full a s) (u : UnitId) :
    Keeps full a (placeIfEnrolled u s) := by
  simp only [placeIfEnrolled]
  with_reducible
    repeat' first
      | exact h | rfl | apply placeUnit_keeps | split

theorem placeIfConfigured_keeps (h : Keeps full a s) (b : Bank) :
    Keeps full a (placeIfConfigured b s) := by
  simp only [placeIfConfigured]
  with_reducible
    repeat' first
      | exact h | rfl | apply placeBank_keeps | split

theorem placeBlocks_keeps (h : Keeps full a s) : Keeps full a (placeBlocks s) := by
  simp only [placeBlocks, forBanks, forUnits, forWheels]
  with_reducible
    repeat' first
      | exact h | rfl | apply placeIfEnrolled_keeps | apply placeIfConfigured_keeps

theorem setOrder_keeps (h : Keeps full a s) (o : Option EnrollOrder) :
    Keeps full a (setOrder o s) := by
  simp only [setOrder]
  with_reducible
    repeat' first
      | exact h | rfl | apply setWlc_keeps_same

theorem endOrder_keeps (h : Keeps full a s) : Keeps full a (endOrder s) := by
  simp only [endOrder]
  with_reducible
    repeat' first
      | exact h | rfl | apply setWlc_keeps_same

theorem nextTarget_keeps (h : Keeps full a s) : Keeps full a (nextTarget s) := by
  simp only [nextTarget]
  with_reducible
    repeat' first
      | exact h | rfl | apply complete_keeps | apply setOrder_keeps | apply endOrder_keeps | split

theorem finishTarget_keeps (h : Keeps full a s) (u : UnitId) (isFound : Bool) :
    Keeps full a (finishTarget u isFound s) := by
  simp only [finishTarget]
  with_reducible
    repeat' first
      | exact h | rfl | apply setOrder_keeps | apply nextTarget_keeps | split

theorem abortRollCall_keeps (h : Keeps full a s) : Keeps full a (abortRollCall s) := by
  simp only [abortRollCall]
  with_reducible
    repeat' first
      | exact h | rfl | apply complete_keeps | apply setOrder_keeps | apply endOrder_keeps | split

theorem startRollCallOrder_keeps (h : Keeps full a s) (cell : BitVec 6) :
    Keeps full a (startRollCallOrder cell s) := by
  simp only [startRollCallOrder]
  with_reducible
    repeat' first
      | exact h | rfl | apply setOrder_keeps | apply nextTarget_keeps

theorem openRound_keeps (h : Keeps full a s) : Keeps full a (openRound s) := by
  simp only [openRound, forUnits, forWheels]
  with_reducible
    repeat' first
      | exact h | rfl | apply takeConfigured_keeps | apply nextTarget_keeps
      | apply setWlc_keeps_same

theorem endRound_keeps (h : Keeps full a s) : Keeps full a (endRound s) := by
  simp only [endRound]
  with_reducible
    repeat' first
      | exact h | rfl | apply setWlc_keeps_same | split

theorem takeDueRound_keeps (h : Keeps full a s) : Keeps full a (takeDueRound s) := by
  simp only [takeDueRound]
  with_reducible
    repeat' first
      | exact h | rfl | apply openRound_keeps | apply endRound_keeps | split

theorem settleRound_keeps (h : Keeps full a s) : Keeps full a (settleRound s) := by
  simp only [settleRound]
  with_reducible
    repeat' first
      | exact h | rfl | apply endRound_keeps | apply takeDueRound_keeps

theorem roundStartSteps_keeps (h : Keeps full a s) : Keeps full a (roundStartSteps s) := by
  simp only [roundStartSteps]
  with_reducible
    repeat' first
      | exact h | rfl | apply openRound_keeps | apply endRound_keeps | apply setWlc_keeps_same
      | split

theorem beginRollCall_keeps (h : Keeps full a s) : Keeps full a (beginRollCall s) := by
  simp only [beginRollCall, forUnits, forWheels]
  with_reducible
    repeat' first
      | exact h | rfl | apply takeConfigured_keeps | apply setWlc_keeps_same

theorem takeRollCall_keeps (h : Keeps full a s) : Keeps full a (takeRollCall s) := by
  simp only [takeRollCall]
  with_reducible
    repeat' first
      | exact h | rfl | apply beginRollCall_keeps | split

theorem startRollCall_keeps (h : Keeps full a s) : Keeps full a (startRollCall s) := by
  simp only [startRollCall]
  with_reducible
    repeat' first
      | exact h | rfl | apply takeRollCall_keeps | apply abortRollCall_keeps
      | apply setWlc_keeps_same

theorem reportLossOf_keeps (h : Keeps full a s) (u : UnitId) : Keeps full a (reportLossOf u s) := by
  simp only [reportLossOf]
  with_reducible
    repeat' first
      | exact h | rfl | apply reportLoss_keeps | split

theorem changeInRollCall_keeps (h : Keeps full a s) (u : UnitId) (r : UnitRec)
    (hb : r.block = (s.wlc.unit u).block) : Keeps full a (changeInRollCall u r s) := by
  have h1 := changeUnit_keeps h hb
  simp only [changeInRollCall]
  with_reducible
    repeat' first
      | exact h1 | apply reportLoss_keeps | split

theorem reportLosses_keeps (h : Keeps full a s) : Keeps full a (reportLosses s) := by
  simp only [reportLosses, forUnits, forWheels]
  with_reducible
    repeat' first
      | exact h | rfl | apply reportLossOf_keeps

theorem enterSettle_keeps (h : Keeps full a s) : Keeps full a (enterSettle s) := by
  simp only [enterSettle]
  with_reducible
    repeat' first
      | exact h | rfl | apply setCfl_keeps

theorem endRollCall_keeps (h : Keeps full a s) : Keeps full a (endRollCall s) := by
  simp only [endRollCall]
  with_reducible
    repeat' first
      | exact h | rfl | apply raise_keeps | apply sauChange_keeps | apply placeBlocks_keeps
      | apply reportLosses_keeps | apply enterSettle_keeps | apply setWlc_keeps_same
      | apply openRound_keeps | apply endRound_keeps

theorem rollCallTry_keeps (h : Keeps full a s) (done : Bool) : Keeps full a (rollCallTry done s) := by
  simp only [rollCallTry]
  with_reducible
    repeat' first
      | exact h | rfl | apply endRollCall_keeps | apply setWlc_keeps_same | split

theorem findUnit_keeps (h : Keeps full a s) (u : UnitId) (bytes : List Byte) :
    Keeps full a (findUnit u bytes s) := by
  simp only [findUnit]
  refine reportLoss_keeps (raise_keeps (changeUnit_keeps h ?_) _) _ _
  rfl

theorem acceptAnswer_keeps (h : Keeps full a s) (x : Exchange) (bytes : List Byte) :
    Keeps full a (acceptAnswer x bytes s) := by
  have h1 := changeInRollCall_keeps h x.unit ((s.wlc.unit x.unit).enroll x.unit bytes) rfl
  simp only [acceptAnswer]
  with_reducible
    repeat' first
      | exact h | rfl | apply changeUnit_keeps | apply putLink_keeps | apply placeIfEnrolled_keeps
      | apply finishTarget_keeps | apply rollCallTry_keeps | apply findUnit_keeps | exact h1 | split
      | simp

theorem missCommand_keeps (h : Keeps full a s) (u : UnitId) : Keeps full a (missCommand u s) := by
  have h1 := UnitRec.miss_block (s.wlc.unit u) s.cfg.missLimit
  have h2 := changeUnit_keeps h h1
  simp only [missCommand]
  with_reducible
    repeat' first
      | exact h | rfl | apply raise_keeps | apply reportLoss_keeps | apply changeUnit_keeps
      | exact h1 | exact h2 | split

theorem missExchange_keeps (h : Keeps full a s) (x : Exchange) : Keeps full a (missExchange x s) := by
  have h1 := changeInRollCall_keeps h x.unit (s.wlc.unit x.unit).absent rfl
  simp only [missExchange]
  with_reducible
    repeat' first
      | exact h | rfl | apply changeUnit_keeps | apply putLink_keeps | apply finishTarget_keeps
      | apply rollCallTry_keeps | apply missCommand_keeps | exact h1 | split | simp

theorem closeWindow_keeps (h : Keeps full a s) : Keeps full a (closeWindow s) := by
  simp only [closeWindow]
  with_reducible
    repeat' first
      | exact h | rfl | apply setWlc_keeps_same

theorem countCorrupt_keeps (h : Keeps full a s) (u : UnitId) : Keeps full a (countCorrupt u s) :=
  setUnit_keeps h rfl

theorem transmit_keeps (h : Keeps full a s) (bytes : List Byte) (x : Exchange) :
    Keeps full a (transmit bytes x s) := by
  simp only [transmit]
  with_reducible
    repeat' first
      | exact h | rfl | apply setWlc_keeps_same

theorem passVisit_keeps (h : Keeps full a s) : Keeps full a (passVisit s) := by
  simp only [passVisit]
  with_reducible
    repeat' first
      | exact h | rfl | apply setWlc_keeps_same

theorem countTry_keeps (h : Keeps full a s) : Keeps full a (countTry s) := by
  simp only [countTry]
  with_reducible
    repeat' first
      | exact h | rfl | apply setWlc_keeps_same | split

theorem sendRoll_keeps (h : Keeps full a s) (u : UnitId) (p : Purpose) :
    Keeps full a (sendRoll u p s) := by
  simp only [sendRoll]
  with_reducible
    repeat' first
      | exact h | rfl | apply transmit_keeps | apply passVisit_keeps | apply countTry_keeps | split

theorem sendDrive_keeps (h : Keeps full a s) (w : Wheel) : Keeps full a (sendDrive w s) := by
  simp only [sendDrive]
  with_reducible
    repeat' first
      | exact h | rfl | apply transmit_keeps | apply passVisit_keeps | apply setUnit_keeps | simp

theorem sendSteer_keeps (h : Keeps full a s) : Keeps full a (sendSteer s) := by
  simp only [sendSteer]
  with_reducible
    repeat' first
      | exact h | rfl | apply stcTransmit_keeps | apply transmit_keeps | apply passVisit_keeps
      | apply setUnit_keeps | simp

theorem requestQuiet_keeps (h : Keeps full a s) : Keeps full a (requestQuiet s) := by
  simp only [requestQuiet, forWheels]
  with_reducible
    repeat' first
      | exact h | rfl | apply setSlot_keeps | apply setWlc_keeps_same

theorem sendQuiet_keeps (h : Keeps full a s) : Keeps full a (sendQuiet s) := by
  simp only [sendQuiet]
  with_reducible
    repeat' first
      | exact h | rfl | apply setWlc_keeps_same

theorem wlcModeChange_keeps (h : Keeps full a s) : Keeps full a (wlcModeChange s) := by
  simp only [wlcModeChange]
  with_reducible
    repeat' first
      | exact h | rfl | apply abortRollCall_keeps | apply endRound_keeps | apply setWlc_keeps_same
      | split

theorem showResult_keeps (h : Keeps full a s) (r : Check × Nat) : Keeps full a (showResult r s) :=
  raise_keeps (put_keeps_of h 2 (by simp) fun b h1 h2 => freeByte_result (by omega) (by omega)) _

theorem activate_keeps (h : Keeps full a s) (p : Params) : Keeps full a (activate p s) := by
  simp only [activate]
  with_reducible
    repeat' first
      | exact h | rfl | apply setCfl_keeps

theorem changeStopModeFrom_keeps (h : Keeps full a s) (old : Nat) :
    Keeps full a (changeStopModeFrom old s) := by
  simp only [changeStopModeFrom]
  with_reducible
    repeat' first
      | exact h | rfl | apply changeStopMode_keeps | split

theorem acceptConfig_keeps (h : Keeps full a s) (p : Params) : Keeps full a (acceptConfig p s) := by
  simp only [acceptConfig, runAll]
  with_reducible
    repeat' first
      | exact h | rfl | apply applyPriorities_keeps | apply rewriteActions_keeps
      | apply lmuConfig_keeps | apply rgcConfig_keeps | apply tqaConfig_keeps | apply activate_keeps
      | apply changeStopModeFrom_keeps

theorem enterEnroll_keeps (h : Keeps full a s) : Keeps full a (enterEnroll s) := by
  simp only [enterEnroll]
  with_reducible
    repeat' first
      | exact h | rfl | apply startRollCall_keeps | apply setCfl_keeps

theorem validateInLoad_keeps (h : Keeps full a s) : Keeps full a (validateInLoad s) := by
  simp only [validateInLoad]
  with_reducible
    repeat' first
      | exact h | rfl | apply startBlower_keeps | apply showResult_keeps | apply acceptConfig_keeps
      | apply enterEnroll_keeps | apply setCfl_keeps | split

theorem readyMark_keeps (h : Keeps full a s) (value : Word) : Keeps full a (readyMark value s) := by
  simp only [readyMark]
  with_reducible
    repeat' first
      | exact h | rfl | apply validateInLoad_keeps | apply setCfl_keeps | split

theorem enterLoad_keeps (h : Keeps full a s) : Keeps full a (enterLoad s) := by
  simp only [enterLoad]
  with_reducible
    repeat' first
      | exact h | rfl | apply validateInLoad_keeps | apply setCfl_keeps | split

theorem upsetCopy_keeps (h : Keeps full a s) (copy : GuardedWord) (value : Word) :
    Keeps full a (upsetCopy copy value s) := by
  simp only [upsetCopy]
  with_reducible
    repeat' first
      | exact h | rfl | apply setCfl_keeps | split

theorem markReEnrol_keeps (h : Keeps full a s) (b : Bool) : Keeps full a (markReEnrol b s) := by
  simp only [markReEnrol]
  with_reducible
    repeat' first
      | exact h | rfl | apply setCfl_keeps

end Sys2Proof.Machine
end

