-- ==== Sys2Proof/Laws/KeepsMode.lean ====
section
/-! SUPPORT. What the operations of the drive modes and the delivery of the fault table keep: the invariants of Safety.lean and
the host's bytes. -/

namespace Sys2Proof.Machine

variable {full : Bool} {a s : State}

theorem putDmcSection_keeps (h : Keeps full a s) : Keeps full a (putDmcSection s) :=
  put_keeps_status h (by decide)

@[simp] theorem Dmc.atRest_demand (d : Dmc) : d.atRest.demand = d.demand := rfl

/-- The fields of a page as they are read lie in their ranges (R8). -/
theorem demand_ok (p : Page) (lock : Nat) (clock : Long) : (p.demand lock clock).ok := by
  refine ⟨Nat.min_le_right _ _, Nat.min_le_right _ _, Nat.min_le_right _ _, Nat.min_le_right _ _,
    Nat.min_le_right _ _, ?_, ?_⟩
  · simp only [Page.demand, limitAbs]
    omega
  · simp only [Page.demand]
    split <;> simp

theorem announceSubstate_keeps (h : Keeps full a s) : Keeps full a (announceSubstate s) := by
  simp only [announceSubstate, runAll]
  with_reducible
    repeat' first
      | exact h | rfl | apply tcuSubstateChange_keeps | apply stcSubstateChange_keeps
      | apply rgcSubstateChange_keeps

theorem setSubstate_keeps (h : Keeps full a s) (sub : Substate) (t : Target) :
    Keeps full a (setSubstate sub t s) := by
  simp only [setSubstate]
  with_reducible
    repeat' first
      | exact h | rfl | apply announceSubstate_keeps | apply setDmc_keeps_same | split

theorem formDemands_keeps (h : Keeps full a s) : Keeps full a (formDemands s) := by
  simp only [formDemands]
  with_reducible
    repeat' first
      | exact h | rfl | apply setDmc_keeps_same

theorem endChangeover_keeps (h : Keeps full a s) : Keeps full a (endChangeover s) := by
  simp only [endChangeover]
  with_reducible
    repeat' first
      | exact h | rfl | apply setSubstate_keeps | split

theorem formAndMove_keeps (h : Keeps full a s) : Keeps full a (formAndMove s) := by
  simp only [formAndMove]
  with_reducible
    repeat' first
      | exact h | rfl | apply setSubstate_keeps | apply formDemands_keeps
      | apply endChangeover_keeps

theorem changeMode_keeps (h : Keeps full a s) {m : Mode} {f : Dmc → Dmc} (hf : ∀ d, (f d).demand = d.demand) :
    Keeps full a (changeMode m f s) := by
  have key : ∀ d : Dmc, d.mode = m → d.demand = s.dmc.demand →
      Keeps full a (putDmcSection (put 0x0010 [m.code]
        (raise .modeChange ((s.setDmc d).setTripOut (m == .tripped))))) := fun d hm hd => by
    subst hm
    have e : put 0x0010 [d.mode.code] (raise .modeChange ((s.setDmc d).setTripOut (d.mode == .tripped))) =
        (put 0x0010 [d.mode.code] ((raise .modeChange s).setDmc d)).setTripOut (d.mode == .tripped) := by
      unfold raise
      by_cases hc : Cls.modeChange.isIn s.atc.pending = true
      · rw [if_pos hc, if_pos (show Cls.modeChange.isIn
          ((s.setDmc d).setTripOut (d.mode == .tripped)).atc.pending = true from hc)]
        rfl
      · rw [if_neg hc, if_neg (show ¬Cls.modeChange.isIn
          ((s.setDmc d).setTripOut (d.mode == .tripped)).atc.pending = true from hc)]
        rfl
    rw [e]
    have hr : (raise .modeChange s).dmc = s.dmc := by simp
    exact putDmcSection_keeps (setTripOut_keeps (mirror_keeps (t := (raise .modeChange s).setDmc d) (raise_keeps h .modeChange)
      { demand := fun k => by rw [hr] at k; rw [← hd] at k; exact k } rfl (by simp) (by simp)
      fun k => shown_mode k d) _)
  have hd : (f (s.dmc.startCounting m s.clock)).demand = s.dmc.demand := by
    rw [hf]; unfold Dmc.startCounting; split <;> rfl
  simp only [changeMode, runAll]
  refine wlcModeChange_keeps (stcModeChange_keeps (rgcModeChange_keeps ?_))
  split
  · exact key _ rfl hd
  · exact announceSubstate_keeps (key _ rfl hd)

theorem enterTripped_keeps (h : Keeps full a s) : Keeps full a (enterTripped s) := by
  simp only [enterTripped]
  with_reducible
    repeat' first
      | exact h | rfl | apply requestQuiet_keeps | apply changeMode_keeps | split | simp

theorem enterSafeStop_keeps (h : Keeps full a s) : Keeps full a (enterSafeStop s) := by
  simp only [enterSafeStop]
  with_reducible
    repeat' first
      | exact h | rfl | apply formAndMove_keeps | apply changeMode_keeps | split | simp

theorem enterReady_keeps (h : Keeps full a s) : Keeps full a (enterReady s) := by
  simp only [enterReady]
  with_reducible
    repeat' first
      | exact h | rfl | apply changeMode_keeps | apply enterSafeStop_keeps | split | simp

theorem driveToReady_keeps (h : Keeps full a s) : Keeps full a (driveToReady s) := by
  simp only [driveToReady]
  with_reducible
    repeat' first
      | exact h | rfl | apply changeMode_keeps | apply enterSafeStop_keeps | split | simp

theorem standbyToStarting_keeps (h : Keeps full a s) : Keeps full a (standbyToStarting s) := by
  simp only [standbyToStarting]
  with_reducible
    repeat' first
      | exact h | rfl | apply enterEnroll_keeps | apply changeMode_keeps | split | simp

theorem leaveStandbySteps_keeps (h : Keeps full a s) : Keeps full a (leaveStandbySteps s) := by
  simp only [leaveStandbySteps]
  with_reducible
    repeat' first
      | exact h | rfl | apply enterReady_keeps | apply standbyToStarting_keeps | split

theorem enterStandbySteps_keeps (h : Keeps full a s) (v : Variant) :
    Keeps full a (enterStandbySteps v s) := by
  simp only [enterStandbySteps]
  with_reducible
    repeat' first
      | exact h | rfl | apply note_keeps | apply changeMode_keeps | split | simp

theorem severityChange_keeps (h : Keeps full a s) : Keeps full a (severityChange s) := by
  simp only [severityChange]
  with_reducible
    repeat' first
      | exact h | rfl | apply enterTripped_keeps | apply enterSafeStop_keeps
      | apply standbyToStarting_keeps | split

theorem endSettle_keeps (h : Keeps full a s) : Keeps full a (endSettle s) := by
  simp only [endSettle]
  with_reducible
    repeat' first
      | exact h | rfl | apply enterTripped_keeps | apply enterReady_keeps | apply setCfl_keeps
      | split

theorem testSettle_keeps (h : Keeps full a s) : Keeps full a (testSettle s) := by
  simp only [testSettle]
  with_reducible
    repeat' first
      | exact h | rfl | apply endSettle_keeps | split

theorem acceptPage_keeps (h : Keeps full a s) (selector : Word) (p : Page) :
    Keeps full a (acceptPage (pageBase selector) p s) := by
  simp only [acceptPage]
  apply lmuPage_keeps
  apply tcuPage_keeps
  apply put_keeps_of _ 3
  · exact Nat.le_of_eq rfl
  · intro b h1 h2
    exact freeByte_page (selector := selector) (by omega) (by omega)
  · apply setDmc_keeps h
    · exact fun _ => demand_ok p _ _
    · rfl

theorem takePage_keeps (h : Keeps full a s) : Keeps full a (takePage s) := by
  simp only [takePage]
  split
  · exact acceptPage_keeps h _ _
  · exact h

theorem updateFreshness_keeps (h : Keeps full a s) : Keeps full a (updateFreshness s) := by
  simp only [updateFreshness]
  with_reducible
    repeat' first
      | exact h | rfl | apply raiseIf_keeps | apply noteChange_keeps | apply setDmc_keeps_same
      | split

theorem wake_keeps (h : Keeps full a s) (accepted : Bool) : Keeps full a (wake accepted s) := by
  simp only [wake]
  with_reducible
    repeat' first
      | exact h | rfl | apply leaveStandbySteps_keeps | split

theorem returnCheck_keeps (h : Keeps full a s) : Keeps full a (returnCheck s) := by
  simp only [returnCheck]
  with_reducible
    repeat' first
      | exact h | rfl | apply enterReady_keeps | split

theorem finishStop_keeps (h : Keeps full a s) : Keeps full a (finishStop s) := by
  simp only [finishStop]
  with_reducible
    repeat' first
      | exact h | rfl | apply enterTripped_keeps | apply setDmc_keeps_same

theorem countStop_keeps (h : Keeps full a s) : Keeps full a (countStop s) := by
  simp only [countStop]
  with_reducible
    repeat' first
      | exact h | rfl | apply finishStop_keeps | apply setDmc_keeps_same | split

theorem enterDriveCheck_keeps (h : Keeps full a s) : Keeps full a (enterDriveCheck s) := by
  simp only [enterDriveCheck]
  with_reducible
    repeat' first
      | exact h | rfl | apply changeMode_keeps | apply setDmc_keeps_same | split | simp

theorem modeChecks_keeps (h : Keeps full a s) : Keeps full a (modeChecks s) := by
  simp only [modeChecks]
  with_reducible
    repeat' first
      | exact h | rfl | apply returnCheck_keeps | apply countStop_keeps
      | apply enterDriveCheck_keeps | split

theorem adoptDirection_keeps (h : Keeps full a s) (d : Direction) :
    Keeps full a (adoptDirection d s) := by
  simp only [adoptDirection]
  with_reducible
    repeat' first
      | exact h | rfl | apply setSubstate_keeps | apply setDmc_keeps_same | split

theorem directionCheck_keeps (h : Keeps full a s) : Keeps full a (directionCheck s) := by
  simp only [directionCheck]
  with_reducible
    repeat' first
      | exact h | rfl | apply driveToReady_keeps | apply adoptDirection_keeps
      | apply setDmc_keeps_same | split

theorem demandStep_keeps (h : Keeps full a s) : Keeps full a (demandStep s) := by
  simp only [demandStep]
  with_reducible
    repeat' first
      | exact h | rfl | apply formAndMove_keeps | split

theorem takeDemandPeriod_keeps (h : Keeps full a s) : Keeps full a (takeDemandPeriod s) := by
  simp only [takeDemandPeriod]
  with_reducible
    repeat' first
      | exact h | rfl | apply setDmc_keeps_same

theorem demandSteps_keeps (h : Keeps full a s) : Keeps full a (demandSteps s) := by
  simp only [demandSteps, runAll]
  with_reducible
    repeat' first
      | exact h | rfl | apply putDmcSection_keeps | apply takePage_keeps
      | apply updateFreshness_keeps | apply wake_keeps | apply modeChecks_keeps
      | apply directionCheck_keeps | apply demandStep_keeps | apply takeDemandPeriod_keeps

theorem clearCompletion_keeps (h : Keeps full a s) : Keeps full a (clearCompletion s) := by
  simp only [clearCompletion]
  with_reducible
    repeat' first
      | exact h | rfl | apply returnCheck_keeps | apply setDmc_keeps_same | split

theorem deliverSets_keeps (h : Keeps full a s) : Keeps full a (deliverSets s) := by
  simp only [deliverSets]
  with_reducible
    repeat' first
      | exact h | rfl | apply updatePru_keeps_same | apply observeEscalation_keeps
      | apply tcuExclusion_keeps | apply rgcExclusion_keeps | split

theorem announceSummary_keeps (h : Keeps full a s) : Keeps full a (announceSummary s) := by
  simp only [announceSummary]
  with_reducible
    repeat' first
      | exact h | rfl | apply raise_keeps | apply requestQuiet_keeps | split

theorem deliverSummary_keeps (h : Keeps full a s) : Keeps full a (deliverSummary s) := by
  simp only [deliverSummary]
  with_reducible
    repeat' first
      | exact h | rfl | apply updatePru_keeps_same | apply severityChange_keeps
      | apply announceSummary_keeps

theorem deliver_keeps (h : Keeps full a s) : Keeps full a (deliver s) := by
  simp only [deliver]
  with_reducible
    repeat' first
      | exact h | rfl | apply deliverSets_keeps | apply deliverSummary_keeps | split

theorem settleBy_keeps (h : Keeps full a s) (n : Nat) : Keeps full a (settleBy n s) := by
  induction n generalizing s with
  | zero => exact h
  | succ n ih =>
    simp only [settleBy]
    split
    · exact h
    · exact ih (deliver_keeps h)

theorem settle_keeps (h : Keeps full a s) : Keeps full a (settle s) := by
  simp only [settle]
  with_reducible
    repeat' first
      | exact h | rfl | apply settleBy_keeps

end Sys2Proof.Machine
end

