-- ==== Sys2Proof/Laws/KeepsCommand.lean ====
section
/-! SUPPORT. What the operations of the commands keep: the invariants of Safety.lean and
the host's bytes. -/

namespace Sys2Proof.Machine

variable {full : Bool} {a s : State}

theorem takeReset_keeps (h : Keeps false a s) (kind : ResetKind) : Keeps false a (takeReset kind s) :=
  h.trans ⟨⟨fun _ => by simp [Atc.ok, takeReset, Atc.reset],
    fun k => by
      cases kind <;> simp [Pru.ok, takeReset, Pru.reset, tableKept] <;> exact k,
    fun _ => ⟨by simp [takeReset, Lmu.reset], by simp [takeReset, Lmu.reset]⟩,
    fun _ => by simp [takeReset, Dmc.reset, Demand.reset, Demand.ok],
    fun _ => by simp [takeReset, Rgc.reset, Rgc.ok],
    fun _ => by simp [takeReset, Stc.reset, Stc.ok],
    fun _ => ⟨Nat.le_refl _, fun u => by cases u <;> simp [takeReset, Wlc.reset, Wlc.unit, UnitRec.reset, blockOk],
      fun b => by simp [takeReset, Wlc.reset, blockOk]⟩⟩,
    id, fun _ _ _ => rfl, fun f => absurd f (by simp), fun f => absurd f (by simp)⟩

theorem writeHeader_keeps (h : Keeps false a s) : Keeps false a (writeHeader s) := by
  simp only [writeHeader, runAll]
  refine put_keeps_header (put_keeps_header (put_keeps_header (put_keeps_header h ?_ ?_) ?_ ?_) ?_ ?_)
    ?_ ?_ <;> simp [longWords]

theorem visitAfterReset_keeps (h : Keeps full a s) : Keeps full a (visitAfterReset s) := by
  simp only [visitAfterReset]
  with_reducible
    repeat' first
      | exact h | rfl | apply visitTaken_keeps | split

theorem keptEntries_ok {es : List Entry} (h : es.Pairwise Entry.differs) :
    (keptEntries es).Pairwise Entry.differs :=
  map_entries_ok (fun _ => ⟨rfl, rfl⟩) (h.filter _)

theorem enterGuardFault_mem {clock : Long} {es : List Entry} {f : Entry}
    (hf : f ∈ enterGuardFault clock es) :
    (∃ e ∈ es, f.kind = e.kind ∧ f.subject = e.subject) ∨ f.kind = .configGuard := by
  induction es with
  | nil => simp [enterGuardFault, Entry.guardFault] at hf; subst hf; simp
  | cons e es ih =>
    simp only [enterGuardFault] at hf
    split at hf
    · simp only [List.mem_cons] at hf
      rcases hf with hf | hf
      · subst hf; exact Or.inl ⟨e, by simp, rfl, rfl⟩
      · exact Or.inl ⟨f, by simp [hf], rfl, rfl⟩
    · simp only [List.mem_cons] at hf
      rcases hf with hf | hf
      · subst hf; exact Or.inl ⟨f, by simp, rfl, rfl⟩
      · exact exists_cons (ih hf)

theorem enterGuardFault_ok {clock : Long} {es : List Entry} (h : es.Pairwise Entry.differs) :
    (enterGuardFault clock es).Pairwise Entry.differs := by
  induction es with
  | nil => simp [enterGuardFault]
  | cons e es ih =>
    obtain ⟨h1, h2⟩ := List.pairwise_cons.1 h
    simp only [enterGuardFault]
    split
    · exact List.pairwise_cons.2 ⟨fun f hf => h1 f hf, h2⟩
    case isFalse hk =>
      refine List.pairwise_cons.2 ⟨fun f hf => ?_, ih h2⟩
      unfold Entry.differs
      rcases enterGuardFault_mem hf with ⟨g, hg, h'⟩ | h'
      · have := h1 g hg
        unfold Entry.differs at this
        rw [h'.1, h'.2]; exact this
      · rw [h']; exact fun k => hk k.1

/-- What start-up makes of a kept table holds at most one entry for each pair (R174). -/
theorem restoredEntries_ok {cause : ResetKind} {clock : Long} {es : List Entry}
    (h : es.Pairwise Entry.differs) : (restoredEntries cause clock es).Pairwise Entry.differs := by
  unfold restoredEntries
  split
  · exact enterGuardFault_ok (keptEntries_ok h)
  all_goals exact keptEntries_ok h

theorem restoreTable_keeps (h : Keeps full a s) : Keeps full a (restoreTable s) := by
  simp only [restoreTable]
  refine settle_keeps (putFaultImage_keeps (note_keeps (raiseIf_keeps (setPru_keeps h fun k => ?_) _ _)
    _ _ _))
  exact restoredEntries_ok k

theorem reportConditions_keeps (h : Keeps full a s) : Keeps full a (reportConditions s) := by
  simp only [reportConditions, runAll, forWheels, forBanks]
  with_reducible
    repeat' first
      | exact h | rfl | apply note_keeps

theorem startCauses_keeps (h : Keeps full a s) : Keeps full a (startCauses s) := by
  simp only [startCauses]
  with_reducible
    repeat' first
      | exact h | rfl | apply raise_keeps | apply setRgc_keeps_same | split

theorem writeSections_keeps (h : Keeps full a s) : Keeps full a (writeSections s) := by
  simp only [writeSections, runAll]
  with_reducible
    repeat' first
      | exact h | rfl | apply putTcuSection_keeps | apply putDerateImage_keeps
      | apply putLmuSection_keeps | apply putStcSection_keeps | apply putRgcSection_keeps
      | apply putEnvelopeImage_keeps | apply putDmcSection_keeps

theorem startUp_keeps (h : Keeps false a s) : Keeps false a (startUp s) := by
  simp only [startUp, runAll]
  with_reducible
    repeat' first
      | exact h | rfl | apply enterLoad_keeps | apply settle_keeps | apply writeHeader_keeps
      | apply visitAfterReset_keeps | apply restoreTable_keeps | apply reportConditions_keeps
      | apply startCauses_keeps | apply writeSections_keeps

theorem resetNow_keeps (h : Keeps false a s) (kind : ResetKind) : Keeps false a (resetNow kind s) := by
  simp only [resetNow]
  with_reducible
    repeat' first
      | exact h | rfl | apply takeReset_keeps | apply startUp_keeps

theorem decideSetLimits_keeps (h : Keeps full a s) (cell : BitVec 6) (forward reverse cap : Word) :
    Keeps full a (decideSetLimits cell forward reverse cap s) := by
  simp only [decideSetLimits, admitIf]
  with_reducible
    repeat' first
      | exact h | rfl | apply endCell_keeps | apply setLimitValues_keeps | split

theorem decideLoadEnvelope_keeps (h : Keeps full a s) (cell : BitVec 6) :
    Keeps full a (decideLoadEnvelope cell s) := by
  simp only [decideLoadEnvelope, admitIf]
  with_reducible
    repeat' first
      | exact h | rfl | apply endCell_keeps | apply setEnvelope_keeps | split

theorem releaseStop_keeps (h : Keeps full a s) : Keeps full a (releaseStop s) := by
  simp only [releaseStop]
  with_reducible
    repeat' first
      | exact h | rfl | apply updatePru_keeps_same | apply note_keeps | split

theorem clearTable_keeps (h : Keeps full a s) (forget : Word) :
    Keeps full a (clearTable forget s) := by
  simp only [clearTable]
  refine raiseIf_keeps (updatePru_keeps h fun k => ?_) _ _
  have h1 : (clearEntries s.clock s.pru.entries).Pairwise Entry.differs :=
    map_entries_ok (fun e => by split <;> simp [Entry.move]) k
  simp only [Pru.ok, forgetEntries]
  split
  · exact h1
  · exact h1.filter _

theorem decideClearFaults_keeps (h : Keeps full a s) (cell : BitVec 6) (forget : Word) :
    Keeps full a (decideClearFaults cell forget s) := by
  simp only [decideClearFaults]
  with_reducible
    repeat' first
      | exact h | rfl | apply endCell_keeps | apply observeEscalation_keeps
      | apply clearCompletion_keeps | apply settle_keeps | apply releaseStop_keeps
      | apply clearTable_keeps

theorem decideEnterStandby_keeps (h : Keeps full a s) (cell : BitVec 6) (keepLink keepBlower : Word) :
    Keeps full a (decideEnterStandby cell keepLink keepBlower s) := by
  simp only [decideEnterStandby, admitIf]
  with_reducible
    repeat' first
      | exact h | rfl | apply endCell_keeps | apply enterStandbySteps_keeps | apply settle_keeps
      | split

theorem decideLeaveStandby_keeps (h : Keeps full a s) (cell : BitVec 6) :
    Keeps full a (decideLeaveStandby cell s) := by
  simp only [decideLeaveStandby, admitIf]
  with_reducible
    repeat' first
      | exact h | rfl | apply endCell_keeps | apply leaveStandbySteps_keeps | apply settle_keeps
      | split

theorem acceptApplied_keeps (h : Keeps full a s) (cell : BitVec 6) (p : Params) :
    Keeps full a (acceptApplied cell p s) := by
  simp only [acceptApplied]
  with_reducible
    repeat' first
      | exact h | rfl | apply endCell_keeps | apply acceptConfig_keeps | apply markReEnrol_keeps
      | apply settle_keeps

theorem decideApplyConfig_keeps (h : Keeps full a s) (cell : BitVec 6) :
    Keeps full a (decideApplyConfig cell s) := by
  simp only [decideApplyConfig, admitIf]
  with_reducible
    repeat' first
      | exact h | rfl | apply endCell_keeps | apply showResult_keeps | apply acceptApplied_keeps
      | split

theorem decideGridTest_keeps (h : Keeps full a s) (cell : BitVec 6) (banks duty count : Word) :
    Keeps full a (decideGridTest cell banks duty count s) := by
  simp only [decideGridTest, admitIf, handOver]
  with_reducible
    repeat' first
      | exact h | rfl | apply endCell_keeps | apply startTest_keeps | apply setOre_keeps | split
      | simp

theorem decideSteerCalibrate_keeps (h : Keeps full a s) (cell : BitVec 6) :
    Keeps full a (decideSteerCalibrate cell s) := by
  simp only [decideSteerCalibrate, admitIf, handOver]
  with_reducible
    repeat' first
      | exact h | rfl | apply endCell_keeps | apply startCalibration_keeps | apply setOre_keeps
      | split | simp

theorem decideRollCall_keeps (h : Keeps full a s) (cell : BitVec 6) :
    Keeps full a (decideRollCall cell s) := by
  simp only [decideRollCall, admitIf, handOver]
  with_reducible
    repeat' first
      | exact h | rfl | apply endCell_keeps | apply startRollCallOrder_keeps | apply setOre_keeps
      | split | simp

theorem stopOwner_keeps (h : Keeps full a s) (r : Resource) : Keeps full a (stopOwner r s) := by
  simp only [stopOwner]
  with_reducible
    repeat' first
      | exact h | rfl | apply abortCalibration_keeps | apply stopTest_keeps | apply endOrder_keeps
      | apply settleRound_keeps | split

theorem decideAbort_keeps (h : Keeps full a s) (cell : BitVec 6) (index : Word) :
    Keeps full a (decideAbort cell index s) := by
  simp only [decideAbort]
  with_reducible
    repeat' first
      | exact h | rfl | apply raise_keeps | apply writeEnd_keeps | apply endCell_keeps
      | apply endBadArgument_keeps | apply freeResource_keeps | apply settle_keeps
      | apply stopOwner_keeps | split

theorem decideOrder_keeps (h : Keeps full a s) (cell : BitVec 6) :
    Keeps full a (decideOrder cell s) := by
  simp only [decideOrder]
  with_reducible
    repeat' first
      | exact h | rfl | apply endCell_keeps | apply decideSetLimits_keeps
      | apply decideLoadEnvelope_keeps | apply decideClearFaults_keeps
      | apply decideEnterStandby_keeps | apply decideLeaveStandby_keeps
      | apply decideApplyConfig_keeps | apply decideGridTest_keeps
      | apply decideSteerCalibrate_keeps | apply decideRollCall_keeps | apply decideAbort_keeps
      | split

theorem markTaken_keeps (h : Keeps full a s) (cell : BitVec 6) : Keeps full a (markTaken cell s) := by
  simp only [markTaken]
  exact put_keeps_of (put_keeps_of h 1 (by simp) fun b h1 h2 =>
    freeByte_cell (cell := cell) (by omega) (by omega) (by omega)) 2 (by simp [longWords])
    fun b h1 h2 => freeByte_cell (cell := cell) (by omega) (by omega) (by omega)

theorem haltChain_keeps (h : Keeps full a s) : Keeps full a (haltChain s) := by
  simp only [haltChain]
  with_reducible
    repeat' first
      | exact h | rfl | apply raise_keeps | apply setChain_keeps

theorem waitChain_keeps (h : Keeps full a s) : Keeps full a (waitChain s) := by
  simp only [waitChain]
  with_reducible
    repeat' first
      | exact h | rfl | apply setChain_keeps

theorem takeCell_keeps (h : Keeps full a s) (cell : BitVec 6) : Keeps full a (takeCell cell s) := by
  simp only [takeCell]
  with_reducible
    repeat' first
      | exact h | rfl | apply setChain_keeps | apply decideOrder_keeps | apply markTaken_keeps

theorem followLink_keeps (h : Keeps full a s) (cell : BitVec 6) :
    Keeps full a (followLink cell s).1 := by
  unfold followLink
  split
  · exact setChain_keeps h _
  · exact setChain_keeps h _
  · exact haltChain_keeps h

theorem scanSteps_keeps (h : Keeps full a s) (n takes : Nat) : Keeps full a (scanSteps n takes s) := by
  induction n generalizing takes s with
  | zero => exact h
  | succ n ih =>
    simp only [scanSteps]
    with_reducible
      repeat' first
        | exact h | apply waitChain_keeps | apply haltChain_keeps | apply ih | apply setChain_keeps
        | apply followLink_keeps | apply takeCell_keeps | split

theorem scan_keeps (h : Keeps full a s) : Keeps full a (scan s) := by
  simp only [scan]
  with_reducible
    repeat' first
      | exact h | rfl | apply scanSteps_keeps | split

theorem finishLink_keeps (h : Keeps full a s) : Keeps full a (finishLink s) := by
  simp only [finishLink]
  with_reducible
    repeat' first
      | exact h | rfl | apply takeRollCall_keeps | apply settleRound_keeps | apply testSettle_keeps
      | apply settle_keeps

theorem acceptReport_keeps (h : Keeps full a s) (w : Wheel) (order : HandOff) (bytes : List Byte) :
    Keeps full a (acceptReport w order bytes s) := by
  simp only [acceptReport, inOrder]
  with_reducible
    repeat' first
      | exact h | rfl | apply note_keeps | apply tcuReport_keeps | apply changeUnit_keeps
      | apply putLink_keeps | apply testSettle_keeps | apply settle_keeps | split | simp

theorem acceptSteerReport_keeps (h : Keeps full a s) (order : HandOff) (bytes : List Byte) :
    Keeps full a (acceptSteerReport order bytes s) := by
  simp only [acceptSteerReport, inOrder]
  with_reducible
    repeat' first
      | exact h | rfl | apply note_keeps | apply tcuSteerReport_keeps | apply stcReport_keeps
      | apply changeUnit_keeps | apply putLink_keeps | apply settle_keeps | split | simp

theorem acceptReply_keeps (h : Keeps full a s) (x : Exchange) (order : HandOff) (bytes : List Byte) :
    Keeps full a (acceptReply x order bytes s) := by
  simp only [acceptReply]
  with_reducible
    repeat' first
      | exact h | rfl | apply acceptAnswer_keeps | apply acceptReport_keeps
      | apply acceptSteerReport_keeps | split

theorem replyArrival_keeps (h : Keeps full a s) (order : HandOff) (bytes : List Byte) :
    Keeps full a (replyArrival order bytes s) := by
  simp only [replyArrival]
  with_reducible
    repeat' first
      | exact h | rfl | apply missExchange_keeps | apply closeWindow_keeps
      | apply countCorrupt_keeps | apply finishLink_keeps | apply acceptReply_keeps | split

theorem windowExpiry_keeps (h : Keeps full a s) : Keeps full a (windowExpiry s) := by
  simp only [windowExpiry]
  with_reducible
    repeat' first
      | exact h | rfl | apply missExchange_keeps | apply closeWindow_keeps | apply finishLink_keeps
      | split

theorem filteredSteps_keeps (h : Keeps full a s) : Keeps full a (filteredSteps s) := by
  simp only [filteredSteps, runAll]
  with_reducible
    repeat' first
      | exact h | rfl | apply noteOvervolt_keeps | apply lmuLink_keeps
      | apply recomputeCapacity_keeps | apply takeFiltered_keeps | apply lowerLowest_keeps
      | apply checkTestStandstill_keeps

theorem setExceeded_keeps (h : Keeps full a s) : Keeps full a (setExceeded s) := by
  simp only [setExceeded]
  with_reducible
    repeat' first
      | exact h | rfl | apply changeExceeded_keeps | apply setRgc_keeps_same

theorem clearExceeded_keeps (h : Keeps full a s) : Keeps full a (clearExceeded s) := by
  simp only [clearExceeded]
  with_reducible
    repeat' first
      | exact h | rfl | apply changeExceeded_keeps | apply setRgc_keeps_same

theorem reviewSteps_keeps (h : Keeps full a s) : Keeps full a (reviewSteps s) := by
  simp only [reviewSteps, runAll, forBanks]
  with_reducible
    repeat' first
      | exact h | rfl | apply putBankSection_keeps | apply sortRotation_keeps
      | apply recomputeBlower_keeps

theorem endDischarge_keeps (h : Keeps full a s) : Keeps full a (endDischarge s) := by
  simp only [endDischarge]
  with_reducible
    repeat' first
      | exact h | rfl | apply judgeChannels_keeps | apply setRgc_keeps_same

theorem moveFilter_keeps (h : Keeps full a s) (f : StopFilter) : Keeps full a (moveFilter f s) := by
  simp only [moveFilter]
  with_reducible
    repeat' first
      | exact h | rfl | apply updatePru_keeps_same | apply noteChange_keeps
      | apply abortTestIf_keeps | apply settle_keeps

theorem sampleStop_keeps (h : Keeps full a s) (low : Bool) : Keeps full a (sampleStop low s) := by
  simp only [sampleStop]
  with_reducible
    repeat' first
      | exact h | rfl | apply moveFilter_keeps

end Sys2Proof.Machine
end

