-- ==== Sys2Proof/Laws/Steady.lean ====
section
/-! SUPPORT. What a delivery of the fault table, and the end of an event of the wheel link, leave as they
find it: `Steady a b` names the parts of the state that no mode change, exclusion, roll call or round
start alters. A statement about an event reads the event's own effect through it. -/

namespace Sys2Proof.Machine

/-! ### The parts that stay -/

/-- The LMU's state but for the blower duty that it is handed (R165). -/
def Lmu.firm (l : Lmu) : Lmu := { l with commanded := 0 }

/-- The RGC's state but for the channels, the grid test, the capacity, the causes and the timers. -/
def Rgc.law (g : Rgc) : Rgc :=
  { g with
    rotation := [], test := none, shows := Rgc.reset.shows, chans := Rgc.reset.chans
    blower := Chan.reset, capacity := 0, causes := Rgc.reset.causes, pulse := none
    discharge := none }

/-- The CFL's state but for the start-up phase, the re-enrol mark and the settle time. -/
def Cfl.firm (c : Cfl) : Cfl := { c with phase := .load, reEnrol := false, settleEnd := none }

/-- A unit record but for its torque slot, its block, and the mark that it is configured. -/
def UnitRec.firm (r : UnitRec) : UnitRec :=
  { r with slotValue := 0, configured := true, block := none }

/-- The TCU's record of a wheel but for its slip state. -/
def TcuWheel.firm (t : TcuWheel) : TcuWheel :=
  { t with slip := .grip, factor := 0, count := 0, slideStart := none, slideCond := false }

/-- The STC's state but for what it takes from the SAU's record and from the substate, the tracking
counts and the calibration's state. -/
def Stc.firm (t : Stc) : Stc :=
  { t with
    kappa := 0, beta := 0, reserve := 0, turn := .straight, stale := true, exceed := 0, within := 0
    cal := .none, calResult := .none }

/-- The entries of the kinds that no delivery observes. -/
def Pru.quiet (p : Pru) : List Entry := p.entries.filter fun e => !e.kind.loud

/-- The bytes that no delivery writes: the header but for the mode mirror, the pending mirror and the
directories; the pages; the configuration block and the staging area; the order cells but for the
state, result, detail and done stamp; the derate and envelope images; and the sections of the TQA, the
RGC and the LMU. -/
def calmByte (a : Nat) : Bool :=
  decide (a < 0x0010 ∨ 0x0012 ≤ a ∧ a < 0x0022 ∨ 0x0024 ≤ a ∧ a < 0x0030 ∨ 0x0046 ≤ a ∧ a < 0x0800) ||
  decide (0x0800 ≤ a ∧ a < 0x1800 ∧
    (2 ≤ a % 64 ∧ a % 64 < 0x20 ∨ 0x32 ≤ a % 64 ∧ a % 64 < 0x36 ∨ 0x3A ≤ a % 64)) ||
  decide (0x1B00 ≤ a ∧ a < 0x2000 ∨ 0x2040 ≤ a ∧ a < 0x20A0 ∨ 0x20C0 ≤ a ∧ a < 0x2100)

/-- From state `a` to state `b` the demand record, the configuration and the setpoint pages stay as they
are; with `full` so do all the parts named above, and while no lasting order is in flight the order
cells and the Order Engine too. -/
structure Steady (full : Bool) (a b : State) : Prop where
  demand : b.dmc.demand = a.dmc.demand := by intros; rfl
  lastSeq : b.dmc.lastSeq = a.dmc.lastSeq := by intros; rfl
  period : b.dmc.period = a.dmc.period := by intros; rfl
  filter : b.pru.filter = a.pru.filter := by intros; rfl
  atc : { b.atc with pending := 0 } = { a.atc with pending := 0 } := by intros; rfl
  attention : ∀ c : Cls, c.isIn a.atc.pending = true → c.isIn b.atc.pending = true :=
      by intros; assumption
  cfl : b.cfl.firm = a.cfl.firm := by intros; rfl
  placed : a.wlc.placed → b.wlc.placed := by intros; assumption
  units : ∀ u, a.cfg.unit u = true → (b.wlc.unit u).firm = (a.wlc.unit u).firm := by intros; rfl
  pages : a.wlc.placed → ∀ x, 0x0100 ≤ x ∧ x < 0x0200 → b.xm.byte x = a.xm.byte x := by intros; rfl
  rgc : full = true → b.rgc.law = a.rgc.law := by intros; rfl
  lmu : full = true → b.lmu.firm = a.lmu.firm := by intros; rfl
  stc : full = true → b.stc.firm = a.stc.firm := by intros; rfl
  quiet : full = true → b.pru.quiet = a.pru.quiet := by intros; rfl
  tcu : full = true → ∀ w, (b.tcu.wheels.get w).firm = (a.tcu.wheels.get w).firm := by intros; rfl
  bytes : full = true → a.wlc.placed → ∀ x, calmByte x = true → b.xm.byte x = a.xm.byte x :=
      by intros; rfl
  ore : full = true → a.ore.idle = true → b.ore = a.ore := by intros; rfl
  cells : full = true → a.ore.idle = true → a.wlc.placed →
    ∀ x, 0x0800 ≤ x ∧ x < 0x1800 → b.xm.byte x = a.xm.byte x := by intros; rfl

variable {full : Bool} {a b c s : State}

theorem Steady.cfg (h : Steady full a b) : b.cfg = a.cfg := by
  have := congrArg Cfl.active h.cfl
  exact this

theorem Steady.refl (full : Bool) (a : State) : Steady full a a := { }

theorem Steady.trans (h : Steady full a b) (k : Steady full b c) : Steady full a c where
  demand := k.demand.trans h.demand
  lastSeq := k.lastSeq.trans h.lastSeq
  period := k.period.trans h.period
  filter := k.filter.trans h.filter
  atc := k.atc.trans h.atc
  attention := fun i => k.attention i ∘ h.attention i
  cfl := k.cfl.trans h.cfl
  placed := k.placed ∘ h.placed
  units := fun u hu => (k.units u (by rw [h.cfg]; exact hu)).trans (h.units u hu)
  pages := fun p x hx => (k.pages (h.placed p) x hx).trans (h.pages p x hx)
  rgc := fun f => (k.rgc f).trans (h.rgc f)
  lmu := fun f => (k.lmu f).trans (h.lmu f)
  stc := fun f => (k.stc f).trans (h.stc f)
  quiet := fun f => (k.quiet f).trans (h.quiet f)
  tcu := fun f w => (k.tcu f w).trans (h.tcu f w)
  bytes := fun f p x hx => (k.bytes f (h.placed p) x hx).trans (h.bytes f p x hx)
  ore := fun f i => (k.ore f (by rw [h.ore f i]; exact i)).trans (h.ore f i)
  cells := fun f i p x hx =>
    (k.cells f (by rw [h.ore f i]; exact i) (h.placed p) x hx).trans (h.cells f i p x hx)

/-! ### The record updates -/

theorem setTripOut_steady (h : Steady full a s) (v : Bool) :
    Steady full a (s.setTripOut v) :=
  h.trans { }

theorem setDraws_steady (h : Steady full a s) (v : Nat) :
    Steady full a (s.setDraws v) :=
  h.trans { }

theorem setTqa_steady (h : Steady full a s) (v : Tqa) :
    Steady full a (s.setTqa v) :=
  h.trans { }

theorem setOre_steady (h : Steady full a s) {v : Ore} (hv : s.ore.idle = true → v = s.ore) :
    Steady full a (s.setOre v) :=
  h.trans { ore := fun _ i => hv i }

theorem setStc_steady (h : Steady full a s) {v : Stc} (hv : full = true → v.firm = s.stc.firm) :
    Steady full a (s.setStc v) :=
  h.trans { stc := hv }

theorem setAtc_steady (h : Steady full a s) {v : Atc}
    (hv : ∀ c : Cls, c.isIn s.atc.pending = true → c.isIn v.pending = true)
    (hp : { v with pending := 0 } = { s.atc with pending := 0 }) :
    Steady full a (s.setAtc v) :=
  h.trans { atc := hp, attention := hv }

theorem setLmu_steady (h : Steady full a s) {v : Lmu} (hv : full = true → v.firm = s.lmu.firm) :
    Steady full a (s.setLmu v) :=
  h.trans { lmu := hv }

theorem setRgc_steady (h : Steady full a s) {v : Rgc} (hv : full = true → v.law = s.rgc.law) :
    Steady full a (s.setRgc v) :=
  h.trans { rgc := hv }

theorem setDmc_steady (h : Steady full a s) {v : Dmc} (h1 : v.demand = s.dmc.demand)
    (h2 : v.lastSeq = s.dmc.lastSeq) (h3 : v.period = s.dmc.period) :
    Steady full a (s.setDmc v) :=
  h.trans { demand := h1, lastSeq := h2, period := h3 }

theorem setPru_steady (h : Steady full a s) {v : Pru} (h1 : full = true → v.quiet = s.pru.quiet)
    (h2 : v.filter = s.pru.filter) :
    Steady full a (s.setPru v) :=
  h.trans { filter := h2, quiet := h1 }

theorem setCfl_steady (h : Steady full a s) {v : Cfl} (hv : v.firm = s.cfl.firm) :
    Steady full a (s.setCfl v) :=
  h.trans { cfl := hv }

theorem setTcu_steady (h : Steady full a s) {v : Tcu}
    (hv : full = true → ∀ w, (v.wheels.get w).firm = (s.tcu.wheels.get w).firm) :
    Steady full a (s.setTcu v) :=
  h.trans { tcu := hv }

theorem setTcu_steady_same (h : Steady full a s) {v : Tcu} (hv : v.wheels = s.tcu.wheels) :
    Steady full a (s.setTcu v) := setTcu_steady h fun _ w => by rw [hv]

theorem setWlc_steady (h : Steady full a s) {v : Wlc}
    (hv : ∀ u, s.cfg.unit u = true → (v.unit u).firm = (s.wlc.unit u).firm)
    (hp : s.wlc.placed → v.placed) :
    Steady full a (s.setWlc v) :=
  h.trans { placed := hp, units := hv }

theorem setWlc_steady_same (h : Steady full a s) {v : Wlc} (hw : v.wheels = s.wlc.wheels)
    (hu : v.sau = s.wlc.sau) (hc : v.cursor = s.wlc.cursor) (hb : v.bankBlock = s.wlc.bankBlock) :
    Steady full a (s.setWlc v) :=
  setWlc_steady h (fun u _ => by cases u <;> simp [Wlc.unit, hw, hu]) fun p => by
    obtain ⟨p1, p2, p3⟩ := p
    refine ⟨by rw [hc]; exact p1, fun u => ?_, fun b => by rw [hb]; exact p3 b⟩
    have := p2 u
    cases u <;> simpa [Wlc.unit, hw, hu] using this

/-- A unit record is replaced by one with the same block, alike in what is firm. -/
theorem setUnit_steady (h : Steady full a s) {u : UnitId} {r : UnitRec}
    (hr : s.cfg.unit u = true → r.firm = (s.wlc.unit u).firm)
    (hb : r.block = (s.wlc.unit u).block) : Steady full a (s.setWlc (s.wlc.setUnit u r)) :=
  setWlc_steady h (fun v hv => by
    rw [Wlc.unit_setUnit]
    split
    case isTrue e => subst e; exact hr hv
    case isFalse e => rfl) fun p => by
    obtain ⟨p1, p2, p3⟩ := p
    refine ⟨by cases u <;> exact p1, fun v => ?_, fun b => by cases u <;> exact p3 b⟩
    rw [Wlc.unit_setUnit]
    split
    case isTrue e => subst e; rw [hb]; exact p2 v
    case isFalse e => exact p2 v

/-! ### Writes of the exchange memory -/

/-- A byte that a delivery may write. -/
def busyByte (b : Nat) : Bool := !calmByte b && decide (b < 0x0800 ∨ 0x1800 ≤ b)

theorem busyByte_spec {b : Nat} (h : busyByte b = true) :
    calmByte b = false ∧ (b < 0x0800 ∨ 0x1800 ≤ b) ∧ (b < 0x0100 ∨ 0x0200 ≤ b) := by
  simp only [busyByte, Bool.and_eq_true, Bool.not_eq_true', decide_eq_true_eq] at h
  refine ⟨h.1, h.2, ?_⟩
  have := h.1
  simp only [calmByte, Bool.or_eq_false_iff, decide_eq_false_iff_not] at this
  omega

theorem busy_section {b : Nat} (h : 0x2000 ≤ b ∧ b < 0x2040 ∨ 0x20A0 ≤ b ∧ b < 0x20C0 ∨ 0x2100 ≤ b ∨
    0x1800 ≤ b ∧ b < 0x1B00 ∨ 0x0010 ≤ b ∧ b < 0x0012 ∨ 0x0022 ≤ b ∧ b < 0x0024 ∨
    0x0030 ≤ b ∧ b < 0x0046) : busyByte b = true := by
  unfold busyByte calmByte
  simp only [Bool.and_eq_true, Bool.not_eq_true', Bool.or_eq_false_iff, decide_eq_false_iff_not,
    decide_eq_true_eq]
  omega

/-- A write of bytes that a delivery may write. -/
theorem put_steady_of (h : Steady full a s) {x : Nat} {ws : List Word} (n : Nat) (hn : ws.length ≤ n)
    (hx : ∀ b, x ≤ b → b < x + 2 * n → busyByte b = true) : Steady full a (put x ws s) := by
  have out : ∀ b, busyByte b = false → (put x ws s).xm.byte b = s.xm.byte b := fun b hb =>
    byte_store_outside (by
      by_contra hc
      have := hx b (by omega) (by omega)
      simp [hb] at this)
  have out' : ∀ b, ¬(calmByte b = false ∧ (b < 0x0800 ∨ 0x1800 ≤ b) ∧ (b < 0x0100 ∨ 0x0200 ≤ b)) →
      (put x ws s).xm.byte b = s.xm.byte b := fun b hb => out b (by
        by_contra hc
        exact hb (busyByte_spec (by simpa using hc)))
  exact h.trans {
    pages := fun _ b hb => out' b (by omega)
    bytes := fun _ _ b hb => out' b (by simp [hb])
    cells := fun _ _ _ b hb => out' b (by omega) }

/-- A write of a section that no page holds, where only the demand is followed. -/
theorem put_steady_page (h : Steady false a s) {x : Nat} {ws : List Word} (n : Nat) (hn : ws.length ≤ n)
    (hx : x + 2 * n ≤ 0x0100 ∨ 0x0200 ≤ x) : Steady false a (put x ws s) :=
  h.trans {
    pages := fun _ b hb => byte_store_outside (by omega)
    rgc := nofun
    lmu := nofun
    stc := nofun
    quiet := nofun
    tcu := nofun
    bytes := nofun
    ore := nofun
    cells := nofun }

/-- A write of a section of a status block that is placed. -/
theorem putBlock_steady (h : Steady full a s) {block : Option Nat} {offset : Nat} {ws : List Word}
    (hb : s.wlc.placed → blockOk block) : Steady full a (putBlock block offset ws s) := by
  cases block with
  | none => exact h
  | some base =>
    have out : s.wlc.placed → ∀ x, x < 0x2100 →
        (putBlock (some base) offset ws s).xm.byte x = s.xm.byte x := fun p x hx =>
      byte_store_outside (by
        have h2 : 0x2100 ≤ base := hb p base rfl
        omega)
    refine h.trans {
      pages := fun p x hx => out p x (by omega)
      bytes := fun _ p x hx => out p x ?_
      cells := fun _ _ p x hx => out p x (by omega) }
    by_contra hc
    have := (busyByte_spec (busy_section (b := x) (by omega))).1
    simp [hx] at this

/-- An observation of a kind that deliveries make leaves the entries of the others. -/
theorem observeEntries_quiet {c : Params} {clock : Long} {k : Kind} {subject : Subject}
    {present : Bool} (hk : k.loud = true) (es : List Entry) :
    (observeEntries c clock k subject present es).1.filter (fun e => !e.kind.loud) =
      es.filter fun e => !e.kind.loud := by
  induction es with
  | nil =>
    cases present
    · rfl
    · simp only [observeEntries, if_true, Entry.fresh]
      split <;> simp [Entry.activate, hk]
  | cons e es ih =>
    simp only [observeEntries]
    split
    case isTrue he =>
      have hl : e.kind.loud = true := by rw [he.1]; exact hk
      cases present
      · simp only [Bool.false_eq_true, if_false, Entry.seeAbsent]
        split <;> simp [hl]
        split <;> simp [Entry.move, hl]
      · simp only [if_true, Entry.seePresent]
        split <;> (try split) <;> simp [Entry.activate, hl]
    case isFalse he => simp [List.filter_cons, ih]

theorem raise_steady (h : Steady full a s) (c : Cls) : Steady full a (raise c s) := by
  simp only [raise, putPendingMirror]
  split
  · exact h
  · have h1 : Steady full a (s.setAtc { s.atc with pending := s.atc.pending ||| c.bit }) :=
      setAtc_steady h (fun d hd => by unfold Cls.isIn at *; simp [hd]) rfl
    exact put_steady_of h1 1 (by simp) fun b _ _ => busy_section (by omega)

theorem raiseIf_steady (h : Steady full a s) (b : Bool) (c : Cls) : Steady full a (raiseIf b c s) := by
  simp only [raiseIf]
  repeat' first
      | with_reducible exact h | with_reducible apply raise_steady | split

/-- The end of a lasting order: nothing while none is in flight. -/
theorem complete_steady (h : Steady full a s) (r : Resource) (cell : BitVec 6) (result : Result)
    (detail : List Word) : Steady full a (complete r cell result detail s) := by
  have out : ∀ x, x < 0x0800 ∨ 0x1800 ≤ x → (writeEnd cell result detail s).xm.byte x = s.xm.byte x := by
    intro x hx
    have hc := cell.isLt
    have hl : (detailWords detail).length = 8 := by simp [detailWords]
    simp only [writeEnd]
    rw [put_byte_outside (by simp [cellBase]; omega), put_byte_outside (by simp [cellBase, longWords]; omega),
      put_byte_outside (by simp [cellBase, hl]; omega)]
  have out' : ∀ x, calmByte x = true → (writeEnd cell result detail s).xm.byte x = s.xm.byte x := by
    intro x hx
    have hc := cell.isLt
    have hl : (detailWords detail).length = 8 := by simp [detailWords]
    simp only [calmByte, Bool.or_eq_true, decide_eq_true_eq] at hx
    simp only [writeEnd]
    rw [put_byte_outside (by simp [cellBase]; omega), put_byte_outside (by simp [cellBase, longWords]; omega),
      put_byte_outside (by simp [cellBase, hl]; omega)]
  have idle : s.ore.idle = true → ¬s.ore.inFlight r = some cell := by
    intro i
    simp only [Ore.idle, Bool.and_eq_true, Option.isNone_iff_eq_none] at i
    cases r <;> simp [Ore.inFlight, i]
  unfold complete
  split
  case isFalse => exact h
  case isTrue e =>
    have h1 : Steady full s (freeResource r (writeEnd cell result detail s)) :=
      ⟨rfl, rfl, rfl, rfl, rfl, fun _ => id, rfl, id, fun _ _ => rfl,
      fun _ x hx => out x (by omega), fun _ => rfl, fun _ => rfl, fun _ => rfl, fun _ => rfl,
      fun _ _ => rfl, fun _ _ x hx => out' x hx, fun _ i => absurd e (idle i),
      fun _ i => absurd e (idle i)⟩
    exact raise_steady (h.trans h1) _

theorem putFaultImage_steady (h : Steady full a s) : Steady full a (putFaultImage s) :=
  put_steady_of h 384 (Nat.le_of_eq (image_length _ _))
    fun b h1 h2 => busy_section (by omega)

theorem updatePru_steady (h : Steady full a s) {p : Pru} (h1 : full = true → p.quiet = s.pru.quiet) (h2 : p.filter = s.pru.filter) :
    Steady full a (updatePru p s) := by
  simp only [updatePru]
  split
  · exact setPru_steady h h1 h2
  · exact putFaultImage_steady (setPru_steady h h1 h2)

theorem note_steady (h : Steady full a s) {k : Kind} (hk : k.loud = true) (subject : Subject) (present : Bool) :
    Steady full a (note k subject present s) := by
  simp only [note]
  refine raiseIf_steady (updatePru_steady h ?_ ?_) _ _
  · exact fun _ => observeEntries_quiet hk _
  · rfl

theorem noteIf_steady (h : Steady full a s) (b : Bool) {k : Kind} (hk : k.loud = true) (subject : Subject) (present : Bool) :
    Steady full a (noteIf b k subject present s) := by
  simp only [noteIf]
  repeat' first
      | with_reducible exact h | exact hk | with_reducible apply note_steady | split

theorem reportLoss_steady (h : Steady full a s) (u : UnitId) (present : Bool) :
    Steady full a (reportLoss u present s) := by
  simp only [reportLoss]
  repeat' first
      | with_reducible exact h | with_reducible apply note_steady
      | with_reducible apply setPru_steady | split | exact rfl | exact fun _ => rfl

theorem observeEscalation_steady (h : Steady full a s) : Steady full a (observeEscalation s) := by
  simp only [observeEscalation]
  repeat' first
      | with_reducible exact h | with_reducible apply note_steady | exact rfl

theorem setTcuWheel_steady (h : Steady full a s) {w : Wheel} {t : TcuWheel} (ht : t.firm = (s.tcu.wheels.get w).firm) :
    Steady full a (setTcuWheel w t s) := by
  simp only [setTcuWheel]
  refine setTcu_steady h fun _ v => ?_
  rw [PerWheel_get_set]
  split
  case isTrue e => subst e; exact ht
  case isFalse e => rfl

theorem putTcuSection_steady (h : Steady full a s) : Steady full a (putTcuSection s) :=
  put_steady_of h 16 (by simp [Tcu.words, longWords]) fun b h1 h2 => busy_section (by omega)

theorem putTraction_steady (h : Steady full a s) (w : Wheel) : Steady full a (putTraction w s) :=
  putBlock_steady h fun p => placed_wheel p w

theorem setVRef_steady (h : Steady full a s) (v : Option Nat) : Steady full a (setVRef v s) := by
  simp only [setVRef]
  repeat' first
      | with_reducible exact h | with_reducible apply setTcu_steady_same | exact rfl

theorem recomputeVRef_steady (h : Steady full a s) : Steady full a (recomputeVRef s) := by
  simp only [recomputeVRef]
  repeat' first
      | with_reducible exact h | with_reducible apply setVRef_steady | split

theorem judgeQuality_steady (h : Steady full a s) : Steady full a (judgeQuality s) := by
  simp only [judgeQuality]
  repeat' first
      | with_reducible exact h | with_reducible apply raise_steady
      | with_reducible apply recomputeVRef_steady | with_reducible apply setTcu_steady_same | split
      | exact rfl

theorem recomputeIn_steady (h : Steady full a s) (q : Quality) : Steady full a (recomputeIn q s) := by
  simp only [recomputeIn]
  repeat' first
      | with_reducible exact h | with_reducible apply recomputeVRef_steady | split

theorem alterWheel_steady (h : Steady full a s) {w : Wheel} {t : TcuWheel} (ht : t.firm = (s.tcu.wheels.get w).firm) :
    Steady full a (alterWheel w t s) := by
  simp only [alterWheel]
  repeat' first
      | with_reducible exact h | exact ht | with_reducible apply setTcuWheel_steady
      | with_reducible apply putTraction_steady | split

theorem TcuWheel.leaveSubstate_firm (t : TcuWheel) : t.leaveSubstate.firm = t.firm := by
  unfold TcuWheel.leaveSubstate
  split <;> rfl

theorem tcuSubstateChange_steady (h : Steady full a s) : Steady full a (tcuSubstateChange s) := by
  simp only [tcuSubstateChange, runAll, forWheels]
  repeat' first
      | with_reducible exact h | with_reducible apply putTcuSection_steady
      | with_reducible apply judgeQuality_steady | with_reducible apply recomputeIn_steady
      | with_reducible apply alterWheel_steady | with_reducible apply TcuWheel.leaveSubstate_firm

theorem excludeAtTcu_steady (h : Steady full a s) (w : Wheel) : Steady full a (excludeAtTcu w s) := by
  simp only [excludeAtTcu]
  repeat' first
      | with_reducible exact h | with_reducible apply noteIf_steady
      | with_reducible apply alterWheel_steady | exact rfl

theorem tcuExclusion_steady (h : Steady full a s) (before : PerWheel Bool) :
    Steady full a (tcuExclusion before s) := by
  simp only [tcuExclusion, runAll, forWheels]
  repeat' first
      | with_reducible exact h | with_reducible apply putTcuSection_steady
      | with_reducible apply judgeQuality_steady | with_reducible apply recomputeIn_steady
      | with_reducible apply excludeAtTcu_steady | split

theorem putStcSection_steady (h : Steady full a s) : Steady full a (putStcSection s) :=
  putBlock_steady (put_steady_of h 16 (by simp [State.stcWords, longWords])
    fun b h1 h2 => busy_section (by omega)) fun p => placed_sau p

theorem evaluateBias_steady (h : Steady full a s) : Steady full a (evaluateBias s) := by
  simp only [evaluateBias]
  repeat' first
      | with_reducible exact h | with_reducible apply setStc_steady | split | exact rfl
      | exact fun _ => rfl

theorem formReserve_steady (h : Steady full a s) : Steady full a (formReserve s) := by
  simp only [formReserve]
  repeat' first
      | with_reducible exact h | with_reducible apply setStc_steady | split | exact rfl
      | exact fun _ => rfl

theorem stopCalibration_steady (h : Steady full a s) (r : CalResult) :
    Steady full a (stopCalibration r s) := by
  simp only [stopCalibration]
  repeat' first
      | with_reducible exact h | with_reducible apply setStc_steady | exact rfl | exact fun _ => rfl

theorem endCalibration_steady (h : Steady full a s) (result : Result) (shown : CalResult) (detail : List Word) :
    Steady full a (endCalibration result shown detail s) := by
  simp only [endCalibration]
  repeat' first
      | with_reducible exact h | with_reducible apply complete_steady
      | with_reducible apply stopCalibration_steady

theorem endCalibrationIf_steady (h : Steady full a s) (b : Bool) (result : Result) (shown : CalResult) :
    Steady full a (endCalibrationIf b result shown s) := by
  simp only [endCalibrationIf]
  repeat' first
      | with_reducible exact h | with_reducible apply endCalibration_steady | split

theorem forgetAngle_steady (h : Steady full a s) : Steady full a (forgetAngle s) := by
  simp only [forgetAngle]
  repeat' first
      | with_reducible exact h | with_reducible apply setStc_steady | exact rfl | exact fun _ => rfl

theorem sauChange_steady (h : Steady full a s) : Steady full a (sauChange s) := by
  simp only [sauChange, runAll]
  repeat' first
      | with_reducible exact h | with_reducible apply putStcSection_steady
      | with_reducible apply evaluateBias_steady | with_reducible apply formReserve_steady
      | with_reducible apply endCalibrationIf_steady | with_reducible apply forgetAngle_steady
      | split

theorem stcSubstateChange_steady (h : Steady full a s) : Steady full a (stcSubstateChange s) := by
  simp only [stcSubstateChange, runAll]
  repeat' first
      | with_reducible exact h | with_reducible apply putStcSection_steady
      | with_reducible apply evaluateBias_steady

theorem stcModeChange_steady (h : Steady full a s) : Steady full a (stcModeChange s) := by
  simp only [stcModeChange, runAll]
  repeat' first
      | with_reducible exact h | with_reducible apply putStcSection_steady
      | with_reducible apply endCalibrationIf_steady

theorem changeCauses_steady (h : Steady full a s) (c : Causes) : Steady full a (changeCauses c s) := by
  simp only [changeCauses]
  repeat' first
      | with_reducible exact h | with_reducible apply raise_steady
      | with_reducible apply setRgc_steady | split | exact rfl | exact fun _ => rfl

theorem putBankSection_steady (h : Steady full a s) (b : Bank) :
    Steady full a (putBankSection b s) := by
  simp only [putBankSection]
  split
  · exact putBlock_steady h fun p => placed_bank p b
  · exact h

theorem recomputeCapacity_steady (h : Steady full a s) : Steady full a (recomputeCapacity s) := by
  simp only [recomputeCapacity]
  repeat' first
      | with_reducible exact h | with_reducible apply setRgc_steady | exact rfl | exact fun _ => rfl

theorem sortRotation_steady (h : Steady full a s) : Steady full a (sortRotation s) := by
  simp only [sortRotation]
  repeat' first
      | with_reducible exact h | with_reducible apply setRgc_steady | exact rfl | exact fun _ => rfl

theorem setChan_steady (h : Steady full a s) (b : Bank) (c : Chan) :
    Steady full a (setChan b c s) := by
  simp only [setChan]
  repeat' first
      | with_reducible exact h | with_reducible apply setRgc_steady | exact rfl | exact fun _ => rfl

theorem cutPhase_steady (h : Steady full a s) (b : Bank) : Steady full a (cutPhase b s) := by
  simp only [cutPhase]
  repeat' first
      | with_reducible exact h | with_reducible apply setChan_steady
      | with_reducible apply setDraws_steady | split

theorem cutIfOff_steady (h : Steady full a s) (st : ChanState) (b : Bank) :
    Steady full a (cutIfOff st b s) := by
  simp only [cutIfOff]
  repeat' first
      | with_reducible exact h | with_reducible apply cutPhase_steady | split

theorem judgeChannel_steady (h : Steady full a s) (b : Bank) : Steady full a (judgeChannel b s) := by
  simp only [judgeChannel]
  repeat' first
      | with_reducible exact h | with_reducible apply putBankSection_steady
      | with_reducible apply setChan_steady | with_reducible apply cutIfOff_steady | split

theorem judgeChannels_steady (h : Steady full a s) : Steady full a (judgeChannels s) := by
  simp only [judgeChannels, forBanks]
  repeat' first
      | with_reducible exact h | with_reducible apply judgeChannel_steady

theorem recomputeBlower_steady (h : Steady full a s) : Steady full a (recomputeBlower s) := by
  simp only [recomputeBlower]
  repeat' first
      | with_reducible exact h | with_reducible apply setLmu_steady
      | with_reducible apply setRgc_steady | exact rfl | exact fun _ => rfl

theorem showTest_steady (h : Steady full a s) (b : Bank) (f : BankShow → BankShow) :
    Steady full a (showTest b f s) := by
  simp only [showTest]
  repeat' first
      | with_reducible exact h | with_reducible apply putBankSection_steady
      | with_reducible apply setRgc_steady | exact rfl | exact fun _ => rfl | split

theorem setTest_steady (h : Steady full a s) (t : Option GridTest) : Steady full a (setTest t s) := by
  simp only [setTest]
  repeat' first
      | with_reducible exact h | with_reducible apply setRgc_steady | exact rfl | exact fun _ => rfl

theorem nextBank_steady (h : Steady full a s) : Steady full a (nextBank s) := by
  simp only [nextBank]
  repeat' first
      | with_reducible exact h | with_reducible apply complete_steady
      | with_reducible apply judgeChannel_steady | with_reducible apply judgeChannels_steady
      | with_reducible apply showTest_steady | with_reducible apply setTest_steady | split

theorem stopTest_steady (h : Steady full a s) : Steady full a (stopTest s) := by
  simp only [stopTest]
  repeat' first
      | with_reducible exact h | with_reducible apply cutPhase_steady
      | with_reducible apply judgeChannels_steady | with_reducible apply showTest_steady
      | with_reducible apply setTest_steady | split

theorem abortTestIf_steady (h : Steady full a s) (b : Bool) : Steady full a (abortTestIf b s) := by
  simp only [abortTestIf]
  repeat' first
      | with_reducible exact h | with_reducible apply complete_steady
      | with_reducible apply stopTest_steady | split

theorem skipWaiting_steady (h : Steady full a s) (b : Bank) : Steady full a (skipWaiting b s) := by
  simp only [skipWaiting]
  repeat' first
      | with_reducible exact h | with_reducible apply showTest_steady
      | with_reducible apply setTest_steady | split

theorem skipCurrent_steady (h : Steady full a s) : Steady full a (skipCurrent s) := by
  simp only [skipCurrent]
  repeat' first
      | with_reducible exact h | with_reducible apply judgeChannel_steady
      | with_reducible apply showTest_steady | with_reducible apply setTest_steady
      | with_reducible apply nextBank_steady | split

theorem followBanks_steady (h : Steady full a s) (before : PerBank Bool) :
    Steady full a (followBanks before s) := by
  simp only [followBanks, runAll, forBanks]
  repeat' first
      | with_reducible exact h
      | with_reducible apply sortRotation_steady | with_reducible apply judgeChannels_steady
      | with_reducible apply skipWaiting_steady | with_reducible apply skipCurrent_steady | split

theorem rgcExclusion_steady (h : Steady full a s) (before : PerBank Bool) :
    Steady full a (rgcExclusion before s) := by
  simp only [rgcExclusion]
  repeat' first
      | with_reducible exact h | with_reducible apply recomputeCapacity_steady
      | with_reducible apply followBanks_steady | split

theorem startDischarge_steady (h : Steady full a s) : Steady full a (startDischarge s) := by
  simp only [startDischarge]
  repeat' first
      | with_reducible exact h | with_reducible apply setRgc_steady | split | exact rfl
      | exact fun _ => rfl

theorem rgcModeChange_steady (h : Steady full a s) : Steady full a (rgcModeChange s) := by
  simp only [rgcModeChange, runAll]
  repeat' first
      | with_reducible exact h | with_reducible apply changeCauses_steady
      | with_reducible apply judgeChannels_steady | with_reducible apply recomputeBlower_steady
      | with_reducible apply abortTestIf_steady | with_reducible apply startDischarge_steady

theorem rgcSubstateChange_steady (h : Steady full a s) : Steady full a (rgcSubstateChange s) := by
  simp only [rgcSubstateChange]
  repeat' first
      | with_reducible exact h | with_reducible apply recomputeBlower_steady

theorem setSlot_steady (h : Steady full a s) (w : Wheel) (torque : Int) :
    Steady full a (setSlot w torque s) :=
  setUnit_steady h (u := .wheel w) (fun _ => rfl) rfl

theorem changeUnit_steady (h : Steady full a s) {u : UnitId} {r : UnitRec} (hr : s.cfg.unit u = true → r.firm = (s.wlc.unit u).firm)
    (hb : r.block = (s.wlc.unit u).block) : Steady full a (changeUnit u r s) := by
  simp only [changeUnit]
  split
  · exact sauChange_steady (setUnit_steady h hr hb)
  · exact setUnit_steady h hr hb

theorem putLink_steady (h : Steady full a s) (u : UnitId) : Steady full a (putLink u s) :=
  putBlock_steady h fun p => placed_unit p u

theorem takeConfigured_steady (h : Steady full a s) (u : UnitId) :
    Steady full a (takeConfigured u s) := by
  simp only [takeConfigured]
  split
  · apply changeUnit_steady h
    · intro _; rfl
    · rfl
  case isFalse e =>
    split
    · apply putLink_steady
      apply reportLoss_steady
      apply changeUnit_steady h
      · exact fun k => absurd k e
      · rfl
    · exact h

theorem placeUnit_steady (h : Steady full a s) (u : UnitId) : Steady full a (placeUnit u s) := by
  simp only [placeUnit]
  have hb := unitDirectory_bounds u
  apply putLink_steady
  refine put_steady_of (setWlc_steady h (fun v _ => ?_) fun p => ?_) 1 (by simp)
    fun b h1 h2 => busy_section (by omega)
  · rw [Wlc.unit_setUnit]
    split
    case isTrue e => subst e; rfl
    case isFalse e => cases v <;> rfl
  · obtain ⟨p1, p2, p3⟩ := p
    refine ⟨by cases u <;> exact Nat.le_trans p1 (Nat.le_add_right _ _), fun v => ?_,
      fun b => by cases u <;> exact p3 b⟩
    rw [Wlc.unit_setUnit]
    split
    · intro x hx
      simp at hx
      omega
    · have := p2 v
      cases v <;> exact this

theorem placeBank_steady (h : Steady full a s) (b : Bank) : Steady full a (placeBank b s) := by
  simp only [placeBank]
  have hb := bankDirectory_bounds b
  refine put_steady_of (setWlc_steady h (fun v _ => by cases v <;> rfl) fun p => ?_) 1 (by simp)
    fun b h1 h2 => busy_section (by omega)
  obtain ⟨p1, p2, p3⟩ := p
  refine ⟨by simp only; omega, fun v => by have := p2 v; cases v <;> exact this, fun c => ?_⟩
  rw [PerBank_get_set]
  split
  · intro x hx
    simp at hx
    omega
  · exact p3 c

theorem placeIfEnrolled_steady (h : Steady full a s) (u : UnitId) :
    Steady full a (placeIfEnrolled u s) := by
  simp only [placeIfEnrolled]
  repeat' first
      | with_reducible exact h | with_reducible apply placeUnit_steady | split

theorem placeIfConfigured_steady (h : Steady full a s) (b : Bank) :
    Steady full a (placeIfConfigured b s) := by
  simp only [placeIfConfigured]
  repeat' first
      | with_reducible exact h | with_reducible apply placeBank_steady | split

theorem placeBlocks_steady (h : Steady full a s) : Steady full a (placeBlocks s) := by
  simp only [placeBlocks, forBanks, forUnits, forWheels]
  repeat' first
      | with_reducible exact h | with_reducible apply placeIfEnrolled_steady
      | with_reducible apply placeIfConfigured_steady

theorem setOrder_steady (h : Steady full a s) (o : Option EnrollOrder) :
    Steady full a (setOrder o s) := by
  simp only [setOrder]
  repeat' first
      | with_reducible exact h | with_reducible apply setWlc_steady_same | exact rfl

theorem endOrder_steady (h : Steady full a s) : Steady full a (endOrder s) := by
  simp only [endOrder]
  repeat' first
      | with_reducible exact h | with_reducible apply setWlc_steady_same | exact rfl

theorem nextTarget_steady (h : Steady full a s) : Steady full a (nextTarget s) := by
  simp only [nextTarget]
  repeat' first
      | with_reducible exact h | with_reducible apply complete_steady
      | with_reducible apply setOrder_steady | with_reducible apply endOrder_steady | split

theorem abortRollCall_steady (h : Steady full a s) : Steady full a (abortRollCall s) := by
  simp only [abortRollCall]
  repeat' first
      | with_reducible exact h | with_reducible apply complete_steady
      | with_reducible apply setOrder_steady | with_reducible apply endOrder_steady | split

theorem openRound_steady (h : Steady full a s) : Steady full a (openRound s) := by
  simp only [openRound, forUnits, forWheels]
  repeat' first
      | with_reducible exact h | with_reducible apply takeConfigured_steady
      | with_reducible apply nextTarget_steady | with_reducible apply setWlc_steady_same | exact rfl

theorem endRound_steady (h : Steady full a s) : Steady full a (endRound s) := by
  simp only [endRound]
  repeat' first
      | with_reducible exact h | with_reducible apply setWlc_steady_same | split | exact rfl

theorem takeDueRound_steady (h : Steady full a s) : Steady full a (takeDueRound s) := by
  simp only [takeDueRound]
  repeat' first
      | with_reducible exact h | with_reducible apply openRound_steady
      | with_reducible apply endRound_steady | split

theorem settleRound_steady (h : Steady full a s) : Steady full a (settleRound s) := by
  simp only [settleRound]
  repeat' first
      | with_reducible exact h | with_reducible apply endRound_steady
      | with_reducible apply takeDueRound_steady

theorem beginRollCall_steady (h : Steady full a s) : Steady full a (beginRollCall s) := by
  simp only [beginRollCall, forUnits, forWheels]
  repeat' first
      | with_reducible exact h | with_reducible apply takeConfigured_steady
      | with_reducible apply setWlc_steady_same | exact rfl

theorem takeRollCall_steady (h : Steady full a s) : Steady full a (takeRollCall s) := by
  simp only [takeRollCall]
  repeat' first
      | with_reducible exact h | with_reducible apply beginRollCall_steady | split

theorem startRollCall_steady (h : Steady full a s) : Steady full a (startRollCall s) := by
  simp only [startRollCall]
  repeat' first
      | with_reducible exact h | with_reducible apply takeRollCall_steady
      | with_reducible apply abortRollCall_steady | with_reducible apply setWlc_steady_same
      | exact rfl

theorem reportLossOf_steady (h : Steady full a s) (u : UnitId) : Steady full a (reportLossOf u s) := by
  simp only [reportLossOf]
  repeat' first
      | with_reducible exact h | with_reducible apply reportLoss_steady | split

theorem reportLosses_steady (h : Steady full a s) : Steady full a (reportLosses s) := by
  simp only [reportLosses, forUnits, forWheels]
  repeat' first
      | with_reducible exact h | with_reducible apply reportLossOf_steady

theorem enterSettle_steady (h : Steady full a s) : Steady full a (enterSettle s) := by
  simp only [enterSettle]
  repeat' first
      | with_reducible exact h | with_reducible apply setCfl_steady | exact rfl

theorem endRollCall_steady (h : Steady full a s) : Steady full a (endRollCall s) := by
  simp only [endRollCall]
  repeat' first
      | with_reducible exact h | with_reducible apply raise_steady
      | with_reducible apply sauChange_steady | with_reducible apply placeBlocks_steady
      | with_reducible apply reportLosses_steady | with_reducible apply enterSettle_steady
      | with_reducible apply openRound_steady | with_reducible apply endRound_steady
      | with_reducible apply setWlc_steady_same | exact rfl

theorem rollCallTry_steady (h : Steady full a s) (done : Bool) :
    Steady full a (rollCallTry done s) := by
  simp only [rollCallTry]
  repeat' first
      | with_reducible exact h | with_reducible apply endRollCall_steady
      | with_reducible apply setWlc_steady_same | split | exact rfl

theorem requestQuiet_steady (h : Steady full a s) : Steady full a (requestQuiet s) := by
  simp only [requestQuiet, forWheels]
  repeat' first
      | with_reducible exact h | with_reducible apply setSlot_steady
      | with_reducible apply setWlc_steady_same | exact rfl

theorem wlcModeChange_steady (h : Steady full a s) : Steady full a (wlcModeChange s) := by
  simp only [wlcModeChange]
  repeat' first
      | with_reducible exact h | with_reducible apply abortRollCall_steady
      | with_reducible apply endRound_steady | with_reducible apply setWlc_steady_same | split
      | exact rfl

theorem enterEnroll_steady (h : Steady full a s) : Steady full a (enterEnroll s) := by
  simp only [enterEnroll]
  repeat' first
      | with_reducible exact h | with_reducible apply startRollCall_steady
      | with_reducible apply setCfl_steady | exact rfl

theorem putDmcSection_steady (h : Steady full a s) : Steady full a (putDmcSection s) :=
  put_steady_of h 16 (by simp [State.dmcWords, longWords]) fun b h1 h2 => busy_section (by omega)

theorem announceSubstate_steady (h : Steady full a s) : Steady full a (announceSubstate s) := by
  simp only [announceSubstate, runAll]
  repeat' first
      | with_reducible exact h | with_reducible apply tcuSubstateChange_steady
      | with_reducible apply stcSubstateChange_steady
      | with_reducible apply rgcSubstateChange_steady

theorem setSubstate_steady (h : Steady full a s) (sub : Substate) (t : Target) :
    Steady full a (setSubstate sub t s) := by
  simp only [setSubstate]
  repeat' first
      | with_reducible exact h | with_reducible apply announceSubstate_steady
      | with_reducible apply setDmc_steady | split | exact rfl

theorem formDemands_steady (h : Steady full a s) : Steady full a (formDemands s) := by
  simp only [formDemands]
  repeat' first
      | with_reducible exact h | with_reducible apply setDmc_steady | split | exact rfl

theorem endChangeover_steady (h : Steady full a s) : Steady full a (endChangeover s) := by
  simp only [endChangeover]
  repeat' first
      | with_reducible exact h | with_reducible apply setSubstate_steady | split

theorem formAndMove_steady (h : Steady full a s) : Steady full a (formAndMove s) := by
  simp only [formAndMove]
  repeat' first
      | with_reducible exact h | with_reducible apply setSubstate_steady
      | with_reducible apply formDemands_steady | with_reducible apply endChangeover_steady

theorem changeMode_steady (h : Steady full a s) {m : Mode} {f : Dmc → Dmc}
    (hf : ∀ d, (f d).demand = d.demand ∧ (f d).lastSeq = d.lastSeq ∧ (f d).period = d.period) :
    Steady full a (changeMode m f s) := by
  have hd : (s.dmc.startCounting m s.clock).demand = s.dmc.demand ∧
      (s.dmc.startCounting m s.clock).lastSeq = s.dmc.lastSeq ∧
      (s.dmc.startCounting m s.clock).period = s.dmc.period := by
    unfold Dmc.startCounting; split <;> simp
  obtain ⟨f1, f2, f3⟩ := hf (s.dmc.startCounting m s.clock)
  have key : ∀ d : Dmc, d.demand = s.dmc.demand → d.lastSeq = s.dmc.lastSeq →
      d.period = s.dmc.period → Steady full a (putDmcSection (put 0x0010 [m.code]
        (raise .modeChange ((s.setDmc d).setTripOut (m == .tripped))))) := fun d h1 h2 h3 =>
    putDmcSection_steady (put_steady_of (raise_steady (setTripOut_steady (setDmc_steady h h1 h2 h3) _) _)
      1 (by simp) fun b _ _ => busy_section (by omega))
  simp only [changeMode, runAll]
  refine wlcModeChange_steady (stcModeChange_steady (rgcModeChange_steady ?_))
  split
  · exact key _ (f1.trans hd.1) (f2.trans hd.2.1) (f3.trans hd.2.2)
  · exact announceSubstate_steady (key _ (f1.trans hd.1) (f2.trans hd.2.1) (f3.trans hd.2.2))

theorem enterTripped_steady (h : Steady full a s) : Steady full a (enterTripped s) := by
  simp only [enterTripped]
  repeat' first
      | with_reducible exact h | exact ⟨rfl, rfl, rfl⟩ | exact fun _ => ⟨rfl, rfl, rfl⟩
      | with_reducible apply requestQuiet_steady | with_reducible apply changeMode_steady

theorem enterSafeStop_steady (h : Steady full a s) : Steady full a (enterSafeStop s) := by
  simp only [enterSafeStop]
  repeat' first
      | with_reducible exact h | exact ⟨rfl, rfl, rfl⟩ | exact fun _ => ⟨rfl, rfl, rfl⟩
      | with_reducible apply formAndMove_steady | with_reducible apply changeMode_steady

theorem enterReady_steady (h : Steady full a s) : Steady full a (enterReady s) := by
  simp only [enterReady]
  repeat' first
      | with_reducible exact h | exact ⟨rfl, rfl, rfl⟩ | exact fun _ => ⟨rfl, rfl, rfl⟩
      | with_reducible apply changeMode_steady | with_reducible apply enterSafeStop_steady | split

theorem standbyToStarting_steady (h : Steady full a s) : Steady full a (standbyToStarting s) := by
  simp only [standbyToStarting]
  repeat' first
      | with_reducible exact h | exact ⟨rfl, rfl, rfl⟩ | exact fun _ => ⟨rfl, rfl, rfl⟩
      | with_reducible apply enterEnroll_steady | with_reducible apply changeMode_steady

theorem severityChange_steady (h : Steady full a s) : Steady full a (severityChange s) := by
  simp only [severityChange]
  repeat' first
      | with_reducible exact h | with_reducible apply enterTripped_steady
      | with_reducible apply enterSafeStop_steady | with_reducible apply standbyToStarting_steady
      | split

theorem endSettle_steady (h : Steady full a s) : Steady full a (endSettle s) := by
  simp only [endSettle]
  repeat' first
      | with_reducible exact h | with_reducible apply enterTripped_steady
      | with_reducible apply enterReady_steady | with_reducible apply setCfl_steady | split
      | exact rfl

theorem testSettle_steady (h : Steady full a s) : Steady full a (testSettle s) := by
  simp only [testSettle]
  repeat' first
      | with_reducible exact h | with_reducible apply endSettle_steady | split

theorem deliverSets_steady (h : Steady full a s) : Steady full a (deliverSets s) := by
  simp only [deliverSets]
  repeat' first
      | with_reducible exact h | with_reducible apply updatePru_steady
      | with_reducible apply observeEscalation_steady | with_reducible apply tcuExclusion_steady
      | with_reducible apply rgcExclusion_steady | split | exact rfl | exact fun _ => rfl

theorem announceSummary_steady (h : Steady full a s) : Steady full a (announceSummary s) := by
  simp only [announceSummary]
  repeat' first
      | with_reducible exact h | with_reducible apply raise_steady
      | with_reducible apply requestQuiet_steady | split

theorem deliverSummary_steady (h : Steady full a s) : Steady full a (deliverSummary s) := by
  simp only [deliverSummary]
  repeat' first
      | with_reducible exact h | with_reducible apply updatePru_steady
      | with_reducible apply severityChange_steady | with_reducible apply announceSummary_steady
      | exact rfl | exact fun _ => rfl

theorem deliver_steady (h : Steady full a s) : Steady full a (deliver s) := by
  simp only [deliver]
  repeat' first
      | with_reducible exact h | with_reducible apply deliverSets_steady
      | with_reducible apply deliverSummary_steady | split

theorem settleBy_steady (h : Steady full a s) (n : Nat) : Steady full a (settleBy n s) := by
  induction n generalizing s with
  | zero => exact h
  | succ n ih =>
    simp only [settleBy]
    split
    · exact h
    · exact ih (deliver_steady h)

theorem settle_steady (h : Steady full a s) : Steady full a (settle s) := by
  simp only [settle]
  repeat' first
      | with_reducible exact h | with_reducible apply settleBy_steady

theorem finishLink_steady (h : Steady full a s) : Steady full a (finishLink s) := by
  simp only [finishLink]
  repeat' first
      | with_reducible exact h | with_reducible apply settleRound_steady
      | with_reducible apply takeRollCall_steady
      | with_reducible apply testSettle_steady | with_reducible apply settle_steady

end Sys2Proof.Machine
end

