-- ==== Sys2Proof/Laws/Ends.lean ====
section
/-! SUPPORT. What the end of an order and a class event show: the forms in which Safety.lean states them. -/

namespace Sys2Proof.Machine

variable {s t : State}

theorem bit_getLsbD (c d : Cls) : d.bit.getLsbD c.num = (c == d) := by
  cases c <;> cases d <;> decide

theorem isIn_or (c d : Cls) (p : BitVec 12) : c.isIn (p ||| d.bit) = (c.isIn p || [d].contains c) := by
  simp only [Cls.isIn, BitVec.getLsbD_or, bit_getLsbD, List.contains_cons, List.contains_nil,
    Bool.or_false]

/-- A class event makes its class pending and nothing else (R18). -/
theorem raise_raised (c : Cls) (s : State) : Raised [c] s (raise c s) := by
  unfold raise
  split
  case isTrue h =>
    refine ⟨fun d => ?_, rfl, id⟩
    by_cases hd : d = c
    · subst hd; simp [h]
    · simp [hd]
  case isFalse h =>
    refine ⟨fun d => isIn_or d c _, rfl, fun _ => ?_⟩
    exact put_word (s := s.setAtc _) (a := 0x0022) (i := 0) (by simp)

/-- A class event writes the pending mirror only. -/
theorem raise_same (c : Cls) (s : State) : SameOutside [pendingRegion] s (raise c s) := by
  intro x hx
  unfold raise
  split
  · rfl
  · have := hx pendingRegion (by simp)
    exact put_byte_outside (by simp [pendingRegion] at this ⊢; omega)

/-- A class event alters the Attention Controller and the memory only. -/
theorem raise_rest (c : Cls) (s : State) :
    { raise c s with atc := s.atc, xm := s.xm } = s := by
  unfold raise
  split <;> rfl

theorem SameOutside.mono {l m : List (Nat × Nat)} (h : SameOutside l s t) (k : ∀ r ∈ l, r ∈ m) :
    SameOutside m s t := fun x hx => h x fun r hr => hx r (k r hr)

theorem SameOutside.trans {u : State} {l : List (Nat × Nat)} (h : SameOutside l s t)
    (k : SameOutside l t u) : SameOutside l s u := fun x hx => (k x hx).trans (h x hx)

/-- The words of a cell's end stand in it after the end (R9, R13). -/
theorem writeEnd_ended (cell : BitVec 6) (r : Result) (detail : List Word) (s : State) :
    (writeEnd cell r detail s).cellEnded cell r detail s.clock := by
  have hl : (detailWords detail).length = 8 := by simp [detailWords]
  simp only [writeEnd]
  constructor
  · have := put_word (s := put (cellBase cell + 0x36) (longWords s.clock)
      (put (cellBase cell + 0x20) (resultCode r :: detailWords detail) s)) (a := cellBase cell)
      (ws := [resultState r]) (i := 0) (by simp)
    rw [show cellBase cell + 2 * 0 = cellBase cell by omega] at this
    rw [this]
    cases r <;> rfl
  · rw [put_word_outside (by simp), put_word_outside (by omega)]
    exact put_word (ws := resultCode r :: detailWords detail) (i := 0) (by simp)
  · intro i hi
    rw [put_word_outside (by simp; omega), put_word_outside (by omega)]
    have := put_word (s := s) (a := cellBase cell + 0x20) (ws := resultCode r :: detailWords detail)
      (i := i + 1) (by simp [hl]; omega)
    rw [show cellBase cell + 0x22 + 2 * i = cellBase cell + 0x20 + 2 * (i + 1) by omega, this]
    simp only [List.getElem_cons_succ, detailWords, List.getElem_take]
    rw [List.getElem_append]
    split
    case isTrue h => simp [h]
    case isFalse h =>
      rw [List.getElem_replicate, List.getD_eq_getElem?_getD, List.getElem?_eq_none (by omega)]
      rfl
  · rw [put_word_outside (by simp)]
    exact put_word (a := cellBase cell + 0x36) (ws := longWords s.clock) (i := 0) (by simp [longWords])
  · rw [put_word_outside (by simp)]
    exact put_word (a := cellBase cell + 0x36) (ws := longWords s.clock) (i := 1) (by simp [longWords])

/-- The end of an order writes the words of its end only (R9). -/
theorem writeEnd_same (cell : BitVec 6) (r : Result) (detail : List Word) (s : State) :
    SameOutside (endRegions cell) s (writeEnd cell r detail s) := by
  intro x hx
  have hl : (detailWords detail).length = 8 := by simp [detailWords]
  have h1 := hx (cellBase cell, 2) (by simp [endRegions])
  have h2 := hx (cellBase cell + 0x20, 0x12) (by simp [endRegions])
  have h3 := hx (cellBase cell + 0x36, 4) (by simp [endRegions])
  simp only at h1 h2 h3
  simp only [writeEnd]
  rw [put_byte_outside (by simp; omega), put_byte_outside (by simp [longWords]; omega),
    put_byte_outside (by simp [hl]; omega)]

/-- The end of an order writes the memory only. -/
theorem writeEnd_rest (cell : BitVec 6) (r : Result) (detail : List Word) (s : State) :
    { writeEnd cell r detail s with xm := s.xm } = s := rfl

/-- A cell that shows an end goes on showing it while its words stay. -/
theorem State.cellEnded.keep {cell : BitVec 6} {r : Result} {detail : List Word} {clock : Long}
    (h : s.cellEnded cell r detail clock)
    (k : ∀ x, cellBase cell ≤ x → x < cellBase cell + 64 → t.xm.byte x = s.xm.byte x) :
    t.cellEnded cell r detail clock := by
  have hw : ∀ y, cellBase cell ≤ y → y + 2 ≤ cellBase cell + 64 → t.word y = s.word y := by
    intro y h1 h2
    unfold State.word Memory.word
    rw [k y h1 (by omega), k (y + 1) (by omega) (by omega)]
  exact ⟨by rw [hw _ (by omega) (by omega), h.state], by rw [hw _ (by omega) (by omega), h.code],
    fun i hi => by rw [hw _ (by omega) (by omega), h.detail i hi],
    by rw [hw _ (by omega) (by omega), h.stampLow], by rw [hw _ (by omega) (by omega), h.stampHigh]⟩

/-- A class event after an end leaves the words of the end. -/
theorem raise_ended {cell : BitVec 6} {r : Result} {detail : List Word} {clock : Long} (c : Cls)
    (h : s.cellEnded cell r detail clock) : (raise c s).cellEnded cell r detail clock :=
  h.keep fun x h1 h2 => raise_same c s x fun r hr => by
    simp only [List.mem_singleton] at hr
    subst hr
    simp only [pendingRegion, cellBase] at *
    omega

/-- The end of an order at its cell (R13). -/
theorem endCell_orderEnded (cell : BitVec 6) (r : Result) (detail : List Word) (s : State) :
    OrderEnded cell r detail [] s (endCell cell r detail s) := by
  have hr := raise_raised .orderDone (writeEnd cell r detail s)
  refine ⟨raise_ended _ (writeEnd_ended cell r detail s), ⟨hr.pending, hr.rest, fun h => hr.mirror ?_⟩, ?_⟩
  · show (writeEnd cell r detail s).word 0x0022 = _
    have hw : (writeEnd cell r detail s).word 0x0022 = s.word 0x0022 := by
      unfold State.word Memory.word
      have hs := writeEnd_same cell r detail s
      have hc : ∀ x, x < 0x0800 → (writeEnd cell r detail s).xm.byte x = s.xm.byte x := fun x hx =>
        hs x fun q hq => by
          simp only [endRegions, List.mem_cons, List.not_mem_nil, or_false] at hq
          rcases hq with rfl | rfl | rfl <;> simp only [cellBase] <;> omega
      rw [hc _ (by omega), hc _ (by omega)]
    rw [hw, h]
    rfl
  · intro x hx
    have h1 := raise_same .orderDone (writeEnd cell r detail s) x fun q hq => hx q (by
      simp only [List.mem_singleton] at hq; subst hq; simp)
    rw [show (endCell cell r detail s).xm.byte x = (raise .orderDone (writeEnd cell r detail s)).xm.byte x
      from rfl, h1]
    exact writeEnd_same cell r detail s x fun q hq => hx q (by simp [hq])

/-- The end of an order alters the Attention Controller and the memory only. -/
theorem endCell_rest (cell : BitVec 6) (r : Result) (detail : List Word) (s : State) :
    { endCell cell r detail s with atc := s.atc, xm := s.xm } = s := by
  have := raise_rest .orderDone (writeEnd cell r detail s)
  simp only [endCell]
  exact congrArg (fun t : State => { t with xm := s.xm }) this

end Sys2Proof.Machine
end

