-- ==== Sys2Proof/Laws/SteadyDemand.lean ====
section
/-! SUPPORT. What a demand sample does after a page is accepted leaves the demand record and the setpoint
pages as they are. -/

namespace Sys2Proof.Machine

variable {a s : State}

/-- Any observation leaves the demand record and the pages. -/
theorem note_steady_page (h : Steady false a s) (k : Kind) (subject : Subject) (present : Bool) :
    Steady false a (note k subject present s) := by
  simp only [note]
  refine raiseIf_steady (updatePru_steady h ?_ ?_) _ _
  · exact fun f => absurd f (by simp)
  · rfl

theorem noteChange_steady (h : Steady false a s) (k : Kind) (subject : Subject) (before after : Bool) :
    Steady false a (noteChange k subject before after s) := by
  simp only [noteChange, noteIf]
  split
  · exact note_steady_page h _ _ _
  · exact h

theorem tcuPage_steady (h : Steady false a s) : Steady false a (tcuPage s) := by
  simp only [tcuPage, runAll]
  repeat' first
      | with_reducible exact h | with_reducible apply putTcuSection_steady
      | with_reducible apply judgeQuality_steady | with_reducible apply recomputeIn_steady
      | exact rfl | exact fun _ => rfl

theorem putLmuSection_steady (h : Steady false a s) : Steady false a (putLmuSection s) :=
  put_steady_page h 32 (by simp [Lmu.words, longWords, allWheels]) (by omega)

theorem latchPayload_steady (h : Steady false a s) : Steady false a (latchPayload s) := by
  simp only [latchPayload]
  split
  · exact setLmu_steady h fun f => absurd f (by simp)
  · exact h

theorem lmuPage_steady (h : Steady false a s) : Steady false a (lmuPage s) := by
  simp only [lmuPage]
  repeat' first
      | with_reducible exact h | with_reducible apply putLmuSection_steady
      | with_reducible apply latchPayload_steady | split | exact rfl | exact fun _ => rfl

theorem driveToReady_steady (h : Steady false a s) : Steady false a (driveToReady s) := by
  simp only [driveToReady]
  repeat' first
      | with_reducible exact h | exact ⟨rfl, rfl, rfl⟩ | exact fun _ => ⟨rfl, rfl, rfl⟩
      | with_reducible apply changeMode_steady | with_reducible apply enterSafeStop_steady | split
      | exact rfl | exact fun _ => rfl

theorem leaveStandbySteps_steady (h : Steady false a s) : Steady false a (leaveStandbySteps s) := by
  simp only [leaveStandbySteps]
  repeat' first
      | with_reducible exact h | with_reducible apply enterReady_steady
      | with_reducible apply standbyToStarting_steady | split | exact rfl | exact fun _ => rfl

theorem updateFreshness_steady (h : Steady false a s) : Steady false a (updateFreshness s) := by
  simp only [updateFreshness]
  repeat' first
      | with_reducible exact h | with_reducible apply raiseIf_steady
      | with_reducible apply noteChange_steady | with_reducible apply setDmc_steady | split
      | exact rfl | exact fun _ => rfl

theorem wake_steady (h : Steady false a s) (accepted : Bool) : Steady false a (wake accepted s) := by
  simp only [wake]
  repeat' first
      | with_reducible exact h | with_reducible apply leaveStandbySteps_steady | split | exact rfl
      | exact fun _ => rfl

theorem returnCheck_steady (h : Steady false a s) : Steady false a (returnCheck s) := by
  simp only [returnCheck]
  repeat' first
      | with_reducible exact h | with_reducible apply enterReady_steady | split | exact rfl
      | exact fun _ => rfl

theorem finishStop_steady (h : Steady false a s) : Steady false a (finishStop s) := by
  simp only [finishStop]
  repeat' first
      | with_reducible exact h | with_reducible apply enterTripped_steady
      | with_reducible apply setDmc_steady | exact rfl | exact fun _ => rfl

theorem countStop_steady (h : Steady false a s) : Steady false a (countStop s) := by
  simp only [countStop]
  repeat' first
      | with_reducible exact h | with_reducible apply finishStop_steady
      | with_reducible apply setDmc_steady | split | exact rfl | exact fun _ => rfl

theorem enterDriveCheck_steady (h : Steady false a s) : Steady false a (enterDriveCheck s) := by
  simp only [enterDriveCheck]
  repeat' first
      | with_reducible exact h | exact ⟨rfl, rfl, rfl⟩ | exact fun _ => ⟨rfl, rfl, rfl⟩
      | with_reducible apply changeMode_steady | with_reducible apply setDmc_steady | split
      | exact rfl | exact fun _ => rfl

theorem modeChecks_steady (h : Steady false a s) : Steady false a (modeChecks s) := by
  simp only [modeChecks]
  repeat' first
      | with_reducible exact h | with_reducible apply returnCheck_steady
      | with_reducible apply countStop_steady | with_reducible apply enterDriveCheck_steady | split
      | exact rfl | exact fun _ => rfl

theorem adoptDirection_steady (h : Steady false a s) (d : Direction) :
    Steady false a (adoptDirection d s) := by
  simp only [adoptDirection]
  repeat' first
      | with_reducible exact h | with_reducible apply setSubstate_steady
      | with_reducible apply setDmc_steady | split | exact rfl | exact fun _ => rfl

theorem directionCheck_steady (h : Steady false a s) : Steady false a (directionCheck s) := by
  simp only [directionCheck]
  repeat' first
      | with_reducible exact h | with_reducible apply driveToReady_steady
      | with_reducible apply adoptDirection_steady | with_reducible apply setDmc_steady | split
      | exact rfl | exact fun _ => rfl

theorem demandStep_steady (h : Steady false a s) : Steady false a (demandStep s) := by
  simp only [demandStep]
  repeat' first
      | with_reducible exact h | with_reducible apply formAndMove_steady | split | exact rfl
      | exact fun _ => rfl

end Sys2Proof.Machine
end

