-- ==== Sys2Proof/WellFormed.lean ====
section
/-! DEFINITION. Which commands can be given at all: the checks on operands that the constructors'
types leave open. -/

namespace Sys2Proof

/-- R23: the register window writes that are ignored: PART_STATUS (0), ATTN_POLL (2), word offsets
6 and 7, and PART_CONTROL (1) with a request other than 0xA and 0x5. A write to any other register
is a row of its own. -/
def ignoredRegisterWrite (register : BitVec 3) (value : Word) : Bool :=
  match register.toNat with
  | 0 | 2 | 6 | 7 => true
  | 1 => value.extractLsb' 12 4 != 0xA && value.extractLsb' 12 4 != 0x5
  | _ => false

/-- A command is well formed when it is one that can come: an ignored register write names a
register that ignores it (R23), a completion carries the 8 detail words of a cell (section 1.4), and
a telegram is a run of at least one byte (R37). -/
def Instr.wf : Instr → Bool
  | .registerWriteIgnored register value => ignoredRegisterWrite register value
  | .orderCompletion _ _ _ detail => detail.length == 8
  | .rollAnswerArrival bytes => !bytes.isEmpty
  | .reportArrival bytes _ => !bytes.isEmpty
  | .steerReportArrival bytes _ => !bytes.isEmpty
  | .powerOn | .resetPinAssert | .resetPinRelease | .driveClockTick | .hostWordWrite _ _
  | .readyMarkWrite _ | .guardCheck | .guardedCopyUpset _ _ | .softRestart | .chainRestart _
  | .attnPoll | .attnEndSpecific _ | .attnEndNonSpecific | .attnMaskWrite _
  | .attnThresholdWrite _ | .chainScan | .setLimits _ _ _ _ | .loadEnvelope _ | .clearFaults _ _
  | .enterStandby _ _ _ | .leaveStandby _ | .applyConfig _ | .gridTest _ _ _ _
  | .steerCalibrate _ | .rollCall _ | .abort _ _ | .demandSample | .stopTimeExpiry
  | .settleTimeExpiry | .roundStart | .driveTransmit _ | .steerTransmit | .rollTransmit _
  | .quietTransmit | .replyWindowExpiry | .allocationEvent | .gridDemandArrival
  | .linkVoltageSample _ | .filteredUpdate | .linkUndervoltSet | .linkUndervoltClear
  | .holdUpdate | .envelopeExceededSet | .envelopeExceededClear | .shortfallAdd
  | .shortfallRemove | .rotationReview | .channelPeriodStart _ | .onExpiry _ | .dischargeExpiry
  | .pulseExpiry | .calibrationExpiry | .thermalSample _ | .gridHotClear _ | .blowerFailSet
  | .blowerFailClear | .windingHotSet _ | .windingHotClear _ | .discreteInputSample _
  | .externalStopActive | .externalStopInactive | .supplyFall => true

end Sys2Proof
end

