-- ==== Sys2Proof/Tests/Slice0.lean ====
section
/-! SUPPORT. Tests by `decide`: the ill-formed commands that the checks refuse, the spec's worked
examples, and for each statement of Obligations.lean that has hypotheses a named state and operands
that meet them, clause by clause. Expected values are those of the section that each test names. -/

set_option Elab.async false

namespace Sys2Proof.Tests
open Sys2Proof.Machine

/-! ## States for the tests -/

/-- The default configuration with four wheels, four banks and the SAU, STANDARD profile. -/
def config : Params :=
  { Params.default with
    profile := 0x5A5A, arrangement := 0x4E4E, steerSource := 0x5C5C
    envelope := List.replicate 48 300 }

/-- A unit that answers, with READY set in the report it holds. -/
def enrolledUnit : UnitRec :=
  { UnitRec.reset with
    configured := true, state := .enrolled, capability := 20000, held := .current
    report := { Report.cleared with flags := 1 }, lastSeq := 7 }

/-- READY at standstill with every unit ENROLLED, 5 s after start-up, a fresh demand of NEUTRAL, 1700 V
on the link and an empty fault table. Wheel 1 and bank 1 have status blocks. -/
def ready : State :=
  { State.reset with
    clock := 5000
    cfl := { State.reset.cfl with
      phase := .complete, guardOn := true, active := config, profileCopy := 0x5A5A
      arrangementCopy := 0x4E4E, steerCopy := 0x5C5C, armed := false }
    wlc := { Wlc.reset with
      wheels := { PerWheel.fill enrolledUnit with w1 := { enrolledUnit with block := some 0x2100 } }
      sau := { enrolledUnit with capability := 4500 }, cursor := 0x2300
      bankBlock := (PerBank.fill none).set .b1 (some 0x2200), roundsOn := true }
    dmc := { Dmc.reset with mode := .ready, substate := .coast, fresh := .fresh, freshRef := 4990 }
    tcu := { Tcu.reset with
      vRef := some 0, quality := .front
      wheels := PerWheel.fill { TcuWheel.reset with held := some 0 } }
    rgc := { Rgc.reset with
      samples := List.replicate 16 1700, vF := 1700, capacity := 3608, table := config.envelope
      rotation := [.b1, .b2, .b3, .b4]
      chans := { PerBank.fill { Chan.reset with state := .run } with b5 := Chan.reset, b6 := Chan.reset }
      blower := { Chan.reset with state := .run } }
    pru := { State.reset.pru with lossHeld := PerWheel.fill false } }

/-- `ready` in another mode and substate. -/
def inMode (m : Mode) (sub : Substate) : State :=
  { ready with dmc := { ready.dmc with mode := m, substate := sub } }

/-- DRIVE, FORWARD, with the demands of a page and a reference speed. -/
def driving (sub : Substate) (propel retard speed : Nat) : State :=
  { inMode .drive sub with
    dmc := { (inMode .drive sub).dmc with
      adopted := .forward, effPropel := propel, effRetard := retard
      demand := { Demand.reset with
        direction := .forward, propel := propel, retard := retard, enginePower := 2400
        gradeKnown := true, payloadKnown := true, payload := 2500 } }
    tcu := { ready.tcu with vRef := some speed } }

/-- The same demands with REAR_PAIR, so that two wheels share the power. -/
def rearPair (s : State) : State :=
  { s with cfl := { s.cfl with active := { s.cfl.active with arrangement := 0x2E2E } } }

def withWheel (w : Wheel) (t : TqaWheel) (u : TcuWheel) (s : State) : State :=
  { s with
    tqa := { s.tqa with wheels := s.tqa.wheels.set w t }
    tcu := { s.tcu with wheels := s.tcu.wheels.set w u } }

def tqaAt (reference : Int) : TqaWheel := { TqaWheel.reset 100000000 false false with reference := reference }
def tcuAt (speed : Int) : TcuWheel := { TcuWheel.reset with held := some speed }

/-- The exchange memory with words written at an offset. -/
def withWords (a : Nat) (ws : List Word) (s : State) : State := { s with xm := s.xm.store a ws }

/-- The next state of a command, or the state itself when there is none. -/
def after (c : Instr) (s : State) : State :=
  match exec c s with
  | .next t => t
  | .fault _ => s
  | .refused _ => s

/-! ## Ill-formed commands -/

/-- A write to ATTN_END (register 3), ATTN_MASK or ATTN_THRESHOLD is not one of the ignored ones. -/
theorem smoke_ignored_write_register :
    (Instr.registerWriteIgnored 3 0).wf = false ∧ (Instr.registerWriteIgnored 4 0).wf = false ∧
      (Instr.registerWriteIgnored 5 0).wf = false := by decide

/-- A PART_CONTROL write with request 0xA or 0x5 is a command of its own; another is ignored. -/
theorem smoke_ignored_write_request :
    (Instr.registerWriteIgnored 1 0xA000).wf = false ∧ (Instr.registerWriteIgnored 1 0x5012).wf = false ∧
      (Instr.registerWriteIgnored 1 0x3000).wf = true ∧ (Instr.registerWriteIgnored 7 9).wf = true := by
  decide

/-- A completion with seven detail words is refused, one with eight is not. -/
theorem smoke_completion_detail :
    (Instr.orderCompletion .grid 3 .ok [0, 0, 0, 0, 0, 0, 0]).wf = false ∧
      (Instr.orderCompletion .grid 3 .ok [0, 0, 0, 0, 0, 0, 0, 0]).wf = true := by decide

/-- A telegram of no bytes is refused, of each of the three kinds. -/
theorem smoke_empty_telegrams :
    (Instr.rollAnswerArrival []).wf = false ∧ (Instr.reportArrival [] .o123).wf = false ∧
      (Instr.steerReportArrival [] .o321).wf = false ∧ (Instr.reportArrival [0] .o123).wf = true := by
  decide

/-- No row of the table gives bits, so no word spells a command. -/
theorem test_no_word_decodes : decodeTableWord 16 0x1234 = none := by decide

/-! ## Reset and start-up -/

/-- POWER_ON from the state after reset gives it again: the header and the drive record sections that
the start-up writes are the ones listed. -/
theorem test_power_on : after .powerOn State.reset = State.reset := by decide +kernel

/-- R145 and section 1.12.6: at start-up the RGC section holds the reset values, P_cap 0 among them, also
where a kept GRID_HOT entry excludes bank 1 and P_cap is computed later in the start-up. -/
theorem test_start_up_section :
    (fun t : State => (t.word 0x2064, t.pru.bankEx.get .b1))
      (after .softRestart { ready with pru := { ready.pru with entries :=
        [{ kind := .gridHot, subject := .bank .b1, state := .latched, action := .exclude
           setProgress := 1, clearProgress := 0, cond := false, firstSeen := 9, lastChange := 9
           occurrence := 1 }] } }) = (0, true) := by decide +kernel

/-- The identity words of section 1.2: vendor 0x0FC4, part 0x1BE4 (7140), revision 1. -/
theorem test_identity :
    State.reset.word 0 = 0x0FC4 ∧ State.reset.word 2 = 7140 ∧ State.reset.word 4 = 1 := by decide

/-- Section 2.9: T_peak 11000 below T_cont 12000 fails as INCONSISTENT at 0x000E. -/
theorem test_refused_block :
    validate ((Memory.store 0x0200
      ([0x5A5A, 0x2E2E, 0x5C5C, 4, 0xFFFF, 0xFFFF, 12000, 11000] : List Word) [])) =
      (.inconsistent, 0x0E) := by decide +kernel

/-! ## The wheel link -/

/-- R38: the nine characters "123456789" give 0x29B1. -/
theorem test_crc : crc [0x31, 0x32, 0x33, 0x34, 0x35, 0x36, 0x37, 0x38, 0x39] = 0x29B1 := by
  decide +kernel

/-! ## Torque allocation -/

/-- Section 5.14's truck: REAR_PAIR, 12000 on both wheels, a WINDING derate of 850 on each. -/
def haul (nearest : Nat) : State :=
  let s := rearPair (driving .propel 900 0 246)
  withWheel .w2 (tqaAt 7000) (tcuAt 12000) (withWheel .w1 (tqaAt 7000) (tcuAt 12000)
    { s with
      cfl := { s.cfl with active := { s.cfl.active with rounding := nearest } }
      stc := { s.stc with reserve := 120 }
      lmu := { s.lmu with derates :=
        [{ source := .winding, target := .wheel .w1, factor := 850, since := 0, changed := 0 },
          { source := .winding, target := .wheel .w2, factor := 850, since := 0, changed := 0 }] } })

/-- Section 5.14: n_act 2, P_trac 2280, P_w 1140, references +7500 with binding RATE, request 16200,
target +7710, T_pow 9071, P_ret 0, and a credit rise of 11250. -/
theorem test_haul :
    (fun t : State => (t.tqa.nAct, t.tqa.pTrac, t.tqa.pW, t.tqa.pRet)) (after .allocationEvent (haul 0)) =
        (2, 2280, 1140, 0) ∧
      (fun t : TqaWheel => (t.reference, t.target, t.request, t.binding, t.tPow, t.credit))
        ((after .allocationEvent (haul 0)).tqa.wheels.get .w2) =
        (7500, 7710, 16200, .rate, 9071, 100011250) := by decide +kernel

/-- Section 5.14 under NEAREST: T_pow 9072, target +7711, reference +7500. -/
theorem test_haul_nearest :
    (fun t : TqaWheel => (t.reference, t.target, t.tPow))
      ((after .allocationEvent (haul 1)).tqa.wheels.get .w1) = (7500, 7711, 9072) := by decide +kernel

/-- Section 5.15's truck in a left turn with a bias of 152. -/
def turning : State :=
  let s := rearPair (driving .propel 900 0 60)
  withWheel .w2 (tqaAt 13500) (tcuAt 3000) (withWheel .w1 (tqaAt 13500) (tcuAt 3000)
    { s with stc := { s.stc with reserve := 120, turn := .left, kappa := 190, beta := 152 } })

/-- Section 5.15: the inner wheel takes +13737 by REQUEST, the outer +14000 by RATE. -/
theorem test_turning :
    (fun t : TqaWheel => (t.reference, t.request, t.binding, t.biasApplied))
        ((after .allocationEvent turning).tqa.wheels.get .w1) = (13737, 13737, .request, -152) ∧
      (fun t : TqaWheel => (t.reference, t.request, t.binding, t.biasApplied))
        ((after .allocationEvent turning).tqa.wheels.get .w2) = (14000, 18662, .rate, 152) := by
  decide +kernel

/-- Section 5.16's truck: 14000 on both wheels, wheel 2 held in SLIDE at 600, a PAYLOAD derate. -/
def descending : State :=
  let s := rearPair (driving .retard 0 700 288)
  withWheel .w2 (tqaAt (-11500)) { tcuAt 14000 with slip := .slide, factor := 600 }
    (withWheel .w1 (tqaAt (-11500)) (tcuAt 14000)
      { s with lmu := { s.lmu with derates :=
        [{ source := .payload, target := .allWheels, factor := 800, since := 0, changed := 0 }] } })

/-- Section 5.16: −12000 and −10000, both by RATE, and P_ret 3225. -/
theorem test_descending :
    (fun t : State => ((t.tqa.wheels.get .w1).reference, (t.tqa.wheels.get .w1).target,
        (t.tqa.wheels.get .w2).reference, (t.tqa.wheels.get .w2).target, t.tqa.pRet))
      (after .allocationEvent descending) = (-12000, -12304, -10000, -7382, 3225) := by decide +kernel

/-- Section 5.17: at 30000 of credit a reference of +18000 spends it; then the clamp gives +12000. -/
theorem test_spent :
    (fun t : TqaWheel => (t.reference, t.credit, t.spent, t.spentByUse))
        ((after .allocationEvent (withWheel .w1 { tqaAt 18000 with credit := 30000 } (tcuAt 3000)
          (rearPair (driving .propel 1000 0 246)))).tqa.wheels.get .w1) = (18000, 0, true, true) ∧
      (fun t : TqaWheel => (t.reference, t.binding))
        ((after .allocationEvent (withWheel .w1 { tqaAt 18000 with credit := 0, spent := true }
          (tcuAt 3000) (rearPair (driving .propel 1000 0 246)))).tqa.wheels.get .w1) =
        (12000, .clamp) := by decide +kernel

/-! ## Traction -/

/-- Section 6.9: V_ref 103, κ 190, expected speeds 83 and 122. -/
theorem test_turn_speeds :
    (100 + 120) * cos10000 2000 / 20000 = 103 ∧ 3500 * tan10000 2000 / 67000 = 190 ∧
      expectedSpeed config 103 (outerSign .left .w1) 190 = 83 ∧
      expectedSpeed config 103 (outerSign .left .w2) 190 = 122 := by decide +kernel

/-- Section 6.9: the slip ratios of both wheels, round by round. -/
theorem test_turn_ratios :
    slipRatio config (groundSpeed config 4100) 83 = 12 ∧
      [6900, 6950, 7000, 6500, 6200].map (fun n => slipRatio config (groundSpeed config n) 122) =
        [163, 172, 180, 90, 40] := by decide +kernel

/-- Section 6.9: the third departure in PROPEL cuts to 600 and enters SLIP; 40 leads to RECOVER; a
departure in RECOVER at 760 cuts to 456. -/
theorem test_turn_states :
    (fun t : TcuWheel => (t.slip, t.factor, t.count))
        ({ TcuWheel.reset with count := 2 }.moveSlip config .propel 180) = (.slip, 600, 0) ∧
      (fun t : TcuWheel => (t.slip, t.factor))
        ({ TcuWheel.reset with slip := .slip, factor := 600 }.moveSlip config .propel 40) =
          (.recover, 600) ∧
      (fun t : TcuWheel => (t.slip, t.factor))
        ({ TcuWheel.reset with slip := .recover, factor := 760 }.moveSlip config .propel 151) =
          (.slip, 456) := by decide +kernel

/-- Section 6.10: from a held speed of 12000 a report of 31000 is discarded one round later and
admitted ten rounds later. -/
theorem test_jump :
    { TcuWheel.reset with held := some 12000, heldStamp := 30000 }.plausible 4 31000 30004 = false ∧
      { TcuWheel.reset with held := some 12000, heldStamp := 30000 }.plausible 4 31000 30040 = true ∧
      ({ TcuWheel.reset with discards := 4 }.discard).implausibleCond = true := by decide +kernel

/-- Section 8.12: the limits at V_ref 150 and 350, and the factor 195 at 20.50°. -/
theorem test_switchback :
    (angleLimit config (some 150), rateLimit config (some 150)) = (3800, 150) ∧
      (angleLimit config (some 350), rateLimit config (some 350)) = (2400, 94) ∧
      tan10000 2050 = 3739 ∧ 3500 * tan10000 2050 / 67000 = 195 := by decide +kernel

/-- Section 10.9: the third FAULT in a row takes WHEEL_FAULT to ACTIVE with occurrence 1, and the tenth
report without it, under STRICT, to LATCHED; under STANDARD it becomes CLEARED. -/
theorem test_fault_life :
    (fun e : Entry × Bool => (e.1.state, e.1.occurrence, e.2))
        (({ Entry.fresh config 80000 .wheelFault (.wheel .w2) with setProgress := 2 }).seePresent
          80008) = (.active, 1, true) ∧
      [0xA5A5, 0x5A5A].map (fun profile : Word =>
        (({ Entry.fresh config 80000 .wheelFault (.wheel .w2) with
          state := .active, clearProgress := 9 }).seeAbsent { config with profile := profile }
            80048).1.map Entry.state) = [some .latched, some .cleared] := by decide +kernel

/-! ## Grids and heat -/

/-- Section 7.8.1's distribution: 2000 kW at 1800 V over four banks. -/
def distribution : State :=
  { inMode .ready .coast with
    rgc := { ready.rgc with vF := 1800, demand := 2000, demandNew := true } }

/-- Section 7.8.1: duties 65536, 65536, 30745 and 0, nothing unmet. -/
theorem test_distribution :
    (fun t : State => (allBanks.map fun b => (t.rgc.chans.get b).shadow, t.rgc.unmet))
      (after .gridDemandArrival distribution) = ([65536, 65536, 30745, 0, 0, 0], 0) := by decide +kernel

/-- Section 7.8.1: on-times of 469 µs, the carry 8616 after the first period, and 470 µs with 3392
left in the eighth. -/
theorem test_carry :
    (fun c : Chan => (c.onTime, c.carry))
        ({ Chan.reset with state := .run, shadow := 30745 }.startPeriod 1000 20) = (469, 8616) ∧
      (fun c : Chan => (c.onTime, c.carry))
        ({ Chan.reset with state := .run, shadow := 30745, carry := 60312 }.startPeriod 1000 20) =
          (470, 3392) := by decide +kernel

/-- R123: at the defaults four banks give 3608 kW, and with the BLOWER derate of 250 they give 900
(section 9.12). -/
theorem test_capacity :
    ready.gridCapacity = 3608 ∧
      { ready with lmu := { ready.lmu with derates :=
        [{ source := .blower, target := .allBanks, factor := 250, since := 0, changed := 0 }] }
        }.gridCapacity = 900 := by decide +kernel

/-- Section 9.12's bank at 600.0 °C in an ambient of 35 °C, at 1900 V. -/
def hotBank (theta : Int) (heat commanded onTotal : Nat) (fail : Bool) : State :=
  { ready with
    rgc := { ready.rgc with
      vF := 1900, chans := ready.rgc.chans.set .b1 { Chan.reset with state := .run, onTotal := onTotal } }
    lmu := { ready.lmu with
      heat := ready.lmu.heat.set .b1 heat, theta := ready.lmu.theta.set .b1 theta
      commanded := commanded, blowerFail := fail } }

/-- Section 9.12: E_in 60016, E_out 169500, Q_1 225890516, θ_1 5997 and the factor 668. -/
theorem test_heat_sample :
    (fun t : State => (t.lmu.eIn.get .b1, t.lmu.eOut.get .b1, t.lmu.heat.get .b1, t.lmu.theta.get .b1,
        t.lmu.factorOf .gridHeat (.bank .b1)))
      (after (.thermalSample .high) (hotBank 6000 226000000 65536 66500 false)) =
      (60016, 169500, 225890516, 5997, 668) := by decide +kernel

/-- Section 9.12 with the blower failed: E_in 22562, E_out 16695, Q_1 222605867, θ_1 5915. -/
theorem test_heat_sample_failed :
    (fun t : State => (t.lmu.eIn.get .b1, t.lmu.eOut.get .b1, t.lmu.heat.get .b1, t.lmu.theta.get .b1))
      (after (.thermalSample .low) (hotBank 5915 222600000 65536 25000 true)) =
      (22562, 16695, 222605867, 5915) := by decide +kernel

/-! ## What the witnesses share -/

/-- Closed conjuncts at the front are decided in one piece. -/
theorem front3 {p q r t : Prop} (x : p ∧ q ∧ r) (y : t) : p ∧ q ∧ r ∧ t := by
  simpa only [and_assoc] using And.intro x y

/-- `front3` with four of them. -/
theorem front4 {p q r s t : Prop} (x : p ∧ q ∧ r ∧ s) (y : t) : p ∧ q ∧ r ∧ s ∧ t := by
  simpa only [and_assoc] using And.intro x y

/-- What every class of the list has, every class has. -/
theorem eachClass {p : Cls → Prop} (h : ∀ c ∈ allClasses, p c) (c : Cls) : p c :=
  h c (by cases c <;> decide)

/-- An empty fault table, and an empty derate list, hold no two entries of one pair. -/
theorem noEntries : ([] : List Entry).Pairwise Entry.differs := List.Pairwise.nil

/-- An empty fault table holds no entry of any pair. -/
theorem noneListed {p : Entry → Prop} : ∀ e ∈ ([] : List Entry), p e :=
  fun _ h => absurd h List.not_mem_nil

/-- The placement of every status block, as a Bool. -/
def placedCheck (l : Wlc) : Bool :=
  decide (Config.firstBlock ≤ l.cursor) &&
    allUnits.all (fun u => (l.unit u).block.all fun a => decide (Config.firstBlock ≤ a)) &&
    allBanks.all fun b => (l.bankBlock.get b).all fun a => decide (Config.firstBlock ≤ a)

theorem placed_of {l : Wlc} (h : placedCheck l = true) : l.placed := by
  simp only [placedCheck, Bool.and_eq_true, decide_eq_true_eq, List.all_eq_true,
    Option.all_eq_true] at h
  obtain ⟨⟨h1, h2⟩, h3⟩ := h
  refine ⟨h1, fun u a ha => h2 u ?_ a ha, fun b a ha => h3 b ?_ a ha⟩
  · rcases u with ⟨⟨⟩⟩ | ⟨⟩ <;> decide
  · cases b <;> decide

/-- That no two status blocks share a byte, and that all stand before the cursor, as a Bool. -/
def apartCheck (l : Wlc) : Bool :=
  let off := fun (a b : Option Nat) => a.all fun x => b.all fun y => decide (x + 256 ≤ y ∨ y + 256 ≤ x)
  allUnits.all (fun u => allUnits.all fun v => decide (u = v) || off (l.unit u).block (l.unit v).block) &&
    allUnits.all (fun u => allBanks.all fun b => off (l.unit u).block (l.bankBlock.get b)) &&
    allBanks.all (fun b => allBanks.all fun c =>
      decide (b = c) || off (l.bankBlock.get b) (l.bankBlock.get c)) &&
    allUnits.all (fun u => (l.unit u).block.all fun a => decide (a + 256 ≤ l.cursor)) &&
    allBanks.all fun b => (l.bankBlock.get b).all fun a => decide (a + 256 ≤ l.cursor)

theorem mem_allUnits (u : UnitId) : u ∈ allUnits := by rcases u with ⟨⟨⟩⟩ | ⟨⟩ <;> decide

theorem mem_allBanks (b : Bank) : b ∈ allBanks := by cases b <;> decide

theorem apart_of {l : Wlc} (h : apartCheck l = true) : l.apart := by
  simp only [apartCheck, Bool.and_eq_true, decide_eq_true_eq, List.all_eq_true, Bool.or_eq_true,
    Option.all_eq_true] at h
  obtain ⟨⟨⟨⟨h1, h2⟩, h3⟩, h4⟩, h5⟩ := h
  exact ⟨fun u v n x hx y hy =>
      ((h1 u (mem_allUnits u) v (mem_allUnits v)).resolve_left n) x hx y hy,
    fun u b x hx y hy => h2 u (mem_allUnits u) b (mem_allBanks b) x hx y hy,
    fun b c n x hx y hy => ((h3 b (mem_allBanks b) c (mem_allBanks c)).resolve_left n) x hx y hy,
    fun u a ha => h4 u (mem_allUnits u) a ha, fun b a ha => h5 b (mem_allBanks b) a ha⟩

/-- A state at the bounds that the invariants name. -/
def bounds : State :=
  { ready with
    cfl := { ready.cfl with active := { config with lock := 4500 } }
    atc := { ready.atc with threshold := 8 }
    dmc := { ready.dmc with demand := { Demand.reset with
      propel := 1000, retard := 1000, holdSpeed := 600, enginePower := 5000, payload := 6000
      grade := -300, hint := some 1000, steerAngle := -4500, ambient := some 70 } }
    rgc := { ready.rgc with
      dHold := 1000, integrator := 1000000, samples := List.replicate 16 2500, vF := 2500 }
    stc := { ready.stc with kappa := 900, beta := 300 } }

/-- The state after reset, one tick later. -/
def ticked : State := after .driveClockTick State.reset

/-- `ready` with commands waiting. -/
def queued (s : State) (cs : List Instr) : State := { s with pending := cs }

def withEntries (es : List Entry) (summary : Severity) (s : State) : State :=
  { s with pru := { s.pru with entries := es, summary := summary } }

/-- An ACTIVE DEMAND_LOST with action SAFE_STOP. -/
def lostEntry : Entry :=
  { kind := .demandLost, subject := .global, state := .active, action := .safeStop, setProgress := 1
    clearProgress := 0, cond := true, firstSeen := 0, lastChange := 0, occurrence := 1 }

/-- An ACTIVE BLOWER_FAIL as a NOTE. -/
def noteEntry : Entry := { lostEntry with kind := .blowerFail, action := .note }

/-- `ready` with a reference speed, one record changed at a time. -/
def withOre (o : Ore) (s : State) : State := { s with ore := o }
def withDmc (d : Dmc) (s : State) : State := { s with dmc := d }
def withStc (t : Stc) (s : State) : State := { s with stc := t }
def withRgc (g : Rgc) (s : State) : State := { s with rgc := g }
def withLmu (l : Lmu) (s : State) : State := { s with lmu := l }
def withWlc (l : Wlc) (s : State) : State := { s with wlc := l }
def withCfl (c : Cfl) (s : State) : State := { s with cfl := c }
def withSpeed (v : Option Nat) (s : State) : State := { s with tcu := { s.tcu with vRef := v } }
def withFilter (f : StopFilter) (s : State) : State := { s with pru := { s.pru with filter := f } }

/-- A configuration block that passes, with its guarded words and an envelope of 300 throughout. -/
def withBlock (s : State) : State :=
  withWords 0x0300 (List.replicate 48 300)
    (withWords 0x0200 ([0x5A5A, 0x4E4E, 0x5C5C] ++ List.replicate 125 0xFFFF) s)

/-- STANDBY of a variant. -/
def standby (v : Variant) : State :=
  withDmc { ready.dmc with mode := .standby, substate := .none, variant := some v, fresh := .notCounted }
    ready

/-! ## Witnesses for the step and the invariants -/

theorem witness_StepTakesFront :
    (queued ready [.attnPoll, .demandSample]).pending = .attnPoll :: [.demandSample] ∧
      ready.pending = [] := by decide +kernel

theorem witness_MemoryFormKept :
    (queued ready [.driveClockTick]).xm.wf ∧ ∃ t, step (queued ready [.driveClockTick]) = .next t :=
  ⟨by decide +kernel, ⟨_, rfl⟩⟩

theorem bounds_ok : bounds.ok := by
  refine ⟨?_, noEntries, ⟨List.Pairwise.nil, fun _ h => absurd h List.not_mem_nil⟩, ?_,
    by decide +kernel, by decide +kernel, ?_, ?_, placed_of (by decide +kernel), apart_of
    (by decide +kernel)⟩
  · unfold Atc.ok; decide
  · unfold Demand.ok
    exact ⟨by decide, by decide, by decide, by decide, by decide, by decide, by decide,
      fun t h => by cases h; decide⟩
  · unfold Rgc.ok; decide
  · unfold Stc.ok; decide

theorem witness_RangesKept :
    (queued bounds [.holdUpdate]).ok ∧ ∃ t, step (queued bounds [.holdUpdate]) = .next t :=
  ⟨⟨bounds_ok.atc, bounds_ok.pru, bounds_ok.lmu, bounds_ok.demand, bounds_ok.lock, bounds_ok.steer,
    bounds_ok.rgc, bounds_ok.stc, bounds_ok.placed, bounds_ok.apart⟩, _, rfl⟩

theorem witness_HostBytesKept :
    ready.wlc.placed ∧ Instr.demandSample.writesHost = false ∧
      (∃ t, exec .demandSample ready = .next t) ∧
      [0x0006, 0x0009, 0x0100, 0x0117, 0x011E, 0x01FF, 0x0200, 0x07FF, 0x0802, 0x081F, 0x083A,
        0x17FF, 0x1CE0, 0x1FFF].all hostByte = true ∧
      [0x0005, 0x000A, 0x0118, 0x011D, 0x0800, 0x0820, 0x0839, 0x2000].any hostByte = false :=
  ⟨placed_of (by decide +kernel), by decide +kernel, ⟨_, rfl⟩, by decide +kernel⟩

theorem ticked_shown : ticked.headerShown := by
  refine ⟨?_, ?_, ?_, ?_, ?_, ?_, ?_, ?_, ?_, ?_⟩
  all_goals first
    | decide +kernel
    | (intro x; rcases x with ⟨⟨⟩⟩ | ⟨⟩ <;> decide +kernel)

theorem ticked_images : ticked.imagesShown := by
  refine ⟨?_, ?_, by decide +kernel, ?_⟩ <;> unfold State.showsAt <;> decide +kernel

theorem witness_HeaderKept :
    ticked.headerOk ∧ (State.blank true 0 []).headerOk ∧
      (∀ address value, Instr.hostWordWrite 0x80 7 = .hostWordWrite address value →
        mirrorByte (2 * address.toNat) = false ∧ imageByte (2 * address.toNat) = false) ∧
      ∃ t, exec (.hostWordWrite 0x80 7) ticked = .next t := by
  refine ⟨⟨placed_of (by decide +kernel), fun _ => ticked_shown, fun _ => ticked_images, ?_⟩,
    ⟨placed_of (by decide +kernel), ?_, ?_, fun _ => ⟨?_, ?_⟩⟩, ?_, _, rfl⟩
  · intro h; exact absurd h (by decide +kernel)
  · intro h; exact absurd h (by decide +kernel)
  · intro h; exact absurd h (by decide +kernel)
  · intro u; rcases u with ⟨⟨⟩⟩ | ⟨⟩ <;> rfl
  · intro b; cases b <;> rfl
  · intro a v h; cases h; decide

/-! ## Witnesses for resets and start-up -/

theorem witness_PowerOnResets :
    ready.resetLow = false ∧ (State.blank true 3 []).resetLow = true := by decide +kernel

theorem witness_ResetPinHeld :
    ready.isRunning = true := by decide +kernel

theorem witness_StartUpLeaves :
    (ready.wlc.placed ∧ ready.isRunning = true ∧ (some Mode.ready = some ready.dmc.mode)) ∧
      ((after (.guardedCopyUpset .profile 0x5A5B) ready).wlc.placed ∧
        (after (.guardedCopyUpset .profile 0x5A5B) ready).isRunning = true ∧
        (after (.guardedCopyUpset .profile 0x5A5B) ready).cfl.guardOn = true ∧
        (after (.guardedCopyUpset .profile 0x5A5B) ready).cfl.copiesLegal = false) ∧
      ((after .resetPinAssert ready).wlc.placed ∧ (after .resetPinAssert ready).supply = true ∧
        (after .resetPinAssert ready).resetLow = true ∧ (after .resetPinAssert ready).clock = 0 ∧
        (after .resetPinAssert ready).tripOut = false ∧
        (after .resetPinAssert ready).dmc = Dmc.reset ∧
        (after .resetPinAssert ready).cfl =
          Cfl.reset (after .resetPinAssert ready).cfl.guardCount .resetPin (some .ready)) ∧
      ((State.blank true 0 []).wlc.placed ∧ (State.blank true 0 []).supply = true ∧
        (State.blank true 0 []).clock = 0 ∧ (State.blank true 0 []).tripOut = false ∧
        (State.blank true 0 []).dmc = Dmc.reset ∧
        (State.blank true 0 []).cfl =
          Cfl.reset (State.blank true 0 []).cfl.guardCount .powerOn none) ∧
      ResetKind.resetPin ≠ .guard ∧ ResetKind.powerOn ≠ .guard ∧
      hostByte 0x0006 = true :=
  ⟨⟨placed_of (by decide +kernel), by decide +kernel⟩, ⟨placed_of (by decide +kernel),
    by decide +kernel⟩, ⟨placed_of (by decide +kernel), by decide +kernel⟩, ⟨placed_of
    (by decide +kernel), by decide +kernel⟩, by decide +kernel⟩

/-- A TAKEN cell 63 with an illegal copy of the profile, and a TAKEN cell 0 while RESET_N is low. -/
def upsetTaken : State := withWords (cellBase 63) [2] (after (.guardedCopyUpset .profile 0x5A5B) ready)
def heldTaken : State := withWords (cellBase 0) [2] (after .resetPinAssert ready)

theorem witness_TakenCellsInterrupted :
    (withWords (cellBase 0) [2] ready).cellTaken 0 = true ∧
      (withWords (cellBase 63) [2] ready).cellTaken 63 = true ∧
      (withWords (cellBase 63) [2] ready).cellTaken 62 = false ∧
      (cellBase 62 ≤ 0x17BF ∧ 0x17BF < cellBase 62 + 64) ∧
      (∃ cell : BitVec 6, (withWords (cellBase 0) [2] ready).cellTaken cell = true) ∧
      (∀ cell : BitVec 6, ready.cellTaken cell = false) ∧
      (withWords (cellBase 0) [2] ready).wlc.placed ∧ (upsetTaken.wlc.placed ∧ heldTaken.wlc.placed) ∧
      ((withWords (cellBase 0) [2] ready).isRunning = true ∧ upsetTaken.isRunning = true ∧
        upsetTaken.cfl.guardOn = true ∧ upsetTaken.cfl.copiesLegal = false ∧
        heldTaken.supply = true ∧ heldTaken.resetLow = true ∧ heldTaken.clock = 0 ∧
        heldTaken.cfl.cause = .resetPin ∧ heldTaken.ore = Ore.reset ∧
        upsetTaken.cellTaken 63 = true ∧ heldTaken.cellTaken 0 = true) ∧
      ((endRegions 63).all (fun r => decide (0x17F2 < r.1 ∨ r.1 + r.2 ≤ 0x17F2)) = true ∧
        (endRegions 63).all (fun r => decide (0x17F5 < r.1 ∨ r.1 + r.2 ≤ 0x17F5)) = true) :=
  front4 (by decide +kernel) ⟨⟨0, by decide +kernel⟩, by decide +kernel, placed_of (by decide +kernel),
    ⟨placed_of (by decide +kernel), placed_of (by decide +kernel)⟩, by decide +kernel⟩

theorem witness_GuardCopies :
    ready.isRunning = true ∧ State.reset.isRunning = true ∧ State.reset.cfl.guardOn = false ∧
      ready.cfl.copiesLegal = true := by decide +kernel

theorem witness_StoppedPart :
    (State.blank true 0 []).isRunning = false ∧ (after .supplyFall ready).isRunning = false ∧
      (Instr.hostWordWrite 0 0).actsStopped = false ∧ Instr.demandSample.actsStopped = false := by decide +kernel

/-! ## Witnesses for the host port -/

theorem witness_HostPort :
    (6 ∈ [0, 2, 6, 7] ∧ (0x9FFF : Word).toNat / 4096 ≠ 10 ∧ (0x9FFF : Word).toNat / 4096 ≠ 5 ∧
        (0xA000 : Word).toNat / 4096 = 10 ∧ (0xAFFF : Word).toNat / 4096 = 10 ∧
        (0x5000 : Word).toNat / 4096 = 5 ∧ 32768 ≤ (0x8000 : Word).toNat ∧
        (0x7FFF : Word).toNat < 32768) ∧
      ready.isRunning = true ∧ (0 : BitVec 13) ≠ 3 ∧ (2 : BitVec 13) ≠ 3 ∧ (4 : BitVec 13) ≠ 3 ∧
      (0x1FFF : BitVec 13) ≠ 3 := by decide +kernel

theorem witness_ReadyMarkKept :
    (ready.isRunning = true ∧ ready.delivered = true ∧ ready.cfl.phase ≠ .load) ∧
      (State.reset.isRunning = true ∧ State.reset.delivered = true ∧ State.reset.cfl.phase = .load ∧
        (0x3C95 : Word) ≠ 0x3C96) ∧
      (withCfl { State.reset.cfl with armed := false } State.reset).isRunning = true ∧
      (withCfl { State.reset.cfl with armed := false } State.reset).delivered = true ∧
      (withCfl { State.reset.cfl with armed := false } State.reset).cfl.armed = false ∧
      (State.reset.cfl.armed = true ∧
        (validate (State.reset.xm.store 0x0006 [0x3C96])).1 ≠ .accepted) ∧
      ((validate (withBlock State.reset).xm, validate []) = ((.accepted, 0), (.badPattern, 0)) ∧
        validate ((withBlock State.reset).xm.store 0x0206 [7]) = (.outOfRange, 0x06) ∧
        validate ((withBlock State.reset).xm.store 0x0224 [150]) = (.inconsistent, 0x24) ∧
        validate ((withBlock State.reset).xm.store 0x0302 [301]) = (.inconsistent, 0x102) ∧
        validate ((withBlock State.reset).xm.store 0x02B8 [2]) = (.belowFloor, 0xB8)) := by decide +kernel

theorem witness_ConfigurationAccepted :
    (withBlock State.reset).isRunning = true ∧ (withBlock State.reset).wlc.placed ∧
      (withBlock State.reset).dmc.mode = .starting ∧ (withBlock State.reset).cfl.phase = .load ∧
      (withBlock State.reset).cfl.armed = true ∧
      (validate ((withBlock State.reset).xm.store 0x0006 [0x3C96])).1 = .accepted ∧
      (withBlock State.reset).wlc.window = none ∧
      (withWlc { Wlc.reset with window := some { unit := .sau, sent := .roll, purpose := .ended } }
        (withBlock State.reset)).wlc.window ≠ none ∧
      (hostByte 0x0008 = true ∧ 0x0008 ≠ 0x0006 ∧ 0x0008 ≠ 0x0007) :=
  ⟨by decide +kernel, placed_of (by decide +kernel), by decide +kernel⟩

/-- A LATCHED CONFIG_GUARD, which always acts by TRIP, and an ACTIVE BLOWER_FAIL whose action TRIP is
not the one that the overrides of `withBlock` give it; the EXTERNAL_STOP filter is active. -/
def overridden (s : State) : State :=
  withFilter { StopFilter.reset with lowRun := 3, lastLow := true, active := true }
    (withEntries [{ noteEntry with action := .trip },
      { lostEntry with kind := .configGuard, state := .latched, action := .trip }] .trip s)

/-- The hypotheses of `ActionsTaken` in the two statements that use it: an entry whose action changes and
one whose action stays, both of kinds that no delivery observes, and a changed and a kept mode. -/
theorem witness_ActionsTaken :
    ((overridden ready).pru.entries.map fun e => (e.kind.loud, decide (e.action =
      if e.kind = .configGuard then .trip
      else Action.ofCode ((Params.ofBlock (withBlock ready).xm).overrides.getD (e.kind.num - 1) 0)))) =
        [(false, false), (false, true)] ∧
      (Params.ofBlock (withBlock ready).xm).stopMode = (overridden ready).cfg.stopMode ∧
      (Params.ofBlock (withWords 0x02A2 [0] (withBlock ready)).xm).stopMode ≠
        (overridden ready).cfg.stopMode := by decide +kernel

theorem witness_ChainRestarts :
    ticked.isRunning = true ∧ (0 : BitVec 7).toNat < 64 ∧ (63 : BitVec 7).toNat < 64 ∧
      ticked.headerShown ∧ ticked.cellPosted ((63 : BitVec 7).setWidth 6) = false ∧
      64 ≤ (64 : BitVec 7).toNat ∧ 64 ≤ (127 : BitVec 7).toNat :=
  ⟨by decide +kernel, by decide, by decide, ticked_shown, by decide +kernel, by decide, by decide⟩

/-- FAULT_CHANGE, BRAKE_ASSIST and ORDER_DONE are pending: the first two share a priority. -/
def attending : State := { ready with atc := { ready.atc with pending := 0x20C } }

/-- TRIP and CONFIG_RESULT are in service, and TRIP is pending again. -/
def serving : State := { ready with atc := { ready.atc with pending := 0x001, inService := 0x801 } }

theorem witness_PollPresents :
    attending.isRunning = true ∧ attending.atc.presentable .faultChange = true ∧
      (∀ d : Cls, attending.atc.presentable d = true →
        attending.atc.priority .faultChange < attending.atc.priority d ∨
          attending.atc.priority .faultChange = attending.atc.priority d ∧
            Cls.faultChange.num ≤ d.num) ∧
      (∀ c : Cls, ready.atc.presentable c = false) :=
  ⟨by decide +kernel, by decide +kernel, by intro x; cases x <;> decide +kernel,
    by intro x; cases x <;> decide +kernel⟩

theorem witness_ServiceEnds :
    serving.isRunning = true ∧
      (Cls.trip.num = (0 : BitVec 4).toNat ∧ Cls.trip.isIn serving.atc.inService = true) ∧
      (Cls.configResult.num = (11 : BitVec 4).toNat ∧
        Cls.configResult.isIn serving.atc.inService = true) ∧
      (∀ c : Cls, c.num = (1 : BitVec 4).toNat → c.isIn serving.atc.inService = false) ∧
      (∀ c : Cls, c.num = (12 : BitVec 4).toNat → c.isIn serving.atc.inService = false) ∧
      (∀ c : Cls, c.num = (15 : BitVec 4).toNat → c.isIn serving.atc.inService = false) ∧
      (∀ d : Cls, d.isIn serving.atc.inService = true →
        serving.atc.priority .trip < serving.atc.priority d ∨
          serving.atc.priority .trip = serving.atc.priority d ∧ Cls.trip.num ≤ d.num) ∧
      (∀ c : Cls, c.isIn ready.atc.inService = false) :=
  front3 (by decide +kernel) ⟨eachClass (by decide +kernel), eachClass (by decide +kernel),
    eachClass (by decide +kernel), eachClass (by decide +kernel), eachClass (by decide +kernel)⟩

theorem witness_MaskAndThreshold :
    ready.isRunning = true ∧ (0x0800 : Word).getLsbD Cls.configResult.num = true ∧
      (8 ≤ (8 : Word).toNat ∧ 8 ≤ (0xFFFF : Word).toNat) ∧
      (∀ c : Cls, ready.atc.priority c ≤ 7) :=
  front3 (by decide +kernel) (eachClass (by decide +kernel))

theorem witness_ClassEventPends :
    Cls.trip.isIn serving.atc.pending = true ∧ Cls.orderDone.isIn serving.atc.pending = false := by decide +kernel

/-! ## Witnesses for the orders -/

/-- A grid test of bank 1, with bank 2 waiting, ordered by cell 5. -/
def gridTest : GridTest :=
  { cell := 5, duty := 32768, count := 2, current := some .b1, finishing := false, waiting := [.b2]
    passed := [], skipped := [], aborted := [], lowest := 1700 }

/-- A ROLL_CALL order in cell 63: wheel 2 found, wheel 4 and the SAU still to poll. -/
def rollOrder : EnrollOrder :=
  { cell := 63, todo := [.wheel .w4, .sau], tries := 1, found := [.wheel .w2], notFound := [] }

/-- The three lasting orders in flight in cells 5, 6 and 63. -/
def busy : State :=
  { ready with
    ore := { Ore.reset with grid := some 5, steer := some 6, enroll := some 63 }
    rgc := { ready.rgc with
      test := some gridTest, chans := ready.rgc.chans.set .b1 { Chan.reset with state := .test } }
    stc := { ready.stc with cal := .running, calStart := 4000, calCell := 6 }
    wlc := { ready.wlc with order := some rollOrder } }

theorem witness_CompletionArrives :
    busy.isRunning = true ∧ busy.ore.inFlight .grid = some 5 ∧ busy.ore.inFlight .enroll = some 63 ∧
      busy.ore.inFlight .steer ≠ some 5 ∧ ready.ore.inFlight .grid ≠ some 0 := by decide +kernel

theorem witness_OrdersTurnedAway :
    (ready.isRunning = true ∧ State.reset.isRunning = true ∧ busy.isRunning = true) ∧
      State.reset.dmc.mode = .starting ∧
      (¬((inMode .drive .coast).dmc.mode = .ready ∧ (inMode .drive .coast).standstill = true) ∧
        (inMode .drive .coast).dmc.mode ≠ .standby ∧
        ¬((inMode .drive .coast).dmc.mode = .ready ∨ (inMode .drive .coast).dmc.mode = .standby ∧
          (inMode .drive .coast).linkKept = true)) ∧
      ((standby .dark).dmc.mode = .standby ∧ (standby .dark).linkKept = false) ∧
      (busy.dmc.mode = .ready ∧ busy.standstill = true ∧ busy.ore.grid ≠ none ∧
        busy.ore.steer ≠ none ∧ busy.ore.enroll ≠ none) ∧
      ((withOre busy.ore (standby .full)).dmc.mode = .standby ∧
        ¬((withOre busy.ore (standby .full)).ore.grid = none ∧
          (withOre busy.ore (standby .full)).ore.steer = none ∧
          (withOre busy.ore (standby .full)).ore.enroll = none)) := by decide +kernel

theorem witness_LimitsSet :
    ready.isRunning = true ∧ ready.dmc.mode ≠ .starting := by decide +kernel

/-- A staged table at the bounds of R130: 600 in the first row and column, 30 in the last places. -/
def staged (last : Word) : State :=
  withWords 0x0600 (List.replicate 46 600 ++ [30, last]) ready
def stagedEntry (last : Word) (i : Nat) : Nat := ((staged last).word (0x0600 + 2 * i)).toNat

theorem witness_EnvelopeLoaded :
    (staged 30).isRunning = true ∧ (staged 30).dmc.mode ≠ .starting ∧
      (∀ i < 48, envelopeCheck (stagedEntry 30) i = 0) ∧
      ((∀ j < 47, envelopeCheck (stagedEntry 29) j = 0) ∧ envelopeCheck (stagedEntry 29) 47 = 1) ∧
      ((∀ j < 47, envelopeCheck (stagedEntry 31) j = 0) ∧ envelopeCheck (stagedEntry 31) 47 = 2) ∧
      (envelopeCheck (fun i => ((withWords 0x0600 (List.replicate 8 300 ++ [301]) ready).word
        (0x0600 + 2 * i)).toNat) 8 = 3) ∧
      envelopeCheck (fun i => (ready.word (0x0600 + 2 * i)).toNat) 0 ≠ 0 := by decide +kernel

/-- The EXTERNAL_STOP filter ACTIVE and held by an edge, the input high again. -/
def edgeHeld : StopFilter := { StopFilter.reset with active := true, edgeHeld := true }

theorem witness_FaultsCleared :
    (ready.isRunning = true ∧ ready.ore.idle = true ∧ ready.wlc.placed ∧ ready.pru.ok) ∧
      (withFilter edgeHeld ready).pru.filter.active = true ∧
      (withFilter edgeHeld ready).pru.filter.edgeHeld = true ∧
      (withFilter edgeHeld ready).pru.filter.lastLow = false ∧
      ¬(ready.pru.filter.active = true ∧ ready.pru.filter.edgeHeld = true ∧
        ready.pru.filter.lastLow = false) ∧
      (hostByte 0x0100 = true ∧ Kind.windingHot.loud = false) :=
  ⟨⟨by decide +kernel, by decide +kernel, placed_of (by decide +kernel), noEntries⟩,
    by decide +kernel⟩

/-- TRIPPED with the clear credit set. -/
def credited : State := withDmc { (inMode .tripped .none).dmc with credit := true } (inMode .tripped .none)

theorem witness_ClearFaultsReturns :
    (ready.isRunning = true ∧ ready.delivered = true ∧ ready.wlc.placed ∧
        (ready.pru.filter.active && ready.pru.filter.edgeHeld && !ready.pru.filter.lastLow) = false ∧
        (∀ e ∈ ready.pru.entries, e.state = .latched → e.cond = true) ∧
        ready.noTraction = false ∧ ready.noGridLeft = false ∧
        ready.pru.noEntry .noTractionUnits .global ∧ ready.pru.noEntry .noGrid .global ∧
        ready.dmc.mode ≠ .tripped) ∧
      ((inMode .tripped .none).delivered = true ∧ (inMode .tripped .none).noTraction = false ∧
        (inMode .tripped .none).noGridLeft = false ∧ (inMode .tripped .none).dmc.mode = .tripped ∧
        (inMode .tripped .none).pru.summary.code < 3 ∧ (inMode .tripped .none).standstill = true ∧
        (inMode .tripped .none).dmc.demand.direction = .neutral) ∧
      ¬((withSpeed (some 5) (inMode .tripped .none)).pru.summary.code < 3 ∧
        (withSpeed (some 5) (inMode .tripped .none)).standstill = true ∧
        (withSpeed (some 5) (inMode .tripped .none)).dmc.demand.direction = .neutral) ∧
      ((credited.isRunning = true ∧ credited.delivered = true ∧ credited.wlc.placed) ∧
        (credited.dmc.mode = .tripped ∧ credited.pageAccepted = false ∧
          (credited.clock - credited.dmc.freshRef).toNat ≤ credited.cfg.freshLimit ∧
          credited.dmc.fresh = .fresh ∧ credited.dmc.credit = true ∧
          credited.pru.summary.code < 3 ∧ credited.standstill = true ∧
          credited.dmc.demand.direction = .neutral) ∧
        (inMode .tripped .none).dmc.credit = false) :=
  ⟨⟨by decide +kernel, by decide +kernel, placed_of (by decide +kernel), front4 (by decide +kernel)
    ⟨noneListed, noneListed, by decide +kernel⟩⟩, by decide +kernel, by decide +kernel,
    ⟨by decide +kernel, by decide +kernel, placed_of (by decide +kernel)⟩, by decide +kernel⟩

theorem witness_StandbyEntered :
    ready.isRunning = true ∧ ready.delivered = true ∧ ready.wlc.placed ∧ ready.pru.ok ∧
      ready.dmc.mode = .ready ∧ ready.standstill = true ∧ hostByte 0x0100 = true ∧
      (Variant.full = if (1 : Word) = 0 then (if (1 : Word) = 0 then .dark else .cool)
        else if (1 : Word) = 0 then .link else .full) :=
  ⟨by decide +kernel, by decide +kernel, placed_of (by decide +kernel), noEntries,
    by decide +kernel⟩

/-- Without the link: a calibration and a ROLL_CALL order in flight, each in a cell of its own. -/
theorem witness_StandbyEntered_ended :
    (busy.isRunning = true ∧ busy.delivered = true ∧ busy.dmc.mode = .ready ∧
        busy.standstill = true ∧ busy.stc.cal ≠ .none ∧ busy.stc.calCell ≠ 9 ∧
        busy.wlc.order = some rollOrder ∧ rollOrder.cell ≠ 9 ∧
        busy.ore.inFlight .steer = some busy.stc.calCell ∧
        busy.ore.inFlight .enroll = some rollOrder.cell ∧
        (Variant.cool = if (0 : Word) = 0 then (if (1 : Word) = 0 then .dark else .cool)
          else if (1 : Word) = 0 then .link else .full)) ∧
      (∀ q, busy.ore.inFlight q = some busy.stc.calCell → q = .steer) ∧
      (∀ q, busy.ore.inFlight q = some rollOrder.cell → q = .enroll) ∧
      (busy.wlc.placed ∧ busy.pru.ok) :=
  ⟨by decide +kernel, by intro x; cases x <;> decide +kernel, by intro x; cases x <;> decide +kernel,
    placed_of (by decide +kernel), noEntries⟩

/-- A page with sequence 5 in A, with every clamped field beyond its bound and a hint at its bound. -/
def paged (s : State) : State :=
  withWords 0x011E [5] (withWords 0x0100
    [5, 1001, 1001, 3, 601, 4501, 5001, 6001, 301, 1001, 71, 3] s)

/-- STANDBY with demand wake enabled and a page that asks for propel and retard. -/
def waking (v : Variant) : State :=
  paged (withCfl { ready.cfl with active := { config with demandWake := 1 } } (standby v))

/-- STANDBY COOL with an exchange in progress. -/
def standbyWindow : State :=
  withWlc { ready.wlc with window := some { unit := .sau, sent := .steer, purpose := .round } }
    (standby .cool)

theorem witness_StandbyLeft :
    ((standby .full).isRunning = true ∧ (standby .full).delivered = true ∧
        (standby .full).wlc.placed ∧ (standby .full).dmc.mode = .standby ∧
        (standby .full).linkKept = true ∧ (standby .full).cfl.reEnrol = false ∧
        (standby .full).pru.summary ≠ .safeStop) ∧
      ((withEntries [lostEntry] .safeStop (standby .link)).delivered = true ∧
        (withEntries [lostEntry] .safeStop (standby .link)).linkKept = true ∧
        (withEntries [lostEntry] .safeStop (standby .link)).pru.summary = .safeStop) ∧
      ¬((standby .cool).linkKept = true ∧ (standby .cool).cfl.reEnrol = false) ∧
      ¬((withCfl { ready.cfl with reEnrol := true } (standby .full)).linkKept = true ∧
        (withCfl { ready.cfl with reEnrol := true } (standby .full)).cfl.reEnrol = false) ∧
      ((standby .cool).wlc.window = none ∧ (standbyWindow).wlc.window ≠ none) ∧
      ((waking .full).isRunning = true ∧ (waking .full).delivered = true ∧
        (waking .full).dmc.mode = .standby ∧ (waking .full).cfg.demandWake = 1 ∧
        (waking .full).pageAccepted = true ∧ (waking .full).livePage.propel ≠ 0 ∧
        (waking .full).linkKept = true ∧ (waking .full).cfl.reEnrol = false ∧
        (waking .cool).cfg.demandWake = 1 ∧ (waking .cool).pageAccepted = true ∧
        (waking .cool).livePage.propel ≠ 0 ∧ (waking .cool).linkKept = false) ∧
      ((standby .full).cfg.demandWake ≠ 1 ∧ (standby .full).pageAccepted = false) :=
  ⟨⟨by decide +kernel, by decide +kernel, placed_of (by decide +kernel), by decide +kernel⟩,
    by decide +kernel⟩

theorem witness_ConfigurationApplied :
    ((standby .dark).isRunning = true ∧ (standby .dark).wlc.placed ∧
        (standby .dark).dmc.mode = .standby ∧ (standby .dark).ore.idle = true ∧
        (validate (standby .dark).xm).1 ≠ .accepted) ∧
      ((withBlock (standby .dark)).dmc.mode = .standby ∧ (withBlock (standby .dark)).ore.idle = true ∧
        (validate (withBlock (standby .dark)).xm).1 = .accepted ∧
        (withBlock (standby .dark)).delivered = true ∧
        ¬((Params.ofBlock (withBlock (standby .dark)).xm).arrangement ≠
            (withBlock (standby .dark)).cfg.arrangement ∨
          (Params.ofBlock (withBlock (standby .dark)).xm).steerSource ≠
            (withBlock (standby .dark)).cfg.steerSource ∨
          (Params.ofBlock (withBlock (standby .dark)).xm).bankCount ≠
            (withBlock (standby .dark)).cfg.bankCount) ∧
        (∀ e ∈ (withBlock (standby .dark)).pru.entries,
          (Params.ofBlock (withBlock (standby .dark)).xm).action e.kind = e.action)) ∧
      ((Params.ofBlock (withBlock (standby .dark)).xm).arrangement ≠
        (withBlock (rearPair (standby .dark))).cfg.arrangement) :=
  ⟨⟨by decide +kernel, placed_of (by decide +kernel), by decide +kernel⟩, by decide +kernel⟩

theorem witness_GridTestStarts :
    (ready.isRunning = true ∧ ready.dmc.mode = .ready ∧ ready.standstill = true ∧
        ready.ore.grid = none ∧ (standby .dark).dmc.mode = .standby) ∧
      (2 ^ ready.cfg.bankCount ≤ (16 : Word).toNat ∧
        ¬((15 : Word) = 0 ∨ 2 ^ ready.cfg.bankCount ≤ (15 : Word).toNat)) ∧
      (∃ b : Bank, (1 : Word).getLsbD (bankNum b - 1) = true ∧
        ({ ready.pru with bankEx := (PerBank.fill false).set .b1 true }).bankEx.get b = true) ∧
      (∀ b : Bank, (15 : Word).getLsbD (bankNum b - 1) = true → ready.pru.bankEx.get b = false) ∧
      (1000 < (1001 : Word).toNat ∧ (1000 : Word) ≠ 0 ∧ (1000 : Word).toNat ≤ 1000 ∧
        (withRgc { ready.rgc with vF := 599 } ready).rgc.vF < 600) ∧
      ((12 : Word) ≠ 0 ∧ (12 : Word).toNat < 2 ^ ready.cfg.bankCount ∧ ready.cfg.bankCount ≤ 6 ∧
        600 ≤ ready.rgc.vF ∧ ready.cfl.guardOn = true ∧
        (12 : Word).getLsbD (bankNum .b3 - 1) = true ∧
        (ready.rgc.chans.get .b3).state ≠ .test) ∧
      (∀ c : Bank, (12 : Word).getLsbD (bankNum c - 1) = true → bankNum .b3 ≤ bankNum c) :=
  ⟨by decide +kernel, by decide +kernel, ⟨.b1, by decide +kernel⟩,
    by intro x; cases x <;> decide +kernel, by decide +kernel, by decide +kernel, by intro x; cases x <;> decide +kernel⟩

theorem witness_CalibrationStarts :
    (ready.isRunning = true ∧ ready.standstill = true ∧ ready.dmc.mode = .ready ∧
        ready.ore.steer = none ∧ ready.cfg.steerSau = true ∧ ready.wlc.sau.state = .enrolled) ∧
      ((standby .link).dmc.mode = .standby ∧ (standby .link).linkKept = true) ∧
      ¬((withWlc { ready.wlc with sau := { ready.wlc.sau with state := .lost } } ready).cfg.steerSau =
            true ∧
          ((withWlc { ready.wlc with sau := { ready.wlc.sau with state := .lost } } ready).wlc.sau.state =
              .enrolled ∨
            (withWlc { ready.wlc with sau := { ready.wlc.sau with state := .lost } } ready).wlc.sau.state =
              .missing)) := by decide +kernel

/-- Wheel 4 is ABSENT. -/
def oneAbsent : State :=
  withWlc { ready.wlc with wheels := ready.wlc.wheels.set .w4 { enrolledUnit with state := .absent } } ready

theorem witness_RollCallOrdered :
    (ready.isRunning = true ∧ ready.dmc.mode = .ready ∧ ready.ore.enroll = none ∧
        ready.wlc.order = none ∧
        ([] = [.wheel .w1, .wheel .w2, .wheel .w3, .wheel .w4, .sau].filter fun u =>
          (ready.wlc.unit u).configured && (ready.wlc.unit u).state == .absent)) ∧
      (oneAbsent.isRunning = true ∧ oneAbsent.dmc.mode = .ready ∧ oneAbsent.ore.enroll = none ∧
        oneAbsent.wlc.order = none ∧
        [.wheel .w4] = [.wheel .w1, .wheel .w2, .wheel .w3, .wheel .w4, .sau].filter fun u =>
          (oneAbsent.wlc.unit u).configured && (oneAbsent.wlc.unit u).state == .absent) := by decide +kernel

theorem witness_OrderAborted :
    (busy.isRunning = true ∧ busy.delivered = true ∧ busy.wlc.placed ∧ busy.wlc.roundDue = false) ∧
      (64 ≤ (64 : Word).toNat ∧ ∀ r, busy.ore.inFlight r ≠ some ((4 : Word).setWidth 6)) ∧
      ((5 : Word).toNat = (5 : BitVec 6).toNat ∧ (5 : BitVec 6) ≠ 9 ∧ busy.ore.grid = some 5 ∧
        busy.rgc.test = some gridTest ∧ gridTest.current = some .b1) ∧
      ((6 : Word).toNat = (6 : BitVec 6).toNat ∧ (6 : BitVec 6) ≠ 9 ∧ busy.ore.grid ≠ some 6 ∧
        busy.ore.steer = some 6) ∧
      ((63 : Word).toNat = (63 : BitVec 6).toNat ∧ (63 : BitVec 6) ≠ 9 ∧ busy.ore.grid ≠ some 63 ∧
        busy.ore.steer ≠ some 63 ∧ busy.ore.enroll = some 63 ∧ busy.wlc.order ≠ none) :=
  ⟨⟨by decide +kernel, by decide +kernel, placed_of (by decide +kernel), by decide +kernel⟩,
    ⟨by decide +kernel, by intro x; cases x <;> decide +kernel⟩, by decide +kernel⟩

/-- The cursor cell holds a SET_LIMITS order, with the link given. -/
def posted (link : Word) : State := withWords (cellBase 0) [1, 1, link, 7, 600, 100, 3000] ready

/-- Five cells hold orders, each linked to the next: BAD_KIND, SET_LIMITS, BAD_KIND, ROLL_CALL. -/
def chained : State :=
  withWords (cellBase 4) [1, 1, 255] (withWords (cellBase 3) [1, 9, 4]
    (withWords (cellBase 2) [1, 0, 3] (withWords (cellBase 1) [1, 1, 2, 7, 600]
      (withWords (cellBase 0) [1, 11, 1] ready))))

/-- The state after some takes of a scan of the chain, and the cursor in it. -/
def takes : Nat → State → Option State
  | 0, s => some s
  | n + 1, s => s.takeOn.bind (takes n)

theorem witness_ChainScanned :
    (ready.isRunning = true ∧ ready.ore.behind = false ∧ ready.ore.chain ≠ .halted ∧
        ready.cellPosted ready.ore.cursor = false) ∧
      (withOre { Ore.reset with chain := .halted } ready).ore.chain = .halted ∧
      ((withOre { Ore.reset with behind := true } (withWords (cellBase 0) [3, 1, 255] ready)).link 0 =
          .finish ∧
        (withOre { Ore.reset with behind := true } (withWords (cellBase 0) [3, 1, 64] ready)).link 0 =
          .bad ∧
        (withOre { Ore.reset with behind := true } (withWords (cellBase 0) [3, 1, 63] ready)).link 0 =
          .cell 63 ∧
        (withOre { Ore.reset with behind := true } (withWords (cellBase 0) [3, 1, 63] ready)).cellPosted
          63 = false) ∧
      ((withWords (cellBase 0) [1, 11, 255] ready).cellPosted ready.ore.cursor = true ∧
        10 < ((withWords (cellBase 0) [1, 11, 255] ready).word (cellBase 0 + 2)).toNat ∧
        ((withWords (cellBase 0) [1, 11, 255] ready).word (cellBase 0 + 4)).toNat = 255) ∧
      ((withWords (cellBase 0) [1, 0, 64] ready).cellPosted ready.ore.cursor = true ∧
        ((withWords (cellBase 0) [1, 0, 64] ready).word (cellBase 0 + 2)).toNat = 0 ∧
        64 ≤ ((withWords (cellBase 0) [1, 0, 64] ready).word (cellBase 0 + 4)).toNat) ∧
      ((posted 255).cellPosted (posted 255).ore.cursor = true ∧
        (posted 255).orderRow (posted 255).ore.cursor = some (.setLimits 0 600 100 3000) ∧
        (after (.setLimits 0 600 100 3000) (posted 255).taking).link (posted 255).ore.cursor =
          .finish ∧
        (posted 64).orderRow (posted 64).ore.cursor = some (.setLimits 0 600 100 3000) ∧
        (after (.setLimits 0 600 100 3000) (posted 64).taking).link (posted 64).ore.cursor =
          .bad) ∧
      ((withOre { Ore.reset with behind := true } (withWords (cellBase 63) [1]
          (withWords (cellBase 0) [3, 1, 63] ready))).link 0 = .cell 63 ∧
        (withOre { Ore.reset with behind := true } (withWords (cellBase 63) [1]
          (withWords (cellBase 0) [3, 1, 63] ready))).cellPosted 63 = true) ∧
      ((posted 63).takeOn.map (fun t => (t.ore.cursor, t.takeOn.isNone)) = some (63, true) ∧
        ((takes 2 (withWords (cellBase 1) [1, 11, 2] (posted 1))).map
          fun t => (t.ore.cursor, t.takeOn.isNone)) = some (2, true) ∧
        ((takes 3 chained).map fun t => (t.ore.cursor, t.cellPosted t.ore.cursor)) =
          some (3, true) ∧
        ((takes 3 (withWords (cellBase 3) [0] chained)).map fun t => t.cellPosted t.ore.cursor) =
          some false ∧
        (takes 4 chained).map (fun t => t.ore.cursor) = some 4) := by decide +kernel

/-- A fourth take whose link is END, and one whose link is bad. -/
theorem witness_ChainScanned_fourth :
    ((takes 3 (withWords (cellBase 3) [1, 9, 255] chained)).map fun t =>
        (t.cellPosted t.ore.cursor, t.decided.map fun u => u.link t.ore.cursor)) =
      some (true, some .finish) ∧
      ((takes 3 (withWords (cellBase 3) [1, 9, 64] chained)).map fun t =>
        (t.cellPosted t.ore.cursor, t.decided.map fun u => u.link t.ore.cursor)) =
      some (true, some .bad) := by decide +kernel

/-! ## Witnesses for the drive -/

/-- `ready` with the record of the last accepted page, and its sequence. -/
def withDemand (d : Demand) (s : State) : State :=
  withDmc { s.dmc with demand := d, lastSeq := some 5 } s

/-- DRIVE with a freshness reference of that age in ms. -/
def aged (n : Nat) : State :=
  let s := driving .propel 500 0 100
  withDmc { s.dmc with freshRef := s.clock - BitVec.ofNat 32 n } s

theorem witness_PageTaken :
    ((paged ready).isRunning = true ∧ (paged ready).wlc.placed ∧ (paged ready).word 0x0008 ≠ 1 ∧
        (paged ready).word 0x0100 ≠ 0 ∧ (paged ready).word 0x0100 = (paged ready).word (0x0100 + 0x1E) ∧
        (paged ready).dmc.lastSeq ≠ some ((paged ready).word 0x0100)) ∧
      (withWords 0x0008 [1] ready).word 0x0008 = 1 ∧
      ¬((withDemand Demand.reset (paged ready)).word 0x0100 ≠ 0 ∧
        (withDemand Demand.reset (paged ready)).word 0x0100 =
          (withDemand Demand.reset (paged ready)).word (0x0100 + 0x1E) ∧
        (withDemand Demand.reset (paged ready)).dmc.lastSeq ≠
          some ((withDemand Demand.reset (paged ready)).word 0x0100)) ∧
      (0x0100 ≤ 0x011E ∧ 0x011E < 0x0200 ∧ 0x0100 + 0x1E ≤ 0x011E) ∧
      State.reset.dmc.mode = .starting ∧
      ((aged 100).isRunning = true ∧ (aged 100).dmc.mode ≠ .starting ∧
        (aged 100).dmc.mode ≠ .standby ∧ (aged 100).pageAccepted = false ∧ (aged 100).pru.ok) ∧
      ([100, 101, 2000, 2001].map (fun n => (after .demandSample (aged n)).dmc.fresh) =
        [.fresh, .stale, .stale, .lost]) :=
  ⟨⟨by decide +kernel, placed_of (by decide +kernel), by decide +kernel⟩, front4 (by decide +kernel)
    ⟨front4 (by decide +kernel) noEntries, by decide +kernel⟩⟩

/-- The first page accepted while no payload is latched, and one after it. -/
theorem witness_PageTaken_payload :
    ((paged ready).isRunning = true ∧ (paged ready).pageAccepted = true ∧
        (paged ready).lmu.payload = none) ∧
      (withLmu { ready.lmu with payload := some 2500 } (paged ready)).pageAccepted = true ∧
      (aged 100).pageAccepted = false := by decide +kernel

/-- References of 500 on every wheel: opposed to a PROPEL in REVERSE and to a RETARD going forward. -/
def pulling (s : State) : State :=
  { s with tqa := { s.tqa with wheels := PerWheel.fill (tqaAt 500) } }

/-- DRIVE FORWARD at standstill in PROPEL over references that are not 0, with a record that names
another direction. -/
def asking (d : Direction) : State :=
  let s := pulling (driving .propel 500 0 0)
  withDmc { s.dmc with demand := { s.dmc.demand with direction := d } } s

theorem witness_DriveEntered :
    (ready.isRunning = true ∧ ready.delivered = true ∧ ready.wlc.placed ∧ ready.dmc.mode = .ready ∧
        ready.pageAccepted = false ∧ ready.dmc.fresh = .fresh ∧
        (ready.clock - ready.dmc.freshRef).toNat ≤ ready.cfg.freshLimit ∧
        ready.dmc.demand.direction = .neutral) ∧
      ((withDemand { Demand.reset with direction := .forward } ready).pageAccepted = false ∧
        (withDemand { Demand.reset with direction := .forward } ready).dmc.demand.direction ≠ .neutral ∧
        (withDemand { Demand.reset with direction := .forward } ready).standstill = true ∧
        (withDemand { Demand.reset with direction := .forward } ready).dmc.demand.parkBrake = false) ∧
      (withSpeed (some 5) ready).standstill = false ∧
      ((asking .reverse).isRunning = true ∧ (asking .reverse).delivered = true ∧
        (asking .reverse).wlc.placed ∧ (asking .reverse).dmc.mode = .drive) ∧
      ((asking .reverse).pru.summary ≠ .safeStop ∧
        (asking .reverse).pageAccepted = false ∧ (asking .reverse).dmc.fresh = .fresh ∧
        ((asking .reverse).clock - (asking .reverse).dmc.freshRef).toNat ≤
          (asking .reverse).cfg.freshLimit ∧
        (asking .reverse).dmc.demand.direction ≠ (asking .reverse).dmc.adopted ∧
        (asking .reverse).dmc.demand.direction ≠ .neutral ∧
        (asking .reverse).standstill = true ∧
        (asking .reverse).dmc.demand.parkBrake = false ∧
        (asking .reverse).dmc.substate = .propel ∧
        (after .demandSample (asking .reverse)).dmc.effRetard = 0 ∧
        0 < (after .demandSample (asking .reverse)).dmc.effPropel ∧
        (∃ w, (asking .reverse).cfg.wheel w = true ∧
          ((asking .reverse).tqa.wheels.get w).reference ≠ 0)) ∧
      ((asking .neutral).dmc.demand.direction = .neutral ∧
        (asking .neutral).dmc.demand.direction ≠ (asking .neutral).dmc.adopted ∧
        (withSpeed (some 5) (asking .reverse)).standstill = false) :=
  ⟨⟨by decide +kernel, by decide +kernel, placed_of (by decide +kernel), by decide +kernel⟩,
    by decide +kernel, by decide +kernel, ⟨by decide +kernel, by decide +kernel, placed_of
    (by decide +kernel), by decide +kernel⟩, front4 (by decide +kernel) (front4 (by decide +kernel)
    (front3 (by decide +kernel) ⟨.w1, by decide +kernel⟩)), by decide +kernel⟩

/-- SAFE_STOP at standstill with a stop time that this sample does not end. -/
def braking : State :=
  let s := inMode .safeStop .retard
  withDmc { s.dmc with adopted := .forward, stopTime := 994 } s

theorem witness_DemandsFormed :
    ((driving .retard 0 700 288).isRunning = true ∧ (driving .retard 0 700 288).delivered = true ∧
        (driving .retard 0 700 288).dmc.mode = .drive ∧
        (driving .retard 0 700 288).dmc.demand.direction = (driving .retard 0 700 288).dmc.adopted ∧
        (driving .retard 0 700 288).pageAccepted = false ∧
        (driving .retard 0 700 288).dmc.fresh = .fresh ∧
        ((driving .retard 0 700 288).clock - (driving .retard 0 700 288).dmc.freshRef).toNat ≤
          (driving .retard 0 700 288).cfg.freshLimit) ∧
      ((∀ w : Wheel, (driving .coast 0 700 288).cfg.wheel w = true →
          ((driving .coast 0 700 288).tqa.wheels.get w).reference = 0) ∧
        (driving .coast 0 700 288).dmc.substate = .coast ∧ 0 < (driving .coast 0 700 288).dmc.demand.retard) ∧
      ((pulling (driving .propel 0 700 288)).dmc.substate = .propel ∧
        ¬(((pulling (driving .propel 0 700 288)).tqa.wheels.get .w1).reference = 0)) ∧
      ((driving .retard 500 0 288).dmc.substate = .retard ∧ 0 < (driving .retard 500 0 288).dmc.demand.propel ∧
        max (driving .retard 500 0 288).dmc.demand.retard (driving .retard 500 0 288).rgc.dHold = 0) ∧
      (max (driving .coast 0 0 288).dmc.demand.retard (driving .coast 0 0 288).rgc.dHold = 0 ∧
        (driving .coast 0 0 288).dmc.demand.propel = 0) ∧
      (braking.isRunning = true ∧ braking.delivered = true ∧ braking.dmc.mode = .safeStop ∧
        braking.standstill = true ∧ braking.dmc.stopTime + braking.cfg.allocPeriod < 1000 ∧
        braking.pageAccepted = false ∧ braking.dmc.fresh = .fresh ∧
        (braking.clock - braking.dmc.freshRef).toNat ≤ braking.cfg.freshLimit ∧
        (withSpeed (some 5) braking).standstill = false) ∧
      ((after .demandSample (pulling (driving .propel 0 700 288))).dmc.substate ≠
          (pulling (driving .propel 0 700 288)).dmc.substate ∧
        (driving .retard 0 700 288).wlc.placed) :=
  ⟨by decide +kernel, ⟨by intro x; cases x <;> decide +kernel, by decide +kernel⟩, front4
    (by decide +kernel) ⟨by decide +kernel, placed_of (by decide +kernel)⟩⟩

/-- DRIVE with δ_m 20.00° and κ 190, at a V_ref. -/
def biased (sub : Substate) (speed : Nat) : State :=
  withStc { ready.stc with measured := 2000, kappa := 190, stale := false } (driving sub 900 0 speed)

/-- The six conditions of R152 hold just below the assist speed. -/
theorem bias_conditions : (biased .propel 79).biasConditions :=
  ⟨rfl, ⟨79, by decide +kernel⟩, rfl, by decide +kernel, by intro w; cases w <;> decide +kernel,
    by intro w; cases w <;> decide +kernel⟩

/-- A sample that moves COAST to PROPEL, with δ_m above 5.00° and below it. -/
theorem witness_DemandsFormed_bias :
    ((biased .coast 79).isRunning = true ∧ (biased .coast 79).delivered = true ∧
        (biased .coast 79).dmc.mode = .drive ∧ (biased .coast 79).pageAccepted = false ∧
        (biased .coast 79).dmc.fresh = .fresh ∧
        (after .demandSample (biased .coast 79)).dmc.substate = .propel ∧
        (after .demandSample (biased .coast 79)).stc.beta = 152 ∧
        (after .demandSample (withStc { (biased .coast 79).stc with measured := 499, beta := 152 }
          (biased .coast 79))).stc.beta = 0) ∧
      (biased .coast 79).wlc.placed := ⟨by decide +kernel, placed_of (by decide +kernel)⟩

/-- SAFE_STOP at standstill with the stop time 5 ms short. -/
def stopping : State :=
  let s := inMode .safeStop .retard
  withDmc { s.dmc with adopted := .forward, stopTime := 995, period := 5 } s

/-- Phase SETTLE, the settle time run out at the drive clock given. -/
def settling (due : Long) : State :=
  withCfl { ready.cfl with phase := .settle, settleEnd := some due } (inMode .starting .none)

theorem witness_ModeTimersEnd :
    (stopping.isRunning = true ∧ stopping.dmc.mode = .safeStop ∧ stopping.standstill = true ∧
        1000 ≤ stopping.dmc.stopTime + stopping.dmc.period ∧ stopping.wlc.placed) ∧
      (¬(ready.dmc.mode = .safeStop ∧ ready.standstill = true ∧
          1000 ≤ ready.dmc.stopTime + ready.dmc.period) ∧ ready.delivered = true) ∧
      ((settling 5000).isRunning = true ∧ (settling 5000).delivered = true ∧
        (settling 5000).cfl.phase = .settle ∧ (settling 5000).cfl.settleEnd = some 5000 ∧
        ((settling 5000).clock - 5000).toNat < 2 ^ 31 ∧ (settling 5000).dmc.mode = .starting ∧
        (settling 5000).wlc.placed) ∧
      (¬(((settling 5001).clock - 5001).toNat < 2 ^ 31) ∧ ready.cfl.phase ≠ .settle) ∧
      (braking.isRunning = true ∧ braking.delivered = true ∧ braking.dmc.mode = .safeStop ∧
        braking.pageAccepted = false ∧ braking.dmc.fresh = .fresh ∧
        (braking.clock - braking.dmc.freshRef).toNat ≤ braking.cfg.freshLimit ∧
        braking.standstill = true ∧ braking.dmc.stopTime + braking.cfg.allocPeriod < 1000 ∧
        1000 ≤ stopping.dmc.stopTime + stopping.cfg.allocPeriod ∧ stopping.pageAccepted = false ∧
        (withSpeed (some 5) braking).standstill = false) :=
  ⟨front4 (by decide +kernel) (placed_of (by decide +kernel)), by decide +kernel, front3
    (by decide +kernel) (front3 (by decide +kernel) (placed_of (by decide +kernel))),
    by decide +kernel⟩

theorem witness_AllocationTerms :
    (driving .propel 900 0 246).dmc.substate = .propel ∧
      (driving .retard 0 700 12).dmc.substate = .retard ∧
      ((driving .retard 0 700 12).tcu.vRef = some 12 ∧ 12 < (driving .retard 0 700 12).cfg.vFade ∧
        ¬(20 < (driving .retard 0 700 20).cfg.vFade)) ∧
      (ready.dmc.substate = .coast ∧ (inMode .drive .changeover).dmc.substate = .changeover) := by decide +kernel

theorem witness_AllocationComputed :
    (descending.isRunning = true ∧ descending.dmc.mode = .drive ∧ descending.active .w1 = true ∧
        descending.active .w3 = false ∧ descending.delivered = true) ∧
      (∀ w : Wheel, ((after .allocationEvent descending).tqa.wheels.get w).peakCond =
        (descending.tqa.wheels.get w).peakCond) ∧
      (ready.dmc.mode = .ready ∧ (inMode .safeStop .retard).dmc.mode = .safeStop) ∧
      descending.wlc.placed ∧ descending.wlc.apart :=
  ⟨by decide +kernel, by intro x; cases x <;> decide +kernel, by decide +kernel, placed_of
    (by decide +kernel), apart_of (by decide +kernel)⟩

theorem witness_AllocationSkipped :
    (State.reset.isRunning = true ∧ State.reset.dmc.mode = .starting) ∧
      ((standby .dark).isRunning = true ∧ (standby .dark).dmc.mode = .standby) ∧
      ((inMode .tripped .none).isRunning = true ∧ (inMode .tripped .none).dmc.mode = .tripped) := by decide +kernel

/-- Wheel 1 at 18000 with 30000 of credit, which the event spends. -/
def spending : State :=
  withWheel .w1 { tqaAt 18000 with credit := 30000 } (tcuAt 3000) (rearPair (driving .propel 1000 0 246))

theorem witness_PeakCreditMoves :
    (spending.isRunning = true ∧ spending.pru.ok ∧ spending.cfl.guardOn = true ∧
        spending.cfg.wheel .w1 = true ∧ (spending.tqa.wheels.get .w1).spent = false ∧
        0 < (spending.cfg.tPeak - spending.cfg.tCont) * spending.cfg.peakTime) ∧
      ((after .allocationEvent spending).tqa.wheels.get .w1).peakCond ≠
        (spending.tqa.wheels.get .w1).peakCond ∧
      (ready.tqa.wheels.get .w1).spent = true ∧
      ({ config with tPeak := 12000 }.tPeak - { config with tPeak := 12000 }.tCont) *
        { config with tPeak := 12000 }.peakTime = 0 ∧
      ¬(State.reset.cfl.guardOn = true ∧ State.reset.cfg.wheel .w1 = true) :=
  ⟨⟨by decide +kernel, noEntries, by decide +kernel⟩, by decide +kernel⟩

/-! ## Witnesses for the wheel link -/

/-- An open round with records still to visit. -/
def inRound (visit : List UnitId) : State :=
  withWlc { ready.wlc with roundOpen := true, visit := visit } ready

/-- A reply window open for a telegram. -/
def awaiting (u : UnitId) (k : Sent) (p : Purpose) : State :=
  withWlc { ready.wlc with roundOpen := true, window := some { unit := u, sent := k, purpose := p } }
    ready

/-- A REPORT of wheel 1 with sequence 7 and READY set: speed 60, 50 °C, no derate request, 80 N·m and
1700 V. -/
def report : List Byte := withCrc [1, 0x22, 7, 1, 0, 60, 0, 50, 3, 0xE8, 0, 80, 6, 0xA4]

/-- A STEER_REPORT with sequence 7 and READY set: 20.00°, 10.0 and 12.0 km/h. -/
def steerReport : List Byte := withCrc [8, 0x32, 7, 1, 0x07, 0xD0, 0, 100, 0, 120]

/-- A ROLL_ANSWER of the SAU at revision 3 with 45.00°. -/
def answer : List Byte := withCrc [8, 0x12, 2, 3, 0x11, 0x94]

theorem witness_RoundStarts :
    (ready.isRunning = true ∧ ready.delivered = true ∧ ready.cfl.phase ≠ .settle ∧
        ready.wlc.roundsOn = true ∧ ready.wlc.roundOpen = false ∧ ready.wlc.window = none ∧
        ready.wlc.order = none) ∧
      (∀ u : UnitId, (ready.wlc.unit u).configured = ready.cfg.unit u) ∧
      (State.reset.isRunning = true ∧ State.reset.delivered = true ∧ State.reset.cfl.phase ≠ .settle ∧
        State.reset.wlc.roundsOn = false ∧ State.reset.wlc.roundOpen = false) ∧
      ((inRound [.sau]).wlc.roundsOn = true ∧ (inRound [.sau]).wlc.roundOpen = true ∧
        (inRound [.sau]).wlc.visit ≠ []) ∧
      ((rearPair ready).isRunning = true ∧ (rearPair ready).delivered = true ∧
        (rearPair ready).wlc.rollCallAsked = false ∧
        (after .roundStart (rearPair ready)).dmc.mode = .ready ∧
        (rearPair ready).cfg.unit (.wheel .w3) = false ∧
        ((rearPair ready).wlc.unit (.wheel .w3)).configured = true ∧
        (rearPair ready).cfg.unit (.wheel .w1) = true) ∧
      (rearPair ready).pru.ok ∧ (rearPair ready).wlc.placed ∧ (rearPair ready).wlc.apart :=
  ⟨by decide +kernel, by intro x; rcases x with ⟨⟨⟩⟩ | ⟨⟩ <;> decide +kernel, front3
    (by decide +kernel) ⟨noEntries, placed_of (by decide +kernel), apart_of (by decide +kernel)⟩⟩

/-- STANDBY with the link kept, wheels 3 and 4 no longer in the configuration. -/
theorem witness_RoundStarts_standby :
    ((rearPair (standby .full)).isRunning = true ∧ (rearPair (standby .full)).delivered = true ∧
        (rearPair (standby .full)).cfl.phase ≠ .settle ∧
        (rearPair (standby .full)).wlc.rollCallAsked = false ∧
        (rearPair (standby .full)).wlc.roundsOn = true ∧
        (rearPair (standby .full)).wlc.roundOpen = false ∧
        (rearPair (standby .full)).wlc.order = none ∧
        (rearPair (standby .full)).cfg.unit (.wheel .w3) = false ∧
        ((rearPair (standby .full)).wlc.unit (.wheel .w3)).configured = true ∧
        (after .roundStart (rearPair (standby .full))).dmc.mode = .standby) ∧
      (rearPair (standby .full)).pru.ok := ⟨by decide +kernel, noEntries⟩

/-- A ROLL_CALL order in cell 5 with the given targets and tries. -/
def polling (todo : List UnitId) (tries : Nat) (s : State) : State :=
  withOre { s.ore with enroll := some 5 } (withWlc { s.wlc with
    order := some { cell := 5, todo := todo, tries := tries, found := [], notFound := [] } } s)

/-- `busy` without its ROLL_CALL, the SAU no longer in the configuration. -/
def sauDropped : State :=
  withWlc { ready.wlc with order := none } (withCfl { busy.cfl with
    active := { busy.cfl.active with steerSource := 0x3A3A } } busy)

/-- An order whose current target stays configured, one whose target does not and that has a next
one, and one without any left; and a SAU dropped while a calibration is in progress. -/
theorem witness_RoundStarts_order :
    ((polling [.wheel .w1] 1 ready).isRunning = true ∧
        (polling [.wheel .w1] 1 ready).delivered = true ∧
        (polling [.wheel .w1] 1 ready).cfl.phase ≠ .settle ∧
        (polling [.wheel .w1] 1 ready).wlc.rollCallAsked = false ∧
        (polling [.wheel .w1] 1 ready).wlc.roundsOn = true ∧
        (polling [.wheel .w1] 1 ready).wlc.roundOpen = false ∧
        (polling [.wheel .w1] 1 ready).cfg.unit (.wheel .w1) = true ∧
        (after .roundStart (polling [.wheel .w1] 1 ready)).dmc.mode = .ready) ∧
      ([.wheel .w3, .wheel .w4, .wheel .w1].map (rearPair ready).cfg.unit = [false, false, true] ∧
        [UnitId.wheel .w4, .wheel .w1].dropWhile (fun v => !(rearPair ready).cfg.unit v) ≠ [] ∧
        ([.wheel .w4] : List UnitId).all (fun v => !(rearPair ready).cfg.unit v) = true ∧
        (after .roundStart (polling [.wheel .w3, .wheel .w4, .wheel .w1] 1 (rearPair ready))).dmc.mode =
          .ready ∧
        (polling [.wheel .w3, .wheel .w4] 1 (rearPair ready)).ore.inFlight .enroll = some 5) ∧
      (∀ q, (polling [.wheel .w3, .wheel .w4] 1 (rearPair ready)).ore.inFlight q = some 5 →
        q = .enroll) ∧
      (polling [.wheel .w3, .wheel .w4] 1 (rearPair ready)).wlc.placed ∧
      (sauDropped.isRunning = true ∧ sauDropped.delivered = true ∧ sauDropped.wlc.roundsOn = true ∧
        sauDropped.wlc.roundOpen = false ∧ sauDropped.wlc.order = none ∧
        (after .roundStart sauDropped).dmc.mode = .ready ∧ sauDropped.cfg.unit .sau = false ∧
        sauDropped.wlc.sau.configured = true ∧ sauDropped.stc.cal ≠ .none ∧
        sauDropped.ore.inFlight .steer = some sauDropped.stc.calCell) ∧
      (∀ q, sauDropped.ore.inFlight q = some sauDropped.stc.calCell → q = .steer) ∧
      sauDropped.wlc.placed ∧ sauDropped.pru.ok :=
  ⟨by decide +kernel, by decide +kernel, by intro x; cases x <;> decide +kernel,
    placed_of (by decide +kernel), by decide +kernel, by intro x; cases x <;> decide +kernel,
    placed_of (by decide +kernel), noEntries⟩

/-- The three lasting orders in flight, at a V_ref, with the SAU's turn in the round. -/
def calibrating (speed : Nat) : State :=
  withSpeed (some speed)
    (withWlc { busy.wlc with roundOpen := true, visit := [.sau], order := none } busy)

theorem witness_CommandsSent :
    ((inRound [.wheel .w1, .sau]).isRunning = true ∧ (inRound [.wheel .w1, .sau]).wlc.window = none ∧
        (inRound [.wheel .w1, .sau]).wlc.quiet = false ∧
        (inRound [.wheel .w1, .sau]).wlc.rollCall = none ∧
        (inRound [.wheel .w1, .sau]).wlc.roundOpen = true ∧
        (inRound [.wheel .w1, .sau]).wlc.visit = .wheel .w1 :: [.sau] ∧
        ((inRound [.wheel .w1, .sau]).wlc.wheels.get .w1).state = .enrolled) ∧
      ((inRound [.sau]).wlc.visit = .sau :: [] ∧ (inRound [.sau]).wlc.sau.state = .enrolled ∧
        (inRound [.sau]).stc.cal = .none) ∧
      ¬(ready.wlc.window = none ∧ ready.wlc.quiet = false ∧ ready.wlc.rollCall = none ∧
        ready.wlc.roundOpen = true ∧ ready.wlc.visit.head? = some .sau ∧
        (ready.wlc.unit .sau).present = true) ∧
      ([199, 200, 500, 501].map fun v => (v < 200, v ≤ 500)) =
        [(True, True), (False, True), (False, True), (False, False)] ∧
      ((inRound [.sau]).tcu.vRef = some 0 ∧ (withSpeed none (inRound [.sau])).tcu.vRef = none) ∧
      ((calibrating 5).wlc.visit = .sau :: [] ∧ (calibrating 5).stc.cal ≠ .none ∧
        (calibrating 5).standstill = false ∧ (calibrating 4).standstill = true ∧
        (calibrating 5).ore.steer = some (calibrating 5).stc.calCell ∧
        (calibrating 5).wlc.placed) :=
  front3 (by decide +kernel) ⟨by simp, front3 (by decide +kernel) (front3 (by decide +kernel)
    (placed_of (by decide +kernel)))⟩

/-- The SAU's turn in PROPEL, below the assist speed and at it. -/
theorem witness_CommandsSent_bias :
    (biased .propel 79).biasConditions ∧ ¬(biased .propel 80).biasConditions ∧
      (withWlc (inRound [.sau]).wlc (biased .propel 79)).wlc.visit = [.sau] ∧
      (after .steerTransmit (withWlc (inRound [.sau]).wlc (biased .propel 79))).stc.beta = 152 ∧
      (after .steerTransmit (withWlc (inRound [.sau]).wlc (biased .propel 80))).stc.beta = 0 :=
  ⟨bias_conditions, by rintro ⟨-, ⟨v, hv, hl⟩, -⟩; cases hv; exact absurd hl (by decide),
    by decide +kernel⟩

/-- The roll call of a start-up, wheel 3 being polled. -/
def rollCalling : State :=
  withWlc { ready.wlc with rollCall := some { todo := [.wheel .w3, .sau], tries := 2 } } ready

/-- A LOST wheel 2 in its turn of the round. -/
def lostTurn : State :=
  withWlc { ready.wlc with
    wheels := ready.wlc.wheels.set .w2 { enrolledUnit with state := .lost, held := .none }
    roundOpen := true, visit := [.wheel .w2] } ready

/-- A ROLL_CALL order whose current target is wheel 4, after the visited records. -/
def orderTurn : State :=
  withWlc { oneAbsent.wlc with
    roundOpen := true
    order := some { cell := 5, todo := [.wheel .w4], tries := 0, found := [], notFound := [] } } oneAbsent

def quietDue : State := withWlc { ready.wlc with quiet := true } ready

theorem witness_RollAndQuietSent :
    (rollCalling.isRunning = true ∧ rollCalling.wlc.window = none ∧ rollCalling.wlc.quiet = false ∧
        rollCalling.wlc.rollCall.map (fun c => c.todo.head?) = some (some (.wheel .w3))) ∧
      (lostTurn.wlc.rollCall = none ∧ lostTurn.wlc.roundOpen = true ∧
        lostTurn.wlc.visit = .wheel .w2 :: [] ∧ (lostTurn.wlc.unit (.wheel .w2)).state = .lost) ∧
      (orderTurn.wlc.rollCall = none ∧ orderTurn.wlc.roundOpen = true ∧ orderTurn.wlc.visit = [] ∧
        orderTurn.wlc.orderTried = false ∧
        orderTurn.wlc.order.map (fun o => o.todo.head?) = some (some (.wheel .w4))) ∧
      (ready.wlc.rollCall = none ∧ ready.wlc.roundOpen = false ∧ ready.wlc.quiet = false ∧
        rollCalling.wlc.rollCall.bind (fun c => c.todo.head?) ≠ some .sau ∧
        (lostTurn.wlc.unit .sau).state ≠ .lost ∧ orderTurn.wlc.visit.head? ≠ some .sau) ∧
      (quietDue.isRunning = true ∧ quietDue.wlc.quiet = true ∧ quietDue.wlc.window = none) := by decide +kernel

/-- SETTLE with wheel 1's window open and wheel 2's report with READY as given. -/
def settlingRound (flags : Byte) : State :=
  withWlc { (awaiting (.wheel .w1) .drive .round).wlc with
    wheels := ready.wlc.wheels.set .w2 { enrolledUnit with report := { Report.cleared with flags := flags } } }
    (settling 6000)

/-- Wheel 1's window open, its speed implausible so far and 19 plausible reports in a row. -/
def doubted : State :=
  withWheel .w1 (tqaAt 0) { tcuAt 0 with implausibleCond := true, plausibleRun := 19 }
    (awaiting (.wheel .w1) .drive .round)

/-- The kinds of the wheels and the steering as NOTEs, wheel 1's window open and four reports discarded. -/
def noted : State :=
  withWheel .w1 (tqaAt 0) { tcuAt 30000 with heldStamp := 5000, discards := 4 }
    (withCfl { ready.cfl with active := { config with overrides := overrideFloors } }
      (awaiting (.wheel .w1) .drive .round))

theorem witness_ReportsAccepted :
    ((awaiting (.wheel .w1) .drive .round).isRunning = true ∧ ready.wlc.window = none ∧
        (awaiting (.wheel .w1) .drive .round).wlc.window =
          some { unit := .wheel .w1, sent := .drive, purpose := .round } ∧
        (awaiting (.wheel .w1) .drive .round).cfg.wheel .w1 = true ∧ report.length = 16 ∧
        byteAt report 0 = BitVec.ofNat 8 (wheelNum .w1) ∧ byteAt report 1 = 0x22 ∧
        byteAt report 2 = ((awaiting (.wheel .w1) .drive .round).wlc.wheels.get .w1).lastSeq ∧
        crc (report.take 14) = byteAt report 14 ++ byteAt report 15) ∧
      ((60 : Int).natAbs ≤ 32000 ∧ ((60 : Int) - 0).natAbs ≤ 2000 ∧ ¬((32001 : Int).natAbs ≤ 32000)) ∧
      ((awaiting .sau .steer .round).wlc.window =
          some { unit := .sau, sent := .steer, purpose := .round } ∧
        (awaiting .sau .steer .round).cfg.unit .sau = true ∧ steerReport.length = 12 ∧
        byteAt steerReport 0 = 8 ∧ byteAt steerReport 1 = 0x32 ∧
        byteAt steerReport 2 = (awaiting .sau .steer .round).wlc.sau.lastSeq ∧
        crc (steerReport.take 10) = byteAt steerReport 10 ++ byteAt steerReport 11 ∧
        (byteAt steerReport 6 ++ byteAt steerReport 7).toNat ≤ 1000 ∧
        (byteAt steerReport 8 ++ byteAt steerReport 9).toNat ≤ 1000) ∧
      ((settlingRound 1).cfl.phase = .settle ∧ (settlingRound 1).dmc.mode = .starting ∧
        (after (.reportArrival report .o123) (settlingRound 1)).cfl.phase = .complete ∧
        (after (.reportArrival report .o123) (settlingRound 0)).cfl.phase = .settle) ∧
      (doubted.tcu.wheels.get .w1).implausibleCond ≠
        ((after (.reportArrival report .o123) doubted).tcu.wheels.get .w1).implausibleCond ∧
      ((awaiting (.wheel .w1) .drive .round).pru.ok ∧ (awaiting (.wheel .w1) .drive .round).wlc.placed ∧
        (awaiting (.wheel .w1) .drive .round).wlc.apart ∧ (awaiting .sau .steer .round).wlc.apart) ∧
      ((awaiting (.wheel .w1) .drive .round).delivered = true ∧
        (awaiting (.wheel .w1) .drive .round).cfl.phase ≠ .settle ∧
        (awaiting .sau .steer .round).delivered = true ∧
        Cls.faultChange.isIn (after (.reportArrival report .o123)
          (awaiting (.wheel .w1) .drive .round)).atc.pending = false ∧
        Cls.faultChange.isIn (after (.steerReportArrival steerReport .o123)
          (awaiting .sau .steer .round)).atc.pending = false ∧
        (noted.notes .wheelLost && noted.notes .wheelFault && noted.notes .speedImplausible &&
          noted.notes .wheelSlide) = true ∧
        (noted.notes .sauLost && noted.notes .steerFault && noted.notes .steerTracking) = true ∧
        noted.delivered = true ∧ noted.cfl.phase ≠ .settle ∧
        Cls.faultChange.isIn (after (.reportArrival report .o123) noted).atc.pending = true) :=
  front4 (by decide +kernel) ⟨by decide +kernel, ⟨noEntries, placed_of (by decide +kernel), apart_of
    (by decide +kernel), apart_of (by decide +kernel)⟩, by decide +kernel⟩

/-- The SAU's record holds 20.00°, with wheels in GRIP in a slow PROPEL: the six conditions of R152. -/
def steered : State :=
  let s := rearPair (driving .propel 900 0 70)
  withWlc { s.wlc with sau := { s.wlc.sau with report := { Report.cleared with flags := 1, field1 := 2000 } } } s

/-- A calibration in a state, with a report to a STEER that was sent with the calibrate flag. -/
def answered (cal : Cal) (flags : Byte) : State :=
  withStc { busy.stc with cal := cal }
    (withWlc { busy.wlc with sau := { busy.wlc.sau with
      lastControl := 2, report := { Report.cleared with flags := flags } } } busy)

theorem witness_SteeringFollowed :
    steered.wlc.sau.report.field1.toInt = 2000 ∧
      (steered.dmc.substate = .propel ∧ steered.tcu.vRef = some 70 ∧ 70 < steered.cfg.assistSpeed ∧
        500 ≤ (2000 : Int).natAbs) ∧
      (∀ w : Wheel, steered.cfg.wheel w = true →
        steered.active w = true ∧ (steered.tcu.wheels.get w).slip = .grip) ∧
      (ready.dmc.substate ≠ .propel ∧ ready.stc.tracking = false ∧
        (withStc { ready.stc with tracking := true, within := 9 } ready).stc.tracking = true) ∧
      ((answered .starting 4).wlc.sau.lastControl.getLsbD 1 = true ∧
        (answered .starting 4).stc.cal = .starting ∧
        (answered .starting 4).wlc.sau.report.flags.getLsbD 2 = true ∧
        (answered .running 0x18).stc.cal = .running ∧
        (answered .running 0x18).wlc.sau.report.flags.getLsbD 3 = true ∧
        (answered .running 0x18).wlc.sau.report.flags.getLsbD 4 = true ∧
        ¬((answered .running 0x08).wlc.sau.report.flags.getLsbD 4 = true) ∧
        (answered .running 0x18).ore.steer = some (answered .running 0x18).stc.calCell ∧
        (answered .running 0x18).wlc.placed) :=
  ⟨by decide +kernel, by decide +kernel, by intro x; cases x <;> decide +kernel, front3
    (by decide +kernel) (front3 (by decide +kernel) (front3 (by decide +kernel) (placed_of
    (by decide +kernel))))⟩

/-- N_track follows the round period in force, 4 ms, not the 10 ms of a configuration not yet taken up by
a round: 125 reports outside tolerance, section 8.8 and R26. -/
theorem test_round_period_in_force :
    let s := withStc { ready.stc with exceed := 49 } (withWlc { ready.wlc with
      sau := { ready.wlc.sau with lastControl := 1, lastValue := 4000 } }
        (withCfl { ready.cfl with active := { config with roundPeriod := 10 } } ready))
    (stcReport s).stc.exceed = 50 ∧ (stcReport s).stc.tracking = false := by decide +kernel

/-- The roll call of a start-up at its last record, the SAU, after some tries without an answer. -/
def lastPoll (tries : Nat) : State :=
  withWlc { ready.wlc with
    window := some { unit := .sau, sent := .roll, purpose := .rollCall }
    rollCall := some { todo := [.sau], tries := tries }, roundsOn := false }
    (withCfl { ready.cfl with phase := .enroll } (inMode .starting .none))

theorem witness_AnswersAccepted :
    ((awaiting .sau .roll .order).isRunning = true ∧ ready.wlc.window = none ∧
        (awaiting .sau .roll .round).wlc.window =
          some { unit := .sau, sent := .roll, purpose := .round } ∧
        (awaiting .sau .roll .round).cfg.unit .sau = true ∧ Purpose.round ≠ .order ∧ answer.length = 8 ∧
        byteAt answer 0 = unitAddress .sau ∧ byteAt answer 1 = 0x12 ∧ byteAt answer 2 = unitKind .sau ∧
        crc (answer.take 6) = byteAt answer 6 ++ byteAt answer 7) ∧
      (withWlc { orderTurn.wlc with
        window := some { unit := .wheel .w4, sent := .roll, purpose := .order } } ready).wlc.order ≠ none ∧
      ((awaiting .sau .roll .ended).wlc.window =
        some { unit := .sau, sent := .roll, purpose := .ended } ∧
        (awaiting .sau .roll .ended).cfg.unit .sau = true) ∧
      ((awaiting .sau .roll .ended).wlc.placed ∧ (awaiting .sau .roll .ended).wlc.apart) ∧
      ((lastPoll 0).wlc.window = some { unit := .sau, sent := .roll, purpose := .rollCall } ∧
        (lastPoll 0).wlc.rollCall = some { todo := [.sau], tries := 0 } ∧
        (lastPoll 0).wlc.rollCallAsked = false ∧ (lastPoll 0).dmc.mode = .starting ∧
        (lastPoll 0).wlc.order = none ∧ (lastPoll 0).isRunning = true) ∧
      (lastPoll 0).wlc.placed ∧ (lastPoll 0).pru.ok ∧
      ∀ v, ((lastPoll 0).wlc.unit v).configured = (lastPoll 0).cfg.unit v :=
  front3 (by decide +kernel) ⟨⟨placed_of (by decide +kernel), apart_of (by decide +kernel)⟩,
    by decide +kernel, placed_of (by decide +kernel), noEntries,
    by intro x; rcases x with ⟨⟨⟩⟩ | ⟨⟩ <;> decide +kernel⟩

/-- The window of a ROLL_CALL order's current target, with the order's targets and tries. -/
def polled (u : UnitId) (rest : List UnitId) (tries : Nat) : State :=
  polling (u :: rest) tries (awaiting u .roll .order)

/-- A SAU that answers an order with a target to come and one that is the last target; a LOST SAU
that answers a round; and a SAU of the roll call that is not configured. -/
theorem witness_AnswersAccepted_order :
    ((polled .sau [.wheel .w4] 1).wlc.window =
          some { unit := .sau, sent := .roll, purpose := .order } ∧
        (polled .sau [.wheel .w4] 1).wlc.order.map (fun o => o.todo) = some [.sau, .wheel .w4] ∧
        (polled .sau [.wheel .w4] 1).wlc.roundDue = false ∧
        (polled .sau [.wheel .w4] 1).wlc.rollCallAsked = false ∧
        (after (.rollAnswerArrival answer) (polled .sau [.wheel .w4] 1)).dmc.mode = .ready ∧
        (after (.rollAnswerArrival answer) (polled .sau [] 3)).dmc.mode = .ready ∧
        ((polled .sau [.wheel .w4] 1).wlc.unit (.wheel .w4)).configured = true ∧
        ((polled .sau [.wheel .w4] 1).wlc.unit .sau).block = none ∧
        (polled .sau [] 3).ore.inFlight .enroll = some 5) ∧
      (polled .sau [] 3).wlc.placed ∧
      ((withWlc { (awaiting .sau .roll .round).wlc with
          sau := { enrolledUnit with state := .lost, held := .none } } ready).wlc.sau.state ≠ .enrolled ∧
        (withWlc { (awaiting .sau .roll .round).wlc with
          sau := { enrolledUnit with state := .lost, held := .none } } ready).wlc.sau.configured = true) ∧
      (∀ q, (polled .sau [] 3).ore.inFlight q = some 5 → q = .enroll) ∧ ready.pru.ok :=
  ⟨by decide +kernel, placed_of (by decide +kernel), by decide +kernel,
    by intro x; cases x <;> decide +kernel, noEntries⟩

/-- Wheel 1's window open, its record with the misses given. -/
def missing (n : Nat) : State :=
  withWlc { (awaiting (.wheel .w1) .drive .round).wlc with
    wheels := ready.wlc.wheels.set .w1 { enrolledUnit with misses := n } } ready

theorem witness_ExchangeMissed :
    ((missing 1).isRunning = true ∧ ready.wlc.window = none ∧
        (missing 1).wlc.window = some { unit := .wheel .w1, sent := .drive, purpose := .round } ∧
        Sent.drive ≠ .roll ∧ (missing 1).cfg.unit (.wheel .w1) = true ∧
        ((missing 1).wlc.unit (.wheel .w1)).state = .enrolled ∧
        min (missing 1).cfg.missLimit (((missing 1).wlc.unit (.wheel .w1)).misses + 1) <
          (missing 1).cfg.missLimit ∧
        ((missing 1).wlc.wheels.get .w1).misses + 1 < (missing 1).cfg.missLimit ∧
        (missing 1).delivered = true ∧ (missing 1).cfl.phase ≠ .settle ∧
        (missing 1).wlc.roundDue = false ∧ (missing 1).wlc.rollCallAsked = false) ∧
      ((missing 2).cfg.missLimit ≤
        min (missing 2).cfg.missLimit (((missing 2).wlc.unit (.wheel .w1)).misses + 1)) ∧
      ((awaiting .sau .roll .round).wlc.window =
          some { unit := .sau, sent := .roll, purpose := .round } ∧
        (awaiting .sau .roll .round).cfg.unit .sau = true) ∧
      ((withWlc { (awaiting .sau .roll .rollCall).wlc with
          rollCall := some { todo := [.sau], tries := 2 } } ready).wlc.window =
          some { unit := .sau, sent := .roll, purpose := .rollCall } ∧
        (withWlc { (awaiting .sau .roll .rollCall).wlc with
          rollCall := some { todo := [.sau], tries := 2 } } ready).wlc.rollCall =
            some { todo := [.sau], tries := 2 }) ∧
      (telegramLength (byteAt report 1) = some report.length ∧
        telegramLength (byteAt [1, 0x22] 1) ≠ some [1, 0x22].length ∧
        crc (report.take 14) = byteAt report 14 ++ byteAt report 15 ∧
        crc ((report.take 15 ++ [0]).take 14) ≠
          byteAt (report.take 15 ++ [0]) 14 ++ byteAt (report.take 15 ++ [0]) 15 ∧
        byteAt report 0 ≠ unitAddress .sau ∧ byteAt report 1 ≠ 0x32 ∧
        byteAt report 2 ≠ ({ enrolledUnit with lastSeq := 8 }).lastSeq) ∧
      ((awaiting .sau .roll .ended).wlc.window =
        some { unit := .sau, sent := .roll, purpose := .ended }) ∧
      ((lastPoll 2).isRunning = true ∧
        (lastPoll 2).wlc.window = some { unit := .sau, sent := .roll, purpose := .rollCall } ∧
        (lastPoll 2).wlc.rollCall = some { todo := [.sau], tries := 2 } ∧
        (lastPoll 2).wlc.rollCallAsked = false ∧ (lastPoll 2).dmc.mode = .starting ∧
        (lastPoll 2).wlc.order = none ∧ ((lastPoll 2).wlc.unit .sau).state = .enrolled) ∧
      (lastPoll 2).wlc.placed ∧ (lastPoll 2).pru.ok ∧
      ∀ v, ((lastPoll 2).wlc.unit v).configured = (lastPoll 2).cfg.unit v :=
  front4 (by decide +kernel) (front3 (by decide +kernel) ⟨placed_of (by decide +kernel), noEntries,
    by intro x; rcases x with ⟨⟨⟩⟩ | ⟨⟩ <;> decide +kernel⟩)

/-- `busy` without its ROLL_CALL, the SAU silent up to the miss limit in its exchange. -/
def sauSilent : State :=
  withWlc { ready.wlc with
    sau := { ready.wlc.sau with misses := 2 }
    window := some { unit := .sau, sent := .steer, purpose := .round } } busy

/-- A SAU at the miss limit while a calibration is in progress, and the second and third try of an
order's target, with a next target and without. -/
theorem witness_ExchangeMissed_order :
    (sauSilent.isRunning = true ∧
        sauSilent.wlc.window = some { unit := .sau, sent := .steer, purpose := .round } ∧
        sauSilent.cfg.unit .sau = true ∧ sauSilent.wlc.sau.state = .enrolled ∧
        sauSilent.cfg.missLimit ≤ min sauSilent.cfg.missLimit (sauSilent.wlc.sau.misses + 1) ∧
        sauSilent.stc.cal ≠ .none ∧ sauSilent.ore.inFlight .steer = some sauSilent.stc.calCell) ∧
      sauSilent.wlc.placed ∧ sauSilent.pru.ok ∧
      (∀ q, sauSilent.ore.inFlight q = some sauSilent.stc.calCell → q = .steer) ∧
      ((polled (.wheel .w4) [.sau] 2).wlc.window =
          some { unit := .wheel .w4, sent := .roll, purpose := .order } ∧
        (polled (.wheel .w4) [.sau] 2).wlc.order.map (fun o => (o.todo, decide (o.tries < 3))) =
          some ([.wheel .w4, .sau], true) ∧
        (polled (.wheel .w4) [.sau] 3).wlc.order.map (fun o => decide (3 ≤ o.tries)) = some true ∧
        (polled (.wheel .w4) [.sau] 3).wlc.roundDue = false ∧
        (polled (.wheel .w4) [.sau] 3).wlc.rollCallAsked = false ∧
        (polled (.wheel .w4) [.sau] 3).cfg.unit (.wheel .w4) = true ∧
        (after .replyWindowExpiry (polled (.wheel .w4) [.sau] 2)).dmc.mode = .ready ∧
        (after .replyWindowExpiry (polled (.wheel .w4) [.sau] 3)).dmc.mode = .ready ∧
        (after .replyWindowExpiry (polled (.wheel .w4) [] 3)).dmc.mode = .ready ∧
        ((polled (.wheel .w4) [.sau] 3).wlc.unit .sau).configured = true ∧
        (polled (.wheel .w4) [] 3).ore.inFlight .enroll = some 5) :=
  ⟨by decide +kernel, placed_of (by decide +kernel), noEntries,
    by intro x; cases x <;> decide +kernel, by decide +kernel⟩

/-! ## Witnesses for the grids -/

/-- DRIVE at a link voltage, with LINK_UNDERVOLT and its counts as given. -/
def linked (volts count clear : Nat) (held : Bool) : State :=
  let s := driving .propel 500 0 100
  withLmu { s.lmu with undervolt := held, undervoltCount := count, undervoltClear := clear }
    (withRgc { s.rgc with samples := List.replicate 16 volts, vF := volts } s)

theorem witness_LinkFiltered :
    ((linked 899 24 0 false).isRunning = true ∧ (linked 899 24 0 false).lmu.ok ∧
        (linked 899 24 0 false).pru.ok) ∧
      ((linked 899 24 0 false).cfl.guardOn = true ∧ (linked 899 24 0 false).dmc.mode = .drive ∧
        (linked 899 24 0 false).lmu.undervolt = false ∧ (linked 900 0 24 true).lmu.undervolt = true) ∧
      State.reset.cfl.guardOn = false ∧
      ((inMode .tripped .none).cfl.guardOn = true ∧ (inMode .tripped .none).dmc.mode = .tripped) ∧
      ((linked 2301 0 0 false).cfg.vTrip < (linked 2301 0 0 false).rgc.samples.sum / 16 ∧
        (linked 2199 0 0 false).rgc.samples.sum / 16 + 100 < (linked 2199 0 0 false).cfg.vTrip ∧
        (linked 2200 0 0 false).rgc.samples.sum / 16 ≤ (linked 2200 0 0 false).cfg.vTrip ∧
        (linked 2200 0 0 false).cfg.vTrip ≤ (linked 2200 0 0 false).rgc.samples.sum / 16 + 100) ∧
      (busy.delivered = true ∧ busy.pru.noEntry .linkOvervolt .global ∧
        busy.rgc.samples.sum / 16 ≤ busy.cfg.vTrip ∧ busy.lmu.undervolt = false ∧
        busy.cfg.vMin ≤ busy.rgc.samples.sum / 16 ∧ busy.rgc.test = some gridTest ∧
        ¬(busy.dmc.mode = .ready ∧ busy.standstill = false) ∧ gridTest.current = some .b1) ∧
      ((withSpeed (some 5) busy).dmc.mode = .ready ∧ (withSpeed (some 5) busy).standstill = false) :=
  ⟨⟨by decide +kernel, ⟨List.Pairwise.nil, fun _ h => absurd h List.not_mem_nil⟩, noEntries⟩, front4
    (by decide +kernel) ⟨⟨by decide +kernel, noneListed, by decide +kernel⟩, by decide +kernel⟩⟩

/-- DRIVE going FORWARD at 288 with a hold speed, V_env as last formed, and the RGC's times. -/
def holding (hold propel env exceed clear short recover : Nat) (causes : Causes) : State :=
  let s := driving .retard propel 700 288
  withDmc { s.dmc with demand := { s.dmc.demand with holdSpeed := hold, grade := -60 } }
    (withRgc { s.rgc with
      vEnv := env, exceedTime := exceed, clearTime := clear, shortfallTime := short
      recoveryTime := recover, causes := causes, exceeded := causes.envelope, period := 5
      integrator := 500 } s)

/-- No cause of the brake-assist output, SHORTFALL alone, and ENVELOPE alone. -/
def noCause : Causes := Rgc.reset.causes
def shortCause : Causes := { noCause with shortfall := true }
def envelopeCause : Causes := { noCause with envelope := true }

/-- The flags of an active wheel whose reference is negative. -/
def pulled : TqaFlags := { TqaFlags.idle with zero := false, negative := true, inactive := false }

/-- Every wheel binds by POWER, its reference a tenth of its request. -/
def bound (s : State) : State :=
  { s with tqa := { s.tqa with
    wheels := PerWheel.fill { tqaAt (-1000) with request := 10000, binding := .power, flags := pulled } } }

/-- Every wheel's reference is its request. -/
def met (s : State) : State :=
  { s with tqa := { s.tqa with
    wheels := PerWheel.fill { tqaAt (-10000) with request := 10000, binding := .request, flags := pulled } } }

theorem witness_HoldUpdated :
    ((holding 200 0 300 0 0 0 0 noCause).isRunning = true ∧ (holding 200 0 300 0 0 0 0 noCause).pru.ok ∧
        (holding 200 0 300 0 0 0 0 noCause).dmc.mode = .drive ∧
        (holding 200 0 300 0 0 0 0 noCause).dmc.adopted ≠ .neutral ∧
        (holding 200 0 300 0 0 0 0 noCause).tcu.vRef = some 288 ∧
        0 < (holding 200 0 300 0 0 0 0 noCause).dmc.demand.holdSpeed) ∧
      ¬((ready.dmc.mode = .drive ∨ ready.dmc.mode = .safeStop) ∧ ready.dmc.adopted ≠ .neutral) ∧
      ((withSpeed none (holding 200 0 300 0 0 0 0 noCause)).tcu.vRef = none ∧
        (holding 0 0 300 0 0 0 0 noCause).dmc.demand.holdSpeed = 0) ∧
      ((bound (holding 200 0 300 0 0 0 0 noCause)).dmc.substate = .retard ∧
        (((bound (holding 200 0 300 0 0 0 0 noCause)).tqa.wheels.get .w1).flags.inactive = false)) ∧
      (∀ w : Wheel,
        ((bound (holding 200 0 300 0 0 0 0 noCause)).tqa.wheels.get w).flags.inactive = false →
        ((bound (holding 200 0 300 0 0 0 0 noCause)).tqa.wheels.get w).binding ∈
          [.power, .derate, .slip, .capacity, .clamp]) ∧
      ((after .holdUpdate (withSpeed (some 321) (holding 0 0 300 995 0 0 0 noCause))).rgc.exceeded =
          true ∧
        (withSpeed (some 321) (holding 0 0 300 995 0 0 0 noCause)).rgc.exceeded = false) ∧
      ((holding 200 0 300 0 0 295 0 noCause).dmc.substate = .retard ∧
        (holding 200 0 300 0 0 295 0 noCause).rgc.causes.shortfall = false ∧
        (holding 200 0 300 0 0 0 295 shortCause).rgc.causes.shortfall = true ∧
        ready.dmc.substate ≠ .retard) ∧
      ((holding 200 0 300 0 0 0 0 noCause).delivered = true ∧
        (after .holdUpdate (holding 200 0 300 0 0 0 0 noCause)).rgc.exceeded =
          (holding 200 0 300 0 0 0 0 noCause).rgc.exceeded) ∧
      ((met (holding 200 0 300 0 0 300 295 shortCause)).dmc.substate = .retard ∧
        (met (holding 200 0 300 0 0 300 295 shortCause)).rgc.shortfallTime = 300 ∧
        (met (holding 200 0 300 0 0 300 295 shortCause)).rgc.causes.shortfall = true ∧
        (met (holding 200 0 300 0 0 300 295 shortCause)).delivered = true ∧
        (after .holdUpdate (met (holding 200 0 300 0 0 300 295 shortCause))).rgc.exceeded =
          (met (holding 200 0 300 0 0 300 295 shortCause)).rgc.exceeded ∧
        (after .holdUpdate (met (holding 200 0 300 0 0 300 295 shortCause))).rgc.causes.shortfall =
          false) ∧
      ((bound (holding 200 0 300 0 0 295 300 noCause)).rgc.recoveryTime = 300 ∧
        (bound (holding 200 0 300 0 0 295 300 noCause)).rgc.causes.shortfall = false ∧
        (after .holdUpdate (bound (holding 200 0 300 0 0 295 300 noCause))).rgc.causes.shortfall =
          true) :=
  ⟨⟨by decide +kernel, noEntries, by decide +kernel⟩, front3 (by decide +kernel) ⟨
    by intro x; cases x <;> decide +kernel, by decide +kernel⟩⟩

/-- Bank 1 at 600 °C and bank 2 at 150 °C, with a grid demand of 2000 kW posted. -/
def demanded (volts : Nat) : State :=
  withLmu { ready.lmu with theta := { ready.lmu.theta with b1 := 6000, b2 := 1500 } }
    (withRgc { ready.rgc with vF := volts, demand := 2000, demandNew := true } ready)

theorem witness_GridWork :
    ((demanded 1800).isRunning = true ∧ (demanded 1800).cfl.phase ≠ .load ∧
        (demanded 1800).cfg.bank .b1 = true ∧ (demanded 1800).lmu.theta.get .b1 = 6000) ∧
      (∀ c : Bank, (demanded 1800).cfg.bank c = true → (demanded 1800).lmu.theta.get c ≤ 6000) ∧
      State.reset.cfl.phase = .load ∧
      (ready.rgc.demandNew = false ∧ (demanded 1800).rgc.demandNew = true ∧
        (demanded 1800).dmc.mode = .ready ∧ (standby .dark).dmc.mode = .standby) ∧
      ((demanded 99).rgc.vF < 100 ∧ Bank.b1 ∈ (demanded 99).rgc.rotation ∧
        ((demanded 99).rgc.chans.get .b1).state = .run) ∧
      (100 ≤ (demanded 100).rgc.vF ∧ (demanded 100).rgc.rotation.Nodup ∧
        (demanded 100).rgc.rotation[3]? = some .b4 ∧
        ((demanded 100).rgc.chans.get .b4).state ≠ .test ∧
        (busy.rgc.chans.get .b1).state = .test) ∧
      (ready.rgc.rotation.contains .b5 = false) ∧ ready.wlc.placed ∧ ready.wlc.apart :=
  ⟨by decide +kernel, by intro x; cases x <;> decide +kernel, front4 (by decide +kernel)
    ⟨by decide +kernel, ⟨placed_of (by decide +kernel), apart_of (by decide +kernel)⟩⟩⟩

/-- Bank 1's channel as given in a grid test whose last pulse has begun, with the banks waiting. -/
def finishing (c : Chan) (waiting : List Bank) : State :=
  { busy with rgc := { busy.rgc with
    test := some { gridTest with finishing := true, waiting := waiting }
    chans := busy.rgc.chans.set .b1 c } }

/-- The gate of channel 1, and of the blower, is on for 469 µs. -/
def pulsing : State :=
  withRgc { ready.rgc with
    chans := ready.rgc.chans.set .b1 { Chan.reset with state := .run, gate := true, onTime := 469 }
    blower := { Chan.reset with state := .run, gate := true, onTime := 469 } } ready

def pulse : Chan := { Chan.reset with state := .test, gate := true, onTime := 469 }

theorem witness_ChannelPeriods :
    (ready.isRunning = true ∧ (ready.rgc.chans.get .b5).state = .off ∧
        (ready.rgc.chans.get .b1).state = .run ∧ ready.rgc.test = none) ∧
      ((busy.rgc.chans.get .b1).state = .test ∧ busy.rgc.test = some gridTest ∧
        gridTest.current = some .b1 ∧ gridTest.finishing = false) ∧
      ((finishing pulse [.b2]).rgc.test = some { gridTest with finishing := true, waiting := [.b2] } ∧
        (finishing pulse [.b2]).wlc.placed ∧
        (finishing pulse [.b2]).ore.grid = some gridTest.cell ∧
        (finishing pulse [.b2]).cfl.guardOn = true ∧ (finishing pulse [.b2]).cfg.bank .b1 = true ∧
        (finishing pulse [.b2]).pru.bankEx.get .b1 = false ∧
        ((finishing pulse [.b2]).rgc.chans.get .b1).state = .test ∧
        ((finishing pulse [.b2]).rgc.chans.get .b1).gate = true ∧
        ((finishing pulse [.b2]).rgc.chans.get .b1).fullOn = false ∧
        gridTest.passed.contains .b1 = false ∧ gridTest.skipped.contains .b1 = false ∧
        gridTest.waiting.contains .b1 = false) ∧
      (finishing pulse []).rgc.test = some { gridTest with finishing := true, waiting := [] } ∧
      ((ready.rgc.chans.get .b1).gate = false ∧ (pulsing.rgc.chans.get .b1).gate = true ∧
        (pulsing.rgc.chans.get .b1).fullOn = false ∧ pulsing.rgc.test = none) ∧
      (State.reset.rgc.blower.state = .off ∧ ready.rgc.blower.state = .run ∧
        ready.rgc.blower.gate = false ∧ pulsing.rgc.blower.gate = true ∧
        pulsing.rgc.blower.fullOn = false) :=
  ⟨by decide +kernel, by decide +kernel, ⟨by decide +kernel, placed_of (by decide +kernel),
    by decide +kernel⟩, by decide +kernel⟩

/-- TRIPPED with the discharge and pulse timers ending at a drive clock. -/
def discharging (due : Long) : State :=
  withRgc { ready.rgc with discharge := some due, pulse := some due } (inMode .tripped .none)

theorem witness_GridTimersExpire :
    ((discharging 5000).isRunning = true ∧ (discharging 5000).rgc.discharge = some 5000 ∧
        (discharging 5000).rgc.pulse = some 5000 ∧ (discharging 5000).dmc.mode = .tripped ∧
        (discharging 5000).rgc.test = none ∧ ((discharging 5000).clock - 5000).toNat < 2 ^ 31) ∧
      (∀ b : Bank, ((discharging 5000).rgc.chans.get b).gate = true →
        ((discharging 5000).rgc.chans.get b).state = .run) ∧
      2 ^ 31 ≤ ((discharging 5001).clock - 5001).toNat ∧
      ((withStc { busy.stc with calStart := busy.clock - 30000 } busy).stc.cal ≠ .none ∧
        30000 ≤ ((withStc { busy.stc with calStart := busy.clock - 30000 } busy).clock -
          (withStc { busy.stc with calStart := busy.clock - 30000 } busy).stc.calStart).toNat ∧
        (withStc { busy.stc with calStart := busy.clock - 30000 } busy).ore.steer =
          some (withStc { busy.stc with calStart := busy.clock - 30000 } busy).stc.calCell ∧
        (withStc { busy.stc with calStart := busy.clock - 30000 } busy).wlc.placed) ∧
      ((busy.clock - busy.stc.calStart).toNat < 30000) :=
  ⟨by decide +kernel, by intro x; cases x <;> decide +kernel, by decide +kernel, front3
    (by decide +kernel) (placed_of (by decide +kernel)), by decide +kernel⟩

/-! ## Witnesses for heat and load -/

/-- DRIVE with the blower commanded and its counts as given. -/
def blowing (fail : Bool) (inactive active : Nat) : State :=
  withLmu { ready.lmu with
    commanded := 19661, blowerFail := fail, inactive := inactive, activeCount := active } ready

/-- Bank 1 at a temperature with GRID_HOT as given, one observation short. -/
def gridAt (theta : Int) (hot : Bool) : State :=
  withLmu { ready.lmu with
    theta := ready.lmu.theta.set .b1 theta, hot := ready.lmu.hot.set .b1 hot
    hotClear := ready.lmu.hotClear.set .b1 9 } ready

/-- Wheel 1's record holds a winding temperature, with WINDING_HOT and its counts as given. -/
def windingAt (temp : Word) (hot : Bool) (count clear : Nat) : State :=
  withLmu { ready.lmu with
    windingHot := ready.lmu.windingHot.set .w1 hot
    windingCount := ready.lmu.windingCount.set .w1 count
    windingClear := ready.lmu.windingClear.set .w1 clear }
    (withWlc { ready.wlc with wheels := ready.wlc.wheels.set .w1 { enrolledUnit with
      report := { Report.cleared with flags := 1, field2 := temp } } } ready)

theorem witness_ThermalSampled :
    (State.reset.isRunning = true ∧ State.reset.cfl.guardOn = false ∧ State.reset.delivered = true) ∧
      ((blowing false 29 0).isRunning = true ∧ (blowing false 29 0).cfl.guardOn = true ∧
        (blowing false 29 0).lmu.ok ∧ (blowing false 29 0).pru.ok ∧
        (blowing false 29 0).lmu.blowerFail = false ∧ 19661 ≤ (blowing false 29 0).lmu.commanded) ∧
      ((blowing true 30 9).lmu.blowerFail = true ∧ ready.lmu.commanded < 19661) ∧
      ((gridAt 6499 true).cfg.bank .b1 = true ∧ (gridAt 6499 true).lmu.hot.get .b1 = true ∧
        (gridAt 7000 false).lmu.hot.get .b1 = false ∧ (gridAt 7000 false).cfg.bank .b5 = false) ∧
      ((windingAt 200 false 1 0).cfg.wheel .w1 = true ∧
        ((windingAt 200 false 1 0).wlc.wheels.get .w1).held ≠ .none ∧
        ((windingAt 200 false 1 0).wlc.wheels.get .w1).report.field2.toInt = 200 ∧
        (windingAt 200 false 1 0).lmu.windingHot.get .w1 = false ∧
        (windingAt 189 true 0 9).lmu.windingHot.get .w1 = true) ∧
      ((lostTurn.cfg.wheel .w2 = true ∧ (lostTurn.wlc.wheels.get .w2).held = .none) ∧
        (rearPair ready).cfg.wheel .w3 = false) ∧
      (ready.standstill = true ∧ (withSpeed (some 5) ready).standstill = false) ∧
      (ready.wlc.placed ∧ ready.wlc.apart) :=
  ⟨by decide +kernel, ⟨by decide +kernel, by decide +kernel, ⟨List.Pairwise.nil, fun _ h => absurd h
    List.not_mem_nil⟩, noEntries, by decide +kernel⟩, front4 (by decide +kernel) ⟨by decide +kernel,
    ⟨placed_of (by decide +kernel), apart_of (by decide +kernel)⟩⟩⟩

theorem witness_ConditionsChange :
    ((linked 899 24 0 false).isRunning = true ∧ (linked 899 24 0 false).pru.ok ∧
        (linked 899 24 0 false).cfl.guardOn = true ∧ (linked 899 24 0 false).dmc.mode = .drive ∧
        (linked 899 24 0 false).lmu.undervolt = false ∧ 24 ≤ (linked 899 24 0 false).lmu.undervoltCount ∧
        (linked 899 24 0 false).rgc.vF < (linked 899 24 0 false).cfg.vMin ∧
        24 ≤ (linked 900 0 24 true).lmu.undervoltClear ∧
        (linked 900 0 24 true).cfg.vMin ≤ (linked 900 0 24 true).rgc.vF) ∧
      ((gridAt 6499 true).cfl.guardOn = true ∧ (gridAt 6499 true).cfg.bank .b1 = true ∧
        (gridAt 6499 true).lmu.hot.get .b1 = true ∧
        (gridAt 6499 true).lmu.theta.get .b1 < 10 * (((gridAt 6499 true).cfg.thetaTrip : Int) - 50) ∧
        9 ≤ (gridAt 6499 true).lmu.hotClear.get .b1 ∧
        ¬((gridAt 6500 true).lmu.theta.get .b1 <
          10 * (((gridAt 6500 true).cfg.thetaTrip : Int) - 50))) ∧
      ((blowing false 29 0).lmu.ok ∧ (blowing false 29 0).lmu.blowerFail = false ∧
        29 ≤ (blowing false 29 0).lmu.inactive ∧ (blowing true 30 9).lmu.blowerFail = true ∧
        9 ≤ (blowing true 30 9).lmu.activeCount) ∧
      (((windingAt 200 false 1 0).cfg.windingLimit : Int) ≤
          ((windingAt 200 false 1 0).wlc.wheels.get .w1).report.field2.toInt ∧
        1 ≤ (windingAt 200 false 1 0).lmu.windingCount.get .w1 ∧
        ((windingAt 189 true 0 9).wlc.wheels.get .w1).report.field2.toInt <
          ((windingAt 189 true 0 9).cfg.windingLimit : Int) - 10 ∧
        9 ≤ (windingAt 189 true 0 9).lmu.windingClear.get .w1) ∧
      ((holding 0 0 267 995 0 0 0 noCause).dmc.mode = .drive ∧
        (holding 0 0 267 995 0 0 0 noCause).dmc.adopted ≠ .neutral ∧
        (holding 0 0 267 995 0 0 0 noCause).rgc.exceeded = false ∧
        (holding 0 0 267 995 0 0 0 noCause).tcu.vRef = some 288 ∧
        (holding 0 0 267 995 0 0 0 noCause).rgc.vEnv + 20 < 288 ∧
        1000 ≤ (holding 0 0 267 995 0 0 0 noCause).rgc.exceedTime +
          (holding 0 0 267 995 0 0 0 noCause).rgc.period ∧
        (holding 0 0 288 0 995 0 0 envelopeCause).rgc.exceeded = true ∧
        288 ≤ (holding 0 0 288 0 995 0 0 envelopeCause).rgc.vEnv ∧
        1000 ≤ (holding 0 0 288 0 995 0 0 envelopeCause).rgc.clearTime +
          (holding 0 0 288 0 995 0 0 envelopeCause).rgc.period) ∧
      ((bound (holding 0 0 300 0 0 295 0 noCause)).dmc.substate = .retard ∧
        4000 * 1000 < 900 * 40000 ∧
        (bound (holding 0 0 300 0 0 295 0 noCause)).retarding TqaWheel.request = 40000 ∧
        (bound (holding 0 0 300 0 0 295 0 noCause)).retarding (fun x => x.reference.natAbs) = 4000 ∧
        300 ≤ (bound (holding 0 0 300 0 0 295 0 noCause)).rgc.shortfallTime +
          (bound (holding 0 0 300 0 0 295 0 noCause)).rgc.period ∧
        (met (holding 0 0 300 0 0 0 295 shortCause)).rgc.causes.shortfall = true ∧
        300 ≤ (met (holding 0 0 300 0 0 0 295 shortCause)).rgc.recoveryTime +
          (met (holding 0 0 300 0 0 0 295 shortCause)).rgc.period ∧
        (met (holding 0 0 300 0 0 0 295 shortCause)).retarding (fun x => x.reference.natAbs) = 40000) :=
  ⟨⟨by decide +kernel, noEntries, by decide +kernel⟩, by decide +kernel, ⟨⟨List.Pairwise.nil, fun _
    h => absurd h List.not_mem_nil⟩, by decide +kernel⟩, by decide +kernel⟩

/-! ## Witnesses for traction and protection -/

/-- DRIVE with wheel 1's slip record as given, at a V_ref of 100. -/
def slipping (sub : Substate) (t : TcuWheel) : State :=
  withWheel .w1 (tqaAt 0) t (driving sub 500 500 100)

theorem witness_SlipJudged :
    ((slipping .propel TcuWheel.reset).pru.ok ∧
        (slipping .propel TcuWheel.reset).tcu.vRef = some 100 ∧
        (slipping .propel TcuWheel.reset).pru.wheelEx.get .w1 = false ∧
        ((slipping .propel TcuWheel.reset).tcu.wheels.get .w1).discarded = false ∧
        (withSpeed none ready).tcu.vRef = none) ∧
      ((judgeSlip .w1 (slipping .propel { TcuWheel.reset with ground := 99, count := 2 })).tcu.wheels.get
          .w1).slip = .grip ∧
      ((judgeSlip .w1 (slipping .propel { TcuWheel.reset with ground := 116, count := 2 })).tcu.wheels.get
          .w1).slip = .slip ∧
      ((judgeSlip .w1 (slipping .retard { TcuWheel.reset with ground := 84, count := 2 })).tcu.wheels.get
          .w1).slip = .slide ∧
      ((judgeSlip .w1 (slipping .propel { TcuWheel.reset with
          ground := 107, slip := .slip, factor := 600 })).tcu.wheels.get .w1).slip = .recover ∧
      ((judgeSlip .w1 (slipping .propel { TcuWheel.reset with
          ground := 100, slip := .recover, factor := 980 })).tcu.wheels.get .w1).slip = .grip ∧
      ((judgeSlip .w1 (slipping .retard { TcuWheel.reset with
          ground := 50, slip := .slide, factor := 200, slideStart := some 3000 })).tcu.wheels.get
            .w1).slideCond = true ∧
      ((slipping .propel TcuWheel.reset).pru.wheelEx.get .w1 = false ∧
        (fun s : State => (s.pru.wheelEx.get .w1, (PerWheel.fill false).get .w1))
          { ready with pru := { ready.pru with wheelEx := PerWheel.fill true } } = (true, false)) :=
  ⟨⟨noEntries, by decide +kernel⟩, by decide +kernel⟩

/-- A wheel that leaves SLIDE, and one that stays in SLIDE above S_min. -/
theorem witness_SlipJudged_leaves :
    ((judgeSlip .w1 (slipping .retard { TcuWheel.reset with
        ground := 95, slip := .slide, factor := 200, slideStart := some 3000 })).tcu.wheels.get
          .w1).slip = .recover ∧
      ((judgeSlip .w1 (slipping .retard { TcuWheel.reset with
        ground := 50, slip := .slide, factor := 900 })).tcu.wheels.get .w1).slip = .slide ∧
      ¬(((judgeSlip .w1 (slipping .retard { TcuWheel.reset with
        ground := 50, slip := .slide, factor := 900 })).tcu.wheels.get .w1).factor =
          (slipping .retard TcuWheel.reset).cfg.sMin) := by decide +kernel

/-- WHEEL_SLIDE of wheel 1 stands as EXCLUDE. -/
def excluded : State :=
  settle (note .wheelSlide (.wheel .w1) true
    (withCfl { ready.cfl with active := { config with overrides := List.replicate 21 1 } } ready))

theorem witness_ObservationActs :
    (ready.pru.ok ∧ Kind.gridHot ≠ .configGuard ∧
        ready.pru.noEntry .gridHot (.bank .b1)) ∧
      ((withEntries [noteEntry] .note ready).pru.entries = [] ++ noteEntry :: [] ∧
        noteEntry.kind = .blowerFail ∧ noteEntry.subject = .global ∧ noteEntry.state = .active) ∧
      ((withEntries [noteEntry, { lostEntry with state := .latched, cond := false }] .safeStop
          ready).pru.entries = [noteEntry] ++ { lostEntry with state := .latched, cond := false } :: [] ∧
        ({ lostEntry with kind := .linkOvervolt, state := .pending, setProgress := 2 }).state ≠ .active ∧
        3 ≤ ({ lostEntry with kind := .linkOvervolt, state := .pending, setProgress := 2 }).setProgress + 1 ∧
        ({ lostEntry with kind := .linkOvervolt, clearProgress := 24 }).clearProgress + 1 = 25) ∧
      (ready.heeded ∧ excluded.heeded ∧ excluded.pru.wheelEx.get .w1 = true ∧
        ∃ t, exec .demandSample ready = .next t) :=
  ⟨⟨noEntries, by decide +kernel, noneListed⟩, by decide +kernel, by decide +kernel,
    ⟨by decide +kernel, by decide +kernel, by decide +kernel, by intro x; cases x <;> decide +kernel,
      by decide +kernel, by intro x; cases x <;> decide +kernel⟩,
    ⟨by decide +kernel, by decide +kernel, by decide +kernel, by intro x; cases x <;> decide +kernel,
      by decide +kernel, by intro x; cases x <;> decide +kernel⟩, by decide +kernel, _, rfl⟩

/-- LEVEL mode with the filter as given, and EDGE mode with it. -/
def levelFilter (f : StopFilter) : State := withFilter f ready
def edgeFilter (f : StopFilter) : State :=
  withFilter f (withCfl { ready.cfl with active := { config with stopMode := 0 } } ready)

theorem witness_ExternalStop :
    ((levelFilter StopFilter.reset).isRunning = true ∧ (levelFilter StopFilter.reset).pru.ok ∧
        (levelFilter StopFilter.reset).delivered = true ∧ ready.noGridLeft = false ∧
        ready.noTraction = false ∧ ready.pru.noEntry .noTractionUnits .global ∧
        ready.pru.noEntry .noGrid .global) ∧
      ((after (.discreteInputSample .low) (levelFilter { StopFilter.reset with lowRun := 2 })
        ).pru.filter.active = true) ∧
      ((levelFilter { StopFilter.reset with lowRun := 2 }).cfg.stopLevel = true ∧
        (edgeFilter { StopFilter.reset with lowRun := 2, lastLow := true }).cfg.stopLevel = false ∧
        (edgeFilter { StopFilter.reset with lowRun := 2, lastLow := true }).pru.filter.lastLow = true ∧
        2 ≤ (edgeFilter { StopFilter.reset with lowRun := 2, lastLow := true }).pru.filter.lowRun) ∧
      ((levelFilter { StopFilter.reset with active := true, highRun := 2 }).pru.filter.active = true ∧
        2 ≤ (levelFilter { StopFilter.reset with active := true, highRun := 2 }).pru.filter.highRun) ∧
      (ready.pru.filter.active = false ∧ ready.pru.filter.lowRun < 2) ∧
      ((after (.discreteInputSample .high) ready).pru.filter.active = ready.pru.filter.active ∧
        (inMode .starting .none).noTraction = false ∧ ready.noTraction = false) :=
  ⟨⟨by decide +kernel, noEntries, front3 (by decide +kernel) ⟨noneListed, noneListed⟩⟩,
    by decide +kernel⟩

end Sys2Proof.Tests
end

section
/-! The Attention Controller: what a class event, the end of service and the writes of the mask and
the threshold do (R18 to R22). -/

namespace Sys2Proof.Machine

/-! ### Commands of a running part -/

/-- A command of a running part is its operation. -/
theorem whenRunning_of_running {s : State} (h : s.isRunning = true) (f : State → State) :
    whenRunning f s = .next (f s) := by simp only [whenRunning, h, if_true]

/-! ### Classes and sets of classes -/

theorem mem_allClasses (c : Cls) : c ∈ allClasses := by cases c <;> decide

theorem allClasses_ascending : allClasses.Pairwise fun c d => c.num < d.num := by decide

theorem Cls.num_lt (c : Cls) : c.num < 12 := by cases c <;> decide

theorem allClasses_find_num (c : Cls) :
    (allClasses.find? fun d => d.num == c.num) = some c := by cases c <;> rfl

theorem Cls.num_inj {c d : Cls} (h : c.num = d.num) : c = d :=
  Option.some.inj (by rw [← allClasses_find_num c, h, allClasses_find_num d])

theorem isIn_remove (c d : Cls) (p : BitVec 12) :
    c.isIn (p &&& ~~~d.bit) = (c.isIn p && c != d) := by
  simp only [Cls.isIn, BitVec.getLsbD_and, BitVec.getLsbD_not, bit_getLsbD, c.num_lt, decide_true,
    Bool.true_and, bne]

/-- A set written from a word holds the classes whose bits are set in the word (R22). -/
theorem isIn_setWidth (c : Cls) (v : Word) : c.isIn (v.setWidth 12) = v.getLsbD c.num := by
  simp [Cls.isIn, c.num_lt]

/-! ### Class events (R18) -/

theorem raise_of_pending {c : Cls} {s : State} (h : c.isIn s.atc.pending = true) :
    raise c s = s := if_pos h

theorem raise_pending_self (c : Cls) (s : State) : c.isIn (raise c s).atc.pending = true := by
  simp [(raise_raised c s).pending c]

theorem raise_word_pending {c : Cls} {s : State} (h : c.isIn s.atc.pending = false) :
    (raise c s).word 0x0022 = (raise c s).atc.pending.setWidth 16 := by
  simp only [raise, h, Bool.false_eq_true, if_false]
  exact put_word (a := 0x0022) (i := 0) (by simp)

/-- Settles O21: a second event finds the class pending, and an event of a pending class changes
nothing. -/
theorem classEventPends : Obligations.ClassEventPends := fun c s =>
  ⟨raise_raised c s, raise_of_pending (raise_pending_self c s), raise_of_pending, raise_word_pending,
    raise_same c s, raise_rest c s⟩

/-! ### Presentability (R19) -/

/-- The four conditions of R19. -/
theorem presentable_iff (a : Atc) (c : Cls) : a.presentable c = true ↔
    c.isIn a.pending = true ∧ c.isIn a.mask = false ∧ a.priority c < a.threshold ∧
      ∀ d : Cls, d.isIn a.inService = true → a.priority c < a.priority d := by
  simp only [Atc.presentable, Bool.and_eq_true, Bool.not_eq_true', decide_eq_true_eq, List.all_eq_true,
    mem_allClasses, forall_const, Bool.or_eq_true, and_assoc, ← imp_iff_not_or, ← Bool.not_eq_true]

theorem attn_iff (s : State) : s.attn = true ↔ ∃ c : Cls, s.atc.presentable c = true := by
  simp [State.attn, List.any_eq_true, mem_allClasses]

/-! ### The most urgent class (R20) -/

/-- A class comes before another, or is it: its priority is numerically lower, or the same with no
higher class number (R20). -/
abbrev Atc.AsUrgent (a : Atc) (c d : Cls) : Prop :=
  a.priority c < a.priority d ∨ a.priority c = a.priority d ∧ c.num ≤ d.num

theorem Atc.AsUrgent.antisymm {a : Atc} {c d : Cls} (h : a.AsUrgent c d) (k : a.AsUrgent d c) :
    c = d := Cls.num_inj (by unfold Atc.AsUrgent at h k; omega)

section
variable {a : Atc} {test : Cls → Bool}

theorem mostUrgent_eq_none_iff {l : List Cls} :
    a.mostUrgent test l = none ↔ ∀ c ∈ l, test c = false := by
  induction l with
  | nil => simp [Atc.mostUrgent]
  | cons c l ih =>
    simp only [Atc.mostUrgent, List.forall_mem_cons, ← ih]
    cases a.mostUrgent test l with
    | none => simp
    | some d =>
      simp only [reduceCtorEq, and_false, iff_false]
      split <;> exact Option.some_ne_none _

/-- The class found passes the test, and it comes before every other class of an ascending list that
passes. -/
theorem mostUrgent_spec {l : List Cls} (hl : l.Pairwise fun c d => c.num < d.num) {d : Cls}
    (h : a.mostUrgent test l = some d) :
    test d = true ∧ ∀ c ∈ l, test c = true → a.AsUrgent d c := by
  induction l generalizing d with
  | nil => simp [Atc.mostUrgent] at h
  | cons c l ih =>
    obtain ⟨hc, hl⟩ := List.pairwise_cons.1 hl
    simp only [Atc.mostUrgent] at h
    simp only [List.forall_mem_cons]
    cases hr : a.mostUrgent test l with
    | none =>
      have hnone := mostUrgent_eq_none_iff.1 hr
      obtain ⟨ht, rfl⟩ : test c = true ∧ c = d := by simpa [hr] using h
      exact ⟨ht, fun _ => .inr ⟨rfl, le_rfl⟩, fun x hx k => absurd k (by simp [hnone x hx])⟩
    | some e =>
      obtain ⟨he, hbest⟩ := ih hl hr
      simp only [hr, Bool.and_eq_true, decide_eq_true_eq] at h
      split at h
      case isTrue k =>
        obtain rfl := Option.some.inj h
        refine ⟨k.1, fun _ => .inr ⟨rfl, le_rfl⟩, fun x hx hxt => ?_⟩
        have hcx := hc x hx
        have hex := hbest x hx hxt
        unfold Atc.AsUrgent at hex ⊢
        omega
      case isFalse k =>
        obtain rfl := Option.some.inj h
        exact ⟨he, fun hct => .inl (by by_contra hle; exact k ⟨hct, by omega⟩), hbest⟩

/-- The search over all classes finds the class that comes before every other that passes. -/
theorem mostUrgent_eq_some {c : Cls} (hc : test c = true)
    (hbest : ∀ d, test d = true → a.AsUrgent c d) : a.mostUrgent test allClasses = some c := by
  cases h : a.mostUrgent test allClasses with
  | none => exact absurd hc (by simp [mostUrgent_eq_none_iff.1 h c (mem_allClasses c)])
  | some d =>
    obtain ⟨hd, hfirst⟩ := mostUrgent_spec allClasses_ascending h
    rw [(hbest d hd).antisymm (hfirst c (mem_allClasses c) hc)]

end

/-! ### The end of service (R21) -/

theorem endService_of_not_inService {c : Cls} {s : State} (h : c.isIn s.atc.inService = false) :
    endService c s = s := if_neg (by simp [h])

/-- The end of service of a class in service removes it and rewrites the in-service mirror. -/
theorem endService_ended {c : Cls} {s : State} (h : c.isIn s.atc.inService = true) :
    ServiceEnded c s (endService c s) := by
  simp only [endService, h, if_true]
  refine ⟨fun d => isIn_remove d c _, put_word (a := 0x0024) (i := 0) (by simp), fun x hx => ?_, rfl⟩
  exact put_byte_outside (hx (0x0024, 2) (by simp))

theorem endSpecific_of_num {n : BitVec 4} {c : Cls} (h : c.num = n.toNat) (s : State) :
    endSpecific n s = endService c s := by
  simp only [endSpecific, ← h, allClasses_find_num]

/-- A specific end that names no class in service is ignored, as one that names no class is (R21,
R23). -/
theorem endSpecific_ignored {n : BitVec 4} {s : State}
    (h : ∀ c : Cls, c.num = n.toNat → c.isIn s.atc.inService = false) : endSpecific n s = s := by
  unfold endSpecific
  split
  case h_1 c hc => exact endService_of_not_inService (h c (by simpa using List.find?_some hc))
  case h_2 => rfl

theorem endNonSpecific_of_mostUrgent {c : Cls} {s : State} (h : c.isIn s.atc.inService = true)
    (hbest : ∀ d : Cls, d.isIn s.atc.inService = true → s.atc.AsUrgent c d) :
    endNonSpecific s = endService c s := by
  simp only [endNonSpecific, mostUrgent_eq_some (test := fun c => c.isIn s.atc.inService) h hbest]

theorem endNonSpecific_ignored {s : State} (h : ∀ c : Cls, c.isIn s.atc.inService = false) :
    endNonSpecific s = s := by
  simp only [endNonSpecific,
    mostUrgent_eq_none_iff (test := fun c => c.isIn s.atc.inService).2 fun c _ => h c]

/-- Settles O19: each form of ATTN_END is the end of service of the class that it names or that is
the most urgent, or nothing. -/
theorem serviceEnds : Obligations.ServiceEnds := fun s hs =>
  have hspec (n : BitVec 4) : exec (.attnEndSpecific n) s = .next (endSpecific n s) :=
    whenRunning_of_running hs _
  have hnon : exec .attnEndNonSpecific s = .next (endNonSpecific s) := whenRunning_of_running hs _
  ⟨fun n _ hn hc => ⟨_, (hspec n).trans (by rw [endSpecific_of_num hn]), endService_ended hc⟩,
    fun n h => (hspec n).trans (by rw [endSpecific_ignored h]),
    fun _ hc hbest => ⟨_, hnon.trans (by rw [endNonSpecific_of_mostUrgent hc hbest]),
      endService_ended hc⟩,
    fun h => hnon.trans (by rw [endNonSpecific_ignored h]),
    attn_iff s, presentable_iff s.atc⟩

/-! ### Mask and threshold (R22) -/

theorem writeMask_masked {c : Cls} {v : Word} (h : v.getLsbD c.num = true) (s : State) :
    (writeMask v s).atc.presentable c = false := by
  have hm : c.isIn (writeMask v s).atc.mask = true := (isIn_setWidth c v).trans h
  simp [Atc.presentable, hm]

/-- A read of ATTN_MASK returns the mask written, with bits 12 to 15 zero. -/
theorem writeMask_read {s : State} (h : s.isRunning = true) (v : Word) :
    (writeMask v s).readRegister 4 = v &&& 0x0FFF := by
  have hr : (writeMask v s).readRegister 4 = (v.setWidth 12).setWidth 16 := if_pos h
  have hlow : (v &&& 0x0FFF).toNat = v.toNat % 2 ^ 12 := Nat.and_two_pow_sub_one_eq_mod v.toNat 12
  rw [hr]
  apply BitVec.eq_of_toNat_eq
  simp only [hlow, BitVec.toNat_setWidth]
  omega

/-- The threshold stores 0 to 8, and 8 for any value above. -/
theorem writeThreshold_threshold (v : Word) (s : State) :
    (writeThreshold v s).atc.threshold = if v.toNat ≤ 8 then v.toNat else 8 := by
  show min v.toNat 8 = _
  split <;> omega

theorem writeThreshold_read {s : State} (h : s.isRunning = true) (v : Word) :
    ((writeThreshold v s).readRegister 5).toNat = (writeThreshold v s).atc.threshold := by
  have hr : (writeThreshold v s).readRegister 5 = natWord (min v.toNat 8) := if_pos h
  have ht : (writeThreshold v s).atc.threshold = min v.toNat 8 := rfl
  rw [hr, ht, natWord, BitVec.toNat_ofNat]
  omega

/-- Threshold 8 admits every priority of 0 to 7. -/
theorem writeThreshold_admits {s : State} {v : Word} (h : 8 ≤ v.toNat) {c : Cls}
    (hc : s.atc.priority c ≤ 7) : (writeThreshold v s).atc.presentable c = true ↔
      c.isIn s.atc.pending = true ∧ c.isIn s.atc.mask = false ∧
        ∀ d : Cls, d.isIn s.atc.inService = true → s.atc.priority c < s.atc.priority d := by
  have hlt : s.atc.priority c < min v.toNat 8 := by omega
  rw [presentable_iff]
  exact and_congr_right' (and_congr_right' (and_iff_right hlt))

/-- Threshold 0 admits no class. -/
theorem writeThreshold_zero (s : State) (c : Cls) :
    (writeThreshold 0 s).atc.presentable c = false := by
  rw [← Bool.not_eq_true, presentable_iff]
  rintro ⟨-, -, hlt, -⟩
  exact Nat.not_lt_zero _ hlt

/-- Settles O20: a write of either register, read back, and what each then admits. -/
theorem maskAndThreshold : Obligations.MaskAndThreshold := fun s v hs =>
  ⟨⟨writeMask v s, whenRunning_of_running hs _, fun c => isIn_setWidth c v, writeMask_read hs v,
      fun _ hc => writeMask_masked hc s, rfl⟩,
    ⟨writeThreshold v s, whenRunning_of_running hs _, writeThreshold_threshold v s,
      writeThreshold_read hs v, fun h _ hc => writeThreshold_admits h hc,
      by rintro rfl; exact writeThreshold_zero s, rfl⟩⟩

end Sys2Proof.Machine
end

section
/-! The chain of order cells: what a change of the chain writes, the restart (R16) and the scan that
waits at its cursor (R11). -/

namespace Sys2Proof.Machine

section
variable {s t : State} {o : Ore}

/-! ### A change of the chain (R5) -/

@[simp] theorem setChain_ore (o : Ore) (s : State) : (setChain o s).ore = o := by
  unfold setChain
  split <;> rfl

theorem setChain_same (o : Ore) (s : State) : SameOutside [(0x001C, 6)] s (setChain o s) := by
  intro x hx
  unfold setChain
  split
  · rfl
  · exact put_byte_outside (hx (0x001C, 6) (by simp))

theorem setChain_rest (o : Ore) (s : State) : { setChain o s with ore := s.ore, xm := s.xm } = s := by
  unfold setChain
  split <;> rfl

/-- A header that showed the state goes on showing the cursor, the chain state and the behind flag. -/
theorem setChain_shown (h : s.headerShown) (o : Ore) :
    (setChain o s).word 0x001C = natWord o.cursor.toNat ∧
      (setChain o s).word 0x001E = o.chain.code ∧ (setChain o s).word 0x0020 = boolWord o.behind := by
  unfold setChain
  split
  case isTrue hk =>
    obtain ⟨hcursor, hchain, hbehind⟩ := hk
    rw [hcursor, hchain, hbehind]
    exact ⟨h.cursor, h.chain, h.behind⟩
  case isFalse =>
    have hnew := shown_chain h o
    exact ⟨hnew.cursor, hnew.chain, hnew.behind⟩

/-- A new chain state is written to the header. -/
theorem setChain_word_chain (h : o.chain ≠ s.ore.chain) :
    (setChain o s).word 0x001E = o.chain.code := by
  unfold setChain
  rw [if_neg fun ⟨_, hchain, _⟩ => h hchain]
  exact put_word (a := 0x001C) (i := 1) (by simp)

/-- The order cells stand outside the header's chain words. -/
theorem SameOutside.cellPosted (h : SameOutside [(0x001C, 6)] s t) (cell : BitVec 6) :
    t.cellPosted cell = s.cellPosted cell := by
  have hb : ∀ x, cellBase cell ≤ x → t.xm.byte x = s.xm.byte x := fun x hx => h x fun r hr => by
    simp only [List.mem_singleton] at hr
    subst hr
    simp only [cellBase] at hx ⊢
    omega
  simp only [State.cellPosted, State.word, Memory.word, hb _ le_rfl, hb _ (Nat.le_succ _)]

/-! ### The scan that waits (R11) -/

theorem scanSteps_of_not_posted (n takes : Nat) (hbehind : s.ore.behind = false)
    (hcell : s.cellPosted s.ore.cursor = false) : scanSteps (n + 1) takes s = waitChain s := by
  simp only [scanSteps, hbehind, hcell, Bool.false_eq_true, if_false]

/-- A scan at a cursor cell that is not POSTED waits there. -/
theorem scan_of_not_posted (hchain : s.ore.chain ≠ .halted) (hbehind : s.ore.behind = false)
    (hcell : s.cellPosted s.ore.cursor = false) : scan s = waitChain s :=
  (if_neg hchain).trans (scanSteps_of_not_posted 8 4 hbehind hcell)

/-! ### The restart (R16) -/

/-- The chain after a restart at an index. -/
def Ore.restarted (o : Ore) (index : BitVec 7) : Ore :=
  { o with cursor := index.setWidth 6, behind := false, chain := .running }

theorem restartChain_of_lt {index : BitVec 7} (h : index.toNat < 64) (s : State) :
    restartChain index s = setChain (s.ore.restarted index) s := if_pos h

theorem restartChain_ignored {index : BitVec 7} (h : 64 ≤ index.toNat) (s : State) :
    restartChain index s = s := if_neg (by omega)

/-- An index of 0 to 63 is the number of the cell that it names. -/
theorem natWord_index {index : BitVec 7} (h : index.toNat < 64) :
    natWord (index.setWidth 6).toNat = index.setWidth 16 := by
  apply BitVec.eq_of_toNat_eq
  simp only [natWord, BitVec.toNat_ofNat, BitVec.toNat_setWidth]
  omega

/-- A scan after a restart, at a cursor cell that is not POSTED, sets WAITING there (R16). -/
theorem scan_of_restarted {index : BitVec 7} (hs : s.isRunning = true) (hore : s.ore = o.restarted index)
    (hcell : s.cellPosted (index.setWidth 6) = false) :
    ∃ u, exec .chainScan s = .next u ∧ u.ore = { s.ore with chain := .waiting } ∧
      u.word 0x001E = 2 ∧ SameOutside [(0x001C, 6)] s u ∧ { u with ore := s.ore, xm := s.xm } = s := by
  have hscan : scan s = waitChain s :=
    scan_of_not_posted (by simp [hore, Ore.restarted]) (by simp [hore, Ore.restarted])
      (by simpa [hore, Ore.restarted] using hcell)
  refine ⟨waitChain s, (whenRunning_of_running hs scan).trans (by rw [hscan]), setChain_ore _ s, ?_,
    setChain_same _ s, setChain_rest _ s⟩
  exact setChain_word_chain (by simp [hore, Ore.restarted])

end

/-- Settles O17: the restart is one change of the chain, and the scan that follows is another. -/
theorem chainRestarts : Obligations.ChainRestarts := by
  intro s index hs
  have hexec : exec (.chainRestart index) s = .next (restartChain index s) :=
    whenRunning_of_running hs _
  refine ⟨fun h => ?_, fun h => hexec.trans (by rw [restartChain_ignored h])⟩
  rw [restartChain_of_lt h] at hexec
  have hsame := setChain_same (s.ore.restarted index) s
  refine ⟨_, hexec, setChain_ore _ s, fun hshown => ?_, hsame, setChain_rest _ s, fun hcell => ?_⟩
  · obtain ⟨hcursor, hchain, hbehind⟩ := setChain_shown hshown (s.ore.restarted index)
    exact ⟨hcursor.trans (natWord_index h), hchain, hbehind⟩
  · have hrun : (setChain (s.ore.restarted index) s).isRunning = true := by
      simpa [State.isRunning] using hs
    exact scan_of_restarted hrun (setChain_ore _ s) ((hsame.cellPosted _).trans hcell)

end Sys2Proof.Machine
end

section
/-! What every command keeps: `exec` answers a next state, leaves the queue, and keeps the invariants
that `Keeps` names. -/

namespace Sys2Proof

/-- A command that may change what only start-up writes afresh: the four resets and the supply. -/
def Instr.resets : Instr → Bool
  | .powerOn | .resetPinAssert | .resetPinRelease | .softRestart | .guardCheck | .supplyFall => true
  | _ => false

end Sys2Proof

namespace Sys2Proof.Machine

section
variable {a s t : State} {f : State → State} {full : Bool}

/-! ### The outcome of a command -/

/-- A command answers a next state, with a property. -/
def Answers (P : State → Prop) (o : Host.Outcome State Fault Refusal) : Prop := ∃ t, o = .next t ∧ P t

/-- A command of a running part acts on it, or changes nothing (R30). -/
theorem whenRunning_answers {P : State → Prop} (hf : P (f s)) (hid : P s) :
    Answers P (whenRunning f s) := by
  refine ⟨_, rfl, ?_⟩
  split
  · exact hf
  · exact hid

theorem Answers.of_next {P : State → Prop} {o : Host.Outcome State Fault Refusal} (h : Answers P o)
    (ht : o = .next t) : P t := by
  obtain ⟨u, hu, hp⟩ := h
  obtain rfl := Host.Outcome.next.inj (hu.symm.trans ht)
  exact hp

theorem whenRunning_keeps (hf : Keeps full s (f s)) : Answers (Keeps full s) (whenRunning f s) :=
  whenRunning_answers hf (Keeps.refl _ s)

theorem whenObserving_keeps (hf : Keeps full s (f s)) : Answers (Keeps full s) (whenObserving f s) :=
  whenRunning_keeps (f := fun s => settle (f s)) (settle_keeps hf)

/-- A command that acts where its condition holds. -/
theorem ite_keeps {b : Prop} [Decidable b] {u v : State} (hu : Keeps full a u) (hv : Keeps full a v) :
    Keeps full a (if b then u else v) := by split <;> assumption

/-! ### The drive clock (R5) -/

theorem shown_clock (h : s.headerShown) (c : Long) :
    (put 0x000C (longWords c) (s.setClock c)).headerShown := by
  have hd := put_directories (s := s) (x := 0x000C) (ws := longWords c) (by simp [longWords])
    (t := s.setClock c) rfl rfl h
  have ho : ∀ y, 0x0010 ≤ y → (put 0x000C (longWords c) (s.setClock c)).word y = s.word y :=
    fun y hy => put_word_outside (by simp [longWords]; omega)
  exact ⟨put_word (a := 0x000C) (ws := longWords c) (i := 0) (by simp [longWords]),
    put_word (a := 0x000C) (ws := longWords c) (i := 1) (by simp [longWords]),
    (ho _ (by omega)).trans h.mode, (ho _ (by omega)).trans h.cursor, (ho _ (by omega)).trans h.chain,
    (ho _ (by omega)).trans h.behind, (ho _ (by omega)).trans h.attention,
    (ho _ (by omega)).trans h.service, hd.1, hd.2⟩

theorem tick_keeps (h : Keeps full a s) (c : Long) :
    Keeps full a (put 0x000C (longWords c) (s.setClock c)) :=
  mirror_keeps h { } rfl (by simp [longWords]) (by simp [longWords]) fun k => shown_clock k c

/-! ### What each command keeps -/

/-- Every command but a reset and a host write keeps the invariants, the host's bytes, the reset cause
record and the truth of the header. -/
theorem exec_keeps {c : Instr} (hw : c.writesHost = false) (hr : c.resets = false)
    (s : State) : Answers (Keeps true s) (exec c s) := by
  have k := Keeps.refl true s
  cases c with
  | powerOn => cases hw
  | hostWordWrite address value => cases hw
  | readyMarkWrite value => cases hw
  | resetPinAssert => cases hr
  | resetPinRelease => cases hr
  | guardCheck => cases hr
  | softRestart => cases hr
  | supplyFall => cases hr
  | driveClockTick =>
    unfold exec execDriveClockTick
    exact whenRunning_keeps (tick_keeps k _)
  | guardedCopyUpset copy value =>
    unfold exec execGuardedCopyUpset
    exact whenRunning_keeps (upsetCopy_keeps k _ _)
  | chainRestart index =>
    unfold exec execChainRestart
    exact whenRunning_keeps (restartChain_keeps k _)
  | attnPoll =>
    exact ⟨_, rfl, ite_keeps (poll_keeps k) (setHostData_keeps k _)⟩
  | attnEndSpecific cls =>
    unfold exec execAttnEndSpecific
    exact whenRunning_keeps (endSpecific_keeps k _)
  | attnEndNonSpecific =>
    unfold exec execAttnEndNonSpecific
    exact whenRunning_keeps (endNonSpecific_keeps k)
  | attnMaskWrite value =>
    unfold exec execAttnMaskWrite
    exact whenRunning_keeps (writeMask_keeps k _)
  | attnThresholdWrite value =>
    unfold exec execAttnThresholdWrite
    exact whenRunning_keeps (writeThreshold_keeps k _)
  | registerWriteIgnored register value =>
    exact ⟨_, rfl, k⟩
  | chainScan =>
    unfold exec execChainScan
    exact whenRunning_keeps (scan_keeps k)
  | setLimits cell forward reverse cap =>
    unfold exec execSetLimits
    exact whenRunning_keeps (decideSetLimits_keeps k _ _ _ _)
  | loadEnvelope cell =>
    unfold exec execLoadEnvelope
    exact whenRunning_keeps (decideLoadEnvelope_keeps k _)
  | clearFaults cell forget =>
    unfold exec execClearFaults
    exact whenRunning_keeps (decideClearFaults_keeps k _ _)
  | enterStandby cell keepLink keepBlower =>
    unfold exec execEnterStandby
    exact whenRunning_keeps (decideEnterStandby_keeps k _ _ _)
  | leaveStandby cell =>
    unfold exec execLeaveStandby
    exact whenRunning_keeps (decideLeaveStandby_keeps k _)
  | applyConfig cell =>
    unfold exec execApplyConfig
    exact whenRunning_keeps (decideApplyConfig_keeps k _)
  | gridTest cell banks duty count =>
    unfold exec execGridTest
    exact whenRunning_keeps (decideGridTest_keeps k _ _ _ _)
  | steerCalibrate cell =>
    unfold exec execSteerCalibrate
    exact whenRunning_keeps (decideSteerCalibrate_keeps k _)
  | rollCall cell =>
    unfold exec execRollCall
    exact whenRunning_keeps (decideRollCall_keeps k _)
  | abort cell index =>
    unfold exec execAbort
    exact whenRunning_keeps (decideAbort_keeps k _ _)
  | orderCompletion resource cell result detail =>
    unfold exec execOrderCompletion
    exact whenRunning_keeps (complete_keeps k _ _ _ _)
  | demandSample =>
    unfold exec execDemandSample
    exact whenObserving_keeps (demandSteps_keeps k)
  | stopTimeExpiry =>
    unfold exec execStopTimeExpiry
    exact whenObserving_keeps (ite_keeps (finishStop_keeps k) k)
  | settleTimeExpiry =>
    unfold exec execSettleTimeExpiry
    exact whenObserving_keeps (ite_keeps (endSettle_keeps k) k)
  | roundStart =>
    unfold exec execRoundStart
    exact whenRunning_keeps (finishLink_keeps (roundStartSteps_keeps k))
  | driveTransmit wheel =>
    unfold exec execDriveTransmit
    exact whenRunning_keeps (ite_keeps (sendDrive_keeps k _) k)
  | steerTransmit =>
    unfold exec execSteerTransmit
    exact whenRunning_keeps (ite_keeps (sendSteer_keeps k) k)
  | rollTransmit unit =>
    unfold exec execRollTransmit
    refine whenRunning_keeps ?_
    split
    · exact sendRoll_keeps k _ _
    · exact k
  | quietTransmit =>
    unfold exec execQuietTransmit
    exact whenRunning_keeps (ite_keeps (sendQuiet_keeps k) k)
  | rollAnswerArrival bytes =>
    unfold exec execRollAnswerArrival
    exact whenRunning_keeps (replyArrival_keeps k _ _)
  | reportArrival bytes order =>
    unfold exec execReportArrival
    exact whenRunning_keeps (replyArrival_keeps k _ _)
  | steerReportArrival bytes order =>
    unfold exec execSteerReportArrival
    exact whenRunning_keeps (replyArrival_keeps k _ _)
  | replyWindowExpiry =>
    unfold exec execReplyWindowExpiry
    exact whenRunning_keeps (windowExpiry_keeps k)
  | allocationEvent =>
    unfold exec execAllocationEvent
    exact whenObserving_keeps (allocationSteps_keeps k)
  | gridDemandArrival =>
    unfold exec execGridDemandArrival
    exact whenRunning_keeps (ite_keeps (arrival_keeps k) k)
  | linkVoltageSample volts =>
    unfold exec execLinkVoltageSample
    exact whenRunning_keeps (takeVoltage_keeps k _)
  | filteredUpdate =>
    unfold exec execFilteredUpdate
    exact whenObserving_keeps (filteredSteps_keeps k)
  | linkUndervoltSet =>
    unfold exec execLinkUndervoltSet
    exact whenObserving_keeps (ite_keeps (setUndervolt_keeps k) k)
  | linkUndervoltClear =>
    unfold exec execLinkUndervoltClear
    exact whenObserving_keeps (ite_keeps (clearUndervolt_keeps k) k)
  | holdUpdate =>
    unfold exec execHoldUpdate
    exact whenObserving_keeps (holdSteps_keeps k)
  | envelopeExceededSet =>
    unfold exec execEnvelopeExceededSet
    exact whenObserving_keeps (ite_keeps (setExceeded_keeps k) k)
  | envelopeExceededClear =>
    unfold exec execEnvelopeExceededClear
    exact whenObserving_keeps (ite_keeps (clearExceeded_keeps k) k)
  | shortfallAdd =>
    unfold exec execShortfallAdd
    exact whenRunning_keeps (ite_keeps (addShortfall_keeps k) k)
  | shortfallRemove =>
    unfold exec execShortfallRemove
    exact whenRunning_keeps (ite_keeps (removeShortfall_keeps k) k)
  | rotationReview =>
    unfold exec execRotationReview
    exact whenRunning_keeps (reviewSteps_keeps k)
  | channelPeriodStart channel =>
    unfold exec execChannelPeriodStart
    refine whenRunning_keeps ?_
    split
    · exact bankPeriod_keeps k _
    · exact blowerPeriod_keeps k
  | onExpiry channel =>
    unfold exec execOnExpiry
    refine whenRunning_keeps ?_
    split
    · exact bankExpiry_keeps k _
    · exact blowerExpiry_keeps k
  | dischargeExpiry =>
    unfold exec execDischargeExpiry
    exact whenRunning_keeps (ite_keeps (endDischarge_keeps k) k)
  | pulseExpiry =>
    unfold exec execPulseExpiry
    exact whenRunning_keeps (ite_keeps (setRgc_keeps_same k rfl rfl rfl rfl) k)
  | calibrationExpiry =>
    unfold exec execCalibrationExpiry
    exact whenRunning_keeps
      (ite_keeps (putStcSection_keeps (endCalibrationIf_keeps k _ _ _)) k)
  | thermalSample blowerRun =>
    unfold exec execThermalSample
    exact whenObserving_keeps (thermalSteps_keeps k _)
  | gridHotClear bank =>
    unfold exec execGridHotClear
    exact whenObserving_keeps (ite_keeps (clearGridHot_keeps k _) k)
  | blowerFailSet =>
    unfold exec execBlowerFailSet
    exact whenObserving_keeps (ite_keeps (setBlowerFail_keeps k) k)
  | blowerFailClear =>
    unfold exec execBlowerFailClear
    exact whenObserving_keeps (ite_keeps (clearBlowerFail_keeps k) k)
  | windingHotSet wheel =>
    unfold exec execWindingHotSet
    exact whenObserving_keeps (ite_keeps (setWindingHot_keeps k _) k)
  | windingHotClear wheel =>
    unfold exec execWindingHotClear
    exact whenObserving_keeps (ite_keeps (clearWindingHot_keeps k _) k)
  | discreteInputSample externalStop =>
    unfold exec execDiscreteInputSample
    exact whenObserving_keeps (observeEscalation_keeps (sampleStop_keeps k _))
  | externalStopActive =>
    unfold exec execExternalStopActive
    exact whenObserving_keeps (ite_keeps (sampleStop_keeps k _) k)
  | externalStopInactive =>
    unfold exec execExternalStopInactive
    exact whenObserving_keeps (ite_keeps (sampleStop_keeps k _) k)

/-! ### Resets -/

/-- The blocks' invariants that `KeepsBlocks` speaks of. -/
structure State.blocksOk (s : State) : Prop where
  atc : s.atc.ok
  pru : s.pru.ok
  lmu : s.lmu.ok
  demand : s.dmc.demand.ok
  rgc : s.rgc.ok
  stc : s.stc.ok
  placed : s.wlc.placed

theorem State.blocksOk.keeps (h : s.blocksOk) (a : State) : KeepsBlocks a s :=
  ⟨fun _ => h.atc, fun _ => h.pru, fun _ => h.lmu, fun _ => h.demand, fun _ => h.rgc, fun _ => h.stc,
    fun _ => h.placed⟩

/-- The reset values of the wheel link place no block. -/
theorem Wlc.reset_noBlocks : Wlc.reset.noBlocks :=
  ⟨fun u => by cases u with | wheel w => cases w <;> rfl | sau => rfl, fun b => by cases b <;> rfl⟩

theorem Wlc.noBlocks.placed {l : Wlc} (h : l.noBlocks) (hc : Config.firstBlock ≤ l.cursor) : l.placed :=
  ⟨hc, fun u => by rw [h.1 u]; exact nofun, fun b => by rw [h.2 b]; exact nofun⟩

/-- The blocks at their POWER_ON values meet their invariants. -/
theorem blank_blocksOk (resetLow : Bool) (draws : Nat) (pending : List Instr) :
    (State.blank resetLow draws pending).blocksOk where
  atc := by simp [Atc.ok, State.blank, Atc.reset]
  pru := by simp [Pru.ok, State.blank, Pru.reset]
  lmu := ⟨by simp [State.blank, Lmu.powerOn, Lmu.reset], by simp [State.blank, Lmu.powerOn, Lmu.reset]⟩
  demand := by simp [State.blank, Dmc.reset, Demand.reset, Demand.ok]
  rgc := by simp [State.blank, Rgc.reset, Rgc.ok]
  stc := by simp [State.blank, Stc.reset, Stc.ok]
  placed := Wlc.reset_noBlocks.placed (Nat.le_refl _)

/-- A part that loses its supply keeps its memory (assumption log 13). -/
theorem supplyFall_keeps (s : State) :
    Keeps false s (((powerUp s).setXm s.xm).setSupply false) :=
  have k := (blank_blocksOk s.resetLow s.draws s.pending).keeps s
  ⟨⟨k.atc, k.pru, k.lmu, k.demand, k.rgc, k.stc, k.placed⟩, id, fun _ _ _ => rfl, nofun, nofun⟩

/-- Every command but a host write and POWER_ON keeps the invariants and the host's bytes. -/
theorem exec_keeps_host {c : Instr} (hw : c.writesHost = false) (s : State) :
    Answers (Keeps false s) (exec c s) := by
  have k := Keeps.refl false s
  by_cases hr : c.resets = false
  · obtain ⟨t, ht, h⟩ := exec_keeps hw hr s
    exact ⟨t, ht, h.weaken⟩
  · cases c with
    | powerOn => cases hw
    | resetPinAssert =>
      exact ⟨_, rfl, ite_keeps (setResetLow_keeps (takeReset_keeps k _) _) (setResetLow_keeps k _)⟩
    | resetPinRelease =>
      exact ⟨_, rfl, ite_keeps (startUp_keeps (setResetLow_keeps k _)) (setResetLow_keeps k _)⟩
    | softRestart =>
      unfold exec execSoftRestart
      exact whenRunning_keeps (resetNow_keeps k _)
    | guardCheck =>
      unfold exec execGuardCheck
      exact whenRunning_keeps (ite_keeps (resetNow_keeps k _) k)
    | supplyFall => exact ⟨_, rfl, supplyFall_keeps s⟩
    | _ => exact absurd rfl hr

/-! ### Host writes -/

/-- A host write anywhere keeps the blocks' invariants and the form of the memory. -/
theorem put_keepsForm {a : State} (h : KeepsBlocks a s ∧ (a.xm.wf → s.xm.wf)) (x : Nat) (ws : List Word) :
    KeepsBlocks a (put x ws s) ∧ (a.xm.wf → (put x ws s).xm.wf) :=
  ⟨h.1.trans { }, fun w => store_wf (h.2 w)⟩

theorem readyMark_keepsForm {a : State} (h : KeepsBlocks a s ∧ (a.xm.wf → s.xm.wf)) (value : Word) :
    KeepsBlocks a (settle (readyMark value s)) ∧ (a.xm.wf → (settle (readyMark value s)).xm.wf) :=
  have k := settle_keeps (readyMark_keeps (Keeps.refl false s) value)
  ⟨h.1.trans k.toKeepsBlocks, k.wf ∘ h.2⟩

/-- Every command keeps the blocks' invariants and the canonical form of the memory. -/
theorem exec_keepsForm (c : Instr) (s : State) :
    Answers (fun t => KeepsBlocks s t ∧ (s.xm.wf → t.xm.wf)) (exec c s) := by
  have k : KeepsBlocks s s ∧ (s.xm.wf → s.xm.wf) := ⟨KeepsBlocks.refl s, id⟩
  by_cases hw : c.writesHost = false
  · obtain ⟨t, ht, h⟩ := exec_keeps_host hw s
    exact ⟨t, ht, h.toKeepsBlocks, h.wf⟩
  · cases c with
    | powerOn =>
      have hb := (blank_blocksOk s.resetLow s.draws s.pending).keeps s
      refine ⟨_, rfl, ?_⟩
      split
      · exact ⟨hb, fun _ => blank_memory_wf⟩
      · have hu := startUp_keeps (Keeps.refl false (powerUp s))
        exact ⟨hb.trans hu.toKeepsBlocks, fun _ => hu.wf blank_memory_wf⟩
    | hostWordWrite address value =>
      unfold exec execHostWordWrite
      refine whenRunning_answers ?_ k
      unfold hostWrite
      split
      · exact readyMark_keepsForm (put_keepsForm k _ _) _
      · exact put_keepsForm k _ _
    | readyMarkWrite value =>
      unfold exec execReadyMarkWrite
      exact whenRunning_answers (readyMark_keepsForm (put_keepsForm k _ _) _) k
    | _ => exact absurd rfl hw

/-! ### The queue -/

theorem ite_pending {b : Prop} [Decidable b] {u v : State} {p : List Instr} (hu : u.pending = p)
    (hv : v.pending = p) : (if b then u else v).pending = p := by split <;> assumption

/-- Every command leaves the commands that wait. -/
theorem exec_pending (c : Instr) (s : State) :
    Answers (fun t => t.pending = s.pending) (exec c s) := by
  cases c with
  | powerOn => exact ⟨_, rfl, ite_pending rfl (by simp [powerUp, State.blank])⟩
  | resetPinAssert => exact ⟨_, rfl, ite_pending (by simp) (by simp)⟩
  | resetPinRelease => exact ⟨_, rfl, ite_pending (by simp) (by simp)⟩
  | attnPoll => exact ⟨_, rfl, ite_pending (by simp) (by simp)⟩
  | supplyFall => exact ⟨_, rfl, rfl⟩
  | registerWriteIgnored register value => exact ⟨_, rfl, rfl⟩
  | rollTransmit unit => refine ⟨_, rfl, ite_pending ?_ rfl⟩; dsimp only; split <;> simp
  | channelPeriodStart channel => refine ⟨_, rfl, ite_pending ?_ rfl⟩; dsimp only; split <;> simp
  | onExpiry channel => refine ⟨_, rfl, ite_pending ?_ rfl⟩; dsimp only; split <;> simp
  | _ => exact ⟨_, rfl, ite_pending (by simp [apply_ite State.pending]) rfl⟩

end

/-! ### The statements -/

/-- Settles O1: both clauses are the two rows of `step`. -/
theorem stepTakesFront : Obligations.StepTakesFront :=
  ⟨fun c rest s h => by simp only [step, h], fun s h => by simp only [step, h]⟩

/-- Settles O2: no arm of `exec` faults or refuses, and no operation writes the queue. -/
theorem everyCommandAnswers : Obligations.EveryCommandAnswers := exec_pending

/-- A property that every command keeps, and that does not look at the queue, every step keeps. -/
theorem step_keeps {P : State → Prop} (hq : ∀ s v, P s → P (s.setPending v))
    (hc : ∀ c s, P s → Answers P (exec c s)) {s t : State} (hs : P s) (h : step s = .next t) : P t := by
  unfold step at h
  split at h
  · exact Host.Outcome.next.inj h ▸ hs
  · exact (hc _ _ (hq _ _ hs)).of_next h

/-- Settles O3: each store of a command keeps the canonical form. -/
theorem memoryFormKept : Obligations.MemoryFormKept := fun _ _ =>
  step_keeps (P := fun s => s.xm.wf) (fun _ _ h => h) fun c s h => by
    obtain ⟨t, ht, -, hw⟩ := exec_keepsForm c s
    exact ⟨t, ht, hw h⟩

/-- Settles O5: each write of a command but the host's lies outside the host's bytes. -/
theorem hostBytesKept : Obligations.HostBytesKept := fun _ s _ hp hw h =>
  ((exec_keeps_host hw s).of_next h).host hp

end Sys2Proof.Machine
end

section
/-! Resets and a part at rest: the state after reset (R2, R30), what RESET_PIN keeps, and what a part in
reset or without supply ignores. -/

namespace Sys2Proof.Machine

/-! ### The state after reset -/

set_option maxRecDepth 100000 in
/-- Start-up after POWER_ON ends in the state after reset, whatever waits in the queue. -/
theorem startUp_blank (draws : Nat) (pending : List Instr) :
    startUp (State.blank false draws pending) =
      { State.reset with draws := draws, pending := pending } := by cbv

/-- Settles O8: the start-up of the blank part is run once, for every queue and counter. -/
theorem powerOnResets : Obligations.PowerOnResets := by
  intro s
  refine ⟨fun h => ?_, fun h => ?_⟩ <;> unfold exec execPowerOn powerUp <;> rw [h]
  · exact congrArg Host.Outcome.next (startUp_blank _ _)
  · rfl

/-- A link that places no block keeps the blocks apart. -/
theorem Wlc.noBlocks.apart {l : Wlc} (h : l.noBlocks) : l.apart where
  units u v _ := by rw [h.1 u]; exact nofun
  mixed u b := by rw [h.1 u]; exact nofun
  banks b c _ := by rw [h.2 b]; exact nofun
  unitsBehind u := by rw [h.1 u]; exact nofun
  banksBehind b := by rw [h.2 b]; exact nofun

/-- The state after reset meets the ranges. -/
theorem reset_ok : State.reset.ok :=
  have k := blank_blocksOk false 0 []
  { atc := k.atc, pru := k.pru, lmu := k.lmu, demand := k.demand, rgc := k.rgc, stc := k.stc
    placed := k.placed, apart := Wlc.reset_noBlocks.apart, lock := by decide, steer := by decide }

theorem reset_headerShown : State.reset.headerShown where
  clockLow := by decide +kernel
  clockHigh := by decide +kernel
  mode := by decide +kernel
  cursor := by decide +kernel
  chain := by decide +kernel
  behind := by decide +kernel
  attention := by decide +kernel
  service := by decide +kernel
  units u := by cases u with | wheel w => cases w <;> decide +kernel | sau => decide +kernel
  banks b := by cases b <;> decide +kernel

/-- Every word from the fault table image to the unassigned offsets reads 0 after POWER_ON. -/
theorem reset_image_word : ∀ i < 624, State.reset.word (0x1800 + 2 * i) = 0 := by decide +kernel

/-- An image of zeros is shown where every word reads 0. -/
theorem showsAt_zeros {s : State} {a n : Nat} (h : ∀ i < n, s.word (a + 2 * i) = 0) :
    s.showsAt a (List.replicate n 0) := by
  intro i hi
  rw [List.length_replicate] at hi
  rw [h i hi]
  simp [hi]

theorem reset_imagesShown : State.reset.imagesShown where
  faults := by
    rw [show State.reset.pru.image State.reset.imageStamp = List.replicate 384 0 by decide +kernel]
    exact showsAt_zeros fun i hi => reset_image_word i (by omega)
  derates := by
    rw [show derateImage State.reset.lmu.derates = List.replicate 192 0 by decide +kernel]
    exact showsAt_zeros fun i hi => by
      rw [← reset_image_word (384 + i) (by omega)]
      congr 1
      omega
  envelope i hi := by
    have h := reset_image_word (0x240 + i) (by omega)
    rw [show 0x1800 + 2 * (0x240 + i) = 0x1C80 + 2 * i by omega] at h
    rw [h]
    rfl
  traction := by unfold State.showsAt; decide +kernel

/-- Settles O7: the blocks' invariants hold of their reset values, and the memory after POWER_ON shows
them. -/
theorem invariantsAtReset : Obligations.InvariantsAtReset :=
  ⟨afterPowerOn_wf, reset_ok, reset_ok.placed, fun _ => reset_headerShown, fun _ => reset_imagesShown,
    nofun⟩

/-! ### RESET_PIN held low (R30) -/

theorem readMemory_stopped {s : State} (h : s.isRunning = false) (a : BitVec 13) : s.readMemory a = 0 := by
  simp [State.readMemory, h]

theorem readRegister_stopped {s : State} (h : s.isRunning = false) (r : BitVec 3) :
    s.readRegister r = 0 := by simp [State.readRegister, h]

/-- Settles O9: the state of a part whose pin falls is `takeReset` with the level recorded. -/
theorem resetPinHeld : Obligations.ResetPinHeld := by
  intro s hs
  have hexec : exec .resetPinAssert s = .next ((takeReset .resetPin s).setResetLow true) := by
    unfold exec execResetPinAssert; rw [if_pos hs]
  have hstop : ((takeReset .resetPin s).setResetLow true).isRunning = false := by
    simp [State.isRunning]
  refine ⟨_, hexec, rfl, rfl, rfl, rfl, rfl, rfl, rfl, rfl, rfl, rfl, rfl, rfl, rfl, rfl, rfl, rfl, rfl,
    fun w => ?_, rfl, rfl, readMemory_stopped hstop, readRegister_stopped hstop⟩
  cases w <;> rfl

/-! ### The guarded words (R28) -/

/-- Settles O12: the check resets only on an illegal copy, and an upset is one record update. -/
theorem guardCopies : Obligations.GuardCopies := by
  intro s hs
  refine ⟨fun h => ?_, fun v => whenRunning_of_running hs _, fun v => whenRunning_of_running hs _,
    fun v => whenRunning_of_running hs _⟩
  unfold exec execGuardCheck
  rw [whenRunning_of_running hs, if_neg]
  rcases h with h | h <;> simp [h]

/-! ### A part at rest (R30) -/

/-- A part in reset or without supply ignores a command that does not act on it. -/
theorem exec_of_stopped {c : Instr} {s : State} (hs : s.isRunning = false) (hc : c.actsStopped = false) :
    exec c s = .next s := by
  cases c with
  | powerOn => cases hc
  | resetPinAssert => cases hc
  | resetPinRelease => cases hc
  | attnPoll => cases hc
  | supplyFall => cases hc
  | registerWriteIgnored register value => rfl
  | _ =>
    unfold exec
    exact congrArg Host.Outcome.next (if_neg (c := s.isRunning = true) (by simp [hs]))

/-- Settles O13: a part at rest ignores its commands, and the fall of the supply is a blank part that
keeps its memory. -/
theorem stoppedPart : Obligations.StoppedPart := by
  refine ⟨fun c s hs => ⟨exec_of_stopped hs, ?_, ?_, readMemory_stopped hs, readRegister_stopped hs⟩,
    fun s => ⟨_, rfl, rfl, by simp [State.isRunning], rfl, ?_, rfl, fun b => ?_, rfl, rfl⟩⟩
  · unfold exec execAttnPoll; rw [hs]; rfl
  · unfold exec execResetPinAssert; rw [hs]; rfl
  · show allClasses.any Atc.reset.presentable = false
    decide
  · cases b <;> rfl

end Sys2Proof.Machine
end

section
/-! Start-up (R4, R10, R29 to R31, R174): the visit of the order cells, and what a start-up after
RESET_PIN, SOFT_RESTART or GUARD leaves. -/

namespace Sys2Proof.Machine

section
variable {a b c s t : State} {cell : BitVec 6}

/-! ### The visit of the order cells (R10) -/

/-- The cells that a visit ends. -/
def State.takenCells (s : State) : List Nat :=
  (List.range 64).filter fun n => s.cellTaken (BitVec.ofNat 6 n)

/-- Cells by number are ended INTERRUPTED in turn. -/
def interruptAll (l : List Nat) (s : State) : State :=
  l.foldl (fun s n => writeEnd (BitVec.ofNat 6 n) .interrupted [] s) s

theorem visitTaken_eq (s : State) :
    visitTaken s = raiseIf (!s.takenCells.isEmpty) .orderDone (interruptAll s.takenCells s) := rfl

theorem mem_takenCells : cell.toNat ∈ s.takenCells ↔ s.cellTaken cell = true := by
  have := cell.isLt
  simp only [State.takenCells, List.mem_filter, List.mem_range, BitVec.ofNat_toNat,
    BitVec.setWidth_eq]
  exact and_iff_right this

theorem interruptAll_rest (l : List Nat) (s : State) : { interruptAll l s with xm := s.xm } = s := by
  induction l generalizing s with
  | nil => rfl
  | cons n l ih =>
    have h := ih (writeEnd (BitVec.ofNat 6 n) .interrupted [] s)
    exact (congrArg (fun u : State => { u with xm := s.xm }) h).trans (writeEnd_rest ..)

theorem interruptAll_atc (l : List Nat) (s : State) : (interruptAll l s).atc = s.atc := by
  have h := congrArg State.atc (interruptAll_rest l s)
  exact h

/-- The ends of cells write the words of their ends only. -/
theorem interruptAll_byte {l : List Nat} {x : Nat}
    (hx : ∀ n ∈ l, ∀ r ∈ endRegions (BitVec.ofNat 6 n), x < r.1 ∨ r.1 + r.2 ≤ x) :
    (interruptAll l s).xm.byte x = s.xm.byte x := by
  induction l generalizing s with
  | nil => rfl
  | cons n l ih =>
    exact (ih fun m hm => hx m (List.mem_cons_of_mem n hm)).trans
      (writeEnd_same _ _ _ s x (hx n List.mem_cons_self))

/-- The words of an end lie in the cell. -/
theorem endRegions_inside {r : Nat × Nat} (h : r ∈ endRegions cell) :
    cellBase cell ≤ r.1 ∧ r.1 + r.2 ≤ cellBase cell + 64 := by
  simp only [endRegions, List.mem_cons, List.not_mem_nil, or_false] at h
  rcases h with rfl | rfl | rfl <;> simp

/-- A byte of one cell is outside every other. -/
theorem outside_other {other : BitVec 6} {x : Nat} (hne : other ≠ cell) (h1 : cellBase cell ≤ x)
    (h2 : x < cellBase cell + 64) {r : Nat × Nat} (hr : r ∈ endRegions other) :
    x < r.1 ∨ r.1 + r.2 ≤ x := by
  have h := endRegions_inside hr
  have hn : other.toNat ≠ cell.toNat := fun e => hne (BitVec.eq_of_toNat_eq e)
  simp only [cellBase] at *
  omega

/-- A cell that shows an end goes on showing it while the others are ended. -/
theorem interruptAll_keep {l : List Nat} (h : s.cellEnded cell .interrupted [] s.clock) :
    (interruptAll l s).cellEnded cell .interrupted [] s.clock := by
  induction l generalizing s with
  | nil => exact h
  | cons n l ih =>
    refine ih (s := writeEnd (BitVec.ofNat 6 n) .interrupted [] s) ?_
    by_cases hn : BitVec.ofNat 6 n = cell
    · rw [hn]
      exact writeEnd_ended cell .interrupted [] s
    · exact h.keep fun x h1 h2 => writeEnd_same _ _ _ s x fun r hr => outside_other hn h1 h2 hr

theorem interruptAll_ended {l : List Nat} (h : cell.toNat ∈ l) :
    (interruptAll l s).cellEnded cell .interrupted [] s.clock := by
  induction l generalizing s with
  | nil => cases h
  | cons n l ih =>
    rcases List.mem_cons.1 h with rfl | h
    · refine interruptAll_keep (s := writeEnd (BitVec.ofNat 6 cell.toNat) .interrupted [] s) ?_
      rw [BitVec.ofNat_toNat, BitVec.setWidth_eq]
      exact writeEnd_ended cell .interrupted [] s
    · exact ih (s := writeEnd (BitVec.ofNat 6 n) .interrupted [] s) h

/-- A byte of a cell that no class event writes. -/
theorem raiseIf_byte (b : Bool) (k : Cls) (s : State) {x : Nat} (hx : 0x0800 ≤ x) :
    (raiseIf b k s).xm.byte x = s.xm.byte x := by
  unfold raiseIf
  split
  · exact raise_same k s x fun r hr => by
      rw [List.mem_singleton.1 hr]
      simp only [pendingRegion]
      omega
  · rfl

theorem visitTaken_byte {x : Nat} (hx : 0x0800 ≤ x)
    (h : ∀ k, s.cellTaken k = true → ∀ r ∈ endRegions k, x < r.1 ∨ r.1 + r.2 ≤ x) :
    (visitTaken s).xm.byte x = s.xm.byte x := by
  rw [visitTaken_eq, raiseIf_byte _ _ _ hx]
  exact interruptAll_byte fun n hn => h _ (List.mem_filter.1 hn).2

/-- A cell found TAKEN is ended INTERRUPTED (R10). -/
theorem visitTaken_ended (h : s.cellTaken cell = true) :
    (visitTaken s).cellEnded cell .interrupted [] s.clock :=
  (interruptAll_ended (mem_takenCells.2 h)).keep fun _ hx _ =>
    raiseIf_byte _ _ _ (by simp only [cellBase] at hx; omega)

/-- A cell found TAKEN keeps the bytes outside its end. -/
theorem visitTaken_kept {x : Nat} (h1 : cellBase cell ≤ x) (h2 : x < cellBase cell + 64)
    (hx : ∀ r ∈ endRegions cell, x < r.1 ∨ r.1 + r.2 ≤ x) : (visitTaken s).xm.byte x = s.xm.byte x := by
  refine visitTaken_byte (by simp only [cellBase] at h1; omega) fun k _ r hr => ?_
  by_cases hk : k = cell
  · exact hx r (hk ▸ hr)
  · exact outside_other hk h1 h2 hr

/-- Every other cell keeps all its bytes. -/
theorem visitTaken_other {x : Nat} (h : s.cellTaken cell = false) (h1 : cellBase cell ≤ x)
    (h2 : x < cellBase cell + 64) : (visitTaken s).xm.byte x = s.xm.byte x := by
  refine visitTaken_byte (by simp only [cellBase] at h1; omega) fun k hk r hr => ?_
  exact outside_other (fun e => by simp [← e, hk] at h) h1 h2 hr

theorem takenCells_of_none (h : ∀ k : BitVec 6, s.cellTaken k = false) : s.takenCells = [] := by
  simp [State.takenCells, h]

theorem visitTaken_none (h : ∀ k : BitVec 6, s.cellTaken k = false) : visitTaken s = s := by
  rw [visitTaken_eq, takenCells_of_none h]
  rfl

/-- ORDER_DONE is raised when a cell was ended. -/
theorem visitTaken_raised (h : ∃ k : BitVec 6, s.cellTaken k = true) :
    Raised [.orderDone] s (visitTaken s) := by
  obtain ⟨k, hk⟩ := h
  have hne : (!s.takenCells.isEmpty) = true := by
    simpa [List.isEmpty_iff] using List.ne_nil_of_mem (mem_takenCells.2 hk)
  have hv : visitTaken s = raise .orderDone (interruptAll s.takenCells s) := by
    rw [visitTaken_eq, hne]; rfl
  obtain ⟨hp, hr, hm⟩ := raise_raised .orderDone (interruptAll s.takenCells s)
  rw [interruptAll_atc] at hp hr hm
  rw [hv]
  refine ⟨hp, hr, fun h => hm ((congrArg₂ wordOf ?_ ?_).trans h)⟩ <;>
    exact interruptAll_byte fun n _ r hr => by
      have := (endRegions_inside hr).1
      simp only [cellBase] at this
      omega

/-! ### Observations of other kinds -/

/-- An observation leaves the entries of the other kinds, in their order. -/
theorem observeEntries_filter {c : Params} {clock : Long} {k : Kind} {subject : Subject}
    {present : Bool} {p : Kind → Bool} (hk : p k = false) (es : List Entry) :
    (observeEntries c clock k subject present es).1.filter (fun e => p e.kind) =
      es.filter fun e => p e.kind := by
  induction es with
  | nil =>
    cases present
    · rfl
    · simp only [observeEntries, if_true, Entry.fresh]
      split <;> simp [Entry.activate, hk]
  | cons e es ih =>
    simp only [observeEntries]
    split
    case isTrue he =>
      have hl : p e.kind = false := by rw [he.1]; exact hk
      cases present
      · simp only [Bool.false_eq_true, if_false, Entry.seeAbsent]
        split <;> simp [hl]
        split <;> simp [Entry.move, hl]
      · simp only [if_true, Entry.seePresent]
        split <;> (try split) <;> simp [Entry.activate, hl]
    case isFalse he => simp [List.filter_cons, ih]

theorem updatePru_pru (p : Pru) (s : State) : (updatePru p s).pru = p := by
  unfold updatePru
  split <;> simp [putFaultImage]

theorem raiseIf_pru (b : Bool) (k : Cls) (s : State) : (raiseIf b k s).pru = s.pru := by simp

/-- An observation is made over the table alone. -/
theorem note_pru (k : Kind) (subject : Subject) (present : Bool) (s : State) :
    (note k subject present s).pru = { s.pru with
      entries := (observeEntries s.cfg s.clock k subject present s.pru.entries).1 } := by
  unfold note
  rw [raiseIf_pru, updatePru_pru]

end

section
variable {a b c s t : State} {cell : BitVec 6}

/-! ### Deliveries in STARTING (R69, R70) -/

/-- In STARTING no severity change moves the mode. -/
theorem severityChange_starting (h : s.dmc.mode = .starting) : severityChange s = s := by
  unfold severityChange
  rw [h]
  split <;> simp_all

theorem deliver_starting (h : s.dmc.mode = .starting) :
    (deliver s).dmc = s.dmc ∧ (deliver s).tripOut = s.tripOut ∧ (deliver s).cfl = s.cfl := by
  unfold deliver
  split
  · split
    · simp
    · unfold deliverSummary
      rw [severityChange_starting (by simpa using h)]
      simp
  · simp

/-- In STARTING the deliveries leave the mode, TRIP_OUT and the configuration loader. -/
theorem settle_starting (h : s.dmc.mode = .starting) :
    (settle s).dmc = s.dmc ∧ (settle s).tripOut = s.tripOut ∧ (settle s).cfl = s.cfl := by
  unfold settle
  generalize 16 = n
  induction n generalizing s with
  | zero => exact ⟨rfl, rfl, rfl⟩
  | succ n ih =>
    unfold settleBy
    split
    · exact ⟨rfl, rfl, rfl⟩
    · obtain ⟨hd, ht, hc⟩ := deliver_starting h
      obtain ⟨kd, kt, kc⟩ := ih (s := deliver s) (by rw [hd]; exact h)
      exact ⟨kd.trans hd, kt.trans ht, kc.trans hc⟩

/-! ### What start-up keeps once the cells are visited -/

/-- The table holds CONFIG_GUARD latched with action TRIP (R174). -/
def Pru.guardFaulted (p : Pru) : Prop :=
  ∃ e ∈ p.entries, e.kind = .configGuard ∧ e.state = .latched ∧ e.action = .trip ∧ e.cond = false

/-- Two tables with the same entries of a kind hold CONFIG_GUARD alike. -/
theorem Pru.guardFaulted.of_filter {p q : Pru} {f : Kind → Bool} (h : p.guardFaulted)
    (hf : f .configGuard = true)
    (hq : q.entries.filter (fun e => f e.kind) = p.entries.filter fun e => f e.kind) :
    q.guardFaulted := by
  obtain ⟨e, he, hk, hs⟩ := h
  have : e ∈ q.entries.filter fun e => f e.kind := by
    rw [hq]
    exact List.mem_filter.2 ⟨he, by rw [hk]; exact hf⟩
  exact ⟨e, (List.mem_filter.1 this).1, hk, hs⟩

/-- From state `a` to state `b` the mode STARTING, the guard reset count, CONFIG_GUARD and the pending
classes stay, and while no lasting order is in flight the order cells. -/
structure StartKept (a b : State) : Prop where
  mode : a.dmc.mode = .starting → b.dmc.mode = .starting ∧ b.tripOut = a.tripOut
  guardCount : a.dmc.mode = .starting → b.cfl.guardCount = a.cfl.guardCount
  fault : a.pru.guardFaulted → b.pru.guardFaulted
  classes : ∀ k : Cls, k.isIn a.atc.pending = true → k.isIn b.atc.pending = true
  placed : a.wlc.placed → b.wlc.placed
  ore : a.ore.idle = true → b.ore = a.ore
  cells : a.ore.idle = true → a.wlc.placed →
    ∀ x, 0x0800 ≤ x ∧ x < 0x1800 → b.xm.byte x = a.xm.byte x

theorem StartKept.trans (h : StartKept a b) (k : StartKept b c) : StartKept a c where
  mode m := ⟨(k.mode (h.mode m).1).1, (k.mode (h.mode m).1).2.trans (h.mode m).2⟩
  guardCount m := (k.guardCount (h.mode m).1).trans (h.guardCount m)
  fault := k.fault ∘ h.fault
  classes i := k.classes i ∘ h.classes i
  placed := k.placed ∘ h.placed
  ore i := (k.ore (by rw [h.ore i]; exact i)).trans (h.ore i)
  cells i p x hx := (k.cells (by rw [h.ore i]; exact i) (h.placed p) x hx).trans (h.cells i p x hx)

/-- An operation of the deliveries that leaves the mode and the TRIP_OUT pin. -/
theorem StartKept.of_steady (h : Steady true a b)
    (hm : a.dmc.mode = .starting → b.dmc.mode = .starting ∧ b.tripOut = a.tripOut)  : StartKept a b where
  mode := hm
  guardCount _ := by
    have := congrArg Cfl.guardCount h.cfl
    exact this
  fault k := k.of_filter (f := fun k => !k.loud) rfl (h.quiet rfl)
  classes := h.attention
  placed := h.placed
  ore := h.ore rfl
  cells := h.cells rfl

theorem settle_startKept (s : State) : StartKept s (settle s) :=
  .of_steady (settle_steady (Steady.refl true s)) fun h => by
    obtain ⟨hd, ht, -⟩ := settle_starting h
    exact ⟨by rw [hd]; exact h, ht⟩

/-- A change of the state that start-up's order cells, mode, count and table do not see. -/
theorem StartKept.of_same (hx : ∀ x, 0x0800 ≤ x ∧ x < 0x1800 → b.xm.byte x = a.xm.byte x)
    (hd : b.dmc = a.dmc) (ht : b.tripOut = a.tripOut) (hg : b.cfl.guardCount = a.cfl.guardCount)
    (he : a.pru.guardFaulted → b.pru.guardFaulted)
    (hc : ∀ k : Cls, k.isIn a.atc.pending = true → k.isIn b.atc.pending = true)
    (hw : b.wlc = a.wlc) (ho : b.ore = a.ore) : StartKept a b where
  mode m := ⟨by rw [hd]; exact m, ht⟩
  guardCount _ := hg
  fault := he
  classes := hc
  placed p := by rw [hw]; exact p
  ore _ := ho
  cells _ _ := hx

theorem raiseIf_classes (b : Bool) (k : Cls) (s : State) {d : Cls} (h : d.isIn s.atc.pending = true) :
    d.isIn (raiseIf b k s).atc.pending = true := by
  unfold raiseIf
  split
  · rw [(raise_raised k s).pending, h]
    rfl
  · exact h

theorem updatePru_byte (p : Pru) (s : State) {x : Nat} (hx : x < 0x1800) :
    (updatePru p s).xm.byte x = s.xm.byte x := by
  unfold updatePru
  split
  · rfl
  · exact put_byte_outside (Or.inl hx)

theorem updatePru_atc (p : Pru) (s : State) : (updatePru p s).atc = s.atc := by
  unfold updatePru
  split <;> simp [putFaultImage]

/-- A replacement of the PRU's state with a class event, that keeps CONFIG_GUARD. -/
theorem raise_updatePru_startKept (b : Bool) (k : Cls) {p : Pru} (s : State)
    (hp : s.pru.guardFaulted → p.guardFaulted) : StartKept s (raiseIf b k (updatePru p s)) := by
  refine .of_same (fun x hx => ?_) (by simp) (by simp) (by simp) ?_ (fun d hd => ?_) (by simp) (by simp)
  · rw [raiseIf_byte _ _ _ hx.1, updatePru_byte _ _ hx.2]
  · rw [raiseIf_pru, updatePru_pru]
    exact hp
  · refine raiseIf_classes b k _ ?_
    rw [updatePru_atc]
    exact hd

theorem note_startKept {k : Kind} (hk : k ≠ .configGuard) (subject : Subject) (present : Bool)
    (s : State) : StartKept s (note k subject present s) :=
  raise_updatePru_startKept _ _ s fun h =>
    h.of_filter (f := fun j => decide (j ≠ k)) (by simpa using hk.symm)
      (observeEntries_filter (p := fun j => decide (j ≠ k)) (by simp) _)

theorem put_startKept {x : Nat} {ws : List Word} (h : x + 2 * ws.length ≤ 0x0800 ∨ 0x1800 ≤ x) (s : State) :
    StartKept s (put x ws s) :=
  .of_same (fun y hy => put_byte_outside (by omega)) rfl rfl rfl id (fun _ => id) rfl rfl

theorem raise_startKept (k : Cls) (s : State) : StartKept s (raise k s) :=
  .of_same (fun y hy => raiseIf_byte true k s hy.1) (by simp) (by simp) (by simp) (by simp)
    (fun _ => raiseIf_classes true k s) (by simp) (by simp)

/-- A block that start-up's order cells, mode, count and table do not see is replaced. -/
theorem setRgc_startKept (v : Rgc) (s : State) : StartKept s (s.setRgc v) :=
  .of_same (fun _ _ => rfl) rfl rfl rfl id (fun _ => id) rfl rfl

theorem setCfl_startKept {v : Cfl} (s : State) (hv : v.guardCount = s.cfl.guardCount) :
    StartKept s (s.setCfl v) :=
  .of_same (fun _ _ => rfl) rfl rfl hv id (fun _ => id) rfl rfl

theorem putBlock_startKept {block : Option Nat} {offset : Nat} {ws : List Word} (s : State)
    (hb : s.wlc.placed → blockOk block) : StartKept s (putBlock block offset ws s) :=
  .of_steady (putBlock_steady (Steady.refl true s) hb) fun h => by simp [h]

theorem startCauses_startKept (s : State) : StartKept s (startCauses s) := by
  unfold startCauses
  split
  · exact (setRgc_startKept _ s).trans (raise_startKept .brakeAssist _)
  · exact .of_same (fun _ _ => rfl) rfl rfl rfl id (fun _ => id) rfl rfl

/-- CONFIG_GUARD as start-up after GUARD enters it (R174). -/
theorem enterGuardFault_faulted (clock : Long) (es : List Entry) :
    ∃ e ∈ enterGuardFault clock es,
      e.kind = .configGuard ∧ e.state = .latched ∧ e.action = .trip ∧ e.cond = false := by
  induction es with
  | nil => exact ⟨_, List.mem_singleton_self _, rfl, rfl, rfl, rfl⟩
  | cons e es ih =>
    unfold enterGuardFault
    split
    case isTrue hk => exact ⟨_, List.mem_cons_self, hk, rfl, rfl, rfl⟩
    case isFalse hk =>
      obtain ⟨f, hf, h⟩ := ih
      exact ⟨f, List.mem_cons_of_mem _ hf, h⟩

theorem keptEntries_faulted {es : List Entry}
    (h : ∃ e ∈ es, e.kind = .configGuard ∧ e.state = .latched ∧ e.action = .trip ∧ e.cond = false) :
    ∃ e ∈ keptEntries es,
      e.kind = .configGuard ∧ e.state = .latched ∧ e.action = .trip ∧ e.cond = false := by
  obtain ⟨e, he, hk, hs, ha, hc⟩ := h
  exact ⟨_, List.mem_map_of_mem (List.mem_filter.2 ⟨he, by simp [hs]⟩), hk, hs, ha, hc⟩

theorem restoredEntries_faulted {cause : ResetKind} {clock : Long} {es : List Entry}
    (h : cause = .guard ∨
      ∃ e ∈ es, e.kind = .configGuard ∧ e.state = .latched ∧ e.action = .trip ∧ e.cond = false) :
    ∃ e ∈ restoredEntries cause clock es,
      e.kind = .configGuard ∧ e.state = .latched ∧ e.action = .trip ∧ e.cond = false := by
  unfold restoredEntries
  split
  · exact enterGuardFault_faulted _ _
  all_goals exact keptEntries_faulted (h.resolve_left nofun)

/-- The table at start-up, before it is observed and delivered. -/
def restoredState (s : State) : State :=
  s.setPru { s.pru with entries := restoredEntries s.cfl.cause s.clock s.pru.entries }

theorem restoredState_startKept (s : State) : StartKept s (restoredState s) :=
  .of_same (fun _ _ => rfl) rfl rfl rfl (fun h => restoredEntries_faulted (Or.inr h)) (fun _ => id) rfl rfl

/-- What follows the replacement of the table in `restoreTable`. -/
theorem restoreTable_startKept (s : State) : StartKept (restoredState s) (restoreTable s) := by
  have hr : ∀ b, StartKept (restoredState s) (raiseIf b .faultChange (restoredState s)) := fun b =>
    .of_same (fun y hy => raiseIf_byte _ _ _ hy.1) (by simp) (by simp) (by simp) (by simp)
      (fun _ => raiseIf_classes _ _ _) (by simp) (by simp)
  exact (((hr _).trans (note_startKept (by decide) _ _ _)).trans (put_startKept (by omega) _)).trans
    (settle_startKept _)

theorem forWheels_startKept {f : Wheel → State → State} (hf : ∀ w s, StartKept s (f w s)) (s : State) :
    StartKept s (forWheels f s) :=
  (((hf .w1 s).trans (hf .w2 _)).trans (hf .w3 _)).trans (hf .w4 _)

theorem forBanks_startKept {f : Bank → State → State} (hf : ∀ b s, StartKept s (f b s)) (s : State) :
    StartKept s (forBanks f s) :=
  (((((hf .b1 s).trans (hf .b2 _)).trans (hf .b3 _)).trans (hf .b4 _)).trans (hf .b5 _)).trans (hf .b6 _)

theorem runAll_startKept {fs : List (State → State)} (h : ∀ f ∈ fs, ∀ s, StartKept s (f s)) (s : State) :
    StartKept s (runAll fs s) := by
  induction fs generalizing s with
  | nil => exact .of_same (fun _ _ => rfl) rfl rfl rfl id (fun _ => id) rfl rfl
  | cons f fs ih =>
    exact (h f List.mem_cons_self s).trans (ih (fun g hg => h g (List.mem_cons_of_mem f hg)) _)

theorem writeSections_startKept (s : State) : StartKept s (writeSections s) := by
  refine runAll_startKept ?_ s
  simp only [List.forall_mem_cons]
  refine ⟨fun s => put_startKept (by omega) s, fun s => put_startKept (by omega) s,
    fun s => put_startKept (by omega) s, fun s => put_startKept (by omega) s,
    fun s => put_startKept (by omega) s, fun s => ?_, fun s => put_startKept (by omega) s,
    List.forall_mem_nil _⟩
  exact (put_startKept (by omega) s).trans (putBlock_startKept _ placed_sau)

theorem reportConditions_startKept (s : State) : StartKept s (reportConditions s) := by
  refine runAll_startKept ?_ s
  simp only [List.forall_mem_cons]
  exact ⟨note_startKept (by decide) _ _, note_startKept (by decide) _ _,
    forWheels_startKept fun w s => note_startKept (by decide) _ _ s,
    forWheels_startKept fun w => note_startKept (by decide) _ _,
    forWheels_startKept fun w => note_startKept (by decide) _ _,
    note_startKept (by decide) _ _, note_startKept (by decide) _ _,
    forBanks_startKept fun b s => note_startKept (by decide) _ _ s,
    forWheels_startKept fun w => note_startKept (by decide) _ _, note_startKept (by decide) _ _,
    note_startKept (by decide) _ _, note_startKept (by decide) _ _, List.forall_mem_nil _⟩

/-! ### Phase LOAD at start-up (R27) -/

/-- The action of CONFIG_GUARD is TRIP, whatever the configuration (R178). -/
theorem rewriteAction_guard {c : Params} {clock : Long} {e : Entry} (hk : e.kind = .configGuard)
    (ha : e.action = .trip) : e.rewriteAction c clock = e := by
  unfold Entry.rewriteAction
  rw [if_pos]
  rw [hk, ha]
  rfl

theorem rewriteActions_startKept (s : State) : StartKept s (rewriteActions s) := by
  unfold rewriteActions
  refine raise_updatePru_startKept _ _ s fun ⟨e, he, hk, hs, ha, hc⟩ => ⟨e, ?_, hk, hs, ha, hc⟩
  exact List.mem_map.2 ⟨e, he, rewriteAction_guard hk ha⟩

theorem changeStopModeFrom_startKept (old : Nat) (s : State) : StartKept s (changeStopModeFrom old s) := by
  unfold changeStopModeFrom
  split
  · exact .of_same (fun _ _ => rfl) rfl rfl rfl id (fun _ => id) rfl rfl
  · exact raise_updatePru_startKept false .faultChange s id

theorem rgcConfig_startKept (s : State) : StartKept s (rgcConfig s) := by
  refine runAll_startKept ?_ s
  simp only [List.forall_mem_cons]
  have k := Steady.refl true
  exact ⟨fun s => (setRgc_startKept _ s).trans (put_startKept (by omega) _),
    fun s => .of_steady (sortRotation_steady (k s)) fun h => by simp [h],
    fun s => .of_steady (judgeChannels_steady (k s)) fun h => by simp [h],
    fun s => .of_steady (recomputeCapacity_steady (k s)) fun h => by simp [h], List.forall_mem_nil _⟩

theorem lmuConfig_startKept (s : State) : StartKept s (lmuConfig s) := by
  unfold lmuConfig
  dsimp only
  split <;> exact .of_same (fun _ _ => rfl) rfl rfl rfl id (fun _ => id) rfl rfl

theorem acceptConfig_startKept (p : Params) (s : State) : StartKept s (acceptConfig p s) := by
  refine runAll_startKept ?_ s
  simp only [List.forall_mem_cons]
  exact ⟨fun s => setCfl_startKept s rfl,
    fun s => .of_same (fun _ _ => rfl) rfl rfl rfl id (fun _ => id) rfl rfl,
    fun s => .of_same (fun _ _ => rfl) rfl rfl rfl id (fun _ => id) rfl rfl,
    rewriteActions_startKept, changeStopModeFrom_startKept _, lmuConfig_startKept, rgcConfig_startKept,
    List.forall_mem_nil _⟩

theorem startBlower_startKept (s : State) : StartKept s (startBlower s) :=
  .of_same (fun _ _ => by simp) (by simp) (by simp) (by simp) (by simp) (fun _ => by simp) (by simp)
    (by simp)

theorem validateInLoad_startKept (s : State) : StartKept s (validateInLoad s) := by
  have hr : StartKept s (showResult (validate s.xm) s) :=
    (put_startKept (by simp) s).trans (raise_startKept .configResult _)
  unfold validateInLoad
  dsimp only
  split
  · have ha := hr.trans (acceptConfig_startKept (Params.ofBlock s.xm) _)
    refine (ha.trans ?_).trans (startBlower_startKept _)
    exact .of_steady (enterEnroll_steady (Steady.refl true _)) fun h => by simpa using h
  · exact hr.trans (setCfl_startKept _ rfl)

theorem enterLoad_startKept (s : State) : StartKept s (enterLoad s) := by
  have h := setCfl_startKept (v := { s.cfl with phase := .load, armed := true }) s rfl
  unfold enterLoad
  dsimp only
  split
  · exact h.trans (validateInLoad_startKept _)
  · exact h

/-- Start-up once the cells are visited and the table is replaced. -/
theorem startUp_startKept (s : State) :
    StartKept (restoredState (writeSections (startCauses (visitAfterReset (writeHeader s))))) (startUp s) :=
  ((((restoreTable_startKept _).trans (reportConditions_startKept _)).trans (settle_startKept _)).trans
    (enterLoad_startKept _)).trans (settle_startKept _)

/-- Start-up once the cells are visited, but for CONFIG_GUARD after GUARD. -/
theorem startUp_visited (s : State) :
    StartKept (visitAfterReset (writeHeader s)) (startUp s) :=
  (((startCauses_startKept _).trans (writeSections_startKept _)).trans (restoredState_startKept _)).trans
    (startUp_startKept s)

/-! ### The cells after a start-up (R10) -/

theorem writeHeader_byte {x : Nat} (hx : 0x0100 ≤ x) (s : State) :
    (writeHeader s).xm.byte x = s.xm.byte x := by
  simp only [writeHeader, runAll]
  rw [put_byte_outside (by simp; omega), put_byte_outside (by simp [longWords]; omega),
    put_byte_outside (by simp; omega), put_byte_outside (by simp; omega)]

/-- The order cells are the same in two states whose memories agree on them. -/
theorem cellTaken_congr (h : ∀ x, 0x0800 ≤ x → t.xm.byte x = s.xm.byte x) (cell : BitVec 6) :
    t.cellTaken cell = s.cellTaken cell := by
  simp only [State.cellTaken, State.word, Memory.word, cellBase]
  rw [h _ (by omega), h _ (by omega)]

/-- What the visit of the cells makes of them, from state `s` to state `t` at a drive clock (R10). -/
structure CellsVisited (clock : Long) (s t : State) : Prop where
  taken : ∀ cell : BitVec 6, s.cellTaken cell = true → t.cellEnded cell .interrupted [] clock ∧
    ∀ x, cellBase cell ≤ x → x < cellBase cell + 64 →
      (∀ r ∈ endRegions cell, x < r.1 ∨ r.1 + r.2 ≤ x) → t.xm.byte x = s.xm.byte x
  other : ∀ cell : BitVec 6, s.cellTaken cell = false →
    ∀ x, cellBase cell ≤ x → x < cellBase cell + 64 → t.xm.byte x = s.xm.byte x

theorem visitTaken_visited (s : State) : CellsVisited s.clock s (visitTaken s) where
  taken _ h := ⟨visitTaken_ended h, fun _ h1 h2 hx => visitTaken_kept h1 h2 hx⟩
  other _ h _ h1 h2 := visitTaken_other h h1 h2

/-- Before and after the visit the cells may be written nowhere else. -/
theorem CellsVisited.congr {clock : Long} {u v : State} (h : CellsVisited clock u v)
    (hs : ∀ x, 0x0800 ≤ x → u.xm.byte x = s.xm.byte x)
    (ht : ∀ x, 0x0800 ≤ x ∧ x < 0x1800 → t.xm.byte x = v.xm.byte x) : CellsVisited clock s t := by
  have inside : ∀ (cell : BitVec 6) (x : Nat), cellBase cell ≤ x → x < cellBase cell + 64 →
      0x0800 ≤ x ∧ x < 0x1800 := fun cell x h1 h2 => by
    have := cell.isLt
    simp only [cellBase] at h1 h2
    omega
  refine ⟨fun cell hc => ?_, fun cell hc x h1 h2 => ?_⟩
  · obtain ⟨he, hk⟩ := h.taken cell (by rw [cellTaken_congr hs]; exact hc)
    refine ⟨he.keep fun x h1 h2 => ht x (inside cell x h1 h2), fun x h1 h2 hx => ?_⟩
    rw [ht x (inside cell x h1 h2), hk x h1 h2 hx, hs x (inside cell x h1 h2).1]
  · have hi := inside cell x h1 h2
    rw [ht x hi, h.other cell (by rw [cellTaken_congr hs]; exact hc) x h1 h2, hs x hi.1]

/-- A start-up but that after POWER_ON visits the cells, and writes no other byte of them (R10). -/
theorem startUp_visits (hc : s.cfl.cause ≠ .powerOn) (hi : s.ore.idle = true) (hp : s.wlc.placed) :
    CellsVisited s.clock s (startUp s) ∧ ((∃ cell : BitVec 6, s.cellTaken cell = true) →
      Cls.orderDone.isIn (startUp s).atc.pending = true) := by
  have hv : visitAfterReset (writeHeader s) = visitTaken (writeHeader s) := by
    unfold visitAfterReset
    rw [if_neg (by simpa using hc)]
  have hb : ∀ x, 0x0800 ≤ x → (writeHeader s).xm.byte x = s.xm.byte x := fun x hx =>
    writeHeader_byte (by omega) s
  have hk := startUp_visited s
  rw [hv] at hk
  refine ⟨?_, fun ⟨cell, ht⟩ => hk.classes _ ?_⟩
  · have := visitTaken_visited (writeHeader s)
    rw [show (writeHeader s).clock = s.clock by simp] at this
    exact this.congr hb (hk.cells (by simpa using hi) (by simpa using hp))
  · rw [(visitTaken_raised ⟨cell, by rw [cellTaken_congr hb]; exact ht⟩).pending]
    simp

end

/-! ### The three later start-ups -/

/-- A reset starts up over the values that it leaves, with the memory as it was. -/
theorem takeReset_visits {kind : ResetKind} (hk : kind ≠ .powerOn) (s : State) :
    CellsVisited 0 s (resetNow kind s) ∧ ((∃ cell : BitVec 6, s.cellTaken cell = true) →
      Cls.orderDone.isIn (resetNow kind s).atc.pending = true) :=
  have ⟨hv, hd⟩ := startUp_visits (s := takeReset kind s) hk rfl (Wlc.reset_noBlocks.placed (Nat.le_refl _))
  ⟨hv.congr (fun _ _ => rfl) fun _ _ => rfl, hd⟩

theorem exec_softRestart {s : State} (hs : s.isRunning = true) :
    exec .softRestart s = .next (resetNow .softRestart s) := whenRunning_of_running hs _

theorem exec_guardCheck_illegal {s : State} (hs : s.isRunning = true) (hg : s.cfl.guardOn = true)
    (hl : s.cfl.copiesLegal = false) : exec .guardCheck s = .next (resetNow .guard s) := by
  unfold exec execGuardCheck
  rw [whenRunning_of_running hs, if_pos (by simp [hg, hl])]

theorem exec_resetPinRelease {s : State} (hs : s.supply = true) (hl : s.resetLow = true) :
    exec .resetPinRelease s = .next (startUp (s.setResetLow false)) := by
  unfold exec execResetPinRelease
  rw [if_pos (by simp [hs, hl])]

/-- Settles O11: the visit is one fold of ends, and no other operation of a start-up writes a cell. -/
theorem takenCellsInterrupted : Obligations.TakenCellsInterrupted := by
  refine ⟨fun c s hp h => ?_, fun s => ?_⟩
  · rcases h with ⟨rfl, hs⟩ | ⟨rfl, hs, hg, hl⟩ | ⟨rfl, hs, hl, hclock, hcause, hore⟩
    · obtain ⟨hv, hd⟩ := takeReset_visits (kind := .softRestart) nofun s
      exact ⟨_, exec_softRestart hs, hv.taken, hv.other, hd⟩
    · obtain ⟨hv, hd⟩ := takeReset_visits (kind := .guard) nofun s
      exact ⟨_, exec_guardCheck_illegal hs hg hl, hv.taken, hv.other, hd⟩
    · obtain ⟨hv, hd⟩ := startUp_visits (s := s.setResetLow false) (by simp [hcause])
        (by simp [hore, Ore.reset, Ore.idle]) hp
      rw [show (s.setResetLow false).clock = 0 from hclock] at hv
      exact ⟨_, exec_resetPinRelease hs hl, hv.taken, hv.other, hd⟩
  · have hv := visitTaken_visited s
    exact ⟨hv.taken, hv.other, visitTaken_raised, visitTaken_none⟩

/-! ### The reset cause record (R4, R29) -/

section
variable {s : State}

/-- The reset cause record as start-up writes it (R4). -/
theorem writeHeader_record (s : State) : (writeHeader s).word 0x0012 = s.cfl.cause.code ∧
    (writeHeader s).word 0x0014 = modeBeforeCode s.cfl.modeBefore ∧
    (writeHeader s).word 0x0016 = natWord s.cfl.guardCount := by
  have hw : ∀ i < 3, (writeHeader s).word (0x0012 + 2 * i) =
      [s.cfl.cause.code, modeBeforeCode s.cfl.modeBefore, natWord s.cfl.guardCount].getD i 0 := by
    intro i hi
    simp only [writeHeader, runAll]
    rw [put_word_outside (by simp; omega), put_word_outside (by simp [longWords]),
      put_word_outside (by simp; omega), put_word (by simpa using hi)]
    simp [hi]
  exact ⟨hw 0 (by omega), hw 1 (by omega), hw 2 (by omega)⟩

/-- The rest of a start-up keeps the reset cause record. -/
theorem startUp_keeps_record (s : State) : Keeps true (writeHeader s) (startUp s) := by
  simp only [startUp, runAll]
  exact settle_keeps (enterLoad_keeps (settle_keeps (reportConditions_keeps (restoreTable_keeps
    (writeSections_keeps (startCauses_keeps (visitAfterReset_keeps (Keeps.refl true _))))))))

/-- A word of the reset cause record is the same in two states with its bytes. -/
theorem Keeps.recordWord {a b : State} (h : Keeps true a b) (hp : a.wlc.placed) {x : Nat}
    (hx : 0x0012 ≤ x ∧ x + 2 ≤ 0x0018) : b.word x = a.word x := by
  unfold State.word Memory.word
  rw [h.record rfl hp x (by unfold recordByte; simp; omega),
    h.record rfl hp (x + 1) (by unfold recordByte; simp; omega)]

/-- What a start-up leaves of the reset, over the values that the reset left. -/
structure StartedUp (s t : State) : Prop where
  cause : t.word 0x0012 = s.cfl.cause.code
  before : t.word 0x0014 = modeBeforeCode s.cfl.modeBefore
  shown : t.word 0x0016 = natWord t.cfl.guardCount
  count : t.cfl.guardCount = s.cfl.guardCount
  clock : t.clock = s.clock
  mode : t.dmc.mode = .starting
  tripOut : t.tripOut = s.tripOut
  host : ∀ a, hostByte a = true → t.xm.byte a = s.xm.byte a
  fault : s.cfl.cause = .guard → t.pru.guardFaulted

theorem startUp_started (hm : s.dmc.mode = .starting) (hp : s.wlc.placed) : StartedUp s (startUp s) := by
  obtain ⟨hcause, hbefore, hcount⟩ := writeHeader_record s
  have hr := startUp_keeps_record s
  have hv := startUp_visited s
  have hw : (writeHeader s).wlc.placed := by simpa using hp
  have hg : (startUp s).cfl.guardCount = s.cfl.guardCount :=
    (hv.guardCount (by simpa using hm)).trans (by simp)
  obtain ⟨hmode, htrip⟩ := hv.mode (by simpa using hm)
  exact {
    cause := (hr.recordWord hw (by omega)).trans hcause
    before := (hr.recordWord hw (by omega)).trans hbefore
    shown := by rw [hg]; exact (hr.recordWord hw (by omega)).trans hcount
    count := hg
    clock := by simp
    mode := hmode
    tripOut := htrip.trans (by simp)
    host := (startUp_keeps (Keeps.refl false s)).host hp
    fault := fun h => (startUp_startKept s).fault
      (restoredEntries_faulted (Or.inl (by simpa using h))) }

end

/-- Settles O10: start-up writes the record first and nothing writes it again. -/
theorem startUpLeaves : Obligations.StartUpLeaves := by
  intro c kind before s hp h
  have hreset := Wlc.reset_noBlocks.placed (Nat.le_refl _)
  rcases h with ⟨rfl, hs, rfl, rfl⟩ | ⟨rfl, hs, hg, hl, rfl, rfl⟩ |
    ⟨rfl, hs, hl, hclock, htrip, hdmc, hcfl, hk⟩
  · have k := startUp_started (s := takeReset .softRestart s) rfl hreset
    exact ⟨_, exec_softRestart hs, by simpa [State.isRunning] using hs, k.cause, k.before, k.shown,
      k.count, k.clock, k.mode, k.tripOut, k.host, nofun⟩
  · have k := startUp_started (s := takeReset .guard s) rfl hreset
    exact ⟨_, exec_guardCheck_illegal hs hg hl, by simpa [State.isRunning] using hs, k.cause, k.before,
      k.shown, k.count, k.clock, k.mode, k.tripOut, k.host, fun _ => k.fault rfl⟩
  · have k := startUp_started (s := s.setResetLow false) (by simp [hdmc, Dmc.reset]) hp
    have hcause : (s.setResetLow false).cfl.cause = kind := by rw [State.setResetLow_cfl, hcfl]; rfl
    have hbefore : (s.setResetLow false).cfl.modeBefore = before := by
      rw [State.setResetLow_cfl, hcfl]; rfl
    refine ⟨_, exec_resetPinRelease hs hl, by simp [State.isRunning, hs], hcause ▸ k.cause,
      hbefore ▸ k.before, k.shown, k.count.trans (if_neg hk).symm, k.clock.trans hclock, k.mode,
      k.tripOut.trans htrip, k.host, fun hg => absurd hg hk⟩

end Sys2Proof.Machine
end

section
/-! The host port: the drive clock tick, the host's words, PART_STATUS and the register window
(sections 1.1, 1.2 and 1.9), and the poll of the attention classes (R20). -/

namespace Sys2Proof.Machine

section
variable {s t : State}

/-! ### Writes that touch one field -/

theorem put_same (x : Nat) (ws : List Word) (s : State) :
    SameOutside [(x, 2 * ws.length)] s (put x ws s) := fun _ hb =>
  put_byte_outside (hb (x, 2 * ws.length) (by simp))

theorem put_word_first (x : Nat) (w : Word) (ws : List Word) (s : State) :
    (put x (w :: ws) s).word x = w :=
  put_word (a := x) (ws := w :: ws) (i := 0) (by simp)

/-- A write of two words shows them one after the other. -/
theorem put_longWords (x : Nat) (l : Long) (s : State) :
    (put x (longWords l) s).word x = l.setWidth 16 ∧
      (put x (longWords l) s).word (x + 2) = l.extractLsb' 16 16 :=
  ⟨put_word (ws := longWords l) (i := 0) (by simp [longWords]),
    put_word (ws := longWords l) (i := 1) (by simp [longWords])⟩

/-- A host write of another word than the ready mark is a write of that word (R1). -/
theorem hostWrite_of_ne {address : BitVec 13} (h : address ≠ 3) (value : Word) (s : State) :
    hostWrite address value s = put (2 * address.toNat) [value] s := if_neg h

theorem readMemory_of_running (h : s.isRunning = true) (address : BitVec 13) :
    s.readMemory address = s.word (2 * address.toNat) := if_pos h

/-! ### PART_STATUS (section 1.9) -/

theorem Mode.code_low (m : Mode) : m.code = (m.code.setWidth 3).setWidth 16 := by cases m <;> decide

theorem Phase.code_low (p : Phase) : p.code = (p.code.setWidth 2).setWidth 16 := by
  cases p <;> decide

theorem Chain.code_low (c : Chain) : c.code = (c.code.setWidth 2).setWidth 16 := by
  cases c <;> decide

theorem ResetKind.code_low (k : ResetKind) : k.code = (k.code.setWidth 3).setWidth 16 := by
  cases k <;> decide

theorem boolWord_eq (b : Bool) : boolWord b = (BitVec.ofBool b).setWidth 16 := by
  cases b <;> decide

/-- Six fields packed into a word, each at its place. -/
structure Packed (w : Word) (mode : BitVec 3) (phase chain : BitVec 2) (behind guardOn : Bool)
    (cause : BitVec 3) : Prop where
  mode : w.extractLsb' 0 3 = mode
  phase : w.extractLsb' 3 2 = phase
  chain : w.extractLsb' 5 2 = chain
  behind : w.getLsbD 7 = behind
  guardOn : w.getLsbD 8 = guardOn
  cause : w.extractLsb' 9 3 = cause
  rest : w.extractLsb' 12 4 = 0

theorem packed_word (mode : BitVec 3) (phase chain : BitVec 2) (behind guardOn : Bool)
    (cause : BitVec 3) :
    Packed (mode.setWidth 16 ||| (phase.setWidth 16 <<< 3) ||| (chain.setWidth 16 <<< 5) |||
      ((BitVec.ofBool behind).setWidth 16 <<< 7) ||| ((BitVec.ofBool guardOn).setWidth 16 <<< 8) |||
      (cause.setWidth 16 <<< 9)) mode phase chain behind guardOn cause := by
  constructor
  case behind | guardOn => simp
  all_goals
    apply BitVec.eq_of_getLsbD_eq
    intro i hi
    interval_cases i <;> simp

theorem partStatus_packed (s : State) :
    Packed s.partStatus (s.dmc.mode.code.setWidth 3) (s.cfl.phase.code.setWidth 2)
      (s.ore.chain.code.setWidth 2) s.ore.behind s.cfl.guardOn (s.cfl.cause.code.setWidth 3) := by
  unfold State.partStatus
  rw [s.dmc.mode.code_low, s.cfl.phase.code_low, s.ore.chain.code_low, s.cfl.cause.code_low,
    boolWord_eq, boolWord_eq]
  simpa only [BitVec.setWidth_setWidth_of_le, Nat.reduceLeDiff, BitVec.setWidth_eq] using
    packed_word (s.dmc.mode.code.setWidth 3) (s.cfl.phase.code.setWidth 2)
      (s.ore.chain.code.setWidth 2) s.ore.behind s.cfl.guardOn (s.cfl.cause.code.setWidth 3)

/-! ### Writes of the register window (R23) -/

/-- The four bits of a request are a word's value over 4096. -/
theorem request_eq_iff (v : Word) (n : Nat) (hn : n < 16) :
    v.extractLsb' 12 4 = BitVec.ofNat 4 n ↔ v.toNat / 4096 = n := by
  rw [← BitVec.toNat_inj]
  simp only [BitVec.extractLsb'_toNat, BitVec.toNat_ofNat, Nat.shiftRight_eq_div_pow]
  have := v.isLt
  omega

theorem extract_low (v : Word) (n : Nat) : v.extractLsb' 0 n = BitVec.ofNat n (v.toNat % 2 ^ n) := by
  apply BitVec.eq_of_toNat_eq
  simp

theorem top_bit_iff (v : Word) : v.getLsbD 15 = true ↔ 32768 ≤ v.toNat := by
  rw [← BitVec.msb_eq_getLsbD_last (w := 16), BitVec.msb_eq_decide, decide_eq_true_eq]

theorem partControl_soft {v : Word} (h : v.toNat / 4096 = 10) : partControl v = .softRestart :=
  if_pos ((request_eq_iff v 10 (by omega)).2 h)

theorem partControl_chain {v : Word} (h : v.toNat / 4096 = 5) :
    partControl v = .chainRestart (BitVec.ofNat 7 (v.toNat % 128)) := by
  have hsoft : ¬v.extractLsb' 12 4 = 0xA := fun k => by
    have := (request_eq_iff v 10 (by omega)).1 k
    omega
  exact (if_neg hsoft).trans ((if_pos ((request_eq_iff v 5 (by omega)).2 h)).trans
    (congrArg Instr.chainRestart (extract_low v 7)))

theorem partControl_ignored {v : Word} (ha : v.toNat / 4096 ≠ 10) (h5 : v.toNat / 4096 ≠ 5) :
    partControl v = .registerWriteIgnored 1 v :=
  (if_neg (mt (request_eq_iff v 10 (by omega)).1 ha)).trans
    (if_neg (mt (request_eq_iff v 5 (by omega)).1 h5))

theorem attnEnd_specific {v : Word} (h : 32768 ≤ v.toNat) :
    attnEnd v = .attnEndSpecific (BitVec.ofNat 4 (v.toNat % 16)) :=
  (if_pos ((top_bit_iff v).2 h)).trans (congrArg Instr.attnEndSpecific (extract_low v 4))

theorem attnEnd_nonSpecific {v : Word} (h : v.toNat < 32768) : attnEnd v = .attnEndNonSpecific :=
  if_neg fun k => absurd ((top_bit_iff v).1 k) (by omega)

/-- A write of another register, or of PART_CONTROL with another request, is ignored (R23). -/
theorem registerWrite_ignored {r : BitVec 3} {v : Word}
    (h : r.toNat ∈ [0, 2, 6, 7] ∨ r.toNat = 1 ∧ v.toNat / 4096 ≠ 10 ∧ v.toNat / 4096 ≠ 5) :
    ∃ q, registerWrite r v = .registerWriteIgnored q v := by
  rcases h with h | ⟨h, ha, h5⟩
  · refine ⟨r, ?_⟩
    simp only [List.mem_cons, List.not_mem_nil, or_false] at h
    rcases h with h | h | h | h <;> simp only [registerWrite, h]
  · exact ⟨1, by simp only [registerWrite, h, partControl_ignored ha h5]⟩

/-- Settles O14: a tick and a host's word are one write each, PART_STATUS packs six fields, and a
write of the window is the command that `registerWrite` decodes. -/
theorem hostPort : Obligations.HostPort := by
  refine ⟨fun s hs => ⟨?_, fun address value hne => ?_⟩, fun s hs => ?_, fun r v s => ⟨rfl, fun h => ?_⟩,
    fun v => ⟨partControl_soft, partControl_chain, attnEnd_specific, attnEnd_nonSpecific, rfl, rfl⟩⟩
  · obtain ⟨hlow, hhigh⟩ := put_longWords 0x000C (s.clock + 1) (s.setClock (s.clock + 1))
    have hexec : exec .driveClockTick s =
        .next (put 0x000C (longWords (s.clock + 1)) (s.setClock (s.clock + 1))) :=
      whenRunning_of_running hs fun s => put 0x000C (longWords (s.clock + 1)) (s.setClock (s.clock + 1))
    exact ⟨_, hexec, rfl, hlow, hhigh, put_same 0x000C (longWords (s.clock + 1))
      (s.setClock (s.clock + 1)), rfl⟩
  · have hexec : exec (.hostWordWrite address value) s = .next (hostWrite address value s) :=
      whenRunning_of_running hs (hostWrite address value)
    rw [hostWrite_of_ne hne] at hexec
    have hread := readMemory_of_running (s := put (2 * address.toNat) [value] s) hs address
    exact ⟨_, hexec, hread.trans (put_word_first _ _ _ _),
      put_same _ [value] s, rfl⟩
  · have hread : s.readRegister 0 = s.partStatus := if_pos hs
    rw [hread]
    obtain ⟨hmode, hphase, hchain, hbehind, hguard, hcause, hrest⟩ := partStatus_packed s
    exact ⟨hmode, hphase, hchain, hbehind, hguard, hcause, hrest, if_pos hs, if_pos hs, if_pos hs,
      if_pos hs⟩
  · obtain ⟨q, hq⟩ := registerWrite_ignored h
    exact congrArg (fun c => exec c s) hq

/-! ### The poll (R20) -/

theorem isIn_add (c d : Cls) (p : BitVec 12) : c.isIn (p ||| d.bit) = (c.isIn p || c == d) := by
  simp only [Cls.isIn, BitVec.getLsbD_or, bit_getLsbD]

/-- The valid flag with a class number is a sum that does not carry. -/
theorem natWord_valid (c : Cls) : natWord (0x8000 + c.num) = 0x8000 + natWord c.num := by
  cases c <;> decide

theorem presentClass_same (c : Cls) (s : State) : SameOutside [(0x0022, 4)] s (presentClass c s) := by
  intro x hx
  have hout := hx (0x0022, 4) (by simp)
  simp only [presentClass, putServiceMirror, putPendingMirror]
  refine (put_byte_outside ?_).trans (put_byte_outside ?_) <;>
    simp only [List.length_singleton] <;> omega

theorem presentClass_words (c : Cls) (s : State) :
    (presentClass c s).word 0x0022 = (presentClass c s).atc.pending.setWidth 16 ∧
      (presentClass c s).word 0x0024 = (presentClass c s).atc.inService.setWidth 16 := by
  constructor
  · exact (put_word_outside (by simp)).trans (put_word_first 0x0022 _ _ _)
  · exact put_word_first 0x0024 _ _ _

theorem poll_of_mostUrgent {c : Cls} (hc : s.atc.presentable c = true)
    (hbest : ∀ d, s.atc.presentable d = true → s.atc.AsUrgent c d) : poll s = presentClass c s := by
  unfold poll
  rw [mostUrgent_eq_some (test := s.atc.presentable) hc hbest]

theorem poll_of_none (h : ∀ c, s.atc.presentable c = false) : poll s = s.setHostData 0 := by
  unfold poll
  rw [mostUrgent_eq_none_iff (test := s.atc.presentable).2 fun c _ => h c]

/-- Settles O18: the search over the classes finds the most urgent presentable one, which is
presented, or none. -/
theorem pollPresents : Obligations.PollPresents := by
  intro s hs
  have hexec : exec .attnPoll s = .next (poll s) := congrArg Host.Outcome.next (if_pos hs)
  refine ⟨fun c hc hbest => ⟨presentClass c s, ?_, natWord_valid c, fun d => isIn_remove d c _,
    fun d => isIn_add d c _, (presentClass_words c s).1, (presentClass_words c s).2,
    presentClass_same c s, rfl⟩, fun h => ?_⟩
  · rw [hexec, poll_of_mostUrgent hc hbest]
  · rw [hexec, poll_of_none h]
    rfl

end

end Sys2Proof.Machine
end

section
/-! The orders: completions (R14), the first checks (R13), SET_LIMITS (R100), LOAD_ENVELOPE (R130),
ROLL_CALL (R52) and the chain scan (R11, R12). -/

namespace Sys2Proof.Machine

section
variable {s t u : State} {cell : BitVec 6} {r : Result} {detail : List Word}
  {also : List (Nat × Nat)}

/-- Two states with the same fields are the same. -/
theorem State.eq_of_fields (supply : t.supply = s.supply := by simp)
    (resetLow : t.resetLow = s.resetLow := by simp) (clock : t.clock = s.clock := by simp)
    (xm : t.xm = s.xm := by simp) (hostData : t.hostData = s.hostData := by simp)
    (tripOut : t.tripOut = s.tripOut := by simp) (atc : t.atc = s.atc := by simp)
    (ore : t.ore = s.ore := by simp) (cfl : t.cfl = s.cfl := by simp)
    (wlc : t.wlc = s.wlc := by simp) (dmc : t.dmc = s.dmc := by simp)
    (tqa : t.tqa = s.tqa := by simp) (tcu : t.tcu = s.tcu := by simp)
    (rgc : t.rgc = s.rgc := by simp) (stc : t.stc = s.stc := by simp)
    (lmu : t.lmu = s.lmu := by simp) (pru : t.pru = s.pru := by simp)
    (draws : t.draws = s.draws := by simp) (pending : t.pending = s.pending := by simp) : t = s := by
  cases s
  cases t
  simp only [State.mk.injEq]
  simp only at *
  simp only [*, and_self]

/-! ### The end of an order -/

/-- An order that ends after other writes, none of them of the pending mirror. -/
theorem endCell_ended_after (hclock : t.clock = s.clock) (hatc : t.atc = s.atc)
    (hsame : SameOutside also s t) (hmirror : t.word 0x0022 = s.word 0x0022) (cell : BitVec 6)
    (r : Result) (detail : List Word) : OrderEnded cell r detail also s (endCell cell r detail t) := by
  obtain ⟨hended, hraised, hout⟩ := endCell_orderEnded cell r detail t
  refine ⟨hclock ▸ hended, ⟨fun c => by rw [← hatc]; exact hraised.pending c, ?_, fun h => ?_⟩, ?_⟩
  · rw [← hatc]
    exact hraised.rest
  · exact hraised.mirror (by rw [hmirror, hatc, h])
  · intro x hx
    refine (hout x fun q hq => hx q ?_).trans (hsame x fun q hq => hx q ?_)
    · simp only [List.append_nil] at hq
      exact List.mem_append_left _ hq
    · exact List.mem_append_right _ hq

/-- The end of an order leaves a word outside the pending mirror and the order cells. -/
theorem endCell_word_outside (cell : BitVec 6) (r : Result) (detail : List Word) {y : Nat}
    (h : 0x0024 ≤ y ∧ y + 2 ≤ 0x0800 ∨ 0x1800 ≤ y) :
    (endCell cell r detail s).word y = s.word y := by
  have hcell := cell.isLt
  have hbyte (x : Nat) (hx : 0x0024 ≤ x ∧ x < 0x0800 ∨ 0x1800 ≤ x) :
      (endCell cell r detail s).xm.byte x = s.xm.byte x := by
    refine (endCell_orderEnded cell r detail s).same x fun q hq => ?_
    simp only [endRegions, pendingRegion, List.append_nil, List.mem_cons,
      List.not_mem_nil, or_false] at hq
    rcases hq with rfl | rfl | rfl | rfl <;> simp only [cellBase] <;> omega
  simp only [State.word, Memory.word, hbyte y (by omega), hbyte (y + 1) (by omega)]

theorem raise_of_absent {c : Cls} (h : ¬c.isIn s.atc.pending = true) : raise c s =
    putPendingMirror (s.setAtc { s.atc with pending := s.atc.pending ||| c.bit }) := if_neg h

theorem raise_setOre (c : Cls) (o : Ore) (s : State) :
    raise c (s.setOre o) = (raise c s).setOre o := by
  by_cases h : c.isIn s.atc.pending = true
  · rw [raise_of_pending h]
    exact raise_of_pending (s := s.setOre o) h
  · rw [raise_of_absent h]
    exact raise_of_absent (s := s.setOre o) h

theorem complete_of_held {q : Resource} (h : s.ore.inFlight q = some cell) :
    complete q cell r detail s = (endCell cell r detail s).setOre (s.ore.setFlight q none) :=
  (if_pos h).trans (raise_setOre _ _ _)

theorem complete_dropped {q : Resource} (h : s.ore.inFlight q ≠ some cell) :
    complete q cell r detail s = s := if_neg h

theorem inFlight_setFlight (o : Ore) (q p : Resource) (c : Option (BitVec 6)) :
    (o.setFlight q c).inFlight p = if p = q then c else o.inFlight p := by
  cases q <;> cases p <;> rfl

theorem setFlight_chain (o : Ore) (q : Resource) (c : Option (BitVec 6)) :
    (o.setFlight q c).cursor = o.cursor ∧ (o.setFlight q c).chain = o.chain ∧
      (o.setFlight q c).behind = o.behind := by
  cases q <;> exact ⟨rfl, rfl, rfl⟩

/-- A completion that the table names ends its cell (R14). -/
theorem complete_orderEnded {q : Resource} (h : s.ore.inFlight q = some cell) :
    OrderEnded cell r detail [] s (complete q cell r detail s) := by
  rw [complete_of_held h]
  obtain ⟨hended, hraised, hout⟩ := endCell_orderEnded cell r detail s
  exact ⟨⟨hended.state, hended.code, hended.detail, hended.stampLow, hended.stampHigh⟩,
    ⟨hraised.pending, hraised.rest, hraised.mirror⟩, hout⟩

/-- Settles O22: the completion that the table names ends the cell and frees the resource, and any
other is dropped. -/
theorem completionArrives : Obligations.CompletionArrives := by
  intro q cell result detail s hs
  have hexec : exec (.orderCompletion q cell result detail) s =
      .next (complete q cell result detail s) := whenRunning_of_running hs _
  refine ⟨fun h => ?_, fun h => hexec.trans (by rw [complete_dropped h])⟩
  have hore : (complete q cell result detail s).ore = s.ore.setFlight q none := by
    rw [complete_of_held h]
    rfl
  obtain ⟨hcursor, hchain, hbehind⟩ := setFlight_chain s.ore q none
  refine ⟨_, hexec, complete_orderEnded h, ?_, fun p hp => ?_, ?_, ?_, ?_, ?_⟩
  · rw [hore, inFlight_setFlight, if_pos rfl]
  · rw [hore, inFlight_setFlight, if_neg hp]
  · rw [hore, hcursor]
  · rw [hore, hchain]
  · rw [hore, hbehind]
  · exact State.eq_of_fields

/-! ### The first checks (R13) -/

/-- An order that ends at once, with nothing else done. -/
structure EndedAtOnce (cell : BitVec 6) (r : Result) (detail : List Word) (s : State)
    (o : Host.Outcome State Fault Refusal) : Prop where
  ended : ∃ t, o = .next t ∧ OrderEnded cell r detail [] s t ∧ { t with atc := s.atc, xm := s.xm } = s

theorem whenRunning_endedAtOnce {f : State → State} (hs : s.isRunning = true)
    (hf : f s = endCell cell r detail s) : EndedAtOnce cell r detail s (whenRunning f s) :=
  ⟨_, (whenRunning_of_running hs f).trans (congrArg _ hf), endCell_orderEnded cell r detail s,
    endCell_rest cell r detail s⟩

theorem admitIf_admitted {b : Bool} (h : b = true) (cell : BitVec 6) (f : State → State) (s : State) :
    admitIf b cell f s = f s := if_pos h

theorem admitIf_refused {b : Bool} (h : ¬b = true) (cell : BitVec 6) (f : State → State) (s : State) :
    admitIf b cell f s = endCell cell .wrongMode [] s := if_neg h

theorem handOver_busy {q : Resource} (h : s.ore.inFlight q ≠ none) (cell : BitVec 6)
    (check : Option (Result × List Word)) (start : State → State) :
    handOver q cell check start s = endCell cell .busy [] s :=
  if_pos (Option.isSome_iff_ne_none.2 h)

theorem handOver_refused {q : Resource} (h : s.ore.inFlight q = none) (cell : BitVec 6)
    (start : State → State) (code : Result) (detail : List Word) :
    handOver q cell (some (code, detail)) start s = endCell cell code detail s := by
  simp only [handOver, h, Option.isSome_none, Bool.false_eq_true, if_false]

theorem handOver_started {q : Resource} (h : s.ore.inFlight q = none) (cell : BitVec 6)
    (start : State → State) :
    handOver q cell none start s = start (s.setOre (s.ore.setFlight q (some cell))) := by
  simp only [handOver, h, Option.isSome_none, Bool.false_eq_true, if_false]

theorem started_iff : s.started = true ↔ s.dmc.mode ≠ .starting := by simp [State.started]

theorem readyStill_iff : s.readyStill = true ↔ s.dmc.mode = .ready ∧ s.standstill = true := by
  simp [State.readyStill]

/-- READY, or STANDBY with the link kept: where the orders over the link are admitted. -/
theorem linked_iff : (s.dmc.mode == .ready || s.standbyLinked) = true ↔
    s.dmc.mode = .ready ∨ s.dmc.mode = .standby ∧ s.linkKept = true := by
  simp [State.standbyLinked]

theorem testAdmitted_iff : (s.readyStill || s.dmc.mode == .standby) = true ↔
    s.dmc.mode = .ready ∧ s.standstill = true ∨ s.dmc.mode = .standby := by
  simp [State.readyStill]

theorem calibrateAdmitted_iff :
    ((s.dmc.mode == .ready || s.standbyLinked) && s.standstill) = true ↔
      (s.dmc.mode = .ready ∨ s.dmc.mode = .standby ∧ s.linkKept = true) ∧ s.standstill = true := by
  rw [Bool.and_eq_true, linked_iff]

theorem standby_iff : (s.dmc.mode == .standby) = true ↔ s.dmc.mode = .standby := beq_iff_eq

theorem idle_iff (o : Ore) :
    o.idle = true ↔ o.grid = none ∧ o.steer = none ∧ o.enroll = none := by
  simp [Ore.idle, and_assoc]

theorem decideEnterStandby_refused (h : ¬(s.dmc.mode = .ready ∧ s.standstill = true))
    (l b : Word) : decideEnterStandby cell l b s = endCell cell .wrongMode [] s := by
  unfold decideEnterStandby
  exact admitIf_refused (mt readyStill_iff.1 h) _ _ _

/-- An order outside its allowed-in entry ends WRONG_MODE (section 1.6). -/
theorem order_wrongMode {c : Instr} (hs : s.isRunning = true)
    (h : s.dmc.mode = .starting ∧ ((∃ f v k, c = .setLimits cell f v k) ∨ c = .loadEnvelope cell) ∨
      ¬(s.dmc.mode = .ready ∧ s.standstill = true) ∧ (∃ l b, c = .enterStandby cell l b) ∨
      s.dmc.mode ≠ .standby ∧ (c = .leaveStandby cell ∨ c = .applyConfig cell) ∨
      ¬(s.dmc.mode = .ready ∧ s.standstill = true) ∧ s.dmc.mode ≠ .standby ∧
        (∃ b d n, c = .gridTest cell b d n) ∨
      ¬((s.dmc.mode = .ready ∨ s.dmc.mode = .standby ∧ s.linkKept = true) ∧ s.standstill = true) ∧
        c = .steerCalibrate cell ∨
      ¬(s.dmc.mode = .ready ∨ s.dmc.mode = .standby ∧ s.linkKept = true) ∧ c = .rollCall cell) :
    EndedAtOnce cell .wrongMode [] s (exec c s) := by
  rcases h with ⟨h, ⟨f, v, k, rfl⟩ | rfl⟩ | ⟨h, l, b, rfl⟩ | ⟨h, rfl | rfl⟩ | ⟨h, h', b, d, n, rfl⟩ |
    ⟨h, rfl⟩ | ⟨h, rfl⟩
  · exact whenRunning_endedAtOnce (f := decideSetLimits cell f v k) hs
      (admitIf_refused (mt started_iff.1 (not_not.2 h)) _ _ _)
  · exact whenRunning_endedAtOnce (f := decideLoadEnvelope cell) hs
      (admitIf_refused (mt started_iff.1 (not_not.2 h)) _ _ _)
  · exact whenRunning_endedAtOnce (f := decideEnterStandby cell l b) hs
      (decideEnterStandby_refused h l b)
  · exact whenRunning_endedAtOnce (f := decideLeaveStandby cell) hs
      (admitIf_refused (mt standby_iff.1 h) _ _ _)
  · exact whenRunning_endedAtOnce (f := decideApplyConfig cell) hs
      (admitIf_refused (mt standby_iff.1 h) _ _ _)
  · exact whenRunning_endedAtOnce (f := decideGridTest cell b d n) hs
      (admitIf_refused (mt testAdmitted_iff.1 fun k => k.elim h h') _ _ _)
  · exact whenRunning_endedAtOnce (f := decideSteerCalibrate cell) hs
      (admitIf_refused (mt calibrateAdmitted_iff.1 h) _ _ _)
  · exact whenRunning_endedAtOnce (f := decideRollCall cell) hs
      (admitIf_refused (mt linked_iff.1 h) _ _ _)

/-- A lasting order whose resource is held ends BUSY (R13). -/
theorem order_busy {c : Instr} (hs : s.isRunning = true)
    (h : (s.dmc.mode = .ready ∧ s.standstill = true ∨ s.dmc.mode = .standby) ∧ s.ore.grid ≠ none ∧
        (∃ b d n, c = .gridTest cell b d n) ∨
      (s.dmc.mode = .ready ∨ s.dmc.mode = .standby ∧ s.linkKept = true) ∧ s.standstill = true ∧
        s.ore.steer ≠ none ∧ c = .steerCalibrate cell ∨
      (s.dmc.mode = .ready ∨ s.dmc.mode = .standby ∧ s.linkKept = true) ∧ s.ore.enroll ≠ none ∧
        c = .rollCall cell) :
    EndedAtOnce cell .busy [] s (exec c s) := by
  rcases h with ⟨h, hheld, b, d, n, rfl⟩ | ⟨h, hstill, hheld, rfl⟩ | ⟨h, hheld, rfl⟩
  · exact whenRunning_endedAtOnce (f := decideGridTest cell b d n) hs
      ((admitIf_admitted (testAdmitted_iff.2 h) _ _ _).trans
        (handOver_busy (q := .grid) hheld cell _ _))
  · exact whenRunning_endedAtOnce (f := decideSteerCalibrate cell) hs
      ((admitIf_admitted (calibrateAdmitted_iff.2 ⟨h, hstill⟩) _ _ _).trans
        (handOver_busy (q := .steer) hheld cell _ _))
  · exact whenRunning_endedAtOnce (f := decideRollCall cell) hs
      ((admitIf_admitted (linked_iff.2 h) _ _ _).trans (handOver_busy (q := .enroll) hheld cell _ _))

/-- An APPLY_CONFIG with a lasting order in flight ends CONFLICT (R13). -/
theorem order_conflict (hs : s.isRunning = true) (hmode : s.dmc.mode = .standby)
    (hheld : ¬(s.ore.grid = none ∧ s.ore.steer = none ∧ s.ore.enroll = none)) :
    EndedAtOnce cell .conflict [] s (exec (.applyConfig cell) s) :=
  whenRunning_endedAtOnce (f := decideApplyConfig cell) hs
    ((admitIf_admitted (standby_iff.2 hmode) _ _ _).trans
      (if_pos (by rw [Bool.not_eq_true', ← Bool.not_eq_true]; exact mt (idle_iff _).1 hheld)))

/-- Settles O23: each of the three first checks ends the order at once. -/
theorem ordersTurnedAway : Obligations.OrdersTurnedAway := by
  rintro c cell r s hs (⟨rfl, h⟩ | ⟨rfl, h⟩ | ⟨rfl, hmode, hheld, rfl⟩)
  · exact (order_wrongMode hs h).ended
  · exact (order_busy hs h).ended
  · exact (order_conflict hs hmode hheld).ended

/-! ### SET_LIMITS (R100) -/

theorem limitDetail_eq (forward reverse cap : Word) : limitDetail forward reverse cap =
    [(if 640 < forward.toNat then 1 else 0) + (if 200 < reverse.toNat then 2 else 0) +
        (if 5000 < cap.toNat then 4 else 0),
      natWord (min forward.toNat 640), natWord (min reverse.toNat 200),
      natWord (min cap.toNat 5000)] := by
  unfold limitDetail
  by_cases hf : 640 < forward.toNat <;> by_cases hr : 200 < reverse.toNat <;>
    by_cases hc : 5000 < cap.toNat <;> simp only [hf, hr, hc, decide_true, decide_false, if_true,
      if_false] <;> rfl

/-- Settles O24: the limits are replaced and the order ends with its detail. -/
theorem limitsSet : Obligations.LimitsSet := by
  intro cell forward reverse cap s hs hmode
  have hexec : exec (.setLimits cell forward reverse cap) s = .next (endCell cell .ok
      (limitDetail forward reverse cap) (setLimitValues forward reverse cap s)) :=
    (whenRunning_of_running hs (decideSetLimits cell forward reverse cap)).trans
      (congrArg _ (admitIf_admitted (started_iff.2 hmode) _ _ _))
  have htqa : (endCell cell .ok (limitDetail forward reverse cap)
      (setLimitValues forward reverse cap s)).tqa = _ := (endCell_frame ..).2.2.2.2.2.2.2.2.2.1
  refine ⟨_, hexec, htqa, ?_, ?_⟩
  · have hended : OrderEnded cell .ok (limitDetail forward reverse cap) [] s _ :=
      endCell_ended_after (s := s) (t := setLimitValues forward reverse cap s) rfl rfl
        (fun _ _ => rfl) rfl cell .ok _
    convert hended using 1
    rw [htqa]
    exact (limitDetail_eq forward reverse cap).symm
  · exact State.eq_of_fields (tqa := rfl)

/-! ### LOAD_ENVELOPE (R130) -/

/-- The check of an entry of a table of 48 entries, none when it passes. -/
theorem envelopeFault_eq {table : List Nat} {e : Nat → Nat} (h : ∀ j < 48, table.getD j 0 = e j)
    {i : Nat} (hi : i < 48) :
    envelopeFault table i = if envelopeCheck e i = 0 then none else some (envelopeCheck e i) := by
  unfold envelopeFault envelopeCheck
  simp only [h i hi, h (i - 1) (by omega), h (i - 8) (by omega), Bool.or_eq_true, Bool.and_eq_true,
    decide_eq_true_eq]
  split
  · rfl
  · split
    · rfl
    · split <;> rfl

theorem envelopeRefusal_none {table : List Nat} {e : Nat → Nat}
    (h : ∀ j < 48, table.getD j 0 = e j) (hall : ∀ i < 48, envelopeCheck e i = 0) :
    envelopeRefusal table = none := by
  refine List.findSome?_eq_none_iff.2 fun i hi => ?_
  have hi := List.mem_range.1 hi
  rw [envelopeFault_eq h hi, if_pos (hall i hi), Option.map_none]

/-- The first entry that fails a check is the one refused (R130). -/
theorem envelopeRefusal_some {table : List Nat} {e : Nat → Nat}
    (h : ∀ j < 48, table.getD j 0 = e j) {i : Nat} (hi : i < 48)
    (hbefore : ∀ j < i, envelopeCheck e j = 0) (hfails : envelopeCheck e i ≠ 0) :
    envelopeRefusal table =
      some [natWord (i / 8), natWord (i % 8), natWord (envelopeCheck e i)] := by
  refine List.findSome?_eq_some_iff.2
    ⟨List.range i, i, (List.range (47 - i)).map fun j => i + (j + 1), ?_, ?_, fun j hj => ?_⟩
  · rw [show 48 = i + (47 - i + 1) by omega, List.range_add, List.range_succ_eq_map]
    simp [Function.comp_def]
  · rw [envelopeFault_eq h hi, if_neg hfails, Option.map_some]
  · have hj := List.mem_range.1 hj
    rw [envelopeFault_eq h (by omega), if_pos (hbefore j hj), Option.map_none]

theorem stagedEnvelope_getD (s : State) {j : Nat} (hj : j < 48) :
    s.stagedEnvelope.getD j 0 = (s.word (0x0600 + 2 * j)).toNat := by
  rw [State.stagedEnvelope, List.getD_eq_getElem _ _ (by simpa using hj)]
  simp

theorem natWord_toNat (w : Word) : natWord w.toNat = w := by
  apply BitVec.eq_of_toNat_eq
  have := w.isLt
  simp only [natWord, BitVec.toNat_ofNat]
  omega

/-- The image of a table of 48 entries. -/
theorem putEnvelopeImage_word (hlen : s.rgc.table.length = 48) {i : Nat} (hi : i < 48) :
    (putEnvelopeImage s).word (0x1C80 + 2 * i) = natWord (s.rgc.table.getD i 0) := by
  refine (put_word (by simp; omega)).trans ?_
  rw [List.getElem_take, List.getElem_append_left (by simp [hlen, hi]), List.getElem_map,
    List.getD_eq_getElem _ _ (by omega)]

theorem setEnvelope_same (table : List Nat) (s : State) :
    SameOutside [(0x1C80, 96)] s (setEnvelope table s) := fun x hx =>
  put_byte_outside (by
    have := hx (0x1C80, 96) (by simp)
    simp only [List.length_take, List.length_append, List.length_replicate, List.length_map]
    omega)

theorem decideLoadEnvelope_eq (h : s.dmc.mode ≠ .starting) (cell : BitVec 6) :
    decideLoadEnvelope cell s = match envelopeRefusal s.stagedEnvelope with
      | some detail => endCell cell .badArgument detail s
      | none => endCell cell .ok [] (setEnvelope s.stagedEnvelope s) := by
  unfold decideLoadEnvelope
  exact admitIf_admitted (started_iff.2 h) _ _ _

/-- Settles O25: the staged table passes every check, or the first entry that fails is named. -/
theorem envelopeLoaded : Obligations.EnvelopeLoaded := by
  intro cell s e hs hmode he
  have hexec : exec (.loadEnvelope cell) s = .next (decideLoadEnvelope cell s) :=
    whenRunning_of_running hs _
  have hstaged : ∀ j < 48, s.stagedEnvelope.getD j 0 = e j := fun j hj => by
    rw [stagedEnvelope_getD s hj, he]
  refine ⟨fun hall => ?_, fun i hi hbefore hfails => ?_⟩
  · rw [decideLoadEnvelope_eq hmode, envelopeRefusal_none hstaged hall] at hexec
    have hmirror : (setEnvelope s.stagedEnvelope s).word 0x0022 = s.word 0x0022 :=
      put_word_outside (.inl (by decide))
    have hended : OrderEnded cell .ok [] [(0x1C80, 96)] s _ :=
      endCell_ended_after (s := s) (t := setEnvelope s.stagedEnvelope s) rfl rfl
        (setEnvelope_same _ s) hmirror cell .ok []
    refine ⟨_, hexec, ?_, fun i hi => ?_, hended,
      State.eq_of_fields (rgc := by simp [setEnvelope])⟩
    · simp only [endCell_frame, setEnvelope]
      exact List.map_congr_left fun i _ => (he i).symm
    · rw [endCell_word_outside _ _ _ (by omega)]
      refine (putEnvelopeImage_word (s := s.setRgc _) (by simp [State.stagedEnvelope]) hi).trans ?_
      exact (congrArg natWord (stagedEnvelope_getD s hi)).trans (natWord_toNat _)
  · rw [decideLoadEnvelope_eq hmode, envelopeRefusal_some hstaged hi hbefore hfails] at hexec
    exact ⟨_, hexec, endCell_orderEnded cell _ _ s, endCell_rest cell _ _ s⟩

end

end Sys2Proof.Machine
end

section
/-! The chain scan (R11, R12): no order that the scan decides moves the cursor, the chain state or the
behind flag, so that each take is followed by the cell's link as it stands. -/

namespace Sys2Proof.Machine

section

/-- Where the chain stands: its cursor, its state and its behind flag. -/
def Ore.place (o : Ore) : BitVec 6 × Chain × Bool := (o.cursor, o.chain, o.behind)

@[simp] theorem Ore.setFlight_place (o : Ore) (r : Resource) (c : Option (BitVec 6)) :
    (o.setFlight r c).place = o.place := by
  cases r <;> rfl

@[simp] theorem freeResource_place (r : Resource) (s : State) :
    (freeResource r s).ore.place = s.ore.place := by
  simp [freeResource]

/-! ### The owners' completions -/

@[simp] theorem complete_place (r : Resource) (cell : BitVec 6) (result : Result) (detail : List Word)
    (s : State) :
    (complete r cell result detail s).ore.place = s.ore.place := by
  simp only [complete]
  (repeat' split) <;> simp

@[simp] theorem endCalibration_place (result : Result) (shown : CalResult) (detail : List Word)
    (s : State) :
    (endCalibration result shown detail s).ore.place = s.ore.place := by
  simp [endCalibration]

@[simp] theorem endCalibrationIf_place (b : Bool) (result : Result) (shown : CalResult)
    (s : State) :
    (endCalibrationIf b result shown s).ore.place = s.ore.place := by
  simp only [endCalibrationIf]
  (repeat' split) <;> simp

@[simp] theorem sauChange_place (s : State) : (sauChange s).ore.place = s.ore.place := by
  simp only [sauChange, runAll]
  (repeat' split) <;> simp

@[simp] theorem stcModeChange_place (s : State) : (stcModeChange s).ore.place = s.ore.place := by
  simp [stcModeChange, runAll]

@[simp] theorem nextBank_place (s : State) : (nextBank s).ore.place = s.ore.place := by
  simp only [nextBank]
  (repeat' split) <;> simp

@[simp] theorem abortTestIf_place (b : Bool) (s : State) :
    (abortTestIf b s).ore.place = s.ore.place := by
  simp only [abortTestIf]
  (repeat' split) <;> simp

@[simp] theorem skipCurrent_place (s : State) : (skipCurrent s).ore.place = s.ore.place := by
  simp only [skipCurrent]
  (repeat' split) <;> simp

@[simp] theorem startTest_place (cell : BitVec 6) (banks duty count : Word) (s : State) :
    (startTest cell banks duty count s).ore.place = s.ore.place := by
  simp [startTest]

@[simp] theorem followBanks_place (before : PerBank Bool) (s : State) :
    (followBanks before s).ore.place = s.ore.place := by
  simp only [followBanks, runAll, forBanks]
  (repeat' split) <;> simp

@[simp] theorem rgcExclusion_place (before : PerBank Bool) (s : State) :
    (rgcExclusion before s).ore.place = s.ore.place := by
  simp only [rgcExclusion]
  (repeat' split) <;> simp

@[simp] theorem rgcModeChange_place (s : State) : (rgcModeChange s).ore.place = s.ore.place := by
  simp [rgcModeChange, runAll]

/-! ### The wheel link -/

@[simp] theorem changeUnit_place (u : UnitId) (r : UnitRec) (s : State) :
    (changeUnit u r s).ore.place = s.ore.place := by
  simp only [changeUnit]
  (repeat' split) <;> simp

@[simp] theorem takeConfigured_place (u : UnitId) (s : State) :
    (takeConfigured u s).ore.place = s.ore.place := by
  simp only [takeConfigured]
  (repeat' split) <;> simp

@[simp] theorem nextTarget_place (s : State) : (nextTarget s).ore.place = s.ore.place := by
  simp only [nextTarget]
  (repeat' split) <;> simp

@[simp] theorem abortRollCall_place (s : State) : (abortRollCall s).ore.place = s.ore.place := by
  simp only [abortRollCall]
  (repeat' split) <;> simp

@[simp] theorem startRollCallOrder_place (cell : BitVec 6) (s : State) :
    (startRollCallOrder cell s).ore.place = s.ore.place := by
  simp [startRollCallOrder]

@[simp] theorem openRound_place (s : State) : (openRound s).ore.place = s.ore.place := by
  simp [openRound, forUnits, forWheels]

@[simp] theorem takeDueRound_place (s : State) : (takeDueRound s).ore.place = s.ore.place := by
  simp only [takeDueRound]
  (repeat' split) <;> simp

@[simp] theorem settleRound_place (s : State) : (settleRound s).ore.place = s.ore.place := by
  simp [settleRound]

@[simp] theorem beginRollCall_place (s : State) : (beginRollCall s).ore.place = s.ore.place := by
  simp [beginRollCall, forUnits, forWheels]

@[simp] theorem takeRollCall_place (s : State) : (takeRollCall s).ore.place = s.ore.place := by
  simp only [takeRollCall]
  (repeat' split) <;> simp

@[simp] theorem startRollCall_place (s : State) : (startRollCall s).ore.place = s.ore.place := by
  simp [startRollCall]

@[simp] theorem wlcModeChange_place (s : State) : (wlcModeChange s).ore.place = s.ore.place := by
  simp only [wlcModeChange]
  (repeat' split) <;> simp

@[simp] theorem enterEnroll_place (s : State) : (enterEnroll s).ore.place = s.ore.place := by
  simp [enterEnroll]

/-! ### The mode and the deliveries -/

@[simp] theorem changeMode_place (m : Mode) (f : Dmc → Dmc) (s : State) :
    (changeMode m f s).ore.place = s.ore.place := by
  simp only [changeMode, runAll]
  (repeat' split) <;> simp

@[simp] theorem enterTripped_place (s : State) : (enterTripped s).ore.place = s.ore.place := by
  simp [enterTripped]

@[simp] theorem enterSafeStop_place (s : State) : (enterSafeStop s).ore.place = s.ore.place := by
  simp [enterSafeStop]

@[simp] theorem enterReady_place (s : State) : (enterReady s).ore.place = s.ore.place := by
  simp only [enterReady]
  (repeat' split) <;> simp

@[simp] theorem standbyToStarting_place (s : State) :
    (standbyToStarting s).ore.place = s.ore.place := by
  simp [standbyToStarting]

@[simp] theorem leaveStandbySteps_place (s : State) :
    (leaveStandbySteps s).ore.place = s.ore.place := by
  simp only [leaveStandbySteps]
  (repeat' split) <;> simp

@[simp] theorem enterStandbySteps_place (v : Variant) (s : State) :
    (enterStandbySteps v s).ore.place = s.ore.place := by
  simp [enterStandbySteps]

@[simp] theorem severityChange_place (s : State) : (severityChange s).ore.place = s.ore.place := by
  simp only [severityChange]
  (repeat' split) <;> simp

@[simp] theorem returnCheck_place (s : State) : (returnCheck s).ore.place = s.ore.place := by
  simp only [returnCheck]
  (repeat' split) <;> simp

@[simp] theorem clearCompletion_place (s : State) :
    (clearCompletion s).ore.place = s.ore.place := by
  simp only [clearCompletion]
  (repeat' split) <;> simp

@[simp] theorem deliverSets_place (s : State) : (deliverSets s).ore.place = s.ore.place := by
  simp only [deliverSets]
  (repeat' split) <;> simp

@[simp] theorem deliverSummary_place (s : State) : (deliverSummary s).ore.place = s.ore.place := by
  simp [deliverSummary]

@[simp] theorem deliver_place (s : State) : (deliver s).ore.place = s.ore.place := by
  simp only [deliver]
  (repeat' split) <;> simp

@[simp] theorem settleBy_place (n : Nat) (s : State) : (settleBy n s).ore.place = s.ore.place := by
  induction n generalizing s with
  | zero => simp [settleBy]
  | succ n ih =>
    simp only [settleBy]
    split <;> simp [ih]

@[simp] theorem settle_place (s : State) : (settle s).ore.place = s.ore.place := by
  simp [settle]

/-! ### The orders -/

@[simp] theorem decideClearFaults_place (cell : BitVec 6) (forget : Word) (s : State) :
    (decideClearFaults cell forget s).ore.place = s.ore.place := by
  simp [decideClearFaults]

@[simp] theorem decideEnterStandby_place (cell : BitVec 6) (keepLink keepBlower : Word)
    (s : State) :
    (decideEnterStandby cell keepLink keepBlower s).ore.place = s.ore.place := by
  simp only [decideEnterStandby, admitIf]
  (repeat' split) <;> simp

@[simp] theorem decideLeaveStandby_place (cell : BitVec 6) (s : State) :
    (decideLeaveStandby cell s).ore.place = s.ore.place := by
  simp only [decideLeaveStandby, admitIf]
  (repeat' split) <;> simp

@[simp] theorem acceptApplied_place (cell : BitVec 6) (p : Params) (s : State) :
    (acceptApplied cell p s).ore.place = s.ore.place := by
  simp [acceptApplied]

@[simp] theorem decideApplyConfig_place (cell : BitVec 6) (s : State) :
    (decideApplyConfig cell s).ore.place = s.ore.place := by
  simp only [decideApplyConfig, admitIf]
  (repeat' split) <;> simp

@[simp] theorem decideGridTest_place (cell : BitVec 6) (banks duty count : Word) (s : State) :
    (decideGridTest cell banks duty count s).ore.place = s.ore.place := by
  simp only [decideGridTest, admitIf, handOver]
  (repeat' split) <;> simp

@[simp] theorem decideSteerCalibrate_place (cell : BitVec 6) (s : State) :
    (decideSteerCalibrate cell s).ore.place = s.ore.place := by
  simp only [decideSteerCalibrate, admitIf, handOver]
  (repeat' split) <;> simp

@[simp] theorem decideRollCall_place (cell : BitVec 6) (s : State) :
    (decideRollCall cell s).ore.place = s.ore.place := by
  simp only [decideRollCall, admitIf, handOver]
  (repeat' split) <;> simp

@[simp] theorem stopOwner_place (r : Resource) (s : State) :
    (stopOwner r s).ore.place = s.ore.place := by
  simp only [stopOwner]
  (repeat' split) <;> simp

@[simp] theorem decideAbort_place (cell : BitVec 6) (index : Word) (s : State) :
    (decideAbort cell index s).ore.place = s.ore.place := by
  simp only [decideAbort]
  (repeat' split) <;> simp

@[simp] theorem decideOrder_place (cell : BitVec 6) (s : State) :
    (decideOrder cell s).ore.place = s.ore.place := by
  simp only [decideOrder]
  (repeat' split) <;> simp

end

section
variable {s u : State} {cell : BitVec 6}

/-! ### The cell that is taken (R12) -/

theorem markTaken_same (cell : BitVec 6) (s : State) :
    SameOutside [(cellBase cell, 2), (cellBase cell + 0x32, 4)] s (markTaken cell s) := by
  intro x hx
  have hstate := hx (cellBase cell, 2) (by simp)
  have hstamp := hx (cellBase cell + 0x32, 4) (by simp)
  exact (put_byte_outside (by simpa [longWords] using hstamp)).trans
    (put_byte_outside (by simpa using hstate))

theorem taking_same (s : State) : SameOutside
    [(0x001C, 6), (cellBase s.ore.cursor, 2), (cellBase s.ore.cursor + 0x32, 4)] s s.taking :=
  ((markTaken_same s.ore.cursor s).mono fun _ => List.mem_cons_of_mem _).trans
    ((setChain_same _ _).mono fun _ h => List.mem_cons.2 (.inl (List.mem_singleton.1 h)))

/-- The words of a cell stand outside the header's chain words. -/
theorem SameOutside.cellWord (h : SameOutside [(0x001C, 6)] s u) (cell : BitVec 6) (k : Nat) :
    u.word (cellBase cell + k) = s.word (cellBase cell + k) := by
  have hb : ∀ x, cellBase cell ≤ x → u.xm.byte x = s.xm.byte x := fun x hx => h x fun r hr => by
    simp only [List.mem_singleton] at hr
    subst hr
    simp only [cellBase] at hx ⊢
    omega
  simp only [State.word, Memory.word, hb (cellBase cell + k) (by omega),
    hb (cellBase cell + k + 1) (by omega)]

theorem SameOutside.link (h : SameOutside [(0x001C, 6)] s u) (cell : BitVec 6) :
    u.link cell = s.link cell := by
  simp only [State.link, h.cellWord]

/-- Between its state word and its stamps a cell stays as it was when it is taken. -/
theorem taking_word {k : Nat} (h : 2 ≤ k) (h' : k + 2 ≤ 0x32) :
    s.taking.word (cellBase s.ore.cursor + k) = s.word (cellBase s.ore.cursor + k) := by
  have hb : ∀ x, cellBase s.ore.cursor + 2 ≤ x → x < cellBase s.ore.cursor + 0x32 →
      s.taking.xm.byte x = s.xm.byte x := fun x hx hx' => taking_same s x fun r hr => by
    simp only [List.mem_cons, List.not_mem_nil, or_false] at hr
    rcases hr with rfl | rfl | rfl <;> simp only [cellBase] at hx hx' ⊢ <;> omega
  simp only [State.word, Memory.word, hb (cellBase s.ore.cursor + k) (by omega) (by omega),
    hb (cellBase s.ore.cursor + k + 1) (by omega) (by omega)]

theorem taking_state : s.taking.word (cellBase s.ore.cursor) = 2 := by
  refine ((setChain_same _ _).cellWord s.ore.cursor 0).trans ?_
  exact (put_word_outside (.inl (by omega))).trans (put_word_first _ _ _ _)

theorem taking_stamp : s.taking.word (cellBase s.ore.cursor + 0x32) = s.clock.setWidth 16 ∧
    s.taking.word (cellBase s.ore.cursor + 0x34) = s.clock.extractLsb' 16 16 := by
  have hstamp := put_longWords (cellBase s.ore.cursor + 0x32) s.clock (put (cellBase s.ore.cursor) [2] s)
  exact ⟨((setChain_same _ _).cellWord s.ore.cursor 0x32).trans hstamp.1,
    ((setChain_same _ _).cellWord s.ore.cursor 0x34).trans hstamp.2⟩

theorem taking_rest (s : State) : { s.taking with ore := s.ore, xm := s.xm } = s := by
  unfold State.taking
  exact State.eq_of_fields

theorem taking_ore (s : State) : s.taking.ore = { s.ore with chain := .running } := setChain_ore _ _

theorem taking_running (h : s.isRunning = true) : s.taking.isRunning = true := by
  simpa [State.isRunning, State.taking] using h

/-! ### The order that is decided (R13) -/

/-- The row of an order's kind is its decision, in a state with the same kind and arguments. -/
theorem decideOrder_of_row (hu : u.isRunning = true)
    (hw : ∀ k, 2 ≤ k → k + 2 ≤ 0x32 → u.word (cellBase cell + k) = s.word (cellBase cell + k)) :
    match s.orderRow cell with
    | some c => exec c u = .next (decideOrder cell u)
    | none => decideOrder cell u = endCell cell .badKind [] u := by
  have harg (i : Nat) (hi : i < 3) : u.cellArg cell i = s.word (cellBase cell + 0x08 + 2 * i) := by
    have := hw (0x08 + 2 * i) (by omega) (by omega)
    rw [← Nat.add_assoc] at this
    exact this
  unfold State.orderRow decideOrder
  rw [hw 2 (by omega) (by omega)]
  simp only [harg 0 (by omega), harg 1 (by omega), harg 2 (by omega)]
  generalize (s.word (cellBase cell + 2)).toNat = kind
  match kind with
  | 1 => exact whenRunning_of_running hu _
  | 2 => exact whenRunning_of_running hu _
  | 3 => exact whenRunning_of_running hu _
  | 4 => exact whenRunning_of_running hu _
  | 5 => exact whenRunning_of_running hu _
  | 6 => exact whenRunning_of_running hu _
  | 7 => exact whenRunning_of_running hu _
  | 8 => exact whenRunning_of_running hu _
  | 9 => exact whenRunning_of_running hu _
  | 10 => exact whenRunning_of_running hu _
  | 0 => rfl
  | n + 11 => rfl

/-- The state in which a scan has decided the cursor cell's order. -/
def State.taken (s : State) : State := decideOrder s.ore.cursor s.taking

theorem decided_eq (hs : s.isRunning = true) : s.decided = some s.taken := by
  have h := decideOrder_of_row (cell := s.ore.cursor) (taking_running hs) fun k => taking_word
  unfold State.decided State.taken
  cases hrow : s.orderRow s.ore.cursor with
  | none =>
    rw [hrow] at h
    exact congrArg some h.symm
  | some c =>
    rw [hrow] at h
    simp only [h]

theorem taken_of_exec {c : Instr} (hs : s.isRunning = true)
    (hrow : s.orderRow s.ore.cursor = some c) (hexec : exec c s.taking = .next u) : u = s.taken := by
  have h := decideOrder_of_row (cell := s.ore.cursor) (taking_running hs) fun k => taking_word
  rw [hrow] at h
  exact (Host.Outcome.next.inj (h.symm.trans hexec)).symm

theorem taken_place (s : State) : s.taken.ore.place = (s.ore.cursor, .running, s.ore.behind) := by
  rw [State.taken, decideOrder_place, taking_ore]
  rfl

theorem taken_running (h : s.isRunning = true) : s.taken.isRunning = true := by
  have := taking_running h
  simpa [State.isRunning, State.taken] using this

/-! ### The halt (R11, R12) -/

theorem haltChain_ore (s : State) : (haltChain s).ore = { s.ore with chain := .halted } := by
  simp [haltChain]

theorem haltChain_pending (s : State) (c : Cls) :
    c.isIn (haltChain s).atc.pending = (c.isIn s.atc.pending || c == .chainHalt) := by
  have h := (raise_raised .chainHalt (setChain { s.ore with chain := .halted } s)).pending c
  rw [List.contains_cons, List.contains_nil, Bool.or_false] at h
  rw [haltChain, h]
  simp

theorem haltChain_same (s : State) :
    SameOutside [(0x001C, 6), pendingRegion] s (haltChain s) :=
  ((setChain_same _ s).mono fun _ h => List.mem_cons.2 (.inl (List.mem_singleton.1 h))).trans
    ((raise_same _ _).mono fun _ => List.mem_cons_of_mem _)

theorem haltChain_rest (s : State) :
    { haltChain s with ore := s.ore, xm := s.xm, atc := s.atc } = s := by
  unfold haltChain
  exact State.eq_of_fields

/-! ### The steps of a scan (R11) -/

/-- Fuel beyond two steps for each take, and one for a move past a decided cell, changes nothing. -/
theorem scanSteps_fuel {n m takes : Nat} (htakes : 1 ≤ takes)
    (hn : 2 * takes + s.ore.behind.toNat ≤ n) (hm : 2 * takes + s.ore.behind.toNat ≤ m) :
    scanSteps n takes s = scanSteps m takes s := by
  induction n generalizing m takes s with
  | zero => omega
  | succ n ih =>
    obtain ⟨m, rfl⟩ : ∃ k, m = k + 1 := ⟨m - 1, by omega⟩
    simp only [scanSteps]
    cases hbehind : s.ore.behind with
    | true =>
      rw [hbehind] at hn hm
      simp only [Bool.toNat_true] at hn hm
      cases hlink : s.link s.ore.cursor with
      | finish => rfl
      | bad => rfl
      | cell c =>
        refine ih htakes ?_ ?_ <;> simp only [setChain_ore, Bool.toNat_false] <;> omega
    | false =>
      rw [hbehind] at hn hm
      simp only [Bool.toNat_false] at hn hm
      simp only [Bool.false_eq_true, if_false]
      split
      · generalize followLink s.ore.cursor (takeCell s.ore.cursor s) = r
        have hle := r.1.ore.behind.toNat_le
        by_cases hmore : (r.2 && decide (1 < takes)) = true
        · have hone : 1 < takes := of_decide_eq_true (Bool.and_eq_true_iff.1 hmore).2
          rw [if_pos hmore, if_pos hmore]
          exact ih (by omega) (by omega) (by omega)
        · rw [if_neg hmore, if_neg hmore]
      · rfl

section
variable {n takes : Nat}

theorem scanSteps_behind_finish (hbehind : s.ore.behind = true)
    (hlink : s.link s.ore.cursor = .finish) : scanSteps (n + 1) takes s = waitChain s := by
  simp only [scanSteps, hbehind, if_true, hlink]

theorem scanSteps_behind_bad (hbehind : s.ore.behind = true)
    (hlink : s.link s.ore.cursor = .bad) : scanSteps (n + 1) takes s = haltChain s := by
  simp only [scanSteps, hbehind, if_true, hlink]

theorem scanSteps_behind_cell {c : BitVec 6} (hbehind : s.ore.behind = true)
    (hlink : s.link s.ore.cursor = .cell c) : scanSteps (n + 1) takes s =
      scanSteps n takes (setChain { s.ore with cursor := c, behind := false } s) := by
  simp only [scanSteps, hbehind, if_true, hlink]

theorem scanSteps_take (hbehind : s.ore.behind = false) (hcell : s.cellPosted s.ore.cursor = true) :
    scanSteps (n + 1) takes s =
      if (followLink s.ore.cursor s.taken).2 && decide (1 < takes)
      then scanSteps n (takes - 1) (followLink s.ore.cursor s.taken).1
      else (followLink s.ore.cursor s.taken).1 := by
  simp only [scanSteps, hbehind, Bool.false_eq_true, if_false, hcell, if_true]
  rfl

end

/-- A scan that has `takes` takes left. -/
def scanWith (takes : Nat) (s : State) : State := scanSteps 9 takes s

theorem scan_eq (h : s.ore.chain ≠ .halted) : scan s = scanWith 4 s := if_neg h

section
variable {takes : Nat}

theorem scanWith_idle (hbehind : s.ore.behind = false) (hcell : s.cellPosted s.ore.cursor = false) :
    scanWith takes s = waitChain s := scanSteps_of_not_posted 8 takes hbehind hcell

theorem scanWith_behind_finish (hbehind : s.ore.behind = true)
    (hlink : s.link s.ore.cursor = .finish) : scanWith takes s = waitChain s :=
  scanSteps_behind_finish hbehind hlink

theorem scanWith_behind_bad (hbehind : s.ore.behind = true)
    (hlink : s.link s.ore.cursor = .bad) : scanWith takes s = haltChain s :=
  scanSteps_behind_bad hbehind hlink

theorem scanWith_behind_cell (htakes : 1 ≤ takes) (hfour : takes ≤ 4) {c : BitVec 6}
    (hbehind : s.ore.behind = true) (hlink : s.link s.ore.cursor = .cell c) :
    scanWith takes s = scanWith takes (setChain { s.ore with cursor := c, behind := false } s) := by
  refine (scanSteps_behind_cell hbehind hlink).trans ?_
  refine scanSteps_fuel htakes ?_ ?_ <;> simp only [setChain_ore, Bool.toNat_false] <;> omega

/-- A take: the cell is decided, and the scan goes on behind its link while takes are left. -/
theorem scanWith_take (htakes : 1 ≤ takes) (hfour : takes ≤ 4) (hbehind : s.ore.behind = false)
    (hcell : s.cellPosted s.ore.cursor = true) :
    scanWith takes s = match s.taken.link s.ore.cursor with
      | .finish => if 1 < takes
          then scanWith (takes - 1) (setChain { s.taken.ore with behind := true } s.taken)
          else setChain { s.taken.ore with behind := true } s.taken
      | .cell c => if 1 < takes
          then scanWith (takes - 1) (setChain { s.taken.ore with cursor := c } s.taken)
          else setChain { s.taken.ore with cursor := c } s.taken
      | .bad => haltChain s.taken := by
  have hfuel (v : State) (hone : 1 < takes) :
      scanSteps 8 (takes - 1) v = scanWith (takes - 1) v := by
    have hle := v.ore.behind.toNat_le
    exact scanSteps_fuel (by omega) (by omega) (by omega)
  refine (scanSteps_take hbehind hcell).trans ?_
  rw [followLink]
  cases s.taken.link s.ore.cursor with
  | bad => rfl
  | finish =>
    by_cases hone : 1 < takes
    · simp only [hone, decide_true, Bool.and_self, if_true, hfuel]
    · simp only [hone, decide_false, Bool.and_false, Bool.false_eq_true, if_false]
  | cell c =>
    by_cases hone : 1 < takes
    · simp only [hone, decide_true, Bool.and_self, if_true, hfuel]
    · simp only [hone, decide_false, Bool.and_false, Bool.false_eq_true, if_false]

/-- Behind a cell whose link is END the scan waits, while takes are left. -/
theorem scanWith_finish (hone : 1 < takes) (hfour : takes ≤ 4) (hbehind : s.ore.behind = false)
    (hcell : s.cellPosted s.ore.cursor = true) (hlink : s.taken.link s.ore.cursor = .finish) :
    scanWith takes s = waitChain (setChain { s.taken.ore with behind := true } s.taken) := by
  have hcursor : s.taken.ore.cursor = s.ore.cursor := congrArg (·.1) (taken_place s)
  rw [scanWith_take (by omega) hfour hbehind hcell, hlink]
  refine (if_pos hone).trans (scanWith_behind_finish (by simp) ?_)
  rw [setChain_ore, (setChain_same _ _).link, hcursor, hlink]

theorem scanWith_bad (htakes : 1 ≤ takes) (hfour : takes ≤ 4) (hbehind : s.ore.behind = false)
    (hcell : s.cellPosted s.ore.cursor = true) (hlink : s.taken.link s.ore.cursor = .bad) :
    scanWith takes s = haltChain s.taken := by
  rw [scanWith_take htakes hfour hbehind hcell, hlink]

/-! ### Takes that go on -/

/-- A take that goes on at the linked cell. -/
structure TakesOn (s v : State) : Prop where
  chain : s.ore.chain ≠ .halted
  behind : s.ore.behind = false
  posted : s.cellPosted s.ore.cursor = true
  next : ∃ c, s.taken.link s.ore.cursor = .cell c ∧
    v = setChain { s.taken.ore with cursor := c } s.taken

variable {v : State}

theorem takesOn_of_takeOn (hs : s.isRunning = true) (h : s.takeOn = some v) : TakesOn s v := by
  unfold State.takeOn at h
  rw [decided_eq hs] at h
  split at h
  case isTrue hon =>
    obtain ⟨hchain, hbehind, hposted⟩ := hon
    refine ⟨hchain, hbehind, hposted, ?_⟩
    cases hlink : s.taken.link s.ore.cursor with
    | cell c =>
      simp only [hlink] at h
      exact ⟨c, rfl, (Option.some.inj h).symm⟩
    | finish => simp [hlink] at h
    | bad => simp [hlink] at h
  case isFalse => exact absurd h (by simp)

/-- A cell that is not followed by a take is not POSTED, the last one, or one with a bad link. -/
theorem takeOn_none_cases (hs : s.isRunning = true) (hchain : s.ore.chain ≠ .halted)
    (hbehind : s.ore.behind = false) (h : s.takeOn = none) : s.cellPosted s.ore.cursor = false ∨
      s.cellPosted s.ore.cursor = true ∧
        (s.taken.link s.ore.cursor = .finish ∨ s.taken.link s.ore.cursor = .bad) := by
  unfold State.takeOn at h
  rw [decided_eq hs] at h
  cases hposted : s.cellPosted s.ore.cursor with
  | false => exact .inl rfl
  | true =>
    refine .inr ⟨rfl, ?_⟩
    rw [if_pos ⟨hchain, hbehind, hposted⟩] at h
    cases hlink : s.taken.link s.ore.cursor with
    | cell c => simp [hlink] at h
    | finish => exact .inl rfl
    | bad => exact .inr rfl

theorem TakesOn.scanWith (h : TakesOn s v) (htakes : 1 ≤ takes) (hfour : takes ≤ 4) :
    scanWith takes s = if 1 < takes then scanWith (takes - 1) v else v := by
  obtain ⟨-, hbehind, hposted, c, hlink, rfl⟩ := h
  rw [scanWith_take htakes hfour hbehind hposted, hlink]

theorem TakesOn.running (h : TakesOn s v) (hs : s.isRunning = true) : v.isRunning = true := by
  obtain ⟨-, -, -, c, -, rfl⟩ := h
  simpa [State.isRunning] using taken_running hs

/-- The chain behind a take is RUNNING, at the linked cell. -/
theorem TakesOn.place (h : TakesOn s v) : v.ore.chain = .running ∧ v.ore.behind = false := by
  obtain ⟨-, hbehind, -, c, -, rfl⟩ := h
  have hplace := taken_place s
  rw [setChain_ore]
  exact ⟨congrArg (·.2.1) hplace, (congrArg (·.2.2) hplace).trans hbehind⟩

/-- Where no take goes on, the takes left beyond two do not matter. -/
theorem scanWith_of_takeOn_none (hone : 1 < takes) (hfour : takes ≤ 4) (hs : s.isRunning = true)
    (hchain : s.ore.chain ≠ .halted) (hbehind : s.ore.behind = false) (h : s.takeOn = none) :
    scanWith takes s = scanWith 4 s := by
  rcases takeOn_none_cases hs hchain hbehind h with hposted | ⟨hposted, hlink | hlink⟩
  · rw [scanWith_idle hbehind hposted, scanWith_idle hbehind hposted]
  · rw [scanWith_finish hone hfour hbehind hposted hlink,
      scanWith_finish (by omega) le_rfl hbehind hposted hlink]
  · rw [scanWith_bad (by omega) hfour hbehind hposted hlink,
      scanWith_bad (by omega) le_rfl hbehind hposted hlink]

end

/-! ### The command -/

theorem exec_chainScan (hs : s.isRunning = true) : exec .chainScan s = .next (scan s) :=
  whenRunning_of_running hs scan

theorem exec_chainScan_of (hs : s.isRunning = true) (hchain : s.ore.chain ≠ .halted) :
    exec .chainScan s = .next (scanWith 4 s) :=
  (exec_chainScan hs).trans (by rw [scan_eq hchain])

/-- What a wait leaves, seen from the state before the last change of the chain. -/
structure Waits (s : State) (o : Ore) (t : State) : Prop where
  ore : t.ore = o
  same : SameOutside [(0x001C, 6)] s t
  rest : { t with ore := s.ore, xm := s.xm } = s

theorem setChain_waits (o : Ore) (s : State) : Waits s o (setChain o s) :=
  ⟨setChain_ore o s, setChain_same o s, setChain_rest o s⟩

theorem waitChain_waits (s : State) : Waits s { s.ore with chain := .waiting } (waitChain s) :=
  setChain_waits _ s

theorem waitChain_setChain_waits (o : Ore) (s : State) :
    Waits s { o with chain := .waiting } (waitChain (setChain o s)) := by
  refine ⟨by simp [waitChain], (setChain_same o s).trans (setChain_same _ _), ?_⟩
  unfold waitChain
  exact State.eq_of_fields

/-- What a halt leaves. -/
structure Halts (s t : State) : Prop where
  ore : t.ore = { s.ore with chain := .halted }
  pending : ∀ c : Cls, c.isIn t.atc.pending = (c.isIn s.atc.pending || c == .chainHalt)
  same : SameOutside [(0x001C, 6), pendingRegion] s t
  rest : { t with ore := s.ore, xm := s.xm, atc := s.atc } = s

theorem haltChain_halts (s : State) : Halts s (haltChain s) :=
  ⟨haltChain_ore s, haltChain_pending s, haltChain_same s, haltChain_rest s⟩

section
variable {s1 s2 s3 : State}

/-- A scan whose second take is its last goes on as one that begins at it (R11). -/
theorem scan_of_one_take (hs : s.isRunning = true) (h : TakesOn s s1) (hnone : s1.takeOn = none) :
    exec .chainScan s = exec .chainScan s1 := by
  obtain ⟨hchain, hbehind⟩ := h.place
  have hrunning : s1.ore.chain ≠ .halted := by simp [hchain]
  rw [exec_chainScan_of hs h.chain, exec_chainScan_of (h.running hs) hrunning,
    h.scanWith (by omega) le_rfl, if_pos (by omega),
    scanWith_of_takeOn_none (by omega) (by omega) (h.running hs) hrunning hbehind hnone]

theorem scan_of_two_takes (hs : s.isRunning = true) (h : TakesOn s s1) (h1 : TakesOn s1 s2)
    (hnone : s2.takeOn = none) : exec .chainScan s = exec .chainScan s1 := by
  obtain ⟨hchain, hbehind⟩ := h1.place
  have hs1 := h.running hs
  have hrunning : s2.ore.chain ≠ .halted := by simp [hchain]
  rw [exec_chainScan_of hs h.chain, exec_chainScan_of hs1 h1.chain, h.scanWith (by omega) le_rfl,
    if_pos (by omega), h1.scanWith (by omega) (by omega), if_pos (by omega),
    h1.scanWith (by omega) le_rfl, if_pos (by omega),
    scanWith_of_takeOn_none (takes := 2) (by omega) (by omega) (h1.running hs1) hrunning hbehind hnone,
    scanWith_of_takeOn_none (takes := 3) (by omega) (by omega) (h1.running hs1) hrunning hbehind hnone]

/-- After three takes that go on a scan has one take left. -/
theorem exec_chainScan_fourth (hs : s.isRunning = true) (h : TakesOn s s1) (h1 : TakesOn s1 s2)
    (h2 : TakesOn s2 s3) : exec .chainScan s = .next (scanWith 1 s3) := by
  rw [exec_chainScan_of hs h.chain, h.scanWith (by omega) le_rfl, if_pos (by omega),
    h1.scanWith (by omega) (by omega), if_pos (by omega), h2.scanWith (by omega) (by omega),
    if_pos (by omega)]

theorem scan_of_three_takes (hs : s.isRunning = true) (h : TakesOn s s1) (h1 : TakesOn s1 s2)
    (h2 : TakesOn s2 s3) (hposted : s3.cellPosted s3.ore.cursor = false) :
    exec .chainScan s = exec .chainScan s1 := by
  have hbehind := h2.place.2
  rw [exec_chainScan_fourth hs h h1 h2, exec_chainScan_of (h.running hs) h1.chain,
    h1.scanWith (by omega) le_rfl, if_pos (by omega), h2.scanWith (by omega) (by omega),
    if_pos (by omega), scanWith_idle hbehind hposted, scanWith_idle hbehind hposted]

/-- The fourth take ends the scan with the chain RUNNING, or halts it (R11). -/
theorem scan_fourth_finish (h2 : TakesOn s2 s3) (hposted : s3.cellPosted s3.ore.cursor = true)
    (hlink : s3.taken.link s3.ore.cursor = .finish) :
    scanWith 1 s3 = setChain { s3.taken.ore with behind := true } s3.taken := by
  rw [scanWith_take le_rfl (by omega) h2.place.2 hposted, hlink]
  rfl

end

/-! ### A cell of another kind -/

theorem orderRow_none {kind : Word} (h : kind = s.word (cellBase cell + 2))
    (hkind : kind.toNat = 0 ∨ 10 < kind.toNat) : s.orderRow cell = none := by
  unfold State.orderRow
  rw [← h]
  generalize kind.toNat = n at hkind
  match n with
  | 0 => rfl
  | 1 | 2 | 3 | 4 | 5 | 6 | 7 | 8 | 9 | 10 => omega
  | n + 11 => rfl

/-- The end of an order leaves the link of its cell. -/
theorem taken_link_of_badKind (h : s.taken = endCell s.ore.cursor .badKind [] s.taking) :
    s.taken.link s.ore.cursor = s.link s.ore.cursor := by
  have hw : s.taken.word (cellBase s.ore.cursor + 4) = s.word (cellBase s.ore.cursor + 4) := by
    rw [← taking_word (by omega) (by omega), h]
    have hb : ∀ x, cellBase s.ore.cursor + 4 ≤ x → x < cellBase s.ore.cursor + 6 →
        (endCell s.ore.cursor .badKind [] s.taking).xm.byte x = s.taking.xm.byte x := by
      intro x h1 h2
      refine (endCell_orderEnded s.ore.cursor .badKind [] s.taking).same x fun r hr => ?_
      simp only [endRegions, pendingRegion, List.append_nil, List.mem_cons, List.not_mem_nil,
        or_false] at hr
      rcases hr with rfl | rfl | rfl | rfl <;> simp only [cellBase] at h1 h2 ⊢ <;> omega
    simp only [State.word, Memory.word, hb (cellBase s.ore.cursor + 4) (by omega) (by omega),
      hb (cellBase s.ore.cursor + 4 + 1) (by omega) (by omega)]
  simp only [State.link, hw]

/-- What the taking of a cell of no kind leaves, before its link is followed (R13). -/
structure BadKindTaken (s t : State) : Prop where
  ended : t.cellEnded s.ore.cursor .badKind [] s.clock
  stampLow : t.word (cellBase s.ore.cursor + 0x32) = s.clock.setWidth 16
  stampHigh : t.word (cellBase s.ore.cursor + 0x34) = s.clock.extractLsb' 16 16
  same : SameOutside ([(0x001C, 6), pendingRegion, (cellBase s.ore.cursor + 0x32, 4)] ++
    endRegions s.ore.cursor) s t

/-- Writes of the chain words and the pending mirror leave it as it is. -/
theorem BadKindTaken.keep {t v : State} (h : BadKindTaken s v)
    (k : SameOutside [(0x001C, 6), pendingRegion] v t) : BadKindTaken s t := by
  have hb : ∀ x, cellBase s.ore.cursor ≤ x → t.xm.byte x = v.xm.byte x := fun x hx =>
    k x fun r hr => by
      simp only [List.mem_cons, List.not_mem_nil, or_false] at hr
      rcases hr with rfl | rfl <;> simp only [cellBase, pendingRegion] at hx ⊢ <;> omega
  have hw (n : Nat) :
      t.word (cellBase s.ore.cursor + n) = v.word (cellBase s.ore.cursor + n) := by
    simp only [State.word, Memory.word, hb (cellBase s.ore.cursor + n) (by omega),
      hb (cellBase s.ore.cursor + n + 1) (by omega)]
  refine ⟨h.ended.keep fun x hx _ => hb x hx, (hw _).trans h.stampLow, (hw _).trans h.stampHigh,
    h.same.trans (k.mono fun r hr => ?_)⟩
  simp only [List.mem_cons, List.not_mem_nil, or_false] at hr
  rcases hr with rfl | rfl <;> simp

theorem badKindTaken (htaken : s.taken = endCell s.ore.cursor .badKind [] s.taking) :
    BadKindTaken s s.taken := by
  have hended := endCell_orderEnded s.ore.cursor .badKind [] s.taking
  rw [← htaken] at hended
  have hclock : s.taking.clock = s.clock := by simp [State.taking]
  have hstamp (k : Nat) (h : 0x32 ≤ k) (h' : k + 2 ≤ 0x36) :
      s.taken.word (cellBase s.ore.cursor + k) = s.taking.word (cellBase s.ore.cursor + k) := by
    have hb : ∀ x, cellBase s.ore.cursor + 0x32 ≤ x → x < cellBase s.ore.cursor + 0x36 →
        s.taken.xm.byte x = s.taking.xm.byte x := fun x h1 h2 => hended.same x fun r hr => by
      simp only [endRegions, pendingRegion, List.append_nil, List.mem_cons, List.not_mem_nil,
        or_false] at hr
      rcases hr with rfl | rfl | rfl | rfl <;> simp only [cellBase] at h1 h2 ⊢ <;> omega
    simp only [State.word, Memory.word, hb (cellBase s.ore.cursor + k) (by omega) (by omega),
      hb (cellBase s.ore.cursor + k + 1) (by omega) (by omega)]
  obtain ⟨hlow, hhigh⟩ := taking_stamp (s := s)
  refine ⟨hclock ▸ hended.ended, (hstamp _ le_rfl (by omega)).trans hlow,
    (hstamp _ (by omega) (by omega)).trans hhigh, ((taking_same s).mono fun r hr => ?_).trans
      (hended.same.mono fun r hr => ?_)⟩
  · simp only [List.mem_cons, List.not_mem_nil, or_false] at hr
    rcases hr with rfl | rfl | rfl <;> simp [endRegions]
  · simp only [endRegions, List.append_nil, List.mem_cons, List.not_mem_nil, or_false] at hr
    rcases hr with rfl | rfl | rfl | rfl <;> simp [endRegions]

/-- A scan that takes a cell of no kind shows BAD_KIND, and waits behind it or halts at it. -/
theorem scan_badKind (hs : s.isRunning = true) (hchain : s.ore.chain ≠ .halted)
    (hbehind : s.ore.behind = false) (hposted : s.cellPosted s.ore.cursor = true)
    (hrow : s.orderRow s.ore.cursor = none) {w : Word}
    (hw : w = s.word (cellBase s.ore.cursor + 4)) (hlink : w.toNat = 255 ∨ 64 ≤ w.toNat) :
    ∃ t, exec .chainScan s = .next t ∧ BadKindTaken s t ∧
      (∀ c : Cls, c.isIn t.atc.pending = (c.isIn s.atc.pending || c == .orderDone ||
        (c == .chainHalt && decide (w.toNat ≠ 255)))) ∧
      t.ore = (if w.toNat = 255 then { s.ore with behind := true, chain := .waiting }
        else { s.ore with chain := .halted }) ∧
      { t with ore := s.ore, xm := s.xm, atc := s.atc } = s := by
  have htaken : s.taken = endCell s.ore.cursor .badKind [] s.taking := by
    have h := decideOrder_of_row (cell := s.ore.cursor) (taking_running hs) fun k => taking_word
    rw [hrow] at h
    exact h
  have hore : s.taken.ore = { s.ore with chain := .running } := by
    rw [htaken, (endCell_frame _ _ _ _).2.2.2.2.2.1, taking_ore]
  have hrest : { s.taken with ore := s.ore, xm := s.xm, atc := s.atc } = s := by
    rw [htaken]
    unfold State.taking
    exact State.eq_of_fields
  have hpending (c : Cls) : c.isIn s.taken.atc.pending = (c.isIn s.atc.pending || c == .orderDone) := by
    have h := (endCell_orderEnded s.ore.cursor .badKind [] s.taking).raised.pending c
    rw [← htaken, List.contains_cons, List.contains_nil, Bool.or_false] at h
    rw [h]
    simp [State.taking]
  have hlinks : s.taken.link s.ore.cursor = if w.toNat = 255 then .finish else .bad := by
    rw [taken_link_of_badKind htaken, State.link, ← hw]
    by_cases hfinish : w.toNat = 255
    · rw [if_pos hfinish]
      exact if_pos (BitVec.eq_of_toNat_eq hfinish)
    · rw [if_neg hfinish]
      exact (if_neg fun h => hfinish (by rw [h]; rfl)).trans (if_neg (by omega))
  by_cases hfinish : w.toNat = 255
  · rw [if_pos hfinish] at hlinks
    obtain ⟨hwore, hwsame, hwrest⟩ :=
      waitChain_setChain_waits { s.taken.ore with behind := true } s.taken
    refine ⟨_, (exec_chainScan_of hs hchain).trans
      (by rw [scanWith_finish (by omega) le_rfl hbehind hposted hlinks]),
      (badKindTaken htaken).keep (hwsame.mono fun r hr => by simp_all), fun c => ?_, ?_, ?_⟩
    · rw [show _ = s.taken.atc from congrArg State.atc hwrest, hpending]
      simp [hfinish]
    · rw [hwore, hore, if_pos hfinish]
    · exact (congrArg (fun v : State => { v with ore := s.ore, xm := s.xm, atc := s.atc })
        hwrest).trans hrest
  · rw [if_neg hfinish] at hlinks
    obtain ⟨hhore, hhpending, hhsame, hhrest⟩ := haltChain_halts s.taken
    refine ⟨_, (exec_chainScan_of hs hchain).trans
      (by rw [scanWith_bad (by omega) le_rfl hbehind hposted hlinks]),
      (badKindTaken htaken).keep hhsame, fun c => ?_, ?_, ?_⟩
    · rw [hhpending, hpending]
      simp [hfinish]
    · rw [hhore, hore, if_neg hfinish]
    · exact (congrArg (fun v : State => { v with ore := s.ore, xm := s.xm, atc := s.atc })
        hhrest).trans hrest

/-- Settles O35: the scan is `scanWith` four takes, whose steps follow the cell's link. -/
theorem chainScanned : Obligations.ChainScanned := by
  intro s hs
  refine ⟨fun h => (exec_chainScan hs).trans (congrArg _ (if_pos h)), fun hchain hbehind hcell => ?_,
    fun hchain hbehind => ⟨fun hlink => ?_, fun hlink => ?_, fun c hlink hcell => ?_,
      fun c next hlink hcell hnext => ?_⟩,
    fun _ => ⟨taking_state, taking_stamp.1, taking_stamp.2, taking_ore s, taking_same s,
      taking_rest s⟩,
    fun c u hchain hbehind hposted hrow hexec => ⟨fun hlink => ?_, fun hlink => ?_⟩,
    fun s1 h1 => ⟨fun hnone => ?_, fun s2 h2 => ⟨fun hnone => ?_, fun s3 h3 =>
      ⟨fun hposted => ?_, fun s4 h4 => ?_, fun u hposted hu hlink => ?_,
        fun u hposted hu hlink => ?_⟩⟩⟩,
    fun kind hchain hbehind hposted hkind hrow w hw hlink =>
      have ⟨t, hexec, htaken, hpending, hore, hrest⟩ :=
        scan_badKind hs hchain hbehind hposted (orderRow_none hkind hrow) hw hlink
      ⟨t, hexec, htaken.ended, htaken.stampLow, htaken.stampHigh, hpending, hore, htaken.same,
        hrest⟩⟩
  · obtain ⟨hore, hsame, hrest⟩ := waitChain_waits s
    exact ⟨_, (exec_chainScan_of hs hchain).trans (by rw [scanWith_idle hbehind hcell]), hore, hsame,
      hrest⟩
  · obtain ⟨hore, hsame, hrest⟩ := waitChain_waits s
    exact ⟨_, (exec_chainScan_of hs hchain).trans (by rw [scanWith_behind_finish hbehind hlink]),
      hore, hsame, hrest⟩
  · obtain ⟨hore, hpending, hsame, hrest⟩ := haltChain_halts s
    exact ⟨_, (exec_chainScan_of hs hchain).trans (by rw [scanWith_behind_bad hbehind hlink]),
      hore, hpending, hsame, hrest⟩
  · obtain ⟨hore, hsame, hrest⟩ :=
      waitChain_setChain_waits { s.ore with cursor := c, behind := false } s
    have hidle : (setChain { s.ore with cursor := c, behind := false } s).cellPosted c = false :=
      ((setChain_same _ _).cellPosted c).trans hcell
    exact ⟨_, (exec_chainScan_of hs hchain).trans
      (by rw [scanWith_behind_cell (by omega) le_rfl hbehind hlink,
        scanWith_idle (by simp) (by simpa using hidle)]), hore, hsame, hrest⟩
  · have hrun : next.isRunning = true := by
      rw [hnext]
      simpa [State.isRunning] using hs
    rw [exec_chainScan_of hs hchain, exec_chainScan_of hrun (by simpa [hnext] using hchain), hnext,
      scanWith_behind_cell (by omega) le_rfl hbehind hlink]
  · obtain rfl := taken_of_exec hs hrow hexec
    obtain ⟨hore, hsame, hrest⟩ :=
      waitChain_setChain_waits { s.taken.ore with behind := true } s.taken
    exact ⟨_, (exec_chainScan_of hs hchain).trans
      (by rw [scanWith_finish (by omega) le_rfl hbehind hposted hlink]), hore, hsame, hrest⟩
  · obtain rfl := taken_of_exec hs hrow hexec
    obtain ⟨hore, hpending, hsame, hrest⟩ := haltChain_halts s.taken
    exact ⟨_, (exec_chainScan_of hs hchain).trans
      (by rw [scanWith_bad (by omega) le_rfl hbehind hposted hlink]), hore, hpending, hsame, hrest⟩
  all_goals have k1 := takesOn_of_takeOn hs h1
  · exact scan_of_one_take hs k1 hnone
  all_goals have k2 := takesOn_of_takeOn (k1.running hs) h2
  · exact scan_of_two_takes hs k1 k2 hnone
  all_goals
    have hs2 := k2.running (k1.running hs)
    have k3 := takesOn_of_takeOn hs2 h3
  · exact scan_of_three_takes hs k1 k2 k3 hposted
  · have k4 := takesOn_of_takeOn (k3.running hs2) h4
    refine ⟨(exec_chainScan_fourth hs k1 k2 k3).trans ?_, k4.place.1⟩
    rw [k4.scanWith le_rfl (by omega)]
    rfl
  · obtain rfl := Option.some.inj ((decided_eq (k3.running hs2)).symm.trans hu)
    obtain ⟨hore, hsame, hrest⟩ := setChain_waits { s3.taken.ore with behind := true } s3.taken
    refine ⟨_, (exec_chainScan_fourth hs k1 k2 k3).trans
      (by rw [scan_fourth_finish k3 hposted hlink]), hore, ?_, hsame, hrest⟩
    rw [hore]
    exact congrArg (·.2.1) (taken_place s3)
  · obtain rfl := Option.some.inj ((decided_eq (k3.running hs2)).symm.trans hu)
    obtain ⟨hore, hpending, hsame, hrest⟩ := haltChain_halts s3.taken
    exact ⟨_, (exec_chainScan_fourth hs k1 k2 k3).trans
      (by rw [scanWith_bad le_rfl (by omega) k3.place.2 hposted hlink]), hore, hpending, hsame, hrest⟩
end

end Sys2Proof.Machine
end

section
/-! The lasting orders: ROLL_CALL (R52), STEER_CALIBRATE (R156), GRID_TEST (R139) and their ABORT
(R15). -/

namespace Sys2Proof.Machine

section
variable {s t u : State} {cell : BitVec 6} {r : Result} {detail : List Word}
  {also : List (Nat × Nat)}

/-! ### Ends of orders seen from an earlier state -/

/-- An end seen from a state with the same clock, classes and memory. -/
theorem OrderEnded.of_same (h : OrderEnded cell r detail also u t) (hclock : u.clock = s.clock)
    (hatc : u.atc = s.atc) (hxm : u.xm = s.xm) : OrderEnded cell r detail also s t := by
  refine ⟨hclock ▸ h.ended, ⟨fun c => by rw [← hatc]; exact h.raised.pending c, ?_, fun k => ?_⟩,
    fun x hx => ?_⟩
  · rw [← hatc]
    exact h.raised.rest
  · exact h.raised.mirror (by rw [hatc, ← k]; simp only [State.word, hxm])
  · rw [← hxm]
    exact h.same x hx

/-- Detail words that are 0 need not be given. -/
theorem State.cellEnded.of_detail {clock : Long} {other : List Word}
    (h : t.cellEnded cell r detail clock) (k : ∀ i < 8, detail.getD i 0 = other.getD i 0) :
    t.cellEnded cell r other clock :=
  ⟨h.state, h.code, fun i hi => (h.detail i hi).trans (k i hi), h.stampLow, h.stampHigh⟩

/-! ### ROLL_CALL (R52 to R54) -/

theorem skipTargets_head {on : UnitId → Bool} {u : UnitId} (h : on u = true) (rest missed : List UnitId) :
    skipTargets on (u :: rest) missed = (u :: rest, missed) := if_pos h

/-- The order of a roll call that has begun. -/
def EnrollOrder.begun (cell : BitVec 6) (todo : List UnitId) : EnrollOrder :=
  { cell := cell, todo := todo, tries := 0, found := [], notFound := [] }

theorem startRollCallOrder_eq (cell : BitVec 6) (s : State) : startRollCallOrder cell s =
    match s.absentUnits with
    | [] => complete .enroll cell .ok (EnrollOrder.begun cell []).detail
        (endOrder (setOrder (some (EnrollOrder.begun cell [])) s))
    | u :: rest => setOrder (some (EnrollOrder.begun cell (u :: rest))) s := by
  have hon : ∀ u ∈ s.absentUnits, (s.wlc.unit u).configured = true := fun u hu => by
    have := (List.mem_filter.1 hu).2
    rw [Bool.and_eq_true] at this
    exact this.1
  unfold startRollCallOrder nextTarget
  simp only [setOrder, State.setWlc_wlc]
  cases habsent : s.absentUnits with
  | nil => rfl
  | cons u rest =>
    have hu := hon u (by rw [habsent]; exact List.mem_cons_self)
    have hskip := skipTargets_head (on := fun v => (s.wlc.unit v).configured) hu rest []
    have hunit : (fun v => (Wlc.unit { s.wlc with
        order := some (EnrollOrder.begun cell (u :: rest)) } v).configured) =
      fun v => (s.wlc.unit v).configured := by
      funext v
      cases v <;> rfl
    simp only [EnrollOrder.begun] at hunit ⊢
    rw [hunit, hskip]
    exact congrArg (fun n => setOrder (some { EnrollOrder.begun cell (u :: rest) with tries := n }) s)
      (if_pos rfl)

/-- The hand-off leaves an owner with the resource held (R13). -/
def State.held (q : Resource) (cell : BitVec 6) (s : State) : State :=
  s.setOre (s.ore.setFlight q (some cell))

@[simp] theorem State.held_frame (q : Resource) (cell : BitVec 6) (s : State) :
    (s.held q cell).supply = s.supply ∧ (s.held q cell).resetLow = s.resetLow ∧
    (s.held q cell).clock = s.clock ∧ (s.held q cell).xm = s.xm ∧
    (s.held q cell).hostData = s.hostData ∧ (s.held q cell).tripOut = s.tripOut ∧
    (s.held q cell).atc = s.atc ∧ (s.held q cell).ore = s.ore.setFlight q (some cell) ∧
    (s.held q cell).cfl = s.cfl ∧ (s.held q cell).wlc = s.wlc ∧ (s.held q cell).dmc = s.dmc ∧
    (s.held q cell).tqa = s.tqa ∧ (s.held q cell).tcu = s.tcu ∧ (s.held q cell).rgc = s.rgc ∧
    (s.held q cell).stc = s.stc ∧ (s.held q cell).lmu = s.lmu ∧ (s.held q cell).pru = s.pru ∧
    (s.held q cell).draws = s.draws ∧ (s.held q cell).pending = s.pending := by
  simp [State.held]

theorem complete_ore {q : Resource} (h : s.ore.inFlight q = some cell) :
    (complete q cell r detail s).ore = s.ore.setFlight q none := by
  rw [complete_of_held h]
  rfl

/-- A resource that is taken and freed again leaves the table as it was. -/
theorem setFlight_free (o : Ore) {q : Resource} (h : o.inFlight q = none) (c : Option (BitVec 6)) :
    (o.setFlight q c).setFlight q none = o := by
  cases q <;> simp only [Ore.inFlight] at h <;> simp only [Ore.setFlight, ← h]

/-- Settles O33: with no target the order ends in the event, and else it waits for its first. -/
theorem rollCallOrdered : Obligations.RollCallOrdered := by
  intro cell s absent hs hmode hfree horder habsent
  have hexec : exec (.rollCall cell) s = .next (startRollCallOrder cell (s.held .enroll cell)) :=
    (whenRunning_of_running hs (decideRollCall cell)).trans (congrArg _
      ((admitIf_admitted (linked_iff.2 hmode) _ _ _).trans (handOver_started (q := .enroll) hfree _ _)))
  have hunits : (s.held .enroll cell).absentUnits = absent := habsent.symm
  rw [startRollCallOrder_eq, hunits] at hexec
  refine ⟨fun hnone => ?_, fun hsome => ?_⟩
  · subst hnone
    have hheld : (endOrder (setOrder (some (EnrollOrder.begun cell []))
        (s.held .enroll cell))).ore.inFlight .enroll = some cell := rfl
    have hended := (complete_orderEnded (r := .ok) (detail := (EnrollOrder.begun cell []).detail)
      hheld).of_same (s := s) rfl rfl rfl
    have hore := complete_ore (r := .ok) (detail := (EnrollOrder.begun cell []).detail) hheld
    have hdetail : ∀ i < 8, (EnrollOrder.begun cell []).detail.getD i 0 = [].getD i 0 := by
      intro i hi
      interval_cases i <;> rfl
    refine ⟨_, hexec, ⟨hended.ended.of_detail hdetail, hended.raised, hended.same⟩, ?_,
      State.eq_of_fields (ore := ?_) (wlc := ?_)⟩
    · simp [endOrder, setOrder]
    · exact hore.trans (setFlight_free s.ore (q := .enroll) hfree (some cell))
    · simp [endOrder, setOrder, ← horder]
  · obtain ⟨u, rest, rfl⟩ := List.exists_cons_of_ne_nil hsome
    exact hexec

/-! ### Sections of status blocks -/

theorem putBlock_same (block : Option Nat) (offset : Nat) (ws : List Word) (s : State) :
    SameOutside (blockRegion block offset (2 * ws.length)) s (putBlock block offset ws s) := by
  cases block with
  | none => exact fun _ _ => rfl
  | some base => exact put_same (base + offset) ws s

theorem stcWords_length (s : State) : s.stcWords.length = 16 := by
  simp [State.stcWords, longWords]

theorem bankWords_length (s : State) (b : Bank) : (s.bankWords b).length = 32 := by
  simp [State.bankWords, longWords, natLong]

theorem putStcSection_same (s : State) :
    SameOutside ((0x20A0, 32) :: blockRegion s.wlc.sau.block 0x40 192) s (putStcSection s) := by
  have hdrive := put_same 0x20A0 s.stcWords s
  have hblock := putBlock_same s.wlc.sau.block 0x40 (s.stcWords ++ List.replicate 80 0)
    (put 0x20A0 s.stcWords s)
  rw [stcWords_length] at hdrive
  rw [List.length_append, List.length_replicate, stcWords_length] at hblock
  exact (hdrive.mono fun r hr => by simp_all).trans (hblock.mono fun r hr => List.mem_cons_of_mem _ hr)

theorem putBankSection_same (b : Bank) (s : State) :
    SameOutside (blockRegion (s.wlc.bankBlock.get b) 0 64) s (putBankSection b s) := by
  unfold putBankSection
  split
  · have hblock := putBlock_same (s.wlc.bankBlock.get b) 0 (s.bankWords b) s
    rw [bankWords_length] at hblock
    exact hblock
  · exact fun _ _ => rfl

theorem SameOutside.of_xm {regions : List (Nat × Nat)} (h : SameOutside regions u t)
    (hxm : u.xm = s.xm) : SameOutside regions s t := fun x hx => (h x hx).trans (by rw [hxm])

/-! ### STEER_CALIBRATE (R156) -/

theorem present_iff (r : UnitRec) :
    r.present = true ↔ r.state = .enrolled ∨ r.state = .missing := by
  unfold UnitRec.present
  cases r.state <;> simp

theorem sauReady_iff (s : State) : s.sauReady = true ↔
    s.cfg.steerSau = true ∧ (s.wlc.sau.state = .enrolled ∨ s.wlc.sau.state = .missing) := by
  rw [State.sauReady, Bool.and_eq_true, present_iff]

theorem startCalibration_same (cell : BitVec 6) (s : State) : SameOutside
    ((0x20A0, 32) :: blockRegion s.wlc.sau.block 0x40 192) s (startCalibration cell s) := by
  have h := putStcSection_same (s.setStc { s.stc with
    cal := .starting, calStart := s.clock, calCell := cell, calResult := .none })
  exact h

/-- Settles O32: the calibration starts where the SAU can serve it, and the order ends UNIT_ABSENT
elsewhere. -/
theorem calibrationStarts : Obligations.CalibrationStarts := by
  intro cell s hs hstill hmode hfree
  have hdecide : decideSteerCalibrate cell s = handOver .steer cell
      (if s.sauReady then none else some (.unitAbsent, [])) (startCalibration cell) s :=
    admitIf_admitted (calibrateAdmitted_iff.2 ⟨hmode, hstill⟩) _ _ _
  have hexec : exec (.steerCalibrate cell) s = .next (decideSteerCalibrate cell s) :=
    whenRunning_of_running hs _
  rw [hdecide] at hexec
  refine ⟨fun h => ?_, fun h => ?_⟩
  · rw [if_pos ((sauReady_iff s).2 h), handOver_started (q := .steer) hfree] at hexec
    have hsame := startCalibration_same cell (s.held .steer cell)
    refine ⟨startCalibration cell (s.held .steer cell), hexec, by simp [Ore.setFlight],
      by simp [startCalibration], hsame, ?_⟩
    unfold startCalibration
    exact State.eq_of_fields
  · rw [if_neg (mt (sauReady_iff s).1 h), handOver_refused (q := .steer) hfree] at hexec
    exact ⟨_, hexec, endCell_orderEnded cell _ _ s, endCell_rest cell _ _ s⟩

/-! ### GRID_TEST (R139, R140) -/

theorem mem_allBanks (b : Bank) : b ∈ allBanks := by cases b <;> decide

theorem mem_namedBanks (banks : Word) (b : Bank) :
    b ∈ namedBanks banks ↔ banks.getLsbD (bankNum b - 1) = true := by
  simp [namedBanks, mem_allBanks]

theorem testRefusal_some {banks count : Word} {detail : List Word}
    (h : (banks = 0 ∨ 2 ^ s.cfg.bankCount ≤ banks.toNat) ∧ detail = [0x0008, 0] ∨
      ¬(banks = 0 ∨ 2 ^ s.cfg.bankCount ≤ banks.toNat) ∧
        ((∃ b, banks.getLsbD (bankNum b - 1) = true ∧ s.pru.bankEx.get b = true) ∧
          detail = [0x0008, 0] ∨
        (∀ b, banks.getLsbD (bankNum b - 1) = true → s.pru.bankEx.get b = false) ∧
          ((count = 0 ∨ 1000 < count.toNat) ∧ detail = [0x000C, 0] ∨
            count ≠ 0 ∧ count.toNat ≤ 1000 ∧ s.rgc.vF < 600 ∧
              detail = [0xFFFF, natWord s.rgc.vF]))) :
    s.testRefusal banks count = some detail := by
  have hset : (banks = 0 || decide (2 ^ s.cfg.bankCount ≤ banks.toNat)) = true ↔
      banks = 0 ∨ 2 ^ s.cfg.bankCount ≤ banks.toNat := by simp
  have hany : (namedBanks banks).any s.pru.bankEx.get = true ↔
      ∃ b, banks.getLsbD (bankNum b - 1) = true ∧ s.pru.bankEx.get b = true := by
    simp [List.any_eq_true, mem_namedBanks]
  have hcount : (count = 0 || decide (1000 < count.toNat)) = true ↔
      count = 0 ∨ 1000 < count.toNat := by simp
  unfold State.testRefusal
  rcases h with ⟨hbad, rfl⟩ | ⟨hgood, ⟨hex, rfl⟩ | ⟨hnone, ⟨hc, rfl⟩ | ⟨hc, hc', hlow, rfl⟩⟩⟩
  · rw [if_pos (hset.2 hbad)]
  · rw [if_neg (mt hset.1 hgood), if_pos (hany.2 hex)]
  all_goals
    have hfree : ¬(namedBanks banks).any s.pru.bankEx.get = true := fun k => by
      obtain ⟨b, hb, hb'⟩ := hany.1 k
      simp [hnone b hb] at hb'
    rw [if_neg (mt hset.1 hgood), if_neg hfree]
  · rw [if_pos (hcount.2 hc)]
  · rw [if_neg fun k => (hcount.1 k).elim hc fun k => absurd hc' (by omega), if_pos hlow]

theorem testRefusal_none {banks count : Word} (hbanks : banks ≠ 0)
    (hlt : banks.toNat < 2 ^ s.cfg.bankCount)
    (hfree : ∀ c, banks.getLsbD (bankNum c - 1) = true → s.pru.bankEx.get c = false)
    (hcount : count ≠ 0) (hmax : count.toNat ≤ 1000) (hlow : 600 ≤ s.rgc.vF) :
    s.testRefusal banks count = none := by
  have hany : (namedBanks banks).any s.pru.bankEx.get = false := by
    simp only [List.any_eq_false, Bool.not_eq_true]
    exact fun b hb => hfree b ((mem_namedBanks banks b).1 hb)
  unfold State.testRefusal
  rw [if_neg (by simpa using ⟨hbanks, hlt⟩), hany, if_neg (by simp),
    if_neg (by simpa using ⟨hcount, hmax⟩), if_neg (by omega)]

/-- The lowest-numbered bank that passes a test comes first of those in an ascending list. -/
theorem filter_first {p : Bank → Bool} {b : Bank} (hp : p b = true)
    (hmin : ∀ c, p c = true → bankNum b ≤ bankNum c) {l : List Bank}
    (hl : l.Pairwise fun c d => bankNum c < bankNum d) (hb : b ∈ l) :
    l.filter p = b :: l.filter fun c => p c && c != b := by
  induction l with
  | nil => exact absurd hb List.not_mem_nil
  | cons c l ih =>
    obtain ⟨hc, hl⟩ := List.pairwise_cons.1 hl
    by_cases hcb : c = b
    · subst hcb
      have hne : ∀ d ∈ l, (p d && d != c) = p d := fun d hd => by
        have hlt := hc d hd
        have hd' : d ≠ c := fun h => by rw [h] at hlt; omega
        simp [hd']
      rw [List.filter_cons_of_pos hp, List.filter_cons_of_neg (by simp), List.filter_congr hne]
    · have hbl : b ∈ l := (List.mem_cons.1 hb).resolve_left (Ne.symm hcb)
      have hpc : ¬p c = true := fun h => by
        have h1 := hmin c h
        have h2 := hc b hbl
        omega
      rw [List.filter_cons_of_neg hpc, List.filter_cons_of_neg (by simp [hpc]), ih hl hbl]

theorem allBanks_ascending : allBanks.Pairwise fun c d => bankNum c < bankNum d := by decide

theorem namedBanks_first {banks : Word} {b : Bank} (hb : banks.getLsbD (bankNum b - 1) = true)
    (hmin : ∀ c, banks.getLsbD (bankNum c - 1) = true → bankNum b ≤ bankNum c) :
    namedBanks banks =
      b :: allBanks.filter fun c => banks.getLsbD (bankNum c - 1) && c != b :=
  filter_first (p := fun c => banks.getLsbD (bankNum c - 1)) hb hmin allBanks_ascending
    (mem_allBanks b)

theorem PerBank.set_get {α : Type} (p : PerBank α) (b : Bank) : p.set b (p.get b) = p := by
  cases b <;> rfl

theorem showTest_rgc (b : Bank) (f : BankShow → BankShow) (s : State) : (showTest b f s).rgc =
    { s.rgc with shows := s.rgc.shows.set b (f (s.rgc.shows.get b)) } := by
  simp only [showTest]
  split
  case isTrue h => rw [h, PerBank.set_get]
  case isFalse => simp

theorem showTest_same (b : Bank) (f : BankShow → BankShow) (s : State) :
    SameOutside (blockRegion (s.wlc.bankBlock.get b) 0 64) s (showTest b f s) := by
  simp only [showTest]
  split
  · exact fun _ _ => rfl
  · exact putBankSection_same b (s.setRgc { s.rgc with
      shows := s.rgc.shows.set b (f (s.rgc.shows.get b)) })

theorem judgeChannel_test {b : Bank} (hstate : s.chanState b = .test)
    (hmoves : (s.rgc.chans.get b).state ≠ .test) : judgeChannel b s =
      putBankSection b (setChan b ((s.rgc.chans.get b).enter .test s.testDuty) s) := by
  simp only [judgeChannel, hstate, hmoves.symm, if_false, cutIfOff]

/-- The grid test record of an order whose first bank is the current one (R139, R140). -/
def GridTest.begun (cell : BitVec 6) (banks duty count : Word) (b : Bank) (vF : Nat) : GridTest :=
  { cell := cell, duty := testDutyOf duty, count := count.toNat, current := some b
    finishing := false
    waiting := allBanks.filter fun c => banks.getLsbD (bankNum c - 1) && c != b
    passed := [], skipped := [], aborted := [], lowest := vF }

/-- What a bank's block shows at the start of its test (R140). -/
def BankShow.begun (vF : Nat) (w : BankShow) : BankShow :=
  { w with result := .none, delivered := 0, before := vF, lowest := vF }

theorem startTest_eq {banks : Word} {b : Bank} (hb : banks.getLsbD (bankNum b - 1) = true)
    (hmin : ∀ c, banks.getLsbD (bankNum c - 1) = true → bankNum b ≤ bankNum c)
    (cell : BitVec 6) (duty count : Word) (s : State) : startTest cell banks duty count s =
      judgeChannel b (showTest b (BankShow.begun s.rgc.vF)
        (setTest (some (GridTest.begun cell banks duty count b s.rgc.vF)) s)) := by
  unfold startTest nextBank
  simp only [setTest, State.setRgc_rgc, namedBanks_first hb hmin, Nat.min_self]
  rfl

/-- A bank whose number's bit is set in a set below 2 to the bank count is configured. -/
theorem bank_configured {banks : Word} {c : Params} {b : Bank} (hlt : banks.toNat < 2 ^ c.bankCount)
    (hb : banks.getLsbD (bankNum b - 1) = true) : c.bank b = true := by
  have hpos : 1 ≤ bankNum b := by cases b <;> decide
  by_contra h
  have hnum : c.bankCount ≤ bankNum b - 1 := by
    have : ¬bankNum b ≤ c.bankCount := by simpa [Params.bank] using h
    omega
  have hfalse : banks.toNat.testBit (bankNum b - 1) = false :=
    Nat.testBit_lt_two_pow (lt_of_lt_of_le hlt (Nat.pow_le_pow_right (by omega) hnum))
  exact absurd hb (by rw [← BitVec.testBit_toNat, hfalse]; simp)

/-- The state in which a test's first bank is judged. -/
def State.testShown (cell : BitVec 6) (banks duty count : Word) (b : Bank) (s : State) : State :=
  showTest b (BankShow.begun s.rgc.vF)
    (setTest (some (GridTest.begun cell banks duty count b s.rgc.vF)) s)

section
variable {banks duty count : Word} {b : Bank}

theorem testShown_rgc (cell : BitVec 6) (banks duty count : Word) (b : Bank) (s : State) :
    (s.testShown cell banks duty count b).rgc = { s.rgc with
      test := some (GridTest.begun cell banks duty count b s.rgc.vF)
      shows := s.rgc.shows.set b (BankShow.begun s.rgc.vF (s.rgc.shows.get b)) } :=
  showTest_rgc _ _ _

theorem testShown_chanState (hguard : s.cfl.guardOn = true) (hbank : s.cfg.bank b = true)
    (hfree : s.pru.bankEx.get b = false) :
    (s.testShown cell banks duty count b).chanState b = .test := by
  have hcfl : (s.testShown cell banks duty count b).cfl = s.cfl := by
    simp [State.testShown, setTest]
  have hpru : (s.testShown cell banks duty count b).pru = s.pru := by
    simp [State.testShown, setTest]
  have hcfg : (s.testShown cell banks duty count b).cfg = s.cfg := by rw [State.cfg, hcfl, State.cfg]
  unfold State.chanState State.testCurrent
  rw [hcfg, hcfl, hpru, testShown_rgc]
  simp [hguard, hbank, hfree, GridTest.begun]

/-- A test that starts takes its first bank's channel into TEST. -/
theorem startTest_started (hb : banks.getLsbD (bankNum b - 1) = true)
    (hmin : ∀ c, banks.getLsbD (bankNum c - 1) = true → bankNum b ≤ bankNum c)
    (hguard : s.cfl.guardOn = true) (hbank : s.cfg.bank b = true)
    (hfree : s.pru.bankEx.get b = false) (hmoves : (s.rgc.chans.get b).state ≠ .test) :
    startTest cell banks duty count s = putBankSection b (setChan b
      ((s.rgc.chans.get b).enter .test (testDutyOf duty)) (s.testShown cell banks duty count b)) := by
  have hchans : (s.testShown cell banks duty count b).rgc.chans = s.rgc.chans := by
    rw [testShown_rgc]
  have hduty : (s.testShown cell banks duty count b).testDuty = testDutyOf duty := by
    unfold State.testDuty
    rw [testShown_rgc]
    rfl
  have hjudge := judgeChannel_test (testShown_chanState (cell := cell) (banks := banks)
    (duty := duty) (count := count) hguard hbank hfree) (by rw [hchans]; exact hmoves)
  rw [hchans, hduty] at hjudge
  exact (startTest_eq hb hmin cell duty count s).trans hjudge

theorem startTest_same (hb : banks.getLsbD (bankNum b - 1) = true)
    (hmin : ∀ c, banks.getLsbD (bankNum c - 1) = true → bankNum b ≤ bankNum c)
    (hguard : s.cfl.guardOn = true) (hbank : s.cfg.bank b = true)
    (hfree : s.pru.bankEx.get b = false) (hmoves : (s.rgc.chans.get b).state ≠ .test) :
    SameOutside (blockRegion (s.wlc.bankBlock.get b) 0 64) s
      (startTest cell banks duty count s) := by
  rw [startTest_started hb hmin hguard hbank hfree hmoves]
  have hshow := showTest_same b (BankShow.begun s.rgc.vF)
    (setTest (some (GridTest.begun cell banks duty count b s.rgc.vF)) s)
  have hput := putBankSection_same b (setChan b
    ((s.rgc.chans.get b).enter .test (testDutyOf duty)) (s.testShown cell banks duty count b))
  have hwlc : (setChan b ((s.rgc.chans.get b).enter .test (testDutyOf duty))
      (s.testShown cell banks duty count b)).wlc = s.wlc := by simp [State.testShown, setTest]
  rw [hwlc] at hput
  exact SameOutside.trans hshow hput

end

/-- Settles O31: the first check that fails ends the order, and with none the first bank is
tested. -/
theorem gridTestStarts : Obligations.GridTestStarts := by
  intro cell banks duty count s hs hmode hfree
  have hexec : exec (.gridTest cell banks duty count) s =
      .next (decideGridTest cell banks duty count s) := whenRunning_of_running hs _
  have hdecide : decideGridTest cell banks duty count s = handOver .grid cell
      ((s.testRefusal banks count).map fun d => (.badArgument, d))
      (startTest cell banks duty count) s := admitIf_admitted (testAdmitted_iff.2 hmode) _ _ _
  rw [hdecide] at hexec
  refine ⟨fun detail h => ?_, fun b hbanks hlt _ hex hcount hmax hlow hguard hb hmin hmoves => ?_⟩
  · rw [testRefusal_some h, Option.map_some, handOver_refused (q := .grid) hfree] at hexec
    exact ⟨_, hexec, endCell_orderEnded cell _ _ s, endCell_rest cell _ _ s⟩
  · rw [testRefusal_none hbanks hlt hex hcount hmax hlow, Option.map_none,
      handOver_started (q := .grid) hfree] at hexec
    have hbank := bank_configured hlt hb
    have hsame := startTest_same (s := s.held .grid cell) (cell := cell) (duty := duty)
      (count := count) hb hmin hguard hbank (hex b hb) hmoves
    have hstarted := startTest_started (s := s.held .grid cell) (cell := cell) (duty := duty)
      (count := count) hb hmin hguard hbank (hex b hb) hmoves
    have hrgc : (startTest cell banks duty count (s.held .grid cell)).rgc = { s.rgc with
        test := some (GridTest.begun cell banks duty count b s.rgc.vF)
        shows := s.rgc.shows.set b (BankShow.begun s.rgc.vF (s.rgc.shows.get b))
        chans := s.rgc.chans.set b ((s.rgc.chans.get b).enter .test (testDutyOf duty)) } := by
      rw [hstarted]
      simp only [putBankSection_frame, setChan, State.setRgc_rgc, testShown_rgc, State.held_frame]
    have hothers (c : Bank) (hc : c ≠ b) :
        (startTest cell banks duty count (s.held .grid cell)).rgc.chans.get c = s.rgc.chans.get c ∧
        (startTest cell banks duty count (s.held .grid cell)).rgc.shows.get c =
          s.rgc.shows.get c := by
      rw [hrgc, PerBank_get_set, if_neg hc, PerBank_get_set, if_neg hc]
      exact ⟨rfl, rfl⟩
    refine ⟨startTest cell banks duty count (s.held .grid cell), hexec, ?_, ?_, ?_, ?_, hothers,
      hsame, ?_⟩
    · rw [hstarted]
      simp [State.testShown, setTest, Ore.setFlight]
    · rw [hrgc]
      rfl
    · rw [hrgc, PerBank_get_set_self]
      rfl
    · rw [hrgc, PerBank_get_set_self]
      rfl
    · refine State.eq_of_fields (atc := ?_) (rgc := ?_) (draws := ?_)
      · simp [hstarted, State.testShown, setTest]
      · rw [hrgc]
      · simp [hstarted, State.testShown, setTest]

end

end Sys2Proof.Machine
end

section
/-! ABORT (R15), with what the owners do: the bank channels judged again (R133), a calibration and a
ROLL_CALL order stopped; and events that leave the fault table delivered. -/

namespace Sys2Proof.Machine

section
variable {s t u v : State}

/-! ### A table that is delivered (R179, R180) -/

/-- With the sets and the summary formed nothing is delivered. -/
theorem settle_of_delivered (h : s.delivered = true) : settle s = s := if_pos h

theorem delivered_of_pru (h : t.pru = s.pru) : t.delivered = s.delivered := by
  simp only [State.delivered, State.setsFormed, State.summaryFormed, h]

/-- An event that leaves the table as it was delivers nothing. -/
theorem settle_of_same_pru (h : t.pru = s.pru) (hd : s.delivered = true) : settle t = t :=
  settle_of_delivered ((delivered_of_pru h).trans hd)

/-! ### Writes of the status region -/

/-- The link's state stays, and of the exchange memory only the status region is written. -/
structure StatusOnly (s t : State) : Prop where
  wlc : t.wlc = s.wlc
  bytes : s.wlc.placed → ∀ x < 0x2000, t.xm.byte x = s.xm.byte x

theorem StatusOnly.refl (s : State) : StatusOnly s s := ⟨rfl, fun _ _ _ => rfl⟩

theorem StatusOnly.trans (h : StatusOnly s t) (k : StatusOnly t u) : StatusOnly s u :=
  ⟨k.wlc.trans h.wlc, fun p x hx => (k.bytes (h.wlc ▸ p) x hx).trans (h.bytes p x hx)⟩

theorem StatusOnly.of_xm (hxm : t.xm = s.xm) (hwlc : t.wlc = s.wlc) : StatusOnly s t :=
  ⟨hwlc, fun _ _ _ => by rw [hxm]⟩

theorem StatusOnly.word (h : StatusOnly s t) (p : s.wlc.placed) {y : Nat} (hy : y + 2 ≤ 0x2000) :
    t.word y = s.word y := by
  simp only [State.word, Memory.word, h.bytes p y (by omega), h.bytes p (y + 1) (by omega)]

theorem put_statusOnly {x : Nat} (hx : 0x2000 ≤ x) (ws : List Word) (s : State) :
    StatusOnly s (put x ws s) :=
  ⟨rfl, fun _ b hb => put_byte_outside (.inl (by omega))⟩

theorem putBlock_statusOnly {block : Option Nat} (hb : s.wlc.placed → blockOk block) (offset : Nat)
    (ws : List Word) : StatusOnly s (putBlock block offset ws s) := by
  cases block with
  | none => exact .refl s
  | some base =>
    refine ⟨rfl, fun p b hlt => put_byte_outside (.inl ?_)⟩
    have : 0x2100 ≤ base := hb p base rfl
    omega

theorem putBankSection_statusOnly (b : Bank) (s : State) : StatusOnly s (putBankSection b s) := by
  unfold putBankSection
  split
  · exact putBlock_statusOnly (fun p => placed_bank p b) _ _
  · exact .refl s

theorem putStcSection_statusOnly (s : State) : StatusOnly s (putStcSection s) :=
  (put_statusOnly (by decide) s.stcWords s).trans
    (putBlock_statusOnly (s := put 0x20A0 s.stcWords s) (fun p => placed_sau p) _ _)

theorem showTest_statusOnly (b : Bank) (f : BankShow → BankShow) (s : State) :
    StatusOnly s (showTest b f s) := by
  simp only [showTest]
  split
  · exact .refl s
  · have h := putBankSection_statusOnly b (s.setRgc { s.rgc with
      shows := s.rgc.shows.set b (f (s.rgc.shows.get b)) })
    exact ⟨h.wlc, h.bytes⟩

/-! ### The bank channels (R133, R134) -/

/-- An operation over the banks, one after the other, brings what each step brings. -/
theorem forBanks_steps {P : State → State → Prop} (htrans : ∀ {s t u}, P s t → P t u → P s u)
    {f : Bank → State → State} (hf : ∀ b s, P s (f b s)) (s : State) : P s (forBanks f s) :=
  htrans (htrans (htrans (htrans (htrans (hf .b1 s) (hf .b2 _)) (hf .b3 _)) (hf .b4 _)) (hf .b5 _))
    (hf .b6 _)

/-- The channel that a cut leaves: its gate off, in the state it was in (R134). -/
theorem cutPhase_cases (b : Bank) (s : State) :
    (s.rgc.chans.get b).gate = false ∧ cutPhase b s = s ∨
      cutPhase b s = (setChan b ((s.rgc.chans.get b).endPhase (s.cutOnTime (s.rgc.chans.get b)))
        s).setDraws (s.draws + 1) := by
  unfold cutPhase
  by_cases h : (s.rgc.chans.get b).gate = true
  · exact .inr (if_pos h)
  · exact .inl ⟨by simpa using h, if_neg h⟩

/-- The channels move, and nothing else of the RGC: no gate goes on, and a bank's channel that is not
named stays. -/
structure ChansMove (on : Bank → Bool) (s t : State) : Prop where
  rgc : t.rgc = { s.rgc with chans := t.rgc.chans }
  cfl : t.cfl = s.cfl
  pru : t.pru = s.pru
  dmc : t.dmc = s.dmc
  gate : ∀ c, (s.rgc.chans.get c).gate = false → (t.rgc.chans.get c).gate = false
  others : ∀ c, on c = false → t.rgc.chans.get c = s.rgc.chans.get c
  status : StatusOnly s t

variable {on : Bank → Bool}

theorem ChansMove.trans (h : ChansMove on s t) (k : ChansMove on t u) : ChansMove on s u :=
  ⟨by rw [k.rgc, h.rgc], k.cfl.trans h.cfl, k.pru.trans h.pru, k.dmc.trans h.dmc,
    fun c => k.gate c ∘ h.gate c, fun c hc => (k.others c hc).trans (h.others c hc),
    h.status.trans k.status⟩

theorem ChansMove.refl (on : Bank → Bool) (s : State) : ChansMove on s s :=
  ⟨rfl, rfl, rfl, rfl, fun _ => id, fun _ _ => rfl, .refl s⟩

theorem ChansMove.mono {on' : Bank → Bool} (h : ChansMove on s t)
    (k : ∀ c, on' c = false → on c = false) : ChansMove on' s t :=
  { h with others := fun c hc => h.others c (k c hc) }

/-- What R133 judges a channel by. -/
theorem chanState_congr (hcfl : t.cfl = s.cfl) (hpru : t.pru = s.pru) (hdmc : t.dmc = s.dmc)
    (htest : t.rgc.test = s.rgc.test) (hdischarge : t.rgc.discharge = s.rgc.discharge) (b : Bank) :
    t.chanState b = s.chanState b := by
  have hcurrent : t.testCurrent b = s.testCurrent b := by
    unfold State.testCurrent
    rw [htest]
  have hdone : t.testDone b = s.testDone b := by
    unfold State.testDone
    rw [htest]
  unfold State.chanState State.channelsRun State.cfg
  rw [hcurrent, hdone, hcfl, hpru, hdmc, hdischarge]

theorem ChansMove.chanState (h : ChansMove on s t) (b : Bank) : t.chanState b = s.chanState b :=
  chanState_congr h.cfl h.pru h.dmc (by rw [h.rgc]) (by rw [h.rgc]) b

theorem setChan_moves (b : Bank) (c : Chan) (s : State)
    (hgate : (s.rgc.chans.get b).gate = false → c.gate = false) :
    ChansMove (fun d => d == b) s (setChan b c s) := by
  refine ⟨rfl, rfl, rfl, rfl, fun d hd => ?_, fun d hd => ?_, .of_xm rfl rfl⟩
  · show ((s.rgc.chans.set b c).get d).gate = false
    rw [PerBank_get_set]
    split
    · rename_i heq
      subst heq
      exact hgate hd
    · exact hd
  · show (s.rgc.chans.set b c).get d = _
    rw [PerBank_get_set, if_neg (by simpa using hd)]

theorem cutPhase_moves (b : Bank) (s : State) : ChansMove (fun d => d == b) s (cutPhase b s) := by
  rcases cutPhase_cases b s with ⟨-, h⟩ | h
  · rw [h]
    exact .refl _ s
  · rw [h]
    have hset := setChan_moves b ((s.rgc.chans.get b).endPhase (s.cutOnTime (s.rgc.chans.get b))) s
      fun _ => rfl
    exact ⟨rfl, rfl, rfl, rfl, hset.gate, hset.others, .of_xm rfl rfl⟩

theorem cutPhase_gate (b : Bank) (s : State) : ((cutPhase b s).rgc.chans.get b).gate = false := by
  rcases cutPhase_cases b s with ⟨hgate, h⟩ | h
  · rw [h]
    exact hgate
  · rw [h]
    simp [setChan, Chan.endPhase]

theorem Chan.enter_state (c : Chan) (st : ChanState) (duty : Nat) : (c.enter st duty).state = st := by
  cases st <;> rfl

theorem Chan.enter_gate (c : Chan) (st : ChanState) (duty : Nat) :
    (c.enter st duty).gate = c.gate := by
  cases st <;> rfl

theorem cutIfOff_moves (st : ChanState) (b : Bank) (s : State) :
    ChansMove (fun d => d == b) s (cutIfOff st b s) := by
  cases st with
  | off | blocked => exact cutPhase_moves b s
  | run | test => exact .refl _ s

theorem putBankSection_moves (b : Bank) (s : State) : ChansMove on s (putBankSection b s) := by
  refine ⟨?_, ?_, ?_, ?_, ?_, ?_, putBankSection_statusOnly b s⟩ <;> simp

theorem judgeChannel_moves (b : Bank) (s : State) :
    ChansMove (fun d => d == b) s (judgeChannel b s) := by
  simp only [judgeChannel]
  split
  · exact .refl _ s
  · refine (cutIfOff_moves _ b s).trans (.trans (setChan_moves b _ _ ?_) (putBankSection_moves b _))
    rw [Chan.enter_gate]
    exact id

/-- A channel that is judged takes the state of R133. -/
theorem judgeChannel_state (b : Bank) (s : State) :
    ((judgeChannel b s).rgc.chans.get b).state = s.chanState b := by
  simp only [judgeChannel]
  split
  case isTrue h => exact h.symm
  case isFalse => simp [setChan, Chan.enter_state]

theorem judgeChannels_moves (s : State) : ChansMove (fun _ => true) s (judgeChannels s) :=
  forBanks_steps (P := ChansMove fun _ => true) ChansMove.trans
    (fun b s => (judgeChannel_moves b s).mono fun _ h => Bool.noConfusion h) s

/-- Every bank channel takes the state of R133. -/
theorem judgeChannels_state (b : Bank) (s : State) :
    ((judgeChannels s).rgc.chans.get b).state = s.chanState b := by
  have other {b c : Bank} (h : b ≠ c) (s : State) :
      ((judgeChannel c s).rgc.chans.get b).state = (s.rgc.chans.get b).state := by
    rw [(judgeChannel_moves c s).others b (by simpa using h)]
  have keep (b c : Bank) (s : State) : (judgeChannel c s).chanState b = s.chanState b :=
    (judgeChannel_moves c s).chanState b
  unfold judgeChannels forBanks
  cases b with
  | b1 => simp only [other, ne_eq, reduceCtorEq, not_false_eq_true, judgeChannel_state]
  | b2 => simp only [other, ne_eq, reduceCtorEq, not_false_eq_true, judgeChannel_state, keep]
  | b3 => simp only [other, ne_eq, reduceCtorEq, not_false_eq_true, judgeChannel_state, keep]
  | b4 => simp only [other, ne_eq, reduceCtorEq, not_false_eq_true, judgeChannel_state, keep]
  | b5 => simp only [other, ne_eq, reduceCtorEq, not_false_eq_true, judgeChannel_state, keep]
  | b6 => simp only [judgeChannel_state, keep]

end

section
variable {s t u v : State} {cell target : BitVec 6} {r : Result} {detail : List Word}
  {classes : List Cls}

/-! ### Classes raised more than once -/

theorem Raised.again (h : Raised classes s t) (k : Raised classes t u) : Raised classes s u :=
  ⟨fun c => by rw [k.pending, h.pending, Bool.or_assoc, Bool.or_self],
    by
      have h1 := k.rest
      have h2 := h.rest
      exact (congrArg (fun a : Atc => { a with pending := s.atc.pending }) h1).trans h2,
    k.mirror ∘ h.mirror⟩

theorem Raised.of_start (hatc : t.atc = s.atc) (hword : t.word 0x0022 = s.word 0x0022)
    (h : Raised classes t u) : Raised classes s u :=
  ⟨fun c => by rw [h.pending, hatc], by rw [← hatc]; exact h.rest,
    fun k => h.mirror (by rw [hword, hatc, k])⟩

/-- A cell that shows an end goes on showing it while another order ends. -/
theorem State.cellEnded.of_other {clock : Long} (h : s.cellEnded target r detail clock)
    (hne : target ≠ cell) (k : SameOutside (pendingRegion :: endRegions cell) s t) :
    t.cellEnded target r detail clock :=
  h.keep fun x h1 h2 => k x fun q hq => by
    rcases List.mem_cons.1 hq with rfl | hq
    · simp only [cellBase, pendingRegion] at h1 ⊢
      omega
    · exact outside_other hne.symm h1 h2 hq

/-! ### ABORT (R15) -/

/-- The end of an ABORT and of the order that it names, once the owner has stopped. -/
def endAborted (cell target : BitVec 6) (q : Resource) (detail : List Word) (s : State) : State :=
  endCell cell .ok [] (raise .orderDone (freeResource q (writeEnd target .aborted detail s)))

structure EndAborted (cell target : BitVec 6) (q : Resource) (detail : List Word) (s t : State) :
    Prop where
  named : t.cellEnded target .aborted detail s.clock
  own : t.cellEnded cell .ok [] s.clock
  raised : Raised [.orderDone] s t
  ore : t.ore = s.ore.setFlight q none
  rest : { t with atc := s.atc, xm := s.xm, ore := s.ore } = s

theorem endAborted_spec (hne : target ≠ cell) (q : Resource) (detail : List Word) (s : State) :
    EndAborted cell target q detail s (endAborted cell target q detail s) := by
  have hwritten : (freeResource q (writeEnd target .aborted detail s)).cellEnded target .aborted
      detail s.clock := by
    obtain ⟨hstate, hcode, hdetail, hlow, hhigh⟩ := writeEnd_ended target .aborted detail s
    exact ⟨hstate, hcode, hdetail, hlow, hhigh⟩
  have hraise := raise_raised .orderDone (freeResource q (writeEnd target .aborted detail s))
  have hmirror : (freeResource q (writeEnd target .aborted detail s)).word 0x0022 = s.word 0x0022 := by
    have hb : ∀ x < 0x0800, (writeEnd target .aborted detail s).xm.byte x = s.xm.byte x :=
      fun x hx => writeEnd_same target .aborted detail s x fun k hk => by
        have := endRegions_inside hk
        simp only [cellBase] at this
        omega
    show (writeEnd target .aborted detail s).word 0x0022 = _
    simp only [State.word, Memory.word, hb _ (by omega : 0x0022 < 0x0800),
      hb _ (by omega : 0x0022 + 1 < 0x0800)]
  have hend := endCell_orderEnded cell .ok []
    (raise .orderDone (freeResource q (writeEnd target .aborted detail s)))
  have hclock : (raise .orderDone (freeResource q (writeEnd target .aborted detail s))).clock =
    s.clock := by simp
  refine ⟨(raise_ended .orderDone hwritten).of_other hne ?_, hclock ▸ hend.ended, ?_, ?_, ?_⟩
  · have hsame := hend.same
    rw [List.append_nil] at hsame
    exact hsame
  · exact .of_start (t := freeResource q (writeEnd target .aborted detail s)) (by simp) hmirror
      (hraise.again hend.raised)
  · simp [endAborted, freeResource]
  · unfold endAborted
    exact State.eq_of_fields

theorem heldBy_none (h : ∀ q, s.ore.inFlight q ≠ some target) : s.ore.heldBy target = none := by
  exact (if_neg (h .grid)).trans ((if_neg (h .steer)).trans (if_neg (h .enroll)))

theorem decideAbort_bad {index : Word}
    (h : 64 ≤ index.toNat ∨ ∀ q, s.ore.inFlight q ≠ some (index.setWidth 6)) :
    decideAbort cell index s = endCell cell .badArgument [8] s := by
  unfold decideAbort
  by_cases hlarge : 64 ≤ index.toNat
  · rw [if_pos hlarge]
    rfl
  · rw [if_neg hlarge]
    simp only [heldBy_none (h.resolve_left hlarge)]
    rfl

/-- An ABORT of an order in flight stops its owner and ends both cells (R15). -/
theorem decideAbort_held {index : Word} {q : Resource} (hindex : index.toNat = target.toNat)
    (hheld : s.ore.heldBy target = some q) (hd : s.delivered = true)
    (hpru : (stopOwner q s).pru = s.pru) : decideAbort cell index s =
      endAborted cell target q (s.abortDetail q) (stopOwner q s) := by
  have htarget : index.setWidth 6 = target := by
    apply BitVec.eq_of_toNat_eq
    have := target.isLt
    rw [BitVec.toNat_setWidth, hindex]
    omega
  have hsmall : ¬64 ≤ index.toNat := by
    have := target.isLt
    omega
  unfold decideAbort
  rw [if_neg hsmall]
  simp only [htarget, hheld]
  refine settle_of_same_pru (s := s) ?_ hd
  simp [hpru]

/-! ### The owners stop (R53, R141, R158) -/

/-- The state in which a stopped test's channels are judged again: its current bank marked ABORTED and
cut (R141). -/
def State.testCut (s : State) (current : Option Bank) : State :=
  match current with
  | some b => cutPhase b (showTest b (fun w => { w with result := .aborted }) s)
  | none => s

theorem stopTest_eq {g : GridTest} (h : s.rgc.test = some g) :
    stopTest s = judgeChannels (setTest none (s.testCut g.current)) := by
  unfold stopTest State.testCut
  cases hc : g.current <;> simp only [h, hc]

theorem testCut_status (s : State) (current : Option Bank) : StatusOnly s (s.testCut current) := by
  cases current with
  | none => exact .refl s
  | some b => exact (showTest_statusOnly b _ s).trans (cutPhase_moves b _).status

theorem stopTest_status (s : State) : StatusOnly s (stopTest s) := by
  cases h : s.rgc.test with
  | none =>
    unfold stopTest
    simp only [h]
    exact .refl s
  | some g =>
    rw [stopTest_eq h]
    have hset : StatusOnly (s.testCut g.current) (setTest none (s.testCut g.current)) :=
      .of_xm rfl rfl
    exact ((testCut_status s g.current).trans hset).trans (judgeChannels_moves _).status

theorem stopTest_test (s : State) : (stopTest s).rgc.test = none := by
  cases h : s.rgc.test with
  | none =>
    unfold stopTest
    simp only [h]
  | some g =>
    rw [stopTest_eq h]
    exact congrArg Rgc.test (judgeChannels_moves (setTest none (s.testCut g.current))).rgc

/-- Only the current bank of a test is in TEST (R133). -/
theorem chanState_ne_test {b : Bank} (h : s.testCurrent b = false) : s.chanState b ≠ .test := by
  unfold State.chanState
  rw [h, if_neg Bool.false_ne_true]
  (repeat' split) <;> exact fun k => nomatch k

/-- A stopped test's current bank is shown ABORTED, its channel out of TEST with the gate off
(R141). -/
theorem stopTest_current {g : GridTest} {b : Bank} (h : s.rgc.test = some g)
    (hb : g.current = some b) : ((stopTest s).rgc.shows.get b).result = .aborted ∧
      ((stopTest s).rgc.chans.get b).state ≠ .test ∧
      ((stopTest s).rgc.chans.get b).gate = false := by
  rw [stopTest_eq h, hb]
  have hjudge := judgeChannels_moves (setTest none (s.testCut (some b)))
  refine ⟨?_, ?_, hjudge.gate b (cutPhase_gate b _)⟩
  · rw [hjudge.rgc]
    have hshows : (setTest none (s.testCut (some b))).rgc.shows =
        (cutPhase b (showTest b (fun w => { w with result := .aborted }) s)).rgc.shows := rfl
    have hresult : ((setTest none (s.testCut (some b))).rgc.shows.get b).result = .aborted := by
      rw [hshows, (cutPhase_moves b _).rgc, showTest_rgc]
      simp
    exact hresult
  · rw [judgeChannels_state]
    exact chanState_ne_test (s := setTest none (s.testCut (some b))) rfl

theorem abortCalibration_stc (s : State) :
    (abortCalibration s).stc = { s.stc with cal := .none, calResult := .aborted } := by
  simp [abortCalibration, stopCalibration]

theorem abortCalibration_status (s : State) : StatusOnly s (abortCalibration s) := by
  have h := putStcSection_statusOnly (stopCalibration .aborted s)
  exact ⟨h.wlc, h.bytes⟩

theorem calAbortDetail_eq (s : State) : s.calAbortDetail =
    if s.wlc.sau.held = .none then [0, 0, 0, natWord (s.clock - s.stc.calStart).toNat]
    else [0, s.wlc.sau.report.flags.setWidth 16, s.wlc.sau.report.field1,
      natWord (s.clock - s.stc.calStart).toNat] := by
  unfold State.calAbortDetail State.calDetail State.heldSteer
  split <;> rfl

/-- A round that may end leaves the order, the window and every record. -/
theorem endRound_wlc (s : State) :
    ∃ b, endRound s = s.setWlc { s.wlc with roundOpen := b } := by
  unfold endRound
  simp only
  split
  · exact ⟨false, rfl⟩
  · exact ⟨s.wlc.roundOpen, rfl⟩

theorem settleRound_of_not_due (h : s.wlc.roundDue = false) :
    ∃ b, settleRound s = s.setWlc { s.wlc with roundOpen := b } := by
  obtain ⟨b, hb⟩ := endRound_wlc s
  refine ⟨b, ?_⟩
  unfold settleRound takeDueRound
  rw [hb]
  exact if_neg fun k => by simp [h] at k

theorem heldBy_grid (h : s.ore.grid = some target) : s.ore.heldBy target = some .grid := if_pos h

theorem heldBy_steer (hgrid : s.ore.grid ≠ some target) (h : s.ore.steer = some target) :
    s.ore.heldBy target = some .steer := (if_neg hgrid).trans (if_pos h)

theorem heldBy_enroll (hgrid : s.ore.grid ≠ some target) (hsteer : s.ore.steer ≠ some target)
    (h : s.ore.enroll = some target) : s.ore.heldBy target = some .enroll :=
  (if_neg hgrid).trans ((if_neg hsteer).trans (if_pos h))

/-- What an ABORT leaves, seen from the state before it. -/
theorem endAborted_from (hne : target ≠ cell) (q : Resource) (detail : List Word)
    (hatc : u.atc = s.atc) (hclock : u.clock = s.clock) (hore : u.ore = s.ore)
    (hword : u.word 0x0022 = s.word 0x0022) :
    (endAborted cell target q detail u).cellEnded target .aborted detail s.clock ∧
      (endAborted cell target q detail u).cellEnded cell .ok [] s.clock ∧
      Raised [.orderDone] s (endAborted cell target q detail u) ∧
      (endAborted cell target q detail u).ore = s.ore.setFlight q none := by
  obtain ⟨hnamed, hown, hraised, hfree, -⟩ := endAborted_spec hne q detail u
  exact ⟨hclock ▸ hnamed, hclock ▸ hown, .of_start hatc hword hraised, by rw [hfree, hore]⟩

/-- Settles O34: the owner of the resource stops, both cells end, and the resource is free. -/
theorem orderAborted : Obligations.OrderAborted := by
  intro cell target index s hs hd
  have hexec : exec (.abort cell index) s = .next (decideAbort cell index s) :=
    whenRunning_of_running hs _
  have hkeeps : Keeps false s (decideAbort cell index s) :=
    (exec_keeps_host (c := .abort cell index) rfl s).of_next hexec
  refine ⟨fun h => ?_, fun hindex hne => ⟨fun g hgrid htest p => ?_, fun hgrid hsteer p => ?_,
    fun o hgrid hsteer henroll horder hdue => ?_⟩⟩
  · rw [decideAbort_bad h] at hexec
    exact ⟨_, hexec, endCell_orderEnded cell _ _ s, endCell_rest cell _ _ s⟩
  · have hheld := decideAbort_held (cell := cell) hindex (heldBy_grid hgrid) hd
      (by simp [stopOwner])
    have hdetail : s.abortDetail .grid = g.abortCurrent.detail := by
      simp only [State.abortDetail, State.testAbortDetail, htest]
    rw [hheld, hdetail] at hexec hkeeps
    obtain ⟨hnamed, hown, hraised, hore⟩ := endAborted_from (s := s) (u := stopTest s) hne .grid
      g.abortCurrent.detail (by simp) (by simp) (by simp) ((stopTest_status s).word p (by omega))
    have hrest := (endAborted_spec hne .grid g.abortCurrent.detail (stopTest s)).rest
    have hrgc : (endAborted cell target .grid g.abortCurrent.detail (stopTest s)).rgc =
      (stopTest s).rgc := by
      have h := congrArg State.rgc hrest
      exact h
    refine ⟨_, hexec, hnamed, hown, hraised, hore, ?_, fun b hb => ?_, hkeeps.host p, ?_⟩
    · exact (congrArg Rgc.test hrgc).trans (stopTest_test s)
    · have hcurrent := stopTest_current htest hb
      rw [← hrgc] at hcurrent
      exact hcurrent
    · refine (congrArg (fun v : State => { v with
        atc := s.atc, xm := s.xm, ore := s.ore, rgc := s.rgc, draws := s.draws }) hrest).trans ?_
      exact State.eq_of_fields (wlc := (stopTest_status s).wlc)
  · have hheld := decideAbort_held (cell := cell) hindex (heldBy_steer hgrid hsteer) hd
      (by simp [stopOwner])
    rw [hheld, show s.abortDetail .steer = s.calAbortDetail from rfl] at hexec hkeeps
    obtain ⟨hnamed, hown, hraised, hore⟩ := endAborted_from (s := s) (u := abortCalibration s) hne
      .steer s.calAbortDetail (by simp) (by simp) (by simp)
      ((abortCalibration_status s).word p (by omega))
    have hrest := (endAborted_spec hne .steer s.calAbortDetail (abortCalibration s)).rest
    refine ⟨_, hexec, by rw [← calAbortDetail_eq]; exact hnamed, hown, hraised, hore, ?_, hkeeps.host p, ?_⟩
    · have h := congrArg State.stc hrest
      exact Eq.trans h (abortCalibration_stc s)
    · refine (congrArg (fun v : State => { v with
        atc := s.atc, xm := s.xm, ore := s.ore, stc := s.stc }) hrest).trans ?_
      exact State.eq_of_fields
  · have hdue' : (endOrder s).wlc.roundDue = false := hdue
    obtain ⟨b, hb⟩ := settleRound_of_not_due hdue'
    have hstop : stopOwner .enroll s =
        (endOrder s).setWlc { (endOrder s).wlc with roundOpen := b } := hb
    have hheld := decideAbort_held (cell := cell) hindex (heldBy_enroll hgrid hsteer henroll) hd
      (by rw [hstop]; rfl)
    have hdetail : s.abortDetail .enroll = o.detail := by
      simp only [State.abortDetail, horder]
    rw [hheld, hdetail, hstop] at hexec
    obtain ⟨hnamed, hown, hraised, hore⟩ := endAborted_from (s := s)
      (u := (endOrder s).setWlc { (endOrder s).wlc with roundOpen := b }) hne .enroll o.detail rfl rfl
      rfl rfl
    have hrest := (endAborted_spec hne .enroll o.detail
      ((endOrder s).setWlc { (endOrder s).wlc with roundOpen := b })).rest
    have horder' := congrArg (fun v : State => v.wlc.order) hrest
    have hwindow := congrArg (fun v : State => v.wlc.window) hrest
    refine ⟨_, hexec, hnamed, hown, hraised, hore, horder', hwindow, ?_⟩
    refine (congrArg (fun v : State => { v with
      atc := s.atc, xm := s.xm, ore := s.ore
      wlc := { v.wlc with
        order := s.wlc.order, roundOpen := s.wlc.roundOpen, window := s.wlc.window } }) hrest).trans ?_
    rfl

end

end Sys2Proof.Machine
end

section
/-! SUPPORT. The images and the status blocks: what every operation keeps of them. `Upholds exact a b` holds of
an operation's state before and after; one lemma per operation builds it, as `Keeps` is built. With `exact` true
it speaks of the TCU's section too, which stands behind the TCU while one of its events is under way. -/

namespace Sys2Proof.Machine

/-! ### The four images, each by itself -/

/-- The fault table image shows the table (R184). -/
def State.faultsShown (s : State) : Prop := s.showsAt 0x1800 (s.pru.image s.imageStamp)

/-- The derate list image shows the list (R172). -/
def State.deratesShown (s : State) : Prop := s.showsAt 0x1B00 (derateImage s.lmu.derates)

/-- The envelope table image shows the table (R130). -/
def State.envelopeShown (s : State) : Prop :=
  ∀ i < 48, s.word (0x1C80 + 2 * i) = natWord (s.rgc.table.getD i 0)

/-- The TCU's section shows the reference speed (R119). -/
def State.tractionShown (s : State) : Prop := s.showsAt 0x2020 s.tcu.words

/-- The lock and the steer angle lie in the range of the widest lock (R8, section 2.2). -/
def State.lockOk (s : State) : Prop :=
  s.cfg.lock ≤ 4500 ∧ s.dmc.demand.steerAngle.natAbs ≤ 4500

/-- From state `a` to state `b` the steer angle's range, the places of the status blocks and the truth of
the images are kept. -/
structure Upholds (exact : Bool) (a b : State) : Prop where
  lock : a.lockOk → b.lockOk := by intros; assumption
  placed : a.wlc.placed → b.wlc.placed := by intros; assumption
  apart : a.wlc.apart → b.wlc.apart := by intros; assumption
  faults : a.wlc.placed → a.faultsShown → b.faultsShown := by intros; assumption
  derates : a.wlc.placed → a.deratesShown → b.deratesShown := by intros; assumption
  envelope : a.wlc.placed → a.envelopeShown → b.envelopeShown := by intros; assumption
  traction : exact = true → a.wlc.placed → a.tractionShown → b.tractionShown := by intros; assumption

variable {exact : Bool} {a b c s t : State}

theorem Upholds.refl (exact : Bool) (a : State) : Upholds exact a a := { }

theorem Upholds.trans (h : Upholds exact a b) (k : Upholds exact b c) : Upholds exact a c :=
  ⟨k.lock ∘ h.lock, k.placed ∘ h.placed, k.apart ∘ h.apart,
    fun p => k.faults (h.placed p) ∘ h.faults p, fun p => k.derates (h.placed p) ∘ h.derates p,
    fun p => k.envelope (h.placed p) ∘ h.envelope p,
    fun e p => k.traction e (h.placed p) ∘ h.traction e p⟩

/-- What is upheld but for the TCU's section. -/
theorem Upholds.loosen (h : Upholds exact a b) : Upholds false a b :=
  { h with traction := nofun }

/-! ### Images over a memory that is the same there -/

theorem State.word_congr {x : Nat} (h0 : t.xm.byte x = s.xm.byte x)
    (h1 : t.xm.byte (x + 1) = s.xm.byte (x + 1)) : t.word x = s.word x := by
  unfold State.word Memory.word
  rw [h0, h1]

/-- The words at an offset go on being shown while their bytes stay. -/
theorem State.showsAt.congr {x : Nat} {ws : List Word} (h : s.showsAt x ws)
    (hb : ∀ y, x ≤ y → y < x + 2 * ws.length → t.xm.byte y = s.xm.byte y) : t.showsAt x ws :=
  fun i hi => (State.word_congr (hb _ (by omega) (by omega)) (hb _ (by omega) (by omega))).trans (h i hi)

theorem derateImage_length (ds : List Derate) : (derateImage ds).length = 192 := by
  unfold derateImage
  rw [List.length_take, List.length_append, List.length_replicate]
  omega

theorem Tcu.words_length (t : Tcu) : t.words.length = 16 := by simp [Tcu.words, longWords]

theorem State.faultsShown.congr (h : s.faultsShown) (hp : ∀ n, t.pru.image n = s.pru.image n)
    (hb : ∀ y, 0x1800 ≤ y → y < 0x1B00 → t.xm.byte y = s.xm.byte y) : t.faultsShown := by
  have hs : t.imageStamp = s.imageStamp := by
    unfold State.imageStamp
    rw [State.word_congr (hb _ (by omega) (by omega)) (hb _ (by omega) (by omega)),
      State.word_congr (hb _ (by omega) (by omega)) (hb _ (by omega) (by omega))]
  unfold State.faultsShown at h ⊢
  rw [hp, hs]
  exact h.congr fun y h1 h2 => hb y h1 (by rw [image_length] at h2; omega)

theorem State.deratesShown.congr (h : s.deratesShown) (hd : t.lmu.derates = s.lmu.derates)
    (hb : ∀ y, 0x1B00 ≤ y → y < 0x1C80 → t.xm.byte y = s.xm.byte y) : t.deratesShown := by
  unfold State.deratesShown at h ⊢
  rw [hd]
  exact h.congr fun y h1 h2 => hb y h1 (by rw [derateImage_length] at h2; omega)

theorem State.envelopeShown.congr (h : s.envelopeShown) (ht : t.rgc.table = s.rgc.table)
    (hb : ∀ y, 0x1C80 ≤ y → y < 0x1CE0 → t.xm.byte y = s.xm.byte y) : t.envelopeShown := fun i hi => by
  rw [ht]
  exact (State.word_congr (hb _ (by omega) (by omega)) (hb _ (by omega) (by omega))).trans (h i hi)

theorem State.tractionShown.congr (h : s.tractionShown) (ht : t.tcu.words = s.tcu.words)
    (hb : ∀ y, 0x2020 ≤ y → y < 0x2040 → t.xm.byte y = s.xm.byte y) : t.tractionShown := by
  unfold State.tractionShown at h ⊢
  rw [ht]
  exact h.congr fun y h1 h2 => hb y h1 (by rw [Tcu.words_length] at h2; omega)

/-! ### The record updates -/

theorem setHostData_upholds (h : Upholds exact a s) (v : Word) : Upholds exact a (s.setHostData v) :=
  h.trans { }

theorem setTripOut_upholds (h : Upholds exact a s) (v : Bool) : Upholds exact a (s.setTripOut v) :=
  h.trans { }

theorem setResetLow_upholds (h : Upholds exact a s) (v : Bool) : Upholds exact a (s.setResetLow v) :=
  h.trans { }

theorem setDraws_upholds (h : Upholds exact a s) (v : Nat) : Upholds exact a (s.setDraws v) :=
  h.trans { }

theorem setTqa_upholds (h : Upholds exact a s) (v : Tqa) : Upholds exact a (s.setTqa v) := h.trans { }

theorem setOre_upholds (h : Upholds exact a s) (v : Ore) : Upholds exact a (s.setOre v) := h.trans { }

theorem setAtc_upholds (h : Upholds exact a s) (v : Atc) : Upholds exact a (s.setAtc v) := h.trans { }

theorem setStc_upholds (h : Upholds exact a s) (v : Stc) : Upholds exact a (s.setStc v) := h.trans { }

theorem setCfl_upholds (h : Upholds exact a s) {v : Cfl} (hv : v.active = s.cfl.active) :
    Upholds exact a (s.setCfl v) :=
  h.trans { lock := fun k => ⟨show v.active.lock ≤ 4500 by rw [hv]; exact k.1, k.2⟩ }

theorem setDmc_upholds (h : Upholds exact a s) {v : Dmc} (hv : v.demand = s.dmc.demand) :
    Upholds exact a (s.setDmc v) :=
  h.trans { lock := fun k => ⟨k.1, show v.demand.steerAngle.natAbs ≤ 4500 by rw [hv]; exact k.2⟩ }

theorem setLmu_upholds (h : Upholds exact a s) {v : Lmu} (hv : v.derates = s.lmu.derates) :
    Upholds exact a (s.setLmu v) :=
  h.trans { derates := fun _ k => k.congr hv fun _ _ _ => rfl }

theorem setRgc_upholds (h : Upholds exact a s) {v : Rgc} (hv : v.table = s.rgc.table) :
    Upholds exact a (s.setRgc v) :=
  h.trans { envelope := fun _ k => k.congr hv fun _ _ _ => rfl }

theorem setTcu_upholds (h : Upholds exact a s) {v : Tcu} (hv : v.words = s.tcu.words) :
    Upholds exact a (s.setTcu v) :=
  h.trans { traction := fun _ _ k => k.congr hv fun _ _ _ => rfl }

theorem setTcu_loosely (h : Upholds false a s) (v : Tcu) : Upholds false a (s.setTcu v) :=
  h.trans { traction := nofun }

/-- The image shows the entries, the summary, the sets and the filter, and nothing else of the PRU. -/
theorem Pru.image_congr {p q : Pru} (h1 : q.entries = p.entries) (h2 : q.summary = p.summary)
    (h3 : q.wheelEx = p.wheelEx) (h4 : q.bankEx = p.bankEx) (h5 : q.filter = p.filter) (n : Long) :
    q.image n = p.image n := by
  unfold Pru.image Pru.summaryWords Pru.latchedCount
  rw [h1, h2, h3, h4, h5]

theorem setPru_upholds (h : Upholds exact a s) {v : Pru} (h1 : v.entries = s.pru.entries)
    (h2 : v.summary = s.pru.summary) (h3 : v.wheelEx = s.pru.wheelEx) (h4 : v.bankEx = s.pru.bankEx)
    (h5 : v.filter = s.pru.filter) : Upholds exact a (s.setPru v) :=
  h.trans { faults := fun _ k => k.congr (Pru.image_congr h1 h2 h3 h4 h5) fun _ _ _ => rfl }

/-! ### Replacements of the link's state -/

/-- The status blocks keep their places when no record and no bank gets another. -/
theorem Wlc.apart.congr {l m : Wlc} (h : l.apart) (hc : m.cursor = l.cursor)
    (hu : ∀ u, (m.unit u).block = (l.unit u).block) (hb : ∀ b, m.bankBlock.get b = l.bankBlock.get b) :
    m.apart :=
  ⟨fun u v k => by rw [hu, hu]; exact h.units u v k, fun u b => by rw [hu, hb]; exact h.mixed u b,
    fun b c k => by rw [hb, hb]; exact h.banks b c k,
    fun u => by rw [hu, hc]; exact h.unitsBehind u, fun b => by rw [hb, hc]; exact h.banksBehind b⟩

theorem Wlc.placed.congr {l m : Wlc} (h : l.placed) (hc : m.cursor = l.cursor)
    (hu : ∀ u, (m.unit u).block = (l.unit u).block) (hb : ∀ b, m.bankBlock.get b = l.bankBlock.get b) :
    m.placed :=
  ⟨by rw [hc]; exact h.1, fun u => by rw [hu]; exact h.2.1 u, fun b => by rw [hb]; exact h.2.2 b⟩

theorem setWlc_upholds_blocks (h : Upholds exact a s) {v : Wlc} (hc : v.cursor = s.wlc.cursor)
    (hu : ∀ u, (v.unit u).block = (s.wlc.unit u).block)
    (hb : ∀ b, v.bankBlock.get b = s.wlc.bankBlock.get b) : Upholds exact a (s.setWlc v) :=
  h.trans { placed := fun k => k.congr hc hu hb, apart := fun k => k.congr hc hu hb }

theorem setWlc_upholds (h : Upholds exact a s) {v : Wlc} (hc : v.cursor = s.wlc.cursor)
    (hw : v.wheels = s.wlc.wheels) (hu : v.sau = s.wlc.sau) (hb : v.bankBlock = s.wlc.bankBlock) :
    Upholds exact a (s.setWlc v) :=
  setWlc_upholds_blocks h hc (fun u => by cases u <;> simp [Wlc.unit, hw, hu]) fun b => by rw [hb]

theorem setUnit_upholds (h : Upholds exact a s) {u : UnitId} {r : UnitRec}
    (hr : r.block = (s.wlc.unit u).block) : Upholds exact a (s.setWlc (s.wlc.setUnit u r)) :=
  setWlc_upholds_blocks h (by cases u <;> rfl)
    (fun v => by rw [Wlc.unit_setUnit]; split <;> simp_all) fun b => by cases u <;> rfl

/-! ### Writes of the exchange memory -/

/-- A write that writes no byte of an image. -/
theorem put_upholds_bytes (h : Upholds exact a s) {x : Nat} {ws : List Word}
    (hx : s.wlc.placed → x + 2 * ws.length ≤ 0x1800 ∨ 0x1CE0 ≤ x ∧ x + 2 * ws.length ≤ 0x2020 ∨
      0x2040 ≤ x) : Upholds exact a (put x ws s) :=
  h.trans {
    faults := fun p k => k.congr (fun _ => rfl) fun y _ _ => byte_store_outside (by have := hx p; omega)
    derates := fun p k => k.congr rfl fun y _ _ => byte_store_outside (by have := hx p; omega)
    envelope := fun p k => k.congr rfl fun y _ _ => byte_store_outside (by have := hx p; omega)
    traction := fun _ p k => k.congr rfl fun y _ _ => byte_store_outside (by have := hx p; omega) }

/-- A write of a section of known length that holds no byte of an image. -/
theorem put_upholds (h : Upholds exact a s) {x : Nat} {ws : List Word} (n : Nat) (hn : ws.length ≤ n)
    (hx : x + 2 * n ≤ 0x1800 ∨ 0x1CE0 ≤ x ∧ x + 2 * n ≤ 0x2020 ∨ 0x2040 ≤ x) :
    Upholds exact a (put x ws s) :=
  put_upholds_bytes h fun _ => by omega

/-- A write of a section of a status block that is placed. -/
theorem putBlock_upholds (h : Upholds exact a s) {block : Option Nat} {offset : Nat} {ws : List Word}
    (hb : s.wlc.placed → blockOk block) : Upholds exact a (putBlock block offset ws s) := by
  cases block with
  | none => exact h
  | some base =>
    refine put_upholds_bytes h fun p => ?_
    have h2 : 0x2100 ≤ base := hb p base rfl
    omega

theorem put_showsAt {x : Nat} {ws : List Word} : (put x ws s).showsAt x ws := fun i hi => by
  rw [put_word hi, List.getD_eq_getElem?_getD, List.getElem?_eq_getElem hi, Option.getD_some]

/-! ### The four writes of an image -/

/-- A long word is put together again from the two words that show it. -/
theorem long_of_words (l : Long) : l.extractLsb' 16 16 ++ l.setWidth 16 = l := by
  apply BitVec.eq_of_getLsbD_eq
  intro i hi
  simp only [BitVec.getLsbD_append, BitVec.getLsbD_setWidth, BitVec.getLsbD_extractLsb']
  by_cases h : i < 16
  · simp [h]
  · have h1 : i - 16 < 16 := by omega
    have h2 : 16 + (i - 16) = i := by omega
    simp [h, h1, h2]

/-- The words of place 47, the summary place. -/
theorem image_summary (p : Pru) (clock : Long) (i : Nat) :
    (p.image clock).getD (376 + i) 0 = (p.summaryWords clock).getD i 0 := by
  unfold Pru.image
  have hl : ∀ ws : List Word, ((ws ++ List.replicate 376 0).take 376).length = 376 := fun ws => by
    rw [List.length_take, List.length_append, List.length_replicate]
    omega
  rw [List.getD_append_right _ _ _ _ (by rw [hl]; omega), hl, Nat.add_sub_cancel_left]

/-- The fault table image as it is written shows the table, stamped at the drive clock (R184). -/
theorem putFaultImage_shown (s : State) : (putFaultImage s).faultsShown := by
  have key : (putFaultImage s).showsAt 0x1800 (s.pru.image s.clock) := put_showsAt
  have summary : ∀ i < 8, (putFaultImage s).word (0x1800 + 2 * (376 + i)) =
      (s.pru.summaryWords s.clock).getD i 0 := fun i hi =>
    (key _ (by rw [image_length]; omega)).trans (image_summary _ _ _)
  have hlow : (putFaultImage s).word 0x1AFA = s.clock.setWidth 16 := summary 5 (by omega)
  have hhigh : (putFaultImage s).word 0x1AFC = s.clock.extractLsb' 16 16 := summary 6 (by omega)
  have hs : (putFaultImage s).imageStamp = s.clock := by
    unfold State.imageStamp
    rw [hlow, hhigh, long_of_words]
  unfold State.faultsShown
  rw [hs]
  exact key

theorem putFaultImage_byte {y : Nat} (s : State) (hy : y < 0x1800 ∨ 0x1B00 ≤ y) :
    (putFaultImage s).xm.byte y = s.xm.byte y :=
  put_byte_outside (by rw [image_length]; omega)

theorem putDerateImage_byte {y : Nat} (s : State) (hy : y < 0x1B00 ∨ 0x1C80 ≤ y) :
    (putDerateImage s).xm.byte y = s.xm.byte y :=
  put_byte_outside (by rw [derateImage_length]; omega)

theorem putTcuSection_byte {y : Nat} (s : State) (hy : y < 0x2020 ∨ 0x2040 ≤ y) :
    (putTcuSection s).xm.byte y = s.xm.byte y :=
  put_byte_outside (by rw [Tcu.words_length]; omega)

theorem envelopeWords_length (table : List Nat) :
    ((table.map natWord ++ List.replicate 48 0).take 48).length = 48 := by
  rw [List.length_take, List.length_append, List.length_replicate]
  omega

theorem putEnvelopeImage_byte {y : Nat} (s : State) (hy : y < 0x1C80 ∨ 0x1CE0 ≤ y) :
    (putEnvelopeImage s).xm.byte y = s.xm.byte y :=
  put_byte_outside (by rw [envelopeWords_length]; omega)

theorem putFaultImage_upholds (h : Upholds exact a s) (v : Pru) :
    Upholds exact a (putFaultImage (s.setPru v)) :=
  h.trans {
    faults := fun _ _ => putFaultImage_shown _
    derates := fun _ k => k.congr rfl fun y _ _ => putFaultImage_byte (s.setPru v) (by omega)
    envelope := fun _ k => k.congr rfl fun y _ _ => putFaultImage_byte (s.setPru v) (by omega)
    traction := fun _ _ k => k.congr rfl fun y _ _ => putFaultImage_byte (s.setPru v) (by omega) }

theorem putDerateImage_upholds (h : Upholds exact a s) (v : Lmu) :
    Upholds exact a (putDerateImage (s.setLmu v)) :=
  h.trans {
    faults := fun _ k => k.congr (fun _ => rfl) fun y _ _ => putDerateImage_byte (s.setLmu v) (by omega)
    derates := fun _ _ => put_showsAt
    envelope := fun _ k => k.congr rfl fun y _ _ => putDerateImage_byte (s.setLmu v) (by omega)
    traction := fun _ _ k => k.congr rfl fun y _ _ => putDerateImage_byte (s.setLmu v) (by omega) }

/-- The TCU's section as it is written shows the TCU, whatever it showed before. -/
theorem putTcuSection_upholds (h : Upholds false a s) : Upholds exact a (putTcuSection s) :=
  have k : Upholds false a (putTcuSection s) := h.trans {
    faults := fun _ k => k.congr (fun _ => rfl) fun y _ _ => putTcuSection_byte s (by omega)
    derates := fun _ k => k.congr rfl fun y _ _ => putTcuSection_byte s (by omega)
    envelope := fun _ k => k.congr rfl fun y _ _ => putTcuSection_byte s (by omega)
    traction := nofun }
  { k with traction := fun _ _ _ => put_showsAt }

/-- The envelope table image as it is written shows the table, 0 beyond its end (R130). -/
theorem putEnvelopeImage_shown (s : State) : (putEnvelopeImage s).envelopeShown := fun i hi => by
  refine (put_showsAt i (by rw [envelopeWords_length]; exact hi)).trans ?_
  show _ = natWord (s.rgc.table.getD i 0)
  rw [List.getD_eq_getElem?_getD, List.getElem?_take_of_lt hi, List.getD_eq_getElem?_getD]
  by_cases h : i < s.rgc.table.length
  · rw [List.getElem?_append_left (by simpa using h), List.getElem?_map, List.getElem?_eq_getElem h]
    rfl
  · rw [List.getElem?_append_right (by simpa using h), List.getElem?_replicate,
      List.getElem?_eq_none (l := s.rgc.table) (by omega)]
    split <;> rfl

theorem putEnvelopeImage_upholds (h : Upholds exact a s) (v : Rgc) :
    Upholds exact a (putEnvelopeImage (s.setRgc v)) :=
  h.trans {
    faults := fun _ k =>
      k.congr (fun _ => rfl) fun y _ _ => putEnvelopeImage_byte (s.setRgc v) (by omega)
    derates := fun _ k => k.congr rfl fun y _ _ => putEnvelopeImage_byte (s.setRgc v) (by omega)
    envelope := fun _ _ => putEnvelopeImage_shown _
    traction := fun _ _ k => k.congr rfl fun y _ _ => putEnvelopeImage_byte (s.setRgc v) (by omega) }

end Sys2Proof.Machine
end

section
/-! SUPPORT. The validation of a configuration block: what a check says of its field, which field a refusal
names, and what the ready mark brings when nothing is accepted (R25 to R27). -/

namespace Sys2Proof.Machine

variable {s t : State} {m : Memory} {f g : Field}

/-! ### One field -/

/-- A bound that another parameter sets is broken as the statement of R25 reads it. -/
theorem Field.inconsistent_iff : f.inconsistent m = true ↔ f.breaksBound m := by
  unfold Field.inconsistent Field.breaksBound
  rcases f.least with _ | ⟨o1, d1⟩ <;> rcases f.most with _ | ⟨o2, d2⟩ <;> rcases f.row with _ | o3 <;>
    rcases f.column with _ | o4 <;> simp [or_assoc]

/-- The pattern check of a guarded word. -/
theorem contains_iff {l : List Nat} {v : Nat} : (¬ l.contains v = true) ↔ ∀ w ∈ l, v ≠ w := by
  simp only [List.contains_iff_mem]
  exact ⟨fun h w hw e => h (e ▸ hw), fun h hv => h v hv rfl⟩

/-- The code of a field's first failing check, ACCEPTED when it passes them all. -/
def Field.code (f : Field) (m : Memory) : Check := (f.check m).getD .accepted

/-- The checks are made in the order of R25. -/
theorem Field.judged (f : Field) (m : Memory) : FieldJudged m f (f.code m) := by
  unfold Field.code Field.check
  have hp : (¬ f.patterns.contains (f.value m) = true) ↔ ∀ v ∈ f.patterns, f.value m ≠ v := contains_iff
  have hb := Field.inconsistent_iff (f := f) (m := m)
  by_cases h1 : f.patterns ≠ [] ∧ ¬ f.patterns.contains (f.value m) = true
  · have h1' : f.patterns ≠ [] ∧ ∀ v ∈ f.patterns, f.value m ≠ v := ⟨h1.1, hp.1 h1.2⟩
    simp only [if_pos h1, Option.getD_some]
    exact ⟨iff_of_true rfl h1', iff_of_false nofun fun k => k.1 h1', iff_of_false nofun fun k => k.1 h1',
      iff_of_false nofun fun k => k.1 h1'⟩
  have h1' : ¬(f.patterns ≠ [] ∧ ∀ v ∈ f.patterns, f.value m ≠ v) := fun k => h1 ⟨k.1, hp.2 k.2⟩
  by_cases h2 : f.value m < f.low ∨ f.high < f.value m
  · simp only [if_neg h1, if_pos h2, Option.getD_some]
    exact ⟨iff_of_false nofun h1', iff_of_true rfl ⟨h1', h2⟩, iff_of_false nofun fun k => by omega,
      iff_of_false nofun fun k => by omega⟩
  have h2' : f.low ≤ f.value m ∧ f.value m ≤ f.high := by omega
  by_cases h3 : f.inconsistent m = true
  · simp only [if_neg h1, if_neg h2, if_pos h3, Option.getD_some]
    exact ⟨iff_of_false nofun h1', iff_of_false nofun fun k => h2 k.2,
      iff_of_true rfl ⟨h1', h2'.1, h2'.2, hb.1 h3⟩, iff_of_false nofun fun k => k.2.2.2.1 (hb.1 h3)⟩
  have h3' : ¬ f.breaksBound m := fun k => h3 (hb.2 k)
  by_cases h4 : f.value m < f.floor
  · simp only [if_neg h1, if_neg h2, if_neg h3, if_pos h4, Option.getD_some]
    exact ⟨iff_of_false nofun h1', iff_of_false nofun fun k => h2 k.2, iff_of_false nofun fun k => h3' k.2.2.2,
      iff_of_true rfl ⟨h1', h2'.1, h2'.2, h3', h4⟩⟩
  · simp only [if_neg h1, if_neg h2, if_neg h3, if_neg h4, Option.getD_none]
    exact ⟨iff_of_false nofun h1', iff_of_false nofun fun k => h2 k.2, iff_of_false nofun fun k => h3' k.2.2.2,
      iff_of_false nofun fun k => h4 k.2.2.2.2⟩

/-- A field fails with a code, never with ACCEPTED. -/
theorem Field.check_ne_accepted {c : Check} (h : f.check m = some c) : c ≠ .accepted := by
  unfold Field.check at h
  dsimp only at h
  split at h
  · simp_all only [Option.some.injEq]; rintro rfl; contradiction
  · split at h
    · simp_all only [Option.some.injEq]; rintro rfl; contradiction
    · split at h
      · simp_all only [Option.some.injEq]; rintro rfl; contradiction
      · split at h
        · simp_all only [Option.some.injEq]; rintro rfl; contradiction
        · contradiction

/-- What a field that passes every check holds: its value is in the fixed range. -/
theorem Field.range_of_check (h : f.check m = none) : f.low ≤ f.value m ∧ f.value m ≤ f.high := by
  unfold Field.check at h
  dsimp only at h
  split at h
  · contradiction
  · split at h
    · contradiction
    · omega

/-! ### The block -/

set_option maxRecDepth 20000 in
/-- Each field stands before the next. -/
theorem fields_chain : (fields.map Field.offset).IsChain (· < ·) := by decide

/-- The fields stand in ascending offset. -/
theorem fields_ascending : fields.Pairwise (fun f g => f.offset < g.offset) :=
  List.pairwise_map.1 (List.isChain_iff_pairwise.1 fields_chain)

/-- No two fields have one offset. -/
theorem fields_offset_inj (hf : f ∈ fields) (hg : g ∈ fields) (h : f.offset = g.offset) : f = g :=
  List.inj_on_of_nodup_map
    ((List.pairwise_map.2 (fields_ascending.imp fun h => Nat.ne_of_lt h) : (fields.map _).Nodup)) hf hg h

/-- The value at a field's offset is the field's. -/
theorem valueAt_of_mem (hf : f ∈ fields) : valueAt m f.offset = f.value m := by
  unfold valueAt
  cases hg : fields.find? fun g => g.offset == f.offset with
  | none => exact absurd (List.find?_eq_none.1 hg f hf) (by simp)
  | some g =>
    have := fields_offset_inj (List.mem_of_find?_eq_some hg) hf (by simpa using List.find?_some hg)
    exact congrArg (Field.value · m) this

/-- The result of a validation, when a field fails: every field before it passes (R25). -/
theorem validate_of_some {r : Check × Nat}
    (h : (fields.findSome? fun f => (f.check m).map fun c => (c, f.offset)) = some r) :
    validate m = r ∧ r.1 ≠ .accepted ∧ ∃ f ∈ fields, f.offset = r.2 ∧ f.code m = r.1 ∧
      ∀ g ∈ fields, g.offset < r.2 → g.check m = none := by
  refine ⟨by unfold validate; rw [h], ?_⟩
  obtain ⟨before, f, after, hsplit, hf, hbefore⟩ := List.findSome?_eq_some_iff.1 h
  obtain ⟨c, hc, rfl⟩ := Option.map_eq_some_iff.1 hf
  refine ⟨Field.check_ne_accepted hc, f, by rw [hsplit]; simp, rfl, by unfold Field.code; rw [hc]; rfl,
    fun g hg hlt => ?_⟩
  have hasc := fields_ascending
  rw [hsplit] at hg hasc
  rcases List.mem_append.1 hg with hg | hg
  · exact Option.map_eq_none_iff.1 (hbefore g hg)
  · rcases List.mem_cons.1 hg with rfl | hg
    · exact absurd hlt (Nat.lt_irrefl _)
    · have := (List.pairwise_cons.1 (List.pairwise_append.1 hasc).2.1).1 g hg
      exact absurd hlt (Nat.lt_asymm this)

theorem validate_of_none (h : (fields.findSome? fun f => (f.check m).map fun c => (c, f.offset)) = none) :
    validate m = (.accepted, 0) ∧ ∀ f ∈ fields, f.check m = none :=
  ⟨by unfold validate; rw [h], fun f hf => Option.map_eq_none_iff.1 (List.findSome?_eq_none_iff.1 h f hf)⟩

/-- A block is accepted when every field passes. -/
theorem validate_accepted_iff : (validate m).1 = .accepted ↔ ∀ f ∈ fields, f.check m = none := by
  cases h : fields.findSome? fun f => (f.check m).map fun c => (c, f.offset) with
  | none => exact iff_of_true (by rw [(validate_of_none h).1]) (validate_of_none h).2
  | some r =>
    obtain ⟨hv, hr, f, hf, -, hcode, -⟩ := validate_of_some h
    refine iff_of_false (by rw [hv]; exact hr) fun hall => hr ?_
    rw [← hcode, Field.code, hall f hf]
    rfl

/-- What R25 says of a validation, of the field that it names and of those before it. -/
theorem validate_judged (m : Memory) :
    ((validate m).1 = .accepted → (validate m).2 = 0 ∧ ∀ f ∈ fields, FieldJudged m f .accepted) ∧
    ((validate m).1 ≠ .accepted → (∃ f ∈ fields, f.offset = (validate m).2) ∧ ∀ f ∈ fields,
      (f.offset < (validate m).2 → FieldJudged m f .accepted) ∧
      (f.offset = (validate m).2 → FieldJudged m f (validate m).1)) := by
  have passes : ∀ f : Field, f.check m = none → FieldJudged m f .accepted := fun f h => by
    have := f.judged m
    rwa [Field.code, h] at this
  cases h : fields.findSome? fun f => (f.check m).map fun c => (c, f.offset) with
  | none =>
    obtain ⟨hv, hall⟩ := validate_of_none h
    rw [hv]
    exact ⟨fun _ => ⟨rfl, fun f hf => passes f (hall f hf)⟩, fun k => absurd rfl k⟩
  | some r =>
    obtain ⟨hv, hr, f, hf, hoff, hcode, hbefore⟩ := validate_of_some h
    rw [hv]
    refine ⟨fun k => absurd k hr, fun _ => ⟨⟨f, hf, hoff⟩, fun g hg =>
      ⟨fun hlt => passes g (hbefore g hg hlt), fun heq => ?_⟩⟩⟩
    rw [fields_offset_inj hg hf (heq.trans hoff.symm), ← hcode]
    exact f.judged m

/-- The lock of an accepted block is in the range of section 2.2. -/
theorem Params.ofBlock_lock (h : (validate m).1 = .accepted) : (Params.ofBlock m).lock ≤ 4500 := by
  have hf : plain 0x07E 500 4500 3800 ∈ fields := by
    have hh : plain 0x07E 500 4500 3800 ∈ fieldsHeat := by simp [fieldsHeat]
    unfold fields
    simp only [List.mem_append, hh, true_or, or_true]
  have hr := Field.range_of_check (validate_accepted_iff.1 h _ hf)
  have hv : valueAt m 0x07E = _ := valueAt_of_mem hf
  show valueAt m 0x07E ≤ 4500
  rw [hv]
  exact hr.2

/-! ### The ready mark (R26, R27) -/

/-- A ready mark that reaches the CFL, at the word that the host wrote. -/
def State.marked (s : State) (v : Word) : State := put 0x0006 [v] s

/-- Both commands that write the ready mark reach the CFL with it. -/
theorem exec_readyMark {c : Instr} {v : Word} (hs : s.isRunning = true)
    (hc : c = .readyMarkWrite v ∨ c = .hostWordWrite 3 v) :
    exec c s = .next (settle (readyMark v (s.marked v))) := by
  rcases hc with rfl | rfl
  · exact whenRunning_of_running hs fun s => settle (readyMark v (put 0x0006 [v] s))
  · exact (whenRunning_of_running hs _).trans (by unfold hostWrite; rw [if_pos rfl]; rfl)

/-- The mark that a host writes over a complete block. -/
theorem readyMark_value : Config.readyMark = 0x3C96 := rfl

theorem readyMark_idle {v : Word} (h : s.cfl.phase ≠ .load ∨ v = 0x3C96 ∧ s.cfl.armed = false) :
    readyMark v s = s := by
  unfold readyMark
  by_cases hp : s.cfl.phase = .load
  · obtain ⟨hv, ha⟩ := h.resolve_left fun k => k hp
    rw [if_pos hp, readyMark_value, if_pos hv, ha]
    rfl
  · rw [if_neg hp]

theorem readyMark_arms {v : Word} (hp : s.cfl.phase = .load) (hv : v ≠ 0x3C96) :
    readyMark v s = s.setCfl { s.cfl with armed := true } := by
  unfold readyMark
  rw [if_pos hp, readyMark_value, if_neg hv]

theorem readyMark_validates (hp : s.cfl.phase = .load) (ha : s.cfl.armed = true) :
    readyMark 0x3C96 s = validateInLoad s := by
  unfold readyMark
  rw [if_pos hp, readyMark_value, if_pos rfl, ha]
  rfl

theorem validateInLoad_refused (h : (validate s.xm).1 ≠ .accepted) :
    validateInLoad s = (showResult (validate s.xm) s).setCfl
      { (showResult (validate s.xm) s).cfl with armed := false } := by
  unfold validateInLoad
  exact if_neg h

/-- A shown result stands in the header, and CONFIG_RESULT is raised (R26). -/
theorem showResult_shows (r : Check × Nat) (s : State) :
    (showResult r s).word 0x0018 = r.1.code ∧ (showResult r s).word 0x001A = natWord r.2 ∧
      Raised [.configResult] s (showResult r s) ∧
      SameOutside [(0x0018, 4), pendingRegion] s (showResult r s) ∧
      { showResult r s with xm := s.xm, atc := s.atc } = s := by
  have hw : ∀ x, x + 2 ≤ 0x0022 → (showResult r s).word x = (put 0x0018 [r.1.code, natWord r.2] s).word x :=
    fun x hx => State.word_congr
      (raise_same .configResult _ x fun q hq => by
        simp only [List.mem_singleton] at hq; subst hq; simp only [pendingRegion]; omega)
      (raise_same .configResult _ (x + 1) fun q hq => by
        simp only [List.mem_singleton] at hq; subst hq; simp only [pendingRegion]; omega)
  refine ⟨(hw _ (by omega)).trans (put_word_first _ _ _ _), (hw _ (by omega)).trans
      (put_word (a := 0x0018) (ws := [r.1.code, natWord r.2]) (i := 1) (by simp)),
    Raised.of_start (t := put 0x0018 [r.1.code, natWord r.2] s) rfl (put_word_outside (by simp))
      (raise_raised .configResult _),
    (put_same 0x0018 [r.1.code, natWord r.2] s |>.mono (by simp)).trans
      ((raise_same .configResult _).mono (by simp)), ?_⟩
  exact congrArg (fun t : State => { t with xm := s.xm })
    (raise_rest .configResult (put 0x0018 [r.1.code, natWord r.2] s))

/-- Settles O15: the ready mark acts by the phase, the word and the armed flag. -/
theorem readyMarkKept : Obligations.ReadyMarkKept := by
  unfold Obligations.ReadyMarkKept
  refine ⟨⟨fields_ascending, fun m r hr => hr ▸ validate_judged m⟩, fun s v c hs hd hc => ?_⟩
  have hexec := exec_readyMark hs hc
  have hword : (s.marked v).word 0x0006 = v := put_word_first _ _ _ _
  have hsame : SameOutside [(0x0006, 2)] s (s.marked v) := put_same 0x0006 [v] s
  refine ⟨fun h => ?_, fun ⟨hp, hv⟩ => ?_, fun r hr ⟨hp, hv, ha, hrefused⟩ => ?_⟩
  · rw [readyMark_idle (s := s.marked v) h, settle_of_same_pru (s := s) (t := s.marked v) rfl hd] at hexec
    exact ⟨_, hexec, hword, hsame, rfl⟩
  · rw [readyMark_arms (s := s.marked v) hp hv, settle_of_same_pru (s := s)
      (t := (s.marked v).setCfl { (s.marked v).cfl with armed := true }) rfl hd] at hexec
    exact ⟨_, hexec, hword, hsame, rfl⟩
  · subst hv hr
    have hval := validateInLoad_refused (s := s.marked 0x3C96) hrefused
    obtain ⟨hcode, hoffset, hraised, hshown, hrest⟩ :=
      showResult_shows (validate (s.marked 0x3C96).xm) (s.marked 0x3C96)
    have hpru : (validateInLoad (s.marked 0x3C96)).pru = s.pru := by
      rw [hval]
      have := congrArg State.pru hrest
      exact this
    have hcfl : (showResult (validate (s.marked 0x3C96).xm) (s.marked 0x3C96)).cfl = s.cfl := by
      have := congrArg State.cfl hrest
      exact this
    rw [readyMark_validates (s := s.marked 0x3C96) hp ha, settle_of_same_pru hpru hd, hval, hcfl] at hexec
    have hraised' : Raised [.configResult] s _ :=
      Raised.of_start (t := s.marked 0x3C96) rfl (put_word_outside (by simp)) hraised
    refine ⟨_, hexec, ?_, hcode, hoffset, ⟨hraised'.pending, hraised'.rest, hraised'.mirror⟩, ?_, ?_⟩
    · refine (State.word_congr (hshown _ ?_) (hshown _ ?_)).trans hword <;> simp [pendingRegion]
    · exact (hsame.mono (by simp)).trans (hshown.mono (by simp))
    · exact congrArg (fun t : State => { t with xm := s.xm, cfl := { s.cfl with armed := false } }) hrest

end Sys2Proof.Machine
end

section
/-! SUPPORT. What the operations keep of the images and of the places of the status blocks. -/

namespace Sys2Proof.Machine

variable {exact : Bool} {a s : State}

theorem raise_upholds (h : Upholds exact a s) (c : Cls) : Upholds exact a (raise c s) := by
  simp only [raise, putPendingMirror]
  split
  · exact h
  · exact put_upholds (setAtc_upholds h _) 1 (by simp) (by omega)

theorem raiseIf_upholds (h : Upholds exact a s) (b : Bool) (c : Cls) : Upholds exact a (raiseIf b c s) := by
  simp only [raiseIf]
  with_reducible
    repeat' first
      | exact h | rfl | apply raise_upholds | split

theorem endService_upholds (h : Upholds exact a s) (c : Cls) : Upholds exact a (endService c s) := by
  simp only [endService, putServiceMirror]
  split
  · exact put_upholds (setAtc_upholds h _) 1 (by simp) (by omega)
  · exact h

theorem presentClass_upholds (h : Upholds exact a s) (c : Cls) :
    Upholds exact a (presentClass c s) := by
  simp only [presentClass, putPendingMirror, putServiceMirror]
  exact setHostData_upholds (put_upholds (setAtc_upholds (put_upholds (setAtc_upholds h _) 1 (by simp)
    (by omega)) _) 1 (by simp) (by omega)) _

theorem poll_upholds (h : Upholds exact a s) : Upholds exact a (poll s) := by
  unfold poll
  generalize Atc.mostUrgent _ _ _ = o
  cases o with
  | none => exact setHostData_upholds h _
  | some c => exact presentClass_upholds h c

theorem endSpecific_upholds (h : Upholds exact a s) (n : BitVec 4) : Upholds exact a (endSpecific n s) := by
  unfold endSpecific
  generalize allClasses.find? _ = o
  cases o with
  | none => exact h
  | some c => exact endService_upholds h c

theorem endNonSpecific_upholds (h : Upholds exact a s) : Upholds exact a (endNonSpecific s) := by
  unfold endNonSpecific
  generalize Atc.mostUrgent _ _ _ = o
  cases o with
  | none => exact h
  | some c => exact endService_upholds h c

theorem writeMask_upholds (h : Upholds exact a s) (value : Word) : Upholds exact a (writeMask value s) := by
  simp only [writeMask]
  with_reducible
    repeat' first
      | exact h | rfl | apply setAtc_upholds

theorem writeThreshold_upholds (h : Upholds exact a s) (value : Word) :
    Upholds exact a (writeThreshold value s) := setAtc_upholds h _

theorem applyPriorities_upholds (h : Upholds exact a s) : Upholds exact a (applyPriorities s) := by
  simp only [applyPriorities]
  with_reducible
    repeat' first
      | exact h | rfl | apply setAtc_upholds

theorem cellBase_bound (cell : BitVec 6) : cellBase cell + 64 ≤ 0x1800 := by
  have := cell.isLt
  unfold cellBase
  omega

theorem writeEnd_upholds (h : Upholds exact a s) (cell : BitVec 6) (r : Result) (detail : List Word) :
    Upholds exact a (writeEnd cell r detail s) := by
  have hc := cellBase_bound cell
  simp only [writeEnd]
  exact put_upholds (put_upholds (put_upholds h 9 (by simp [detailWords]) (by omega)) 2
    (by simp [longWords]) (by omega)) 1 (by simp) (by omega)

theorem endCell_upholds (h : Upholds exact a s) (cell : BitVec 6) (r : Result) (detail : List Word) :
    Upholds exact a (endCell cell r detail s) := by
  simp only [endCell]
  with_reducible
    repeat' first
      | exact h | rfl | apply raise_upholds | apply writeEnd_upholds

theorem endBadArgument_upholds (h : Upholds exact a s) (cell : BitVec 6) (offset : Word) :
    Upholds exact a (endBadArgument cell offset s) := by
  simp only [endBadArgument]
  with_reducible
    repeat' first
      | exact h | rfl | apply endCell_upholds

theorem freeResource_upholds (h : Upholds exact a s) (r : Resource) : Upholds exact a (freeResource r s) := by
  simp only [freeResource]
  with_reducible
    repeat' first
      | exact h | rfl | apply setOre_upholds 

theorem complete_upholds (h : Upholds exact a s) (r : Resource) (cell : BitVec 6) (result : Result) (detail : List Word) :
    Upholds exact a (complete r cell result detail s) := by
  simp only [complete]
  with_reducible
    repeat' first
      | exact h | rfl | apply raise_upholds | apply writeEnd_upholds | apply freeResource_upholds | split

theorem setChain_upholds (h : Upholds exact a s) (o : Ore) : Upholds exact a (setChain o s) := by
  simp only [setChain]
  split
  · exact setOre_upholds h _
  · exact put_upholds (setOre_upholds h _) 3 (by simp) (by omega)

theorem restartChain_upholds (h : Upholds exact a s) (index : BitVec 7) :
    Upholds exact a (restartChain index s) := by
  simp only [restartChain]
  with_reducible
    repeat' first
      | exact h | rfl | apply setChain_upholds | split

/-- A replacement of the table, with the image that it brings, leaves the image true. -/
theorem updatePru_upholds (h : Upholds exact a s) (p : Pru) : Upholds exact a (updatePru p s) := by
  simp only [updatePru]
  split
  case isTrue hk => exact setPru_upholds h hk.1 hk.2.1 hk.2.2.1 hk.2.2.2.1 hk.2.2.2.2
  case isFalse hk => exact putFaultImage_upholds h p

theorem note_upholds (h : Upholds exact a s) (k : Kind) (subject : Subject) (present : Bool) :
    Upholds exact a (note k subject present s) := by
  simp only [note]
  exact raiseIf_upholds (updatePru_upholds h _) _ _

theorem noteIf_upholds (h : Upholds exact a s) (b : Bool) (k : Kind) (subject : Subject) (present : Bool) :
    Upholds exact a (noteIf b k subject present s) := by
  simp only [noteIf]
  with_reducible
    repeat' first
      | exact h | rfl | apply note_upholds | split

theorem reportLoss_upholds (h : Upholds exact a s) (u : UnitId) (present : Bool) :
    Upholds exact a (reportLoss u present s) := by
  simp only [reportLoss]
  with_reducible
    repeat' first
      | exact h | rfl | apply note_upholds | apply setPru_upholds | split

theorem clearProgressOf_upholds (h : Upholds exact a s) (k : Kind) :
    Upholds exact a (clearProgressOf k s) := updatePru_upholds h _

theorem noteOvervolt_upholds (h : Upholds exact a s) (vF : Nat) : Upholds exact a (noteOvervolt vF s) := by
  simp only [noteOvervolt]
  with_reducible
    repeat' first
      | exact h | rfl | apply note_upholds | apply clearProgressOf_upholds | split

theorem observeEscalation_upholds (h : Upholds exact a s) : Upholds exact a (observeEscalation s) := by
  simp only [observeEscalation]
  with_reducible
    repeat' first
      | exact h | rfl | apply note_upholds

theorem rewriteActions_upholds (h : Upholds exact a s) : Upholds exact a (rewriteActions s) := by
  simp only [rewriteActions]
  exact raiseIf_upholds (updatePru_upholds h _) _ _

theorem changeStopMode_upholds (h : Upholds exact a s) : Upholds exact a (changeStopMode s) := by
  simp only [changeStopMode]
  with_reducible
    repeat' first
      | exact h | rfl | apply updatePru_upholds

theorem setTcuWheel_upholds (h : Upholds exact a s) (w : Wheel) (t : TcuWheel) :
    Upholds exact a (setTcuWheel w t s) := setTcu_upholds h rfl

theorem putTraction_upholds (h : Upholds exact a s) (w : Wheel) : Upholds exact a (putTraction w s) :=
  putBlock_upholds h fun p => placed_wheel p w

theorem setVRef_upholds (h : Upholds false a s) (v : Option Nat) : Upholds false a (setVRef v s) := by
  simp only [setVRef]
  with_reducible
    repeat' first
      | exact h | rfl | apply setTcu_loosely

theorem recomputeVRef_upholds (h : Upholds false a s) : Upholds false a (recomputeVRef s) := by
  simp only [recomputeVRef]
  with_reducible
    repeat' first
      | exact h | rfl | apply setVRef_upholds | split

theorem judgeQuality_upholds (h : Upholds false a s) : Upholds false a (judgeQuality s) := by
  simp only [judgeQuality]
  with_reducible
    repeat' first
      | exact h | rfl | apply raise_upholds | apply recomputeVRef_upholds | apply setTcu_loosely | split

theorem recomputeIn_upholds (h : Upholds false a s) (q : Quality) : Upholds false a (recomputeIn q s) := by
  simp only [recomputeIn]
  with_reducible
    repeat' first
      | exact h | rfl | apply recomputeVRef_upholds | split

theorem noteChange_upholds (h : Upholds exact a s) (k : Kind) (subject : Subject) (before after : Bool) :
    Upholds exact a (noteChange k subject before after s) := by
  simp only [noteChange]
  with_reducible
    repeat' first
      | exact h | rfl | apply noteIf_upholds

theorem takeSpeed_upholds (h : Upholds exact a s) (w : Wheel) : Upholds exact a (takeSpeed w s) := by
  simp only [takeSpeed]
  with_reducible
    repeat' first
      | exact h | rfl | apply setTcuWheel_upholds | apply noteChange_upholds

theorem judgeSlip_upholds (h : Upholds exact a s) (w : Wheel) : Upholds exact a (judgeSlip w s) := by
  simp only [judgeSlip]
  with_reducible
    repeat' first
      | exact h | rfl | apply setTcuWheel_upholds | apply noteChange_upholds

theorem tcuReport_upholds (h : Upholds exact a s) (w : Wheel) : Upholds exact a (tcuReport w s) := by
  simp only [tcuReport, runAll]
  with_reducible
    repeat' first
      | exact h | exact h.loosen | rfl | apply putTcuSection_upholds | apply putTraction_upholds
      | apply judgeQuality_upholds | apply recomputeIn_upholds | apply takeSpeed_upholds
      | apply judgeSlip_upholds

theorem tcuSteerReport_upholds (h : Upholds exact a s) : Upholds exact a (tcuSteerReport s) := by
  simp only [tcuSteerReport, runAll]
  with_reducible
    repeat' first
      | exact h | exact h.loosen | rfl | apply putTcuSection_upholds | apply judgeQuality_upholds
      | apply recomputeIn_upholds | split

theorem tcuPage_upholds (h : Upholds exact a s) : Upholds exact a (tcuPage s) := by
  simp only [tcuPage, runAll]
  with_reducible
    repeat' first
      | exact h | exact h.loosen | rfl | apply putTcuSection_upholds | apply judgeQuality_upholds
      | apply recomputeIn_upholds

theorem alterWheel_upholds (h : Upholds exact a s) (w : Wheel) (t : TcuWheel) :
    Upholds exact a (alterWheel w t s) := by
  simp only [alterWheel]
  with_reducible
    repeat' first
      | exact h | rfl | apply setTcuWheel_upholds | apply putTraction_upholds | split

theorem tcuSubstateChange_upholds (h : Upholds exact a s) : Upholds exact a (tcuSubstateChange s) := by
  simp only [tcuSubstateChange, runAll, forWheels]
  with_reducible
    repeat' first
      | exact h | exact h.loosen | rfl | apply putTcuSection_upholds | apply judgeQuality_upholds
      | apply recomputeIn_upholds | apply alterWheel_upholds

theorem excludeAtTcu_upholds (h : Upholds exact a s) (w : Wheel) : Upholds exact a (excludeAtTcu w s) := by
  simp only [excludeAtTcu]
  with_reducible
    repeat' first
      | exact h | rfl | apply noteIf_upholds | apply alterWheel_upholds

theorem tcuExclusion_upholds (h : Upholds exact a s) (before : PerWheel Bool) :
    Upholds exact a (tcuExclusion before s) := by
  simp only [tcuExclusion, runAll, forWheels]
  with_reducible
    repeat' first
      | exact h | exact h.loosen | rfl | apply putTcuSection_upholds | apply judgeQuality_upholds
      | apply recomputeIn_upholds | apply excludeAtTcu_upholds | split

theorem post_upholds (h : Upholds exact a s) (source : DSource) (target : DTarget) (factor : Nat) :
    Upholds exact a (post source target factor s) := by
  simp only [post]
  split
  · exact h
  · exact raiseIf_upholds (putDerateImage_upholds h _) _ _

theorem putLmuSection_upholds (h : Upholds exact a s) : Upholds exact a (putLmuSection s) :=
  put_upholds_bytes h fun _ => by omega

theorem putBankHeat_upholds (h : Upholds exact a s) (b : Bank) : Upholds exact a (putBankHeat b s) :=
  putBlock_upholds h fun p => placed_bank p b

theorem takeAmbient_upholds (h : Upholds exact a s) : Upholds exact a (takeAmbient s) := by
  simp only [takeAmbient]
  with_reducible
    repeat' first
      | exact h | rfl | apply setLmu_upholds

theorem setBlowerFail_upholds (h : Upholds exact a s) : Upholds exact a (setBlowerFail s) := by
  simp only [setBlowerFail]
  with_reducible
    repeat' first
      | exact h | rfl | apply note_upholds | apply post_upholds | apply setLmu_upholds

theorem clearBlowerFail_upholds (h : Upholds exact a s) : Upholds exact a (clearBlowerFail s) := by
  simp only [clearBlowerFail]
  with_reducible
    repeat' first
      | exact h | rfl | apply note_upholds | apply post_upholds | apply setLmu_upholds

theorem judgeBlower_upholds (h : Upholds exact a s) (running : Bool) :
    Upholds exact a (judgeBlower running s) := by
  simp only [judgeBlower]
  with_reducible
    repeat' first
      | exact h | rfl | apply setBlowerFail_upholds | apply clearBlowerFail_upholds
      | apply setLmu_upholds | split

theorem settleDuty_upholds (h : Upholds exact a s) : Upholds exact a (settleDuty s) := by
  simp only [settleDuty]
  with_reducible
    repeat' first
      | exact h | rfl | apply setLmu_upholds

theorem updateHeat_upholds (h : Upholds exact a s) (b : Bank) : Upholds exact a (updateHeat b s) := by
  simp only [updateHeat]
  with_reducible
    repeat' first
      | exact h | rfl | apply setLmu_upholds | apply setRgc_upholds | simp

theorem clearGridHot_upholds (h : Upholds exact a s) (b : Bank) : Upholds exact a (clearGridHot b s) := by
  simp only [clearGridHot]
  with_reducible
    repeat' first
      | exact h | rfl | apply note_upholds | apply setLmu_upholds

theorem judgeGridHot_upholds (h : Upholds exact a s) (b : Bank) : Upholds exact a (judgeGridHot b s) := by
  simp only [judgeGridHot]
  with_reducible
    repeat' first
      | exact h | rfl | apply note_upholds | apply clearGridHot_upholds | apply setLmu_upholds
      | split

theorem dropBank_upholds (h : Upholds exact a s) (b : Bank) : Upholds exact a (dropBank b s) := by
  simp only [dropBank]
  with_reducible
    repeat' first
      | exact h | rfl | apply noteIf_upholds | apply post_upholds | apply setLmu_upholds

theorem sampleBank_upholds (h : Upholds exact a s) (b : Bank) : Upholds exact a (sampleBank b s) := by
  simp only [sampleBank]
  with_reducible
    repeat' first
      | exact h | rfl | apply post_upholds | apply updateHeat_upholds | apply judgeGridHot_upholds
      | apply dropBank_upholds | split

theorem setWindingHot_upholds (h : Upholds exact a s) (w : Wheel) : Upholds exact a (setWindingHot w s) := by
  simp only [setWindingHot]
  with_reducible
    repeat' first
      | exact h | rfl | apply note_upholds | apply setLmu_upholds

theorem clearWindingHot_upholds (h : Upholds exact a s) (w : Wheel) :
    Upholds exact a (clearWindingHot w s) := by
  simp only [clearWindingHot]
  with_reducible
    repeat' first
      | exact h | rfl | apply note_upholds | apply setLmu_upholds

theorem judgeWinding_upholds (h : Upholds exact a s) (w : Wheel) : Upholds exact a (judgeWinding w s) := by
  simp only [judgeWinding]
  with_reducible
    repeat' first
      | exact h | rfl | apply setWindingHot_upholds | apply clearWindingHot_upholds
      | apply setLmu_upholds | split

theorem dropWheel_upholds (h : Upholds exact a s) (w : Wheel) : Upholds exact a (dropWheel w s) := by
  simp only [dropWheel]
  with_reducible
    repeat' first
      | exact h | rfl | apply noteIf_upholds | apply post_upholds | apply setLmu_upholds

theorem sampleWheel_upholds (h : Upholds exact a s) (w : Wheel) : Upholds exact a (sampleWheel w s) := by
  simp only [sampleWheel]
  with_reducible
    repeat' first
      | exact h | rfl | apply post_upholds | apply judgeWinding_upholds | apply dropWheel_upholds
      | apply setLmu_upholds | split

theorem latchPayload_upholds (h : Upholds exact a s) : Upholds exact a (latchPayload s) := by
  simp only [latchPayload]
  with_reducible
    repeat' first
      | exact h | rfl | apply setLmu_upholds | split

theorem countStandstill_upholds (h : Upholds exact a s) : Upholds exact a (countStandstill s) := by
  simp only [countStandstill]
  with_reducible
    repeat' first
      | exact h | rfl | apply latchPayload_upholds | apply setLmu_upholds | split

theorem payloadEffects_upholds (h : Upholds exact a s) : Upholds exact a (payloadEffects s) := by
  simp only [payloadEffects]
  with_reducible
    repeat' first
      | exact h | rfl | apply noteChange_upholds | apply post_upholds | apply setLmu_upholds

theorem lmuPage_upholds (h : Upholds exact a s) : Upholds exact a (lmuPage s) := by
  simp only [lmuPage]
  with_reducible
    repeat' first
      | exact h | rfl | apply putLmuSection_upholds | apply latchPayload_upholds | split

theorem showLmu_upholds (h : Upholds exact a s) : Upholds exact a (showLmu s) := by
  simp only [showLmu, forBanks]
  with_reducible
    repeat' first
      | exact h | rfl | apply putLmuSection_upholds | apply putBankHeat_upholds | split

theorem thermalSteps_upholds (h : Upholds exact a s) (blowerRun : Bool) :
    Upholds exact a (thermalSteps blowerRun s) := by
  simp only [thermalSteps, runAll, forWheels, forBanks]
  with_reducible
    repeat' first
      | exact h | rfl | apply takeAmbient_upholds | apply judgeBlower_upholds | apply settleDuty_upholds
      | apply sampleBank_upholds | apply sampleWheel_upholds | apply countStandstill_upholds
      | apply payloadEffects_upholds | apply showLmu_upholds | split

theorem setUndervolt_upholds (h : Upholds exact a s) : Upholds exact a (setUndervolt s) := by
  simp only [setUndervolt]
  with_reducible
    repeat' first
      | exact h | rfl | apply note_upholds | apply setLmu_upholds

theorem clearUndervolt_upholds (h : Upholds exact a s) : Upholds exact a (clearUndervolt s) := by
  simp only [clearUndervolt]
  with_reducible
    repeat' first
      | exact h | rfl | apply note_upholds | apply setLmu_upholds

theorem judgeUndervolt_upholds (h : Upholds exact a s) (vF : Nat) : Upholds exact a (judgeUndervolt vF s) := by
  simp only [judgeUndervolt]
  with_reducible
    repeat' first
      | exact h | rfl | apply setUndervolt_upholds | apply clearUndervolt_upholds
      | apply setLmu_upholds | split

theorem restLink_upholds (h : Upholds exact a s) : Upholds exact a (restLink s) := by
  simp only [restLink]
  with_reducible
    repeat' first
      | exact h | rfl | apply noteIf_upholds | apply post_upholds | apply setLmu_upholds

theorem lmuLink_upholds (h : Upholds exact a s) : Upholds exact a (lmuLink s) := by
  simp only [lmuLink]
  with_reducible
    repeat' first
      | exact h | rfl | apply post_upholds | apply putLmuSection_upholds | apply judgeUndervolt_upholds
      | apply restLink_upholds | split

theorem lmuConfig_upholds (h : Upholds exact a s) : Upholds exact a (lmuConfig s) := by
  simp only [lmuConfig]
  with_reducible
    repeat' first
      | exact h | rfl | apply setLmu_upholds | split

theorem putStcSection_upholds (h : Upholds exact a s) : Upholds exact a (putStcSection s) :=
  putBlock_upholds (put_upholds_bytes h fun _ => by omega) fun p => placed_sau p

theorem evaluateBias_upholds (h : Upholds exact a s) : Upholds exact a (evaluateBias s) :=
  setStc_upholds h _

theorem formReserve_upholds (h : Upholds exact a s) : Upholds exact a (formReserve s) := by
  simp only [formReserve]
  with_reducible
    repeat' first
      | exact h | rfl | apply setStc_upholds

theorem stopCalibration_upholds (h : Upholds exact a s) (r : CalResult) :
    Upholds exact a (stopCalibration r s) := by
  simp only [stopCalibration]
  with_reducible
    repeat' first
      | exact h | rfl | apply setStc_upholds

theorem endCalibration_upholds (h : Upholds exact a s) (result : Result) (shown : CalResult) (detail : List Word) :
    Upholds exact a (endCalibration result shown detail s) := by
  simp only [endCalibration]
  with_reducible
    repeat' first
      | exact h | rfl | apply complete_upholds | apply stopCalibration_upholds

theorem endCalibrationIf_upholds (h : Upholds exact a s) (b : Bool) (result : Result) (shown : CalResult) :
    Upholds exact a (endCalibrationIf b result shown s) := by
  simp only [endCalibrationIf]
  with_reducible
    repeat' first
      | exact h | rfl | apply endCalibration_upholds | split

theorem readCalibration_upholds (h : Upholds exact a s) : Upholds exact a (readCalibration s) := by
  simp only [readCalibration]
  with_reducible
    repeat' first
      | exact h | rfl | apply endCalibration_upholds | apply setStc_upholds | split

theorem forgetAngle_upholds (h : Upholds exact a s) : Upholds exact a (forgetAngle s) :=
  setStc_upholds h _

theorem sauChange_upholds (h : Upholds exact a s) : Upholds exact a (sauChange s) := by
  simp only [sauChange, runAll]
  with_reducible
    repeat' first
      | exact h | rfl | apply putStcSection_upholds | apply evaluateBias_upholds
      | apply formReserve_upholds | apply endCalibrationIf_upholds | apply forgetAngle_upholds | split

theorem formLimits_upholds (h : Upholds exact a s) : Upholds exact a (formLimits s) := by
  simp only [formLimits]
  with_reducible
    repeat' first
      | exact h | rfl | apply setStc_upholds

theorem fillSlot_upholds (h : Upholds exact a s) : Upholds exact a (fillSlot s) := by
  simp only [fillSlot]
  refine setStc_upholds ?_ _
  exact setUnit_upholds (u := .sau) h rfl

theorem stcTransmit_upholds (h : Upholds exact a s) : Upholds exact a (stcTransmit s) := by
  simp only [stcTransmit, runAll]
  with_reducible
    repeat' first
      | exact h | rfl | apply putStcSection_upholds | apply evaluateBias_upholds
      | apply formReserve_upholds | apply endCalibrationIf_upholds | apply formLimits_upholds
      | apply fillSlot_upholds

theorem takeAngle_upholds (h : Upholds exact a s) : Upholds exact a (takeAngle s) :=
  setStc_upholds h _

theorem judgeTracking_upholds (h : Upholds exact a s) : Upholds exact a (judgeTracking s) := by
  simp only [judgeTracking]
  exact noteChange_upholds (setStc_upholds h _) _ _ _ _

theorem stcReport_upholds (h : Upholds exact a s) : Upholds exact a (stcReport s) := by
  simp only [stcReport, runAll]
  with_reducible
    repeat' first
      | exact h | rfl | apply putStcSection_upholds | apply evaluateBias_upholds
      | apply readCalibration_upholds | apply takeAngle_upholds | apply judgeTracking_upholds

theorem stcSubstateChange_upholds (h : Upholds exact a s) : Upholds exact a (stcSubstateChange s) := by
  simp only [stcSubstateChange, runAll]
  with_reducible
    repeat' first
      | exact h | rfl | apply putStcSection_upholds | apply evaluateBias_upholds

theorem stcModeChange_upholds (h : Upholds exact a s) : Upholds exact a (stcModeChange s) := by
  simp only [stcModeChange, runAll]
  with_reducible
    repeat' first
      | exact h | rfl | apply putStcSection_upholds | apply endCalibrationIf_upholds

theorem startCalibration_upholds (h : Upholds exact a s) (cell : BitVec 6) :
    Upholds exact a (startCalibration cell s) := by
  simp only [startCalibration]
  with_reducible
    repeat' first
      | exact h | rfl | apply putStcSection_upholds | apply setStc_upholds

theorem abortCalibration_upholds (h : Upholds exact a s) : Upholds exact a (abortCalibration s) := by
  simp only [abortCalibration]
  with_reducible
    repeat' first
      | exact h | rfl | apply putStcSection_upholds | apply stopCalibration_upholds

theorem changeCauses_upholds (h : Upholds exact a s) (c : Causes) : Upholds exact a (changeCauses c s) := by
  simp only [changeCauses]
  with_reducible
    repeat' first
      | exact h | rfl | apply raise_upholds | apply setRgc_upholds | split

theorem putRgcSection_upholds (h : Upholds exact a s) : Upholds exact a (putRgcSection s) :=
  put_upholds_bytes h fun _ => by omega

theorem putBankSection_upholds (h : Upholds exact a s) (b : Bank) : Upholds exact a (putBankSection b s) := by
  simp only [putBankSection]
  split
  · exact putBlock_upholds h fun p => placed_bank p b
  · exact h

theorem takeVoltage_upholds (h : Upholds exact a s) (volts : Nat) :
    Upholds exact a (takeVoltage volts s) := setRgc_upholds h rfl

theorem recomputeCapacity_upholds (h : Upholds exact a s) : Upholds exact a (recomputeCapacity s) := by
  simp only [recomputeCapacity]
  with_reducible
    repeat' first
      | exact h | rfl | apply setRgc_upholds

theorem takeFiltered_upholds (h : Upholds exact a s) : Upholds exact a (takeFiltered s) :=
  setRgc_upholds h rfl

theorem sortRotation_upholds (h : Upholds exact a s) : Upholds exact a (sortRotation s) := by
  simp only [sortRotation]
  with_reducible
    repeat' first
      | exact h | rfl | apply setRgc_upholds

theorem setChan_upholds (h : Upholds exact a s) (b : Bank) (c : Chan) : Upholds exact a (setChan b c s) := by
  simp only [setChan]
  with_reducible
    repeat' first
      | exact h | rfl | apply setRgc_upholds

theorem cutPhase_upholds (h : Upholds exact a s) (b : Bank) : Upholds exact a (cutPhase b s) := by
  simp only [cutPhase]
  with_reducible
    repeat' first
      | exact h | rfl | apply setChan_upholds | apply setDraws_upholds | split

theorem cutIfOff_upholds (h : Upholds exact a s) (st : ChanState) (b : Bank) :
    Upholds exact a (cutIfOff st b s) := by
  simp only [cutIfOff]
  with_reducible
    repeat' first
      | exact h | rfl | apply cutPhase_upholds | split

theorem judgeChannel_upholds (h : Upholds exact a s) (b : Bank) : Upholds exact a (judgeChannel b s) := by
  simp only [judgeChannel]
  with_reducible
    repeat' first
      | exact h | rfl | apply putBankSection_upholds | apply setChan_upholds | apply cutIfOff_upholds
      | split

theorem judgeChannels_upholds (h : Upholds exact a s) : Upholds exact a (judgeChannels s) := by
  simp only [judgeChannels, forBanks]
  with_reducible
    repeat' first
      | exact h | rfl | apply judgeChannel_upholds

theorem recomputeBlower_upholds (h : Upholds exact a s) : Upholds exact a (recomputeBlower s) := by
  simp only [recomputeBlower]
  with_reducible
    repeat' first
      | exact h | rfl | apply setLmu_upholds | apply setRgc_upholds | simp

theorem showTest_upholds (h : Upholds exact a s) (b : Bank) (f : BankShow → BankShow) :
    Upholds exact a (showTest b f s) := by
  simp only [showTest]
  with_reducible
    repeat' first
      | exact h | rfl | apply putBankSection_upholds | apply setRgc_upholds | split

theorem setTest_upholds (h : Upholds exact a s) (t : Option GridTest) : Upholds exact a (setTest t s) := by
  simp only [setTest]
  with_reducible
    repeat' first
      | exact h | rfl | apply setRgc_upholds

theorem nextBank_upholds (h : Upholds exact a s) : Upholds exact a (nextBank s) := by
  simp only [nextBank]
  with_reducible
    repeat' first
      | exact h | rfl | apply complete_upholds | apply judgeChannel_upholds | apply judgeChannels_upholds
      | apply showTest_upholds | apply setTest_upholds | split

theorem passBank_upholds (h : Upholds exact a s) (b : Bank) : Upholds exact a (passBank b s) := by
  simp only [passBank]
  with_reducible
    repeat' first
      | exact h | rfl | apply judgeChannel_upholds | apply showTest_upholds | apply setTest_upholds
      | apply nextBank_upholds | split

theorem stopTest_upholds (h : Upholds exact a s) : Upholds exact a (stopTest s) := by
  simp only [stopTest]
  with_reducible
    repeat' first
      | exact h | rfl | apply cutPhase_upholds | apply judgeChannels_upholds | apply showTest_upholds
      | apply setTest_upholds | split

theorem abortTestIf_upholds (h : Upholds exact a s) (b : Bool) : Upholds exact a (abortTestIf b s) := by
  simp only [abortTestIf]
  with_reducible
    repeat' first
      | exact h | rfl | apply complete_upholds | apply stopTest_upholds | split

theorem skipWaiting_upholds (h : Upholds exact a s) (b : Bank) : Upholds exact a (skipWaiting b s) := by
  simp only [skipWaiting]
  with_reducible
    repeat' first
      | exact h | rfl | apply showTest_upholds | apply setTest_upholds | split

theorem skipCurrent_upholds (h : Upholds exact a s) : Upholds exact a (skipCurrent s) := by
  simp only [skipCurrent]
  with_reducible
    repeat' first
      | exact h | rfl | apply judgeChannel_upholds | apply showTest_upholds | apply setTest_upholds
      | apply nextBank_upholds | split

theorem startTest_upholds (h : Upholds exact a s) (cell : BitVec 6) (banks duty count : Word) :
    Upholds exact a (startTest cell banks duty count s) := by
  simp only [startTest]
  with_reducible
    repeat' first
      | exact h | rfl | apply setTest_upholds | apply nextBank_upholds

theorem lowerLowest_upholds (h : Upholds exact a s) : Upholds exact a (lowerLowest s) := by
  simp only [lowerLowest]
  with_reducible
    repeat' first
      | exact h | rfl | apply showTest_upholds | apply setTest_upholds | split

theorem checkTestStandstill_upholds (h : Upholds exact a s) : Upholds exact a (checkTestStandstill s) := by
  simp only [checkTestStandstill]
  with_reducible
    repeat' first
      | exact h | rfl | apply abortTestIf_upholds

theorem countPulse_upholds (h : Upholds exact a s) (b : Bank) : Upholds exact a (countPulse b s) := by
  simp only [countPulse]
  with_reducible
    repeat' first
      | exact h | rfl | apply showTest_upholds | apply setTest_upholds | split

theorem bankPeriod_upholds (h : Upholds exact a s) (b : Bank) : Upholds exact a (bankPeriod b s) := by
  simp only [bankPeriod]
  with_reducible
    repeat' first
      | exact h | rfl | apply setChan_upholds | apply passBank_upholds | apply countPulse_upholds | split

theorem blowerPeriod_upholds (h : Upholds exact a s) : Upholds exact a (blowerPeriod s) := by
  simp only [blowerPeriod]
  with_reducible
    repeat' first
      | exact h | rfl | apply setRgc_upholds | split

theorem bankExpiry_upholds (h : Upholds exact a s) (b : Bank) : Upholds exact a (bankExpiry b s) := by
  simp only [bankExpiry]
  with_reducible
    repeat' first
      | exact h | rfl | apply setChan_upholds | apply passBank_upholds | split

theorem blowerExpiry_upholds (h : Upholds exact a s) : Upholds exact a (blowerExpiry s) := by
  simp only [blowerExpiry]
  with_reducible
    repeat' first
      | exact h | rfl | apply setRgc_upholds | split

theorem writeShadow_upholds (h : Upholds exact a s) (b : Bank) (duty : Nat) :
    Upholds exact a (writeShadow b duty s) := by
  simp only [writeShadow]
  with_reducible
    repeat' first
      | exact h | rfl | apply setChan_upholds | split

theorem foldl_writeShadow_upholds (h : Upholds exact a s) (l : List Bank) : Upholds exact a (l.foldl (fun s n => writeShadow n 0 s) s) := by
  induction l generalizing s with
  | nil => exact h
  | cons n l ih => exact ih (writeShadow_upholds h _ _)

theorem distributeNone_upholds (h : Upholds exact a s) (need : Nat) :
    Upholds exact a (distributeNone need s) := by
  simp only [distributeNone]
  with_reducible
    repeat' first
      | exact h | rfl | apply writeShadow_upholds | apply setRgc_upholds
      | apply foldl_writeShadow_upholds

theorem showFull_upholds (h : Upholds exact a s) : Upholds exact a (showFull s) := by
  simp only [showFull]
  with_reducible
    repeat' first
      | exact h | rfl | apply setRgc_upholds

theorem distribute_upholds (h : Upholds exact a s) (bs : List Bank) (remaining : Nat) :
    Upholds exact a (distribute bs remaining s) := by
  induction bs generalizing remaining s with
  | nil => exact setRgc_upholds h rfl
  | cons b bs ih =>
    simp only [distribute]
    split
    · exact ih h _
    · exact ih (writeShadow_upholds h _ _) _

theorem arrival_upholds (h : Upholds exact a s) : Upholds exact a (arrival s) := by
  simp only [arrival]
  with_reducible
    repeat' first
      | exact h | rfl | apply distributeNone_upholds | apply showFull_upholds | apply distribute_upholds
      | apply setRgc_upholds | split

theorem postDemand_upholds (h : Upholds exact a s) (pRet : Nat) : Upholds exact a (postDemand pRet s) := by
  simp only [postDemand]
  with_reducible
    repeat' first
      | exact h | rfl | apply setRgc_upholds

theorem formEnvelope_upholds (h : Upholds exact a s) : Upholds exact a (formEnvelope s) := by
  simp only [formEnvelope]
  with_reducible
    repeat' first
      | exact h | rfl | apply setRgc_upholds

theorem formHold_upholds (h : Upholds exact a s) : Upholds exact a (formHold s) := by
  simp only [formHold]
  with_reducible
    repeat' first
      | exact h | rfl | apply setRgc_upholds

theorem updateHold_upholds (h : Upholds exact a s) : Upholds exact a (updateHold s) := by
  simp only [updateHold]
  split <;> exact setRgc_upholds h rfl

theorem changeExceeded_upholds (h : Upholds exact a s) (present : Bool) :
    Upholds exact a (changeExceeded present s) := by
  simp only [changeExceeded]
  with_reducible
    repeat' first
      | exact h | rfl | apply raise_upholds | apply note_upholds | apply changeCauses_upholds
      | apply setRgc_upholds | split

theorem countEnvelope_upholds (h : Upholds exact a s) : Upholds exact a (countEnvelope s) := by
  simp only [countEnvelope]
  with_reducible
    repeat' first
      | exact h | rfl | apply changeExceeded_upholds | apply setRgc_upholds | split

theorem restHold_upholds (h : Upholds exact a s) : Upholds exact a (restHold s) := by
  simp only [restHold]
  refine changeExceeded_upholds (setRgc_upholds h ?_) _
  rfl

theorem addShortfall_upholds (h : Upholds exact a s) : Upholds exact a (addShortfall s) := by
  simp only [addShortfall]
  with_reducible
    repeat' first
      | exact h | rfl | apply changeCauses_upholds | apply setRgc_upholds

theorem removeShortfall_upholds (h : Upholds exact a s) : Upholds exact a (removeShortfall s) := by
  simp only [removeShortfall]
  with_reducible
    repeat' first
      | exact h | rfl | apply changeCauses_upholds | apply setRgc_upholds

theorem testShortfall_upholds (h : Upholds exact a s) : Upholds exact a (testShortfall s) := by
  simp only [testShortfall]
  with_reducible
    repeat' first
      | exact h | rfl | apply changeCauses_upholds | apply addShortfall_upholds
      | apply removeShortfall_upholds | apply setRgc_upholds | split

theorem testPostReset_upholds (h : Upholds exact a s) : Upholds exact a (testPostReset s) := by
  simp only [testPostReset]
  with_reducible
    repeat' first
      | exact h | rfl | apply changeCauses_upholds | split

theorem takeHoldPeriod_upholds (h : Upholds exact a s) : Upholds exact a (takeHoldPeriod s) := by
  simp only [takeHoldPeriod]
  with_reducible
    repeat' first
      | exact h | rfl | apply setRgc_upholds

theorem holdSteps_upholds (h : Upholds exact a s) : Upholds exact a (holdSteps s) := by
  simp only [holdSteps, runAll]
  with_reducible
    repeat' first
      | exact h | rfl | apply putRgcSection_upholds | apply formEnvelope_upholds | apply formHold_upholds
      | apply updateHold_upholds | apply countEnvelope_upholds | apply restHold_upholds
      | apply testShortfall_upholds | apply testPostReset_upholds | apply takeHoldPeriod_upholds | split

theorem setEnvelope_upholds (h : Upholds exact a s) (t : List Nat) :
    Upholds exact a (setEnvelope t s) := putEnvelopeImage_upholds h _

theorem followBanks_upholds (h : Upholds exact a s) (before : PerBank Bool) :
    Upholds exact a (followBanks before s) := by
  simp only [followBanks, runAll, forBanks]
  with_reducible
    repeat' first
      | exact h | rfl | apply sortRotation_upholds
      | apply judgeChannels_upholds | apply skipWaiting_upholds | apply skipCurrent_upholds | split

theorem rgcExclusion_upholds (h : Upholds exact a s) (before : PerBank Bool) :
    Upholds exact a (rgcExclusion before s) := by
  simp only [rgcExclusion]
  with_reducible
    repeat' first
      | exact h | rfl | apply recomputeCapacity_upholds | apply followBanks_upholds | split

theorem startDischarge_upholds (h : Upholds exact a s) : Upholds exact a (startDischarge s) := by
  simp only [startDischarge]
  with_reducible
    repeat' first
      | exact h | rfl | apply setRgc_upholds

theorem rgcModeChange_upholds (h : Upholds exact a s) : Upholds exact a (rgcModeChange s) := by
  simp only [rgcModeChange, runAll]
  with_reducible
    repeat' first
      | exact h | rfl | apply changeCauses_upholds | apply judgeChannels_upholds
      | apply recomputeBlower_upholds | apply abortTestIf_upholds | apply startDischarge_upholds

theorem rgcSubstateChange_upholds (h : Upholds exact a s) : Upholds exact a (rgcSubstateChange s) := by
  simp only [rgcSubstateChange]
  with_reducible
    repeat' first
      | exact h | rfl | apply recomputeBlower_upholds

theorem rgcConfig_upholds (h : Upholds exact a s) : Upholds exact a (rgcConfig s) := by
  simp only [rgcConfig, runAll]
  with_reducible
    repeat' first
      | exact h | rfl | apply recomputeCapacity_upholds | apply sortRotation_upholds
      | apply judgeChannels_upholds | apply setEnvelope_upholds

theorem startBlower_upholds (h : Upholds exact a s) : Upholds exact a (startBlower s) := by
  simp only [startBlower]
  with_reducible
    repeat' first
      | exact h | rfl | apply setRgc_upholds | split

theorem allocate_upholds (h : Upholds exact a s) : Upholds exact a (allocate s) := by
  simp only [allocate]
  with_reducible
    repeat' first
      | exact h | rfl | apply setTqa_upholds

theorem skipAllocation_upholds (h : Upholds exact a s) : Upholds exact a (skipAllocation s) := by
  simp only [skipAllocation]
  with_reducible
    repeat' first
      | exact h | rfl | apply setTqa_upholds

theorem setSlot_upholds (h : Upholds exact a s) (w : Wheel) (torque : Int) :
    Upholds exact a (setSlot w torque s) :=
  setUnit_upholds h (u := .wheel w) rfl

theorem writeSlots_upholds (h : Upholds exact a s) : Upholds exact a (writeSlots s) := by
  simp only [writeSlots, forWheels]
  with_reducible
    repeat' first
      | exact h | rfl | apply setSlot_upholds

theorem postRetard_upholds (h : Upholds exact a s) : Upholds exact a (postRetard s) := by
  simp only [postRetard]
  with_reducible
    repeat' first
      | exact h | rfl | apply postDemand_upholds | apply setTqa_upholds

theorem updateCredit_upholds (h : Upholds exact a s) (w : Wheel) : Upholds exact a (updateCredit w s) := by
  simp only [updateCredit]
  with_reducible
    repeat' first
      | exact h | rfl | apply noteChange_upholds | apply setTqa_upholds | split

theorem updateCredits_upholds (h : Upholds exact a s) : Upholds exact a (updateCredits s) := by
  simp only [updateCredits, forWheels]
  with_reducible
    repeat' first
      | exact h | rfl | apply updateCredit_upholds | split

theorem putAllocator_upholds (h : Upholds exact a s) (w : Wheel) : Upholds exact a (putAllocator w s) := by
  simp only [putAllocator]
  split
  · exact putBlock_upholds h fun p => placed_wheel p w
  · exact h

theorem putTqaSection_upholds (h : Upholds exact a s) : Upholds exact a (putTqaSection s) :=
  put_upholds_bytes h fun _ => by omega

theorem takeAllocPeriod_upholds (h : Upholds exact a s) : Upholds exact a (takeAllocPeriod s) := by
  simp only [takeAllocPeriod]
  with_reducible
    repeat' first
      | exact h | rfl | apply setTqa_upholds

theorem allocationSteps_upholds (h : Upholds exact a s) : Upholds exact a (allocationSteps s) := by
  simp only [allocationSteps, runAll, forWheels]
  with_reducible
    repeat' first
      | exact h | rfl | apply allocate_upholds | apply skipAllocation_upholds | apply writeSlots_upholds
      | apply postRetard_upholds | apply updateCredits_upholds | apply putAllocator_upholds
      | apply putTqaSection_upholds | apply takeAllocPeriod_upholds | split

theorem setLimitValues_upholds (h : Upholds exact a s) (forward reverse cap : Word) :
    Upholds exact a (setLimitValues forward reverse cap s) := by
  simp only [setLimitValues]
  with_reducible
    repeat' first
      | exact h | rfl | apply setTqa_upholds

theorem tqaConfig_upholds (h : Upholds exact a s) : Upholds exact a (tqaConfig s) := by
  simp only [tqaConfig]
  with_reducible
    repeat' first
      | exact h | rfl | apply setTqa_upholds

theorem changeUnit_upholds (h : Upholds exact a s) {u : UnitId} {r : UnitRec} (hr : r.block = (s.wlc.unit u).block) :
    Upholds exact a (changeUnit u r s) := by
  simp only [changeUnit]
  split
  · exact sauChange_upholds (setUnit_upholds h hr)
  · exact setUnit_upholds h hr

theorem putLink_upholds (h : Upholds exact a s) (u : UnitId) : Upholds exact a (putLink u s) :=
  putBlock_upholds h fun p => placed_unit p u

theorem takeConfigured_upholds (h : Upholds exact a s) (u : UnitId) :
    Upholds exact a (takeConfigured u s) := by
  simp only [takeConfigured]
  split
  · refine changeUnit_upholds h ?_
    rfl
  · split
    · refine putLink_upholds (reportLoss_upholds (changeUnit_upholds h ?_) _ _) _
      rfl
    · exact h

/-- A record's block is placed at the cursor, behind every other block (R43). -/
theorem Wlc.apart.placeUnit {l m : Wlc} (h : l.apart) (u : UnitId)
    (hu : ∀ v, (m.unit v).block = if v = u then some l.cursor else (l.unit v).block)
    (hb : ∀ b, m.bankBlock.get b = l.bankBlock.get b) (hc : m.cursor = l.cursor + 256) : m.apart := by
  refine ⟨fun v w hne x hx y hy => ?_, fun v b x hx y hy => ?_,
    fun b c hne => by rw [hb, hb]; exact h.banks b c hne, fun v x hx => ?_, fun b x hx => ?_⟩
  · rw [hu] at hx hy
    split at hx
    case isTrue hv =>
      rw [if_neg fun k => hne (hv.trans k.symm)] at hy
      have := h.unitsBehind w y hy
      exact Or.inr (Option.mem_some_iff.1 hx ▸ this)
    case isFalse hv =>
      split at hy
      · have := h.unitsBehind v x hx
        exact Or.inl (Option.mem_some_iff.1 hy ▸ this)
      · exact h.units v w hne x hx y hy
  · rw [hu] at hx
    rw [hb] at hy
    split at hx
    · have := h.banksBehind b y hy
      exact Or.inr (Option.mem_some_iff.1 hx ▸ this)
    · exact h.mixed v b x hx y hy
  · rw [hu] at hx
    rw [hc]
    split at hx
    · rw [Option.mem_some_iff.1 hx]
    · exact Nat.le_add_right_of_le (h.unitsBehind v x hx)
  · rw [hb] at hx
    rw [hc]
    exact Nat.le_add_right_of_le (h.banksBehind b x hx)

theorem Wlc.placed.placeUnit {l m : Wlc} (h : l.placed) (u : UnitId)
    (hu : ∀ v, (m.unit v).block = if v = u then some l.cursor else (l.unit v).block)
    (hb : ∀ b, m.bankBlock.get b = l.bankBlock.get b) (hc : m.cursor = l.cursor + 256) : m.placed := by
  refine ⟨by rw [hc]; exact Nat.le_add_right_of_le h.1, fun v x hx => ?_, fun b => by rw [hb]; exact h.2.2 b⟩
  rw [hu] at hx
  split at hx
  · exact Option.mem_some_iff.1 hx ▸ h.1
  · exact h.2.1 v x hx

theorem placeUnit_upholds (h : Upholds exact a s) (u : UnitId) : Upholds exact a (placeUnit u s) := by
  have hd := unitDirectory_bounds u
  let m := ({ s.wlc with cursor := s.wlc.cursor + 256 } : Wlc).setUnit u
    { s.wlc.unit u with block := some s.wlc.cursor }
  have hu : ∀ v, (m.unit v).block = if v = u then some s.wlc.cursor else (s.wlc.unit v).block := fun v => by
    rw [Wlc.unit_setUnit]
    split
    · rfl
    · cases v <;> rfl
  have hb : ∀ b, m.bankBlock.get b = s.wlc.bankBlock.get b := fun b => by cases u <;> rfl
  have hc : m.cursor = s.wlc.cursor + 256 := by cases u <;> rfl
  simp only [placeUnit]
  exact putLink_upholds (put_upholds (h.trans (c := s.setWlc m) {
    placed := fun k => k.placeUnit u hu hb hc
    apart := fun k => k.placeUnit u hu hb hc }) 1 (by simp) (by omega)) _

/-- A bank's block is placed at the cursor, behind every other block (R43). -/
theorem Wlc.apart.placeBank {l m : Wlc} (h : l.apart) (b : Bank)
    (hu : ∀ v, (m.unit v).block = (l.unit v).block)
    (hb : ∀ c, m.bankBlock.get c = if c = b then some l.cursor else l.bankBlock.get c)
    (hc : m.cursor = l.cursor + 256) : m.apart := by
  refine ⟨fun v w hne => by rw [hu, hu]; exact h.units v w hne, fun v c x hx y hy => ?_,
    fun c d hne x hx y hy => ?_, fun v x hx => ?_, fun c x hx => ?_⟩
  · rw [hu] at hx
    rw [hb] at hy
    split at hy
    · have := h.unitsBehind v x hx
      exact Or.inl (Option.mem_some_iff.1 hy ▸ this)
    · exact h.mixed v c x hx y hy
  · rw [hb] at hx hy
    split at hx
    case isTrue hv =>
      rw [if_neg fun k => hne (hv.trans k.symm)] at hy
      have := h.banksBehind d y hy
      exact Or.inr (Option.mem_some_iff.1 hx ▸ this)
    case isFalse hv =>
      split at hy
      · have := h.banksBehind c x hx
        exact Or.inl (Option.mem_some_iff.1 hy ▸ this)
      · exact h.banks c d hne x hx y hy
  · rw [hu] at hx
    rw [hc]
    exact Nat.le_add_right_of_le (h.unitsBehind v x hx)
  · rw [hb] at hx
    rw [hc]
    split at hx
    · rw [Option.mem_some_iff.1 hx]
    · exact Nat.le_add_right_of_le (h.banksBehind c x hx)

theorem Wlc.placed.placeBank {l m : Wlc} (h : l.placed) (b : Bank)
    (hu : ∀ v, (m.unit v).block = (l.unit v).block)
    (hb : ∀ c, m.bankBlock.get c = if c = b then some l.cursor else l.bankBlock.get c)
    (hc : m.cursor = l.cursor + 256) : m.placed := by
  refine ⟨by rw [hc]; exact Nat.le_add_right_of_le h.1, fun v => by rw [hu]; exact h.2.1 v, fun c x hx => ?_⟩
  rw [hb] at hx
  split at hx
  · exact Option.mem_some_iff.1 hx ▸ h.1
  · exact h.2.2 c x hx

theorem placeBank_upholds (h : Upholds exact a s) (b : Bank) : Upholds exact a (placeBank b s) := by
  have hd := bankDirectory_bounds b
  let m := { s.wlc with
    cursor := s.wlc.cursor + 256, bankBlock := s.wlc.bankBlock.set b (some s.wlc.cursor) }
  have hu : ∀ v, (m.unit v).block = (s.wlc.unit v).block := fun v => by cases v <;> rfl
  have hb : ∀ c, m.bankBlock.get c = if c = b then some s.wlc.cursor else s.wlc.bankBlock.get c :=
    fun c => PerBank_get_set _ _ _ _
  simp only [placeBank]
  exact put_upholds (h.trans (c := s.setWlc m) {
    placed := fun k => k.placeBank b hu hb rfl
    apart := fun k => k.placeBank b hu hb rfl }) 1 (by simp) (by omega)

theorem placeIfEnrolled_upholds (h : Upholds exact a s) (u : UnitId) :
    Upholds exact a (placeIfEnrolled u s) := by
  simp only [placeIfEnrolled]
  with_reducible
    repeat' first
      | exact h | rfl | apply placeUnit_upholds | split

theorem placeIfConfigured_upholds (h : Upholds exact a s) (b : Bank) :
    Upholds exact a (placeIfConfigured b s) := by
  simp only [placeIfConfigured]
  with_reducible
    repeat' first
      | exact h | rfl | apply placeBank_upholds | split

theorem placeBlocks_upholds (h : Upholds exact a s) : Upholds exact a (placeBlocks s) := by
  simp only [placeBlocks, forBanks, forUnits, forWheels]
  with_reducible
    repeat' first
      | exact h | rfl | apply placeIfEnrolled_upholds | apply placeIfConfigured_upholds

theorem setOrder_upholds (h : Upholds exact a s) (o : Option EnrollOrder) :
    Upholds exact a (setOrder o s) := by
  simp only [setOrder]
  with_reducible
    repeat' first
      | exact h | rfl | apply setWlc_upholds

theorem endOrder_upholds (h : Upholds exact a s) : Upholds exact a (endOrder s) := by
  simp only [endOrder]
  with_reducible
    repeat' first
      | exact h | rfl | apply setWlc_upholds

theorem nextTarget_upholds (h : Upholds exact a s) : Upholds exact a (nextTarget s) := by
  simp only [nextTarget]
  with_reducible
    repeat' first
      | exact h | rfl | apply complete_upholds | apply setOrder_upholds | apply endOrder_upholds | split

theorem finishTarget_upholds (h : Upholds exact a s) (u : UnitId) (isFound : Bool) :
    Upholds exact a (finishTarget u isFound s) := by
  simp only [finishTarget]
  with_reducible
    repeat' first
      | exact h | rfl | apply setOrder_upholds | apply nextTarget_upholds | split

theorem abortRollCall_upholds (h : Upholds exact a s) : Upholds exact a (abortRollCall s) := by
  simp only [abortRollCall]
  with_reducible
    repeat' first
      | exact h | rfl | apply complete_upholds | apply setOrder_upholds | apply endOrder_upholds | split

theorem startRollCallOrder_upholds (h : Upholds exact a s) (cell : BitVec 6) :
    Upholds exact a (startRollCallOrder cell s) := by
  simp only [startRollCallOrder]
  with_reducible
    repeat' first
      | exact h | rfl | apply setOrder_upholds | apply nextTarget_upholds

theorem openRound_upholds (h : Upholds exact a s) : Upholds exact a (openRound s) := by
  simp only [openRound, forUnits, forWheels]
  with_reducible
    repeat' first
      | exact h | rfl | apply takeConfigured_upholds | apply nextTarget_upholds
      | apply setWlc_upholds

theorem endRound_upholds (h : Upholds exact a s) : Upholds exact a (endRound s) := by
  simp only [endRound]
  with_reducible
    repeat' first
      | exact h | rfl | apply setWlc_upholds | split

theorem takeDueRound_upholds (h : Upholds exact a s) : Upholds exact a (takeDueRound s) := by
  simp only [takeDueRound]
  with_reducible
    repeat' first
      | exact h | rfl | apply openRound_upholds | apply endRound_upholds | split

theorem settleRound_upholds (h : Upholds exact a s) : Upholds exact a (settleRound s) := by
  simp only [settleRound]
  with_reducible
    repeat' first
      | exact h | rfl | apply endRound_upholds | apply takeDueRound_upholds

theorem roundStartSteps_upholds (h : Upholds exact a s) : Upholds exact a (roundStartSteps s) := by
  simp only [roundStartSteps]
  with_reducible
    repeat' first
      | exact h | rfl | apply openRound_upholds | apply endRound_upholds | apply setWlc_upholds
      | split

theorem beginRollCall_upholds (h : Upholds exact a s) : Upholds exact a (beginRollCall s) := by
  simp only [beginRollCall, forUnits, forWheels]
  with_reducible
    repeat' first
      | exact h | rfl | apply takeConfigured_upholds | apply setWlc_upholds

theorem takeRollCall_upholds (h : Upholds exact a s) : Upholds exact a (takeRollCall s) := by
  simp only [takeRollCall]
  with_reducible
    repeat' first
      | exact h | rfl | apply beginRollCall_upholds | split

theorem startRollCall_upholds (h : Upholds exact a s) : Upholds exact a (startRollCall s) := by
  simp only [startRollCall]
  with_reducible
    repeat' first
      | exact h | rfl | apply takeRollCall_upholds | apply abortRollCall_upholds
      | apply setWlc_upholds

theorem reportLossOf_upholds (h : Upholds exact a s) (u : UnitId) : Upholds exact a (reportLossOf u s) := by
  simp only [reportLossOf]
  with_reducible
    repeat' first
      | exact h | rfl | apply reportLoss_upholds | split

theorem changeInRollCall_upholds (h : Upholds exact a s) (u : UnitId) (r : UnitRec)
    (hb : r.block = (s.wlc.unit u).block) : Upholds exact a (changeInRollCall u r s) := by
  have h1 := changeUnit_upholds h hb
  simp only [changeInRollCall]
  with_reducible
    repeat' first
      | exact h1 | apply reportLoss_upholds | split

theorem reportLosses_upholds (h : Upholds exact a s) : Upholds exact a (reportLosses s) := by
  simp only [reportLosses, forUnits, forWheels]
  with_reducible
    repeat' first
      | exact h | rfl | apply reportLossOf_upholds

theorem enterSettle_upholds (h : Upholds exact a s) : Upholds exact a (enterSettle s) := by
  simp only [enterSettle]
  with_reducible
    repeat' first
      | exact h | rfl | apply setCfl_upholds

theorem endRollCall_upholds (h : Upholds exact a s) : Upholds exact a (endRollCall s) := by
  simp only [endRollCall]
  with_reducible
    repeat' first
      | exact h | rfl | apply raise_upholds | apply sauChange_upholds | apply placeBlocks_upholds
      | apply reportLosses_upholds | apply enterSettle_upholds | apply setWlc_upholds
      | apply openRound_upholds | apply endRound_upholds

theorem rollCallTry_upholds (h : Upholds exact a s) (done : Bool) : Upholds exact a (rollCallTry done s) := by
  simp only [rollCallTry]
  with_reducible
    repeat' first
      | exact h | rfl | apply endRollCall_upholds | apply setWlc_upholds | split

theorem findUnit_upholds (h : Upholds exact a s) (u : UnitId) (bytes : List Byte) :
    Upholds exact a (findUnit u bytes s) := by
  simp only [findUnit]
  refine reportLoss_upholds (raise_upholds (changeUnit_upholds h ?_) _) _ _
  rfl

theorem acceptAnswer_upholds (h : Upholds exact a s) (x : Exchange) (bytes : List Byte) :
    Upholds exact a (acceptAnswer x bytes s) := by
  have h1 := changeInRollCall_upholds h x.unit ((s.wlc.unit x.unit).enroll x.unit bytes) rfl
  simp only [acceptAnswer]
  with_reducible
    repeat' first
      | exact h | rfl | apply changeUnit_upholds | apply putLink_upholds | apply placeIfEnrolled_upholds
      | apply finishTarget_upholds | apply rollCallTry_upholds | apply findUnit_upholds | exact h1 | split

theorem missCommand_upholds (h : Upholds exact a s) (u : UnitId) : Upholds exact a (missCommand u s) := by
  have h1 := UnitRec.miss_block (s.wlc.unit u) s.cfg.missLimit
  have h2 := changeUnit_upholds h h1
  simp only [missCommand]
  with_reducible
    repeat' first
      | exact h | rfl | apply raise_upholds | apply reportLoss_upholds | apply changeUnit_upholds
      | exact h1 | exact h2 | split

theorem missExchange_upholds (h : Upholds exact a s) (x : Exchange) : Upholds exact a (missExchange x s) := by
  have h1 := changeInRollCall_upholds h x.unit (s.wlc.unit x.unit).absent rfl
  simp only [missExchange]
  with_reducible
    repeat' first
      | exact h | rfl | apply changeUnit_upholds | apply putLink_upholds | apply finishTarget_upholds
      | apply rollCallTry_upholds | apply missCommand_upholds | exact h1 | split 

theorem closeWindow_upholds (h : Upholds exact a s) : Upholds exact a (closeWindow s) := by
  simp only [closeWindow]
  with_reducible
    repeat' first
      | exact h | rfl | apply setWlc_upholds

theorem countCorrupt_upholds (h : Upholds exact a s) (u : UnitId) : Upholds exact a (countCorrupt u s) :=
  setUnit_upholds h rfl

theorem transmit_upholds (h : Upholds exact a s) (bytes : List Byte) (x : Exchange) :
    Upholds exact a (transmit bytes x s) := by
  simp only [transmit]
  with_reducible
    repeat' first
      | exact h | rfl | apply setWlc_upholds

theorem passVisit_upholds (h : Upholds exact a s) : Upholds exact a (passVisit s) := by
  simp only [passVisit]
  with_reducible
    repeat' first
      | exact h | rfl | apply setWlc_upholds

theorem countTry_upholds (h : Upholds exact a s) : Upholds exact a (countTry s) := by
  simp only [countTry]
  with_reducible
    repeat' first
      | exact h | rfl | apply setWlc_upholds | split

theorem sendRoll_upholds (h : Upholds exact a s) (u : UnitId) (p : Purpose) :
    Upholds exact a (sendRoll u p s) := by
  simp only [sendRoll]
  with_reducible
    repeat' first
      | exact h | rfl | apply transmit_upholds | apply passVisit_upholds | apply countTry_upholds | split

theorem sendDrive_upholds (h : Upholds exact a s) (w : Wheel) : Upholds exact a (sendDrive w s) := by
  simp only [sendDrive]
  with_reducible
    repeat' first
      | exact h | rfl | apply transmit_upholds | apply passVisit_upholds | apply setUnit_upholds | simp

theorem sendSteer_upholds (h : Upholds exact a s) : Upholds exact a (sendSteer s) := by
  simp only [sendSteer]
  with_reducible
    repeat' first
      | exact h | rfl | apply stcTransmit_upholds | apply transmit_upholds | apply passVisit_upholds
      | apply setUnit_upholds | simp

theorem requestQuiet_upholds (h : Upholds exact a s) : Upholds exact a (requestQuiet s) := by
  simp only [requestQuiet, forWheels]
  with_reducible
    repeat' first
      | exact h | rfl | apply setSlot_upholds | apply setWlc_upholds

theorem sendQuiet_upholds (h : Upholds exact a s) : Upholds exact a (sendQuiet s) := by
  simp only [sendQuiet]
  with_reducible
    repeat' first
      | exact h | rfl | apply setWlc_upholds

theorem wlcModeChange_upholds (h : Upholds exact a s) : Upholds exact a (wlcModeChange s) := by
  simp only [wlcModeChange]
  with_reducible
    repeat' first
      | exact h | rfl | apply abortRollCall_upholds | apply endRound_upholds | apply setWlc_upholds
      | split

theorem showResult_upholds (h : Upholds exact a s) (r : Check × Nat) :
    Upholds exact a (showResult r s) :=
  raise_upholds (put_upholds h 2 (by simp) (by omega)) _

theorem activate_upholds (h : Upholds exact a s) {p : Params} (hp : p.lock ≤ 4500) :
    Upholds exact a (activate p s) :=
  h.trans { lock := fun k => ⟨hp, k.2⟩ }

theorem changeStopModeFrom_upholds (h : Upholds exact a s) (old : Nat) :
    Upholds exact a (changeStopModeFrom old s) := by
  simp only [changeStopModeFrom]
  with_reducible
    repeat' first
      | exact h | rfl | apply changeStopMode_upholds | split

theorem acceptConfig_upholds (h : Upholds exact a s) {p : Params} (hp : p.lock ≤ 4500) : Upholds exact a (acceptConfig p s) := by
  simp only [acceptConfig, runAll]
  with_reducible
    repeat' first
      | exact h | exact hp | rfl | apply applyPriorities_upholds | apply rewriteActions_upholds
      | apply lmuConfig_upholds | apply rgcConfig_upholds | apply tqaConfig_upholds | apply activate_upholds
      | apply changeStopModeFrom_upholds

theorem enterEnroll_upholds (h : Upholds exact a s) : Upholds exact a (enterEnroll s) := by
  simp only [enterEnroll]
  with_reducible
    repeat' first
      | exact h | rfl | apply startRollCall_upholds | apply setCfl_upholds

theorem validateInLoad_upholds (h : Upholds exact a s) : Upholds exact a (validateInLoad s) := by
  simp only [validateInLoad]
  with_reducible
    repeat' first
      | exact h | rfl | apply startBlower_upholds | apply showResult_upholds | apply acceptConfig_upholds
      | apply enterEnroll_upholds | apply setCfl_upholds | split | exact Params.ofBlock_lock (by assumption)

theorem readyMark_upholds (h : Upholds exact a s) (value : Word) : Upholds exact a (readyMark value s) := by
  simp only [readyMark]
  with_reducible
    repeat' first
      | exact h | rfl | apply validateInLoad_upholds | apply setCfl_upholds | split

theorem enterLoad_upholds (h : Upholds exact a s) : Upholds exact a (enterLoad s) := by
  simp only [enterLoad]
  with_reducible
    repeat' first
      | exact h | rfl | apply validateInLoad_upholds | apply setCfl_upholds | split

theorem upsetCopy_upholds (h : Upholds exact a s) (copy : GuardedWord) (value : Word) :
    Upholds exact a (upsetCopy copy value s) := by
  simp only [upsetCopy]
  with_reducible
    repeat' first
      | exact h | rfl | apply setCfl_upholds | split

theorem markReEnrol_upholds (h : Upholds exact a s) (b : Bool) : Upholds exact a (markReEnrol b s) := by
  simp only [markReEnrol]
  with_reducible
    repeat' first
      | exact h | rfl | apply setCfl_upholds

theorem putDmcSection_upholds (h : Upholds exact a s) : Upholds exact a (putDmcSection s) :=
  put_upholds h 16 (by simp [State.dmcWords, longWords]) (by omega)

theorem announceSubstate_upholds (h : Upholds exact a s) : Upholds exact a (announceSubstate s) := by
  simp only [announceSubstate, runAll]
  with_reducible
    repeat' first
      | exact h | rfl | apply tcuSubstateChange_upholds | apply stcSubstateChange_upholds
      | apply rgcSubstateChange_upholds

theorem setSubstate_upholds (h : Upholds exact a s) (sub : Substate) (t : Target) :
    Upholds exact a (setSubstate sub t s) := by
  simp only [setSubstate]
  with_reducible
    repeat' first
      | exact h | rfl | apply announceSubstate_upholds | apply setDmc_upholds | split

theorem formDemands_upholds (h : Upholds exact a s) : Upholds exact a (formDemands s) := by
  simp only [formDemands]
  with_reducible
    repeat' first
      | exact h | rfl | apply setDmc_upholds

theorem endChangeover_upholds (h : Upholds exact a s) : Upholds exact a (endChangeover s) := by
  simp only [endChangeover]
  with_reducible
    repeat' first
      | exact h | rfl | apply setSubstate_upholds | split

theorem formAndMove_upholds (h : Upholds exact a s) : Upholds exact a (formAndMove s) := by
  simp only [formAndMove]
  with_reducible
    repeat' first
      | exact h | rfl | apply setSubstate_upholds | apply formDemands_upholds
      | apply endChangeover_upholds

theorem changeMode_upholds (h : Upholds exact a s) {m : Mode} {f : Dmc → Dmc}
    (hf : ∀ d, (f d).demand = d.demand) : Upholds exact a (changeMode m f s) := by
  have hd : (f (s.dmc.startCounting m s.clock)).demand = s.dmc.demand := by
    rw [hf]; unfold Dmc.startCounting; split <;> rfl
  have key : ∀ d : Dmc, d.demand = s.dmc.demand → ∀ c : Word, Upholds exact a (putDmcSection
      (put 0x0010 [c] (raise .modeChange ((s.setDmc d).setTripOut (m == .tripped))))) := fun d hd c =>
    putDmcSection_upholds (put_upholds (raise_upholds (setTripOut_upholds (setDmc_upholds h hd) _) _)
      1 (by simp) (by omega))
  simp only [changeMode, runAll]
  refine wlcModeChange_upholds (stcModeChange_upholds (rgcModeChange_upholds ?_))
  split
  · refine key _ ?_ _
    exact hd
  · refine announceSubstate_upholds (key _ ?_ _)
    exact hd

theorem enterTripped_upholds (h : Upholds exact a s) : Upholds exact a (enterTripped s) := by
  simp only [enterTripped]
  with_reducible
    repeat' first
      | exact h | rfl | apply requestQuiet_upholds | apply changeMode_upholds | split | simp

theorem enterSafeStop_upholds (h : Upholds exact a s) : Upholds exact a (enterSafeStop s) := by
  simp only [enterSafeStop]
  with_reducible
    repeat' first
      | exact h | rfl | apply formAndMove_upholds | apply changeMode_upholds | split | simp

theorem enterReady_upholds (h : Upholds exact a s) : Upholds exact a (enterReady s) := by
  simp only [enterReady]
  with_reducible
    repeat' first
      | exact h | rfl | apply changeMode_upholds | apply enterSafeStop_upholds | split | simp

theorem driveToReady_upholds (h : Upholds exact a s) : Upholds exact a (driveToReady s) := by
  simp only [driveToReady]
  with_reducible
    repeat' first
      | exact h | rfl | apply changeMode_upholds | apply enterSafeStop_upholds | split | simp

theorem standbyToStarting_upholds (h : Upholds exact a s) : Upholds exact a (standbyToStarting s) := by
  simp only [standbyToStarting]
  with_reducible
    repeat' first
      | exact h | rfl | apply enterEnroll_upholds | apply changeMode_upholds | split | simp

theorem leaveStandbySteps_upholds (h : Upholds exact a s) : Upholds exact a (leaveStandbySteps s) := by
  simp only [leaveStandbySteps]
  with_reducible
    repeat' first
      | exact h | rfl | apply enterReady_upholds | apply standbyToStarting_upholds | split

theorem enterStandbySteps_upholds (h : Upholds exact a s) (v : Variant) :
    Upholds exact a (enterStandbySteps v s) := by
  simp only [enterStandbySteps]
  with_reducible
    repeat' first
      | exact h | rfl | apply note_upholds | apply changeMode_upholds | split | simp

theorem severityChange_upholds (h : Upholds exact a s) : Upholds exact a (severityChange s) := by
  simp only [severityChange]
  with_reducible
    repeat' first
      | exact h | rfl | apply enterTripped_upholds | apply enterSafeStop_upholds
      | apply standbyToStarting_upholds | split

theorem endSettle_upholds (h : Upholds exact a s) : Upholds exact a (endSettle s) := by
  simp only [endSettle]
  with_reducible
    repeat' first
      | exact h | rfl | apply enterTripped_upholds | apply enterReady_upholds | apply setCfl_upholds
      | split

theorem testSettle_upholds (h : Upholds exact a s) : Upholds exact a (testSettle s) := by
  simp only [testSettle]
  with_reducible
    repeat' first
      | exact h | rfl | apply endSettle_upholds | split

/-- An accepted page brings a steer angle within the lock (R8). -/
theorem acceptPage_upholds (h : Upholds exact a s) (selector : Word) (p : Page) :
    Upholds exact a (acceptPage (pageBase selector) p s) := by
  have hb : pageBase selector + 0x1E ≤ 0x0200 := by unfold pageBase; split <;> omega
  simp only [acceptPage]
  apply lmuPage_upholds
  apply tcuPage_upholds
  apply put_upholds _ 3 (Nat.le_of_eq rfl) (by omega)
  refine h.trans { lock := fun k => ⟨k.1, ?_⟩ }
  have hl : s.cfg.lock ≤ 4500 := k.1
  show (limitAbs s.cfg.lock p.steerAngle.toInt).natAbs ≤ 4500
  simp only [limitAbs]
  omega

theorem takePage_upholds (h : Upholds exact a s) : Upholds exact a (takePage s) := by
  simp only [takePage]
  split
  · exact acceptPage_upholds h _ _
  · exact h

theorem updateFreshness_upholds (h : Upholds exact a s) : Upholds exact a (updateFreshness s) := by
  simp only [updateFreshness]
  with_reducible
    repeat' first
      | exact h | rfl | apply raiseIf_upholds | apply noteChange_upholds | apply setDmc_upholds
      | split

theorem wake_upholds (h : Upholds exact a s) (accepted : Bool) : Upholds exact a (wake accepted s) := by
  simp only [wake]
  with_reducible
    repeat' first
      | exact h | rfl | apply leaveStandbySteps_upholds | split

theorem returnCheck_upholds (h : Upholds exact a s) : Upholds exact a (returnCheck s) := by
  simp only [returnCheck]
  with_reducible
    repeat' first
      | exact h | rfl | apply enterReady_upholds | split

theorem finishStop_upholds (h : Upholds exact a s) : Upholds exact a (finishStop s) := by
  simp only [finishStop]
  with_reducible
    repeat' first
      | exact h | rfl | apply enterTripped_upholds | apply setDmc_upholds

theorem countStop_upholds (h : Upholds exact a s) : Upholds exact a (countStop s) := by
  simp only [countStop]
  with_reducible
    repeat' first
      | exact h | rfl | apply finishStop_upholds | apply setDmc_upholds | split

theorem enterDriveCheck_upholds (h : Upholds exact a s) : Upholds exact a (enterDriveCheck s) := by
  simp only [enterDriveCheck]
  with_reducible
    repeat' first
      | exact h | rfl | apply changeMode_upholds | apply setDmc_upholds | split | simp

theorem modeChecks_upholds (h : Upholds exact a s) : Upholds exact a (modeChecks s) := by
  simp only [modeChecks]
  with_reducible
    repeat' first
      | exact h | rfl | apply returnCheck_upholds | apply countStop_upholds
      | apply enterDriveCheck_upholds | split

theorem adoptDirection_upholds (h : Upholds exact a s) (d : Direction) :
    Upholds exact a (adoptDirection d s) := by
  simp only [adoptDirection]
  with_reducible
    repeat' first
      | exact h | rfl | apply setSubstate_upholds | apply setDmc_upholds | split

theorem directionCheck_upholds (h : Upholds exact a s) : Upholds exact a (directionCheck s) := by
  simp only [directionCheck]
  with_reducible
    repeat' first
      | exact h | rfl | apply driveToReady_upholds | apply adoptDirection_upholds
      | apply setDmc_upholds | split

theorem demandStep_upholds (h : Upholds exact a s) : Upholds exact a (demandStep s) := by
  simp only [demandStep]
  with_reducible
    repeat' first
      | exact h | rfl | apply formAndMove_upholds | split

theorem takeDemandPeriod_upholds (h : Upholds exact a s) : Upholds exact a (takeDemandPeriod s) := by
  simp only [takeDemandPeriod]
  with_reducible
    repeat' first
      | exact h | rfl | apply setDmc_upholds

theorem demandSteps_upholds (h : Upholds exact a s) : Upholds exact a (demandSteps s) := by
  simp only [demandSteps, runAll]
  with_reducible
    repeat' first
      | exact h | rfl | apply putDmcSection_upholds | apply takePage_upholds
      | apply updateFreshness_upholds | apply wake_upholds | apply modeChecks_upholds
      | apply directionCheck_upholds | apply demandStep_upholds | apply takeDemandPeriod_upholds

theorem clearCompletion_upholds (h : Upholds exact a s) : Upholds exact a (clearCompletion s) := by
  simp only [clearCompletion]
  with_reducible
    repeat' first
      | exact h | rfl | apply returnCheck_upholds | apply setDmc_upholds | split

theorem deliverSets_upholds (h : Upholds exact a s) : Upholds exact a (deliverSets s) := by
  simp only [deliverSets]
  with_reducible
    repeat' first
      | exact h | rfl | apply updatePru_upholds | apply observeEscalation_upholds
      | apply tcuExclusion_upholds | apply rgcExclusion_upholds | split

theorem announceSummary_upholds (h : Upholds exact a s) : Upholds exact a (announceSummary s) := by
  simp only [announceSummary]
  with_reducible
    repeat' first
      | exact h | rfl | apply raise_upholds | apply requestQuiet_upholds | split

theorem deliverSummary_upholds (h : Upholds exact a s) : Upholds exact a (deliverSummary s) := by
  simp only [deliverSummary]
  with_reducible
    repeat' first
      | exact h | rfl | apply updatePru_upholds | apply severityChange_upholds
      | apply announceSummary_upholds

theorem deliver_upholds (h : Upholds exact a s) : Upholds exact a (deliver s) := by
  simp only [deliver]
  with_reducible
    repeat' first
      | exact h | rfl | apply deliverSets_upholds | apply deliverSummary_upholds | split

theorem settleBy_upholds (h : Upholds exact a s) (n : Nat) : Upholds exact a (settleBy n s) := by
  induction n generalizing s with
  | zero => exact h
  | succ n ih =>
    simp only [settleBy]
    split
    · exact h
    · exact ih (deliver_upholds h)

theorem settle_upholds (h : Upholds exact a s) : Upholds exact a (settle s) := by
  simp only [settle]
  with_reducible
    repeat' first
      | exact h | rfl | apply settleBy_upholds

theorem reportConditions_upholds (h : Upholds exact a s) : Upholds exact a (reportConditions s) := by
  simp only [reportConditions, runAll, forWheels, forBanks]
  with_reducible
    repeat' first
      | exact h | rfl | apply note_upholds

theorem decideSetLimits_upholds (h : Upholds exact a s) (cell : BitVec 6) (forward reverse cap : Word) :
    Upholds exact a (decideSetLimits cell forward reverse cap s) := by
  simp only [decideSetLimits, admitIf]
  with_reducible
    repeat' first
      | exact h | rfl | apply endCell_upholds | apply setLimitValues_upholds | split

theorem decideLoadEnvelope_upholds (h : Upholds exact a s) (cell : BitVec 6) :
    Upholds exact a (decideLoadEnvelope cell s) := by
  simp only [decideLoadEnvelope, admitIf]
  with_reducible
    repeat' first
      | exact h | rfl | apply endCell_upholds | apply setEnvelope_upholds | split

theorem releaseStop_upholds (h : Upholds exact a s) : Upholds exact a (releaseStop s) := by
  simp only [releaseStop]
  with_reducible
    repeat' first
      | exact h | rfl | apply updatePru_upholds | apply note_upholds | split

theorem clearTable_upholds (h : Upholds exact a s) (forget : Word) :
    Upholds exact a (clearTable forget s) := by
  simp only [clearTable]
  exact raiseIf_upholds (updatePru_upholds h _) _ _

theorem decideClearFaults_upholds (h : Upholds exact a s) (cell : BitVec 6) (forget : Word) :
    Upholds exact a (decideClearFaults cell forget s) := by
  simp only [decideClearFaults]
  with_reducible
    repeat' first
      | exact h | rfl | apply endCell_upholds | apply observeEscalation_upholds
      | apply clearCompletion_upholds | apply settle_upholds | apply releaseStop_upholds
      | apply clearTable_upholds

theorem decideEnterStandby_upholds (h : Upholds exact a s) (cell : BitVec 6) (keepLink keepBlower : Word) :
    Upholds exact a (decideEnterStandby cell keepLink keepBlower s) := by
  simp only [decideEnterStandby, admitIf]
  with_reducible
    repeat' first
      | exact h | rfl | apply endCell_upholds | apply enterStandbySteps_upholds | apply settle_upholds
      | split

theorem decideLeaveStandby_upholds (h : Upholds exact a s) (cell : BitVec 6) :
    Upholds exact a (decideLeaveStandby cell s) := by
  simp only [decideLeaveStandby, admitIf]
  with_reducible
    repeat' first
      | exact h | rfl | apply endCell_upholds | apply leaveStandbySteps_upholds | apply settle_upholds
      | split

theorem acceptApplied_upholds (h : Upholds exact a s) (cell : BitVec 6) {p : Params} (hp : p.lock ≤ 4500) :
    Upholds exact a (acceptApplied cell p s) := by
  simp only [acceptApplied]
  with_reducible
    repeat' first
      | exact h | exact hp | rfl | apply endCell_upholds | apply acceptConfig_upholds | apply markReEnrol_upholds
      | apply settle_upholds

theorem decideApplyConfig_upholds (h : Upholds exact a s) (cell : BitVec 6) :
    Upholds exact a (decideApplyConfig cell s) := by
  simp only [decideApplyConfig, admitIf]
  with_reducible
    repeat' first
      | exact h | rfl | apply endCell_upholds | apply showResult_upholds | apply acceptApplied_upholds
      | split | exact Params.ofBlock_lock (by assumption)

theorem decideGridTest_upholds (h : Upholds exact a s) (cell : BitVec 6) (banks duty count : Word) :
    Upholds exact a (decideGridTest cell banks duty count s) := by
  simp only [decideGridTest, admitIf, handOver]
  with_reducible
    repeat' first
      | exact h | rfl | apply endCell_upholds | apply startTest_upholds | apply setOre_upholds | split

theorem decideSteerCalibrate_upholds (h : Upholds exact a s) (cell : BitVec 6) :
    Upholds exact a (decideSteerCalibrate cell s) := by
  simp only [decideSteerCalibrate, admitIf, handOver]
  with_reducible
    repeat' first
      | exact h | rfl | apply endCell_upholds | apply startCalibration_upholds | apply setOre_upholds
      | split 

theorem decideRollCall_upholds (h : Upholds exact a s) (cell : BitVec 6) :
    Upholds exact a (decideRollCall cell s) := by
  simp only [decideRollCall, admitIf, handOver]
  with_reducible
    repeat' first
      | exact h | rfl | apply endCell_upholds | apply startRollCallOrder_upholds | apply setOre_upholds
      | split 

theorem stopOwner_upholds (h : Upholds exact a s) (r : Resource) : Upholds exact a (stopOwner r s) := by
  simp only [stopOwner]
  with_reducible
    repeat' first
      | exact h | rfl | apply abortCalibration_upholds | apply stopTest_upholds | apply endOrder_upholds
      | apply settleRound_upholds | split

theorem decideAbort_upholds (h : Upholds exact a s) (cell : BitVec 6) (index : Word) :
    Upholds exact a (decideAbort cell index s) := by
  simp only [decideAbort]
  with_reducible
    repeat' first
      | exact h | rfl | apply raise_upholds | apply writeEnd_upholds | apply endCell_upholds
      | apply endBadArgument_upholds | apply freeResource_upholds | apply settle_upholds
      | apply stopOwner_upholds | split

theorem decideOrder_upholds (h : Upholds exact a s) (cell : BitVec 6) :
    Upholds exact a (decideOrder cell s) := by
  simp only [decideOrder]
  with_reducible
    repeat' first
      | exact h | rfl | apply endCell_upholds | apply decideSetLimits_upholds
      | apply decideLoadEnvelope_upholds | apply decideClearFaults_upholds
      | apply decideEnterStandby_upholds | apply decideLeaveStandby_upholds
      | apply decideApplyConfig_upholds | apply decideGridTest_upholds
      | apply decideSteerCalibrate_upholds | apply decideRollCall_upholds | apply decideAbort_upholds
      | split

theorem markTaken_upholds (h : Upholds exact a s) (cell : BitVec 6) :
    Upholds exact a (markTaken cell s) := by
  have hc := cellBase_bound cell
  simp only [markTaken]
  exact put_upholds (put_upholds h 1 (by simp) (by omega)) 2 (by simp [longWords]) (by omega)

theorem haltChain_upholds (h : Upholds exact a s) : Upholds exact a (haltChain s) := by
  simp only [haltChain]
  with_reducible
    repeat' first
      | exact h | rfl | apply raise_upholds | apply setChain_upholds

theorem waitChain_upholds (h : Upholds exact a s) : Upholds exact a (waitChain s) := by
  simp only [waitChain]
  with_reducible
    repeat' first
      | exact h | rfl | apply setChain_upholds

theorem takeCell_upholds (h : Upholds exact a s) (cell : BitVec 6) : Upholds exact a (takeCell cell s) := by
  simp only [takeCell]
  with_reducible
    repeat' first
      | exact h | rfl | apply setChain_upholds | apply decideOrder_upholds | apply markTaken_upholds

theorem followLink_upholds (h : Upholds exact a s) (cell : BitVec 6) :
    Upholds exact a (followLink cell s).1 := by
  unfold followLink
  split
  · exact setChain_upholds h _
  · exact setChain_upholds h _
  · exact haltChain_upholds h

theorem scanSteps_upholds (h : Upholds exact a s) (n takes : Nat) : Upholds exact a (scanSteps n takes s) := by
  induction n generalizing takes s with
  | zero => exact h
  | succ n ih =>
    simp only [scanSteps]
    with_reducible
      repeat' first
        | exact h | apply waitChain_upholds | apply haltChain_upholds | apply ih | apply setChain_upholds
        | apply followLink_upholds | apply takeCell_upholds | split

theorem scan_upholds (h : Upholds exact a s) : Upholds exact a (scan s) := by
  simp only [scan]
  with_reducible
    repeat' first
      | exact h | rfl | apply scanSteps_upholds | split

theorem finishLink_upholds (h : Upholds exact a s) : Upholds exact a (finishLink s) := by
  simp only [finishLink]
  with_reducible
    repeat' first
      | exact h | rfl | apply takeRollCall_upholds | apply settleRound_upholds | apply testSettle_upholds
      | apply settle_upholds

theorem acceptReport_upholds (h : Upholds exact a s) (w : Wheel) (order : HandOff) (bytes : List Byte) :
    Upholds exact a (acceptReport w order bytes s) := by
  simp only [acceptReport, inOrder]
  with_reducible
    repeat' first
      | exact h | rfl | apply note_upholds | apply tcuReport_upholds | apply changeUnit_upholds
      | apply putLink_upholds | apply testSettle_upholds | apply settle_upholds | split | simp

theorem acceptSteerReport_upholds (h : Upholds exact a s) (order : HandOff) (bytes : List Byte) :
    Upholds exact a (acceptSteerReport order bytes s) := by
  simp only [acceptSteerReport, inOrder]
  with_reducible
    repeat' first
      | exact h | rfl | apply note_upholds | apply tcuSteerReport_upholds | apply stcReport_upholds
      | apply changeUnit_upholds | apply putLink_upholds | apply settle_upholds | split | simp

theorem acceptReply_upholds (h : Upholds exact a s) (x : Exchange) (order : HandOff) (bytes : List Byte) :
    Upholds exact a (acceptReply x order bytes s) := by
  simp only [acceptReply]
  with_reducible
    repeat' first
      | exact h | rfl | apply acceptAnswer_upholds | apply acceptReport_upholds
      | apply acceptSteerReport_upholds | split

theorem replyArrival_upholds (h : Upholds exact a s) (order : HandOff) (bytes : List Byte) :
    Upholds exact a (replyArrival order bytes s) := by
  simp only [replyArrival]
  with_reducible
    repeat' first
      | exact h | rfl | apply missExchange_upholds | apply closeWindow_upholds
      | apply countCorrupt_upholds | apply finishLink_upholds | apply acceptReply_upholds | split

theorem windowExpiry_upholds (h : Upholds exact a s) : Upholds exact a (windowExpiry s) := by
  simp only [windowExpiry]
  with_reducible
    repeat' first
      | exact h | rfl | apply missExchange_upholds | apply closeWindow_upholds | apply finishLink_upholds
      | split

theorem filteredSteps_upholds (h : Upholds exact a s) : Upholds exact a (filteredSteps s) := by
  simp only [filteredSteps, runAll]
  with_reducible
    repeat' first
      | exact h | rfl | apply noteOvervolt_upholds | apply lmuLink_upholds
      | apply recomputeCapacity_upholds | apply takeFiltered_upholds | apply lowerLowest_upholds
      | apply checkTestStandstill_upholds

theorem setExceeded_upholds (h : Upholds exact a s) : Upholds exact a (setExceeded s) := by
  simp only [setExceeded]
  with_reducible
    repeat' first
      | exact h | rfl | apply changeExceeded_upholds | apply setRgc_upholds

theorem clearExceeded_upholds (h : Upholds exact a s) : Upholds exact a (clearExceeded s) := by
  simp only [clearExceeded]
  with_reducible
    repeat' first
      | exact h | rfl | apply changeExceeded_upholds | apply setRgc_upholds

theorem reviewSteps_upholds (h : Upholds exact a s) : Upholds exact a (reviewSteps s) := by
  simp only [reviewSteps, runAll, forBanks]
  with_reducible
    repeat' first
      | exact h | rfl | apply putBankSection_upholds | apply sortRotation_upholds
      | apply recomputeBlower_upholds

theorem endDischarge_upholds (h : Upholds exact a s) : Upholds exact a (endDischarge s) := by
  simp only [endDischarge]
  with_reducible
    repeat' first
      | exact h | rfl | apply judgeChannels_upholds | apply setRgc_upholds

theorem moveFilter_upholds (h : Upholds exact a s) (f : StopFilter) : Upholds exact a (moveFilter f s) := by
  simp only [moveFilter]
  with_reducible
    repeat' first
      | exact h | rfl | apply updatePru_upholds | apply noteChange_upholds
      | apply abortTestIf_upholds | apply settle_upholds

theorem sampleStop_upholds (h : Upholds exact a s) (low : Bool) : Upholds exact a (sampleStop low s) := by
  simp only [sampleStop]
  with_reducible
    repeat' first
      | exact h | rfl | apply moveFilter_upholds

end Sys2Proof.Machine
end

section
/-! The places of the status blocks and the images over every command: what `exec` keeps, what a start-up
makes true, and the two invariants that follow (O4, O6). -/

namespace Sys2Proof.Machine

section
variable {a s t : State} {f : State → State} {exact : Bool}

theorem whenRunning_upholds (hf : Upholds exact s (f s)) :
    Answers (Upholds exact s) (whenRunning f s) := whenRunning_answers hf (Upholds.refl _ s)

theorem whenObserving_upholds (hf : Upholds exact s (f s)) :
    Answers (Upholds exact s) (whenObserving f s) :=
  whenRunning_upholds (f := fun s => settle (f s)) (settle_upholds hf)

theorem ite_upholds {b : Prop} [Decidable b] {u v : State} (hu : Upholds exact a u)
    (hv : Upholds exact a v) : Upholds exact a (if b then u else v) := by split <;> assumption

theorem tick_upholds (h : Upholds exact a s) (c : Long) :
    Upholds exact a (put 0x000C (longWords c) (s.setClock c)) :=
  put_upholds (h.trans { }) 2 (by simp [longWords]) (by omega)

/-- Every command but a reset and a host write upholds the places of the blocks and the images. -/
theorem exec_upholds {c : Instr} (hw : c.writesHost = false) (hr : c.resets = false)
    (s : State) : Answers (Upholds true s) (exec c s) := by
  have k := Upholds.refl true s
  cases c with
  | powerOn => cases hw
  | hostWordWrite address value => cases hw
  | readyMarkWrite value => cases hw
  | resetPinAssert => cases hr
  | resetPinRelease => cases hr
  | guardCheck => cases hr
  | softRestart => cases hr
  | supplyFall => cases hr
  | driveClockTick =>
    unfold exec execDriveClockTick
    exact whenRunning_upholds (tick_upholds k _)
  | guardedCopyUpset copy value =>
    unfold exec execGuardedCopyUpset
    exact whenRunning_upholds (upsetCopy_upholds k _ _)
  | chainRestart index =>
    unfold exec execChainRestart
    exact whenRunning_upholds (restartChain_upholds k _)
  | attnPoll =>
    exact ⟨_, rfl, ite_upholds (poll_upholds k) (setHostData_upholds k _)⟩
  | attnEndSpecific cls =>
    unfold exec execAttnEndSpecific
    exact whenRunning_upholds (endSpecific_upholds k _)
  | attnEndNonSpecific =>
    unfold exec execAttnEndNonSpecific
    exact whenRunning_upholds (endNonSpecific_upholds k)
  | attnMaskWrite value =>
    unfold exec execAttnMaskWrite
    exact whenRunning_upholds (writeMask_upholds k _)
  | attnThresholdWrite value =>
    unfold exec execAttnThresholdWrite
    exact whenRunning_upholds (writeThreshold_upholds k _)
  | registerWriteIgnored register value =>
    exact ⟨_, rfl, k⟩
  | chainScan =>
    unfold exec execChainScan
    exact whenRunning_upholds (scan_upholds k)
  | setLimits cell forward reverse cap =>
    unfold exec execSetLimits
    exact whenRunning_upholds (decideSetLimits_upholds k _ _ _ _)
  | loadEnvelope cell =>
    unfold exec execLoadEnvelope
    exact whenRunning_upholds (decideLoadEnvelope_upholds k _)
  | clearFaults cell forget =>
    unfold exec execClearFaults
    exact whenRunning_upholds (decideClearFaults_upholds k _ _)
  | enterStandby cell keepLink keepBlower =>
    unfold exec execEnterStandby
    exact whenRunning_upholds (decideEnterStandby_upholds k _ _ _)
  | leaveStandby cell =>
    unfold exec execLeaveStandby
    exact whenRunning_upholds (decideLeaveStandby_upholds k _)
  | applyConfig cell =>
    unfold exec execApplyConfig
    exact whenRunning_upholds (decideApplyConfig_upholds k _)
  | gridTest cell banks duty count =>
    unfold exec execGridTest
    exact whenRunning_upholds (decideGridTest_upholds k _ _ _ _)
  | steerCalibrate cell =>
    unfold exec execSteerCalibrate
    exact whenRunning_upholds (decideSteerCalibrate_upholds k _)
  | rollCall cell =>
    unfold exec execRollCall
    exact whenRunning_upholds (decideRollCall_upholds k _)
  | abort cell index =>
    unfold exec execAbort
    exact whenRunning_upholds (decideAbort_upholds k _ _)
  | orderCompletion resource cell result detail =>
    unfold exec execOrderCompletion
    exact whenRunning_upholds (complete_upholds k _ _ _ _)
  | demandSample =>
    unfold exec execDemandSample
    exact whenObserving_upholds (demandSteps_upholds k)
  | stopTimeExpiry =>
    unfold exec execStopTimeExpiry
    exact whenObserving_upholds (ite_upholds (finishStop_upholds k) k)
  | settleTimeExpiry =>
    unfold exec execSettleTimeExpiry
    exact whenObserving_upholds (ite_upholds (endSettle_upholds k) k)
  | roundStart =>
    unfold exec execRoundStart
    exact whenRunning_upholds (finishLink_upholds (roundStartSteps_upholds k))
  | driveTransmit wheel =>
    unfold exec execDriveTransmit
    exact whenRunning_upholds (ite_upholds (sendDrive_upholds k _) k)
  | steerTransmit =>
    unfold exec execSteerTransmit
    exact whenRunning_upholds (ite_upholds (sendSteer_upholds k) k)
  | rollTransmit unit =>
    unfold exec execRollTransmit
    refine whenRunning_upholds ?_
    split
    · exact sendRoll_upholds k _ _
    · exact k
  | quietTransmit =>
    unfold exec execQuietTransmit
    exact whenRunning_upholds (ite_upholds (sendQuiet_upholds k) k)
  | rollAnswerArrival bytes =>
    unfold exec execRollAnswerArrival
    exact whenRunning_upholds (replyArrival_upholds k _ _)
  | reportArrival bytes order =>
    unfold exec execReportArrival
    exact whenRunning_upholds (replyArrival_upholds k _ _)
  | steerReportArrival bytes order =>
    unfold exec execSteerReportArrival
    exact whenRunning_upholds (replyArrival_upholds k _ _)
  | replyWindowExpiry =>
    unfold exec execReplyWindowExpiry
    exact whenRunning_upholds (windowExpiry_upholds k)
  | allocationEvent =>
    unfold exec execAllocationEvent
    exact whenObserving_upholds (allocationSteps_upholds k)
  | gridDemandArrival =>
    unfold exec execGridDemandArrival
    exact whenRunning_upholds (ite_upholds (arrival_upholds k) k)
  | linkVoltageSample volts =>
    unfold exec execLinkVoltageSample
    exact whenRunning_upholds (takeVoltage_upholds k _)
  | filteredUpdate =>
    unfold exec execFilteredUpdate
    exact whenObserving_upholds (filteredSteps_upholds k)
  | linkUndervoltSet =>
    unfold exec execLinkUndervoltSet
    exact whenObserving_upholds (ite_upholds (setUndervolt_upholds k) k)
  | linkUndervoltClear =>
    unfold exec execLinkUndervoltClear
    exact whenObserving_upholds (ite_upholds (clearUndervolt_upholds k) k)
  | holdUpdate =>
    unfold exec execHoldUpdate
    exact whenObserving_upholds (holdSteps_upholds k)
  | envelopeExceededSet =>
    unfold exec execEnvelopeExceededSet
    exact whenObserving_upholds (ite_upholds (setExceeded_upholds k) k)
  | envelopeExceededClear =>
    unfold exec execEnvelopeExceededClear
    exact whenObserving_upholds (ite_upholds (clearExceeded_upholds k) k)
  | shortfallAdd =>
    unfold exec execShortfallAdd
    exact whenRunning_upholds (ite_upholds (addShortfall_upholds k) k)
  | shortfallRemove =>
    unfold exec execShortfallRemove
    exact whenRunning_upholds (ite_upholds (removeShortfall_upholds k) k)
  | rotationReview =>
    unfold exec execRotationReview
    exact whenRunning_upholds (reviewSteps_upholds k)
  | channelPeriodStart channel =>
    unfold exec execChannelPeriodStart
    refine whenRunning_upholds ?_
    split
    · exact bankPeriod_upholds k _
    · exact blowerPeriod_upholds k
  | onExpiry channel =>
    unfold exec execOnExpiry
    refine whenRunning_upholds ?_
    split
    · exact bankExpiry_upholds k _
    · exact blowerExpiry_upholds k
  | dischargeExpiry =>
    unfold exec execDischargeExpiry
    exact whenRunning_upholds (ite_upholds (endDischarge_upholds k) k)
  | pulseExpiry =>
    unfold exec execPulseExpiry
    exact whenRunning_upholds (ite_upholds (setRgc_upholds k rfl) k)
  | calibrationExpiry =>
    unfold exec execCalibrationExpiry
    exact whenRunning_upholds
      (ite_upholds (putStcSection_upholds (endCalibrationIf_upholds k _ _ _)) k)
  | thermalSample blowerRun =>
    unfold exec execThermalSample
    exact whenObserving_upholds (thermalSteps_upholds k _)
  | gridHotClear bank =>
    unfold exec execGridHotClear
    exact whenObserving_upholds (ite_upholds (clearGridHot_upholds k _) k)
  | blowerFailSet =>
    unfold exec execBlowerFailSet
    exact whenObserving_upholds (ite_upholds (setBlowerFail_upholds k) k)
  | blowerFailClear =>
    unfold exec execBlowerFailClear
    exact whenObserving_upholds (ite_upholds (clearBlowerFail_upholds k) k)
  | windingHotSet wheel =>
    unfold exec execWindingHotSet
    exact whenObserving_upholds (ite_upholds (setWindingHot_upholds k _) k)
  | windingHotClear wheel =>
    unfold exec execWindingHotClear
    exact whenObserving_upholds (ite_upholds (clearWindingHot_upholds k _) k)
  | discreteInputSample externalStop =>
    unfold exec execDiscreteInputSample
    exact whenObserving_upholds (observeEscalation_upholds (sampleStop_upholds k _))
  | externalStopActive =>
    unfold exec execExternalStopActive
    exact whenObserving_upholds (ite_upholds (sampleStop_upholds k _) k)
  | externalStopInactive =>
    unfold exec execExternalStopInactive
    exact whenObserving_upholds (ite_upholds (sampleStop_upholds k _) k)

/-! ### Start-up -/

/-- The table as start-up restores it, before the observations. -/
def State.restored (s : State) : State :=
  s.setPru { s.pru with entries := restoredEntries s.cfl.cause s.clock s.pru.entries }

/-- A start-up up to the sections that it writes. -/
def State.begun (s : State) : State := writeSections (startCauses (visitAfterReset (writeHeader s)))

theorem putFaultImage_again (h : Upholds exact a s) : Upholds exact a (putFaultImage s) :=
  putFaultImage_upholds h s.pru

/-- The rest of a start-up, over the table as it is restored. -/
theorem startUp_upholds (s : State) : Upholds true s.begun.restored (startUp s) := by
  have k := Upholds.refl true s.begun.restored
  simp only [startUp, runAll]
  refine settle_upholds (enterLoad_upholds (settle_upholds (reportConditions_upholds ?_)))
  exact settle_upholds (putFaultImage_again (note_upholds (raiseIf_upholds k _ _) _ _ _))

/-- A start-up leaves the fault table image true. -/
theorem startUp_faults (hp : s.begun.wlc.placed) : (startUp s).faultsShown := by
  have hpru : Upholds true s.begun.restored (note .externalStop .global false
      (raiseIf ((restoredEntries s.begun.cfl.cause s.begun.clock s.begun.pru.entries).map
        (fun e => (e.kind, e.subject, e.state)) != s.begun.pru.entries.map
          (fun e => (e.kind, e.subject, e.state))) .faultChange s.begun.restored)) :=
    note_upholds (raiseIf_upholds (Upholds.refl true _) _ _) _ _ _
  have k : Upholds true (putFaultImage (note .externalStop .global false _)) (startUp s) :=
    settle_upholds (enterLoad_upholds (settle_upholds (reportConditions_upholds
      (settle_upholds (Upholds.refl true _)))))
  exact k.faults (hpru.placed hp) (putFaultImage_shown _)

theorem putDerateImage_again (h : Upholds exact a s) : Upholds exact a (putDerateImage s) :=
  putDerateImage_upholds h s.lmu

/-- The sections that start-up writes show three of the images. -/
theorem writeSections_images (hp : s.wlc.placed) : (writeSections s).deratesShown ∧
    (writeSections s).envelopeShown ∧ (writeSections s).tractionShown := by
  have sections : ∀ {a t : State}, Upholds true a t →
      Upholds true a (putLmuSection (putStcSection (putRgcSection t))) := fun h =>
    putLmuSection_upholds (putStcSection_upholds (putRgcSection_upholds h))
  have traction : ∀ {a t : State}, Upholds true a t →
      Upholds true a (putTcuSection (putDmcSection t)) := fun h =>
    putTcuSection_upholds (putDmcSection_upholds h).loosen
  have kt := sections (Upholds.refl true (putTcuSection (putDmcSection (putDerateImage (putEnvelopeImage s)))))
  have kd := sections (traction (Upholds.refl true (putDerateImage (putEnvelopeImage s))))
  have ke := sections (traction (putDerateImage_again (Upholds.refl true (putEnvelopeImage s))))
  exact ⟨kd.derates hp put_showsAt, ke.envelope hp (putEnvelopeImage_shown s), kt.traction rfl hp put_showsAt⟩

@[simp] theorem begun_frame (s : State) :
    s.begun.wlc = s.wlc ∧ s.begun.cfl = s.cfl ∧ s.begun.dmc = s.dmc := by
  simp [State.begun]

/-- A start-up leaves every image true. -/
theorem startUp_images (hp : s.wlc.placed) : (startUp s).imagesShown := by
  have hp' : s.begun.wlc.placed := by rw [(begun_frame s).1]; exact hp
  have k := startUp_upholds s
  obtain ⟨hd, he, ht⟩ := writeSections_images
    (s := startCauses (visitAfterReset (writeHeader s))) (by simpa using hp)
  exact ⟨startUp_faults hp', k.derates hp' (hd.congr rfl fun _ _ _ => rfl),
    k.envelope hp' (he.congr rfl fun _ _ _ => rfl), k.traction rfl hp' (ht.congr rfl fun _ _ _ => rfl)⟩

/-- The header words from 0x0018 on, as start-up writes them over the reset values. -/
theorem writeHeader_fields (s : State) {i : Nat} (hi : i < 23) : (writeHeader s).word (0x0018 + 2 * i) =
    ([0, 0, natWord s.ore.cursor.toNat, s.ore.chain.code, boolWord s.ore.behind,
      s.atc.pending.setWidth 16, s.atc.inService.setWidth 16, 0, 0, 0, 0, 0] ++
      List.replicate 11 Config.absentWord).getD i 0 := by
  simp only [writeHeader, runAll]
  refine (put_word (by simp; omega)).trans ?_
  rw [← List.getD_eq_getElem _ 0, List.getD_append _ _ _ _ (by simp; omega)]
  rfl

/-- The header as start-up writes it shows a part without status blocks (R4, R5). -/
theorem writeHeader_shown (hb : s.wlc.noBlocks) : (writeHeader s).headerShown := by
  have low : ∀ i < 4, (writeHeader s).word (0x000A + 2 * i) =
      (0 :: longWords s.clock ++ [s.dmc.mode.code]).getD i 0 := fun i hi => by
    simp only [writeHeader, runAll]
    rw [put_word_outside (by omega), put_word (by simp [longWords]; omega), List.getD_eq_getElem]
  have high := fun i hi => writeHeader_fields s (i := i) hi
  have hu : ∀ u, (s.wlc.unit u).block = none := hb.1
  refine ⟨?_, ?_, ?_, ?_, ?_, ?_, ?_, ?_, fun u => ?_, fun b => ?_⟩
  · exact (low 1 (by omega)).trans (by simp [longWords])
  · exact (low 2 (by omega)).trans (by simp [longWords])
  · exact (low 3 (by omega)).trans (by simp [longWords])
  · exact (high 2 (by omega)).trans (by simp)
  · exact (high 3 (by omega)).trans (by simp)
  · exact (high 4 (by omega)).trans (by simp)
  · exact (high 5 (by omega)).trans (by simp)
  · exact (high 6 (by omega)).trans (by simp)
  · rw [(writeHeader_frame s).2.2.2.2.2.2.2.2.1, hu]
    cases u with
    | sau => exact high 16 (by omega)
    | wheel w => cases w <;> [exact high 12 (by omega); exact high 13 (by omega);
        exact high 14 (by omega); exact high 15 (by omega)]
  · rw [(writeHeader_frame s).2.2.2.2.2.2.2.2.1, hb.2]
    cases b <;> [exact high 17 (by omega); exact high 18 (by omega); exact high 19 (by omega);
      exact high 20 (by omega); exact high 21 (by omega); exact high 22 (by omega)]

theorem startUp_shown (hp : s.wlc.placed) (hb : s.wlc.noBlocks) : (startUp s).headerShown :=
  (startUp_keeps_record s).shown rfl (by simpa using hp) (writeHeader_shown hb)

/-- A start-up keeps the steer angle's range and the places of the blocks. -/
theorem startUp_places (hp : s.wlc.placed) (hl : s.lockOk) (ha : s.wlc.apart) :
    (startUp s).lockOk ∧ (startUp s).wlc.placed ∧ (startUp s).wlc.apart := by
  have k := startUp_upholds s
  obtain ⟨hw, hc, hd⟩ := begun_frame s
  refine ⟨k.lock ?_, k.placed ?_, k.apart ?_⟩
  · show s.begun.cfl.active.lock ≤ 4500 ∧ s.begun.dmc.demand.steerAngle.natAbs ≤ 4500
    rw [hc, hd]
    exact hl
  · show s.begun.wlc.placed
    rw [hw]
    exact hp
  · show s.begun.wlc.apart
    rw [hw]
    exact ha

/-! ### A part that runs goes on running, but for a reset -/

theorem ite_running {b : Prop} [Decidable b] {u : State}
    (hu : u.supply = s.supply ∧ u.resetLow = s.resetLow) :
    (if b then u else s).isRunning = s.isRunning := by
  split
  · unfold State.isRunning
    rw [hu.1, hu.2]
  · rfl

/-- No command but a reset alters the supply or the RESET input. -/
theorem exec_running {c : Instr} (hr : c.resets = false) (s : State) :
    Answers (fun t => t.isRunning = s.isRunning) (exec c s) := by
  cases c with
  | powerOn => cases hr
  | resetPinAssert => cases hr
  | resetPinRelease => cases hr
  | guardCheck => cases hr
  | softRestart => cases hr
  | supplyFall => cases hr
  | attnPoll => exact ⟨_, rfl, by split <;> simp [State.isRunning]⟩
  | registerWriteIgnored register value => exact ⟨_, rfl, rfl⟩
  | rollTransmit unit => refine ⟨_, rfl, ite_running ?_⟩; dsimp only; split <;> simp
  | channelPeriodStart channel => refine ⟨_, rfl, ite_running ?_⟩; dsimp only; split <;> simp
  | onExpiry channel => refine ⟨_, rfl, ite_running ?_⟩; dsimp only; split <;> simp
  | _ => exact ⟨_, rfl, ite_running (by simp [apply_ite State.supply, apply_ite State.resetLow])⟩

/-! ### Host writes -/

theorem readyMark_settled_upholds (value : Word) (s : State) :
    Upholds true s (settle (readyMark value s)) :=
  settle_upholds (readyMark_upholds (Upholds.refl true s) value)

theorem marked_upholds (value : Word) (s : State) : Upholds true s (put 0x0006 [value] s) :=
  put_upholds (Upholds.refl true s) 1 (by simp) (by omega)

/-- A host write of a word outside the images upholds them, the CFL's act on a ready mark included. -/
theorem hostWrite_upholds {address : BitVec 13} (hi : imageByte (2 * address.toNat) = false)
    (value : Word) (s : State) : Upholds true s (hostWrite address value s) := by
  have hw : Upholds true s (put (2 * address.toNat) [value] s) := by
    refine put_upholds (Upholds.refl true s) 1 (by simp) ?_
    simp only [imageByte, decide_eq_false_iff_not] at hi
    omega
  unfold hostWrite
  split
  · exact hw.trans (readyMark_settled_upholds value _)
  · exact hw

/-- A host write of a word outside the header's keeps the header true. -/
theorem hostWrite_shown {address : BitVec 13} (hm : mirrorByte (2 * address.toNat) = false)
    (value : Word) (hp : s.wlc.placed) (h : s.headerShown) : (hostWrite address value s).headerShown := by
  have hw : (put (2 * address.toNat) [value] s).headerShown := put_shown h fun b h1 h2 => by
    simp only [mirrorByte, decide_eq_false_iff_not, List.length_singleton] at hm h2 ⊢
    omega
  unfold hostWrite
  split
  · exact (settle_keeps (readyMark_keeps (Keeps.refl true _) value)).shown rfl hp hw
  · exact hw

/-! ### The two invariants -/

/-- The range of the steer angle and the places of the blocks. -/
structure State.placesOk (s : State) : Prop where
  lock : s.lockOk
  placed : s.wlc.placed
  apart : s.wlc.apart

theorem Upholds.placesOk (h : Upholds exact s t) (hs : s.placesOk) : t.placesOk :=
  ⟨h.lock hs.lock, h.placed hs.placed, h.apart hs.apart⟩

theorem startUp_placesOk (h : s.placesOk) : (startUp s).placesOk :=
  have ⟨hl, hp, ha⟩ := startUp_places h.placed h.lock h.apart
  ⟨hl, hp, ha⟩

theorem reset_placed : Wlc.reset.placed := Wlc.reset_noBlocks.placed (Nat.le_refl _)

theorem takeReset_placesOk (kind : ResetKind) (s : State) : (takeReset kind s).placesOk :=
  ⟨by
    show (3800 : Nat) ≤ 4500 ∧ (0 : Nat) ≤ 4500
    omega, reset_placed, Wlc.reset_noBlocks.apart⟩

theorem blank_placesOk (resetLow : Bool) (draws : Nat) (pending : List Instr) :
    (State.blank resetLow draws pending).placesOk :=
  ⟨by
    show (3800 : Nat) ≤ 4500 ∧ (0 : Nat) ≤ 4500
    omega, reset_placed, Wlc.reset_noBlocks.apart⟩

theorem ite_placesOk {b : Prop} [Decidable b] {u v : State} (hu : u.placesOk) (hv : v.placesOk) :
    (if b then u else v).placesOk := by split <;> assumption

/-- A host write of any word keeps the places. -/
theorem put_placesOk (h : s.placesOk) (x : Nat) (ws : List Word) : (put x ws s).placesOk :=
  ⟨h.lock, h.placed, h.apart⟩

/-- Every command keeps the range of the steer angle and the places of the blocks. -/
theorem exec_placesOk (c : Instr) (s : State) (h : s.placesOk) : Answers State.placesOk (exec c s) := by
  by_cases hw : c.writesHost = false
  · by_cases hr : c.resets = false
    · obtain ⟨t, ht, k⟩ := exec_upholds hw hr s
      exact ⟨t, ht, k.placesOk h⟩
    · cases c with
      | powerOn => cases hw
      | resetPinAssert =>
        exact ⟨_, rfl, ite_placesOk (setResetLow_upholds (exact := true) (Upholds.refl true _) true
          |>.placesOk (takeReset_placesOk _ s)) ((setResetLow_upholds (Upholds.refl true _) true).placesOk h)⟩
      | resetPinRelease =>
        have k := (setResetLow_upholds (Upholds.refl true s) false).placesOk h
        exact ⟨_, rfl, ite_placesOk (startUp_placesOk k) k⟩
      | softRestart =>
        unfold exec execSoftRestart
        exact whenRunning_answers (startUp_placesOk (takeReset_placesOk _ s)) h
      | guardCheck =>
        unfold exec execGuardCheck
        exact whenRunning_answers (ite_placesOk (startUp_placesOk (takeReset_placesOk _ s)) h) h
      | supplyFall =>
        have k := blank_placesOk s.resetLow s.draws s.pending
        exact ⟨_, rfl, ⟨k.lock, k.placed, k.apart⟩⟩
      | _ => exact absurd rfl hr
  · cases c with
    | powerOn =>
      have k := blank_placesOk s.resetLow s.draws s.pending
      exact ⟨_, rfl, ite_placesOk k (startUp_placesOk k)⟩
    | hostWordWrite address value =>
      unfold exec execHostWordWrite
      refine whenRunning_answers ?_ h
      unfold hostWrite
      exact ite_placesOk ((readyMark_settled_upholds value _).placesOk (put_placesOk h _ _))
        (put_placesOk h _ _)
    | readyMarkWrite value =>
      unfold exec execReadyMarkWrite
      exact whenRunning_answers ((readyMark_settled_upholds value _).placesOk (put_placesOk h _ _)) h
    | _ => exact absurd rfl hw

/-- What every command keeps of the blocks' state. -/
theorem exec_ok (c : Instr) (s : State) (h : s.ok) : Answers State.ok (exec c s) := by
  obtain ⟨t, ht, k, -⟩ := exec_keepsForm c s
  obtain ⟨⟨hlock, hsteer⟩, hplaced, hapart⟩ :=
    (exec_placesOk c s ⟨⟨h.lock, h.steer⟩, h.placed, h.apart⟩).of_next ht
  exact ⟨t, ht, { atc := k.atc h.atc, pru := k.pru h.pru, lmu := k.lmu h.lmu
                  demand := k.demand h.demand, rgc := k.rgc h.rgc, stc := k.stc h.stc
                  lock := hlock, steer := hsteer, placed := hplaced, apart := hapart }⟩

/-- The header, the images and the places of a part, while it starts up or is at rest. -/
theorem startUp_headerOk (hp : s.wlc.placed) (hb : s.wlc.noBlocks) (hrun : s.isRunning = true) :
    (startUp s).headerOk :=
  have hp' : s.begun.wlc.placed := by rw [(begun_frame s).1]; exact hp
  ⟨(startUp_upholds s).placed hp', fun _ => startUp_shown hp hb, fun _ => startUp_images hp, fun h => by
    have : (startUp s).isRunning = s.isRunning := by simp [State.isRunning]
    rw [this, hrun] at h
    exact absurd h (by simp)⟩

/-- A part at rest without status blocks. -/
theorem headerOk_of_stopped (hp : s.wlc.placed) (hb : s.wlc.noBlocks) (h : s.isRunning = false) :
    s.headerOk :=
  ⟨hp, fun k => by rw [h] at k; exact absurd k (by simp), fun k => by rw [h] at k; exact absurd k (by simp),
    fun _ => hb⟩

theorem Upholds.images (h : Upholds true s t) (hp : s.wlc.placed) (hs : s.imagesShown) : t.imagesShown :=
  ⟨h.faults hp hs.faults, h.derates hp hs.derates, h.envelope hp hs.envelope,
    h.traction rfl hp hs.traction⟩

/-- A running part that goes on running keeps showing its state. -/
theorem State.headerOk.of_running (h : s.headerOk) (hs : s.isRunning = true) (ht : t.isRunning = true)
    (k : Upholds true s t) (hk : s.headerShown → t.headerShown) : t.headerOk :=
  ⟨k.placed h.placed, fun _ => hk (h.shown hs), fun _ => k.images h.placed (h.images hs), fun e => by
    rw [ht] at e
    exact absurd e (by simp)⟩

theorem exec_headerOk_of_running {c : Instr} (hs : s.isRunning = true) (h : s.headerOk)
    (hr : c.resets = false) (hc : ∀ address value, c = .hostWordWrite address value →
      mirrorByte (2 * address.toNat) = false ∧ imageByte (2 * address.toNat) = false)
    (ht : exec c s = .next t) : t.headerOk := by
  have hrun : t.isRunning = true := ((exec_running hr s).of_next ht).trans hs
  by_cases hw : c.writesHost = false
  · exact h.of_running hs hrun ((exec_upholds hw hr s).of_next ht)
      (((exec_keeps hw hr s).of_next ht).shown rfl h.placed)
  · cases c with
    | powerOn => cases hr
    | hostWordWrite address value =>
      obtain ⟨hm, hi⟩ := hc address value rfl
      have e : exec (.hostWordWrite address value) s = .next (hostWrite address value s) :=
        whenRunning_of_running hs _
      obtain rfl := Host.Outcome.next.inj (e.symm.trans ht)
      exact h.of_running hs hrun (hostWrite_upholds hi value s) (hostWrite_shown hm value h.placed)
    | readyMarkWrite value =>
      have e : exec (.readyMarkWrite value) s = .next (settle (readyMark value (put 0x0006 [value] s))) :=
        whenRunning_of_running hs fun s => settle (readyMark value (put 0x0006 [value] s))
      obtain rfl := Host.Outcome.next.inj (e.symm.trans ht)
      refine h.of_running hs hrun ((marked_upholds value s).trans (readyMark_settled_upholds value _))
        fun k => ?_
      exact (settle_keeps (readyMark_keeps (Keeps.refl true _) value)).shown rfl h.placed
        (put_shown k fun b h1 h2 => by
          simp only [mirrorByte, decide_eq_false_iff_not, List.length_singleton] at h2 ⊢
          omega)
    | _ => exact absurd rfl hw

/-- POWER_ON leaves a part that shows its state, or waits in reset without status blocks. -/
theorem powerOn_headerOk (ht : exec .powerOn s = .next t) : t.headerOk := by
  obtain rfl := Host.Outcome.next.inj ht
  split
  case isTrue h => exact headerOk_of_stopped reset_placed Wlc.reset_noBlocks (by simp [State.isRunning, h])
  case isFalse h =>
    exact startUp_headerOk reset_placed Wlc.reset_noBlocks
      (by simpa [State.isRunning, powerUp, State.blank] using h)

/-- The fall of the supply leaves a part without status blocks. -/
theorem supplyFall_headerOk (ht : exec .supplyFall s = .next t) : t.headerOk := by
  obtain rfl := Host.Outcome.next.inj ht
  exact headerOk_of_stopped reset_placed Wlc.reset_noBlocks rfl

/-- A reset of a running part ends in a start-up over reset values. -/
theorem resetNow_headerOk (hs : s.isRunning = true) (kind : ResetKind) : (resetNow kind s).headerOk :=
  startUp_headerOk (s := takeReset kind s) reset_placed Wlc.reset_noBlocks hs

/-- The resets of a running part (R30). -/
theorem exec_headerOk_of_reset {c : Instr} (hs : s.isRunning = true) (h : s.headerOk)
    (hr : c.resets = true) (ht : exec c s = .next t) : t.headerOk := by
  cases c with
  | powerOn => exact powerOn_headerOk ht
  | supplyFall => exact supplyFall_headerOk ht
  | resetPinAssert =>
    obtain rfl := Host.Outcome.next.inj ht
    rw [if_pos hs]
    exact headerOk_of_stopped reset_placed Wlc.reset_noBlocks (by simp [State.isRunning])
  | resetPinRelease =>
    obtain rfl := Host.Outcome.next.inj ht
    have hl : s.resetLow = false := by simp [State.isRunning] at hs; exact hs.2
    have hid : s.setResetLow false = s := by rw [← hl]; rfl
    rw [hl, Bool.and_false, if_neg (by simp), hid]
    exact h
  | softRestart =>
    have e : exec .softRestart s = .next (resetNow .softRestart s) := whenRunning_of_running hs _
    obtain rfl := Host.Outcome.next.inj (e.symm.trans ht)
    exact resetNow_headerOk hs _
  | guardCheck =>
    have e : exec .guardCheck s =
        .next (if s.cfl.guardOn && !s.cfl.copiesLegal then resetNow .guard s else s) :=
      whenRunning_of_running hs fun s => if s.cfl.guardOn && !s.cfl.copiesLegal then resetNow .guard s else s
    obtain rfl := Host.Outcome.next.inj (e.symm.trans ht)
    split
    · exact resetNow_headerOk hs _
    · exact h
  | _ => cases hr

/-- The commands of a part at rest (R30). -/
theorem exec_headerOk_of_stopped {c : Instr} (hs : s.isRunning = false) (h : s.headerOk)
    (ht : exec c s = .next t) : t.headerOk := by
  have hb := h.unplaced hs
  by_cases ha : c.actsStopped = false
  · obtain rfl := Host.Outcome.next.inj ((exec_of_stopped hs ha).symm.trans ht)
    exact h
  · cases c with
    | powerOn => exact powerOn_headerOk ht
    | supplyFall => exact supplyFall_headerOk ht
    | attnPoll =>
      obtain rfl := Host.Outcome.next.inj ht
      rw [hs, if_neg (by simp)]
      exact headerOk_of_stopped h.placed hb hs
    | resetPinAssert =>
      obtain rfl := Host.Outcome.next.inj ht
      rw [hs, if_neg (by simp)]
      exact headerOk_of_stopped h.placed hb (by simp [State.isRunning])
    | resetPinRelease =>
      obtain rfl := Host.Outcome.next.inj ht
      split
      case isTrue hup =>
        exact startUp_headerOk h.placed hb (by simp at hup; simp [State.isRunning, hup])
      case isFalse hup =>
        refine headerOk_of_stopped h.placed hb ?_
        cases hsup : s.supply <;> simp_all [State.isRunning]
    | _ => exact absurd rfl ha

end

/-! ### The statements -/

/-- Settles O4: the blocks' ranges by `Keeps`, the lock and the places of the blocks by `Upholds`. -/
theorem rangesKept : Obligations.RangesKept := fun _ _ =>
  step_keeps (P := State.ok)
    (fun _ _ h => ⟨h.atc, h.pru, h.lmu, h.demand, h.lock, h.steer, h.rgc, h.stc, h.placed, h.apart⟩) exec_ok

/-- Settles O6: a running part by `Keeps` and `Upholds`, a start-up by what it writes, a part at rest by the
blocks that it does not hold. -/
theorem headerKept : Obligations.HeaderKept := by
  intro c s t h hc ht
  by_cases hs : s.isRunning = true
  · cases hr : c.resets with
    | true => exact exec_headerOk_of_reset hs h hr ht
    | false => exact exec_headerOk_of_running hs h hr hc ht
  · exact exec_headerOk_of_stopped (by simpa using hs) h ht

end Sys2Proof.Machine
end

section
/-! The ROLL and the QUIET broadcast as they are sent (O46). -/

namespace Sys2Proof.Machine

variable {s : State} {l : Wlc} {u : UnitId}

/-- The bus is free when no window is open and no QUIET is pending. -/
theorem busFree_iff : l.busFree = true ↔ l.window = none ∧ l.quiet = false := by
  simp [Wlc.busFree]

/-- A ROLL is due to the record that a roll call polls (R42). -/
theorem rollDue_rollCall {c : RollCall} (hf : l.busFree = true) (hc : l.rollCall = some c)
    (hu : c.todo.head? = some u) : l.rollDue u = some .rollCall := by
  unfold Wlc.rollDue
  simp [hf, hc, hu]

/-- A ROLL is due to a LOST record in its turn of the round (R50). -/
theorem rollDue_round {rest : List UnitId} (hf : l.busFree = true) (hc : l.rollCall = none)
    (ho : l.roundOpen = true) (hv : l.visit = u :: rest) (hl : (l.unit u).state = .lost) :
    l.rollDue u = some .round := by
  unfold Wlc.rollDue
  simp [hf, hc, ho, hv, hl]

/-- A ROLL is due to the current target of an order behind the visited records (R52). -/
theorem rollDue_order {o : EnrollOrder} (hf : l.busFree = true) (hc : l.rollCall = none)
    (ho : l.roundOpen = true) (hv : l.visit = []) (horder : l.order = some o)
    (ht : l.orderTried = false) (hu : o.todo.head? = some u) : l.rollDue u = some .order := by
  unfold Wlc.rollDue
  simp [hf, hc, ho, hv, horder, ht, hu]

/-- No ROLL is due in any other case (assumption log 7). -/
theorem rollDue_none (h : ¬(l.window = none ∧ l.quiet = false ∧
    ((∃ c, l.rollCall = some c ∧ c.todo.head? = some u) ∨
      l.rollCall = none ∧ l.roundOpen = true ∧
        (l.visit.head? = some u ∧ (l.unit u).state = .lost ∨
          l.visit = [] ∧ l.orderTried = false ∧
            ∃ o, l.order = some o ∧ o.todo.head? = some u)))) : l.rollDue u = none := by
  unfold Wlc.rollDue
  by_cases hf : l.busFree = true
  · obtain ⟨hw, hq⟩ := busFree_iff.1 hf
    simp only [hf, Bool.not_true, Bool.false_eq_true, if_false]
    cases hc : l.rollCall with
    | some c => exact if_neg fun hu => h ⟨hw, hq, .inl ⟨c, hc, hu⟩⟩
    | none =>
      cases ho : l.roundOpen with
      | false => rfl
      | true =>
        cases hv : l.visit with
        | cons v rest =>
          have hno : ¬(v = u ∧ (l.unit u).state = .lost) := fun ⟨hvu, hl⟩ =>
            h ⟨hw, hq, .inr ⟨hc, ho, .inl ⟨by rw [hv, hvu]; rfl, hl⟩⟩⟩
          simp [hno]
        | nil =>
          cases horder : l.order with
          | none => rfl
          | some o =>
            have hno : ¬(l.orderTried = false ∧ o.todo.head? = some u) := fun ⟨ht, hu⟩ =>
              h ⟨hw, hq, .inr ⟨hc, ho, .inr ⟨hv, ht, o, horder, hu⟩⟩⟩
            simpa using hno
  · rw [if_pos (by simpa using hf)]

/-- A ROLL that is due goes out. -/
theorem exec_rollTransmit {p : Purpose} (hs : s.isRunning = true) (h : s.wlc.rollDue u = some p) :
    exec (.rollTransmit u) s = .next (sendRoll u p s) := by
  show execRollTransmit u s = _
  unfold execRollTransmit
  rw [whenRunning_of_running hs]
  simp only [h]

theorem exec_rollTransmit_idle (hs : s.isRunning = true) (h : s.wlc.rollDue u = none) :
    exec (.rollTransmit u) s = .next s := by
  show execRollTransmit u s = _
  unfold execRollTransmit
  rw [whenRunning_of_running hs]
  simp only [h]

theorem sendRoll_round {rest : List UnitId} (hv : s.wlc.visit = u :: rest) :
    sendRoll u .round s = { s with wlc := { s.wlc with
      sent := rollTelegram u, visit := rest
      window := some { unit := u, sent := .roll, purpose := .round } } } := by
  have hd : s.wlc.visit.drop 1 = rest := by rw [hv]; rfl
  rw [← hd]
  rfl

theorem sendRoll_order {o : EnrollOrder} (ho : s.wlc.order = some o) :
    sendRoll u .order s = { s with wlc := { s.wlc with
      sent := rollTelegram u, order := some { o with tries := o.tries + 1 }, orderTried := true
      window := some { unit := u, sent := .roll, purpose := .order } } } := by
  unfold sendRoll countTry
  simp only [ho]
  rfl

theorem quietDue_iff : s.quietDue = true ↔ s.wlc.quiet = true ∧ s.wlc.window = none := by
  simp [State.quietDue]

/-- Settles O46: a ROLL goes out by what it is due to, and the QUIET when it is pending. -/
theorem rollAndQuietSent : Obligations.RollAndQuietSent := by
  intro s hs
  refine ⟨fun u sent hw hq hsent => ?_, fun u h => exec_rollTransmit_idle hs (rollDue_none h),
    fun hq hw => ?_, fun h => ?_⟩
  · subst hsent
    have hf := busFree_iff.2 ⟨hw, hq⟩
    refine ⟨fun c hc hu => exec_rollTransmit hs (rollDue_rollCall hf hc hu),
      fun rest hc ho hv hl => ?_, fun o hc ho hv horder ht hu => ?_⟩
    · rw [exec_rollTransmit hs (rollDue_round hf hc ho hv hl), sendRoll_round hv]
      rfl
    · rw [exec_rollTransmit hs (rollDue_order hf hc ho hv horder ht hu), sendRoll_order horder]
      rfl
  · refine (whenRunning_of_running hs _).trans ?_
    rw [if_pos (quietDue_iff.2 ⟨hq, hw⟩)]
    rfl
  · refine (whenRunning_of_running hs _).trans ?_
    rw [if_neg]
    rw [quietDue_iff]
    rintro ⟨hq, hw⟩
    rcases h with h | h
    · rw [h] at hq; exact Bool.false_ne_true hq
    · exact h hw

end Sys2Proof.Machine
end

section
/-! SUPPORT. One observation over the fault table, and what an event that makes one leaves as it is: the rules
that the statements about conditions share (R176). -/

namespace Sys2Proof.Machine

section
variable {s t u a : State} {c : Params} {clock : Long} {k : Kind} {subject : Subject} {present : Bool}
  {e : Entry} {es : List Entry}

/-! ### An observed entry keeps its pair -/

theorem fresh_pair : (Entry.fresh c clock k subject).kind = k ∧
    (Entry.fresh c clock k subject).subject = subject := by
  unfold Entry.fresh
  dsimp only
  split <;> exact ⟨rfl, rfl⟩

theorem seePresent_pair (clock : Long) (e : Entry) :
    (e.seePresent clock).1.kind = e.kind ∧ (e.seePresent clock).1.subject = e.subject := by
  unfold Entry.seePresent
  cases e.state <;> dsimp only <;> first | exact ⟨rfl, rfl⟩ | (split <;> exact ⟨rfl, rfl⟩)

theorem seePresent_cond (clock : Long) (e : Entry) : (e.seePresent clock).1.cond = true := by
  unfold Entry.seePresent
  cases e.state <;> dsimp only <;> first | rfl | (split <;> rfl)

theorem fresh_cond : (Entry.fresh c clock k subject).cond = true := by
  unfold Entry.fresh
  dsimp only
  split <;> rfl

/-- What an absent observation leaves of an entry is of its pair, without the mark. -/
theorem seeAbsent_spec {f : Entry} (h : f ∈ (e.seeAbsent c clock).1) :
    f.kind = e.kind ∧ f.subject = e.subject ∧ f.cond = false := by
  unfold Entry.seeAbsent at h
  cases hs : e.state <;> simp only [hs] at h
  case pending => cases h
  case active =>
    split at h <;> obtain rfl := Option.mem_some_iff.1 h <;> exact ⟨rfl, rfl, rfl⟩
  case latched => obtain rfl := Option.mem_some_iff.1 h; exact ⟨rfl, rfl, rfl⟩
  case cleared => obtain rfl := Option.mem_some_iff.1 h; exact ⟨rfl, rfl, rfl⟩

/-! ### The table after an observation -/

/-- What an observation does to the table: an entry of the pair is replaced by what the observation makes of
it, and without one a present observation appends a fresh one. -/
theorem observeEntries_cons_of_pair (h : e.kind = k ∧ e.subject = subject) :
    (observeEntries c clock k subject present (e :: es)).1 =
      if present then (e.seePresent clock).1 :: es else (e.seeAbsent c clock).1.toList ++ es := by
  unfold observeEntries
  rw [if_pos h]
  cases present <;> rfl

theorem observeEntries_absent_of_pair (h : e.kind = k ∧ e.subject = subject) :
    (observeEntries c clock k subject false (e :: es)).1 = (e.seeAbsent c clock).1.toList ++ es :=
  observeEntries_cons_of_pair h

theorem observeEntries_cons_of_other (h : ¬(e.kind = k ∧ e.subject = subject)) :
    (observeEntries c clock k subject present (e :: es)).1 =
      e :: (observeEntries c clock k subject present es).1 := by
  rw [observeEntries, if_neg h]

theorem observeEntries_nil : (observeEntries c clock k subject present []).1 =
    if present then [Entry.fresh c clock k subject] else [] := by
  cases present <;> rfl

/-- The entries of the other pairs stay, in their order. -/
theorem observeEntries_pairs {q : Entry → Bool}
    (hq : ∀ e f : Entry, e.kind = f.kind → e.subject = f.subject → q e = q f)
    (hn : ∀ e : Entry, e.kind = k → e.subject = subject → q e = false) :
    (observeEntries c clock k subject present es).1.filter q = es.filter q := by
  induction es with
  | nil =>
    rw [observeEntries_nil]
    cases present with
    | false => rfl
    | true =>
      obtain ⟨h1, h2⟩ := fresh_pair (c := c) (clock := clock) (k := k) (subject := subject)
      rw [if_pos rfl, List.filter_cons_of_neg (by rw [hn _ h1 h2]; exact Bool.false_ne_true)]
  | cons e es ih =>
    by_cases h : e.kind = k ∧ e.subject = subject
    · have he : ¬ q e = true := by rw [hn e h.1 h.2]; exact Bool.false_ne_true
      rw [observeEntries_cons_of_pair h, List.filter_cons_of_neg he]
      cases present with
      | true =>
        obtain ⟨h1, h2⟩ := seePresent_pair clock e
        rw [if_pos rfl, List.filter_cons_of_neg (by rw [hq _ e h1 h2]; exact he)]
      | false =>
        rw [if_neg Bool.false_ne_true, List.filter_append]
        have : (e.seeAbsent c clock).1.toList.filter q = [] := by
          rw [List.filter_eq_nil_iff]
          intro f hf
          obtain ⟨h1, h2, -⟩ := seeAbsent_spec (Option.mem_toList.1 hf)
          rw [hq f e h1 h2]
          exact he
        rw [this, List.nil_append]
    · rw [observeEntries_cons_of_other h, List.filter_cons, List.filter_cons, ih]

/-- A present observation leaves an entry of the pair with the mark set. -/
theorem observeEntries_present :
    ∃ e ∈ (observeEntries c clock k subject true es).1, e.kind = k ∧ e.subject = subject ∧ e.cond = true := by
  induction es with
  | nil =>
    obtain ⟨h1, h2⟩ := fresh_pair (c := c) (clock := clock) (k := k) (subject := subject)
    exact ⟨_, by rw [observeEntries_nil]; exact List.mem_singleton_self _, h1, h2, fresh_cond⟩
  | cons e es ih =>
    by_cases h : e.kind = k ∧ e.subject = subject
    · obtain ⟨h1, h2⟩ := seePresent_pair clock e
      exact ⟨_, by rw [observeEntries_cons_of_pair h]; exact List.mem_cons_self, h1.trans h.1,
        h2.trans h.2, seePresent_cond clock e⟩
    · obtain ⟨f, hf, hp⟩ := ih
      exact ⟨f, by rw [observeEntries_cons_of_other h]; exact List.mem_cons_of_mem _ hf, hp⟩

/-- An absent observation leaves no entry of the pair with the mark set. -/
theorem observeEntries_absent (hok : es.Pairwise Entry.differs) {f : Entry}
    (hf : f ∈ (observeEntries c clock k subject false es).1) (h1 : f.kind = k) (h2 : f.subject = subject) :
    f.cond = false := by
  induction es with
  | nil => cases hf
  | cons e es ih =>
    obtain ⟨hhead, htail⟩ := List.pairwise_cons.1 hok
    by_cases h : e.kind = k ∧ e.subject = subject
    · rw [observeEntries_absent_of_pair h] at hf
      rcases List.mem_append.1 hf with hf | hf
      · exact (seeAbsent_spec (Option.mem_toList.1 hf)).2.2
      · exact absurd ⟨h.1.trans h1.symm, h.2.trans h2.symm⟩ (hhead f hf)
    · rw [observeEntries_cons_of_other h] at hf
      rcases List.mem_cons.1 hf with rfl | hf
      · exact absurd ⟨h1, h2⟩ h
      · exact ih htail hf

/-! ### One observation at the PRU -/

theorem note_observed (hok : s.pru.ok) (k : Kind) (subject : Subject) (present : Bool) :
    (note k subject present s).pru.observed k subject present := by
  rw [note_pru]
  cases present with
  | true => exact observeEntries_present
  | false => exact fun _ hf => observeEntries_absent hok hf

/-- The entries of the other kinds stay. -/
theorem note_others {j : Kind} (h : j ≠ k) (subject : Subject) (present : Bool) (s : State) :
    (note k subject present s).pru.entries.filter (fun e => e.kind == j) =
      s.pru.entries.filter (fun e => e.kind == j) := by
  rw [note_pru]
  refine observeEntries_pairs (fun e f h1 _ => by rw [h1]) fun e h1 _ => ?_
  rw [h1]
  simpa using fun e => h e.symm

/-- An observation of another pair leaves what the table says of this one. -/
theorem observed_of_filter {p q : Pru}
    (h : q.entries.filter (fun e => e.kind == k && e.subject == subject) =
      p.entries.filter (fun e => e.kind == k && e.subject == subject))
    (ho : p.observed k subject present) : q.observed k subject present := by
  have hm : ∀ e : Entry, e.kind = k → e.subject = subject → (e ∈ q.entries ↔ e ∈ p.entries) :=
    fun e h1 h2 => by
      have := congrArg (e ∈ ·) h
      simpa [List.mem_filter, h1, h2] using this
  cases present with
  | true =>
    obtain ⟨e, he, h1, h2, h3⟩ := ho
    exact ⟨e, (hm e h1 h2).2 he, h1, h2, h3⟩
  | false => exact fun e he h1 h2 => ho e ((hm e h1 h2).1 he) h1 h2

theorem note_observed_other {j : Kind} {other : Subject} (h : ¬(k = j ∧ subject = other)) {b : Bool}
    (ho : s.pru.observed k subject b) : (note j other present s).pru.observed k subject b := by
  refine observed_of_filter ?_ ho
  rw [note_pru]
  refine observeEntries_pairs (fun e f h1 h2 => by rw [h1, h2]) fun e h1 h2 => ?_
  rw [h1, h2]
  simp only [Bool.and_eq_false_iff, beq_eq_false_iff_ne]
  by_cases hk : k = j
  · exact .inr fun hs => h ⟨hk, hs.symm⟩
  · exact .inl fun hj => hk hj.symm

/-! ### The kinds that no delivery observes -/

/-- The entries of a quiet kind stand among the quiet ones. -/
theorem quiet_filter (hk : k.loud = false) (p : Pru) :
    p.quiet.filter (fun e => e.kind == k) = p.entries.filter (fun e => e.kind == k) := by
  unfold Pru.quiet
  rw [List.filter_filter]
  refine List.filter_congr fun e _ => ?_
  by_cases h : e.kind = k
  · simp [h, hk]
  · simp [h]

theorem kind_of_quiet {p q : Pru} (h : q.quiet = p.quiet) (hk : k.loud = false) :
    q.entries.filter (fun e => e.kind == k) = p.entries.filter (fun e => e.kind == k) := by
  rw [← quiet_filter hk, ← quiet_filter hk, h]

theorem observed_of_quiet {p q : Pru} (h : q.quiet = p.quiet) (hk : k.loud = false)
    (ho : p.observed k subject present) : q.observed k subject present := by
  refine observed_of_filter ?_ ho
  have := congrArg (List.filter fun e => e.subject == subject) (kind_of_quiet h hk)
  simpa [List.filter_filter, Bool.and_comm] using this

theorem settle_kind (hk : k.loud = false) (s : State) :
    (settle s).pru.entries.filter (fun e => e.kind == k) =
      s.pru.entries.filter (fun e => e.kind == k) :=
  kind_of_quiet ((settle_steady (Steady.refl true s)).quiet rfl) hk

theorem settle_observed (hk : k.loud = false) (ho : s.pru.observed k subject present) :
    (settle s).pru.observed k subject present :=
  observed_of_quiet ((settle_steady (Steady.refl true s)).quiet rfl) hk ho

theorem note_ok (hok : s.pru.ok) (k : Kind) (subject : Subject) (present : Bool) :
    (note k subject present s).pru.ok := (note_keeps (Keeps.refl true s) k subject present).pru hok

theorem noteChange_observed (hok : s.pru.ok) (k : Kind) (subject : Subject) {before after : Bool}
    (h : after ≠ before) : (noteChange k subject before after s).pru.observed k subject after := by
  unfold noteChange noteIf
  rw [if_pos (by simpa using h.symm)]
  exact note_observed hok k subject after

theorem noteChange_observed_other {j : Kind} {other : Subject} (h : ¬(k = j ∧ subject = other))
    {b before after : Bool} (ho : s.pru.observed k subject b) :
    (noteChange j other before after s).pru.observed k subject b := by
  unfold noteChange noteIf
  split
  · exact note_observed_other h ho
  · exact ho

/-! ### One operation for each wheel or bank -/

/-- What the operation of one wheel brings about holds after all four, when the others' operations keep
what it needs and what it brings about. -/
theorem forWheels_reaches {f : Wheel → State → State} {A B : State → Prop} (w : Wheel)
    (hbefore : ∀ v, v ≠ w → ∀ s, A s → A (f v s)) (hat : ∀ s, A s → B (f w s))
    (hafter : ∀ v, v ≠ w → ∀ s, B s → B (f v s)) (h : A s) : B (forWheels f s) := by
  unfold forWheels
  cases w with
  | w1 => exact hafter _ (by decide) _ (hafter _ (by decide) _ (hafter _ (by decide) _ (hat _ h)))
  | w2 => exact hafter _ (by decide) _ (hafter _ (by decide) _ (hat _ (hbefore _ (by decide) _ h)))
  | w3 => exact hafter _ (by decide) _ (hat _ (hbefore _ (by decide) _ (hbefore _ (by decide) _ h)))
  | w4 => exact hat _ (hbefore _ (by decide) _ (hbefore _ (by decide) _ (hbefore _ (by decide) _ h)))

theorem forBanks_reaches {f : Bank → State → State} {A B : State → Prop} (b : Bank)
    (hbefore : ∀ c, c ≠ b → ∀ s, A s → A (f c s)) (hat : ∀ s, A s → B (f b s))
    (hafter : ∀ c, c ≠ b → ∀ s, B s → B (f c s)) (h : A s) : B (forBanks f s) := by
  unfold forBanks
  cases b with
  | b1 => exact hafter .b6 nofun _ (hafter .b5 nofun _ (hafter .b4 nofun _ (hafter .b3 nofun _
      (hafter .b2 nofun _ (hat _ h)))))
  | b2 => exact hafter .b6 nofun _ (hafter .b5 nofun _ (hafter .b4 nofun _ (hafter .b3 nofun _ (hat
      _ (hbefore .b1 nofun _ h)))))
  | b3 => exact hafter .b6 nofun _ (hafter .b5 nofun _ (hafter .b4 nofun _ (hat _ (hbefore .b2 nofun
      _ (hbefore .b1 nofun _ h)))))
  | b4 => exact hafter .b6 nofun _ (hafter .b5 nofun _ (hat _ (hbefore .b3 nofun _ (hbefore .b2
      nofun _ (hbefore .b1 nofun _ h)))))
  | b5 => exact hafter .b6 nofun _ (hat _ (hbefore .b4 nofun _ (hbefore .b3 nofun _ (hbefore .b2
      nofun _ (hbefore .b1 nofun _ h)))))
  | b6 => exact hat _ (hbefore .b5 nofun _ (hbefore .b4 nofun _ (hbefore .b3 nofun _ (hbefore .b2
      nofun _ (hbefore .b1 nofun _ h)))))

end
end Sys2Proof.Machine
end

section
/-! The allocation event: the terms of a wheel (O40), the computation (O41), the modes without torque (O42)
and the peak credit (O43). -/

namespace Sys2Proof.Machine

section
variable {s t : State} {w : Wheel}

/-! ### The least factor over a list of derates (R84) -/

/-- The least factor is at most 1000 and at most each factor named, and it is one of them. -/
theorem leastFactor_spec (l : Lmu) (test : Derate → Bool) :
    l.leastFactor test ≤ 1000 ∧ (∀ e ∈ l.derates, test e = true → l.leastFactor test ≤ e.factor) ∧
      (l.leastFactor test = 1000 ∨ ∃ e ∈ l.derates, test e = true ∧ e.factor = l.leastFactor test) := by
  unfold Lmu.leastFactor
  induction l.derates with
  | nil => exact ⟨Nat.le_refl _, nofun, .inl rfl⟩
  | cons d ds ih =>
    obtain ⟨hle, hall, hone⟩ := ih
    rw [List.foldr_cons]
    by_cases hd : test d = true
    · rw [if_pos hd]
      refine ⟨Nat.le_trans (Nat.min_le_right _ _) hle, fun e he ht => ?_, ?_⟩
      · rcases List.mem_cons.1 he with rfl | he
        · exact Nat.min_le_left _ _
        · exact Nat.le_trans (Nat.min_le_right _ _) (hall e he ht)
      · rcases Nat.le_total d.factor (ds.foldr (fun d a => if test d then min d.factor a else a) 1000)
          with h | h
        · rw [Nat.min_eq_left h]
          exact .inr ⟨d, List.mem_cons_self, hd, rfl⟩
        · rw [Nat.min_eq_right h]
          exact hone.imp_right fun ⟨e, he, k⟩ => ⟨e, List.mem_cons_of_mem _ he, k⟩
    · rw [if_neg hd]
      refine ⟨hle, fun e he ht => ?_,
        hone.imp_right fun ⟨e, he, k⟩ => ⟨e, List.mem_cons_of_mem _ he, k⟩⟩
      rcases List.mem_cons.1 he with rfl | he
      · exact absurd ht hd
      · exact hall e he ht

/-- The derates of both scopes are those of every source but PAYLOAD and LINK_LOW. -/
theorem both_iff (q : DSource) : q.both = true ↔ q ≠ .payload ∧ q ≠ .linkLow := by
  cases q <;> simp [DSource.both]

theorem wheelTarget_iff (q : DTarget) :
    (q == .wheel w || q == .allWheels) = true ↔ q = .wheel w ∨ q = .allWheels := by simp

theorem dProp_spec (l : Lmu) (w : Wheel) : l.dProp w ≤ 1000 ∧
    (∀ e ∈ l.derates, e.target = .wheel w ∨ e.target = .allWheels → l.dProp w ≤ e.factor) ∧
    (l.dProp w = 1000 ∨ ∃ e ∈ l.derates,
      (e.target = .wheel w ∨ e.target = .allWheels) ∧ e.factor = l.dProp w) := by
  obtain ⟨h1, h2, h3⟩ := leastFactor_spec l fun d => d.target == .wheel w || d.target == .allWheels
  exact ⟨h1, fun e he ht => h2 e he ((wheelTarget_iff _).2 ht),
    h3.imp_right fun ⟨e, he, ht, hf⟩ => ⟨e, he, (wheelTarget_iff _).1 ht, hf⟩⟩

theorem dBoth_spec (l : Lmu) (w : Wheel) : l.dBoth w ≤ 1000 ∧
    (∀ e ∈ l.derates, e.target = .wheel w ∨ e.target = .allWheels →
      e.source ≠ .payload → e.source ≠ .linkLow → l.dBoth w ≤ e.factor) ∧
    (l.dBoth w = 1000 ∨ ∃ e ∈ l.derates, (e.target = .wheel w ∨ e.target = .allWheels) ∧
      e.source ≠ .payload ∧ e.source ≠ .linkLow ∧ e.factor = l.dBoth w) := by
  obtain ⟨h1, h2, h3⟩ := leastFactor_spec l fun d =>
    d.source.both && (d.target == .wheel w || d.target == .allWheels)
  refine ⟨h1, fun e he ht hp hl => h2 e he ?_, h3.imp_right fun ⟨e, he, ht, hf⟩ => ?_⟩
  · rw [Bool.and_eq_true]
    exact ⟨(both_iff _).2 ⟨hp, hl⟩, (wheelTarget_iff _).2 ht⟩
  · rw [Bool.and_eq_true] at ht
    obtain ⟨hp, hl⟩ := (both_iff _).1 ht.1
    exact ⟨e, he, (wheelTarget_iff _).1 ht.2, hp, hl, hf⟩

/-! ### The terms by substate (R85 to R90) -/

theorem terms_propel (h : s.dmc.substate = .propel) (w : Wheel) (share : Nat) :
    s.terms w share = propelTerms s w share := by
  unfold State.terms
  rw [h]

theorem terms_retard (h : s.dmc.substate = .retard) (w : Wheel) (share : Nat) :
    s.terms w share = retardTerms s w share := by
  unfold State.terms
  rw [h]

theorem terms_rest (h : s.dmc.substate ≠ .propel) (h' : s.dmc.substate ≠ .retard) (w : Wheel)
    (share : Nat) : s.terms w share = restTerms := by
  unfold State.terms
  cases hs : s.dmc.substate <;> first | rfl | exact absurd hs h | exact absurd hs h'

/-- A quotient rounded by mode, as the statements write it. -/
theorem divNat_eq (c : Params) (a b : Nat) :
    divNat c.nearest a b = if c.rounding = 1 then (2 * a + b) / (2 * b) else a / b := by
  unfold divNat Params.nearest
  simp

/-- The sign of the adopted direction. -/
theorem adopted_sign (d : Direction) (m : Nat) :
    (if d = .reverse then -(m : Int) else m) = (if d = .reverse then -1 else 1) * (m : Int) := by
  split <;> simp

/-- Settles O40: the terms are the spec's formulas in each substate. -/
theorem allocationTerms : Obligations.AllocationTerms := by
  intro s w n cap nEff speed d hround hspeed hnEff hcap
  have hd : ∀ a b, divNat s.cfg.nearest a b = d a b := fun a b => by rw [hround]; exact divNat_eq _ a b
  have hc : s.wheelCap w = cap := hcap.symm
  have hv : s.wheelSpeed w = speed := hspeed.symm
  have he : effSpeed s.cfg speed = nEff := hnEff.symm
  refine ⟨dProp_spec s.lmu w, dBoth_spec s.lmu w, fun h => ?_, fun h => ?_, fun h share => ?_,
    fun h share => ?_, fun h share => ?_⟩
  · unfold State.shareOf
    rw [h]
    rfl
  · unfold State.shareOf
    rw [h]
  · simp only [terms_propel h, propelTerms, powerTorque, propelRequest, lowered, hd, hc, hv, he]
    exact ⟨rfl, trivial, trivial, adopted_sign _ _⟩
  · simp only [terms_retard h, retardTerms, powerTorque, lowered, hd, hc, hv, he]
    refine ⟨rfl, ?_, trivial, ?_⟩
    · cases s.tcu.vRef with
      | none => simp only [retardRequest, lowered, hd]
      | some v => simp only [retardRequest, lowered, hd]
    · simp only [withSign, Int.sign_neg]
  · rw [terms_rest (s := s) (by rcases h with h | h <;> rw [h] <;> simp)
      (by rcases h with h | h <;> rw [h] <;> simp) w share]
    exact ⟨rfl, rfl⟩

/-! ### Command slots at rest stay at rest while the fault table is delivered -/

/-- A command slot that holds torque 0 in one state does so in the other. -/
def SlotsRest (a b : State) : Prop :=
  ∀ w, (a.wlc.wheels.get w).slotValue = 0 → (b.wlc.wheels.get w).slotValue = 0

variable {a : State}

theorem SlotsRest.refl (a : State) : SlotsRest a a := fun _ h => h

theorem SlotsRest.of_wheels (h : SlotsRest a s) (e : t.wlc.wheels = s.wlc.wheels) : SlotsRest a t :=
  fun w k => by rw [e]; exact h w k

theorem setWlc_rest (h : SlotsRest a s) {v : Wlc} (hv : v.wheels = s.wlc.wheels) :
    SlotsRest a (s.setWlc v) := h.of_wheels hv

theorem setCfl_rest (h : SlotsRest a s) (v : Cfl) : SlotsRest a (s.setCfl v) := h.of_wheels rfl

theorem setSlot_rest (h : SlotsRest a s) (w : Wheel) : SlotsRest a (setSlot w 0 s) := fun v k => by
  show ((s.wlc.wheels.set w _).get v).slotValue = 0
  rw [PerWheel_get_set]
  split
  · rfl
  · exact h v k

theorem setUnit_rest (h : SlotsRest a s) {u : UnitId} {r : UnitRec}
    (hr : r.slotValue = (s.wlc.unit u).slotValue) : SlotsRest a (s.setWlc (s.wlc.setUnit u r)) :=
  fun v k => by
    have hv := Wlc.unit_setUnit s.wlc u (.wheel v) r
    show ((s.wlc.setUnit u r).unit (.wheel v)).slotValue = 0
    rw [hv]
    split
    case isTrue e => subst e; exact hr.trans (h v k)
    case isFalse => exact h v k

theorem changeUnit_rest (h : SlotsRest a s) {u : UnitId} {r : UnitRec}
    (hr : r.slotValue = (s.wlc.unit u).slotValue) : SlotsRest a (changeUnit u r s) := by
  simp only [changeUnit]
  split
  · exact (setUnit_rest h hr).of_wheels (by simp)
  · exact setUnit_rest h hr

theorem takeConfigured_rest (h : SlotsRest a s) (u : UnitId) : SlotsRest a (takeConfigured u s) := by
  simp only [takeConfigured]
  split
  · exact changeUnit_rest h rfl
  · split
    · have k := changeUnit_rest (u := u) (r := { (s.wlc.unit u).absent with configured := false }) h rfl
      exact k.of_wheels (by simp)
    · exact h

theorem beginRollCall_rest (h : SlotsRest a s) : SlotsRest a (beginRollCall s) := by
  simp only [beginRollCall, forUnits, forWheels]
  refine setWlc_rest ?_ ?_
  · exact takeConfigured_rest (takeConfigured_rest (takeConfigured_rest (takeConfigured_rest
      (takeConfigured_rest h _) _) _) _) _
  · rfl

theorem takeRollCall_rest (h : SlotsRest a s) : SlotsRest a (takeRollCall s) := by
  simp only [takeRollCall]
  split
  · exact beginRollCall_rest h
  · exact h

theorem abortRollCall_rest (h : SlotsRest a s) : SlotsRest a (abortRollCall s) := by
  unfold abortRollCall
  cases s.wlc.order with
  | none => exact h
  | some o => exact h.of_wheels (by simp [endOrder])

theorem startRollCall_rest (h : SlotsRest a s) : SlotsRest a (startRollCall s) := by
  simp only [startRollCall]
  apply takeRollCall_rest
  refine setWlc_rest (abortRollCall_rest h) ?_
  rfl

theorem endRound_rest (h : SlotsRest a s) : SlotsRest a (endRound s) := by
  simp only [endRound]
  split
  · exact setWlc_rest h rfl
  · exact h

theorem wlcModeChange_rest (h : SlotsRest a s) : SlotsRest a (wlcModeChange s) := by
  simp only [wlcModeChange]
  split
  · exact endRound_rest (abortRollCall_rest (setWlc_rest h rfl))
  · exact h

theorem changeMode_rest (h : SlotsRest a s) (m : Mode) (f : Dmc → Dmc) :
    SlotsRest a (changeMode m f s) := by
  simp only [changeMode, runAll]
  refine wlcModeChange_rest (h.of_wheels ?_)
  split <;> simp

theorem requestQuiet_rest (h : SlotsRest a s) : SlotsRest a (requestQuiet s) := by
  simp only [requestQuiet, forWheels]
  refine setWlc_rest ?_ ?_
  · exact setSlot_rest (setSlot_rest (setSlot_rest (setSlot_rest h _) _) _) _
  · rfl

theorem enterTripped_rest (h : SlotsRest a s) : SlotsRest a (enterTripped s) :=
  requestQuiet_rest (changeMode_rest h _ _)

theorem enterSafeStop_rest (h : SlotsRest a s) : SlotsRest a (enterSafeStop s) := by
  have k := changeMode_rest h .safeStop fun d => { d with pendingDir := none, stopTime := 0 }
  exact k.of_wheels (by simp [enterSafeStop])

theorem standbyToStarting_rest (h : SlotsRest a s) : SlotsRest a (standbyToStarting s) := by
  have k := changeMode_rest h .starting fun d => d.atRest
  simp only [standbyToStarting, enterEnroll]
  exact startRollCall_rest (setCfl_rest k _)

theorem severityChange_rest (h : SlotsRest a s) : SlotsRest a (severityChange s) := by
  unfold severityChange
  split
  · exact enterSafeStop_rest h
  · exact enterSafeStop_rest h
  · exact enterTripped_rest h
  · exact enterTripped_rest h
  · exact enterTripped_rest h
  · split
    · exact enterTripped_rest h
    · exact standbyToStarting_rest h
  · exact h

theorem announceSummary_rest (h : SlotsRest a s) : SlotsRest a (announceSummary s) := by
  unfold announceSummary
  cases s.pru.summary with
  | trip => exact (requestQuiet_rest h).of_wheels (by simp)
  | safeStop => exact h.of_wheels (by simp)
  | _ => exact h

theorem deliver_rest (h : SlotsRest a s) : SlotsRest a (deliver s) := by
  simp only [deliver]
  split
  · split
    · exact h
    · exact severityChange_rest (announceSummary_rest (h.of_wheels (by simp)))
  · exact h.of_wheels (by simp)

/-- A delivery of the fault table leaves every slot at rest. -/
theorem settle_rest (s : State) : SlotsRest s (settle s) := by
  have key : ∀ n (t : State), SlotsRest s t → SlotsRest s (settleBy n t) := by
    intro n
    induction n with
    | zero => exact fun _ h => h
    | succ n ih =>
      intro t h
      simp only [settleBy]
      split
      · exact h
      · exact ih _ (deliver_rest h)
  exact key 16 s (.refl s)

end
end Sys2Proof.Machine
end

section
/-! The allocation event as a whole: the modes without torque (O42), the peak credit (O43) and the
computation (O41). -/

namespace Sys2Proof.Machine

section
variable {s t : State} {w : Wheel}

/-! ### What a credit update makes of a wheel's record (R97, R98) -/

/-- A wheel's record after its credit update. -/
def TqaWheel.credited (c : Params) (period : Nat) (x : TqaWheel) : TqaWheel :=
  { x with credit := nextCredit c period x.credit x.reference.natAbs }.movePeak c

/-- The peak state moves, and nothing else of the record. -/
theorem movePeak_eq (c : Params) (x : TqaWheel) : x.movePeak c =
    { x with spent := (x.movePeak c).spent, spentByUse := (x.movePeak c).spentByUse } := by
  unfold TqaWheel.movePeak
  split
  · rfl
  · split
    · split <;> rfl
    · split <;> rfl

theorem credited_eq (c : Params) (period : Nat) (x : TqaWheel) : x.credited c period =
    { x with
      credit := nextCredit c period x.credit x.reference.natAbs
      spent := (x.credited c period).spent, spentByUse := (x.credited c period).spentByUse } :=
  movePeak_eq c _

/-- What a credit update leaves of a wheel's record. -/
theorem credited_rest (c : Params) (period : Nat) (x : TqaWheel) :
    (x.credited c period).reference = x.reference ∧ (x.credited c period).target = x.target ∧
    (x.credited c period).request = x.request ∧ (x.credited c period).binding = x.binding ∧
    (x.credited c period).flags = x.flags ∧
    (x.credited c period).credit = nextCredit c period x.credit x.reference.natAbs := by
  rw [credited_eq]
  exact ⟨rfl, rfl, rfl, rfl, rfl, rfl⟩

/-- The records after the credit updates of an event. -/
def State.creditedWheels (s : State) : PerWheel TqaWheel := PerWheel.ofFn fun w =>
  if s.cfl.guardOn = true ∧ s.cfg.wheel w = true then
    (s.tqa.wheels.get w).credited s.cfg s.tqa.period
  else s.tqa.wheels.get w

theorem PerWheel.set_get {α : Type} (p : PerWheel α) (w : Wheel) : p.set w (p.get w) = p := by
  cases w <;> rfl

theorem PerWheel.ext_get {α : Type} {p q : PerWheel α} (h : ∀ w, p.get w = q.get w) : p = q := by
  cases p; cases q
  have h1 := h .w1; have h2 := h .w2; have h3 := h .w3; have h4 := h .w4
  simp only [PerWheel.get] at h1 h2 h3 h4
  rw [h1, h2, h3, h4]

theorem updateCredit_eq (w : Wheel) (s : State) : updateCredit w s = if s.cfg.wheel w = true then
    noteChange .peakSpent (.wheel w) (s.tqa.wheels.get w).peakCond
      ((s.tqa.wheels.get w).credited s.cfg s.tqa.period).peakCond
      (s.setTqa { s.tqa with
        wheels := s.tqa.wheels.set w ((s.tqa.wheels.get w).credited s.cfg s.tqa.period) }) else s := rfl

theorem updateCredit_tqa (w : Wheel) (s : State) : (updateCredit w s).tqa = { s.tqa with
    wheels := s.tqa.wheels.set w (if s.cfg.wheel w = true then
      (s.tqa.wheels.get w).credited s.cfg s.tqa.period else s.tqa.wheels.get w) } := by
  unfold updateCredit
  split
  · simp only [noteChange_frame]
    rfl
  · rw [PerWheel.set_get]

theorem updateCredits_tqa (s : State) :
    (updateCredits s).tqa = { s.tqa with wheels := s.creditedWheels } := by
  unfold updateCredits State.creditedWheels
  split
  case isTrue h =>
    simp only [forWheels, updateCredit_tqa, updateCredit_frame, State.cfg, h, true_and, PerWheel_get_set]
    rfl
  case isFalse h =>
    simp only [h, Bool.false_eq_true, false_and, if_false]
    cases s.tqa
    rfl

/-! ### The steps of the event (R78) -/

/-- The state of an allocation event with its references posted. -/
def State.allocated (s : State) : State :=
  postRetard (writeSlots (if s.dmc.mode.working then allocate (takeAllocPeriod s)
    else skipAllocation (takeAllocPeriod s)))

theorem allocationSteps_eq (s : State) : allocationSteps s =
    putTqaSection (forWheels putAllocator (updateCredits s.allocated)) := rfl

theorem exec_allocationEvent (h : s.isRunning = true) :
    exec .allocationEvent s = .next (settle (allocationSteps s)) :=
  whenRunning_of_running h fun s => settle (allocationSteps s)

/-- What the event's first steps leave of the other blocks. -/
theorem allocated_frame (s : State) : s.allocated.cfl = s.cfl ∧ s.allocated.dmc = s.dmc ∧
    s.allocated.tcu = s.tcu ∧ s.allocated.pru = s.pru ∧ s.allocated.clock = s.clock ∧
    s.allocated.xm = s.xm := by
  unfold State.allocated
  split <;> simp [postRetard, postDemand]

theorem settled_tqa (s : State) : (settle (allocationSteps s)).tqa =
    { s.allocated.tqa with wheels := s.allocated.creditedWheels } := by
  have h := updateCredits_tqa s.allocated
  simpa [allocationSteps_eq, forWheels] using h

theorem settled_demand (s : State) : (settle (allocationSteps s)).rgc.demand = s.allocated.rgc.demand ∧
    (settle (allocationSteps s)).rgc.demandNew = s.allocated.rgc.demandNew := by
  have h : (settle (allocationSteps s)).rgc.law = (allocationSteps s).rgc.law :=
    (settle_steady (Steady.refl true _)).rgc rfl
  have hr : (allocationSteps s).rgc = s.allocated.rgc := by simp [allocationSteps_eq, forWheels]
  have hd := congrArg Rgc.demand h
  have hn := congrArg Rgc.demandNew h
  simp only [Rgc.law, hr] at hd hn
  exact ⟨hd, hn⟩

/-- The slots after the event's first steps are the references. -/
theorem writeSlots_slot (s : State) (w : Wheel) : (writeSlots s).wlc.wheels.get w =
    { s.wlc.wheels.get w with slotValue := (s.tqa.wheels.get w).reference } := by
  cases w <;> rfl

/-! ### The modes without torque (R78) -/

/-- The reference of a rest record is 0, and so is the retarding power over such references. -/
theorem retardTotal_of_rest (h : ∀ w, (s.tqa.wheels.get w).reference = 0) : s.retardTotal = 0 := by
  simp [State.retardTotal, retardPower, allWheels, h]

theorem skip_wheel (s : State) (w : Wheel) : (skipAllocation s).tqa.wheels.get w =
    (s.tqa.wheels.get w).rest := PerWheel_get_ofFn _ w

/-- Settles O42: the records are at rest, and the credit update leaves them so. -/
theorem allocationSkipped : Obligations.AllocationSkipped := by
  intro s hs hmode
  have hw : s.dmc.mode.working = false := by rcases hmode with h | h | h <;> rw [h] <;> rfl
  have ha : s.allocated = postRetard (writeSlots (skipAllocation (takeAllocPeriod s))) := by
    unfold State.allocated
    rw [hw]
    rfl
  have hrest : ∀ w, (s.allocated.tqa.wheels.get w) = (s.tqa.wheels.get w).rest := fun w => by
    rw [ha]
    exact skip_wheel _ w
  have htotal : (writeSlots (skipAllocation (takeAllocPeriod s))).retardTotal = 0 :=
    retardTotal_of_rest fun w => congrArg TqaWheel.reference (skip_wheel (takeAllocPeriod s) w)
  have hslot : ∀ w, ((allocationSteps s).wlc.wheels.get w).slotValue = 0 := fun w => by
    have : (allocationSteps s).wlc = s.allocated.wlc := by simp [allocationSteps_eq, forWheels]
    rw [this, ha]
    show ((writeSlots _).wlc.wheels.get w).slotValue = 0
    rw [writeSlots_slot, skip_wheel]
    rfl
  refine ⟨_, exec_allocationEvent hs, ?_⟩
  rw [settled_tqa, (settled_demand s).1, (settled_demand s).2]
  refine ⟨by rw [ha]; rfl, by rw [ha]; rfl, by rw [ha]; rfl, by rw [ha]; rfl,
    by rw [ha]; exact htotal, by rw [ha]; exact htotal, by rw [ha]; rfl, by rw [ha]; rfl,
    by rw [ha]; rfl, by rw [ha]; rfl, fun w => ?_⟩
  have hwheel : ∀ x, x = s.allocated.creditedWheels.get w → x.reference = 0 ∧ x.target = 0 ∧
      x.request = 0 ∧ x.binding = .none ∧ x.flags.zero = true ∧ x.flags.inactive = true := by
    intro x hx
    rw [State.creditedWheels, PerWheel_get_ofFn, hrest] at hx
    split at hx
    · rw [credited_eq] at hx
      subst hx
      exact ⟨rfl, rfl, rfl, rfl, rfl, rfl⟩
    · subst hx
      exact ⟨rfl, rfl, rfl, rfl, rfl, rfl⟩
  obtain ⟨h1, h2, h3, h4, h5, h6⟩ := hwheel _ rfl
  exact ⟨h1, h2, h3, h4, h5, h6, settle_rest _ w (hslot w)⟩

/-! ### The peak credit (R97, R98) -/

/-- The credit as R97 gives it, limited to 0 to K_max. -/
theorem nextCredit_eq (c : Params) (period credit magnitude : Nat) :
    nextCredit c period credit magnitude = min ((c.tPeak - c.tCont) * c.peakTime)
      ((credit : Int) + (if c.tCont < magnitude then -(((magnitude - c.tCont) * period : Nat) : Int)
        else (divNat c.nearest ((c.tCont - magnitude) * period * c.recovery) 1000 : Nat))).toNat := by
  unfold nextCredit Params.maxCredit
  split
  · congr 1
    omega
  · congr 1

/-- The peak state after the update (R98). -/
theorem credited_peak (c : Params) (period : Nat) (x y : TqaWheel) (h : y = x.credited c period)
    (limit : Nat) (hl : limit = (c.tPeak - c.tCont) * c.peakTime) :
    (limit = 0 → y.spent = true ∧ y.spentByUse = false) ∧
    (0 < limit → x.spent = true → y.spent = decide (y.credit < divNat c.nearest limit 4) ∧
      y.spentByUse = (y.spent && x.spentByUse)) ∧
    (0 < limit → x.spent = false → y.spent = decide (y.credit = 0) ∧
      y.spentByUse = (y.spent || x.spentByUse)) := by
  have hk : c.maxCredit = limit := hl.symm
  have hc : y.credit = nextCredit c period x.credit x.reference.natAbs := by rw [h, credited_eq]
  rw [hc]
  subst h
  unfold TqaWheel.credited TqaWheel.movePeak
  rw [hk]
  refine ⟨fun h0 => ?_, fun h0 hx => ?_, fun h0 hx => ?_⟩
  · rw [if_pos h0]
    exact ⟨rfl, rfl⟩
  · rw [if_neg (Nat.ne_of_gt h0)]
    simp only [hx, if_true]
    by_cases hd : divNat c.nearest limit 4 ≤ nextCredit c period x.credit x.reference.natAbs
    · rw [if_pos hd]
      simp [hd]
    · rw [if_neg hd]
      simp [Nat.lt_of_not_le hd]
  · rw [if_neg (Nat.ne_of_gt h0)]
    simp only [hx, Bool.false_eq_true, if_false]
    by_cases hd : nextCredit c period x.credit x.reference.natAbs = 0
    · rw [if_pos hd]
      simp [hd]
    · rw [if_neg hd]
      simp [hd]

/-- A change of the PEAK_SPENT condition stands in the table. -/
theorem updateCredits_observed (hok : s.pru.ok) (hg : s.cfl.guardOn = true) (hc : s.cfg.wheel w = true)
    {x : TqaWheel} (hx : x = (s.tqa.wheels.get w).credited s.cfg s.tqa.period)
    (h : x.peakCond ≠ (s.tqa.wheels.get w).peakCond) :
    (updateCredits s).pru.observed .peakSpent (.wheel w) x.peakCond := by
  unfold updateCredits
  rw [if_pos hg]
  refine forWheels_reaches (f := updateCredit)
    (B := fun u => u.pru.observed .peakSpent (.wheel w) x.peakCond) (A := fun u => u.pru.ok ∧ u.cfl = s.cfl ∧
    u.tqa.wheels.get w = s.tqa.wheels.get w ∧ u.tqa.period = s.tqa.period) w ?_ ?_ ?_ ⟨hok, rfl, rfl, rfl⟩
  · rintro v hv u ⟨hu, hcfl, hwheel, hperiod⟩
    have hget : ((updateCredit v u).tqa.wheels.get w) = u.tqa.wheels.get w := by
      rw [updateCredit_tqa]
      show (u.tqa.wheels.set v _).get w = _
      rw [PerWheel_get_set, if_neg (Ne.symm hv)]
    exact ⟨(updateCredit_keeps (Keeps.refl true u) v).pru hu, by simp [hcfl], hget.trans hwheel,
      by rw [updateCredit_tqa]; exact hperiod⟩
  · rintro u ⟨hu, hcfl, hwheel, hperiod⟩
    have hcfg : u.cfg = s.cfg := congrArg Cfl.active hcfl
    rw [updateCredit_eq, hcfg, if_pos hc, hwheel, hperiod, ← hx]
    refine noteChange_observed ?_ .peakSpent (.wheel w) h
    exact hu
  · intro v hv u hu
    rw [updateCredit_eq]
    split
    · refine noteChange_observed_other (by simpa using Ne.symm hv) ?_
      exact hu
    · exact hu

/-- The records before the credit updates keep their credit and peak state. -/
theorem allocated_peak (s : State) (w : Wheel) :
    (s.allocated.tqa.wheels.get w).credit = (s.tqa.wheels.get w).credit ∧
    (s.allocated.tqa.wheels.get w).spent = (s.tqa.wheels.get w).spent ∧
    (s.allocated.tqa.wheels.get w).spentByUse = (s.tqa.wheels.get w).spentByUse ∧
    s.allocated.tqa.period = s.cfg.allocPeriod := by
  have hget := fun u : State => (PerWheel_get_ofFn (fun w => if u.active w then
    (u.tqa.wheels.get w).compute u.cfg (u.wheelSpeed w) (u.wheelCap w)
      (u.terms w (u.shareOf u.activeCount)) else (u.tqa.wheels.get w).rest) w)
  unfold State.allocated
  split
  · refine ⟨(congrArg TqaWheel.credit (hget (takeAllocPeriod s))).trans ?_,
      (congrArg TqaWheel.spent (hget (takeAllocPeriod s))).trans ?_,
      (congrArg TqaWheel.spentByUse (hget (takeAllocPeriod s))).trans ?_, rfl⟩ <;> split <;> rfl
  · exact ⟨(congrArg TqaWheel.credit (skip_wheel (takeAllocPeriod s) w)).trans rfl,
      (congrArg TqaWheel.spent (skip_wheel (takeAllocPeriod s) w)).trans rfl,
      (congrArg TqaWheel.spentByUse (skip_wheel (takeAllocPeriod s) w)).trans rfl, rfl⟩

/-- Settles O43: the credit update of each configured wheel, over the records that the event left. -/
theorem peakCreditMoves : Obligations.PeakCreditMoves := by
  intro s hs hok
  refine ⟨_, exec_allocationEvent hs, fun w limit ms mag credit hlimit hms hmag hcredit => ?_⟩
  obtain ⟨hcfl, -, -, hpru, -, -⟩ := allocated_frame s
  have hcfg : s.allocated.cfg = s.cfg := congrArg Cfl.active hcfl
  obtain ⟨hcr, hsp, hbu, hper⟩ := allocated_peak s w
  have hget : (settle (allocationSteps s)).tqa.wheels.get w = if s.cfl.guardOn = true ∧
      s.cfg.wheel w = true then (s.allocated.tqa.wheels.get w).credited s.cfg s.cfg.allocPeriod
      else s.allocated.tqa.wheels.get w := by
    rw [settled_tqa]
    show s.allocated.creditedWheels.get w = _
    rw [State.creditedWheels, PerWheel_get_ofFn, hcfl, hcfg, hper]
  have hcond : (s.allocated.tqa.wheels.get w).peakCond = (s.tqa.wheels.get w).peakCond := by
    unfold TqaWheel.peakCond
    rw [hsp, hbu]
  rw [hget] at hmag ⊢
  refine ⟨fun h => ?_, fun h => ?_⟩
  · rw [if_pos h] at hmag ⊢
    have hp := credited_peak s.cfg s.cfg.allocPeriod (s.allocated.tqa.wheels.get w) _ rfl limit hlimit
    rw [hsp, hbu] at hp
    have hm : mag = (s.allocated.tqa.wheels.get w).reference.natAbs := by rw [hmag, credited_eq]
    refine ⟨?_, hp.1, hp.2.1, hp.2.2, fun hne => settle_observed rfl ?_⟩
    · rw [credited_eq]
      show nextCredit s.cfg s.cfg.allocPeriod (s.allocated.tqa.wheels.get w).credit _ = _
      rw [nextCredit_eq, ← hm, hcr, ← hms, ← hlimit, hcredit]
    · have := updateCredits_observed (s := s.allocated) (w := w) (by rw [hpru]; exact hok)
        (by rw [hcfl]; exact h.1) (by rw [hcfg]; exact h.2) rfl
        (by rw [hcfg, hper, hcond]; exact hne)
      rw [hcfg, hper] at this
      simpa [allocationSteps_eq, forWheels] using this
  · rw [if_neg h]
    exact ⟨hcr, hsp, hbu⟩

end
end Sys2Proof.Machine
end

section
/-! SUPPORT. Sections of status blocks: what one write shows there, and what it leaves of the others (R43,
R44). -/

namespace Sys2Proof.Machine

section
variable {s t : State} {a b : Option Nat} {offset other : Nat} {ws vs : List Word}

theorem put_keeps_showsAt {x y : Nat} (h : s.showsAt y vs)
    (hxy : y + 2 * vs.length ≤ x ∨ x + 2 * ws.length ≤ y) : (put x ws s).showsAt y vs :=
  h.congr fun z h1 h2 => put_byte_outside (by omega)

theorem putBlock_showsIn : (putBlock b offset ws s).showsIn b offset ws := by
  intro base hb
  obtain rfl := Option.mem_def.1 hb
  exact put_showsAt

/-- A section of a block far enough from the written one goes on being shown. -/
theorem putBlock_keeps_apart (h : s.showsIn b other vs) (hab : blocksApart a b)
    (hw : offset + 2 * ws.length ≤ 256) (hv : other + 2 * vs.length ≤ 256) :
    (putBlock a offset ws s).showsIn b other vs := by
  intro base hb
  cases a with
  | none => exact h base hb
  | some x =>
    have hx := hab x rfl base hb
    exact put_keeps_showsAt (h base hb) (by omega)

/-- What stands below the status blocks goes on being shown. -/
theorem putBlock_keeps_below {y : Nat} (h : s.showsAt y vs) (ha : blockOk a)
    (hy : y + 2 * vs.length ≤ 0x2100) : (putBlock a offset ws s).showsAt y vs := by
  cases a with
  | none => exact h
  | some x =>
    have hx : 0x2100 ≤ x := ha x rfl
    exact put_keeps_showsAt h (by omega)

/-- A write below the status blocks leaves them as they are. -/
theorem put_keeps_showsIn {x : Nat} (h : s.showsIn b other vs) (hb : blockOk b)
    (hx : x + 2 * ws.length ≤ 0x2100) : (put x ws s).showsIn b other vs := by
  intro base hbase
  have : 0x2100 ≤ base := hb base hbase
  exact put_keeps_showsAt (h base hbase) (by omega)

/-- What is shown is shown in every state with the same memory. -/
theorem State.showsAt.of_xm {y : Nat} (h : s.showsAt y vs) (hxm : t.xm = s.xm) : t.showsAt y vs :=
  h.congr fun _ _ _ => by rw [hxm]

theorem State.showsIn.of_xm (h : s.showsIn b other vs) (hxm : t.xm = s.xm) : t.showsIn b other vs :=
  fun base hb => (h base hb).of_xm hxm

/-! ### One section for each configured wheel or bank -/

theorem mem_wheels_region {c : Params} {f : Wheel → List (Nat × Nat)} {w : Wheel} (hw : c.wheel w = true)
    {r : Nat × Nat} (hr : r ∈ f w) : r ∈ c.wheels.flatMap f := by
  refine List.mem_flatMap.2 ⟨w, ?_, hr⟩
  unfold Params.wheels
  exact List.mem_filter.2 ⟨by cases w <;> decide, hw⟩

theorem mem_banks_region {c : Params} {f : Bank → List (Nat × Nat)} {b : Bank} (hb : c.bank b = true)
    {r : Nat × Nat} (hr : r ∈ f b) : r ∈ c.banks.flatMap f := by
  refine List.mem_flatMap.2 ⟨b, ?_, hr⟩
  unfold Params.banks
  exact List.mem_filter.2 ⟨by cases b <;> decide, hb⟩

/-- A chain of writes, one for each wheel, within the regions of the configured ones. -/
theorem forWheels_same {f : Wheel → State → State} {region : Wheel → List (Nat × Nat)} {s : State}
    {P : State → Prop} (hP : ∀ w u, P u → P (f w u)) (h0 : P s)
    (hf : ∀ w u, P u → SameOutside (region w) u (f w u)) {all : List (Nat × Nat)}
    (hall : ∀ w, ∀ r ∈ region w, r ∈ all) : SameOutside all s (forWheels f s) := by
  have h1 := hP .w1 _ h0; have h2 := hP .w2 _ h1; have h3 := hP .w3 _ h2
  exact ((((hf .w1 _ h0).mono (hall _)).trans ((hf .w2 _ h1).mono (hall _))).trans
    ((hf .w3 _ h2).mono (hall _))).trans ((hf .w4 _ h3).mono (hall _))

theorem forBanks_same {f : Bank → State → State} {region : Bank → List (Nat × Nat)} {s : State}
    {P : State → Prop} (hP : ∀ b u, P u → P (f b u)) (h0 : P s)
    (hf : ∀ b u, P u → SameOutside (region b) u (f b u)) {all : List (Nat × Nat)}
    (hall : ∀ b, ∀ r ∈ region b, r ∈ all) : SameOutside all s (forBanks f s) := by
  have h1 := hP .b1 _ h0; have h2 := hP .b2 _ h1; have h3 := hP .b3 _ h2; have h4 := hP .b4 _ h3
  have h5 := hP .b5 _ h4
  exact ((((((hf .b1 _ h0).mono (hall _)).trans ((hf .b2 _ h1).mono (hall _))).trans
    ((hf .b3 _ h2).mono (hall _))).trans ((hf .b4 _ h3).mono (hall _))).trans
    ((hf .b5 _ h4).mono (hall _))).trans ((hf .b6 _ h5).mono (hall _))

end
end Sys2Proof.Machine
end

section
/-! The computation of an allocation event in READY, DRIVE and SAFE_STOP (O41). -/

namespace Sys2Proof.Machine

section
variable {s t : State} {w : Wheel}

/-! ### The rate limit and the clamp (R91, R92) -/

theorem withSign_natAbs {sign : Int} (h : sign ≠ 0) (m : Nat) : (withSign sign m).natAbs = m := by
  unfold withSign
  rcases Int.lt_or_gt_of_ne h with h | h
  · rw [Int.sign_eq_neg_one_of_neg h]
    omega
  · rw [Int.sign_eq_one_of_pos h]
    omega

theorem withSign_mul_nonneg (sign : Int) (m : Nat) : 0 ≤ withSign sign m * sign := by
  unfold withSign
  rw [mul_comm, ← mul_assoc, Int.mul_sign_self]
  positivity

theorem withSign_self (i : Int) : withSign i i.natAbs = i := Int.sign_mul_natAbs i

/-- One event of the rate limit, by the signs and magnitudes of the two. -/
theorem rateLimited_spec (c : Params) (prev target limited : Int) (h : limited = rateLimited c prev target) :
    (prev * target < 0 → limited.natAbs = prev.natAbs - c.rDown ∧ 0 ≤ limited * prev) ∧
    (0 ≤ prev * target → prev.natAbs < target.natAbs →
      limited.natAbs = min target.natAbs (prev.natAbs + c.rUp) ∧ 0 ≤ limited * target) ∧
    (0 ≤ prev * target → target.natAbs < prev.natAbs →
      limited.natAbs = max target.natAbs (prev.natAbs - c.rDown) ∧ 0 ≤ limited * prev) ∧
    (target = prev → limited = prev) := by
  subst h
  unfold rateLimited
  refine ⟨fun h => ?_, fun h hlt => ?_, fun h hlt => ?_, fun h => ?_⟩
  · have hp : prev ≠ 0 := by
      rintro rfl
      simp at h
    rw [if_pos h]
    dsimp only
    rw [if_neg (by simp)]
    exact ⟨(withSign_natAbs hp _).trans (by simp), withSign_mul_nonneg _ _⟩
  · simp only [if_neg (Int.not_lt.2 h)]
    rw [if_pos hlt]
    exact ⟨withSign_natAbs (by omega) _, withSign_mul_nonneg _ _⟩
  · simp only [if_neg (Int.not_lt.2 h)]
    rw [if_neg (by omega)]
    exact ⟨withSign_natAbs (by omega) _, withSign_mul_nonneg _ _⟩
  · subst h
    have hn : ¬ target * target < 0 := not_lt.2 (mul_self_nonneg target)
    rw [if_neg hn]
    dsimp only
    rw [if_neg (Nat.lt_irrefl _), Nat.max_eq_left (Nat.sub_le _ _), withSign_self]

theorem clamped_of_le {cap : Nat} {i : Int} (h : i.natAbs ≤ cap) : clamped cap i = i := by
  unfold clamped limitAbs
  omega

theorem clamped_of_lt {cap : Nat} {i : Int} (h : cap < i.natAbs) :
    (clamped cap i).natAbs = cap ∧ 0 ≤ clamped cap i * i := by
  unfold clamped limitAbs
  rcases le_total 0 i with hi | hi
  · have : max (-(cap : Int)) (min (cap : Int) i) = cap := by omega
    rw [this]
    exact ⟨by omega, mul_nonneg (by omega) hi⟩
  · have : max (-(cap : Int)) (min (cap : Int) i) = -cap := by omega
    rw [this]
    exact ⟨by omega, mul_nonneg_of_nonpos_of_nonpos (by omega) hi⟩

theorem clamped_ne_iff {cap : Nat} {i : Int} : clamped cap i ≠ i ↔ cap < i.natAbs := by
  constructor
  · intro h
    by_contra hc
    exact h (clamped_of_le (by omega))
  · intro h hc
    have := (clamped_of_lt h).1
    rw [hc] at this
    omega

/-! ### The binding limit (R93) -/

/-- RATE and CLAMP override what is found. -/
theorem overrideBinding_eq (found : Binding) (target limited : Int) (cap : Nat) :
    overrideBinding found target limited (clamped cap limited) =
      if cap < limited.natAbs then .clamp else if limited ≠ target then .rate else found := by
  unfold overrideBinding
  simp only [clamped_ne_iff]

theorem tableBinding_eq (request tSlip cap tPow derate slip : Nat) :
    tableBinding request tSlip cap tPow derate slip =
      if request ≤ tSlip then .request
      else if 1000 ≤ derate ∧ 1000 ≤ slip then (if cap ≤ tPow then .capacity else .power)
      else if 1000 ≤ slip ∨ derate < 1000 ∧ derate ≤ slip then .derate else .slip := by
  unfold tableBinding
  split
  · rfl
  · split
    · rfl
    · by_cases hs : 1000 ≤ slip
      · rw [if_pos hs, if_pos (.inl hs)]
      · rw [if_neg hs]
        by_cases hd : 1000 ≤ derate
        · rw [if_pos hd, if_neg (by omega)]
        · rw [if_neg hd]
          by_cases hle : derate ≤ slip
          · rw [if_pos hle, if_pos (by omega)]
          · rw [if_neg hle, if_neg (by omega)]

/-- The limit found before it is overridden, by the substate. -/
theorem terms_found (s : State) (w : Wheel) (share : Nat) : (s.terms w share).found =
    if s.dmc.substate ≠ .propel ∧ s.dmc.substate ≠ .retard then .request
    else tableBinding (s.terms w share).request (s.terms w share).tSlip (s.wheelCap w)
      (s.terms w share).tPow (s.terms w share).derate (s.terms w share).slip := by
  by_cases hp : s.dmc.substate = .propel
  · rw [if_neg (by simp [hp]), terms_propel hp]
    rfl
  · by_cases hr : s.dmc.substate = .retard
    · rw [if_neg (by simp [hr]), terms_retard hr]
      rfl
    · rw [if_pos ⟨hp, hr⟩, terms_rest hp hr]
      rfl

/-- The factors, the bias and the fade of the terms, and whether they are those of RETARD. -/
theorem terms_factors (s : State) (w : Wheel) (share : Nat) :
    ((s.dmc.substate = .propel ∨ s.dmc.substate = .retard) →
      (s.terms w share).slip = (s.tcu.wheels.get w).factor ∧ (s.terms w share).derate =
        if s.dmc.substate = .propel then s.lmu.dProp w else s.lmu.dBoth w) ∧
    (s.terms w share).retarding = (s.dmc.substate == .retard) ∧
    (decide ((s.terms w share).bias ≠ 0) = true ↔ s.dmc.substate = .propel ∧
      outerSign s.stc.turn w * (s.stc.beta : Int) ≠ 0) ∧
    ((s.terms w share).faded = true ↔ s.dmc.substate = .retard ∧
      ∃ v, s.tcu.vRef = some v ∧ v < s.cfg.vFade) := by
  by_cases hp : s.dmc.substate = .propel
  · rw [terms_propel hp, hp]
    simp [propelTerms]
  · by_cases hr : s.dmc.substate = .retard
    · rw [terms_retard hr, hr]
      cases hv : s.tcu.vRef <;> simp [retardTerms, fades, hv]
    · rw [terms_rest hp hr]
      simp [restTerms, hp, hr]

/-! ### What the event leaves in a wheel's record -/

theorem allocated_working (h : s.dmc.mode.working = true) :
    s.allocated = postRetard (writeSlots (allocate (takeAllocPeriod s))) := by
  unfold State.allocated
  rw [if_pos h]

theorem allocated_wheel (h : s.dmc.mode.working = true) (w : Wheel) :
    s.allocated.tqa.wheels.get w = if s.active w = true then
      (s.tqa.wheels.get w).compute s.cfg (s.wheelSpeed w) (s.wheelCap w)
        (s.terms w (s.shareOf s.activeCount)) else (s.tqa.wheels.get w).rest := by
  rw [allocated_working h]
  exact PerWheel_get_ofFn _ w

/-- The credit updates leave the fields of a record that the allocation computes. -/
theorem settled_wheel (s : State) (w : Wheel) {x y : TqaWheel}
    (hx : x = (settle (allocationSteps s)).tqa.wheels.get w) (hy : y = s.allocated.tqa.wheels.get w) :
    x.reference = y.reference ∧ x.target = y.target ∧ x.request = y.request ∧
      x.binding = y.binding ∧ x.flags = y.flags := by
  rw [settled_tqa] at hx
  change x = s.allocated.creditedWheels.get w at hx
  rw [State.creditedWheels, PerWheel_get_ofFn, ← hy] at hx
  split at hx
  · obtain ⟨h1, h2, h3, h4, h5, -⟩ := credited_rest s.allocated.cfg s.allocated.tqa.period y
    rw [hx]
    exact ⟨h1, h2, h3, h4, h5⟩
  · rw [hx]
    exact ⟨rfl, rfl, rfl, rfl, rfl⟩

/-! ### The event where the table stays (R95, R101, R102) -/

/-- With no PEAK_SPENT condition changed the credit updates are the allocator's alone. -/
theorem updateCredit_silent {x : TqaWheel} (hx : x = s.tqa.wheels.get w)
    (h : s.cfg.wheel w = true → (x.credited s.cfg s.tqa.period).peakCond = x.peakCond) :
    ∃ v, updateCredit w s = s.setTqa v := by
  rw [updateCredit_eq]
  split
  case isTrue hc =>
    rw [← hx, h hc]
    unfold noteChange noteIf
    rw [bne_self_eq_false]
    exact ⟨_, rfl⟩
  case isFalse => exact ⟨s.tqa, rfl⟩

/-- The parts of the state that the credit updates must find as they were. -/
def SameRecord (w : Wheel) (s t : State) : Prop :=
  t.cfl = s.cfl ∧ t.tqa.period = s.tqa.period ∧ t.tqa.wheels.get w = s.tqa.wheels.get w

theorem updateCredit_record {v : Wheel} (h : v ≠ w) (s : State) : SameRecord w s (updateCredit v s) := by
  refine ⟨by simp, by rw [updateCredit_tqa], ?_⟩
  rw [updateCredit_tqa]
  show (s.tqa.wheels.set v _).get w = _
  rw [PerWheel_get_set, if_neg (Ne.symm h)]

theorem updateCredits_silent (h : ∀ w, (s.creditedWheels.get w).peakCond = (s.tqa.wheels.get w).peakCond) :
    updateCredits s = s.setTqa { s.tqa with wheels := s.creditedWheels } := by
  have key : ∃ v, updateCredits s = s.setTqa v := by
    unfold updateCredits
    split
    case isFalse => exact ⟨s.tqa, rfl⟩
    case isTrue hg =>
      have hcond : ∀ (w : Wheel) (u : State), SameRecord w s u → ∃ v, updateCredit w u = u.setTqa v := by
        rintro w u ⟨hcfl, hperiod, hwheel⟩
        have hcfg : u.cfg = s.cfg := congrArg Cfl.active hcfl
        refine updateCredit_silent rfl fun hc => ?_
        have := h w
        rw [State.creditedWheels, PerWheel_get_ofFn, if_pos ⟨hg, hcfg ▸ hc⟩] at this
        rw [hwheel, hcfg, hperiod]
        exact this
      have step : ∀ {v w : Wheel} {u : State}, v ≠ w → SameRecord w s u →
          SameRecord w s (updateCredit v u) := fun hv h =>
        have k := updateCredit_record hv _
        ⟨k.1.trans h.1, k.2.1.trans h.2.1, k.2.2.trans h.2.2⟩
      have r : ∀ w, SameRecord w s s := fun w => ⟨rfl, rfl, rfl⟩
      obtain ⟨v1, h1⟩ := hcond .w1 s (r _)
      obtain ⟨v2, h2⟩ := hcond .w2 (updateCredit .w1 s) (step nofun (r _))
      obtain ⟨v3, h3⟩ := hcond .w3 (updateCredit .w2 (updateCredit .w1 s)) (step nofun (step nofun (r _)))
      obtain ⟨v4, h4⟩ := hcond .w4 (updateCredit .w3 (updateCredit .w2 (updateCredit .w1 s)))
        (step nofun (step nofun (step nofun (r _))))
      refine ⟨v4, ?_⟩
      unfold forWheels
      rw [h4, h3, h2, h1]
      rfl
  obtain ⟨v, hv⟩ := key
  have := updateCredits_tqa s
  rw [hv] at this ⊢
  exact congrArg (fun v => s.setTqa v) this

theorem TqaWheel.words_length (x : TqaWheel) (clock : Long) : (x.words clock).length = 32 := by
  simp [TqaWheel.words, longWords, natLong]

theorem tqaWords_length (s : State) : s.tqaWords.length = 16 := by
  simp [State.tqaWords, longWords]

/-- The allocator sections and the TQA section show the allocator. -/
theorem putAllocators_shows (hp : s.wlc.placed) (ha : s.wlc.apart) (hw : s.cfg.wheel w = true) :
    (putTqaSection (forWheels putAllocator s)).showsIn (s.wlc.wheels.get w).block 0x40
      ((s.tqa.wheels.get w).words s.clock) := by
  refine put_keeps_showsIn (forWheels_reaches (f := putAllocator)
    (A := fun u => u.wlc = s.wlc ∧ u.cfl = s.cfl ∧ u.tqa = s.tqa ∧ u.clock = s.clock)
    (B := fun u => u.wlc = s.wlc ∧ u.showsIn (s.wlc.wheels.get w).block 0x40
      ((s.tqa.wheels.get w).words s.clock)) w ?_ ?_ ?_ ⟨rfl, rfl, rfl, rfl⟩).2 (hp.2.1 (.wheel w)) ?_
  · rintro v - u ⟨h1, h2, h3, h4⟩
    simp [h1, h2, h3, h4]
  · rintro u ⟨h1, h2, h3, h4⟩
    refine ⟨by simp [h1], ?_⟩
    have hcfg : u.cfg = s.cfg := congrArg Cfl.active h2
    unfold putAllocator
    rw [h1, hcfg, h3, h4, if_pos hw]
    exact putBlock_showsIn
  · rintro v hv u ⟨h1, h2⟩
    refine ⟨by simp [h1], ?_⟩
    unfold putAllocator
    split
    · rw [h1]
      have hapart := ha.units (.wheel v) (.wheel w) (by simpa using hv)
      exact putBlock_keeps_apart h2 hapart (by rw [TqaWheel.words_length]; omega)
        (by rw [TqaWheel.words_length]; omega)
    · exact h2
  · rw [tqaWords_length]
    omega

theorem putAllocators_same (s : State) : SameOutside ((0x2040, 32) ::
    s.cfg.wheels.flatMap fun w => blockRegion (s.wlc.wheels.get w).block 0x40 64) s
    (putTqaSection (forWheels putAllocator s)) := by
  have hall : SameOutside (s.cfg.wheels.flatMap fun w =>
      blockRegion (s.wlc.wheels.get w).block 0x40 64) s (forWheels putAllocator s) := by
    refine forWheels_same (P := fun u => u.wlc = s.wlc ∧ u.cfl = s.cfl)
      (region := fun w => if s.cfg.wheel w = true then
        blockRegion (s.wlc.wheels.get w).block 0x40 64 else []) ?_ ⟨rfl, rfl⟩ ?_ ?_
    · rintro v u ⟨h1, h2⟩
      simp [h1, h2]
    · rintro v u ⟨h1, h2⟩
      unfold putAllocator State.cfg
      rw [h1, h2]
      split
      · have h := putBlock_same (s.wlc.wheels.get v).block 0x40 ((u.tqa.wheels.get v).words u.clock) u
        rw [TqaWheel.words_length] at h
        exact h
      · exact fun _ _ => rfl
    · intro v r hr
      split at hr
      case isTrue hv => exact mem_wheels_region hv hr
      case isFalse => cases hr
  have hput := put_same 0x2040 (forWheels putAllocator s).tqaWords (forWheels putAllocator s)
  rw [tqaWords_length] at hput
  exact (hall.mono fun r hr => List.mem_cons_of_mem _ hr).trans
    (hput.mono fun r hr => by rw [List.mem_singleton.1 hr]; exact List.mem_cons_self)

/-- The posted references stand in the slots. -/
theorem posted_slot (u : State) (w : Wheel) : (postRetard (writeSlots u)).wlc.wheels.get w =
    { u.wlc.wheels.get w with
      slotValue := ((postRetard (writeSlots u)).tqa.wheels.get w).reference } := writeSlots_slot u w

theorem postRetard_demand (u : State) : (postRetard u).rgc.demand = (allWheels.map fun w =>
    retardPower u.cfg ((postRetard u).tqa.wheels.get w).reference (u.wheelSpeed w)).sum := rfl

theorem posted_rest (u : State) : { postRetard (writeSlots u) with
    tqa := u.tqa
    rgc := { (postRetard (writeSlots u)).rgc with
      demand := u.rgc.demand, demandNew := u.rgc.demandNew }
    wlc := { (postRetard (writeSlots u)).wlc with wheels := u.wlc.wheels } } = u :=
  State.eq_of_fields (rgc := rfl) (wlc := rfl)

/-- The first steps of an event alter the allocator, the slots and the grid demand record. -/
theorem allocated_rest (h : s.dmc.mode.working = true) : { s.allocated with
    tqa := s.tqa
    rgc := { s.allocated.rgc with demand := s.rgc.demand, demandNew := s.rgc.demandNew }
    wlc := { s.allocated.wlc with wheels := s.wlc.wheels } } = s := by
  rw [allocated_working h]
  exact congrArg (fun u => { u with tqa := s.tqa }) (posted_rest (allocate (takeAllocPeriod s)))

/-- The sections write the memory and nothing else. -/
theorem putAllocators_rest (s : State) :
    { putTqaSection (forWheels putAllocator s) with xm := s.xm } = s := by
  apply State.eq_of_fields <;> simp [forWheels]

/-- Where the table stays, the event is the allocation, the slots and the sections. -/
theorem allocationSteps_silent (h : ∀ w, ((settle (allocationSteps s)).tqa.wheels.get w).peakCond =
      (s.tqa.wheels.get w).peakCond) (hd : s.delivered = true) :
    settle (allocationSteps s) = putTqaSection (forWheels putAllocator
      (s.allocated.setTqa { s.allocated.tqa with wheels := s.allocated.creditedWheels })) := by
  have hcond : ∀ w, (s.allocated.creditedWheels.get w).peakCond =
      (s.allocated.tqa.wheels.get w).peakCond := fun w => by
    obtain ⟨-, hsp, hbu, -⟩ := allocated_peak s w
    have := h w
    rw [settled_tqa] at this
    refine this.trans ?_
    unfold TqaWheel.peakCond
    rw [hsp, hbu]
  have hsteps : allocationSteps s = putTqaSection (forWheels putAllocator
      (s.allocated.setTqa { s.allocated.tqa with wheels := s.allocated.creditedWheels })) := by
    rw [allocationSteps_eq, updateCredits_silent hcond]
  rw [hsteps]
  refine settle_of_same_pru (s := s) ?_ hd
  have := (allocated_frame s).2.2.2.1
  simpa [forWheels] using this

theorem allocated_upholds (s : State) : Upholds true s s.allocated := by
  unfold State.allocated
  split
  · exact postRetard_upholds (writeSlots_upholds (allocate_upholds
      (takeAllocPeriod_upholds (Upholds.refl true s))))
  · exact postRetard_upholds (writeSlots_upholds (skipAllocation_upholds
      (takeAllocPeriod_upholds (Upholds.refl true s))))

/-- Settles O41. -/
theorem allocationComputed : Obligations.AllocationComputed := by
  intro s hs hmode
  have hw : s.dmc.mode.working = true := by rcases hmode with h | h | h <;> rw [h] <;> rfl
  have ha := allocated_working hw
  have hn : (settle (allocationSteps s)).tqa.nAct = s.activeCount := by
    rw [settled_tqa, ha]
    rfl
  have hshare : (settle (allocationSteps s)).tqa.pW = s.shareOf s.activeCount := by
    rw [settled_tqa, ha]
    rfl
  have htrac : (settle (allocationSteps s)).tqa.pTrac =
      if s.dmc.substate = .propel ∧ s.activeCount ≠ 0 then
        min s.dmc.demand.enginePower s.tqa.propelCap - s.stc.reserve else 0 := by
    rw [settled_tqa, ha]
    rfl
  refine ⟨_, exec_allocationEvent hs, hn, fun w hoff => ?_,
    fun w k cap speed prev guarded hon hk hcap hspeed hguarded hprev => ?_, ?_, ?_, ?_, ?_, ?_, fun hd hcond => ?_⟩
  · have hget := allocated_wheel hw w
    rw [hoff, if_neg Bool.false_ne_true] at hget
    obtain ⟨h1, h2, h3, h4, h5⟩ := settled_wheel s w rfl rfl
    rw [hget] at h1 h2 h3 h4 h5
    exact ⟨h1, h2, h3, h4, h5⟩
  · have hget := allocated_wheel hw w
    rw [hon, if_pos rfl, ← hn, ← hk] at hget
    obtain ⟨h1, h2, h3, h4, h5⟩ := settled_wheel s w rfl rfl
    have hc : s.wheelCap w = cap := hcap.symm
    have hv : s.wheelSpeed w = speed := hspeed.symm
    obtain ⟨hf1, hf2, hf3, hf4⟩ := terms_factors s w (s.shareOf (settle (allocationSteps s)).tqa.nAct)
    have hf5 := terms_found s w (s.shareOf (settle (allocationSteps s)).tqa.nAct)
    rw [← hk] at hf1 hf2 hf3 hf4 hf5
    have hg : guards k.retarding speed (s.tqa.wheels.get w).reference = guarded := by
      rw [hguarded, hf2]
      rfl
    rw [hget, hc, hv] at h1 h2 h3 h4 h5
    simp only [TqaWheel.compute, hg, ← hprev] at h1 h2 h3 h4 h5
    obtain ⟨r1, r2, r3, r4⟩ := rateLimited_spec s.cfg prev k.target _ rfl
    refine ⟨h2, h3, hf1, _, r1, r2, r3, r4, fun h => h1.trans (clamped_of_le h), fun h => ?_, ?_, ?_⟩
    · rw [h1]
      exact clamped_of_lt h
    · rw [h4, overrideBinding_eq, hf5, hc, tableBinding_eq]
    · rw [h5, h1]
      exact ⟨rfl, rfl, rfl, rfl, hf3, hf4⟩
  · rw [htrac, hn]
  · rw [hshare, hn, htrac]
    unfold State.shareOf tractionBudget
    by_cases h0 : s.activeCount = 0
    · rw [if_pos h0, h0]
      cases s.dmc.substate <;> simp
    · rw [if_neg h0]
      cases hsub : s.dmc.substate <;> simp [h0]
  · rw [(settled_demand s).2, ha]
    rfl
  · rw [(settled_demand s).1, settled_tqa, ha]
    rfl
  · have href : ∀ w, ((settle (allocationSteps s)).tqa.wheels.get w).reference =
        (s.allocated.tqa.wheels.get w).reference := fun w => (settled_wheel s w rfl rfl).1
    simp only [href]
    rw [(settled_demand s).1, ha]
    refine (postRetard_demand _).trans ?_
    simp only [State.cfg, State.wheelSpeed, writeSlots_frame, allocate_frame, takeAllocPeriod_frame]
    rfl
  · rw [allocationSteps_silent hcond hd]
    have hslots : ∀ w, s.allocated.wlc.wheels.get w = { s.wlc.wheels.get w with
        slotValue := (s.allocated.creditedWheels.get w).reference } := fun w => by
      have href := (settled_wheel s w rfl rfl).1
      rw [settled_tqa] at href
      rw [href, ha]
      exact posted_slot (allocate (takeAllocPeriod s)) w
    have hblock : ∀ w, (s.allocated.wlc.wheels.get w).block = (s.wlc.wheels.get w).block := fun w => by
      rw [hslots]
    obtain ⟨hcfl, -, -, hpru, hclock, hxm⟩ := allocated_frame s
    have hu := allocated_upholds s
    refine ⟨fun w => ?_, fun hp => ⟨?_, fun hap w hcw => ?_⟩, ?_, ?_⟩
    · simp only [forWheels, putTqaSection_frame, putAllocator_frame]
      exact hslots w
    · have hshow := put_showsAt (s := forWheels putAllocator (s.allocated.setTqa { s.allocated.tqa with
        wheels := s.allocated.creditedWheels })) (x := 0x2040) (ws := (forWheels putAllocator
          (s.allocated.setTqa { s.allocated.tqa with
            wheels := s.allocated.creditedWheels })).tqaWords)
      have hwords : ∀ u : State, (putTqaSection u).tqaWords = u.tqaWords := fun u => by
        simp [State.tqaWords]
      rw [hwords]
      exact hshow
    · have hshow := putAllocators_shows (w := w) (s := s.allocated.setTqa { s.allocated.tqa with
        wheels := s.allocated.creditedWheels }) (hu.placed hp) (hu.apart hap)
        (by rw [← hcw]; exact congrArg (fun c : Cfl => c.active.wheel w) hcfl)
      simp only [forWheels, putTqaSection_frame, putAllocator_frame] at hshow ⊢
      rw [← hblock w, ← hclock]
      exact hshow
    · have hsame := putAllocators_same (s.allocated.setTqa { s.allocated.tqa with
        wheels := s.allocated.creditedWheels })
      have hcfg : (s.allocated.setTqa { s.allocated.tqa with
        wheels := s.allocated.creditedWheels }).cfg = s.cfg := congrArg Cfl.active hcfl
      rw [hcfg] at hsame
      change SameOutside ((0x2040, 32) :: s.cfg.wheels.flatMap fun w =>
        blockRegion (s.allocated.wlc.wheels.get w).block 0x40 64) _ _ at hsame
      simp only [hblock] at hsame
      exact hsame.of_xm hxm
    · have hrest := allocated_rest hw
      have hput := putAllocators_rest (s.allocated.setTqa { s.allocated.tqa with
        wheels := s.allocated.creditedWheels })
      refine Eq.trans (congrArg (fun u : State => { u with
        xm := s.xm, tqa := s.tqa
        rgc := { u.rgc with demand := s.rgc.demand, demandNew := s.rgc.demandNew }
        wlc := { u.wlc with wheels := s.wlc.wheels } }) hput) ?_
      exact congrArg (fun u : State => { u with xm := s.xm }) hrest

end
end Sys2Proof.Machine
end

section
/-! SUPPORT. Events that report a condition: what they leave undisturbed, the derate list (R171), and the kinds
that stand as NOTEs (R179, R180). -/

namespace Sys2Proof.Machine

section
variable {s t u : State} {k : Kind} {subject : Subject} {present : Bool} {source : DSource}
  {target : DTarget} {factor : Nat} {clock : Long} {ds : List Derate}

/-! ### The derate list (R171) -/

/-- The factor that a list holds for a pair. -/
def listFactor (source : DSource) (target : DTarget) : List Derate → Nat
  | [] => 1000
  | d :: ds => if d.source = source ∧ d.target = target then d.factor else listFactor source target ds

theorem listFactor_cons (d : Derate) (ds : List Derate) : listFactor source target (d :: ds) =
    if d.source = source ∧ d.target = target then d.factor else listFactor source target ds := rfl

theorem factorOf_eq (l : Lmu) (source : DSource) (target : DTarget) :
    l.factorOf source target = listFactor source target l.derates := by
  unfold Lmu.factorOf
  induction l.derates with
  | nil => rfl
  | cons d ds ih =>
    unfold listFactor
    rw [List.find?_cons]
    by_cases h : d.source = source ∧ d.target = target
    · simp [h]
    · simp only [h, decide_false, if_false]
      exact ih

theorem listFactor_absent (h : ∀ d ∈ ds, ¬(d.source = source ∧ d.target = target)) :
    listFactor source target ds = 1000 := by
  induction ds with
  | nil => rfl
  | cons d ds ih =>
    unfold listFactor
    rw [if_neg (h d List.mem_cons_self)]
    exact ih fun e he => h e (List.mem_cons_of_mem _ he)

/-- A post leaves the pair's factor, at most 1000. -/
theorem postEntry_factor (hok : ds.Pairwise Derate.differs) (hlt : ∀ d ∈ ds, d.factor < 1000) :
    listFactor source target (postEntry clock source target factor ds).1 = min factor 1000 := by
  induction ds with
  | nil =>
    unfold postEntry
    by_cases h : factor < 1000
    · rw [if_pos h]
      simp [listFactor]
      omega
    · rw [if_neg h]
      simp [listFactor]
      omega
  | cons d ds ih =>
    obtain ⟨hd, hds⟩ := List.pairwise_cons.1 hok
    have hfac := hlt d List.mem_cons_self
    unfold postEntry
    by_cases h : d.source = source ∧ d.target = target
    · rw [if_pos h]
      have hgone : ∀ e ∈ ds, ¬(e.source = source ∧ e.target = target) := fun e he hp =>
        hd e he ⟨h.1.trans hp.1.symm, h.2.trans hp.2.symm⟩
      by_cases h1 : 1000 ≤ factor
      · rw [if_pos h1]
        exact (listFactor_absent hgone).trans (by omega)
      · rw [if_neg h1]
        by_cases h2 : factor = d.factor
        · rw [if_pos h2]
          unfold listFactor
          rw [if_pos h]
          omega
        · rw [if_neg h2]
          rw [listFactor_cons, if_pos h]
          exact (Nat.min_eq_left (Nat.le_of_not_le h1)).symm
    · rw [if_neg h]
      unfold listFactor
      rw [if_neg h]
      exact ih hds fun e he => hlt e (List.mem_cons_of_mem _ he)

/-- A post leaves the factors of the other pairs. -/
theorem postEntry_other {source' : DSource} {target' : DTarget}
    (h : ¬(source = source' ∧ target = target')) :
    listFactor source' target' (postEntry clock source target factor ds).1 =
      listFactor source' target' ds := by
  induction ds with
  | nil =>
    unfold postEntry
    split
    · simp [listFactor, h]
    · rfl
  | cons d ds ih =>
    unfold postEntry
    by_cases hp : d.source = source ∧ d.target = target
    · have hn : ¬(d.source = source' ∧ d.target = target') := fun q =>
        h ⟨hp.1.symm.trans q.1, hp.2.symm.trans q.2⟩
      rw [if_pos hp]
      split
      · rw [listFactor_cons, if_neg hn]
      · split
        · rfl
        · rw [listFactor_cons, listFactor_cons, if_neg hn, if_neg hn]
    · rw [if_neg hp, listFactor_cons, listFactor_cons, ih]

/-- A post that lets a pair's entry come or go says so. -/
theorem postEntry_changed (hok : ds.Pairwise Derate.differs) (hlt : ∀ d ∈ ds, d.factor < 1000)
    (h : decide (factor < 1000) ≠ decide (listFactor source target ds < 1000)) :
    (postEntry clock source target factor ds).2 = true := by
  induction ds with
  | nil =>
    unfold postEntry
    by_cases hf : factor < 1000
    · rw [if_pos hf]
    · simp [listFactor, hf] at h
  | cons d ds ih =>
    obtain ⟨hd, hds⟩ := List.pairwise_cons.1 hok
    have hfac := hlt d List.mem_cons_self
    unfold listFactor at h
    unfold postEntry
    by_cases hp : d.source = source ∧ d.target = target
    · rw [if_pos hp] at h ⊢
      rw [if_pos (by simpa [hfac] using h)]
    · rw [if_neg hp] at h ⊢
      exact ih hds (fun e he => hlt e (List.mem_cons_of_mem _ he)) h

/-! ### A post (R171) -/

theorem post_derates (source : DSource) (target : DTarget) (factor : Nat) (s : State) :
    (post source target factor s).lmu = { s.lmu with
      derates := (postEntry s.clock source target factor s.lmu.derates).1 } := by
  unfold post
  dsimp only
  split
  case isTrue h => rw [h]
  case isFalse => simp [putDerateImage]

theorem post_factor (hok : s.lmu.ok) (source : DSource) (target : DTarget) (factor : Nat) :
    (post source target factor s).lmu.factorOf source target = min factor 1000 := by
  rw [post_derates, factorOf_eq]
  exact postEntry_factor hok.1 hok.2

theorem post_factor_other {source' : DSource} {target' : DTarget}
    (h : ¬(source = source' ∧ target = target')) (factor : Nat) (s : State) :
    (post source target factor s).lmu.factorOf source' target' = s.lmu.factorOf source' target' := by
  rw [post_derates, factorOf_eq, factorOf_eq]
  exact postEntry_other h

theorem post_ok (hok : s.lmu.ok) (source : DSource) (target : DTarget) (factor : Nat) :
    (post source target factor s).lmu.ok :=
  (post_keeps (Keeps.refl true s) source target factor).lmu hok

theorem raiseIf_true (c : Cls) (s : State) : raiseIf true c s = raise c s := rfl

/-- A post that lets an entry come or go raises DERATE_CHANGE. -/
theorem post_raises (hok : s.lmu.ok)
    (h : decide (factor < 1000) ≠ decide (s.lmu.factorOf source target < 1000)) :
    Cls.derateChange.isIn (post source target factor s).atc.pending = true := by
  rw [factorOf_eq] at h
  have hflag := postEntry_changed (clock := s.clock) hok.1 hok.2 h
  unfold post
  dsimp only
  split
  case isTrue he =>
    have := postEntry_factor (clock := s.clock) (source := source) (target := target) (factor := factor)
      hok.1 hok.2
    rw [he] at this
    rw [this] at h
    refine absurd ?_ h
    by_cases hf : factor < 1000 <;> simp [hf]
  case isFalse =>
    rw [hflag, raiseIf_true, (raise_raised _ _).pending]
    simp

theorem post_steady {a : State} (h : Steady false a s) (source : DSource) (target : DTarget)
    (factor : Nat) : Steady false a (post source target factor s) := by
  unfold post
  dsimp only
  split
  · exact h
  · refine raiseIf_steady ?_ _ _
    exact put_steady_page (setLmu_steady h fun f => absurd f (by simp)) 192
      (Nat.le_of_eq (derateImage_length _)) (by omega)

/-! ### What an event leaves undisturbed -/

/-- An event whose operations keep the demand record, the configuration, the classes and the host's bytes
leaves them undisturbed, and so do the deliveries after it. -/
theorem undisturbed_settle (h : Steady false s u) (hk : Keeps false s u)
    (supply : u.supply = s.supply := by simp) (resetLow : u.resetLow = s.resetLow := by simp)
    (clock : u.clock = s.clock := by simp) (hostData : u.hostData = s.hostData := by simp)
    (tqa : u.tqa = s.tqa := by simp) (queue : u.pending = s.pending := by simp) :
    Undisturbed s (settle u) := by
  have hs := settle_steady h
  have hk' := settle_keeps hk
  refine ⟨by simp [supply], by simp [resetLow], by simp [clock], by simp [hostData], by simp [tqa],
    by simp [queue], hs.cfg, hs.demand, hs.filter, ?_, hs.attention, hk'.host⟩
  exact congrArg (fun a : Atc => { a with pending := s.atc.pending }) hs.atc

/-- The LMU stays through the deliveries but for the commanded blower duty. -/
theorem settle_lmu (u : State) (duty : Nat) :
    { (settle u).lmu with commanded := duty } = { u.lmu with commanded := duty } :=
  congrArg (fun l : Lmu => { l with commanded := duty }) ((settle_steady (Steady.refl true u)).lmu rfl)

/-- A condition that its owner reports by one observation, over an LMU that it has altered. -/
theorem conditionMoved_note (hok : s.pru.ok) (hk : k.loud = false) (subject : Subject) (present : Bool)
    (l : Lmu) (hl : s.lmu.ok → l.ok) :
    ConditionMoved k subject present s (settle (note k subject present (s.setLmu l))) := by
  refine ⟨undisturbed_settle (note_steady_page (setLmu_steady (.refl false s) nofun) _ _ _)
    (note_keeps (setLmu_keeps (.refl false s) hl) _ _ _), settle_observed hk (note_observed ?_ _ _ _),
    fun j hj hq => ?_⟩
  · exact hok
  · rw [settle_kind hq]
    exact note_others hj subject present (s.setLmu l)

end
end Sys2Proof.Machine
end

section
/-! SUPPORT. Kinds that stand as NOTEs: an observation of one moves no set, and of the summary at most NONE to
NOTE or back (R179, R180). The cause set of the brake assist (R143, R144). -/

namespace Sys2Proof.Machine

section
variable {s t u : State} {k : Kind} {subject : Subject} {present : Bool} {c : Params} {clock : Long}
  {e : Entry} {es : List Entry}

/-! ### Entries of a NOTE kind -/

/-- Every entry of the kind has action NOTE. -/
def NotesIn (k : Kind) (es : List Entry) : Prop := ∀ e ∈ es, e.kind = k → e.action = .note

theorem seePresent_action (clock : Long) (e : Entry) : (e.seePresent clock).1.action = e.action := by
  unfold Entry.seePresent
  cases e.state <;> dsimp only <;> first | rfl | (split <;> rfl)

theorem seeAbsent_action {f : Entry} (h : f ∈ (e.seeAbsent c clock).1) : f.action = e.action := by
  unfold Entry.seeAbsent at h
  cases hs : e.state <;> simp only [hs] at h
  case pending => cases h
  case active => split at h <;> obtain rfl := Option.mem_some_iff.1 h <;> rfl
  case latched => obtain rfl := Option.mem_some_iff.1 h; rfl
  case cleared => obtain rfl := Option.mem_some_iff.1 h; rfl

theorem fresh_action : (Entry.fresh c clock k subject).action = c.action k := by
  unfold Entry.fresh
  dsimp only
  split <;> rfl

/-- An observation leaves the entries of a NOTE kind NOTEs. -/
theorem observeEntries_notes (hc : c.action k = .note) (h : NotesIn k es) :
    NotesIn k (observeEntries c clock k subject present es).1 := by
  induction es with
  | nil =>
    intro f hf _
    cases present with
    | false => cases hf
    | true =>
      have hfresh : f = Entry.fresh c clock k subject := List.mem_singleton.1 hf
      rw [hfresh, fresh_action, hc]
  | cons e es ih =>
    have htail : NotesIn k es := fun f hf => h f (List.mem_cons_of_mem _ hf)
    by_cases hp : e.kind = k ∧ e.subject = subject
    · have he := h e List.mem_cons_self hp.1
      cases present with
      | true =>
        rw [observeEntries_cons_of_pair hp, if_pos rfl]
        intro f hf hk
        rcases List.mem_cons.1 hf with rfl | hf
        · rw [seePresent_action, he]
        · exact htail f hf hk
      | false =>
        rw [observeEntries_absent_of_pair hp]
        intro f hf hk
        rcases List.mem_append.1 hf with hf | hf
        · rw [seeAbsent_action (Option.mem_toList.1 hf), he]
        · exact htail f hf hk
    · rw [observeEntries_cons_of_other hp]
      intro f hf hk
      rcases List.mem_cons.1 hf with rfl | hf
      · exact h f List.mem_cons_self hk
      · exact ih htail f hf hk

/-- The table without the entries of a kind. -/
def withoutKind (k : Kind) (es : List Entry) : List Entry := es.filter fun e => e.kind != k

theorem observeEntries_without : withoutKind k (observeEntries c clock k subject present es).1 =
    withoutKind k es :=
  observeEntries_pairs (fun e f h _ => by rw [h]) fun e h _ => by simp [h]

/-- NOTE entries exclude nothing. -/
theorem isExcluded_without (h : NotesIn k es) (subject : Subject) :
    isExcluded es subject = isExcluded (withoutKind k es) subject := by
  unfold isExcluded withoutKind
  rw [List.any_filter]
  rw [Bool.eq_iff_iff, List.any_eq_true, List.any_eq_true]
  refine exists_congr fun e => and_congr_right fun he => ?_
  by_cases hk : e.kind = k
  · simp [hk, h e he hk]
  · simp [hk]

/-- NOTE entries raise the summary from NONE to NOTE at most. -/
theorem formSummary_without (h : NotesIn k es) :
    formSummary es = formSummary (withoutKind k es) ∨
      formSummary (withoutKind k es) = .none ∧ formSummary es = .note := by
  unfold formSummary withoutKind
  induction es with
  | nil => exact .inl rfl
  | cons e es ih =>
    have htail := ih fun f hf => h f (List.mem_cons_of_mem _ hf)
    rw [List.foldr_cons]
    by_cases hk : e.kind = k
    · rw [List.filter_cons_of_neg (by simp [hk]), h e List.mem_cons_self hk]
      by_cases hst : e.stands = true
      · rw [if_pos hst]
        rcases htail with ht | ⟨ht1, ht2⟩
        · rw [ht]
          generalize (List.foldr _ _ _) = g
          cases g <;> decide
        · rw [ht1, ht2]
          decide
      · rw [if_neg hst]
        exact htail
    · rw [List.filter_cons_of_pos (by simp [hk]), List.foldr_cons]
      by_cases hst : e.stands = true
      · rw [if_pos hst, if_pos hst]
        rcases htail with ht | ⟨ht1, ht2⟩
        · rw [ht]
          exact .inl rfl
        · rw [ht1, ht2]
          cases e.action <;> decide
      · rw [if_neg hst, if_neg hst]
        exact htail

/-! ### The deliveries after an observation of a NOTE kind -/

theorem notesIn_of_notes (h : s.notes k = true) : s.cfg.action k = .note ∧ NotesIn k s.pru.entries := by
  unfold State.notes at h
  obtain ⟨h1, h2⟩ := Bool.and_eq_true_iff.1 h
  refine ⟨by simpa using h1, fun e he hk => ?_⟩
  have := List.all_eq_true.1 h2 e he
  simpa [hk] using this

theorem updatePru_self (s : State) : updatePru s.pru s = s := if_pos ⟨rfl, rfl, rfl, rfl, rfl⟩

/-- The summary is NONE or NOTE. -/
def Severity.light (v : Severity) : Prop := v = .none ∨ v = .note

theorem severityChange_light (h : s.pru.summary.light) : severityChange s = s := by
  unfold severityChange
  rcases h with h | h <;> rw [h]

theorem announceSummary_light (h : s.pru.summary.light) : announceSummary s = s := by
  unfold announceSummary
  rcases h with h | h <;> rw [h]

/-- With the sets formed and a summary that moves between NONE and NOTE, a delivery forms the summary and
nothing else. -/
theorem settle_of_light (hsets : s.setsFormed = true)
    (h : formSummary s.pru.entries = s.pru.summary ∨ (formSummary s.pru.entries).light) :
    settle s = updatePru { s.pru with summary := formSummary s.pru.entries } s := by
  by_cases hsum : s.summaryFormed = true
  · have hd : s.delivered = true := by rw [State.delivered, hsets, hsum]; rfl
    have he : s.pru.summary = formSummary s.pru.entries := by simpa [State.summaryFormed] using hsum
    rw [settle_of_delivered hd, ← he]
    exact (updatePru_self s).symm
  · have hne : formSummary s.pru.entries ≠ s.pru.summary := fun he => hsum (by
      simp [State.summaryFormed, he])
    have hlight := h.resolve_left hne
    have hp := updatePru_pru { s.pru with summary := formSummary s.pru.entries } s
    have hdel : deliver s = updatePru { s.pru with summary := formSummary s.pru.entries } s := by
      unfold deliver deliverSummary
      rw [if_pos hsets, if_neg hsum, announceSummary_light (by rw [hp]; exact hlight),
        severityChange_light (by rw [hp]; exact hlight)]
    have hformed : (updatePru { s.pru with summary := formSummary s.pru.entries } s).delivered = true := by
      have hsets' := hsets
      unfold State.delivered State.setsFormed State.summaryFormed at *
      rw [hp]
      rw [Bool.and_eq_true_iff]
      exact ⟨hsets', by simp⟩
    show settleBy 16 s = _
    unfold settleBy
    rw [if_neg (by simp [hsum]), hdel]
    unfold settleBy
    exact if_pos hformed

/-- The deliveries after an observation of a kind that stands as a NOTE. -/
theorem settle_noted (hd : s.delivered = true) (hn : s.notes k = true)
    (hu : u.pru = (note k subject present s).pru) :
    settle u = updatePru { u.pru with summary := formSummary u.pru.entries } u := by
  obtain ⟨hc, hin⟩ := notesIn_of_notes hn
  have hp := hu.trans (note_pru k subject present s)
  have hin' : NotesIn k u.pru.entries := by
    rw [hp]
    exact observeEntries_notes hc hin
  have hsame : withoutKind k u.pru.entries = withoutKind k s.pru.entries := by
    rw [hp]
    exact observeEntries_without
  have hex : ∀ q, isExcluded u.pru.entries q = isExcluded s.pru.entries q :=
    fun q => by rw [isExcluded_without hin', hsame, ← isExcluded_without hin]
  obtain ⟨hsets, hsum⟩ := Bool.and_eq_true_iff.1 hd
  have he : s.pru.summary = formSummary s.pru.entries := by simpa [State.summaryFormed] using hsum
  refine settle_of_light ?_ ?_
  · simp only [State.setsFormed, formWheelEx, formBankEx, hex]
    rw [hp]
    exact hsets
  · have hold := formSummary_without hin
    have hnew := formSummary_without hin'
    rw [hsame] at hnew
    have hpsum : u.pru.summary = formSummary s.pru.entries := by
      rw [hp]
      exact he
    rw [hpsum]
    rcases hnew with h1 | ⟨h1, h2⟩
    · rcases hold with h3 | ⟨h3, -⟩
      · exact .inl (h1.trans h3.symm)
      · exact .inr (.inl (h1.trans h3))
    · exact .inr (.inr h2)

/-! ### What those deliveries write -/

theorem updatePru_same (p : Pru) (s : State) : SameOutside [(0x1800, 768)] s (updatePru p s) := by
  unfold updatePru
  split
  · exact fun _ _ => rfl
  · intro x hx
    have := hx _ (List.mem_singleton_self _)
    exact put_byte_outside (by
      have hl := image_length p s.clock
      simp only at this
      show x < 0x1800 ∨ 0x1800 + 2 * (p.image s.clock).length ≤ x
      omega)

theorem updatePru_rest (p : Pru) (s : State) : { updatePru p s with xm := s.xm, pru := s.pru } = s := by
  unfold updatePru
  split <;> rfl

theorem raiseIf_same (b : Bool) (c : Cls) (s : State) : SameOutside [pendingRegion] s (raiseIf b c s) := by
  unfold raiseIf
  split
  · exact raise_same c s
  · exact fun _ _ => rfl

theorem raiseIf_rest (b : Bool) (c : Cls) (s : State) :
    { raiseIf b c s with atc := s.atc, xm := s.xm } = s := by
  unfold raiseIf
  split
  · exact raise_rest c s
  · rfl

theorem note_same (k : Kind) (subject : Subject) (present : Bool) (s : State) :
    SameOutside [(0x1800, 768), pendingRegion] s (note k subject present s) := by
  unfold note
  exact ((updatePru_same _ s).mono (by simp)).trans ((raiseIf_same _ _ _).mono (by simp))

theorem note_rest (k : Kind) (subject : Subject) (present : Bool) (s : State) :
    { note k subject present s with xm := s.xm, atc := s.atc, pru := s.pru } = s := by
  unfold note
  refine Eq.trans (congrArg (fun u : State => { u with xm := s.xm, atc := s.atc, pru := s.pru })
    (raiseIf_rest _ .faultChange (updatePru { s.pru with
      entries := (observeEntries s.cfg s.clock k subject present s.pru.entries).1 } s))) ?_
  exact congrArg (fun u : State => { u with atc := s.atc }) (updatePru_rest _ s)

/-- Those deliveries write the fault table and its image, and nothing else. -/
theorem settle_noted_same (hd : s.delivered = true) (hn : s.notes k = true)
    (hu : u.pru = (note k subject present s).pru) :
    SameOutside [(0x1800, 768)] u (settle u) ∧ { settle u with xm := u.xm, pru := u.pru } = u := by
  rw [settle_noted hd hn hu]
  exact ⟨updatePru_same _ _, updatePru_rest _ _⟩

/-! ### The cause set (R143, R144) -/

theorem raise_raised_setRgc (c : Cls) (g : Rgc) (s : State) : Raised [c] s (raise c (s.setRgc g)) :=
  .of_start (t := s.setRgc g) rfl rfl (raise_raised c (s.setRgc g))

/-- A changed cause set raises BRAKE_ASSIST. -/
theorem changeCauses_raised {c : Causes} (h : c ≠ s.rgc.causes) :
    Raised [.brakeAssist] s (changeCauses c s) := by
  unfold changeCauses
  rw [if_neg h]
  exact raise_raised_setRgc .brakeAssist _ s

theorem changeCauses_same (c : Causes) (s : State) :
    SameOutside [pendingRegion] s (changeCauses c s) := by
  unfold changeCauses
  split
  · exact fun _ _ => rfl
  · exact raise_same .brakeAssist (s.setRgc _)

/-- What a change of the cause set leaves of the RGC. -/
theorem changeCauses_rgc (c : Causes) (s : State) : (changeCauses c s).rgc = { s.rgc with
    causes := c
    pulse := if c ≠ s.rgc.causes ∧ s.cfg.outputMode = 1 ∧ s.rgc.causes.any = false ∧ c.any = true
      then some (s.clock + 500) else s.rgc.pulse } := by
  unfold changeCauses
  by_cases h : c = s.rgc.causes
  · subst h
    rw [if_pos rfl, if_neg (fun k => k.1 rfl)]
  · rw [if_neg h]
    by_cases hq : (s.cfg.outputMode = 1 && !s.rgc.causes.any && c.any) = true
    · have hq' : c ≠ s.rgc.causes ∧ s.cfg.outputMode = 1 ∧ s.rgc.causes.any = false ∧ c.any = true := by
        simpa [h, and_assoc] using hq
      simp only [raise_frame, if_pos hq']
      simp [hq'.2.1, hq'.2.2.1, hq'.2.2.2]
    · have hq' : ¬(c ≠ s.rgc.causes ∧ s.cfg.outputMode = 1 ∧ s.rgc.causes.any = false ∧ c.any = true) :=
        fun hk => hq (by simp [hk.2.1, hk.2.2.1, hk.2.2.2])
      simp only [raise_frame, if_neg hq']
      simp only [hq]
      rfl

theorem changeCauses_rest (c : Causes) (s : State) :
    { changeCauses c s with xm := s.xm, atc := s.atc, rgc := s.rgc } = s := by
  unfold changeCauses
  split
  · rfl
  · exact congrArg (fun u : State => { u with rgc := s.rgc }) (raise_rest .brakeAssist _)

end
end Sys2Proof.Machine
end

section
/-! The rows in which a condition's count is reached (O57). -/

namespace Sys2Proof.Machine

section
variable {s : State}

/-! ### When each row acts -/

theorem working_iff (m : Mode) : m.working = true ↔ m = .ready ∨ m = .drive ∨ m = .safeStop := by
  cases m <;> simp [Mode.working]

theorem linkJudged_iff (s : State) : s.linkJudged = true ↔ s.cfl.guardOn = true ∧
    (s.dmc.mode = .ready ∨ s.dmc.mode = .drive ∨ s.dmc.mode = .safeStop) := by
  rw [State.linkJudged, Bool.and_eq_true, working_iff]

theorem undervoltDue_iff (s : State) : s.undervoltDue = true ↔ s.linkJudged = true ∧
    s.lmu.undervolt = false ∧ 24 ≤ s.lmu.undervoltCount ∧ s.rgc.vF < s.cfg.vMin := by
  simp [State.undervoltDue, and_assoc]

theorem undervoltOver_iff (s : State) : s.undervoltOver = true ↔ s.linkJudged = true ∧
    s.lmu.undervolt = true ∧ 24 ≤ s.lmu.undervoltClear ∧ s.cfg.vMin ≤ s.rgc.vF := by
  simp [State.undervoltOver, and_assoc]

theorem gridHotOver_iff (s : State) (b : Bank) : s.gridHotOver b = true ↔ s.cfl.guardOn = true ∧
    s.cfg.bank b = true ∧ s.lmu.hot.get b = true ∧
    s.lmu.theta.get b < 10 * ((s.cfg.thetaTrip : Int) - 50) ∧ 9 ≤ s.lmu.hotClear.get b := by
  simp [State.gridHotOver, State.gridCool, and_assoc]

theorem blowerFailDue_iff (s : State) : s.blowerFailDue = true ↔ s.cfl.guardOn = true ∧
    s.lmu.blowerFail = false ∧ 19661 ≤ s.lmu.commanded ∧ 29 ≤ s.lmu.inactive := by
  simp only [State.blowerFailDue, Bool.and_eq_true, Bool.not_eq_true', decide_eq_true_eq, and_assoc]
  simp [judgedDuty]

theorem blowerFailOver_iff (s : State) : s.blowerFailOver = true ↔ s.cfl.guardOn = true ∧
    s.lmu.blowerFail = true ∧ 9 ≤ s.lmu.activeCount := by
  simp [State.blowerFailOver, and_assoc]

theorem evaluated_iff (s : State) (w : Wheel) : s.evaluated w = true ↔ s.cfg.wheel w = true ∧
    (s.wlc.wheels.get w).held ≠ .none := by
  simp [State.evaluated]

theorem windingDue_iff (s : State) (w : Wheel) : s.windingDue w = true ↔
    (s.cfl.guardOn = true ∧ s.cfg.wheel w = true ∧ (s.wlc.wheels.get w).held ≠ .none) ∧
    s.lmu.windingHot.get w = false ∧ (s.cfg.windingLimit : Int) ≤ s.reportedTemp w ∧
    1 ≤ s.lmu.windingCount.get w := by
  simp [State.windingDue, State.evaluated, and_assoc]

theorem windingOver_iff (s : State) (w : Wheel) : s.windingOver w = true ↔
    (s.cfl.guardOn = true ∧ s.cfg.wheel w = true ∧ (s.wlc.wheels.get w).held ≠ .none) ∧
    s.lmu.windingHot.get w = true ∧ s.reportedTemp w < (s.cfg.windingLimit : Int) - 10 ∧
    9 ≤ s.lmu.windingClear.get w := by
  simp [State.windingOver, State.evaluated, and_assoc]

theorem holdRuns_iff (s : State) : s.holdRuns = true ↔
    (s.dmc.mode = .drive ∨ s.dmc.mode = .safeStop) ∧ s.dmc.adopted ≠ .neutral := by
  simp [State.holdRuns]

theorem above_iff (s : State) (v : Nat) : s.above v = true ↔ ∃ r, s.tcu.vRef = some r ∧ v < r := by
  unfold State.above
  cases h : s.tcu.vRef <;> simp

theorem withinEnvelope_iff (s : State) : s.withinEnvelope = true ↔
    ∃ r, s.tcu.vRef = some r ∧ r ≤ s.rgc.vEnv := by
  unfold State.withinEnvelope State.above
  cases h : s.tcu.vRef <;> simp

theorem exceedDue_iff (s : State) : s.exceedDue = true ↔
    ((s.dmc.mode = .drive ∨ s.dmc.mode = .safeStop) ∧ s.dmc.adopted ≠ .neutral) ∧
    s.rgc.exceeded = false ∧ (∃ v, s.tcu.vRef = some v ∧ s.rgc.vEnv + 20 < v) ∧
    1000 ≤ s.rgc.exceedTime + s.rgc.period := by
  simp only [State.exceedDue, Bool.and_eq_true, holdRuns_iff, above_iff, Bool.not_eq_true',
    decide_eq_true_eq, and_assoc]

theorem exceedOver_iff (s : State) : s.exceedOver = true ↔
    ((s.dmc.mode = .drive ∨ s.dmc.mode = .safeStop) ∧ s.dmc.adopted ≠ .neutral) ∧
    s.rgc.exceeded = true ∧ (∃ v, s.tcu.vRef = some v ∧ v ≤ s.rgc.vEnv) ∧
    1000 ≤ s.rgc.clearTime + s.rgc.period := by
  simp only [State.exceedOver, Bool.and_eq_true, holdRuns_iff, withinEnvelope_iff, decide_eq_true_eq,
    and_assoc]

/-- The sums of R142 are those that the statements write. -/
theorem retardBelow_eq (s : State) (part : Nat) : s.retardBelow part =
    (decide (0 < s.retarding TqaWheel.request) &&
      decide (s.retarding (fun x => x.reference.natAbs) * 1000 < part * s.retarding TqaWheel.request)) :=
  rfl

theorem isShort_iff (s : State) : s.isShort = true ↔ 0 < s.retarding TqaWheel.request ∧
    s.retarding (fun x => x.reference.natAbs) * 1000 < 900 * s.retarding TqaWheel.request := by
  rw [State.isShort, retardBelow_eq]
  simp

theorem isSufficient_iff (s : State) : s.isSufficient = true ↔ s.retarding TqaWheel.request = 0 ∨
    950 * s.retarding TqaWheel.request ≤ s.retarding (fun x => x.reference.natAbs) * 1000 := by
  rw [State.isSufficient, retardBelow_eq, Bool.not_eq_true', Bool.and_eq_false_iff]
  simp

theorem shortfallDue_iff (s : State) : s.shortfallDue = true ↔ s.dmc.substate = .retard ∧
    s.rgc.causes.shortfall = false ∧ (0 < s.retarding TqaWheel.request ∧
      s.retarding (fun x => x.reference.natAbs) * 1000 < 900 * s.retarding TqaWheel.request) ∧
    300 ≤ s.rgc.shortfallTime + s.rgc.period := by
  simp only [State.shortfallDue, Bool.and_eq_true, isShort_iff, Bool.not_eq_true', decide_eq_true_eq,
    and_assoc, beq_iff_eq]

theorem shortfallOver_iff (s : State) : s.shortfallOver = true ↔ s.dmc.substate = .retard ∧
    s.rgc.causes.shortfall = true ∧ (s.retarding TqaWheel.request = 0 ∨
      950 * s.retarding TqaWheel.request ≤ s.retarding (fun x => x.reference.natAbs) * 1000) ∧
    300 ≤ s.rgc.recoveryTime + s.rgc.period := by
  simp only [State.shortfallOver, Bool.and_eq_true, isSufficient_iff, decide_eq_true_eq, beq_iff_eq]
  tauto

/-! ### An event that acts or does not -/

theorem whenObserving_acts {f : State → State} {p : State → Bool} (hs : s.isRunning = true)
    (h : p s = true) : whenObserving (fun s => if p s then f s else s) s = .next (settle (f s)) := by
  unfold whenObserving
  rw [whenRunning_of_running hs fun s => settle (if p s = true then f s else s), if_pos h]

theorem whenObserving_idle {f : State → State} {p : State → Bool} (hs : s.isRunning = true)
    (h : ¬p s = true) (hd : s.delivered = true) :
    whenObserving (fun s => if p s then f s else s) s = .next s := by
  unfold whenObserving
  rw [whenRunning_of_running hs fun s => settle (if p s = true then f s else s), if_neg h,
    settle_of_delivered hd]

theorem whenRunning_acts {f : State → State} {p : State → Bool} (hs : s.isRunning = true)
    (h : p s = true) : whenRunning (fun s => if p s then f s else s) s = .next (f s) := by
  rw [whenRunning_of_running hs fun s => if p s = true then f s else s, if_pos h]

theorem whenRunning_idle {f : State → State} {p : State → Bool} (hs : s.isRunning = true)
    (h : ¬p s = true) : whenRunning (fun s => if p s then f s else s) s = .next s := by
  rw [whenRunning_of_running hs fun s => if p s = true then f s else s, if_neg h]

/-! ### The rows of the LMU -/

theorem linkUndervolt_rows (hs : s.isRunning = true) (hok : s.pru.ok) :
    (s.undervoltDue = true → ∃ t, exec .linkUndervoltSet s = .next t ∧
      ConditionMoved .linkUndervolt .global true s t ∧ { t.lmu with commanded := s.lmu.commanded } =
        { s.lmu with undervolt := true, undervoltCount := 25, undervoltClear := 0 }) ∧
    (s.undervoltOver = true → ∃ t, exec .linkUndervoltClear s = .next t ∧
      ConditionMoved .linkUndervolt .global false s t ∧ { t.lmu with commanded := s.lmu.commanded } =
        { s.lmu with undervolt := false, undervoltCount := 0, undervoltClear := 25 }) :=
  ⟨fun h => ⟨_, whenObserving_acts hs h, conditionMoved_note hok rfl .global true _ id,
      (settle_lmu (setUndervolt s) s.lmu.commanded).trans (by simp [setUndervolt])⟩,
    fun h => ⟨_, whenObserving_acts hs h, conditionMoved_note hok rfl .global false _ id,
      (settle_lmu (clearUndervolt s) s.lmu.commanded).trans (by simp [clearUndervolt])⟩⟩

theorem gridHot_row (b : Bank) (hs : s.isRunning = true) (hok : s.pru.ok)
    (h : s.gridHotOver b = true) : ∃ t, exec (.gridHotClear b) s = .next t ∧
      ConditionMoved .gridHot (.bank b) false s t ∧ { t.lmu with commanded := s.lmu.commanded } =
        { s.lmu with hot := s.lmu.hot.set b false, hotClear := s.lmu.hotClear.set b 10 } :=
  ⟨_, whenObserving_acts (p := fun s => s.gridHotOver b) hs h,
    conditionMoved_note hok rfl (.bank b) false _ id,
    (settle_lmu (clearGridHot b s) s.lmu.commanded).trans (by simp [clearGridHot])⟩

theorem windingHot_rows (w : Wheel) (hs : s.isRunning = true) (hok : s.pru.ok) :
    (s.windingDue w = true → ∃ t, exec (.windingHotSet w) s = .next t ∧
      ConditionMoved .windingHot (.wheel w) true s t ∧ { t.lmu with commanded := s.lmu.commanded } =
        { s.lmu with
          windingHot := s.lmu.windingHot.set w true
          windingCount := s.lmu.windingCount.set w 2
          windingClear := s.lmu.windingClear.set w 0 }) ∧
    (s.windingOver w = true → ∃ t, exec (.windingHotClear w) s = .next t ∧
      ConditionMoved .windingHot (.wheel w) false s t ∧ { t.lmu with commanded := s.lmu.commanded } =
        { s.lmu with
          windingHot := s.lmu.windingHot.set w false
          windingClear := s.lmu.windingClear.set w 10
          windingCount := s.lmu.windingCount.set w 0 }) :=
  ⟨fun h => ⟨_, whenObserving_acts (p := fun s => s.windingDue w) hs h,
      conditionMoved_note hok rfl (.wheel w) true _ id,
      (settle_lmu (setWindingHot w s) s.lmu.commanded).trans (by simp [setWindingHot])⟩,
    fun h => ⟨_, whenObserving_acts (p := fun s => s.windingOver w) hs h,
      conditionMoved_note hok rfl (.wheel w) false _ id,
      (settle_lmu (clearWindingHot w s) s.lmu.commanded).trans (by simp [clearWindingHot])⟩⟩

/-- The derate that a change of BLOWER_FAIL posts comes after its report. -/
theorem conditionMoved_post {t u : State} {k : Kind} {subject : Subject} {present : Bool}
    (hok : s.pru.ok) (hk : k.loud = false) (l : Lmu) (hl : s.lmu.ok → l.ok) (source : DSource)
    (target : DTarget) (factor : Nat)
    (hu : u = post source target factor (note k subject present (s.setLmu l))) (ht : t = settle u) :
    ConditionMoved k subject present s t := by
  subst ht hu
  refine ⟨undisturbed_settle
    (post_steady (note_steady_page (setLmu_steady (.refl false s) nofun) _ _ _) _ _ _)
    (post_keeps (note_keeps (setLmu_keeps (.refl false s) hl) _ _ _) _ _ _), settle_observed hk ?_,
    fun j hj hq => ?_⟩
  · simp only [post_frame]
    exact note_observed (s := s.setLmu l) hok k subject present
  · rw [settle_kind hq]
    simpa using note_others hj subject present (s.setLmu l)

theorem settle_factor (u : State) (source : DSource) (target : DTarget) :
    (settle u).lmu.factorOf source target = u.lmu.factorOf source target := by
  have hfirm := (settle_steady (Steady.refl true u)).lmu rfl
  have h := congrArg Lmu.derates hfirm
  rw [factorOf_eq, factorOf_eq]
  exact congrArg (listFactor source target) h

theorem settle_isIn {c : Cls} {u : State} (h : c.isIn u.atc.pending = true) :
    c.isIn (settle u).atc.pending = true :=
  (settle_steady (Steady.refl true u)).attention c h

/-- What the last post of an event leaves of its pair, also after the deliveries. -/
theorem settle_post {u v : State} {source : DSource} {target : DTarget} {factor : Nat}
    (hu : u = post source target factor v) (hok : v.lmu.ok) (hf : factor ≤ 1000) :
    (settle u).lmu.factorOf source target = factor ∧
      (decide (factor < 1000) ≠ decide (v.lmu.factorOf source target < 1000) →
        Cls.derateChange.isIn (settle u).atc.pending = true) := by
  subst hu
  refine ⟨?_, fun h => settle_isIn (post_raises hok h)⟩
  rw [settle_factor, post_factor hok, Nat.min_eq_left hf]

/-- The LMU when BLOWER_FAIL has become present, and when it has become absent. -/
def Lmu.blowerFailed (l : Lmu) : Lmu := { l with blowerFail := true, inactive := 30, activeCount := 0 }

def Lmu.blowerWorks (l : Lmu) : Lmu := { l with blowerFail := false, activeCount := 10, inactive := 0 }

theorem setBlowerFail_eq (s : State) : setBlowerFail s = post .blower .allBanks 250
    (note .blowerFail .global true (s.setLmu s.lmu.blowerFailed)) := rfl

theorem clearBlowerFail_eq (s : State) : clearBlowerFail s = post .blower .allBanks 1000
    (note .blowerFail .global false (s.setLmu s.lmu.blowerWorks)) := rfl

/-- A change of BLOWER_FAIL, with its derate, over an LMU that keeps its list. -/
theorem blower_row {present : Bool} {l : Lmu} {factor : Nat} {t : State} (hok : s.pru.ok) (hlok : s.lmu.ok)
    (hl : l.derates = s.lmu.derates) (hf : factor ≤ 1000)
    (ht : t = settle (post .blower .allBanks factor (note .blowerFail .global present (s.setLmu l)))) :
    ConditionMoved .blowerFail .global present s t ∧ t.lmu.factorOf .blower .allBanks = factor ∧
      (decide (factor < 1000) ≠ decide (s.lmu.factorOf .blower .allBanks < 1000) →
        Cls.derateChange.isIn t.atc.pending = true) ∧
      { t.lmu with commanded := s.lmu.commanded, derates := s.lmu.derates } =
        { l with commanded := s.lmu.commanded, derates := s.lmu.derates } := by
  have hlmu : (note .blowerFail .global present (s.setLmu l)).lmu = l := by simp
  have hlok' : l.ok := by
    unfold Lmu.ok
    rw [hl]
    exact hlok
  have hfactor : l.factorOf .blower .allBanks = s.lmu.factorOf .blower .allBanks := by
    rw [factorOf_eq, factorOf_eq, hl]
  have hpost := settle_post (v := note .blowerFail .global present (s.setLmu l)) (source := .blower)
    (target := .allBanks) (factor := factor) rfl (by rw [hlmu]; exact hlok') hf
  rw [hlmu, hfactor, ← ht] at hpost
  refine ⟨conditionMoved_post hok rfl l (fun _ => hlok') .blower .allBanks factor rfl ht, hpost.1,
    hpost.2, ?_⟩
  have hset := congrArg (fun l : Lmu => { l with derates := s.lmu.derates })
    (settle_lmu (post .blower .allBanks factor (note .blowerFail .global present (s.setLmu l)))
      s.lmu.commanded)
  rw [← ht] at hset
  refine hset.trans ?_
  rw [post_derates, hlmu]

theorem blowerFailSet_row (hs : s.isRunning = true) (hok : s.pru.ok) (hl : s.lmu.ok)
    (h : s.blowerFailDue = true) : ∃ t, exec .blowerFailSet s = .next t ∧
      ConditionMoved .blowerFail .global true s t ∧ t.lmu.factorOf .blower .allBanks = 250 ∧
      (s.lmu.factorOf .blower .allBanks = 1000 → Cls.derateChange.isIn t.atc.pending = true) ∧
      { t.lmu with commanded := s.lmu.commanded, derates := s.lmu.derates } =
        { s.lmu with blowerFail := true, inactive := 30, activeCount := 0 } := by
  obtain ⟨h1, h2, h3, h4⟩ := blower_row (l := s.lmu.blowerFailed) (present := true) hok hl rfl (by omega)
    (congrArg settle (setBlowerFail_eq s))
  exact ⟨_, whenObserving_acts hs h, h1, h2, fun h => h3 (by rw [h]; decide), h4⟩

theorem blowerFailClear_row (hs : s.isRunning = true) (hok : s.pru.ok) (hl : s.lmu.ok)
    (h : s.blowerFailOver = true) : ∃ t, exec .blowerFailClear s = .next t ∧
      ConditionMoved .blowerFail .global false s t ∧ t.lmu.factorOf .blower .allBanks = 1000 ∧
      (s.lmu.factorOf .blower .allBanks < 1000 → Cls.derateChange.isIn t.atc.pending = true) ∧
      { t.lmu with commanded := s.lmu.commanded, derates := s.lmu.derates } =
        { s.lmu with blowerFail := false, activeCount := 10, inactive := 0 } := by
  obtain ⟨h1, h2, h3, h4⟩ := blower_row (l := s.lmu.blowerWorks) (present := false) hok hl rfl (by omega)
    (congrArg settle (clearBlowerFail_eq s))
  exact ⟨_, whenObserving_acts hs h, h1, h2, fun h => h3 (by simp [h]), h4⟩

/-! ### ENVELOPE_EXCEEDED -/

/-- The RGC when ENVELOPE_EXCEEDED changes, with its two times. -/
def Rgc.exceedMarked (g : Rgc) (present : Bool) (exceedTime clearTime : Nat) : Rgc :=
  { g with exceeded := present, exceedTime := exceedTime, clearTime := clearTime }

/-- The report of the change. -/
def State.exceedNoted (s : State) (present : Bool) (x y : Nat) : State :=
  note .envelopeExceeded .global present (s.setRgc (s.rgc.exceedMarked present x y))

/-- The report, the class and the cause. -/
def State.exceedChanged (s : State) (present : Bool) (x y : Nat) : State :=
  changeCauses { s.rgc.causes with envelope := present } (raise .envelope (s.exceedNoted present x y))

theorem exceedNoted_rgc (s : State) (present : Bool) (x y : Nat) :
    (s.exceedNoted present x y).rgc = s.rgc.exceedMarked present x y := by
  simp [State.exceedNoted]

theorem raise_rgc (c : Cls) (s : State) : (raise c s).rgc = s.rgc := by simp

theorem changeExceeded_eq {present : Bool} (h : s.rgc.exceeded = !present) (x y : Nat) :
    changeExceeded present (s.setRgc { s.rgc with exceedTime := x, clearTime := y }) =
      s.exceedChanged present x y := by
  have hne : ¬present = s.rgc.exceeded := by rw [h]; cases present <;> decide
  refine (if_neg hne).trans ?_
  show changeCauses { (s.exceedNoted present x y).rgc.causes with envelope := present }
    (raise .envelope (s.exceedNoted present x y)) = _
  rw [exceedNoted_rgc]
  rfl

theorem exceedChanged_rgc (s : State) (present : Bool) (x y : Nat) :
    (s.exceedChanged present x y).rgc = { s.rgc.exceedMarked present x y with
      causes := { s.rgc.causes with envelope := present }
      pulse := (s.exceedChanged present x y).rgc.pulse } := by
  unfold State.exceedChanged
  rw [changeCauses_rgc, raise_rgc, exceedNoted_rgc]

theorem exceedChanged_pru (s : State) (present : Bool) (x y : Nat) :
    (s.exceedChanged present x y).pru = (s.exceedNoted present x y).pru := by
  simp [State.exceedChanged]

theorem exceedChanged_raised {present : Bool} (s : State) (x y : Nat) :
    Cls.envelope.isIn (s.exceedChanged present x y).atc.pending = true ∧
      (s.rgc.causes.envelope = !present →
        Cls.brakeAssist.isIn (s.exceedChanged present x y).atc.pending = true) := by
  refine ⟨(changeCauses_steady (Steady.refl false _) _).attention _ ?_, fun h => ?_⟩
  · rw [(raise_raised _ _).pending]
    simp
  · have hne : { s.rgc.causes with envelope := present } ≠
        (raise .envelope (s.exceedNoted present x y)).rgc.causes := by
      rw [raise_rgc, exceedNoted_rgc]
      intro he
      have : present = s.rgc.causes.envelope := congrArg Causes.envelope he
      rw [h] at this
      cases present <;> cases this
    unfold State.exceedChanged
    rw [(changeCauses_raised hne).pending]
    simp

/-- The RGC's quantities that no delivery alters. -/
theorem settle_law (u : State) : (settle u).rgc.law = u.rgc.law :=
  (settle_steady (Steady.refl true u)).rgc rfl

theorem exceedChanged_rest (s : State) (present : Bool) (x y : Nat) :
    SameOutside [(0x1800, 768), pendingRegion] s (s.exceedChanged present x y) ∧
      { s.exceedChanged present x y with xm := s.xm, atc := s.atc, pru := s.pru, rgc := s.rgc } = s := by
  have hv := note_same .envelopeExceeded .global present (s.setRgc (s.rgc.exceedMarked present x y))
  have hr := note_rest .envelopeExceeded .global present (s.setRgc (s.rgc.exceedMarked present x y))
  refine ⟨(hv.trans ((raise_same .envelope _).mono (by simp))).trans
    ((changeCauses_same _ _).mono (by simp)), ?_⟩
  have h1 := congrArg (fun u : State => { u with xm := s.xm, atc := s.atc, pru := s.pru, rgc := s.rgc })
    (changeCauses_rest { s.rgc.causes with envelope := present }
      (raise .envelope (s.exceedNoted present x y)))
  have h2 := congrArg (fun u : State => { u with xm := s.xm, atc := s.atc, pru := s.pru, rgc := s.rgc })
    (raise_rest .envelope (s.exceedNoted present x y))
  exact (h1.trans h2).trans (congrArg (fun u : State => { u with rgc := s.rgc }) hr)

theorem exceedChanged_keeps (s : State) (present : Bool) (x y : Nat) :
    Keeps false s (s.exceedChanged present x y) := by
  have h : Keeps false s (s.setRgc (s.rgc.exceedMarked present x y)) :=
    setRgc_keeps (.refl false s) fun h => h
  have hnote := note_keeps h .envelopeExceeded .global present
  exact changeCauses_keeps (raise_keeps hnote .envelope) _

theorem exceedChanged_steady (s : State) (present : Bool) (x y : Nat) :
    Steady false s (s.exceedChanged present x y) := by
  have h : Steady false s (s.setRgc (s.rgc.exceedMarked present x y)) :=
    setRgc_steady (.refl false s) nofun
  have hnote := note_steady_page h .envelopeExceeded .global present
  exact changeCauses_steady (raise_steady hnote .envelope) _

theorem exceeded_row {present : Bool} (hok : s.pru.ok) (h : s.rgc.exceeded = !present) (x y : Nat)
    {t : State} (ht : t = settle (changeExceeded present
      (s.setRgc { s.rgc with exceedTime := x, clearTime := y }))) :
    ConditionMoved .envelopeExceeded .global present s t ∧
      Cls.envelope.isIn t.atc.pending = true ∧ t.rgc.exceeded = present ∧
      t.rgc.exceedTime = x ∧ t.rgc.clearTime = y ∧
      (s.rgc.causes.envelope = !present → Cls.brakeAssist.isIn t.atc.pending = true) ∧
      t.rgc.vEnv = s.rgc.vEnv ∧ t.rgc.dHold = s.rgc.dHold ∧ t.rgc.integrator = s.rgc.integrator ∧
      (s.delivered = true → s.notes .envelopeExceeded = true →
        SameOutside [(0x1800, 768), pendingRegion] s t ∧
        { t with
          xm := s.xm, atc := s.atc, pru := s.pru
          rgc := { t.rgc with pulse := s.rgc.pulse } } = { s with
            rgc := { s.rgc with
              exceeded := present, exceedTime := x, clearTime := y
              causes := { s.rgc.causes with envelope := present } } }) := by
  rw [changeExceeded_eq h] at ht
  have hlaw := settle_law (s.exceedChanged present x y)
  rw [exceedChanged_rgc, ← ht] at hlaw
  obtain ⟨hr1, hr2⟩ := exceedChanged_raised (present := present) s x y
  refine ⟨⟨?_, ?_, fun j hj hq => ?_⟩, by rw [ht]; exact settle_isIn hr1,
    (congrArg Rgc.exceeded hlaw :), (congrArg Rgc.exceedTime hlaw :), (congrArg Rgc.clearTime hlaw :),
    fun hc => by rw [ht]; exact settle_isIn (hr2 hc),
    (congrArg Rgc.vEnv hlaw :), (congrArg Rgc.dHold hlaw :), (congrArg Rgc.integrator hlaw :),
    fun hd hn => ?_⟩
  · rw [ht]
    refine undisturbed_settle ?_ ?_ (by simp [State.exceedChanged, State.exceedNoted])
      (by simp [State.exceedChanged, State.exceedNoted]) (by simp [State.exceedChanged, State.exceedNoted])
      (by simp [State.exceedChanged, State.exceedNoted]) (by simp [State.exceedChanged, State.exceedNoted])
      (by simp [State.exceedChanged, State.exceedNoted])
    · exact exceedChanged_steady s present x y
    · exact exceedChanged_keeps s present x y
  · rw [ht]
    refine settle_observed rfl ?_
    rw [exceedChanged_pru]
    exact note_observed (s := s.setRgc (s.rgc.exceedMarked present x y)) hok _ _ _
  · rw [ht, settle_kind hq, exceedChanged_pru]
    exact note_others hj .global present (s.setRgc (s.rgc.exceedMarked present x y))
  · obtain ⟨hsame, hrest⟩ := settle_noted_same (s := s.setRgc (s.rgc.exceedMarked present x y)) hd hn
      (exceedChanged_pru s present x y)
    obtain ⟨hsame', hrest'⟩ := exceedChanged_rest s present x y
    rw [← ht] at hsame hrest
    refine ⟨hsame'.trans (hsame.mono (by simp)), ?_⟩
    have hrgc : t.rgc = (s.exceedChanged present x y).rgc := (congrArg State.rgc hrest :)
    have h1 := congrArg (fun u : State => { u with
      xm := s.xm, atc := s.atc, pru := s.pru, rgc := s.rgc }) hrest
    have h2 : { t with xm := s.xm, atc := s.atc, pru := s.pru, rgc := s.rgc } = s := h1.trans hrest'
    have h3 := congrArg (fun u : State => { u with rgc := { t.rgc with pulse := s.rgc.pulse } }) h2
    refine h3.trans ?_
    rw [hrgc, exceedChanged_rgc]
    rfl

/-! ### SHORTFALL (R142) -/

theorem shortfall_add (h : s.rgc.causes.shortfall = false) :
    Raised [.brakeAssist] s (addShortfall s) ∧ SameOutside [pendingRegion] s (addShortfall s) ∧
    { addShortfall s with
      xm := s.xm, atc := s.atc, rgc := { (addShortfall s).rgc with pulse := s.rgc.pulse } } =
      { s with rgc := { s.rgc with
        causes := { s.rgc.causes with shortfall := true }, shortfallTime := 300, recoveryTime := 0 } } ∧
    (addShortfall s).rgc.pulse = (if s.cfg.outputMode = 1 ∧ s.rgc.causes.any = false then
      some (s.clock + 500) else s.rgc.pulse) := by
  have hne : { s.rgc.causes with shortfall := true } ≠ s.rgc.causes := fun he => by
    have := congrArg Causes.shortfall he
    rw [h] at this
    cases this
  have hrgc := changeCauses_rgc { s.rgc.causes with shortfall := true }
    (s.setRgc { s.rgc with shortfallTime := 300, recoveryTime := 0 })
  have hrest := changeCauses_rest { s.rgc.causes with shortfall := true }
    (s.setRgc { s.rgc with shortfallTime := 300, recoveryTime := 0 })
  refine ⟨?_, ?_, ?_, ?_⟩
  · exact .of_start (t := s.setRgc { s.rgc with shortfallTime := 300, recoveryTime := 0 }) rfl rfl
      (changeCauses_raised hne)
  · exact changeCauses_same _ (s.setRgc { s.rgc with shortfallTime := 300, recoveryTime := 0 })
  · refine (congrArg (fun u : State => { u with
      rgc := { (addShortfall s).rgc with pulse := s.rgc.pulse } }) hrest).trans ?_
    show { s with rgc := { (addShortfall s).rgc with pulse := s.rgc.pulse } } = _
    unfold addShortfall
    rw [hrgc]
    rfl
  · have hp := congrArg Rgc.pulse hrgc
    have hany : { s.rgc.causes with shortfall := true }.any = true := by simp [Causes.any]
    exact hp.trans (if_congr ⟨fun k => ⟨k.2.1, k.2.2.1⟩, fun k => ⟨hne, k.1, k.2, hany⟩⟩ rfl rfl)

theorem shortfall_remove (h : s.rgc.causes.shortfall = true) :
    Raised [.brakeAssist] s (removeShortfall s) ∧ SameOutside [pendingRegion] s (removeShortfall s) ∧
    { removeShortfall s with xm := s.xm, atc := s.atc } =
      { s with rgc := { s.rgc with
        causes := { s.rgc.causes with shortfall := false }
        recoveryTime := 300, shortfallTime := 0 } } := by
  have hne : { s.rgc.causes with shortfall := false } ≠ s.rgc.causes := fun he => by
    have := congrArg Causes.shortfall he
    rw [h] at this
    cases this
  have hany : s.rgc.causes.any = true := by simp [Causes.any, h]
  have hrgc := changeCauses_rgc { s.rgc.causes with shortfall := false }
    (s.setRgc { s.rgc with recoveryTime := 300, shortfallTime := 0 })
  have hrest := changeCauses_rest { s.rgc.causes with shortfall := false }
    (s.setRgc { s.rgc with recoveryTime := 300, shortfallTime := 0 })
  refine ⟨?_, ?_, ?_⟩
  · exact .of_start (t := s.setRgc { s.rgc with recoveryTime := 300, shortfallTime := 0 }) rfl rfl
      (changeCauses_raised hne)
  · exact changeCauses_same _ (s.setRgc { s.rgc with recoveryTime := 300, shortfallTime := 0 })
  · refine (congrArg (fun u : State => { u with rgc := (removeShortfall s).rgc }) hrest).trans ?_
    show { s with rgc := (removeShortfall s).rgc } = _
    unfold removeShortfall
    rw [hrgc, if_neg fun k => Bool.false_ne_true (k.2.2.1.symm.trans hany)]
    rfl

/-- Settles O57: each row acts exactly when its count is one short, and then turns its condition. -/
theorem conditionsChange : Obligations.ConditionsChange := by
  refine ⟨fun s hs hok judged hj => ?_, fun s b hs hok due hdue => ?_, fun s hs hok hl => ?_,
    fun s w temp hs hok htemp held hheld => ?_, fun s runs hs hok hruns => ?_,
    fun s held asked hs hheld hasked => ?_⟩
  · have hd := (undervoltDue_iff s).trans (and_congr_left' ((linkJudged_iff s).trans hj.symm))
    have ho := (undervoltOver_iff s).trans (and_congr_left' ((linkJudged_iff s).trans hj.symm))
    obtain ⟨hset, hclear⟩ := linkUndervolt_rows hs hok
    exact ⟨fun h => hset (hd.2 h), fun h hdel => whenObserving_idle hs (mt hd.1 h) hdel,
      fun h => hclear (ho.2 h), fun h hdel => whenObserving_idle hs (mt ho.1 h) hdel⟩
  · have hd := (gridHotOver_iff s b).trans hdue.symm
    exact ⟨fun h => gridHot_row b hs hok (hd.2 h), fun h hdel =>
      whenObserving_idle (p := fun s => s.gridHotOver b) hs (mt hd.1 h) hdel⟩
  · exact ⟨fun h => blowerFailSet_row hs hok hl ((blowerFailDue_iff s).2 h),
      fun h hdel => whenObserving_idle hs (mt (blowerFailDue_iff s).1 h) hdel,
      fun h => blowerFailClear_row hs hok hl ((blowerFailOver_iff s).2 h),
      fun h hdel => whenObserving_idle hs (mt (blowerFailOver_iff s).1 h) hdel⟩
  · have ht : s.reportedTemp w = temp := htemp.symm
    have hd := (windingDue_iff s w).trans (and_congr_left' hheld.symm)
    have ho := (windingOver_iff s w).trans (and_congr_left' hheld.symm)
    rw [ht] at hd ho
    obtain ⟨hset, hclear⟩ := windingHot_rows w hs hok
    exact ⟨fun h => hset (hd.2 h),
      fun h hdel => whenObserving_idle (p := fun s => s.windingDue w) hs (mt hd.1 h) hdel,
      fun h => hclear (ho.2 h),
      fun h hdel => whenObserving_idle (p := fun s => s.windingOver w) hs (mt ho.1 h) hdel⟩
  · have hd := (exceedDue_iff s).trans (and_congr_left' hruns.symm)
    have ho := (exceedOver_iff s).trans (and_congr_left' hruns.symm)
    refine ⟨fun h => ?_, fun h hdel => whenObserving_idle hs (mt hd.1 h) hdel, fun h => ?_,
      fun h hdel => whenObserving_idle hs (mt ho.1 h) hdel⟩
    · exact ⟨_, whenObserving_acts hs (hd.2 h), exceeded_row (present := true) hok h.2.1 1000 0 rfl⟩
    · obtain ⟨h1, h2, h3, h4, h5, h6⟩ := exceeded_row (present := false) hok h.2.1 0 1000 rfl
      exact ⟨_, whenObserving_acts hs (ho.2 h), h1, h2, h3, h5, h4, h6⟩
  · have hd := shortfallDue_iff s
    have ho := shortfallOver_iff s
    rw [← hheld, ← hasked] at hd ho
    exact ⟨fun h => ⟨_, whenRunning_acts hs (hd.2 h), shortfall_add h.2.1⟩,
      fun h => whenRunning_idle hs (mt hd.1 h),
      fun h => ⟨_, whenRunning_acts hs (ho.2 h), shortfall_remove h.2.1⟩,
      fun h => whenRunning_idle hs (mt ho.1 h)⟩

end
end Sys2Proof.Machine
end

section
/-! The rotation review (first part of O53): the order is sorted, the blower duty follows its law, and the
banks' sections show it. -/

namespace Sys2Proof.Machine

section
variable {s t : State} {heat : PerBank Nat} {b c : Bank} {l : List Bank}

/-! ### The rotation order (R131) -/

/-- One bank comes before another: cooler, or of the same store with a lower number. -/
def Cooler (heat : PerBank Nat) (b c : Bank) : Prop :=
  heat.get b < heat.get c ∨ heat.get b = heat.get c ∧ bankNum b < bankNum c

theorem mem_insertBank : c ∈ insertBank heat b l ↔ c = b ∨ c ∈ l := by
  induction l with
  | nil => simp [insertBank]
  | cons d l ih =>
    unfold insertBank
    split
    · simp
    · rw [List.mem_cons, ih, List.mem_cons]
      tauto

/-- Inserting a bank of a higher number keeps the order sorted. -/
theorem insertBank_sorted (h : l.Pairwise (Cooler heat)) (hb : ∀ c ∈ l, bankNum c < bankNum b) :
    (insertBank heat b l).Pairwise (Cooler heat) := by
  induction l with
  | nil => exact List.pairwise_singleton _ _
  | cons d l ih =>
    obtain ⟨hd, hl⟩ := List.pairwise_cons.1 h
    unfold insertBank
    split
    case isTrue hlt =>
      refine List.pairwise_cons.2 ⟨fun c hc => ?_, h⟩
      rcases List.mem_cons.1 hc with rfl | hc
      · exact .inl hlt
      · have := hd c hc
        unfold Cooler at *
        omega
    case isFalse hge =>
      refine List.pairwise_cons.2 ⟨fun c hc => ?_, ih hl fun c hc => hb c (List.mem_cons_of_mem _ hc)⟩
      rcases mem_insertBank.1 hc with rfl | hc
      · have := hb d List.mem_cons_self
        unfold Cooler
        omega
      · exact hd c hc

/-- Inserting banks of ascending number one after the other keeps the order sorted. -/
theorem insertBanks_sorted (bs : List Bank) (hbs : bs.Pairwise fun b c => bankNum b < bankNum c)
    (h : l.Pairwise (Cooler heat)) (hb : ∀ c ∈ l, ∀ b ∈ bs, bankNum c < bankNum b) :
    (bs.foldl (fun order b => insertBank heat b order) l).Pairwise (Cooler heat) ∧
      ∀ c, c ∈ bs.foldl (fun order b => insertBank heat b order) l ↔ c ∈ l ∨ c ∈ bs := by
  induction bs generalizing l with
  | nil => exact ⟨h, fun c => by simp⟩
  | cons b bs ih =>
    obtain ⟨hb1, hbs1⟩ := List.pairwise_cons.1 hbs
    have hnew := insertBank_sorted h fun c hc => hb c hc b List.mem_cons_self
    obtain ⟨h1, h2⟩ := ih hbs1 hnew fun c hc d hd => by
      rcases mem_insertBank.1 hc with rfl | hc
      · exact hb1 d hd
      · exact hb c hc d (List.mem_cons_of_mem _ hd)
    refine ⟨h1, fun c => (h2 c).trans ?_⟩
    rw [mem_insertBank, List.mem_cons]
    tauto

theorem bankServes_iff (s : State) (b : Bank) : s.bankServes b = true ↔
    s.cfg.bank b = true ∧ s.pru.bankEx.get b = false := by
  simp [State.bankServes]

theorem sortedBanks_sorted (s : State) : s.sortedBanks.Pairwise (Cooler s.lmu.heat) := by
  unfold State.sortedBanks
  split
  · exact (insertBanks_sorted _ (allBanks_ascending.filter _) List.Pairwise.nil nofun).1
  · exact List.Pairwise.nil

theorem mem_sortedBanks (s : State) (b : Bank) : b ∈ s.sortedBanks ↔
    s.cfl.guardOn = true ∧ s.cfg.bank b = true ∧ s.pru.bankEx.get b = false := by
  unfold State.sortedBanks
  split
  case isTrue h =>
    rw [(insertBanks_sorted _ (allBanks_ascending.filter _) List.Pairwise.nil nofun).2 b]
    simp [mem_allBanks, bankServes_iff, h]
  case isFalse h => simp [h]

/-! ### The blower duty (R137) -/

/-- The hottest configured bank. -/
theorem hottest_eq (hb : s.cfg.bank b = true)
    (hmax : ∀ c, s.cfg.bank c = true → s.lmu.theta.get c ≤ s.lmu.theta.get b) :
    s.hottest = some (s.lmu.theta.get b) := by
  have key : ∀ l : List Bank, (∀ c ∈ l, s.lmu.theta.get c ≤ s.lmu.theta.get b) →
      (l.map s.lmu.theta.get).foldr (fun t a => match a with
        | some u => some (max t u)
        | none => some t) none = none ∧ b ∉ l ∨
      ∃ v, (l.map s.lmu.theta.get).foldr (fun t a => match a with
        | some u => some (max t u)
        | none => some t) none = some v ∧ v ≤ s.lmu.theta.get b ∧
          (b ∈ l → v = s.lmu.theta.get b) := by
    intro l hl
    induction l with
    | nil => exact .inl ⟨rfl, nofun⟩
    | cons c l ih =>
      have hc := hl c List.mem_cons_self
      have htail := ih fun d hd => hl d (List.mem_cons_of_mem _ hd)
      refine .inr ?_
      rw [List.map_cons, List.foldr_cons]
      rcases htail with ⟨h1, h2⟩ | ⟨v, h1, h2, h3⟩
      · rw [h1]
        refine ⟨_, rfl, hc, fun hm => ?_⟩
        rcases List.mem_cons.1 hm with rfl | hm
        · rfl
        · exact absurd hm h2
      · rw [h1]
        refine ⟨_, rfl, max_le hc h2, fun hm => ?_⟩
        rcases List.mem_cons.1 hm with rfl | hm
        · exact max_eq_left h2
        · rw [h3 hm]
          exact max_eq_right hc
  have hmem : b ∈ s.cfg.banks := List.mem_filter.2 ⟨mem_allBanks b, hb⟩
  rcases key s.cfg.banks fun c hc => hmax c (List.mem_filter.1 hc).2 with ⟨-, h⟩ | ⟨v, h1, -, h3⟩
  · exact absurd hmem h
  · rw [← h3 hmem]
    exact h1

theorem blowerFloor_iff (hb : s.cfg.bank b = true)
    (hmax : ∀ c, s.cfg.bank c = true → s.lmu.theta.get c ≤ s.lmu.theta.get b) :
    s.blowerFloor = true ↔ s.dmc.substate = .retard ∨
      (s.dmc.variant = some .cool ∨ s.dmc.variant = some .full) ∧
        s.lmu.ambient + 500 < s.lmu.theta.get b := by
  have hany : s.cfg.banks.any (fun c => decide (s.lmu.ambient + 500 < s.lmu.theta.get c)) = true ↔
      s.lmu.ambient + 500 < s.lmu.theta.get b := by
    rw [List.any_eq_true]
    constructor
    · rintro ⟨c, hc, h⟩
      have := hmax c (List.mem_filter.1 hc).2
      have := of_decide_eq_true h
      omega
    · exact fun h => ⟨b, List.mem_filter.2 ⟨mem_allBanks b, hb⟩, decide_eq_true h⟩
  unfold State.blowerFloor
  rw [Bool.or_eq_true, Bool.and_eq_true, Bool.or_eq_true, hany]
  simp

theorem blowerDuty_eq (hp : s.cfl.phase ≠ .load) (hb : s.cfg.bank b = true)
    (hmax : ∀ c, s.cfg.bank c = true → s.lmu.theta.get c ≤ s.lmu.theta.get b) :
    s.blowerDuty = if s.dmc.substate = .retard ∨
        (s.dmc.variant = some .cool ∨ s.dmc.variant = some .full) ∧
          s.lmu.ambient + 500 < s.lmu.theta.get b
      then max (blowerLaw s.cfg (s.lmu.theta.get b)) 19661 else blowerLaw s.cfg (s.lmu.theta.get b) := by
  unfold State.blowerDuty
  rw [if_neg hp, hottest_eq hb hmax]
  exact if_congr (blowerFloor_iff hb hmax) rfl rfl

/-! ### The banks' sections (R145) -/

/-- A bank's section is a write of the memory. -/
theorem putBankSection_eq (b : Bank) (s : State) :
    putBankSection b s = { s with xm := (putBankSection b s).xm } := by
  unfold putBankSection putBlock
  split
  · cases s.wlc.bankBlock.get b <;> rfl
  · rfl

theorem putBankSections_shows (ha : s.wlc.apart) (hb : s.cfg.bank b = true) :
    (forBanks putBankSection s).showsIn (s.wlc.bankBlock.get b) 0 (s.bankWords b) := by
  have hstep : ∀ c u, u = { s with xm := u.xm } →
      putBankSection c u = { s with xm := (putBankSection c u).xm } := fun c u hu =>
    (putBankSection_eq c u).trans (congrArg (fun v : State => { v with xm := (putBankSection c u).xm }) hu)
  refine (forBanks_reaches (f := putBankSection) (A := fun u => u = { s with xm := u.xm })
    (B := fun u => u = { s with xm := u.xm } ∧ u.showsIn (s.wlc.bankBlock.get b) 0 (s.bankWords b))
    b (fun c _ u hu => hstep c u hu) (fun u hu => ⟨hstep b u hu, ?_⟩)
    (fun c hc u ⟨hu, hs⟩ => ⟨hstep c u hu, ?_⟩) rfl).2
  · rw [hu]
    unfold putBankSection
    rw [if_pos (by exact hb)]
    exact putBlock_showsIn
  · rw [hu] at hs ⊢
    unfold putBankSection
    split
    · exact putBlock_keeps_apart hs (ha.banks c b hc) (by rw [bankWords_length]; omega)
        (by rw [bankWords_length]; omega)
    · exact hs

theorem putBankSections_same (s : State) : SameOutside
    (s.cfg.banks.flatMap fun b => blockRegion (s.wlc.bankBlock.get b) 0 64) s
    (forBanks putBankSection s) := by
  refine forBanks_same (P := fun u => u.wlc = s.wlc ∧ u.cfl = s.cfl)
    (region := fun b => if s.cfg.bank b = true then blockRegion (s.wlc.bankBlock.get b) 0 64 else [])
    (fun b u ⟨h1, h2⟩ => by simp [h1, h2]) ⟨rfl, rfl⟩ (fun b u ⟨h1, h2⟩ => ?_) fun b r hr => ?_
  · have h := putBankSection_same b u
    rw [h1] at h
    split
    · exact h
    case isFalse hb =>
      have hcfg : u.cfg = s.cfg := congrArg Cfl.active h2
      unfold putBankSection
      rw [hcfg, if_neg hb]
      exact fun _ _ => rfl
  · split at hr
    case isTrue hb => exact mem_banks_region hb hr
    case isFalse => cases hr

theorem putBankSections_rest (s : State) : { forBanks putBankSection s with xm := s.xm } = s := by
  apply State.eq_of_fields <;> simp [forBanks]

/-! ### ROTATION_REVIEW -/

/-- A state with an order and a blower duty put in. -/
def State.blown (s : State) (order : List Bank) (duty : Nat) : State :=
  (s.setRgc { s.rgc with rotation := order, blower := { s.rgc.blower with shadow := duty } }).setLmu
    { s.lmu with commanded := duty }

theorem blowerDuty_setRgc (s : State) (g : Rgc) : (s.setRgc g).blowerDuty = s.blowerDuty := rfl

theorem reviewSteps_eq (s : State) :
    reviewSteps s = forBanks putBankSection (s.blown s.sortedBanks s.blowerDuty) := by
  simp only [reviewSteps, runAll]
  show forBanks putBankSection (s.blown s.sortedBanks (s.setRgc _).blowerDuty) = _
  rw [blowerDuty_setRgc]

theorem bankWords_of_xm {u : State} {m : Memory} (h : { t with xm := m } = u) (b : Bank) :
    t.bankWords b = u.bankWords b := by
  subst h
  rfl

/-- What the sections leave of a state with an order and a duty put in. -/
theorem blown_row (s : State) (order : List Bank) (duty : Nat) {t : State}
    (ht : t = forBanks putBankSection (s.blown order duty)) :
    t.rgc.rotation = order ∧ t.rgc.blower.shadow = duty ∧ t.lmu.commanded = duty ∧
    (s.wlc.apart → ∀ b, s.cfg.bank b = true →
      t.showsIn (s.wlc.bankBlock.get b) 0 (t.bankWords b)) ∧
    SameOutside (s.cfg.banks.flatMap fun b => blockRegion (s.wlc.bankBlock.get b) 0 64) s t ∧
    { t with
      xm := s.xm, lmu := { t.lmu with commanded := s.lmu.commanded }
      rgc := { t.rgc with
        rotation := s.rgc.rotation
        blower := { t.rgc.blower with shadow := s.rgc.blower.shadow } } } = s := by
  have hrest : { t with xm := (s.blown order duty).xm } = s.blown order duty := by
    rw [ht]
    exact putBankSections_rest (s.blown order duty)
  have hrgc := congrArg State.rgc hrest
  have hlmu := congrArg State.lmu hrest
  refine ⟨(congrArg Rgc.rotation hrgc :), (congrArg (fun g : Rgc => g.blower.shadow) hrgc :),
    (congrArg Lmu.commanded hlmu :), fun ha b hb => ?_, ?_, ?_⟩
  · rw [bankWords_of_xm hrest, ht]
    exact putBankSections_shows (s := s.blown order duty) ha hb
  · rw [ht]
    exact putBankSections_same (s.blown order duty)
  · exact (congrArg (fun u : State => { u with
      xm := s.xm, lmu := { u.lmu with commanded := s.lmu.commanded }
      rgc := { u.rgc with
        rotation := s.rgc.rotation
        blower := { u.rgc.blower with shadow := s.rgc.blower.shadow } } }) hrest :)

theorem exec_rotationReview (hs : s.isRunning = true) : exec .rotationReview s =
    .next (forBanks putBankSection (s.blown s.sortedBanks s.blowerDuty)) := by
  rw [← reviewSteps_eq]
  exact whenRunning_of_running hs reviewSteps

end
end Sys2Proof.Machine
end

section
/-! The grid demand arrival (second part of O53): the need shared out over the rotation order (R132). -/

namespace Sys2Proof.Machine

section
variable {s t : State} {b : Bank} {l : List Bank} {need duty : Nat}

/-! ### Writes of shadows -/

/-- Duties are written to shadows of running channels, and nothing else of the channels changes. -/
structure ShadowsMove (s t : State) : Prop where
  rest : { t with rgc := { t.rgc with chans := s.rgc.chans, unmet := s.rgc.unmet } } = s
  shadow : ∀ b, { t.rgc.chans.get b with shadow := (s.rgc.chans.get b).shadow } = s.rgc.chans.get b
  idle : ∀ b, (s.rgc.chans.get b).state ≠ .run → t.rgc.chans.get b = s.rgc.chans.get b

theorem ShadowsMove.state (h : ShadowsMove s t) (b : Bank) :
    (t.rgc.chans.get b).state = (s.rgc.chans.get b).state := (congrArg Chan.state (h.shadow b) :)

theorem ShadowsMove.refl (s : State) : ShadowsMove s s := ⟨rfl, fun _ => rfl, fun _ _ => rfl⟩

theorem ShadowsMove.trans {u : State} (h : ShadowsMove s t) (k : ShadowsMove t u) : ShadowsMove s u := by
  refine ⟨?_, fun b => ?_, fun b hb => ?_⟩
  · exact ((congrArg (fun v : State => { v with
      rgc := { v.rgc with chans := s.rgc.chans, unmet := s.rgc.unmet } }) k.rest) :).trans h.rest
  · exact ((congrArg (fun c : Chan => { c with shadow := (s.rgc.chans.get b).shadow })
      (k.shadow b)) :).trans (h.shadow b)
  · exact (k.idle b (by rw [h.state]; exact hb)).trans (h.idle b hb)

theorem ShadowsMove.rgc (h : ShadowsMove s t) :
    t.rgc = { s.rgc with chans := t.rgc.chans, unmet := t.rgc.unmet } := by
  have hr := congrArg State.rgc h.rest
  exact ((congrArg (fun g : Rgc => { g with chans := t.rgc.chans, unmet := t.rgc.unmet }) hr) :)

theorem ShadowsMove.cfl (h : ShadowsMove s t) : t.cfl = s.cfl := (congrArg State.cfl h.rest :)

theorem ShadowsMove.lmu (h : ShadowsMove s t) : t.lmu = s.lmu := (congrArg State.lmu h.rest :)

theorem writeShadow_get (b : Bank) (duty : Nat) (s : State) (c : Bank) :
    (writeShadow b duty s).rgc.chans.get c =
      if c = b ∧ (s.rgc.chans.get b).state = .run then { s.rgc.chans.get b with shadow := duty }
      else s.rgc.chans.get c := by
  unfold writeShadow
  dsimp only
  by_cases h : (s.rgc.chans.get b).state = .run
  · rw [if_pos h]
    show (s.rgc.chans.set b _).get c = _
    rw [PerBank_get_set]
    simp [h]
  · rw [if_neg h, if_neg fun k => h k.2]

theorem writeShadow_moves (b : Bank) (duty : Nat) (s : State) : ShadowsMove s (writeShadow b duty s) := by
  refine ⟨?_, fun c => ?_, fun c hc => ?_⟩
  · unfold writeShadow
    dsimp only
    split <;> rfl
  · rw [writeShadow_get]
    split
    case isTrue h => rw [h.1]
    case isFalse => rfl
  · rw [writeShadow_get, if_neg]
    rintro ⟨rfl, h⟩
    exact hc h

theorem setUnmet_moves (n : Nat) (s : State) :
    ShadowsMove s (s.setRgc { s.rgc with unmet := n }) := ⟨rfl, fun _ => rfl, fun _ _ => rfl⟩

/-! ### The need shared out in turn (R132) -/

/-- The need that remains after a bank of the order: a bank in TEST is skipped. -/
def State.leftAfter (s : State) (remaining : Nat) (b : Bank) : Nat :=
  if (s.rgc.chans.get b).state = .test then remaining
  else (bankDuty s.cfg s.lmu s.rgc.vF b remaining).2

theorem ShadowsMove.leftAfter (h : ShadowsMove s t) : t.leftAfter = s.leftAfter := by
  funext r b
  have hvf : t.rgc.vF = s.rgc.vF := by rw [h.rgc]
  unfold State.leftAfter State.cfg
  rw [h.state, h.cfl, h.lmu, hvf]

theorem distribute_moves (l : List Bank) (need : Nat) (s : State) :
    ShadowsMove s (distribute l need s) ∧
      (distribute l need s).rgc.unmet = l.foldl s.leftAfter need ∧
      ∀ b, b ∉ l → (distribute l need s).rgc.chans.get b = s.rgc.chans.get b := by
  induction l generalizing s need with
  | nil => exact ⟨setUnmet_moves need s, rfl, fun _ _ => rfl⟩
  | cons c l ih =>
    unfold distribute
    by_cases hc : (s.rgc.chans.get c).state = .test
    · rw [if_pos hc]
      obtain ⟨h1, h2, h3⟩ := ih need s
      refine ⟨h1, h2.trans ?_, fun b hb => h3 b fun hm => hb (List.mem_cons_of_mem _ hm)⟩
      rw [List.foldl_cons, State.leftAfter, if_pos hc]
    · rw [if_neg hc]
      have hw := writeShadow_moves c (bankDuty s.cfg s.lmu s.rgc.vF c need).1 s
      obtain ⟨h1, h2, h3⟩ := ih (bankDuty s.cfg s.lmu s.rgc.vF c need).2
        (writeShadow c (bankDuty s.cfg s.lmu s.rgc.vF c need).1 s)
      refine ⟨hw.trans h1, h2.trans ?_, fun b hb => (h3 b fun hm => hb (List.mem_cons_of_mem _ hm)).trans ?_⟩
      · rw [List.foldl_cons, hw.leftAfter]
        congr 1
        rw [State.leftAfter, if_neg hc]
      · rw [writeShadow_get, if_neg]
        rintro ⟨rfl, -⟩
        exact hb List.mem_cons_self

/-- A running bank of the order takes the duty of the need that the banks before it left. -/
theorem distribute_shadow (hl : l.Nodup) (i : Nat) (hi : l[i]? = some b)
    (hrun : (s.rgc.chans.get b).state = .run) : ((distribute l need s).rgc.chans.get b).shadow =
      (bankDuty s.cfg s.lmu s.rgc.vF b ((l.take i).foldl s.leftAfter need)).1 := by
  induction l generalizing s need i with
  | nil => cases hi
  | cons c l ih =>
    obtain ⟨hc, hl⟩ := List.nodup_cons.1 hl
    unfold distribute
    cases i with
    | zero =>
      obtain rfl : c = b := by simpa using hi
      rw [if_neg (by rw [hrun]; decide)]
      have h3 := (distribute_moves l (bankDuty s.cfg s.lmu s.rgc.vF c need).2
        (writeShadow c (bankDuty s.cfg s.lmu s.rgc.vF c need).1 s)).2.2 c hc
      rw [h3, writeShadow_get, if_pos ⟨rfl, hrun⟩]
      rfl
    | succ i =>
      have hi' : l[i]? = some b := by simpa using hi
      rw [List.take_succ_cons, List.foldl_cons]
      by_cases ht : (s.rgc.chans.get c).state = .test
      · rw [if_pos ht, ih hl i hi' hrun, State.leftAfter, if_pos ht]
      · rw [if_neg ht]
        have hw := writeShadow_moves c (bankDuty s.cfg s.lmu s.rgc.vF c need).1 s
        have hvf : (writeShadow c (bankDuty s.cfg s.lmu s.rgc.vF c need).1 s).rgc.vF = s.rgc.vF := by
          rw [hw.rgc]
        rw [ih hl i hi' (by rw [hw.state]; exact hrun), hw.leftAfter, State.cfg, hw.cfl, hw.lmu, hvf]
        rw [State.leftAfter, if_neg ht]
        rfl

theorem distributeNone_moves (need : Nat) (s : State) : ShadowsMove s (distributeNone need s) ∧
    (distributeNone need s).rgc.unmet = need ∧
    (∀ b, b ∉ s.rgc.rotation → (distributeNone need s).rgc.chans.get b = s.rgc.chans.get b) ∧
    ∀ b ∈ s.rgc.rotation, (s.rgc.chans.get b).state = .run →
      ((distributeNone need s).rgc.chans.get b).shadow = 0 := by
  have key : ∀ (l : List Bank) (u : State), ShadowsMove u (l.foldl (fun s b => writeShadow b 0 s) u) ∧
      (∀ b, b ∉ l → (l.foldl (fun s b => writeShadow b 0 s) u).rgc.chans.get b = u.rgc.chans.get b) ∧
      ∀ b, (b ∈ l ∧ (u.rgc.chans.get b).state = .run ∨ (u.rgc.chans.get b).shadow = 0) →
        ((l.foldl (fun s b => writeShadow b 0 s) u).rgc.chans.get b).shadow = 0 := by
    intro l
    induction l with
    | nil =>
      exact fun u => ⟨.refl u, fun _ _ => rfl, fun b hb => hb.resolve_left fun h => nomatch h.1⟩
    | cons c l ih =>
      intro u
      rw [List.foldl_cons]
      have hw := writeShadow_moves c 0 u
      obtain ⟨h1, h2, h3⟩ := ih (writeShadow c 0 u)
      refine ⟨hw.trans h1, fun b hb => (h2 b fun hm => hb (List.mem_cons_of_mem _ hm)).trans ?_,
        fun b hb => h3 b ?_⟩
      · rw [writeShadow_get, if_neg]
        rintro ⟨rfl, -⟩
        exact hb List.mem_cons_self
      · rw [hw.state, writeShadow_get]
        by_cases hbc : b = c ∧ (u.rgc.chans.get c).state = .run
        · rw [if_pos hbc]
          exact .inr rfl
        · rw [if_neg hbc]
          rcases hb with ⟨hm, hrun⟩ | hz
          · rcases List.mem_cons.1 hm with rfl | hm
            · exact absurd ⟨rfl, hrun⟩ hbc
            · exact .inl ⟨hm, hrun⟩
          · exact .inr hz
  obtain ⟨h1, h2, h3⟩ := key s.rgc.rotation s
  exact ⟨h1.trans (setUnmet_moves need _), rfl, h2, fun b hb hrun => h3 b (.inl ⟨hb, hrun⟩)⟩

/-! ### GRID_DEMAND_ARRIVAL -/

/-- The state in which the need is shared out: the record taken, the full-duty powers shown. -/
def State.arrived (s : State) (need : Nat) : State := s.setRgc { s.rgc with
  demandNew := false, need := need
  shows := PerBank.ofFn fun b => if s.cfg.bank b = true then
    { s.rgc.shows.get b with pFull := fullPower s.cfg s.rgc.vF b } else s.rgc.shows.get b }

theorem arrival_eq (s : State) : arrival s =
    if s.channelsRun = true then
      if s.rgc.vF < 100 then
        distributeNone (s.rgc.demand + s.rgc.pTrim) (s.arrived (s.rgc.demand + s.rgc.pTrim))
      else distribute s.rgc.rotation (s.rgc.demand + s.rgc.pTrim)
        (s.arrived (s.rgc.demand + s.rgc.pTrim))
    else (s.arrived 0).setRgc { (s.arrived 0).rgc with unmet := 0 } := rfl

theorem channelsRun_iff (s : State) : s.channelsRun = true ↔ s.dmc.mode = .ready ∨ s.dmc.mode = .drive ∨
    s.dmc.mode = .safeStop ∨ s.dmc.mode = .tripped ∧ s.rgc.discharge ≠ none := by
  rw [State.channelsRun, Bool.or_eq_true, working_iff, Bool.and_eq_true, beq_iff_eq,
    Option.isSome_iff_ne_none]
  tauto

/-- What an arrival leaves, whatever duties it writes. -/
theorem arrived_moves {need : Nat} (h : ShadowsMove (s.arrived need) t) :
    t.rgc.demandNew = false ∧ t.rgc.need = need ∧
    (∀ b, (s.rgc.chans.get b).state ≠ .run → t.rgc.chans.get b = s.rgc.chans.get b) ∧
    (∀ b, { t.rgc.chans.get b with shadow := (s.rgc.chans.get b).shadow } = s.rgc.chans.get b) ∧
    (∀ b, t.rgc.shows.get b = { s.rgc.shows.get b with
      pFull := if s.cfg.bank b then s.rgc.vF * s.rgc.vF / s.cfg.resistance.get b
        else (s.rgc.shows.get b).pFull }) ∧
    { t with
      rgc := { t.rgc with
        demandNew := s.rgc.demandNew, need := s.rgc.need, unmet := s.rgc.unmet
        chans := s.rgc.chans, shows := s.rgc.shows } } = s := by
  have hrgc := h.rgc
  refine ⟨by rw [hrgc]; rfl, by rw [hrgc]; rfl, h.idle, h.shadow, fun b => ?_, ?_⟩
  · rw [hrgc]
    refine (PerBank_get_ofFn _ b).trans ?_
    split <;> rfl
  · exact ((congrArg (fun v : State => { v with
      rgc := { v.rgc with
        demandNew := s.rgc.demandNew, need := s.rgc.need, unmet := s.rgc.unmet
        chans := s.rgc.chans, shows := s.rgc.shows } }) h.rest) :)

/-- The duty of a bank and what it leaves, by its full-duty power and its cap (R132). -/
theorem bankDuty_spec (s : State) (b : Bank) {full cap left : Nat}
    (hfull : full = s.rgc.vF * s.rgc.vF / s.cfg.resistance.get b)
    (hcap : cap = s.lmu.dBank b * 65536 / 1000) {d : Nat × Nat}
    (hd : d = bankDuty s.cfg s.lmu s.rgc.vF b left) :
    (full = 0 ∨ left = 0 → d.1 = 0 ∧ d.2 = left) ∧
    (full ≠ 0 → left ≠ 0 → d.1 = min cap (left * 65536 / full) ∧
      (d.1 = cap → d.2 = left - cap * full / 65536) ∧ (d.1 ≠ cap → d.2 = 0)) := by
  have heq : d = if full = 0 ∨ left = 0 then (0, left)
      else if cap ≤ left * 65536 / full then (cap, left - cap * full / 65536)
      else (left * 65536 / full, 0) := by
    rw [hd, hfull, hcap]
    unfold bankDuty fullPower
    simp only [Bool.or_eq_true, decide_eq_true_eq]
  subst heq
  refine ⟨fun h => by rw [if_pos h]; exact ⟨rfl, rfl⟩, fun h1 h2 => ?_⟩
  rw [if_neg (by simp [h1, h2])]
  by_cases hc : cap ≤ left * 65536 / full
  · rw [if_pos hc]
    exact ⟨(Nat.min_eq_left hc).symm, fun _ => rfl, fun h => absurd rfl h⟩
  · rw [if_neg hc]
    have hlt := Nat.lt_of_not_le hc
    exact ⟨(Nat.min_eq_right (Nat.le_of_lt hlt)).symm, fun h => absurd h (Nat.ne_of_lt hlt), fun _ => rfl⟩

theorem take_succ_foldl {α β : Type} (f : β → α → β) (l : List α) (x : β) {i : Nat} {a : α}
    (h : l[i]? = some a) : (l.take (i + 1)).foldl f x = f ((l.take i).foldl f x) a := by
  rw [List.take_add_one, h, List.foldl_append]
  rfl

/-- The shares of an arrival with V_f at 100 V or above. -/
theorem distribute_shares {need : Nat} (hnodup : s.rgc.rotation.Nodup)
    (ht : t = distribute s.rgc.rotation need (s.arrived need)) :
    ∃ remaining : Nat → Nat,
      remaining 0 = need ∧ remaining s.rgc.rotation.length = t.rgc.unmet ∧
      ∀ (i : Nat) (b : Bank) (full cap left : Nat), s.rgc.rotation[i]? = some b →
        full = s.rgc.vF * s.rgc.vF / s.cfg.resistance.get b →
        cap = s.lmu.dBank b * 65536 / 1000 → left = remaining i →
        ((s.rgc.chans.get b).state = .test → remaining (i + 1) = left) ∧
        ((s.rgc.chans.get b).state ≠ .test → ∃ duty,
          ((s.rgc.chans.get b).state = .run → (t.rgc.chans.get b).shadow = duty) ∧
          (full = 0 ∨ left = 0 → duty = 0 ∧ remaining (i + 1) = left) ∧
          (full ≠ 0 → left ≠ 0 → duty = min cap (left * 65536 / full) ∧
            (duty = cap → remaining (i + 1) = left - cap * full / 65536) ∧
            (duty ≠ cap → remaining (i + 1) = 0))) := by
  obtain ⟨-, hunmet, -⟩ := distribute_moves s.rgc.rotation need (s.arrived need)
  refine ⟨fun i => (s.rgc.rotation.take i).foldl (s.arrived need).leftAfter need, rfl, ?_,
    fun i b full cap left hi hfull hcap hleft => ?_⟩
  · dsimp only
    rw [List.take_length, ht]
    exact hunmet.symm
  · dsimp only at hleft ⊢
    rw [take_succ_foldl _ _ _ hi, ← hleft]
    refine ⟨fun h => if_pos h, fun h =>
      ⟨(bankDuty s.cfg s.lmu s.rgc.vF b left).1, fun hrun => ?_, ?_⟩⟩
    · rw [ht, distribute_shadow (s := s.arrived need) hnodup i hi hrun, ← hleft]
      rfl
    · have hafter : (s.arrived need).leftAfter left b = (bankDuty s.cfg s.lmu s.rgc.vF b left).2 :=
        if_neg h
      rw [hafter]
      exact bankDuty_spec s b hfull hcap rfl

/-- Settles O53. -/
theorem gridWork : Obligations.GridWork := by
  refine ⟨fun s hs => ?_, fun s hs => ⟨fun hold => ?_, fun hnew runs hruns => ?_⟩⟩
  · obtain ⟨h1, h2, h3, h4, h5, h6⟩ := blown_row s s.sortedBanks s.blowerDuty rfl
    refine ⟨_, exec_rotationReview hs, fun b => by rw [h1]; exact mem_sortedBanks s b,
      by rw [h1]; exact sortedBanks_sorted s, h2.trans h3.symm, fun hload => ?_,
      fun b law theta hp hb htheta hmax hlaw => ?_, fun _ => h4, h5, h6⟩
    · rw [h3, State.blowerDuty, if_pos hload]
    · rw [htheta] at hmax hlaw ⊢
      rw [h3, blowerDuty_eq hp hb hmax, hlaw]
      rfl
  · have h : ¬s.rgc.demandNew = true := by rw [hold]; decide
    exact whenRunning_idle (p := fun s => s.rgc.demandNew) hs h
  · have hrun : s.channelsRun = true ↔ runs := (channelsRun_iff s).trans hruns.symm
    have hexec : exec .gridDemandArrival s = .next (arrival s) :=
      whenRunning_acts (p := fun s => s.rgc.demandNew) hs hnew
    refine ⟨_, hexec, ?_⟩
    by_cases hr : runs
    · have heq := arrival_eq s
      rw [if_pos (hrun.2 hr)] at heq
      by_cases hv : s.rgc.vF < 100
      · rw [if_pos hv] at heq
        rw [heq]
        obtain ⟨hm, hu, hout, hz⟩ := distributeNone_moves (s.rgc.demand + s.rgc.pTrim)
          (s.arrived (s.rgc.demand + s.rgc.pTrim))
        obtain ⟨h1, h2, h3, h4, h5, h6⟩ := arrived_moves hm
        refine ⟨h1, fun h => absurd hr h, fun _ => h2, fun _ _ => ⟨hu.trans h2.symm, hz⟩,
          fun _ h => absurd hv (Nat.not_lt.2 h), fun b hb => ?_, h4, h5, h6⟩
        rcases hb with hb | hb
        · have hb' : b ∉ s.rgc.rotation := by simpa using hb
          exact hout b hb'
        · exact h3 b hb
      · rw [if_neg hv] at heq
        rw [heq]
        obtain ⟨hm, hu, hout⟩ := distribute_moves s.rgc.rotation (s.rgc.demand + s.rgc.pTrim)
          (s.arrived (s.rgc.demand + s.rgc.pTrim))
        obtain ⟨h1, h2, h3, h4, h5, h6⟩ := arrived_moves hm
        refine ⟨h1, fun h => absurd hr h, fun _ => h2, fun _ h => absurd h hv, fun _ _ hn => ?_,
          fun b hb => ?_, h4, h5, h6⟩
        · rw [h2]
          exact distribute_shares hn rfl
        · rcases hb with hb | hb
          · exact hout b (by simpa using hb)
          · exact h3 b hb
    · have heq := arrival_eq s
      rw [if_neg (mt hrun.1 hr)] at heq
      rw [heq]
      obtain ⟨h1, h2, h3, h4, h5, h6⟩ := arrived_moves (setUnmet_moves 0 (s.arrived 0))
      exact ⟨h1, fun _ => ⟨h2, rfl, rfl⟩, fun h => absurd h hr, fun h => absurd h hr,
        fun h => absurd h hr, fun _ _ => rfl, h4, h5, h6⟩

end
end Sys2Proof.Machine
end

section
/-! Period starts and ON expiries of the channels (O54). -/

namespace Sys2Proof.Machine

section
variable {s t : State} {b c d : Bank} {g : GridTest}

/-! ### The rows of R135 -/

/-- The channel after the phase that runs to its period start has ended. -/
def Chan.ended (c : Chan) : Chan := if c.gate then c.endPhase c.onTime else c

theorem ended_fields (c : Chan) : c.ended.gate = false ∧ c.ended.state = c.state ∧
    c.ended.shadow = c.shadow ∧ c.ended.carry = c.carry ∧ c.ended.pulses = c.pulses ∧
    c.ended.onTotal = c.onTotal + (if c.gate then c.onTime else 0) ∧
    c.ended.lastOn = if c.gate then c.onTime else c.lastOn := by
  unfold Chan.ended
  by_cases h : c.gate = true
  · simp only [h, if_true]
    exact ⟨rfl, rfl, rfl, rfl, rfl, rfl, rfl⟩
  · simp [h]

/-- What the decision of a period leaves of the channel. -/
theorem decide_kept (c : Chan) (period minTime : Nat) :
    (c.decide period minTime).state = c.state ∧ (c.decide period minTime).shadow = c.shadow ∧
      (c.decide period minTime).duty = c.duty ∧ (c.decide period minTime).onTotal = c.onTotal ∧
      (c.decide period minTime).lastOn = c.lastOn := by
  unfold Chan.decide
  dsimp only
  repeat' split
  all_goals exact ⟨rfl, rfl, rfl, rfl, rfl⟩

theorem startPeriod_row (c : Chan) (period minTime : Nat) :
    PeriodRow period minTime c (c.startPeriod period minTime) := by
  obtain ⟨hgate, hstate, hshadow, hcarry, hpulses, htotal, hlast⟩ := ended_fields c
  have heq : c.startPeriod period minTime =
      ({ c.ended with duty := c.ended.shadow } : Chan).decide period minTime := rfl
  obtain ⟨k1, k2, k3, k4, k5⟩ := decide_kept { c.ended with duty := c.ended.shadow } period minTime
  rw [heq]
  refine ⟨⟨k1.trans hstate, k2.trans hshadow, k3.trans hshadow⟩, ⟨k4.trans htotal, k5.trans hlast⟩,
    fun h0 => ?_, fun h0 hfull => ?_, fun h0 hle hlt => ?_, fun h0 hle hge => ?_⟩ <;>
    simp only [Chan.decide, hshadow, hcarry]
  · rw [if_pos h0]
    exact ⟨hgate, rfl, rfl, hpulses⟩
  · rw [if_neg h0, if_pos hfull]
    exact ⟨rfl, rfl, rfl, rfl, rfl, by rw [hpulses]⟩
  · rw [if_neg h0, if_neg (Nat.not_lt.2 hle), if_pos hlt]
    exact ⟨hgate, rfl, rfl, hpulses⟩
  · rw [if_neg h0, if_neg (Nat.not_lt.2 hle), if_neg (Nat.not_lt.2 hge)]
    exact ⟨rfl, rfl, rfl, rfl, rfl, by rw [hpulses]⟩

theorem works_iff (st : ChanState) : st.works = true ↔ st = .run ∨ st = .test := by
  cases st <;> simp [ChanState.works]

/-! ### A bank's channel outside the end of a test -/

theorem bankPeriod_idle (h : (s.rgc.chans.get b).state = .off ∨ (s.rgc.chans.get b).state = .blocked) :
    bankPeriod b s = s := by
  unfold bankPeriod
  rw [if_neg]
  rcases h with h | h <;> rw [h] <;> decide

/-- The state in which a channel's period has been decided. -/
def State.periodStarted (s : State) (b : Bank) : State :=
  setChan b ((s.rgc.chans.get b).startPeriod s.rgc.chopper s.cfg.minTime) s

theorem bankPeriod_eq (hworks : (s.rgc.chans.get b).state = .run ∨ (s.rgc.chans.get b).state = .test)
    (hfin : s.testFinishing b = false) : bankPeriod b s =
      if (((s.rgc.chans.get b).startPeriod s.rgc.chopper s.cfg.minTime).gate &&
        (s.rgc.chans.get b).state == .test) = true then countPulse b (s.periodStarted b)
      else s.periodStarted b := by
  have hstate := (startPeriod_row (s.rgc.chans.get b) s.rgc.chopper s.cfg.minTime).kept.1
  unfold bankPeriod
  rw [if_pos ((works_iff _).2 hworks)]
  simp only [hfin, Bool.false_eq_true, if_false, hstate]
  rfl

theorem testFinishing_of_other (h : ∀ g, s.rgc.test = some g → ¬(g.current = some b ∧ g.finishing = true)) :
    s.testFinishing b = false := by
  unfold State.testFinishing
  cases hg : s.rgc.test with
  | none => rfl
  | some g =>
    have := h g hg
    simpa using this

theorem testFinishing_of (hg : s.rgc.test = some g) (hc : g.current = some b) (hf : g.finishing = true) :
    s.testFinishing b = true := by
  unfold State.testFinishing
  rw [hg]
  simp [hc, hf]

/-- A pulse of a bank that no test holds is not counted. -/
theorem countPulse_other (h : ∀ g, s.rgc.test = some g → g.current ≠ some b) : countPulse b s = s := by
  unfold countPulse
  cases hg : s.rgc.test with
  | none => rfl
  | some g => exact if_neg (h g hg)

theorem countPulse_current (hg : s.rgc.test = some g) (hc : g.current = some b) : countPulse b s =
    showTest b (fun w => { w with delivered := (s.rgc.shows.get b).delivered + 1 })
      (setTest (some { g with
        finishing := decide (g.count ≤ (s.rgc.shows.get b).delivered + 1) }) s) := by
  unfold countPulse
  simp only [hg, hc, if_true]

/-! ### A channel whose gate is off keeps its counts (R136) -/

/-- A channel whose gate is off keeps it off, its accumulator and its pulse count. -/
structure CountsKept (b : Bank) (s t : State) : Prop where
  kept : (s.rgc.chans.get b).gate = false → (t.rgc.chans.get b).gate = false ∧
    (t.rgc.chans.get b).onTotal = (s.rgc.chans.get b).onTotal ∧
    (t.rgc.chans.get b).pulses = (s.rgc.chans.get b).pulses

theorem CountsKept.trans {u : State} (h : CountsKept b s t) (k : CountsKept b t u) : CountsKept b s u :=
  ⟨fun hg => by
    obtain ⟨h1, h2, h3⟩ := h.kept hg
    obtain ⟨k1, k2, k3⟩ := k.kept h1
    exact ⟨k1, k2.trans h2, k3.trans h3⟩⟩

theorem CountsKept.of_same (h : t.rgc.chans.get b = s.rgc.chans.get b) : CountsKept b s t :=
  ⟨fun hg => by rw [h]; exact ⟨hg, rfl, rfl⟩⟩

theorem enter_counts (c : Chan) (st : ChanState) (duty : Nat) :
    (c.enter st duty).onTotal = c.onTotal ∧ (c.enter st duty).pulses = c.pulses := by
  cases st <;> exact ⟨rfl, rfl⟩

theorem cutIfOff_of_gate_off (st : ChanState) (h : (s.rgc.chans.get b).gate = false) :
    cutIfOff st b s = s := by
  have hcut : cutPhase b s = s := if_neg (by rw [h]; decide)
  cases st with
  | off | blocked => exact hcut
  | run | test => rfl

theorem judgeChannel_counts (b c : Bank) (s : State) : CountsKept b s (judgeChannel c s) := by
  by_cases hbc : b = c
  · subst hbc
    refine ⟨fun hg => ?_⟩
    simp only [judgeChannel]
    split
    · exact ⟨hg, rfl, rfl⟩
    · rw [cutIfOff_of_gate_off _ hg]
      obtain ⟨h1, h2⟩ := enter_counts (s.rgc.chans.get b) (s.chanState b) s.testDuty
      simp only [putBankSection_frame, setChan, State.setRgc_rgc, PerBank_get_set_self]
      exact ⟨(Chan.enter_gate _ _ _).trans hg, h1, h2⟩
  · exact .of_same ((judgeChannel_moves c s).others b (by simpa using hbc))

theorem judgeChannels_counts (b : Bank) (s : State) : CountsKept b s (judgeChannels s) :=
  forBanks_steps (P := CountsKept b) CountsKept.trans (fun c s => judgeChannel_counts b c s) s

/-! ### The end of a bank's test (R140) -/

/-- The grid test record when its current bank has passed. -/
def GridTest.passCurrent (g : GridTest) (b : Bank) : GridTest :=
  { g with current := none, finishing := false, passed := g.passed ++ [b] }

/-- The state in which the passed bank's channel is judged again. -/
def State.passMarked (s : State) (g : GridTest) (b : Bank) : State :=
  showTest b (fun w => { w with result := .pass }) (setTest (some (g.passCurrent b)) s)

theorem passBank_eq (hg : s.rgc.test = some g) :
    passBank b s = nextBank (judgeChannel b (s.passMarked g b)) := by
  unfold passBank
  simp only [hg]
  rfl

theorem passMarked_rgc (s : State) (g : GridTest) (b : Bank) : (s.passMarked g b).rgc = { s.rgc with
    test := some (g.passCurrent b)
    shows := s.rgc.shows.set b { s.rgc.shows.get b with result := .pass } } :=
  showTest_rgc _ _ _

theorem passMarked_frame (s : State) (g : GridTest) (b : Bank) : (s.passMarked g b).cfl = s.cfl ∧
    (s.passMarked g b).pru = s.pru ∧ (s.passMarked g b).ore = s.ore ∧ (s.passMarked g b).wlc = s.wlc ∧
    (s.passMarked g b).clock = s.clock ∧ (s.passMarked g b).atc = s.atc := by
  simp [State.passMarked, setTest]

theorem passMarked_chanState (hguard : s.cfl.guardOn = true) (hbank : s.cfg.bank b = true)
    (hfree : s.pru.bankEx.get b = false) : (s.passMarked g b).chanState b = .off := by
  obtain ⟨hcfl, hpru, -⟩ := passMarked_frame s g b
  have hcfg : (s.passMarked g b).cfg = s.cfg := congrArg Cfl.active hcfl
  unfold State.chanState State.testCurrent State.testDone
  rw [hcfg, hcfl, hpru, passMarked_rgc]
  simp [hguard, hbank, hfree, GridTest.passCurrent]

/-- What stands when the passed bank's channel has been judged. -/
theorem passJudged (hguard : s.cfl.guardOn = true) (hbank : s.cfg.bank b = true)
    (hfree : s.pru.bankEx.get b = false) (hgate : (s.rgc.chans.get b).gate = false)
    (ht : t = judgeChannel b (s.passMarked g b)) :
    t.rgc = { s.rgc with
      test := some (g.passCurrent b)
      shows := s.rgc.shows.set b { s.rgc.shows.get b with result := .pass }, chans := t.rgc.chans } ∧
    (t.rgc.chans.get b).state = .off ∧ (t.rgc.chans.get b).gate = false ∧
    (t.rgc.chans.get b).onTotal = (s.rgc.chans.get b).onTotal ∧
    (t.rgc.chans.get b).pulses = (s.rgc.chans.get b).pulses ∧
    t.ore = s.ore ∧ t.wlc = s.wlc ∧ t.clock = s.clock ∧ t.cfl = s.cfl := by
  subst ht
  have hm := judgeChannel_moves b (s.passMarked g b)
  have hc := (judgeChannel_counts b b (s.passMarked g b)).kept (by rw [passMarked_rgc]; exact hgate)
  obtain ⟨f1, f2, f3, f4, f5, f6⟩ := passMarked_frame s g b
  refine ⟨?_, ?_, hc.1, ?_, ?_, by simp [f3], by simp [f4], by simp [f5], by simp [f1]⟩
  · rw [hm.rgc, passMarked_rgc]
  · rw [judgeChannel_state]
    exact passMarked_chanState hguard hbank hfree
  · rw [hc.2.1, passMarked_rgc]
  · rw [hc.2.2, passMarked_rgc]

/-- The record when the next waiting bank is started (R140). -/
def GridTest.startNext (g : GridTest) (d : Bank) (rest : List Bank) (vF : Nat) : GridTest :=
  { g with current := some d, finishing := false, waiting := rest, lowest := min g.lowest vF }

/-- The state in which the next waiting bank's channel is judged. -/
def State.nextShown (s : State) (g : GridTest) (d : Bank) (rest : List Bank) : State :=
  showTest d (BankShow.begun s.rgc.vF) (setTest (some (g.startNext d rest s.rgc.vF)) s)

theorem nextShown_rgc (s : State) (g : GridTest) (d : Bank) (rest : List Bank) :
    (s.nextShown g d rest).rgc = { s.rgc with
      test := some (g.startNext d rest s.rgc.vF)
      shows := s.rgc.shows.set d (BankShow.begun s.rgc.vF (s.rgc.shows.get d)) } := showTest_rgc _ _ _

theorem judgeChannel_ore (b : Bank) (s : State) : (judgeChannel b s).ore = s.ore := by simp

theorem nextShown_ore (s : State) (g : GridTest) (d : Bank) (rest : List Bank) :
    (s.nextShown g d rest).ore = s.ore := by simp [State.nextShown, setTest]

theorem nextBank_some {rest : List Bank} (hg : s.rgc.test = some g) (hw : g.waiting = d :: rest) :
    nextBank s = judgeChannel d (s.nextShown g d rest) := by
  unfold nextBank
  simp only [hg, hw]
  rfl

theorem nextBank_none (hg : s.rgc.test = some g) (hw : g.waiting = []) : nextBank s =
    complete .grid g.cell .ok g.detail (judgeChannels (setTest none s)) := by
  unfold nextBank
  simp only [hg, hw]

/-- What the end of a bank's test leaves, its gate being off already (R140). -/
structure BankPassed (g : GridTest) (b : Bank) (s t : State) : Prop where
  result : (t.rgc.shows.get b).result = .pass
  gate : (t.rgc.chans.get b).gate = false
  state : (t.rgc.chans.get b).state ≠ .test
  onTotal : (t.rgc.chans.get b).onTotal = (s.rgc.chans.get b).onTotal
  pulses : (t.rgc.chans.get b).pulses = (s.rgc.chans.get b).pulses
  next : ∀ d rest, g.waiting = d :: rest → t.ore = s.ore ∧
    t.rgc.test = some { g with
      passed := g.passed ++ [b], current := some d, waiting := rest, finishing := false
      lowest := min g.lowest s.rgc.vF } ∧
    (t.rgc.shows.get d).before = s.rgc.vF ∧ (t.rgc.shows.get d).lowest = s.rgc.vF ∧
    (t.rgc.shows.get d).delivered = 0
  last : g.waiting = [] → t.rgc.test = none ∧ t.ore = { s.ore with grid := none } ∧
    Cls.orderDone.isIn t.atc.pending = true ∧
    t.cellEnded g.cell .ok [bankSet (g.passed ++ [b]), bankSet g.skipped, bankSet g.aborted,
      0, natWord g.lowest] s.clock

/-- The bank that passes when others wait. -/
theorem bankPassed_next {rest : List Bank} {u : State}
    (hu : u.rgc = { s.rgc with
      test := some (g.passCurrent b)
      shows := s.rgc.shows.set b { s.rgc.shows.get b with result := .pass }, chans := u.rgc.chans })
    (hstate : (u.rgc.chans.get b).state = .off) (hgate : (u.rgc.chans.get b).gate = false)
    (htotal : (u.rgc.chans.get b).onTotal = (s.rgc.chans.get b).onTotal)
    (hpulses : (u.rgc.chans.get b).pulses = (s.rgc.chans.get b).pulses) (hore : u.ore = s.ore)
    (hw : g.waiting = d :: rest) (hne : b ≠ d) (ht : t = nextBank u) : BankPassed g b s t := by
  have htest : u.rgc.test = some (g.passCurrent b) := by rw [hu]
  have hshows : u.rgc.shows = s.rgc.shows.set b { s.rgc.shows.get b with result := .pass } := by rw [hu]
  have hvf : u.rgc.vF = s.rgc.vF := by rw [hu]
  have ht' := ht.trans (nextBank_some htest hw)
  have hv := nextShown_rgc u (g.passCurrent b) d rest
  have hm := judgeChannel_moves d (u.nextShown (g.passCurrent b) d rest)
  rw [← ht'] at hm
  have hchan : t.rgc.chans.get b = u.rgc.chans.get b := by
    rw [hm.others b (by simpa using hne), hv]
  have htshows : t.rgc.shows = u.rgc.shows.set d (BankShow.begun u.rgc.vF (u.rgc.shows.get d)) := by
    rw [hm.rgc, hv]
  refine ⟨?_, by rw [hchan]; exact hgate, by rw [hchan, hstate]; decide, by rw [hchan]; exact htotal,
    by rw [hchan]; exact hpulses, fun e rest' he => ?_, fun h => absurd (hw.symm.trans h) (by simp)⟩
  · rw [htshows, PerBank_get_set, if_neg hne, hshows, PerBank_get_set_self]
  · obtain ⟨rfl, rfl⟩ : d = e ∧ rest = rest' := by simpa using hw.symm.trans he
    refine ⟨?_, ?_, ?_⟩
    · rw [ht', judgeChannel_ore, nextShown_ore, hore]
    · rw [hm.rgc, hv, hvf]
      rfl
    · rw [htshows, PerBank_get_set_self, hvf]
      exact ⟨rfl, rfl, rfl⟩

/-- The bank that passes as the last of its test. -/
theorem bankPassed_last {u : State}
    (hu : u.rgc = { s.rgc with
      test := some (g.passCurrent b)
      shows := s.rgc.shows.set b { s.rgc.shows.get b with result := .pass }, chans := u.rgc.chans })
    (hgate : (u.rgc.chans.get b).gate = false)
    (htotal : (u.rgc.chans.get b).onTotal = (s.rgc.chans.get b).onTotal)
    (hpulses : (u.rgc.chans.get b).pulses = (s.rgc.chans.get b).pulses) (hore : u.ore = s.ore)
    (hclock : u.clock = s.clock) (hheld : s.ore.grid = some g.cell)
    (hw : g.waiting = []) (ht : t = nextBank u) : BankPassed g b s t := by
  have htest : u.rgc.test = some (g.passCurrent b) := by rw [hu]
  have hshows : u.rgc.shows = s.rgc.shows.set b { s.rgc.shows.get b with result := .pass } := by rw [hu]
  have ht' := ht.trans (nextBank_none htest hw)
  have hm := judgeChannels_moves (setTest none u)
  have hc := (judgeChannels_counts b (setTest none u)).kept hgate
  have hjore : (judgeChannels (setTest none u)).ore = s.ore := by simp [setTest, hore]
  have hjclock : (judgeChannels (setTest none u)).clock = s.clock := by simp [setTest, hclock]
  have hrgc : t.rgc = (judgeChannels (setTest none u)).rgc := by rw [ht']; simp
  have hheld' : (judgeChannels (setTest none u)).ore.inFlight .grid =
      some (g.passCurrent b).cell := by
    rw [hjore]
    exact hheld
  have hended := complete_orderEnded (r := .ok) (detail := (g.passCurrent b).detail) hheld'
  have hstate : (t.rgc.chans.get b).state ≠ .test := by
    rw [hrgc, judgeChannels_state]
    exact chanState_ne_test rfl
  refine ⟨?_, by rw [hrgc]; exact hc.1, hstate, by rw [hrgc, hc.2.1]; exact htotal,
    by rw [hrgc, hc.2.2]; exact hpulses, fun d rest h => absurd (hw.symm.trans h) (by simp),
    fun _ => ⟨?_, ?_, ?_, ?_⟩⟩
  · rw [hrgc, hm.rgc]
    show (u.rgc.shows.get b).result = .pass
    rw [hshows, PerBank_get_set_self]
  · rw [hrgc, hm.rgc]
    rfl
  · rw [ht']
    exact (complete_ore hheld').trans (by rw [hjore]; rfl)
  · rw [ht']
    have := hended.raised.pending .orderDone
    rw [this]
    simp
  · rw [ht', ← hjclock]
    have hdetail : (g.passCurrent b).detail = [bankSet (g.passed ++ [b]), bankSet g.skipped,
        bankSet g.aborted, 0, natWord g.lowest] := by
      unfold GridTest.detail
      show [_, _, _, bankSet g.waiting, _] = _
      rw [hw]
      rfl
    rw [← hdetail]
    exact hended.ended

theorem passBank_passed (hg : s.rgc.test = some g) (hguard : s.cfl.guardOn = true)
    (hbank : s.cfg.bank b = true) (hfree : s.pru.bankEx.get b = false)
    (hgate : (s.rgc.chans.get b).gate = false) (hheld : s.ore.grid = some g.cell)
    (hwaiting : g.waiting.contains b = false) (ht : t = passBank b s) : BankPassed g b s t := by
  obtain ⟨hu, hstate, hgate', htotal, hpulses, hore, -, hclock, -⟩ :=
    passJudged (g := g) hguard hbank hfree hgate rfl
  have ht' := ht.trans (passBank_eq hg)
  cases hw : g.waiting with
  | nil => exact bankPassed_last hu hgate' htotal hpulses hore hclock hheld hw ht'
  | cons d rest =>
    refine bankPassed_next hu hstate hgate' htotal hpulses hore hw ?_ ht'
    rintro rfl
    simp [hw] at hwaiting

/-! ### The commands -/

theorem exec_bankPeriod (hs : s.isRunning = true) (b : Bank) :
    exec (.channelPeriodStart (.bank b)) s = .next (bankPeriod b s) :=
  whenRunning_of_running hs fun s => bankPeriod b s

theorem exec_bankExpiry (hs : s.isRunning = true) (b : Bank) :
    exec (.onExpiry (.bank b)) s = .next (bankExpiry b s) :=
  whenRunning_of_running hs fun s => bankExpiry b s

/-- The channel's last phase has ended. -/
def State.phaseEnded (s : State) (b : Bank) : State := setChan b (s.rgc.chans.get b).ended s

theorem phaseEnded_chan (s : State) (b : Bank) :
    (s.phaseEnded b).rgc.chans.get b = (s.rgc.chans.get b).ended := PerBank_get_set_self _ _ _

/-- At the end of a bank's last pulse its period start and its ON expiry do the same. -/
theorem finishing_eq (hg : s.rgc.test = some g) (hc : g.current = some b) (hf : g.finishing = true)
    (hstate : (s.rgc.chans.get b).state = .test) :
    bankPeriod b s = passBank b (s.phaseEnded b) ∧
      ((s.rgc.chans.get b).gate = true → (s.rgc.chans.get b).fullOn = false →
        bankExpiry b s = passBank b (s.phaseEnded b)) := by
  have hfin := testFinishing_of hg hc hf
  refine ⟨?_, fun hgate hfull => ?_⟩
  · unfold bankPeriod
    simp only [hfin, if_true, hstate, ChanState.works]
    rfl
  · unfold bankExpiry State.phaseEnded Chan.ended
    simp only [hfin, if_true, hgate, hfull, Bool.not_false, Bool.and_self]

/-- A pulse of the current bank is counted (R140). -/
theorem countedPulse {s u t : State} (hrgc : u.rgc = { s.rgc with chans := u.rgc.chans })
    (hg : s.rgc.test = some g) (hc : g.current = some b) (ht : t = countPulse b u) :
    t.rgc = { s.rgc with
      chans := u.rgc.chans
      shows := s.rgc.shows.set b { s.rgc.shows.get b with
        delivered := (s.rgc.shows.get b).delivered + 1 }
      test := some { g with
        finishing := decide (g.count ≤ (s.rgc.shows.get b).delivered + 1) } } := by
  have hg' : u.rgc.test = some g := by rw [hrgc]; exact hg
  have hshows : u.rgc.shows = s.rgc.shows := by rw [hrgc]
  have key : t.rgc = { u.rgc with
      shows := u.rgc.shows.set b { u.rgc.shows.get b with
        delivered := (u.rgc.shows.get b).delivered + 1 }
      test := some { g with
        finishing := decide (g.count ≤ (u.rgc.shows.get b).delivered + 1) } } := by
    rw [ht, countPulse_current hg' hc, showTest_rgc]
    rfl
  rw [key, hshows]
  exact congrArg (fun r : Rgc => { r with
    shows := s.rgc.shows.set b { s.rgc.shows.get b with
      delivered := (s.rgc.shows.get b).delivered + 1 }
    test := some { g with
      finishing := decide (g.count ≤ (s.rgc.shows.get b).delivered + 1) } }) hrgc

theorem countPulse_same (b : Bank) (s : State) :
    SameOutside (blockRegion (s.wlc.bankBlock.get b) 0 64) s (countPulse b s) := by
  unfold countPulse
  cases s.rgc.test with
  | none => exact fun _ _ => rfl
  | some g =>
    dsimp only
    split
    · exact showTest_same b (fun w => { w with delivered := (s.rgc.shows.get b).delivered + 1 })
        (setTest (some { g with
          finishing := decide (g.count ≤ (s.rgc.shows.get b).delivered + 1) }) s)
    · exact fun _ _ => rfl

theorem countPulse_rest (b : Bank) (s : State) :
    { countPulse b s with xm := s.xm, rgc := s.rgc } = s := by
  apply State.eq_of_fields <;> simp

/-- The current bank's period start while its test goes on (R135, R140). -/
theorem testPeriod_row (hs : s.isRunning = true) (hstate : (s.rgc.chans.get b).state = .test)
    (hg : s.rgc.test = some g) (hc : g.current = some b) (hf : g.finishing = false) :
    ∃ t, exec (.channelPeriodStart (.bank b)) s = .next t ∧
      PeriodRow s.rgc.chopper s.cfg.minTime (s.rgc.chans.get b) (t.rgc.chans.get b) ∧
      (∀ d, d ≠ b → t.rgc.chans.get d = s.rgc.chans.get d) ∧
      ((t.rgc.chans.get b).gate = false → t.rgc.shows = s.rgc.shows ∧ t.rgc.test = some g) ∧
      ((t.rgc.chans.get b).gate = true →
        t.rgc.shows = s.rgc.shows.set b { s.rgc.shows.get b with
          delivered := (s.rgc.shows.get b).delivered + 1 } ∧
        t.rgc.test = some { g with
          finishing := decide (g.count ≤ (s.rgc.shows.get b).delivered + 1) }) ∧
      SameOutside (blockRegion (s.wlc.bankBlock.get b) 0 64) s t ∧
      { t with
        xm := s.xm
        rgc := { t.rgc with
          chans := s.rgc.chans, shows := s.rgc.shows, test := s.rgc.test } } = s := by
  have hfin : s.testFinishing b = false := testFinishing_of_other fun g' hg' => by
    obtain rfl : g = g' := by simpa [hg] using hg'
    simp [hf]
  have hrow := startPeriod_row (s.rgc.chans.get b) s.rgc.chopper s.cfg.minTime
  have hexec := exec_bankPeriod hs b
  have hchans : (s.periodStarted b).rgc.chans = s.rgc.chans.set b
    ((s.rgc.chans.get b).startPeriod s.rgc.chopper s.cfg.minTime) := rfl
  have hothers : ∀ d, d ≠ b → (s.periodStarted b).rgc.chans.get d = s.rgc.chans.get d := fun d hd => by
    rw [hchans, PerBank_get_set, if_neg hd]
  have hown : (s.periodStarted b).rgc.chans.get b =
      (s.rgc.chans.get b).startPeriod s.rgc.chopper s.cfg.minTime := by
    rw [hchans, PerBank_get_set_self]
  by_cases hgate : ((s.rgc.chans.get b).startPeriod s.rgc.chopper s.cfg.minTime).gate = true
  · have heq : bankPeriod b s = countPulse b (s.periodStarted b) := by
      rw [bankPeriod_eq (.inr hstate) hfin, if_pos (by rw [hgate, hstate]; decide)]
    rw [heq] at hexec
    have hcount := countedPulse (s := s) (u := s.periodStarted b) rfl hg hc rfl
    refine ⟨_, hexec, ?_, ?_, ?_, ?_, countPulse_same b (s.periodStarted b), ?_⟩
    · rw [hcount, hown]
      exact hrow
    · rw [hcount]
      exact hothers
    · rw [hcount, hown, hgate]
      exact nofun
    · rw [hcount]
      exact fun _ => ⟨rfl, rfl⟩
    · have hrest := congrArg (fun v : State => { v with rgc := s.rgc })
        (countPulse_rest b (s.periodStarted b))
      rw [hcount]
      exact hrest
  · have heq : bankPeriod b s = s.periodStarted b := by
      rw [bankPeriod_eq (.inr hstate) hfin, if_neg (by simp [hgate])]
    rw [heq] at hexec
    refine ⟨_, hexec, ?_, hothers, fun _ => ⟨rfl, hg⟩, ?_, fun _ _ => rfl, rfl⟩
    · rw [hown]
      exact hrow
    · rw [hown]
      exact fun h => absurd h hgate

/-- The end of the current bank's test, at its period start or its ON expiry (R140). -/
theorem testFinished_row {c : Instr} (hs : s.isRunning = true) (hg : s.rgc.test = some g)
    (hc : g.current = some b) (hf : g.finishing = true) (hguard : s.cfl.guardOn = true)
    (hbank : s.cfg.bank b = true) (hfree : s.pru.bankEx.get b = false)
    (hstate : (s.rgc.chans.get b).state = .test)
    (hheld : s.ore.grid = some g.cell) (hwaiting : g.waiting.contains b = false)
    (hcmd : c = .channelPeriodStart (.bank b) ∨ c = .onExpiry (.bank b) ∧
      (s.rgc.chans.get b).gate = true ∧ (s.rgc.chans.get b).fullOn = false) :
    ∃ t, exec c s = .next t ∧ BankPassed g b (s.phaseEnded b) t ∧ Keeps false s t ∧
      { t with atc := s.atc, xm := s.xm, ore := s.ore, rgc := s.rgc, draws := s.draws } = s := by
  obtain ⟨hperiod, hexpiry⟩ := finishing_eq hg hc hf hstate
  have hpassed := passBank_passed (s := s.phaseEnded b) (t := passBank b (s.phaseEnded b)) hg hguard
    hbank hfree (by rw [phaseEnded_chan]; exact (ended_fields _).1) hheld hwaiting rfl
  rcases hcmd with rfl | ⟨rfl, hgate, hfull⟩
  · refine ⟨_, exec_bankPeriod hs b, hperiod ▸ hpassed, bankPeriod_keeps (.refl false s) b, ?_⟩
    apply State.eq_of_fields <;> simp
  · refine ⟨_, exec_bankExpiry hs b, hexpiry hgate hfull ▸ hpassed,
      bankExpiry_keeps (.refl false s) b, ?_⟩
    apply State.eq_of_fields <;> simp

/-- A channel's period start outside a test of its own (R135). -/
theorem plainPeriod_row (hs : s.isRunning = true)
    (hstate : (s.rgc.chans.get b).state = .run ∨ (s.rgc.chans.get b).state = .test)
    (hother : ∀ g, s.rgc.test = some g → g.current ≠ some b) :
    exec (.channelPeriodStart (.bank b)) s = .next (s.periodStarted b) := by
  rw [exec_bankPeriod hs, bankPeriod_eq hstate
    (testFinishing_of_other fun g hg h => hother g hg h.1), countPulse_other (s := s.periodStarted b)
    hother, ite_self]

theorem bankExpiry_idle (h : (s.rgc.chans.get b).gate = false ∨ (s.rgc.chans.get b).fullOn = true) :
    bankExpiry b s = s :=
  if_neg (by rcases h with h | h <;> simp [h])

/-- The end of a phase that is not full on. -/
theorem endPhase_of_not_fullOn {c : Chan} (hfull : c.fullOn = false) (n : Nat) : c.endPhase n =
    { c with gate := false, onTime := 0, lastOn := n, onTotal := c.onTotal + n } :=
  congrArg (fun f => { c with gate := false, fullOn := f, onTime := 0, lastOn := n, onTotal := c.onTotal + n })
    hfull.symm

theorem bankExpiry_ends (hgate : (s.rgc.chans.get b).gate = true)
    (hfull : (s.rgc.chans.get b).fullOn = false) (hfin : s.testFinishing b = false) :
    bankExpiry b s = setChan b ((s.rgc.chans.get b).endPhase (s.rgc.chans.get b).onTime) s := by
  unfold bankExpiry
  simp only [hgate, hfull, hfin, Bool.not_false, Bool.and_self, if_true, Bool.false_eq_true, if_false]

/-! ### The blower's channel -/

theorem exec_blowerPeriod (hs : s.isRunning = true) :
    exec (.channelPeriodStart .blower) s = .next (blowerPeriod s) :=
  whenRunning_of_running hs fun s => blowerPeriod s

theorem exec_blowerExpiry (hs : s.isRunning = true) :
    exec (.onExpiry .blower) s = .next (blowerExpiry s) :=
  whenRunning_of_running hs fun s => blowerExpiry s

theorem blowerPeriod_idle (h : s.rgc.blower.state = .off ∨ s.rgc.blower.state = .blocked) :
    blowerPeriod s = { s with rgc := { s.rgc with chopper := s.cfg.chopperPeriod } } := by
  refine if_neg ?_
  show ¬s.rgc.blower.state.works = true
  rcases h with h | h <;> rw [h] <;> decide

theorem blowerPeriod_decides (h : s.rgc.blower.state = .run ∨ s.rgc.blower.state = .test) :
    blowerPeriod s = { s with
      rgc := { s.rgc with
        chopper := s.cfg.chopperPeriod
        blower := s.rgc.blower.startPeriod s.cfg.chopperPeriod s.cfg.minTime } } :=
  if_pos ((works_iff _).2 h)

theorem blowerExpiry_idle (h : s.rgc.blower.gate = false ∨ s.rgc.blower.fullOn = true) :
    blowerExpiry s = s :=
  if_neg (by rcases h with h | h <;> simp [h])

theorem blowerExpiry_ends (hgate : s.rgc.blower.gate = true) (hfull : s.rgc.blower.fullOn = false) :
    blowerExpiry s = s.setRgc { s.rgc with blower := s.rgc.blower.endPhase s.rgc.blower.onTime } :=
  if_pos (by simp [hgate, hfull])

end

/-- Settles O54: the rows of R135, R134 and R136 on a channel, and R140 at the current bank of a
test. -/
theorem channelPeriods : Obligations.ChannelPeriods := by
  refine ⟨fun s b hs => ⟨fun h => ?_, fun hstate hother => ?_, fun g hstate hg hc hf => ?_,
    fun g c hg hc hf hplaced hheld hguard hbank hfree hstate _ _ hwaiting hcmd => ?_, fun h => ?_,
    fun hgate hfull hother => ?_⟩, fun s hs => ⟨fun h => ?_, fun h => ?_, fun h => ?_,
    fun hgate hfull => ?_⟩⟩
  · rw [exec_bankPeriod hs, bankPeriod_idle h]
  · exact ⟨_, startPeriod_row _ _ _, plainPeriod_row hs hstate hother⟩
  · exact testPeriod_row hs hstate hg hc hf
  · obtain ⟨t, hexec, hp, hkeeps, hrest⟩ :=
      testFinished_row hs hg hc hf hguard hbank hfree hstate hheld hwaiting hcmd
    obtain ⟨-, -, -, -, hpulses, htotal, -⟩ := ended_fields (s.rgc.chans.get b)
    rw [← phaseEnded_chan] at hpulses htotal
    exact ⟨t, hexec, hp.result, hp.gate, hp.state, hp.onTotal.trans htotal, hp.pulses.trans hpulses,
      hp.next, hp.last, hkeeps.host hplaced, hrest⟩
  · rw [exec_bankExpiry hs, bankExpiry_idle h]
  · rw [exec_bankExpiry hs, bankExpiry_ends hgate hfull (testFinishing_of_other hother),
      endPhase_of_not_fullOn hfull]
    rfl
  · rw [exec_blowerPeriod hs, blowerPeriod_idle h]
  · exact ⟨_, startPeriod_row _ _ _, by rw [exec_blowerPeriod hs, blowerPeriod_decides h]⟩
  · rw [exec_blowerExpiry hs, blowerExpiry_idle h]
  · rw [exec_blowerExpiry hs, blowerExpiry_ends hgate hfull, endPhase_of_not_fullOn hfull]
    rfl

end Sys2Proof.Machine
end

section
/-! Timer ends of the channels and the calibration (O55), with what the end of a calibration leaves. -/

namespace Sys2Proof.Machine

section
variable {s t u : State} {b c : Bank} {cell : BitVec 6} {r : Result} {shown : CalResult}
  {detail : List Word} {clock : Long} {classes : List Cls}

/-! ### The discharge timer's end (R138) -/

/-- A channel that is judged into OFF or BLOCKED has its gate off, where a driven gate stands in RUN,
and leaves RUN with its duty and shadow at 0. -/
structure Stopped (b : Bank) (s t : State) : Prop where
  gate : ((s.rgc.chans.get b).gate = true → (s.rgc.chans.get b).state = .run) →
    (t.rgc.chans.get b).gate = false
  duty : (s.rgc.chans.get b).state = .run →
    (t.rgc.chans.get b).duty = 0 ∧ (t.rgc.chans.get b).shadow = 0

theorem Stopped.of_same {s' t' : State} (hs : s'.rgc.chans.get b = s.rgc.chans.get b)
    (ht : t'.rgc.chans.get b = t.rgc.chans.get b) (h : Stopped b s t) : Stopped b s' t' :=
  ⟨by rw [hs, ht]; exact h.gate, by rw [hs, ht]; exact h.duty⟩

theorem enter_stopped {st : ChanState} (h : st = .off ∨ st = .blocked) (c : Chan) (duty : Nat) :
    (c.enter st duty).duty = 0 ∧ (c.enter st duty).shadow = 0 := by
  rcases h with rfl | rfl <;> exact ⟨rfl, rfl⟩

theorem cutIfOff_gate {st : ChanState} (h : st = .off ∨ st = .blocked) (b : Bank) (s : State) :
    ((cutIfOff st b s).rgc.chans.get b).gate = false := by
  rcases h with rfl | rfl <;> exact cutPhase_gate b s

theorem judgeChannel_stopped (h : s.chanState b = .off ∨ s.chanState b = .blocked) :
    Stopped b s (judgeChannel b s) := by
  simp only [judgeChannel]
  split
  case isTrue heq =>
    have hne : (s.rgc.chans.get b).state ≠ .run := by
      rw [← heq]
      rcases h with h | h <;> rw [h] <;> decide
    exact ⟨fun hg => Bool.eq_false_iff.2 fun hgate => hne (hg hgate), fun hrun => absurd hrun hne⟩
  case isFalse =>
    have hchan (d : Nat) (u : State) : ((putBankSection b (setChan b ((u.rgc.chans.get b).enter
        (s.chanState b) d) u)).rgc.chans.get b) = (u.rgc.chans.get b).enter (s.chanState b) d := by
      simp [setChan]
    constructor
    · intro _
      rw [hchan, Chan.enter_gate]
      exact cutIfOff_gate h b s
    · intro _
      rw [hchan]
      exact enter_stopped h _ _

theorem judgeChannels_stopped (h : s.chanState b = .off ∨ s.chanState b = .blocked) :
    Stopped b s (judgeChannels s) :=
  forBanks_reaches (f := judgeChannel)
    (A := fun u => u.chanState b = s.chanState b ∧ u.rgc.chans.get b = s.rgc.chans.get b)
    (B := Stopped b s) b
    (fun c hc u ⟨h1, h2⟩ => ⟨((judgeChannel_moves c u).chanState b).trans h1,
      ((judgeChannel_moves c u).others b (by simpa using Ne.symm hc)).trans h2⟩)
    (fun u ⟨h1, h2⟩ => (judgeChannel_stopped (h1 ▸ h)).of_same h2.symm rfl)
    (fun c hc u hu => hu.of_same rfl ((judgeChannel_moves c u).others b (by simpa using Ne.symm hc)))
    ⟨rfl, rfl⟩

/-- A channel that is judged writes no byte but of a configured bank's section. -/
theorem judgeChannel_same (b : Bank) (s : State) :
    SameOutside (if s.cfg.bank b = true then blockRegion (s.wlc.bankBlock.get b) 0 64 else []) s
      (judgeChannel b s) := by
  unfold judgeChannel
  dsimp only
  by_cases hsame : s.chanState b = (s.rgc.chans.get b).state
  · rw [if_pos hsame]
    exact fun _ _ => rfl
  · rw [if_neg hsame]
    have hcut : (cutIfOff (s.chanState b) b s).wlc = s.wlc ∧ (cutIfOff (s.chanState b) b s).cfl = s.cfl ∧
        (cutIfOff (s.chanState b) b s).xm = s.xm := by simp
    obtain ⟨hwlc, hcfl, hxm⟩ := hcut
    generalize cutIfOff (s.chanState b) b s = v at hwlc hcfl hxm
    generalize hw : setChan b ((v.rgc.chans.get b).enter (s.chanState b) v.testDuty) v = w
    have hwwlc : w.wlc = s.wlc := by rw [← hw]; exact hwlc
    have hwcfg : w.cfg = s.cfg := by rw [← hw]; exact congrArg Cfl.active hcfl
    have hwxm : w.xm = s.xm := by rw [← hw]; exact hxm
    rw [← hwcfg, ← hwwlc]
    intro x hx
    rw [← hwxm]
    by_cases hb : w.cfg.bank b = true
    · rw [if_pos hb] at hx
      exact putBankSection_same b w x hx
    · rw [putBankSection, if_neg hb]

theorem judgeChannels_same (s : State) : SameOutside
    (s.cfg.banks.flatMap fun b => blockRegion (s.wlc.bankBlock.get b) 0 64) s (judgeChannels s) := by
  refine forBanks_same (f := judgeChannel) (P := fun u => u.wlc = s.wlc ∧ u.cfl = s.cfl)
    (region := fun b => if s.cfg.bank b = true then blockRegion (s.wlc.bankBlock.get b) 0 64 else [])
    (fun b u ⟨h1, h2⟩ => by simp [h1, h2]) ⟨rfl, rfl⟩ (fun b u ⟨h1, h2⟩ => ?_) fun b r hr => ?_
  · have h := judgeChannel_same b u
    rw [h1, show u.cfg = s.cfg from congrArg Cfl.active h2] at h
    exact h
  · split at hr
    case isTrue hb => exact mem_banks_region hb hr
    case isFalse => cases hr

theorem judgeChannels_rest (s : State) :
    { judgeChannels s with xm := s.xm, draws := s.draws, rgc := s.rgc } = s := by
  apply State.eq_of_fields <;> simp

theorem chansRest_trans (h : { t with xm := s.xm, draws := s.draws, rgc := s.rgc } = s)
    (k : { u with xm := t.xm, draws := t.draws, rgc := t.rgc } = t) :
    { u with xm := s.xm, draws := s.draws, rgc := s.rgc } = s :=
  (congrArg (fun v : State => { v with xm := s.xm, draws := s.draws, rgc := s.rgc }) k).trans h

/-- The state of a channel in TRIPPED, without a test and with no discharge running (R133, R138). -/
theorem chanState_stopped (hmode : s.dmc.mode = .tripped) (htest : s.rgc.test = none)
    (hdis : s.rgc.discharge = none) (b : Bank) : s.chanState b =
      if s.cfl.guardOn = true ∧ s.cfg.bank b = true ∧ s.pru.bankEx.get b = true then .blocked
      else .off := by
  have hcur : s.testCurrent b = false := by simp only [State.testCurrent, htest]
  have hdone : s.testDone b = false := by simp only [State.testDone, htest]
  have hrun : s.channelsRun = false := by
    unfold State.channelsRun
    rw [hmode, hdis]
    rfl
  unfold State.chanState
  rw [hcur, hdone, hrun]
  cases s.cfl.guardOn <;> cases s.cfg.bank b <;> cases s.pru.bankEx.get b <;> rfl

theorem ranOut_some {due : Long} {o : Option Long} (h : o = some due) :
    s.ranOut o = decide ((s.clock - due).toNat < 2 ^ 31) := by
  rw [h]
  rfl

theorem ranOut_false {o : Option Long} (h : ∀ due, o = some due → 2 ^ 31 ≤ (s.clock - due).toNat) :
    s.ranOut o = false := by
  cases o with
  | none => rfl
  | some due =>
    rw [ranOut_some rfl]
    exact decide_eq_false (Nat.not_lt.2 (h due rfl))

theorem undischarged_rest (hrgc : t.rgc = { s.rgc with discharge := none, chans := t.rgc.chans })
    (hrest : { t with xm := s.xm, draws := s.draws, rgc := s.rgc } = s) :
    { t with
      xm := s.xm, draws := s.draws
      rgc := { t.rgc with discharge := s.rgc.discharge, chans := s.rgc.chans } } = s := by
  rw [hrgc]
  exact hrest

theorem discharge_row {due : Long} (hs : s.isRunning = true) (hdue : s.rgc.discharge = some due)
    (hmode : s.dmc.mode = .tripped) (htest : s.rgc.test = none)
    (hreached : (s.clock - due).toNat < 2 ^ 31)
    (hdriven : ∀ b, (s.rgc.chans.get b).gate = true → (s.rgc.chans.get b).state = .run) :
    ∃ t, exec .dischargeExpiry s = .next t ∧ t.rgc.discharge = none ∧
      (∀ b, (t.rgc.chans.get b).gate = false ∧ (t.rgc.chans.get b).state =
        if s.cfl.guardOn = true ∧ s.cfg.bank b = true ∧ s.pru.bankEx.get b = true then .blocked
        else .off) ∧
      (∀ b, (s.rgc.chans.get b).state = .run →
        (t.rgc.chans.get b).duty = 0 ∧ (t.rgc.chans.get b).shadow = 0) ∧
      SameOutside (s.cfg.banks.flatMap fun b => blockRegion (s.wlc.bankBlock.get b) 0 64) s t ∧
      { t with
        xm := s.xm, draws := s.draws
        rgc := { t.rgc with discharge := s.rgc.discharge, chans := s.rgc.chans } } = s := by
  have hexec : exec .dischargeExpiry s = .next (endDischarge s) :=
    whenRunning_acts (p := fun s => s.ranOut s.rgc.discharge) hs
      ((ranOut_some hdue).trans (decide_eq_true hreached))
  generalize hu : s.setRgc { s.rgc with discharge := none } = u
  have heq : endDischarge s = judgeChannels u := by rw [← hu]; rfl
  have hst (b : Bank) : u.chanState b =
      if s.cfl.guardOn = true ∧ s.cfg.bank b = true ∧ s.pru.bankEx.get b = true then .blocked
      else .off := by
    rw [← hu]
    exact chanState_stopped (s := s.setRgc { s.rgc with discharge := none }) hmode htest rfl b
  have hstop (b : Bank) : Stopped b u (judgeChannels u) := judgeChannels_stopped (by
    rw [hst]
    split
    · exact .inr rfl
    · exact .inl rfl)
  have hchans : u.rgc.chans = s.rgc.chans := by rw [← hu]; rfl
  have hm := judgeChannels_moves u
  refine ⟨_, hexec, ?_, fun b => ⟨?_, ?_⟩, fun b hrun => ?_, ?_, ?_⟩ <;> rw [heq]
  · rw [hm.rgc, ← hu]
    rfl
  · exact (hstop b).gate (by rw [hchans]; exact hdriven b)
  · rw [judgeChannels_state]
    exact hst b
  · exact (hstop b).duty (by rw [hchans]; exact hrun)
  · have h := judgeChannels_same u
    rw [← hu] at h ⊢
    exact h
  · refine undischarged_rest ?_ ?_
    · rw [hm.rgc, ← hu]
      rfl
    · exact chansRest_trans (t := u) (by rw [← hu]; rfl) (judgeChannels_rest u)

/-! ### The end of a calibration (R157, R158) -/

theorem StatusOnly.cellEnded (h : StatusOnly s t) (p : s.wlc.placed)
    (hs : s.cellEnded cell r detail clock) : t.cellEnded cell r detail clock :=
  hs.keep fun x h1 h2 => h.bytes p x (by
    have := cell.isLt
    unfold cellBase at h2
    omega)

theorem StatusOnly.raised (h : StatusOnly t u) (p : t.wlc.placed) (hatc : u.atc = t.atc)
    (hs : Raised classes s t) : Raised classes s u :=
  ⟨fun c => by rw [hatc]; exact hs.pending c, by rw [hatc]; exact hs.rest,
    fun k => by rw [h.word p (by omega), hatc]; exact hs.mirror k⟩

/-- A calibration has been ended by the STC, and its order with it. -/
structure CalEnded (r : Result) (shown : CalResult) (detail : List Word) (s t : State) : Prop where
  stc : t.stc = { s.stc with cal := .none, calResult := shown }
  ore : t.ore = { s.ore with steer := none }
  ended : t.cellEnded s.stc.calCell r detail s.clock
  raised : Raised [.orderDone] s t
  rest : { t with atc := s.atc, xm := s.xm, ore := s.ore, stc := s.stc } = s

theorem endCalibration_ends (hheld : s.ore.steer = some s.stc.calCell) :
    CalEnded r shown detail s (endCalibration r shown detail s) := by
  have hheld' : (stopCalibration shown s).ore.inFlight .steer = some s.stc.calCell := hheld
  have h := complete_orderEnded (r := r) (detail := detail) hheld'
  have hore := complete_ore (r := r) (detail := detail) hheld'
  refine ⟨?_, ?_, h.ended, ⟨h.raised.pending, h.raised.rest, h.raised.mirror⟩, ?_⟩
  · simp [endCalibration, stopCalibration]
  · exact hore
  · apply State.eq_of_fields <;> simp

theorem endCalibrationIf_ends (hcal : s.stc.cal ≠ .none) (hheld : s.ore.steer = some s.stc.calCell) :
    CalEnded r shown (s.calDetail 0 s.heldSteer) s (endCalibrationIf true r shown s) := by
  have heq : endCalibrationIf true r shown s = endCalibration r shown (s.calDetail 0 s.heldSteer) s :=
    if_pos (by simpa using hcal)
  rw [heq]
  exact endCalibration_ends hheld

theorem CalEnded.sectionPut (h : CalEnded r shown detail s t) (p : s.wlc.placed) :
    CalEnded r shown detail s (putStcSection t) := by
  have hwlc : t.wlc = s.wlc := by simpa using congrArg State.wlc h.rest
  have hstatus := putStcSection_statusOnly t
  have p' : t.wlc.placed := hwlc ▸ p
  refine ⟨by simp [h.stc], by simp [h.ore], hstatus.cellEnded p' h.ended,
    hstatus.raised p' (by simp) h.raised, ?_⟩
  have hput : { putStcSection t with xm := t.xm } = t := by apply State.eq_of_fields <;> simp
  exact (congrArg (fun v : State => { v with atc := s.atc, xm := s.xm, ore := s.ore, stc := s.stc })
    hput).trans h.rest

theorem heldDetail_eq (s : State) : s.calDetail 0 s.heldSteer =
    if s.wlc.sau.held = .none then [0, 0, 0, natWord (s.clock - s.stc.calStart).toNat]
    else [0, s.wlc.sau.report.flags.setWidth 16, s.wlc.sau.report.field1,
      natWord (s.clock - s.stc.calStart).toNat] := calAbortDetail_eq s

theorem calibrationOver_iff : s.calibrationOver = true ↔
    s.stc.cal ≠ .none ∧ 30000 ≤ (s.clock - s.stc.calStart).toNat := by
  unfold State.calibrationOver State.since
  rw [Bool.and_eq_true, decide_eq_true_iff, bne_iff_ne]

theorem calibration_row (hs : s.isRunning = true) (hcal : s.stc.cal ≠ .none)
    (hover : 30000 ≤ (s.clock - s.stc.calStart).toNat) (hheld : s.ore.steer = some s.stc.calCell)
    (p : s.wlc.placed) : ∃ t, exec .calibrationExpiry s = .next t ∧
      CalEnded .timeout .timeout (s.calDetail 0 s.heldSteer) s t ∧ Keeps false s t := by
  refine ⟨_, whenRunning_acts (f := fun s => putStcSection (endCalibrationIf true .timeout .timeout s))
      (p := State.calibrationOver) hs (calibrationOver_iff.2 ⟨hcal, hover⟩),
    (endCalibrationIf_ends hcal hheld).sectionPut p,
    putStcSection_keeps (endCalibrationIf_keeps (.refl false s) _ _ _)⟩

end

/-- Settles O55: each timer acts once the drive clock has reached its end, and not before. -/
theorem gridTimersExpire : Obligations.GridTimersExpire := by
  intro s hs
  refine ⟨fun due hdue hmode htest hr hd => discharge_row hs hdue hmode htest hr hd,
    fun due hdue hr => ?_, fun h => ?_, fun h => ?_, fun hcal hover hheld p => ?_, fun h => ?_⟩
  · exact whenRunning_acts (p := fun s => s.ranOut s.rgc.pulse) hs
      ((ranOut_some hdue).trans (decide_eq_true hr))
  · exact whenRunning_idle (p := fun s => s.ranOut s.rgc.discharge) hs
      (Bool.not_eq_true _ ▸ ranOut_false h)
  · exact whenRunning_idle (p := fun s => s.ranOut s.rgc.pulse) hs
      (Bool.not_eq_true _ ▸ ranOut_false h)
  · obtain ⟨t, hexec, hended, hkeeps⟩ := calibration_row hs hcal hover hheld p
    have hcell := hended.ended
    rw [heldDetail_eq] at hcell
    exact ⟨t, hexec, hended.stc, hended.ore, hcell, hended.raised, hkeeps.host p, hended.rest⟩
  · refine whenRunning_idle (f := fun s => putStcSection (endCalibrationIf true .timeout .timeout s))
      (p := State.calibrationOver) hs fun hover => ?_
    obtain ⟨hcal, hlate⟩ := calibrationOver_iff.1 hover
    rcases h with h | h
    · exact hcal h
    · exact absurd hlate (Nat.not_le.2 h)

end Sys2Proof.Machine
end

section
/-! What a delivery of the fault table leaves of the exclusion sets, the grid capacity and the grid test,
and the filtered update (O51). -/

namespace Sys2Proof.Machine

section
variable {a s t u : State} {b : Bank}

/-! ### Observations leave the sets and the summary -/

/-- The exclusion sets and the summary of one state are those of another. -/
structure SetsKept (a s : State) : Prop where
  wheels : s.pru.wheelEx = a.pru.wheelEx
  banks : s.pru.bankEx = a.pru.bankEx
  summary : s.pru.summary = a.pru.summary

theorem SetsKept.refl (a : State) : SetsKept a a := ⟨rfl, rfl, rfl⟩

theorem SetsKept.of_pru (h : SetsKept a s) (e : t.pru = s.pru) : SetsKept a t :=
  ⟨by rw [e]; exact h.wheels, by rw [e]; exact h.banks, by rw [e]; exact h.summary⟩

theorem note_sets (h : SetsKept a s) (k : Kind) (subject : Subject) (present : Bool) :
    SetsKept a (note k subject present s) := by
  have e := note_pru k subject present s
  exact ⟨by rw [e]; exact h.wheels, by rw [e]; exact h.banks, by rw [e]; exact h.summary⟩

theorem noteIf_sets (h : SetsKept a s) (c : Bool) (k : Kind) (subject : Subject) (present : Bool) :
    SetsKept a (noteIf c k subject present s) := by
  unfold noteIf
  split
  · exact note_sets h k subject present
  · exact h

theorem observeEscalation_sets (h : SetsKept a s) : SetsKept a (observeEscalation s) :=
  note_sets (note_sets h _ _ _) _ _ _

theorem reportLoss_sets (h : SetsKept a s) (u : UnitId) (present : Bool) :
    SetsKept a (reportLoss u present s) := by
  cases u with
  | wheel w =>
    have k : SetsKept a (s.setPru { s.pru with lossHeld := s.pru.lossHeld.set w present }) :=
      ⟨h.wheels, h.banks, h.summary⟩
    exact note_sets k _ _ _
  | sau => exact note_sets h _ _ _

theorem takeConfigured_sets (h : SetsKept a s) (u : UnitId) : SetsKept a (takeConfigured u s) := by
  simp only [takeConfigured]
  split
  · exact h.of_pru (by simp)
  · split
    · have k : SetsKept a (changeUnit u { (s.wlc.unit u).absent with configured := false } s) :=
        h.of_pru (by simp)
      exact (reportLoss_sets k u false).of_pru (by simp)
    · exact h

theorem setWlc_sets (h : SetsKept a s) (v : Wlc) : SetsKept a (s.setWlc v) :=
  ⟨h.wheels, h.banks, h.summary⟩

theorem beginRollCall_sets (h : SetsKept a s) : SetsKept a (beginRollCall s) := by
  simp only [beginRollCall, forUnits, forWheels]
  have k := takeConfigured_sets (takeConfigured_sets (takeConfigured_sets (takeConfigured_sets
    (takeConfigured_sets h (.wheel .w1)) (.wheel .w2)) (.wheel .w3)) (.wheel .w4)) .sau
  exact setWlc_sets k _

theorem takeRollCall_sets (h : SetsKept a s) : SetsKept a (takeRollCall s) := by
  simp only [takeRollCall]
  split
  · exact beginRollCall_sets h
  · exact h

theorem startRollCall_sets (h : SetsKept a s) : SetsKept a (startRollCall s) := by
  simp only [startRollCall]
  exact takeRollCall_sets (h.of_pru (by simp))

theorem standbyToStarting_sets (h : SetsKept a s) : SetsKept a (standbyToStarting s) := by
  simp only [standbyToStarting, enterEnroll]
  exact startRollCall_sets (h.of_pru (by simp))

theorem severityChange_sets (h : SetsKept a s) : SetsKept a (severityChange s) := by
  unfold severityChange
  split
  · exact h.of_pru (by simp)
  · exact h.of_pru (by simp)
  · exact h.of_pru (by simp)
  · exact h.of_pru (by simp)
  · exact h.of_pru (by simp)
  · split
    · exact h.of_pru (by simp)
    · exact standbyToStarting_sets h
  · exact h

/-! ### The grid capacity and a grid test that is not running -/

/-- The grid capacity and the cause ENVELOPE stay, and no grid test begins. -/
structure GridKept (a s : State) : Prop where
  capacity : s.rgc.capacity = a.rgc.capacity
  envelope : s.rgc.causes.envelope = a.rgc.causes.envelope
  test : a.rgc.test = none → s.rgc.test = none

theorem GridKept.refl (a : State) : GridKept a a := ⟨rfl, rfl, id⟩

theorem GridKept.of_fields (h : GridKept a s) (hc : t.rgc.capacity = s.rgc.capacity)
    (he : t.rgc.causes.envelope = s.rgc.causes.envelope) (ht : t.rgc.test = s.rgc.test) :
    GridKept a t :=
  ⟨hc.trans h.capacity, he.trans h.envelope, fun k => ht.trans (h.test k)⟩

theorem GridKept.of_rgc (h : GridKept a s) (e : t.rgc = s.rgc) : GridKept a t :=
  h.of_fields (by rw [e]) (by rw [e]) (by rw [e])

theorem GridKept.of_moves {on : Bank → Bool} (h : GridKept a s) (m : ChansMove on s t) : GridKept a t :=
  h.of_fields (by rw [m.rgc]) (by rw [m.rgc]) (by rw [m.rgc])

theorem judgeChannels_grid (h : GridKept a s) : GridKept a (judgeChannels s) :=
  h.of_moves (judgeChannels_moves s)

theorem changeCauses_grid (h : GridKept a s) {c : Causes} (hc : c.envelope = s.rgc.causes.envelope) :
    GridKept a (changeCauses c s) :=
  h.of_fields (by rw [changeCauses_rgc]) (by rw [changeCauses_rgc]; exact hc) (by rw [changeCauses_rgc])

theorem cutPhase_grid (h : GridKept a s) (b : Bank) : GridKept a (cutPhase b s) :=
  h.of_moves (cutPhase_moves b s)

theorem showTest_grid (h : GridKept a s) (b : Bank) (f : BankShow → BankShow) :
    GridKept a (showTest b f s) :=
  h.of_fields (by rw [showTest_rgc]) (by rw [showTest_rgc]) (by rw [showTest_rgc])

theorem setTest_grid (h : GridKept a s) : GridKept a (setTest none s) :=
  ⟨h.capacity, h.envelope, fun _ => rfl⟩

theorem stopTest_grid (h : GridKept a s) : GridKept a (stopTest s) := by
  unfold stopTest
  cases ht : s.rgc.test with
  | none => exact h
  | some g =>
    dsimp only
    cases g.current with
    | none => exact judgeChannels_grid (setTest_grid h)
    | some b => exact judgeChannels_grid (setTest_grid (cutPhase_grid (showTest_grid h b _) b))

theorem abortTestIf_grid (h : GridKept a s) (c : Bool) : GridKept a (abortTestIf c s) := by
  unfold abortTestIf
  cases ht : s.rgc.test with
  | none => exact h
  | some g =>
    dsimp only
    split
    · exact (stopTest_grid h).of_rgc (by simp)
    · exact h

theorem startDischarge_grid (h : GridKept a s) : GridKept a (startDischarge s) := h.of_fields rfl rfl rfl

theorem recomputeBlower_grid (h : GridKept a s) : GridKept a (recomputeBlower s) := h.of_fields rfl rfl rfl

theorem modeCauses_envelope (s : State) : s.modeCauses.envelope = s.rgc.causes.envelope := rfl

theorem rgcModeChange_grid (h : GridKept a s) : GridKept a (rgcModeChange s) := by
  simp only [rgcModeChange, runAll]
  exact changeCauses_grid (recomputeBlower_grid (judgeChannels_grid (abortTestIf_grid
    (startDischarge_grid h) _))) (modeCauses_envelope _)

theorem announceSubstate_grid (h : GridKept a s) : GridKept a (announceSubstate s) := by
  simp only [announceSubstate, runAll]
  have k : GridKept a (tcuSubstateChange s) := h.of_rgc (by simp)
  have k' : GridKept a (rgcSubstateChange (tcuSubstateChange s)) := recomputeBlower_grid k
  exact k'.of_rgc (by simp)

theorem setSubstate_grid (h : GridKept a s) (sub : Substate) (target : Target) :
    GridKept a (setSubstate sub target s) := by
  unfold setSubstate
  split
  · exact h
  · have k : GridKept a (s.setDmc { s.dmc with substate := sub, target := target }) := ⟨h.capacity, h.envelope, h.test⟩
    exact announceSubstate_grid k

theorem endChangeover_grid (h : GridKept a s) : GridKept a (endChangeover s) := by
  unfold endChangeover
  split
  · exact setSubstate_grid h _ _
  · exact h

theorem formAndMove_grid (h : GridKept a s) : GridKept a (formAndMove s) := by
  have k : GridKept a (formDemands s) := ⟨h.capacity, h.envelope, h.test⟩
  exact endChangeover_grid (setSubstate_grid k _ _)

theorem informUnits_grid (h : GridKept a s) : GridKept a (wlcModeChange (stcModeChange s)) :=
  h.of_rgc (by simp)

theorem changeMode_grid (h : GridKept a s) (m : Mode) (f : Dmc → Dmc) :
    GridKept a (changeMode m f s) := by
  simp only [changeMode, runAll]
  refine informUnits_grid (rgcModeChange_grid ?_)
  split
  · exact h.of_rgc (by simp)
  · exact announceSubstate_grid (h.of_rgc (by simp))

theorem enterTripped_grid (h : GridKept a s) : GridKept a (enterTripped s) :=
  (changeMode_grid h .tripped fun d => { d.atRest with credit := false }).of_rgc
    (by simp [enterTripped])

theorem enterSafeStop_grid (h : GridKept a s) : GridKept a (enterSafeStop s) :=
  formAndMove_grid (changeMode_grid h .safeStop fun d => { d with pendingDir := none, stopTime := 0 })

theorem standbyToStarting_grid (h : GridKept a s) : GridKept a (standbyToStarting s) :=
  (changeMode_grid h .starting fun d => d.atRest).of_rgc (by simp [standbyToStarting])

theorem severityChange_grid (h : GridKept a s) : GridKept a (severityChange s) := by
  unfold severityChange
  split
  · exact enterSafeStop_grid h
  · exact enterSafeStop_grid h
  · exact enterTripped_grid h
  · exact enterTripped_grid h
  · exact enterTripped_grid h
  · split
    · exact enterTripped_grid h
    · exact standbyToStarting_grid h
  · exact h

theorem skipWaiting_grid (h : GridKept a s) (b : Bank) : GridKept a (skipWaiting b s) := by
  unfold skipWaiting
  cases ht : s.rgc.test with
  | none => exact h
  | some g =>
    dsimp only
    split
    · refine ⟨?_, ?_, fun k => absurd (h.test k) (by simp [ht])⟩ <;> rw [showTest_rgc]
      · exact h.capacity
      · exact h.envelope
    · exact h

theorem nextBank_kept (s : State) : (nextBank s).rgc.capacity = s.rgc.capacity ∧
    (nextBank s).rgc.causes = s.rgc.causes := by
  cases ht : s.rgc.test with
  | none =>
    simp only [nextBank, ht]
    exact ⟨trivial, trivial⟩
  | some g =>
    cases hw : g.waiting with
    | nil =>
      have e : (nextBank s).rgc = (judgeChannels (setTest none s)).rgc := by
        rw [nextBank_none ht hw]
        simp
      rw [e, (judgeChannels_moves (setTest none s)).rgc]
      exact ⟨rfl, rfl⟩
    | cons d rest =>
      rw [nextBank_some ht hw, (judgeChannel_moves d (s.nextShown g d rest)).rgc, nextShown_rgc]
      exact ⟨rfl, rfl⟩

theorem skipCurrent_grid (h : GridKept a s) : GridKept a (skipCurrent s) := by
  unfold skipCurrent
  cases ht : s.rgc.test with
  | none => exact h
  | some g =>
    dsimp only
    cases hc : g.current with
    | none => exact h
    | some b =>
      dsimp only
      split
      · refine ⟨?_, ?_, fun k => absurd (h.test k) (by simp [ht])⟩
        · rw [(nextBank_kept _).1, (judgeChannel_moves b _).rgc, showTest_rgc]
          exact h.capacity
        · rw [(nextBank_kept _).2, (judgeChannel_moves b _).rgc, showTest_rgc]
          exact h.envelope
      · exact h

theorem followBanks_grid (h : GridKept a s) (before : PerBank Bool) :
    GridKept a (followBanks before s) := by
  have step : ∀ b s, GridKept a s →
      GridKept a (if s.pru.bankEx.get b && !before.get b then skipWaiting b s else s) := by
    intro b s h
    split
    · exact skipWaiting_grid h b
    · exact h
  have k : GridKept a (sortRotation s) := ⟨h.capacity, h.envelope, h.test⟩
  simp only [followBanks, runAll, forBanks]
  exact judgeChannels_grid (skipCurrent_grid (step .b6 _ (step .b5 _ (step .b4 _ (step .b3 _
    (step .b2 _ (step .b1 _ k)))))))

/-! ### The deliveries -/

theorem rgcExclusion_test (h : s.rgc.test = none) (before : PerBank Bool) :
    (rgcExclusion before s).rgc.test = none := by
  have k : (if s.pru.bankEx = before then s else followBanks before s).rgc.test = none := by
    split
    · exact h
    · exact (followBanks_grid (.refl s) before).test h
  exact k

theorem deliverSets_test (h : s.rgc.test = none) : (deliverSets s).rgc.test = none := by
  simp only [deliverSets, observeEscalation_frame]
  split
  · simpa using h
  · exact rgcExclusion_test (by simpa using h) _

theorem announceSummary_grid (h : GridKept a s) : GridKept a (announceSummary s) := h.of_rgc (by simp)

theorem deliverSummary_grid (h : GridKept a s) : GridKept a (deliverSummary s) := by
  have k : GridKept a (updatePru { s.pru with summary := formSummary s.pru.entries } s) :=
    h.of_rgc (by simp)
  exact severityChange_grid (announceSummary_grid k)

theorem deliver_test (h : s.rgc.test = none) : (deliver s).rgc.test = none := by
  simp only [deliver]
  split
  · split
    · exact h
    · exact (deliverSummary_grid (.refl s)).test h
  · exact deliverSets_test h

/-- What every delivery keeps, the settled state keeps. -/
theorem settle_of_deliver {P : State → Prop} (hd : ∀ s, P s → P (deliver s)) (h : P s) : P (settle s) := by
  have key : ∀ n (t : State), P t → P (settleBy n t) := by
    intro n
    induction n with
    | zero => exact fun _ h => h
    | succ n ih =>
      intro t h
      simp only [settleBy]
      split
      · exact h
      · exact ih _ (hd _ h)
  exact key 16 s h

/-- No delivery begins a grid test. -/
theorem settle_test (h : s.rgc.test = none) : (settle s).rgc.test = none :=
  settle_of_deliver (P := fun s => s.rgc.test = none) (fun _ => deliver_test) h

theorem rgcExclusion_envelope (before : PerBank Bool) (s : State) :
    (rgcExclusion before s).rgc.causes.envelope = s.rgc.causes.envelope := by
  have k : (if s.pru.bankEx = before then s else followBanks before s).rgc.causes.envelope =
      s.rgc.causes.envelope := by
    split
    · rfl
    · exact (followBanks_grid (.refl s) before).envelope
  exact k

theorem deliver_envelope (s : State) : (deliver s).rgc.causes.envelope = s.rgc.causes.envelope := by
  simp only [deliver]
  split
  · split
    · rfl
    · exact (deliverSummary_grid (.refl s)).envelope
  · simp only [deliverSets, observeEscalation_frame]
    split
    · simp
    · rw [rgcExclusion_envelope]
      simp

/-- No delivery moves the cause ENVELOPE. -/
theorem settle_envelope (s : State) : (settle s).rgc.causes.envelope = s.rgc.causes.envelope :=
  settle_of_deliver (P := fun t => t.rgc.causes.envelope = s.rgc.causes.envelope)
    (fun t h => (deliver_envelope t).trans h) rfl

/-- The grid capacity is the one of R123. -/
def State.capacityFormed (s : State) : Prop := s.rgc.capacity = s.gridCapacity

theorem gridCapacity_congr (hcfg : t.cfg = s.cfg) (hd : t.lmu.derates = s.lmu.derates)
    (hb : t.pru.bankEx = s.pru.bankEx) : t.gridCapacity = s.gridCapacity := by
  unfold State.gridCapacity State.bankServes bankCapacity Lmu.dBank Lmu.leastFactor
  simp only [hcfg, hd, hb]

theorem Steady.derates (h : Steady true a s) : s.lmu.derates = a.lmu.derates := by
  simpa [Lmu.firm] using congrArg Lmu.derates (h.lmu rfl)

theorem deliverSummary_capacity (h : s.capacityFormed) (hs : Steady true s (deliverSummary s)) :
    (deliverSummary s).capacityFormed := by
  have hsets : SetsKept (updatePru { s.pru with summary := formSummary s.pru.entries } s)
      (deliverSummary s) := severityChange_sets ((SetsKept.refl _).of_pru (by simp))
  have hbanks : (deliverSummary s).pru.bankEx = s.pru.bankEx := by
    rw [hsets.banks, updatePru_pru]
  exact (deliverSummary_grid (.refl s)).capacity.trans
    (h.trans (gridCapacity_congr hs.cfg hs.derates hbanks).symm)

theorem observeEscalation_capacity (h : s.capacityFormed) : (observeEscalation s).capacityFormed := by
  have hb := (observeEscalation_sets (.refl s)).banks
  have hr : (observeEscalation s).rgc = s.rgc := by simp
  have hc : (observeEscalation s).cfl = s.cfl := by simp
  unfold State.capacityFormed
  rw [hr, gridCapacity_congr (congrArg Cfl.active hc) (by simp) hb]
  exact h

theorem recomputeCapacity_formed (s : State) : (recomputeCapacity s).capacityFormed := rfl

theorem deliverSets_capacity (h : s.capacityFormed) : (deliverSets s).capacityFormed := by
  simp only [deliverSets]
  apply observeEscalation_capacity
  split
  case isTrue hsame =>
    have hc : (updatePru { s.pru with
      wheelEx := formWheelEx s.pru.entries, bankEx := formBankEx s.pru.entries } s).cfl = s.cfl := by simp
    unfold State.capacityFormed
    have hr : (updatePru { s.pru with
      wheelEx := formWheelEx s.pru.entries, bankEx := formBankEx s.pru.entries } s).rgc = s.rgc := by simp
    rw [gridCapacity_congr (congrArg Cfl.active hc) (by simp) hsame.2, hr]
    exact h
  case isFalse => exact recomputeCapacity_formed _

theorem deliver_capacity (h : s.capacityFormed) : (deliver s).capacityFormed := by
  have hs : Steady true s (deliver s) := deliver_steady (.refl true s)
  unfold deliver at hs ⊢
  by_cases h1 : s.setsFormed = true
  · rw [if_pos h1] at hs ⊢
    by_cases h2 : s.summaryFormed = true
    · rw [if_pos h2]
      exact h
    · rw [if_neg h2] at hs ⊢
      exact deliverSummary_capacity h hs
  · rw [if_neg h1]
    exact deliverSets_capacity h

/-- The deliveries keep the grid capacity formed (R123). -/
theorem settle_capacity (h : s.capacityFormed) : (settle s).capacityFormed :=
  settle_of_deliver (P := State.capacityFormed) (fun _ => deliver_capacity) h

end
end Sys2Proof.Machine
end

section
/-! The filtered update (O51): the LMU's judgement of the link, LINK_OVERVOLT and the running grid test. -/

namespace Sys2Proof.Machine

section
variable {a s t u : State} {b : Bank} {g : GridTest} {k j : Kind} {subject : Subject} {present : Bool}
  {source : DSource} {target : DTarget} {factor : Nat} {clock : Long} {ds : List Derate} {v : Nat}

/-! ### What a post leaves of the least factors (R84, R123, R171) -/

theorem postEntry_filter {p : Derate → Bool} (hp : ∀ d : Derate, d.target = target → p d = false) :
    (postEntry clock source target factor ds).1.filter p = ds.filter p := by
  induction ds with
  | nil =>
    unfold postEntry
    split
    · rw [List.filter_cons_of_neg (by rw [hp _ rfl]; exact Bool.false_ne_true)]
    · rfl
  | cons d ds ih =>
    unfold postEntry
    by_cases h : d.source = source ∧ d.target = target
    · have hd : ¬p d = true := by rw [hp d h.2]; exact Bool.false_ne_true
      rw [if_pos h, List.filter_cons_of_neg hd]
      split
      · rfl
      · split
        · exact List.filter_cons_of_neg hd
        · refine List.filter_cons_of_neg ?_
          rw [hp { d with factor := factor, changed := clock } h.2]
          exact Bool.false_ne_true
    · rw [if_neg h, List.filter_cons, List.filter_cons, ih]

theorem leastFactor_filter (l : Lmu) (p : Derate → Bool) :
    l.leastFactor p = (l.derates.filter p).foldr (fun d a => min d.factor a) 1000 := by
  unfold Lmu.leastFactor
  induction l.derates with
  | nil => rfl
  | cons d ds ih =>
    rw [List.foldr_cons, List.filter_cons, ih]
    split <;> rfl

theorem leastFactor_congr {l m : Lmu} {p : Derate → Bool} (h : m.derates.filter p = l.derates.filter p) :
    m.leastFactor p = l.leastFactor p := by
  rw [leastFactor_filter, leastFactor_filter, h]

/-- A post for the wheels leaves every D_bank (R123). -/
theorem post_dBank (h : ∀ b, target ≠ .bank b ∧ target ≠ .allBanks) (b : Bank) :
    (post source target factor s).lmu.dBank b = s.lmu.dBank b := by
  refine leastFactor_congr ?_
  rw [post_derates]
  refine postEntry_filter fun d hd => ?_
  rw [hd]
  simp [(h b).1, (h b).2]

theorem dBank_of_derates {l m : Lmu} (h : m.derates = l.derates) (b : Bank) : m.dBank b = l.dBank b := by
  refine leastFactor_congr ?_
  rw [h]

/-! ### Observations that leave the table -/

theorem observeEntries_none {c : Params} {es : List Entry}
    (h : ∀ e ∈ es, ¬(e.kind = k ∧ e.subject = subject)) :
    observeEntries c clock k subject false es = (es, false) := by
  induction es with
  | nil => rfl
  | cons e es ih =>
    have he := h e List.mem_cons_self
    have hes := ih fun f hf => h f (List.mem_cons_of_mem _ hf)
    unfold observeEntries
    rw [if_neg he, hes]

/-- An absent observation of a pair that the table does not hold does nothing (R176). -/
theorem note_absent_of_noEntry (h : s.pru.noEntry k subject) : note k subject false s = s := by
  unfold note
  rw [observeEntries_none h]
  dsimp only
  rw [show updatePru { s.pru with entries := s.pru.entries } s = s from updatePru_self s]
  rfl

/-! ### The judgement of LINK_UNDERVOLT (R170) -/

/-- What a judgement makes of the undervolt condition and its counts. -/
structure UndervoltJudged (vF vMin : Nat) (l m : Lmu) : Prop where
  counts : l.undervolt = false →
    m.undervoltCount = (if vF < vMin then min 25 (l.undervoltCount + 1) else 0) ∧
    m.undervolt = decide (vF < vMin ∧ 25 ≤ l.undervoltCount + 1)
  clears : l.undervolt = true →
    m.undervoltClear = (if vMin ≤ vF then min 25 (l.undervoltClear + 1) else 0) ∧
    m.undervolt = !decide (vMin ≤ vF ∧ 25 ≤ l.undervoltClear + 1)

theorem setUndervolt_lmu (s : State) : (setUndervolt s).lmu =
    { s.lmu with undervolt := true, undervoltCount := 25, undervoltClear := 0 } := by simp [setUndervolt]

theorem clearUndervolt_lmu (s : State) : (clearUndervolt s).lmu =
    { s.lmu with undervolt := false, undervoltClear := 25, undervoltCount := 0 } := by
  simp [clearUndervolt]

theorem judgeUndervolt_judged (v : Nat) (s : State) :
    UndervoltJudged v s.cfg.vMin s.lmu (judgeUndervolt v s).lmu := by
  unfold judgeUndervolt
  by_cases hu : s.lmu.undervolt = true
  · rw [if_pos hu]
    refine ⟨fun h => absurd (hu.symm.trans h) nofun, fun _ => ?_⟩
    by_cases hv : s.cfg.vMin ≤ v
    · rw [if_pos hv, if_pos hv]
      by_cases hc : 25 ≤ s.lmu.undervoltClear + 1
      · rw [if_pos hc, clearUndervolt_lmu]
        exact ⟨(Nat.min_eq_left hc).symm, by simp [hv, hc]⟩
      · rw [if_neg hc]
        exact ⟨(Nat.min_eq_right (Nat.le_of_not_ge hc)).symm, by simp [hc, hu]⟩
    · rw [if_neg hv, if_neg hv]
      exact ⟨rfl, by simp [hv, hu]⟩
  · have hu' : s.lmu.undervolt = false := by simpa using hu
    rw [if_neg hu]
    refine ⟨fun _ => ?_, fun h => absurd h hu⟩
    by_cases hv : v < s.cfg.vMin
    · rw [if_pos hv, if_pos hv]
      by_cases hc : 25 ≤ s.lmu.undervoltCount + 1
      · rw [if_pos hc, setUndervolt_lmu]
        exact ⟨(Nat.min_eq_left hc).symm, by simp [hv, hc]⟩
      · rw [if_neg hc]
        exact ⟨(Nat.min_eq_right (Nat.le_of_not_ge hc)).symm, by simp [hc, hu']⟩
    · rw [if_neg hv, if_neg hv]
      exact ⟨rfl, by simp [hv, hu']⟩

theorem judgeUndervolt_derates (v : Nat) (s : State) :
    (judgeUndervolt v s).lmu.derates = s.lmu.derates := by
  unfold judgeUndervolt
  dsimp only
  repeat' split
  all_goals simp [setUndervolt, clearUndervolt]

/-- A judgement either leaves the condition and the table, or observes the condition that it moved. -/
theorem judgeUndervolt_cases (v : Nat) (s : State) :
    ((judgeUndervolt v s).lmu.undervolt = s.lmu.undervolt ∧ (judgeUndervolt v s).pru = s.pru) ∨
      (judgeUndervolt v s).lmu.undervolt ≠ s.lmu.undervolt ∧ ∃ w : State, w.pru = s.pru ∧
        judgeUndervolt v s = note .linkUndervolt .global (judgeUndervolt v s).lmu.undervolt w := by
  unfold judgeUndervolt
  dsimp only
  split
  case isTrue hu =>
    split
    · split
      · refine .inr ⟨by rw [clearUndervolt_lmu, hu]; exact Bool.false_ne_true, s.setLmu { s.lmu with
          undervolt := false, undervoltClear := 25, undervoltCount := 0 }, rfl, ?_⟩
        rw [clearUndervolt_lmu]
        rfl
      · exact .inl ⟨rfl, rfl⟩
    · exact .inl ⟨rfl, rfl⟩
  case isFalse hu =>
    split
    · split
      · refine .inr ⟨by rw [setUndervolt_lmu]; exact Ne.symm hu, s.setLmu { s.lmu with
          undervolt := true, undervoltCount := 25, undervoltClear := 0 }, rfl, ?_⟩
        rw [setUndervolt_lmu]
        rfl
      · exact .inl ⟨rfl, rfl⟩
    · exact .inl ⟨rfl, rfl⟩

theorem linkFactor_le (c : Params) (v : Nat) : c.linkFactor v ≤ 1000 := by
  unfold Params.linkFactor
  split
  · exact Nat.le_refl _
  · split
    · exact Nat.zero_le _
    · rename_i h1 h2
      have hpos : 0 < c.vLow - c.vMin := by omega
      have : (v - c.vMin) * 1000 ≤ 1000 * (c.vLow - c.vMin) := by
        rw [Nat.mul_comm]
        exact Nat.mul_le_mul_left _ (by omega)
      exact Nat.div_le_of_le_mul (by omega)

/-! ### The LMU at a filtered update (R170) -/

theorem putLmuSection_lmu (s : State) : (putLmuSection s).lmu = s.lmu := by simp

theorem putLmuSection_pru (s : State) : (putLmuSection s).pru = s.pru := by simp

theorem lmuLink_off (h : s.cfl.guardOn = false) : lmuLink s = putLmuSection s := by
  unfold lmuLink
  simp only [h, Bool.false_eq_true, if_false]

theorem lmuLink_judged (h : s.cfl.guardOn = true) (hm : s.dmc.mode.working = true) : lmuLink s =
    putLmuSection (judgeUndervolt s.rgc.vF (post .linkLow .allWheels (s.cfg.linkFactor s.rgc.vF) s)) := by
  unfold lmuLink
  simp only [h, hm, if_true]

theorem lmuLink_rests (h : s.cfl.guardOn = true) (hm : s.dmc.mode.working = false) : lmuLink s =
    putLmuSection (restLink s) := by
  unfold lmuLink
  simp only [h, hm, if_true, Bool.false_eq_true, if_false]

theorem post_pru (source : DSource) (target : DTarget) (factor : Nat) (s : State) :
    (post source target factor s).pru = s.pru := by simp

theorem post_undervolt (source : DSource) (target : DTarget) (factor : Nat) (s : State) :
    (post source target factor s).lmu.undervolt = s.lmu.undervolt := by rw [post_derates]

theorem restLink_spec (s : State) : (restLink s).lmu = { (post .linkLow .allWheels 1000 s).lmu with
      undervolt := false, undervoltCount := 0, undervoltClear := 0 } ∧
    (s.lmu.undervolt = false → (restLink s).pru = s.pru) ∧
    (s.lmu.undervolt = true → ∃ w : State, w.pru = s.pru ∧
      (restLink s).pru = (note .linkUndervolt .global false w).pru) := by
  unfold restLink
  refine ⟨by simp, fun h => ?_, fun h => ⟨(post .linkLow .allWheels 1000 s).setLmu
    { (post .linkLow .allWheels 1000 s).lmu with
      undervolt := false, undervoltCount := 0, undervoltClear := 0 }, ?_, ?_⟩⟩
  · simp [noteIf, h]
  · exact post_pru _ _ _ s
  · simp only [noteIf, h, if_true]

/-- The table after the LMU's judgement: as it was while the condition stays, and else with the
observation of LINK_UNDERVOLT as it then stands. -/
structure LinkReported (s t : State) : Prop where
  ok : s.pru.ok → t.pru.ok
  observed : s.pru.ok → t.lmu.undervolt ≠ s.lmu.undervolt →
    t.pru.observed .linkUndervolt .global t.lmu.undervolt
  others : t.pru.entries.filter (fun e => e.kind == .linkOvervolt) =
    s.pru.entries.filter (fun e => e.kind == .linkOvervolt)
  same : t.lmu.undervolt = s.lmu.undervolt → t.pru = s.pru

theorem LinkReported.of_same (h : t.pru = s.pru) (hu : t.lmu.undervolt = s.lmu.undervolt) :
    LinkReported s t :=
  ⟨fun k => by rw [h]; exact k, fun _ hne => absurd hu hne, by rw [h], fun _ => h⟩

theorem LinkReported.of_note {w : State} (hw : w.pru = s.pru)
    (h : t.pru = (note .linkUndervolt .global t.lmu.undervolt w).pru)
    (hne : t.lmu.undervolt ≠ s.lmu.undervolt) : LinkReported s t := by
  refine ⟨fun k => ?_, fun k _ => ?_, ?_, fun e => absurd e hne⟩
  · rw [h]
    exact note_ok (hw ▸ k) _ _ _
  · rw [h]
    exact note_observed (hw ▸ k) _ _ _
  · rw [h, note_others (by decide), hw]

theorem lmuLink_reported (s : State) : LinkReported s (lmuLink s) := by
  by_cases hg : s.cfl.guardOn = true
  · by_cases hm : s.dmc.mode.working = true
    · rw [lmuLink_judged hg hm]
      generalize hp : post .linkLow .allWheels (s.cfg.linkFactor s.rgc.vF) s = p
      have hpru : p.pru = s.pru := by rw [← hp]; exact post_pru _ _ _ s
      have hund : p.lmu.undervolt = s.lmu.undervolt := by rw [← hp]; exact post_undervolt _ _ _ s
      rcases judgeUndervolt_cases s.rgc.vF p with ⟨h1, h2⟩ | ⟨hmoved, w, hw, hn⟩
      · exact .of_same ((putLmuSection_pru _).trans (h2.trans hpru))
          (by rw [putLmuSection_lmu, h1, hund])
      · refine .of_note (hw.trans hpru) ?_ (by rw [putLmuSection_lmu, ← hund]; exact hmoved)
        rw [putLmuSection_pru, putLmuSection_lmu, ← hn]
    · have hm' : s.dmc.mode.working = false := by simpa using hm
      rw [lmuLink_rests hg hm']
      obtain ⟨hl, hf, ht⟩ := restLink_spec s
      have hund : (putLmuSection (restLink s)).lmu.undervolt = false := by rw [putLmuSection_lmu, hl]
      by_cases hu : s.lmu.undervolt = true
      · obtain ⟨w, hw, hn⟩ := ht hu
        refine .of_note hw ?_ (by rw [hund, hu]; decide)
        rw [hund, putLmuSection_pru, hn]
      · have hu' : s.lmu.undervolt = false := by simpa using hu
        exact .of_same ((putLmuSection_pru _).trans (hf hu')) (by rw [hund, hu'])
  · have hg' : s.cfl.guardOn = false := by simpa using hg
    rw [lmuLink_off hg']
    exact .of_same (putLmuSection_pru s) (by rw [putLmuSection_lmu])

theorem post_linkLow (hok : s.lmu.ok) (h : factor ≤ 1000) :
    (post .linkLow .allWheels factor s).lmu.factorOf .linkLow .allWheels = factor := by
  rw [post_factor hok, Nat.min_eq_left h]

theorem factorOf_of_derates {l m : Lmu} (h : m.derates = l.derates) (source : DSource)
    (target : DTarget) : m.factorOf source target = l.factorOf source target := by
  rw [factorOf_eq, factorOf_eq, h]

theorem lmuLink_dBank (s : State) (b : Bank) : (lmuLink s).lmu.dBank b = s.lmu.dBank b := by
  have hpost : ∀ n, (post .linkLow .allWheels n s).lmu.dBank b = s.lmu.dBank b := fun n =>
    post_dBank (target := .allWheels) (fun _ => ⟨by simp, by simp⟩) b
  by_cases hg : s.cfl.guardOn = true
  · by_cases hm : s.dmc.mode.working = true
    · rw [lmuLink_judged hg hm, putLmuSection_lmu, dBank_of_derates (judgeUndervolt_derates _ _), hpost]
    · rw [lmuLink_rests hg (by simpa using hm), putLmuSection_lmu, (restLink_spec s).1]
      exact hpost 1000
  · rw [lmuLink_off (by simpa using hg), putLmuSection_lmu]

/-- The LMU's state after a filtered update of a link that is expected to be held up. -/
theorem lmuLink_judges (hok : s.lmu.ok) (hg : s.cfl.guardOn = true) (hm : s.dmc.mode.working = true) :
    (lmuLink s).lmu.factorOf .linkLow .allWheels = s.cfg.linkFactor s.rgc.vF ∧
      UndervoltJudged s.rgc.vF s.cfg.vMin s.lmu (lmuLink s).lmu := by
  rw [lmuLink_judged hg hm, putLmuSection_lmu,
    factorOf_of_derates (judgeUndervolt_derates _ _), post_linkLow hok (linkFactor_le _ _)]
  refine ⟨rfl, ?_⟩
  have hj := judgeUndervolt_judged s.rgc.vF (post .linkLow .allWheels (s.cfg.linkFactor s.rgc.vF) s)
  rw [post_derates] at hj
  have hcfg : (post .linkLow .allWheels (s.cfg.linkFactor s.rgc.vF) s).cfg = s.cfg :=
    congrArg Cfl.active (by simp)
  rw [hcfg] at hj
  exact ⟨hj.counts, hj.clears⟩

theorem lmuLink_restored (hok : s.lmu.ok) (hg : s.cfl.guardOn = true) (hm : s.dmc.mode.working = false) :
    (lmuLink s).lmu.factorOf .linkLow .allWheels = 1000 ∧ (lmuLink s).lmu.undervolt = false ∧
      (lmuLink s).lmu.undervoltCount = 0 ∧ (lmuLink s).lmu.undervoltClear = 0 := by
  rw [lmuLink_rests hg hm, putLmuSection_lmu, (restLink_spec s).1]
  exact ⟨post_linkLow hok (Nat.le_refl _), rfl, rfl, rfl⟩

/-! ### LINK_OVERVOLT (R175) -/

/-- The entry with its progress counts at 0 where it is of the kind. -/
def Entry.progressCleared (k : Kind) (e : Entry) : Entry :=
  if e.kind = k then { e with setProgress := 0, clearProgress := 0 } else e

theorem progressCleared_kept (k : Kind) (e : Entry) : (e.progressCleared k).kind = e.kind ∧
    (e.progressCleared k).subject = e.subject ∧ (e.progressCleared k).state = e.state ∧
    (e.progressCleared k).action = e.action := by
  unfold Entry.progressCleared
  split <;> exact ⟨rfl, rfl, rfl, rfl⟩

theorem clearProgressOf_pru (k : Kind) (s : State) : (clearProgressOf k s).pru =
    { s.pru with entries := s.pru.entries.map (Entry.progressCleared k) } := updatePru_pru _ s

theorem clearProgress_own (k : Kind) (es : List Entry) :
    (es.map (Entry.progressCleared k)).filter (fun e => e.kind == k) =
      (es.filter fun e => e.kind == k).map fun e => { e with setProgress := 0, clearProgress := 0 } := by
  induction es with
  | nil => rfl
  | cons e es ih =>
    rw [List.map_cons, List.filter_cons, List.filter_cons, (progressCleared_kept k e).1, ih]
    by_cases h : e.kind = k
    · simp [h, Entry.progressCleared]
    · simp [h]

theorem clearProgress_other (h : j ≠ k) (es : List Entry) :
    (es.map (Entry.progressCleared k)).filter (fun e => e.kind == j) =
      es.filter fun e => e.kind == j := by
  induction es with
  | nil => rfl
  | cons e es ih =>
    rw [List.map_cons, List.filter_cons, List.filter_cons, (progressCleared_kept k e).1, ih]
    by_cases he : e.kind = j
    · have hk : e.kind ≠ k := fun h' => h (he.symm.trans h')
      simp [he, Entry.progressCleared, show j ≠ k from h]
    · simp [he]

theorem isExcluded_map {f : Entry → Entry} (hf : ∀ e, (f e).subject = e.subject ∧
    (f e).state = e.state ∧ (f e).action = e.action) (es : List Entry) (subject : Subject) :
    isExcluded (es.map f) subject = isExcluded es subject := by
  unfold isExcluded
  rw [List.any_map]
  congr 1
  funext e
  obtain ⟨h1, h2, h3⟩ := hf e
  simp only [Function.comp_apply, Entry.stands, h1, h2, h3]

theorem formSummary_map {f : Entry → Entry} (hf : ∀ e, (f e).subject = e.subject ∧
    (f e).state = e.state ∧ (f e).action = e.action) (es : List Entry) :
    formSummary (es.map f) = formSummary es := by
  unfold formSummary
  induction es with
  | nil => rfl
  | cons e es ih =>
    obtain ⟨h1, h2, h3⟩ := hf e
    have hstands : (f e).stands = e.stands := by simp only [Entry.stands, h2]
    rw [List.map_cons, List.foldr_cons, List.foldr_cons, ih, hstands, h3]

theorem progressCleared_delivered (h : s.delivered = true)
    (ht : t.pru = { s.pru with entries := s.pru.entries.map (Entry.progressCleared k) }) :
    t.delivered = true := by
  have hf : ∀ e : Entry, (e.progressCleared k).subject = e.subject ∧
      (e.progressCleared k).state = e.state ∧ (e.progressCleared k).action = e.action := fun e =>
    (progressCleared_kept k e).2
  have hw : formWheelEx t.pru.entries = formWheelEx s.pru.entries := by
    simp only [formWheelEx, ht, isExcluded_map hf]
  have hb : formBankEx t.pru.entries = formBankEx s.pru.entries := by
    simp only [formBankEx, ht, isExcluded_map hf]
  have hsum : formSummary t.pru.entries = formSummary s.pru.entries := by
    rw [ht]
    exact formSummary_map hf _
  unfold State.delivered State.setsFormed State.summaryFormed at h ⊢
  rw [hw, hb, hsum, ht]
  exact h

theorem noteOvervolt_above (h : s.cfg.vTrip < v) :
    noteOvervolt v s = note .linkOvervolt .global true s := if_pos h

theorem noteOvervolt_below (h : v + 100 < s.cfg.vTrip) :
    noteOvervolt v s = note .linkOvervolt .global false s := by
  unfold noteOvervolt
  rw [if_neg (by omega), if_pos h]

theorem noteOvervolt_band (h1 : v ≤ s.cfg.vTrip) (h2 : s.cfg.vTrip ≤ v + 100) :
    noteOvervolt v s = clearProgressOf .linkOvervolt s := by
  unfold noteOvervolt
  rw [if_neg (by omega), if_neg (by omega)]

/-- What the table says of another pair stays at a filtered update. -/
theorem noteOvervolt_observed (ho : s.pru.observed .linkUndervolt .global present) :
    (noteOvervolt v s).pru.observed .linkUndervolt .global present := by
  unfold noteOvervolt
  split
  · exact note_observed_other (by decide) ho
  · split
    · exact note_observed_other (by decide) ho
    · refine observed_of_filter ?_ ho
      have h := clearProgress_other (j := .linkUndervolt) (k := .linkOvervolt) (by decide) s.pru.entries
      have hsub := congrArg (List.filter fun e : Entry => e.subject == .global) h
      rw [clearProgressOf_pru]
      simpa [List.filter_filter, Bool.and_comm] using hsub

theorem noteOvervolt_delivered (hd : s.delivered = true) (hno : s.pru.noEntry .linkOvervolt .global)
    (hv : v ≤ s.cfg.vTrip) : (noteOvervolt v s).delivered = true := by
  by_cases h : v + 100 < s.cfg.vTrip
  · rw [noteOvervolt_below h, note_absent_of_noEntry hno]
    exact hd
  · rw [noteOvervolt_band hv (by omega)]
    exact progressCleared_delivered hd (clearProgressOf_pru _ s)

/-! ### The running grid test at a filtered update (R140, R141) -/

theorem lowerLowest_rgc (s : State) : (lowerLowest s).rgc = { s.rgc with
    shows := (lowerLowest s).rgc.shows, test := (lowerLowest s).rgc.test } := by
  unfold lowerLowest
  cases s.rgc.test with
  | none => rfl
  | some g =>
    dsimp only
    cases g.current with
    | none => rfl
    | some b =>
      dsimp only
      rw [showTest_rgc]
      rfl

theorem lowerLowest_current (hg : s.rgc.test = some g) (hc : g.current = some b) :
    (lowerLowest s).rgc.test = some { g with lowest := min g.lowest s.rgc.vF } ∧
      ((lowerLowest s).rgc.shows.get b).lowest = min (s.rgc.shows.get b).lowest s.rgc.vF := by
  unfold lowerLowest
  simp only [hg, hc]
  rw [showTest_rgc]
  exact ⟨rfl, by rw [PerBank_get_set_self]; rfl⟩

theorem stopTest_none (s : State) : (stopTest s).rgc.test = none := by
  unfold stopTest
  cases ht : s.rgc.test with
  | none => exact ht
  | some g =>
    dsimp only
    rw [(judgeChannels_moves _).rgc]
    rfl

theorem abortTestIf_true (s : State) : (abortTestIf true s).rgc.test = none := by
  unfold abortTestIf
  cases ht : s.rgc.test with
  | none => exact ht
  | some g =>
    simp only [if_true, complete_frame]
    exact stopTest_none s

theorem abortTestIf_false (s : State) : abortTestIf false s = s := by
  unfold abortTestIf
  cases s.rgc.test <;> rfl

theorem checkTestStandstill_ends (h : s.dmc.mode = .ready ∧ s.standstill = false) :
    (checkTestStandstill s).rgc.test = none := by
  unfold checkTestStandstill
  rw [show (s.dmc.mode == .ready && !s.standstill) = true by simp [h]]
  exact abortTestIf_true s

theorem checkTestStandstill_passes (h : ¬(s.dmc.mode = .ready ∧ s.standstill = false)) :
    checkTestStandstill s = s := by
  unfold checkTestStandstill
  rw [show (s.dmc.mode == .ready && !s.standstill) = false by simpa using h]
  exact abortTestIf_false s

/-! ### FILTERED_UPDATE -/

/-- The state in which V_f, the trim and the capacity have been taken (R122, R123). -/
def State.filtered (s : State) : State := recomputeCapacity (takeFiltered s)

/-- The state after the observations of a filtered update. -/
def State.linkSeen (s : State) : State :=
  noteOvervolt (s.rgc.samples.sum / 16) (lmuLink s.filtered)

theorem filteredSteps_eq (s : State) :
    filteredSteps s = checkTestStandstill (lowerLowest s.linkSeen) := by
  have h : (lmuLink s.filtered).rgc.vF = s.rgc.samples.sum / 16 := by
    rw [show (lmuLink s.filtered).rgc = s.filtered.rgc by simp]
    rfl
  unfold State.linkSeen
  rw [← h]
  rfl

theorem exec_filteredUpdate (hs : s.isRunning = true) :
    exec .filteredUpdate s = .next (settle (filteredSteps s)) :=
  whenRunning_of_running hs fun s => settle (filteredSteps s)

theorem linkSeen_rgc (s : State) : s.linkSeen.rgc = s.filtered.rgc := by simp [State.linkSeen]

theorem linkSeen_lmu (s : State) : s.linkSeen.lmu = (lmuLink s.filtered).lmu := by
  simp [State.linkSeen]

theorem linkSeen_frame (s : State) : s.linkSeen.dmc = s.dmc ∧ s.linkSeen.tcu = s.tcu ∧
    s.linkSeen.cfl = s.cfl := by
  simp [State.linkSeen, State.filtered, recomputeCapacity, takeFiltered]

theorem filteredSteps_pru (s : State) : (filteredSteps s).pru = s.linkSeen.pru := by
  rw [filteredSteps_eq]
  simp

theorem filteredSteps_lmu (s : State) : (filteredSteps s).lmu = s.linkSeen.lmu := by
  rw [filteredSteps_eq]
  simp

theorem lowerLowest_steady {full : Bool} (h : Steady full a s) : Steady full a (lowerLowest s) := by
  unfold lowerLowest
  cases s.rgc.test with
  | none => exact h
  | some g =>
    dsimp only
    cases g.current with
    | none => exact h
    | some b => exact showTest_steady (setTest_steady h _) b _

theorem checkedTest_steady (s : State) :
    Steady true s.linkSeen (checkTestStandstill (lowerLowest s.linkSeen)) :=
  abortTestIf_steady (lowerLowest_steady (.refl true s.linkSeen)) _

theorem noteOvervolt_steady (h : Steady false a s) (v : Nat) : Steady false a (noteOvervolt v s) := by
  unfold noteOvervolt
  split
  · exact note_steady_page h _ _ _
  · split
    · exact note_steady_page h _ _ _
    · exact updatePru_steady h nofun rfl

theorem judgeUndervolt_steady (h : Steady false a s) (v : Nat) :
    Steady false a (judgeUndervolt v s) := by
  have set (l : Lmu) : Steady false a (s.setLmu l) := setLmu_steady h nofun
  unfold judgeUndervolt
  dsimp only
  split
  · split
    · split
      · exact note_steady_page (set _) _ _ _
      · exact set _
    · exact set _
  · split
    · split
      · exact note_steady_page (set _) _ _ _
      · exact set _
    · exact set _

theorem restLink_steady (h : Steady false a s) : Steady false a (restLink s) := by
  have k : Steady false a ((post .linkLow .allWheels 1000 s).setLmu
      { (post .linkLow .allWheels 1000 s).lmu with
        undervolt := false, undervoltCount := 0, undervoltClear := 0 }) :=
    setLmu_steady (post_steady h _ _ _) nofun
  unfold restLink noteIf
  dsimp only
  split
  · exact note_steady_page k _ _ _
  · exact k

theorem lmuLink_steady (h : Steady false a s) : Steady false a (lmuLink s) := by
  unfold lmuLink
  dsimp only
  refine putLmuSection_steady ?_
  split
  · split
    · exact judgeUndervolt_steady (post_steady h _ _ _) _
    · exact restLink_steady h
  · exact h

theorem filteredSteps_steady (s : State) : Steady false s (filteredSteps s) := by
  have h1 : Steady false s s.filtered := setRgc_steady (setRgc_steady (.refl false s) nofun) nofun
  rw [filteredSteps_eq]
  exact abortTestIf_steady (lowerLowest_steady (noteOvervolt_steady (lmuLink_steady h1) _)) _

/-- The law of the RGC after a filtered update, also after the deliveries. -/
theorem filtered_law (s : State) : (settle (filteredSteps s)).rgc.law = s.filtered.rgc.law := by
  rw [settle_law, filteredSteps_eq, (checkedTest_steady s).rgc rfl, linkSeen_rgc]

theorem noteOvervolt_sets (h : SetsKept a s) (v : Nat) : SetsKept a (noteOvervolt v s) := by
  unfold noteOvervolt
  split
  · exact note_sets h _ _ _
  · split
    · exact note_sets h _ _ _
    · have e := clearProgressOf_pru .linkOvervolt s
      exact ⟨by rw [e]; exact h.wheels, by rw [e]; exact h.banks, by rw [e]; exact h.summary⟩

theorem linkSeen_sets (s : State) : SetsKept s s.linkSeen := by
  have h : SetsKept s s.filtered := ⟨rfl, rfl, rfl⟩
  refine noteOvervolt_sets ?_ _
  unfold lmuLink
  dsimp only
  refine SetsKept.of_pru (s := if _ then _ else _) ?_ (putLmuSection_pru _)
  split
  · split
    · rcases judgeUndervolt_cases s.filtered.rgc.vF
        (post .linkLow .allWheels (s.filtered.cfg.linkFactor s.filtered.rgc.vF) s.filtered) with
        ⟨-, e⟩ | ⟨-, w, hw, e⟩
      · exact h.of_pru (e.trans (post_pru _ _ _ _))
      · rw [e]
        exact note_sets (h.of_pru (hw.trans (post_pru _ _ _ _))) _ _ _
    · have k : SetsKept s ((post .linkLow .allWheels 1000 s.filtered).setLmu
          { (post .linkLow .allWheels 1000 s.filtered).lmu with
            undervolt := false, undervoltCount := 0, undervoltClear := 0 }) :=
        h.of_pru (post_pru .linkLow .allWheels 1000 s.filtered)
      exact noteIf_sets k _ _ _ _
  · exact h

theorem filteredSteps_formed (s : State) : (filteredSteps s).capacityFormed := by
  have hk : GridKept s.linkSeen (filteredSteps s) := by
    rw [filteredSteps_eq]
    refine abortTestIf_grid ⟨by rw [lowerLowest_rgc], by rw [lowerLowest_rgc], fun h => ?_⟩ _
    simp only [lowerLowest, h]
  have hcap : s.filtered.rgc.capacity = (takeFiltered s).gridCapacity := rfl
  have hlmu (b : Bank) : (filteredSteps s).lmu.dBank b = s.lmu.dBank b := by
    rw [filteredSteps_lmu, linkSeen_lmu, lmuLink_dBank]
    rfl
  have hbanks : (filteredSteps s).pru.bankEx = s.pru.bankEx := by
    rw [filteredSteps_pru]
    exact (linkSeen_sets s).banks
  have hcfg : (filteredSteps s).cfg = s.cfg := congrArg Cfl.active (by simp)
  have hsame : (filteredSteps s).gridCapacity = (takeFiltered s).gridCapacity := by
    unfold State.gridCapacity State.bankServes bankCapacity
    simp only [hcfg, hlmu, hbanks]
    rfl
  unfold State.capacityFormed
  rw [hsame, hk.capacity, linkSeen_rgc, hcap]

theorem filtered_vF (s : State) : (settle (filteredSteps s)).rgc.vF = s.rgc.samples.sum / 16 ∧
    (settle (filteredSteps s)).rgc.samples = s.rgc.samples ∧
    (settle (filteredSteps s)).rgc.pTrim = (s.rgc.samples.sum / 16 - s.cfg.vReg) * s.cfg.kTrim := by
  have h := filtered_law s
  exact ⟨(congrArg Rgc.vF h :), (congrArg Rgc.samples h :), (congrArg Rgc.pTrim h :)⟩

theorem settled_dBank (s : State) (b : Bank) :
    (settle (filteredSteps s)).lmu.dBank b = s.lmu.dBank b := by
  rw [dBank_of_derates (settle_steady (.refl true (filteredSteps s))).derates, filteredSteps_lmu,
    linkSeen_lmu, lmuLink_dBank]
  rfl

theorem settled_capacity (s : State) : (settle (filteredSteps s)).rgc.capacity =
    ((allBanks.filter fun b => s.cfg.bank b && !(settle (filteredSteps s)).pru.bankEx.get b).map fun b =>
      s.cfg.vReg * s.cfg.vReg * s.lmu.dBank b / (s.cfg.resistance.get b * 1000)).sum := by
  have hf := settle_capacity (filteredSteps_formed s)
  have hcfg : (settle (filteredSteps s)).cfg = s.cfg :=
    (settle_steady (.refl true (filteredSteps s))).cfg.trans (congrArg Cfl.active (by simp))
  rw [show (settle (filteredSteps s)).rgc.capacity = _ from hf]
  unfold State.gridCapacity bankCapacity
  simp only [settled_dBank, hcfg]
  congr 2
  exact List.filter_congr fun b _ => by simp only [State.bankServes, hcfg]

theorem filtered_undisturbed (s : State) : Undisturbed s (settle (filteredSteps s)) :=
  undisturbed_settle (filteredSteps_steady s) (filteredSteps_keeps (.refl false s))

theorem filtered_reported (s : State) : LinkReported s (lmuLink s.filtered) := by
  have h := lmuLink_reported s.filtered
  exact ⟨h.ok, h.observed, h.others, h.same⟩

/-- What the table says of LINK_UNDERVOLT after a change of the condition. -/
theorem settled_undervolt (hok : s.pru.ok)
    (h : (lmuLink s.filtered).lmu.undervolt ≠ s.lmu.undervolt) :
    (settle (filteredSteps s)).pru.observed .linkUndervolt .global
      (lmuLink s.filtered).lmu.undervolt := by
  refine settle_observed (by decide) ?_
  rw [filteredSteps_pru]
  exact noteOvervolt_observed ((filtered_reported s).observed hok h)

theorem settled_overvolt (hok : s.pru.ok) (hv : v = s.rgc.samples.sum / 16) :
    (s.cfg.vTrip < v → (settle (filteredSteps s)).pru.observed .linkOvervolt .global true) ∧
    (v + 100 < s.cfg.vTrip → (settle (filteredSteps s)).pru.observed .linkOvervolt .global false) ∧
    (v ≤ s.cfg.vTrip → s.cfg.vTrip ≤ v + 100 →
      (settle (filteredSteps s)).pru.entries.filter (fun e => e.kind == .linkOvervolt) =
        (s.pru.entries.filter (fun e => e.kind == .linkOvervolt)).map fun e =>
          { e with setProgress := 0, clearProgress := 0 }) := by
  have hr := filtered_reported s
  have hcfg : (lmuLink s.filtered).cfg = s.cfg := congrArg Cfl.active (by
    simp [State.filtered, recomputeCapacity, takeFiltered])
  have hseen : s.linkSeen = noteOvervolt v (lmuLink s.filtered) := by rw [hv]; rfl
  rw [← hcfg]
  refine ⟨fun h => settle_observed (by decide) ?_, fun h => settle_observed (by decide) ?_,
    fun h1 h2 => ?_⟩
  · rw [filteredSteps_pru, hseen, noteOvervolt_above h]
    exact note_observed (hr.ok hok) _ _ _
  · rw [filteredSteps_pru, hseen, noteOvervolt_below h]
    exact note_observed (hr.ok hok) _ _ _
  · rw [settle_kind (by decide), filteredSteps_pru, hseen, noteOvervolt_band h1 h2,
      clearProgressOf_pru, ← hr.others]
    exact clearProgress_own .linkOvervolt _

/-- While neither condition is about and no delivery is due, nothing is delivered. -/
theorem filtered_quiet (hd : s.delivered = true) (hno : s.pru.noEntry .linkOvervolt .global)
    (hv : s.rgc.samples.sum / 16 ≤ s.cfg.vTrip) (hu : (lmuLink s.filtered).lmu.undervolt = s.lmu.undervolt) :
    settle (filteredSteps s) = filteredSteps s := by
  have hpru := (filtered_reported s).same hu
  have hcfg : (lmuLink s.filtered).cfg = s.cfg := congrArg Cfl.active (by
    simp [State.filtered, recomputeCapacity, takeFiltered])
  have hseen : s.linkSeen.delivered = true := noteOvervolt_delivered
    ((delivered_of_pru hpru).trans hd) (by rw [hpru]; exact hno) (by rw [hcfg]; exact hv)
  exact settle_of_same_pru (s := s.linkSeen) (filteredSteps_pru s) hseen

/-- A filtered update of a link above V_min brings no LINK_UNDERVOLT. -/
theorem undervolt_stays (hu : s.lmu.undervolt = false) (hv : s.cfg.vMin ≤ s.rgc.samples.sum / 16)
    (hok : s.lmu.ok) : (lmuLink s.filtered).lmu.undervolt = s.lmu.undervolt := by
  by_cases hg : s.cfl.guardOn = true
  · by_cases hm : s.dmc.mode.working = true
    · have hj := ((lmuLink_judges (s := s.filtered) hok hg hm).2.counts hu).2
      rw [hj, hu]
      exact decide_eq_false fun h => absurd h.1 (Nat.not_lt.2 hv)
    · rw [(lmuLink_restored (s := s.filtered) hok hg (Bool.eq_false_iff.2 hm)).2.1, hu]
  · rw [lmuLink_off (s := s.filtered) (Bool.eq_false_iff.2 hg), putLmuSection_lmu]
    rfl

theorem filtered_test (hg : s.rgc.test = some g) :
    (s.dmc.mode = .ready ∧ s.standstill = false → (filteredSteps s).rgc.test = none) ∧
    (¬(s.dmc.mode = .ready ∧ s.standstill = false) → ∀ b, g.current = some b →
      (filteredSteps s).rgc.test = some { g with lowest := min g.lowest (s.rgc.samples.sum / 16) } ∧
      ((filteredSteps s).rgc.shows.get b).lowest =
        min (s.rgc.shows.get b).lowest (s.rgc.samples.sum / 16)) := by
  obtain ⟨hdmc, htcu, -⟩ := linkSeen_frame s
  have hd : (lowerLowest s.linkSeen).dmc = s.dmc := by simpa using hdmc
  have ht : (lowerLowest s.linkSeen).standstill = s.standstill := by
    have h : (lowerLowest s.linkSeen).tcu = s.tcu := by simpa using htcu
    simp only [State.standstill, h]
  have hrgc := linkSeen_rgc s
  have hvf : s.filtered.rgc.vF = s.rgc.samples.sum / 16 := rfl
  have hshows : s.filtered.rgc.shows = s.rgc.shows := rfl
  have htest : s.linkSeen.rgc.test = some g := by rw [hrgc]; exact hg
  rw [filteredSteps_eq]
  refine ⟨fun h => checkTestStandstill_ends (by rw [hd, ht]; exact h), fun h b hc => ?_⟩
  rw [checkTestStandstill_passes (by rw [hd, ht]; exact h)]
  have hl := lowerLowest_current htest hc
  rw [hrgc, hvf, hshows] at hl
  exact hl

theorem settled_lmu (s : State) : { (settle (filteredSteps s)).lmu with commanded := 0 } =
    { (lmuLink s.filtered).lmu with commanded := 0 } := by
  rw [settle_lmu, filteredSteps_lmu, linkSeen_lmu]

theorem linkSample_row (hs : s.isRunning = true) (volts : Nat) : exec (.linkVoltageSample volts) s =
    .next { s with rgc := { s.rgc with samples := s.rgc.samples.drop 1 ++ [min volts 2500] } } :=
  whenRunning_of_running hs _

end

/-- Settles O51: the samples, V_f with what follows from it, the two conditions, and the running grid
test. -/
theorem linkFiltered : Obligations.LinkFiltered := by
  refine ⟨fun s volts hs => linkSample_row hs volts, fun s v hs hlok hpok hv => ?_⟩
  obtain ⟨hvF, hsamples, htrim⟩ := filtered_vF s
  obtain ⟨habove, hbelow, hband⟩ := settled_overvolt hpok hv
  have hlmu := settled_lmu s
  have hund : (settle (filteredSteps s)).lmu.undervolt = (lmuLink s.filtered).lmu.undervolt :=
    (congrArg Lmu.undervolt hlmu :)
  have hcount : (settle (filteredSteps s)).lmu.undervoltCount =
    (lmuLink s.filtered).lmu.undervoltCount := (congrArg Lmu.undervoltCount hlmu :)
  have hclear : (settle (filteredSteps s)).lmu.undervoltClear =
    (lmuLink s.filtered).lmu.undervoltClear := (congrArg Lmu.undervoltClear hlmu :)
  have hfactor : (settle (filteredSteps s)).lmu.factorOf .linkLow .allWheels =
      (lmuLink s.filtered).lmu.factorOf .linkLow .allWheels :=
    factorOf_of_derates (congrArg Lmu.derates hlmu :) _ _
  refine ⟨_, exec_filteredUpdate hs, filtered_undisturbed s, hvF.trans hv.symm, hsamples,
    by rw [hv]; exact htrim, settled_capacity s, settled_dBank s, fun hg => ?_, fun hg hm => ?_,
    fun hg hm => ?_, habove, hbelow, hband, fun hd hno htrip hu hmin g hg => ?_⟩
  · have h := congrArg (fun l : Lmu => { l with commanded := s.lmu.commanded }) hlmu
    rw [lmuLink_off (s := s.filtered) hg, putLmuSection_lmu] at h
    exact h
  · have hm' : s.dmc.mode.working = false := by rcases hm with h | h | h <;> rw [h] <;> rfl
    obtain ⟨h1, h2, h3, h4⟩ := lmuLink_restored (s := s.filtered) hlok hg hm'
    refine ⟨hfactor.trans h1, hund.trans h2, hcount.trans h3, hclear.trans h4, fun hu => ?_⟩
    have h := settled_undervolt hpok (s := s) (by rw [h2, hu]; exact Bool.false_ne_true)
    rwa [h2] at h
  · obtain ⟨h1, h2⟩ := lmuLink_judges (s := s.filtered) hlok hg ((working_iff _).2 hm)
    have hvf : s.filtered.rgc.vF = v := hv.symm
    rw [hvf] at h1 h2
    refine ⟨hfactor.trans h1, fun hu => ?_, fun hu => ?_, fun hne => ?_⟩
    · rw [hcount, hund]
      exact h2.counts hu
    · rw [hclear, hund]
      exact h2.clears hu
    · rw [hund] at hne ⊢
      exact settled_undervolt hpok hne
  · rw [hv] at hmin htrip ⊢
    rw [filtered_quiet hd hno htrip (undervolt_stays hu hmin hlok)]
    exact filtered_test hg

end Sys2Proof.Machine
end

section
/-! The hold update (O52): the envelope, the hold mode and the integrator as fields of one RGC state, the
judgement of ENVELOPE_EXCEEDED, and the two causes that a hold update moves. -/

namespace Sys2Proof.Machine

section
variable {a s t u w : State} {present : Bool} {x y : Nat} {c : Causes}

/-! ### The causes SHORTFALL and POST_RESET (R142, R143) -/

/-- What the test of SHORTFALL makes of the two times and of the cause. -/
structure ShortfallRow (s : State) (x y : Nat) (c : Bool) : Prop where
  rest : s.dmc.substate ≠ .retard → x = 0 ∧ y = 0
  count : s.dmc.substate = .retard → s.rgc.causes.shortfall = false → x =
    if s.isShort = true then
      (if 300 ≤ s.rgc.shortfallTime + s.rgc.period then 300 else s.rgc.shortfallTime + s.rgc.period)
    else 0
  recover : s.dmc.substate = .retard → s.rgc.causes.shortfall = true → y =
    if s.isSufficient = true then
      (if 300 ≤ s.rgc.recoveryTime + s.rgc.period then 300 else s.rgc.recoveryTime + s.rgc.period)
    else 0
  cause : c = (s.dmc.substate == .retard &&
    (if s.rgc.causes.shortfall then decide (y < 300) else decide (300 ≤ x)))

/-- The RGC with the two times of R142. -/
def Rgc.shortTimed (g : Rgc) (x y : Nat) : Rgc := { g with shortfallTime := x, recoveryTime := y }

theorem changeCauses_none (h : c = s.rgc.causes) : changeCauses c s = s := if_pos h

theorem testShortfall_rests (h : s.dmc.substate ≠ .retard) : testShortfall s =
    changeCauses { s.rgc.causes with shortfall := false } (s.setRgc (s.rgc.shortTimed 0 0)) := by
  unfold testShortfall
  simp only [if_neg h]
  rfl

/-- The times and the cause of a short or a sufficient retarding, in RETARD. -/
theorem testShortfall_retards (h : s.dmc.substate = .retard) : ∃ x y c, ShortfallRow s x y c ∧
    testShortfall s =
      changeCauses { s.rgc.causes with shortfall := c } (s.setRgc (s.rgc.shortTimed x y)) := by
  have keep (x y : Nat) {c : Bool} (hc : s.rgc.causes.shortfall = c) : s.setRgc (s.rgc.shortTimed x y) =
      changeCauses { s.rgc.causes with shortfall := c } (s.setRgc (s.rgc.shortTimed x y)) := by
    refine (changeCauses_none ?_).symm
    subst hc
    rfl
  have hne (p : Prop) : s.dmc.substate ≠ .retard → p := fun k => absurd h k
  unfold testShortfall
  simp only [if_pos h]
  by_cases hshort : s.rgc.causes.shortfall = true
  · simp only [hshort, if_true]
    have no (p : Prop) : s.rgc.causes.shortfall = false → p := fun k => absurd (hshort.symm.trans k) nofun
    by_cases hs : s.isSufficient = true
    · simp only [hs, if_true]
      by_cases h3 : 300 ≤ s.rgc.recoveryTime + s.rgc.period
      · rw [if_pos h3]
        refine ⟨0, 300, false, ⟨hne _, fun _ => no _, fun _ _ => ?_, ?_⟩, rfl⟩
        · rw [if_pos hs, if_pos h3]
        · simp [hshort]
      · rw [if_neg h3]
        refine ⟨s.rgc.shortfallTime, s.rgc.recoveryTime + s.rgc.period, true,
          ⟨hne _, fun _ => no _, fun _ _ => ?_, ?_⟩, keep _ _ hshort⟩
        · rw [if_pos hs, if_neg h3]
        · simp [hshort, h]
          omega
    · simp only [hs, if_false, Bool.false_eq_true]
      refine ⟨s.rgc.shortfallTime, 0, true, ⟨hne _, fun _ => no _, fun _ _ => ?_, ?_⟩, keep _ _ hshort⟩
      · rw [if_neg hs]
      · simp [hshort, h]
  · have hoff : s.rgc.causes.shortfall = false := by simpa using hshort
    simp only [hoff, if_false, Bool.false_eq_true]
    have no (p : Prop) : s.rgc.causes.shortfall = true → p := fun k => absurd k hshort
    by_cases hs : s.isShort = true
    · simp only [hs, if_true]
      by_cases h3 : 300 ≤ s.rgc.shortfallTime + s.rgc.period
      · rw [if_pos h3]
        refine ⟨300, 0, true, ⟨hne _, fun _ _ => ?_, fun _ => no _, ?_⟩, rfl⟩
        · rw [if_pos hs, if_pos h3]
        · simp [hoff, h]
      · rw [if_neg h3]
        refine ⟨s.rgc.shortfallTime + s.rgc.period, s.rgc.recoveryTime, false,
          ⟨hne _, fun _ _ => ?_, fun _ => no _, ?_⟩, keep _ _ hoff⟩
        · rw [if_pos hs, if_neg h3]
        · simp [hoff]
          omega
    · simp only [hs, if_false, Bool.false_eq_true]
      refine ⟨0, s.rgc.recoveryTime, false, ⟨hne _, fun _ _ => ?_, fun _ => no _, ?_⟩, keep _ _ hoff⟩
      · rw [if_neg hs]
      · simp [hoff]

theorem testShortfall_row (s : State) : ∃ x y c, ShortfallRow s x y c ∧ testShortfall s =
    changeCauses { s.rgc.causes with shortfall := c } (s.setRgc (s.rgc.shortTimed x y)) := by
  by_cases h : s.dmc.substate = .retard
  · exact testShortfall_retards h
  · exact ⟨0, 0, false, ⟨fun _ => ⟨rfl, rfl⟩, fun k => absurd k h, fun k => absurd k h, by simp [h]⟩,
      testShortfall_rests h⟩

theorem testPostReset_eq (s : State) : testPostReset s =
    changeCauses { s.rgc.causes with postReset := s.rgc.causes.postReset && !s.standstill } s := by
  unfold testPostReset
  by_cases h : s.standstill = true
  · simp [h]
  · rw [if_neg h]
    refine (changeCauses_none ?_).symm
    simp [h]

/-! ### ENVELOPE_EXCEEDED (R129) -/

/-- The two times are set, and the condition is judged to stand as named: a change is reported, and moves
the class and the cause. -/
def State.exceedJudged (s : State) (present : Bool) (x y : Nat) : State :=
  if present = s.rgc.exceeded then s.setRgc { s.rgc with exceedTime := x, clearTime := y }
  else s.exceedChanged present x y

theorem changeExceeded_judged (present : Bool) (x y : Nat) (s : State) :
    changeExceeded present (s.setRgc { s.rgc with exceedTime := x, clearTime := y }) =
      s.exceedJudged present x y := by
  unfold State.exceedJudged
  by_cases h : present = s.rgc.exceeded
  · rw [if_pos h]
    exact if_pos h
  · rw [if_neg h]
    refine changeExceeded_eq ?_ x y
    cases present <;> cases hx : s.rgc.exceeded <;> simp_all

theorem exceedJudged_same (h : present = s.rgc.exceeded) :
    s.exceedJudged present x y = s.setRgc { s.rgc with exceedTime := x, clearTime := y } := if_pos h

theorem exceedJudged_changed (h : present ≠ s.rgc.exceeded) :
    s.exceedJudged present x y = s.exceedChanged present x y := if_neg h

/-- What the judgement leaves of the RGC, but for the causes and the pulse timer. -/
theorem exceedJudged_rgc (s : State) (present : Bool) (x y : Nat) : (s.exceedJudged present x y).rgc =
    { s.rgc with
      exceeded := present, exceedTime := x, clearTime := y
      causes := (s.exceedJudged present x y).rgc.causes
      pulse := (s.exceedJudged present x y).rgc.pulse } := by
  by_cases h : present = s.rgc.exceeded
  · rw [exceedJudged_same h]
    subst h
    rfl
  · rw [exceedJudged_changed h, exceedChanged_rgc]
    rfl

/-- The row of R129 that an update takes: the times, and whether the condition then stands. -/
structure EnvelopeRow (s : State) (present : Bool) (x y : Nat) : Prop where
  above : s.above (s.rgc.vEnv + 20) = true → x = min 1000 (s.rgc.exceedTime + s.rgc.period) ∧ y = 0 ∧
    present = (s.rgc.exceeded || decide (1000 ≤ x))
  within : s.above (s.rgc.vEnv + 20) = false → s.withinEnvelope = true →
    y = min 1000 (s.rgc.clearTime + s.rgc.period) ∧ x = 0 ∧
    present = (s.rgc.exceeded && !decide (1000 ≤ y))
  between : s.above (s.rgc.vEnv + 20) = false → s.withinEnvelope = false →
    x = 0 ∧ y = 0 ∧ present = s.rgc.exceeded

theorem countEnvelope_row (s : State) : ∃ present x y, EnvelopeRow s present x y ∧
    countEnvelope s = s.exceedJudged present x y := by
  unfold countEnvelope
  dsimp only
  by_cases ha : s.above (s.rgc.vEnv + 20) = true
  · rw [if_pos ha]
    have no (p : Prop) : s.above (s.rgc.vEnv + 20) = false → p := fun h => absurd (ha.symm.trans h) nofun
    by_cases h : 1000 ≤ min 1000 (s.rgc.exceedTime + s.rgc.period)
    · rw [if_pos h]
      refine ⟨true, min 1000 (s.rgc.exceedTime + s.rgc.period), 0, ⟨fun _ => ⟨rfl, rfl, ?_⟩, no _, no _⟩,
        changeExceeded_judged true _ 0 s⟩
      rw [decide_eq_true h, Bool.or_true]
    · rw [if_neg h]
      refine ⟨s.rgc.exceeded, min 1000 (s.rgc.exceedTime + s.rgc.period), 0,
        ⟨fun _ => ⟨rfl, rfl, ?_⟩, no _, no _⟩, (exceedJudged_same rfl).symm⟩
      rw [decide_eq_false h, Bool.or_false]
  · have ha' : s.above (s.rgc.vEnv + 20) = false := by simpa using ha
    have no (p : Prop) : s.above (s.rgc.vEnv + 20) = true → p := fun h => absurd h ha
    rw [if_neg ha]
    by_cases hw : s.withinEnvelope = true
    · rw [if_pos hw]
      have no' (p : Prop) : s.withinEnvelope = false → p := fun h => absurd (hw.symm.trans h) nofun
      by_cases h : 1000 ≤ min 1000 (s.rgc.clearTime + s.rgc.period)
      · rw [if_pos h]
        refine ⟨false, 0, min 1000 (s.rgc.clearTime + s.rgc.period),
          ⟨no _, fun _ _ => ⟨rfl, rfl, ?_⟩, fun _ => no' _⟩, changeExceeded_judged false 0 _ s⟩
        rw [decide_eq_true h, Bool.not_true, Bool.and_false]
      · rw [if_neg h]
        refine ⟨s.rgc.exceeded, 0, min 1000 (s.rgc.clearTime + s.rgc.period),
          ⟨no _, fun _ _ => ⟨rfl, rfl, ?_⟩, fun _ => no' _⟩, (exceedJudged_same rfl).symm⟩
        rw [decide_eq_false h, Bool.not_false, Bool.and_true]
    · rw [if_neg hw]
      exact ⟨s.rgc.exceeded, 0, 0, ⟨no _, fun _ h => absurd h hw, fun _ _ => ⟨rfl, rfl, rfl⟩⟩,
        (exceedJudged_same rfl).symm⟩

/-! ### The fields of steps 1 to 3 (R126 to R128) -/

/-- Where hold does not run its values rest (R125). -/
def Rgc.held (g : Rgc) : Rgc :=
  { g with
    hold := .off, vEnv := 0, vHoldEff := 0, integrator := 0, dHold := 0, forced := false, frozen := false
    payloadBand := 0, gradeBand := 0 }

theorem restHold_eq (s : State) : restHold s = (s.setRgc s.rgc.held).exceedJudged false 0 0 :=
  changeExceeded_judged false 0 0 (s.setRgc s.rgc.held)

/-- The fields that an RGC shares with another while only hold's own values move. -/
structure HoldOnly (g h : Rgc) : Prop where
  rest : { h with
    hold := g.hold, vEnv := g.vEnv, vHoldEff := g.vHoldEff, integrator := g.integrator
    dHold := g.dHold, forced := g.forced, frozen := g.frozen, payloadBand := g.payloadBand
    gradeBand := g.gradeBand } = g

theorem HoldOnly.kept {g h : Rgc} (k : HoldOnly g h) : h.period = g.period ∧ h.exceeded = g.exceeded ∧
    h.exceedTime = g.exceedTime ∧ h.clearTime = g.clearTime ∧ h.causes = g.causes ∧ h.pulse = g.pulse ∧
    h.shortfallTime = g.shortfallTime ∧ h.recoveryTime = g.recoveryTime := by
  have e := k.rest
  exact ⟨(congrArg Rgc.period e :), (congrArg Rgc.exceeded e :), (congrArg Rgc.exceedTime e :),
    (congrArg Rgc.clearTime e :), (congrArg Rgc.causes e :), (congrArg Rgc.pulse e :),
    (congrArg Rgc.shortfallTime e :), (congrArg Rgc.recoveryTime e :)⟩

/-- What hold does with a known reference speed, at an envelope speed (R127, R128): `s` gives the
demand, the references and the integrator before, `h` the values after. -/
structure HoldRow (s : State) (v : Nat) (h : Rgc) : Prop where
  setpoint : 0 < s.dmc.demand.holdSpeed → h.hold = .setpoint ∧
    h.vHoldEff = min s.dmc.demand.holdSpeed h.vEnv
  envelope : s.dmc.demand.holdSpeed = 0 → h.vEnv < v → h.hold = .envelope ∧ h.vHoldEff = h.vEnv
  off : s.dmc.demand.holdSpeed = 0 → v ≤ h.vEnv → h.hold = .off ∧ h.vHoldEff = 0
  forced : h.forced = true ↔ s.propelLive = true ∧ h.vEnv < v
  skipped : h.hold = .off ∨ s.propelLive = true ∧ v ≤ h.vEnv → h.integrator = 0 ∧ h.dHold = 0
  formed : h.hold ≠ .off → ¬(s.propelLive = true ∧ v ≤ h.vEnv) →
    h.integrator = nextIntegrator s.rgc.integrator (s.increment ((v : Int) - h.vHoldEff))
      s.integratorFrozen ∧
    h.dHold = holdDemand s.cfg ((v : Int) - h.vHoldEff) h.integrator

theorem above_of_known {v : Nat} (hv : s.tcu.vRef = some v) (n : Nat) : s.above n = decide (n < v) := by
  unfold State.above
  rw [hv]

theorem holdMode_known {v : Nat} (hv : s.tcu.vRef = some v) : s.holdMode =
    if 0 < s.dmc.demand.holdSpeed then (.setpoint, min s.dmc.demand.holdSpeed s.rgc.vEnv)
    else if s.rgc.vEnv < v then (.envelope, s.rgc.vEnv) else (.off, 0) := by
  unfold State.holdMode
  rw [above_of_known hv, hv]
  simp

theorem updateHold_rgc (s : State) : (updateHold s).rgc = { s.rgc with
    integrator := if s.holdSkipped = true then 0 else
      nextIntegrator s.rgc.integrator (s.increment ((s.tcu.vRef.getD 0 : Int) - s.rgc.vHoldEff))
        s.integratorFrozen
    dHold := if s.holdSkipped = true then 0 else
      holdDemand s.cfg ((s.tcu.vRef.getD 0 : Int) - s.rgc.vHoldEff)
        (nextIntegrator s.rgc.integrator (s.increment ((s.tcu.vRef.getD 0 : Int) - s.rgc.vHoldEff))
          s.integratorFrozen)
    frozen := if s.holdSkipped = true then false else s.integratorFrozen } := by
  unfold updateHold
  split <;> rfl

theorem updateHold_eq (s : State) : updateHold s = s.setRgc (updateHold s).rgc := by
  unfold updateHold
  split <;> rfl

/-- Steps 1 to 3. -/
def State.heldState (s : State) : State := updateHold (formHold (formEnvelope s))

theorem heldState_eq (s : State) : s.heldState = s.setRgc s.heldState.rgc :=
  (updateHold_eq _).trans rfl

theorem heldState_only (s : State) : HoldOnly s.rgc s.heldState.rgc := by
  unfold State.heldState
  rw [updateHold_rgc]
  exact ⟨rfl⟩

theorem heldState_vEnv (s : State) : s.heldState.rgc.vEnv = s.envelopeSpeed := by
  unfold State.heldState
  rw [updateHold_rgc]
  rfl

/-- With an unknown reference speed hold is OFF (R127). -/
theorem heldState_unknown (hv : s.tcu.vRef = none) : s.heldState.rgc.hold = .off ∧
    s.heldState.rgc.vHoldEff = 0 ∧ s.heldState.rgc.integrator = 0 ∧ s.heldState.rgc.dHold = 0 ∧
    s.heldState.rgc.forced = false := by
  have hmode : (formEnvelope s).holdMode = (.off, 0) := by
    unfold State.holdMode
    rw [if_pos]
    show s.tcu.vRef.isNone = true
    rw [hv]
    rfl
  have habove : (formEnvelope s).above (formEnvelope s).rgc.vEnv = false := by
    unfold State.above
    rw [show (formEnvelope s).tcu.vRef = none from hv]
  have hf : (formHold (formEnvelope s)).rgc.hold = .off ∧ (formHold (formEnvelope s)).rgc.vHoldEff = 0 ∧
      (formHold (formEnvelope s)).rgc.forced = false := by
    refine ⟨congrArg Prod.fst hmode, congrArg Prod.snd hmode, ?_⟩
    show ((formEnvelope s).propelLive && (formEnvelope s).above (formEnvelope s).rgc.vEnv) = false
    rw [habove, Bool.and_false]
  obtain ⟨h1, h2, h3⟩ := hf
  have hskip : (formHold (formEnvelope s)).holdSkipped = true := by
    unfold State.holdSkipped
    rw [h1]
    rfl
  unfold State.heldState
  rw [updateHold_rgc]
  simp only [hskip, if_true, h1, h2, h3, and_self]

/-- With a known reference speed hold follows R127 and R128. -/
theorem heldState_known {v : Nat} (hv : s.tcu.vRef = some v) : HoldRow s v s.heldState.rgc := by
  generalize hf : formHold (formEnvelope s) = f
  have hfv : f.tcu.vRef = some v := by rw [← hf]; exact hv
  have hmode := holdMode_known (s := formEnvelope s) hv
  have hhold : f.rgc.hold = (formEnvelope s).holdMode.1 := by rw [← hf]; rfl
  have heff : f.rgc.vHoldEff = (formEnvelope s).holdMode.2 := by rw [← hf]; rfl
  have henv : f.rgc.vEnv = s.envelopeSpeed := by rw [← hf]; rfl
  have hlive : f.propelLive = s.propelLive := by rw [← hf]; rfl
  have hforced : f.rgc.forced = (s.propelLive && decide (f.rgc.vEnv < v)) := by
    rw [henv, ← above_of_known (s := formEnvelope s) hv, ← hf]
    rfl
  have hacc : f.rgc.integrator = s.rgc.integrator := by rw [← hf]; rfl
  have hinc (e : Int) : f.increment e = s.increment e := by rw [← hf]; rfl
  have hfroz : f.integratorFrozen = s.integratorFrozen := by rw [← hf]; rfl
  have hcfg : f.cfg = s.cfg := by rw [← hf]; rfl
  have hskip : f.holdSkipped = (f.rgc.hold == .off || (s.propelLive && !decide (f.rgc.vEnv < v))) := by
    unfold State.holdSkipped
    rw [above_of_known hfv, hlive]
  have hrgc : s.heldState.rgc = (updateHold f).rgc := by rw [← hf]; rfl
  rw [hrgc, updateHold_rgc, hskip, hacc, hinc, hfroz, hcfg, hfv]
  have hd : (formEnvelope s).dmc = s.dmc := rfl
  have hve : (formEnvelope s).rgc.vEnv = f.rgc.vEnv := henv.symm
  rw [hd, hve] at hmode
  refine ⟨fun h => ?_, fun h0 hlt => ?_, fun h0 hle => ?_, ?_, fun h => ?_, fun h1 h2 => ?_⟩ <;>
    dsimp only
  · rw [if_pos h] at hmode
    exact ⟨by rw [hhold, hmode], by rw [heff, hmode]⟩
  · rw [if_neg (by omega), if_pos hlt] at hmode
    exact ⟨by rw [hhold, hmode], by rw [heff, hmode]⟩
  · rw [if_neg (by omega), if_neg (by dsimp only at hle; omega)] at hmode
    exact ⟨by rw [hhold, hmode], by rw [heff, hmode]⟩
  · rw [hforced, Bool.and_eq_true, decide_eq_true_iff]
  · have hs : (f.rgc.hold == .off || (s.propelLive && !decide (f.rgc.vEnv < v))) = true := by
      simpa [Nat.not_lt] using h
    simp only [hs, if_true, and_self]
  · have hs : (f.rgc.hold == .off || (s.propelLive && !decide (f.rgc.vEnv < v))) = false := by
      rw [Bool.or_eq_false_iff]
      refine ⟨by simpa using h1, ?_⟩
      cases hp : s.propelLive with
      | false => rfl
      | true =>
        have : ¬v ≤ f.rgc.vEnv := fun hle => h2 ⟨hp, hle⟩
        simp only [Bool.true_and, Bool.not_eq_false', decide_eq_true_iff]
        omega
    simp only [hs, Bool.false_eq_true, if_false, Option.getD_some, and_self]

/-! ### The cause set after the two tests -/

/-- The times of R142 are set, and the causes SHORTFALL and POST_RESET moved. -/
def State.causesTested (s : State) (x y : Nat) (c : Bool) : State :=
  testPostReset (changeCauses { s.rgc.causes with shortfall := c } (s.setRgc (s.rgc.shortTimed x y)))

/-- The cause set that the two tests leave. -/
def State.testedCauses (s : State) (c : Bool) : Causes :=
  { s.rgc.causes with shortfall := c, postReset := s.rgc.causes.postReset && !s.standstill }

theorem Causes.any_of_shortfall (h : c.shortfall = true) : c.any = true := by simp [Causes.any, h]

theorem causesTested_rgc (s : State) (x y : Nat) (c : Bool) : (s.causesTested x y c).rgc =
    { s.rgc.shortTimed x y with
      causes := s.testedCauses c
      pulse := if s.cfg.outputMode = 1 ∧ s.rgc.causes.any = false ∧ c = true then some (s.clock + 500)
        else s.rgc.pulse } := by
  have hstill : (changeCauses { s.rgc.causes with shortfall := c }
      (s.setRgc (s.rgc.shortTimed x y))).standstill = s.standstill := by
    have h : (changeCauses { s.rgc.causes with shortfall := c }
      (s.setRgc (s.rgc.shortTimed x y))).tcu = s.tcu := by simp
    simp only [State.standstill, h]
  have hg := changeCauses_rgc { s.rgc.causes with shortfall := c } (s.setRgc (s.rgc.shortTimed x y))
  have hcauses : (s.setRgc (s.rgc.shortTimed x y)).rgc.causes = s.rgc.causes := rfl
  have hpulse : (s.setRgc (s.rgc.shortTimed x y)).rgc.pulse = s.rgc.pulse := rfl
  have hcfg : (s.setRgc (s.rgc.shortTimed x y)).cfg = s.cfg := rfl
  rw [hcauses, hpulse, hcfg] at hg
  unfold State.causesTested
  rw [testPostReset_eq, changeCauses_rgc, hstill]
  generalize changeCauses { s.rgc.causes with shortfall := c } (s.setRgc (s.rgc.shortTimed x y)) = v at hg
  have hvc : v.rgc.causes = { s.rgc.causes with shortfall := c } := by rw [hg]
  have hsecond : ¬({ v.rgc.causes with postReset := v.rgc.causes.postReset && !s.standstill } ≠
      v.rgc.causes ∧ v.cfg.outputMode = 1 ∧ v.rgc.causes.any = false ∧
      { v.rgc.causes with postReset := v.rgc.causes.postReset && !s.standstill }.any = true) := by
    rintro ⟨hne, -, hany, -⟩
    have hpost : v.rgc.causes.postReset = false := by
      simp only [Causes.any, Bool.or_eq_false_iff] at hany
      exact hany.2
    refine hne ?_
    rw [hpost, Bool.false_and, ← hpost]
  have hfirst : ({ s.rgc.causes with shortfall := c } ≠ s.rgc.causes ∧ s.cfg.outputMode = 1 ∧
      s.rgc.causes.any = false ∧ { s.rgc.causes with shortfall := c }.any = true) ↔
      s.cfg.outputMode = 1 ∧ s.rgc.causes.any = false ∧ c = true := by
    constructor
    · rintro ⟨-, h1, h2, h3⟩
      refine ⟨h1, h2, ?_⟩
      simp only [Causes.any, Bool.or_eq_false_iff] at h2
      simpa [Causes.any, h2] using h3
    · rintro ⟨h1, h2, rfl⟩
      refine ⟨fun he => ?_, h1, h2, Causes.any_of_shortfall rfl⟩
      have hs : true = s.rgc.causes.shortfall := congrArg Causes.shortfall he
      rw [Causes.any_of_shortfall hs.symm] at h2
      exact absurd h2 nofun
  rw [if_neg hsecond, hg, if_congr hfirst rfl rfl]
  rfl

theorem causesTested_rest (s : State) (x y : Nat) (c : Bool) :
    { s.causesTested x y c with xm := s.xm, atc := s.atc, rgc := s.rgc } = s := by
  unfold State.causesTested
  rw [testPostReset_eq]
  refine Eq.trans (congrArg (fun u : State => { u with xm := s.xm, atc := s.atc, rgc := s.rgc })
    (changeCauses_rest _ (changeCauses { s.rgc.causes with shortfall := c }
      (s.setRgc (s.rgc.shortTimed x y))))) ?_
  exact congrArg (fun u : State => { u with rgc := s.rgc }) (changeCauses_rest _ _)

theorem causesTested_same (s : State) (x y : Nat) (c : Bool) :
    SameOutside [pendingRegion] s (s.causesTested x y c) := by
  have h := changeCauses_same { s.rgc.causes with shortfall := c } (s.setRgc (s.rgc.shortTimed x y))
  unfold State.causesTested
  rw [testPostReset_eq]
  exact SameOutside.trans h (changeCauses_same _ _)

theorem testPostReset_steady (h : Steady false a s) : Steady false a (testPostReset s) := by
  unfold testPostReset
  split
  · exact changeCauses_steady h _
  · exact h

theorem causesTested_steady (h : Steady false a s) (x y : Nat) (c : Bool) :
    Steady false a (s.causesTested x y c) :=
  testPostReset_steady (changeCauses_steady (setRgc_steady h nofun) _)

/-- A cause set that moves raises BRAKE_ASSIST. -/
theorem causesTested_raised {b : Bool} (h : s.testedCauses b ≠ s.rgc.causes) (x y : Nat) :
    Cls.brakeAssist.isIn (s.causesTested x y b).atc.pending = true := by
  have hg := causesTested_rgc s x y b
  unfold State.causesTested at hg ⊢
  by_cases hb : { s.rgc.causes with shortfall := b } = s.rgc.causes
  · have hsame : changeCauses { s.rgc.causes with shortfall := b } (s.setRgc (s.rgc.shortTimed x y)) =
        s.setRgc (s.rgc.shortTimed x y) := changeCauses_none hb
    rw [hsame, testPostReset_eq] at hg ⊢
    have hne : { (s.setRgc (s.rgc.shortTimed x y)).rgc.causes with
        postReset := (s.setRgc (s.rgc.shortTimed x y)).rgc.causes.postReset &&
          !(s.setRgc (s.rgc.shortTimed x y)).standstill } ≠
        (s.setRgc (s.rgc.shortTimed x y)).rgc.causes := fun he => h (by
      have hcause : s.testedCauses b = { s.rgc.causes with
          postReset := s.rgc.causes.postReset && !s.standstill } :=
        congrArg (fun k : Causes => { k with postReset := s.rgc.causes.postReset && !s.standstill }) hb
      exact hcause.trans he)
    rw [(changeCauses_raised hne).pending]
    simp
  · refine (testPostReset_steady (.refl false _)).attention _ ?_
    rw [(changeCauses_raised (s := s.setRgc (s.rgc.shortTimed x y)) hb).pending]
    simp

/-! ### The whole update -/

/-- The RGC with the allocation period of the configuration taken up (R26). -/
def State.heldPeriod (s : State) : State := s.setRgc { s.rgc with period := s.cfg.allocPeriod }

/-- The state after steps 1 to 4 of R125, with hold's own values `r` put in. -/
def State.holdJudged (s : State) (r : Rgc) (present : Bool) (x y : Nat) : State :=
  (s.setRgc r).exceedJudged present x y

/-- The values of one hold update: those of hold, the condition with its times, and the times and the
cause of R142. -/
structure HoldForm (s : State) (r : Rgc) (present : Bool) (x y x' y' : Nat) (c : Bool) : Prop where
  only : HoldOnly s.heldPeriod.rgc r
  runs : s.holdRuns = true → r = s.heldPeriod.heldState.rgc ∧ EnvelopeRow (s.setRgc r) present x y
  rests : s.holdRuns = false → r = s.heldPeriod.rgc.held ∧ present = false ∧ x = 0 ∧ y = 0
  short : ShortfallRow (s.holdJudged r present x y) x' y' c
  steps : holdSteps s = putRgcSection ((s.holdJudged r present x y).causesTested x' y' c)

theorem holdSteps_form (s : State) : ∃ r present x y x' y' c, HoldForm s r present x y x' y' c := by
  have finish (r : Rgc) (present : Bool) (x y : Nat)
      (h : (if s.heldPeriod.holdRuns then countEnvelope s.heldPeriod.heldState else
        restHold s.heldPeriod) = s.holdJudged r present x y) : ∃ x' y' c,
      ShortfallRow (s.holdJudged r present x y) x' y' c ∧
      holdSteps s = putRgcSection ((s.holdJudged r present x y).causesTested x' y' c) := by
    obtain ⟨x', y', c, hrow, heq⟩ := testShortfall_row (s.holdJudged r present x y)
    refine ⟨x', y', c, hrow, ?_⟩
    have hsteps : holdSteps s = putRgcSection (testPostReset (testShortfall
      (if s.heldPeriod.holdRuns then countEnvelope s.heldPeriod.heldState else
        restHold s.heldPeriod))) := rfl
    rw [hsteps, h, heq]
    rfl
  by_cases hr : s.holdRuns = true
  · obtain ⟨present, x, y, hrow, heq⟩ := countEnvelope_row s.heldPeriod.heldState
    have hheld : s.heldPeriod.heldState = s.setRgc s.heldPeriod.heldState.rgc := heldState_eq s.heldPeriod
    have hjudge : (if s.heldPeriod.holdRuns then countEnvelope s.heldPeriod.heldState else
        restHold s.heldPeriod) = s.holdJudged s.heldPeriod.heldState.rgc present x y := by
      rw [if_pos (show s.heldPeriod.holdRuns = true from hr), heq]
      exact congrArg (fun v : State => v.exceedJudged present x y) hheld
    obtain ⟨x', y', c, h1, h2⟩ := finish _ _ _ _ hjudge
    refine ⟨_, present, x, y, x', y', c, heldState_only s.heldPeriod, fun _ => ⟨rfl, ?_⟩,
      fun h => absurd (hr.symm.trans h) nofun, h1, h2⟩
    rw [← hheld]
    exact hrow
  · have hr' : s.holdRuns = false := by simpa using hr
    have hjudge : (if s.heldPeriod.holdRuns then countEnvelope s.heldPeriod.heldState else
        restHold s.heldPeriod) = s.holdJudged s.heldPeriod.rgc.held false 0 0 := by
      rw [if_neg (show ¬s.heldPeriod.holdRuns = true from hr), restHold_eq]
      rfl
    obtain ⟨x', y', c, h1, h2⟩ := finish _ _ _ _ hjudge
    exact ⟨_, false, 0, 0, x', y', c, ⟨rfl⟩, fun h => absurd h hr, fun _ => ⟨rfl, rfl, rfl, rfl⟩, h1, h2⟩

section
variable {r : Rgc} {x' y' : Nat} {b : Bool}

theorem HoldForm.kept (h : HoldForm s r present x y x' y' b) : r.period = s.cfg.allocPeriod ∧
    r.exceeded = s.rgc.exceeded ∧ r.exceedTime = s.rgc.exceedTime ∧ r.clearTime = s.rgc.clearTime ∧
    r.causes = s.rgc.causes ∧ r.pulse = s.rgc.pulse ∧ r.shortfallTime = s.rgc.shortfallTime ∧
    r.recoveryTime = s.rgc.recoveryTime := h.only.kept

theorem holdJudged_pru (h : present = s.rgc.exceeded) {r : Rgc} (hr : r.exceeded = s.rgc.exceeded)
    (x y : Nat) : s.holdJudged r present x y = s.setRgc { r with exceedTime := x, clearTime := y } :=
  exceedJudged_same (s := s.setRgc r) (h.trans hr.symm)

theorem holdJudged_rgc (s : State) (r : Rgc) (present : Bool) (x y : Nat) :
    (s.holdJudged r present x y).rgc = { r with
      exceeded := present, exceedTime := x, clearTime := y
      causes := (s.holdJudged r present x y).rgc.causes
      pulse := (s.holdJudged r present x y).rgc.pulse } := exceedJudged_rgc (s.setRgc r) present x y

theorem exceedJudged_causes (s : State) (present : Bool) (x y : Nat) :
    (s.exceedJudged present x y).rgc.causes =
      { s.rgc.causes with envelope := if present = s.rgc.exceeded then s.rgc.causes.envelope else present } := by
  by_cases h : present = s.rgc.exceeded
  · rw [exceedJudged_same h, if_pos h]
    rfl
  · rw [exceedJudged_changed h, exceedChanged_rgc, if_neg h]

theorem holdJudged_shortfall (s : State) (r : Rgc) (present : Bool) (x y : Nat) :
    (s.holdJudged r present x y).rgc.causes.shortfall = r.causes.shortfall :=
  (congrArg Causes.shortfall (exceedJudged_causes (s.setRgc r) present x y) :)

theorem exceedChanged_blocks (s : State) (present : Bool) (x y : Nat) :
    (s.exceedChanged present x y).dmc = s.dmc ∧ (s.exceedChanged present x y).tqa = s.tqa ∧
    (s.exceedChanged present x y).tcu = s.tcu := by
  simp [State.exceedChanged, State.exceedNoted]

theorem holdJudged_blocks (s : State) (r : Rgc) (present : Bool) (x y : Nat) :
    (s.holdJudged r present x y).dmc = s.dmc ∧ (s.holdJudged r present x y).tqa = s.tqa ∧
    (s.holdJudged r present x y).tcu = s.tcu := by
  unfold State.holdJudged
  by_cases h : present = (s.setRgc r).rgc.exceeded
  · rw [exceedJudged_same h]
    exact ⟨rfl, rfl, rfl⟩
  · rw [exceedJudged_changed h]
    exact exceedChanged_blocks (s.setRgc r) present x y

theorem retarding_congr (htqa : t.tqa = s.tqa) (htcu : t.tcu = s.tcu) (f : TqaWheel → Nat) :
    t.retarding f = s.retarding f := by
  unfold State.retarding
  rw [htqa, htcu]

/-- The RGC's quantities that no delivery alters, after a hold update. -/
theorem HoldForm.law (h : HoldForm s r present x y x' y' b) (ht : t = settle (holdSteps s)) :
    t.rgc.law = { r with
      exceeded := present, exceedTime := x, clearTime := y, shortfallTime := x'
      recoveryTime := y' }.law := by
  have hp : (putRgcSection ((s.holdJudged r present x y).causesTested x' y' b)).rgc =
    ((s.holdJudged r present x y).causesTested x' y' b).rgc := by simp
  rw [ht, settle_law, h.steps, hp, causesTested_rgc, holdJudged_rgc]
  rfl

theorem putRgcSection_same (s : State) : SameOutside [(0x2060, 64)] s (putRgcSection s) := by
  intro z hz
  have := hz _ (List.mem_singleton_self _)
  exact put_byte_outside (by
    have hl : s.rgcWords.length = 32 := by simp [State.rgcWords, longWords, natLong]
    simp only at this
    omega)

theorem putRgcSection_steady (h : Steady false a s) : Steady false a (putRgcSection s) :=
  put_steady_page h 32 (by simp [State.rgcWords, longWords, natLong]) (.inr (by decide))

theorem holdJudged_steady (s : State) (r : Rgc) (present : Bool) (x y : Nat) :
    Steady false s (s.holdJudged r present x y) := by
  have h : Steady false s (s.setRgc r) := setRgc_steady (.refl false s) nofun
  unfold State.holdJudged
  by_cases hp : present = (s.setRgc r).rgc.exceeded
  · rw [exceedJudged_same hp]
    exact setRgc_steady h nofun
  · rw [exceedJudged_changed hp]
    exact h.trans (exceedChanged_steady (s.setRgc r) present x y)

theorem hold_undisturbed (h : HoldForm s r present x y x' y' b) (ht : t = settle (holdSteps s)) :
    Undisturbed s t := by
  rw [ht]
  refine undisturbed_settle ?_ (holdSteps_keeps (.refl false s))
  rw [h.steps]
  exact putRgcSection_steady (causesTested_steady (holdJudged_steady s r present x y) _ _ _)

theorem exec_holdUpdate (hs : s.isRunning = true) : exec .holdUpdate s = .next (settle (holdSteps s)) :=
  whenRunning_of_running hs fun s => settle (holdSteps s)

/-! ### The clauses -/

theorem HoldForm.times (h : HoldForm s r present x y x' y' b) (ht : t = settle (holdSteps s)) :
    t.rgc.exceedTime = x ∧ t.rgc.clearTime = y ∧ t.rgc.exceeded = present ∧
    t.rgc.shortfallTime = x' ∧ t.rgc.recoveryTime = y' ∧ t.rgc.period = s.cfg.allocPeriod := by
  have hl := h.law ht
  exact ⟨(congrArg Rgc.exceedTime hl :), (congrArg Rgc.clearTime hl :), (congrArg Rgc.exceeded hl :),
    (congrArg Rgc.shortfallTime hl :), (congrArg Rgc.recoveryTime hl :),
    (congrArg Rgc.period hl :).trans h.kept.1⟩

theorem HoldForm.values (h : HoldForm s r present x y x' y' b) (ht : t = settle (holdSteps s)) :
    t.rgc.hold = r.hold ∧ t.rgc.vEnv = r.vEnv ∧ t.rgc.vHoldEff = r.vHoldEff ∧
    t.rgc.integrator = r.integrator ∧ t.rgc.dHold = r.dHold ∧ t.rgc.forced = r.forced := by
  have hl := h.law ht
  exact ⟨(congrArg Rgc.hold hl :), (congrArg Rgc.vEnv hl :), (congrArg Rgc.vHoldEff hl :),
    (congrArg Rgc.integrator hl :), (congrArg Rgc.dHold hl :), (congrArg Rgc.forced hl :)⟩

theorem payloadBandOf_some (p : Nat) : payloadBandOf (some p) = min 5 ((p - 1) / 200) := by
  simp only [payloadBandOf]
  split_ifs <;> omega

theorem gradeBandOf_known {g : Int} (hg : 0 < g) : gradeBandOf true g = min 7 ((g.toNat - 1) / 20) := by
  simp only [gradeBandOf, Bool.not_true, Bool.false_eq_true, if_false]
  split_ifs <;> omega

theorem boundedBy_eq (v top : Nat) (cap : Option Nat) :
    boundedBy (min v top) cap = min (min v top) (cap.getD top) := by
  cases cap with
  | none => simp [boundedBy]
  | some n => rfl

/-- The envelope speed (R126). -/
theorem envelopeSpeed_eq {g : Int} {top row col : Nat}
    (hg : g = if s.dmc.adopted = .forward then -s.dmc.demand.grade else s.dmc.demand.grade)
    (htop : top = if s.dmc.adopted = .forward then s.tqa.maxForward else s.tqa.maxReverse)
    (hrow : row = match s.lmu.payload with
      | some p => min 5 ((p * 1000 / s.cfg.ratedPayload - 1) / 200)
      | none => 5)
    (hcol : col = if s.dmc.demand.gradeKnown then min 7 ((g.toNat - 1) / 20) else 7) :
    s.envelopeSpeed = if s.dmc.demand.gradeKnown = true ∧ g ≤ 0 then top
      else min (min (s.rgc.table.getD (8 * row + col) 0) top) (s.lmu.speedCap.getD top) := by
  have hdown : s.downhill = g := hg.symm
  have hmax : s.directionMax = top := htop.symm
  have hpay : s.payloadBand = row := by
    unfold State.payloadBand
    rw [hrow]
    cases s.lmu.payload with
    | none => rfl
    | some p => exact payloadBandOf_some _
  unfold State.envelopeSpeed
  rw [hdown, hmax, hpay]
  by_cases hk : s.dmc.demand.gradeKnown = true
  · by_cases h0 : g ≤ 0
    · rw [if_pos (by simp [hk, h0]), if_pos ⟨hk, h0⟩]
    · have hband : s.gradeBand = col := by
        unfold State.gradeBand
        rw [hdown, hk, hcol, if_pos hk]
        exact gradeBandOf_known (by omega)
      rw [if_neg (by simp [h0]), if_neg (fun k => h0 k.2), hband, boundedBy_eq]
  · have hband : s.gradeBand = col := by
      unfold State.gradeBand gradeBandOf
      rw [hcol, if_neg hk, if_pos (by simpa using hk)]
    rw [if_neg (by simp [hk]), if_neg (fun k => hk k.1), hband, boundedBy_eq]

theorem propelLive_iff (s : State) : s.propelLive = true ↔ 0 < s.dmc.demand.propel ∧
    s.dmc.masks.mode = false ∧ s.dmc.masks.pending = false ∧ s.dmc.masks.stale = false ∧
    s.dmc.masks.brake = false := by
  simp [State.propelLive, Masks.anyButForced, and_assoc]

theorem freezes_iff (b : Binding) :
    b.freezes = true ↔ b ∈ [Binding.power, .derate, .slip, .capacity, .clamp] := by
  cases b <;> simp [Binding.freezes]

theorem integratorFrozen_iff (s : State) : s.integratorFrozen = true ↔ s.dmc.substate = .retard ∧
    (∃ w, (s.tqa.wheels.get w).flags.inactive = false) ∧
    ∀ w, (s.tqa.wheels.get w).flags.inactive = false →
      (s.tqa.wheels.get w).binding ∈ [Binding.power, .derate, .slip, .capacity, .clamp] := by
  have hmem (w : Wheel) : w ∈ allWheels := by cases w <;> decide
  unfold State.integratorFrozen State.wasActive
  simp only [Bool.and_eq_true, beq_iff_eq, List.any_eq_true, List.all_eq_true, Bool.or_eq_true,
    Bool.not_eq_true', Bool.not_not, freezes_iff, hmem, true_and, true_implies, and_assoc]
  refine and_congr_right fun _ => and_congr_right fun _ => forall_congr' fun w => ?_
  cases (s.tqa.wheels.get w).flags.inactive <;> simp

/-- The integrator and d_hold (R128). -/
theorem holdRow_formed {v : Nat} {h : Rgc} (hrow : HoldRow s.heldPeriod v h) (hon : h.hold ≠ .off)
    (hlive : ¬(s.propelLive = true ∧ v ≤ h.vEnv)) {e inc : Int} {frozen : Prop}
    (he : e = (v : Int) - h.vHoldEff)
    (hinc : inc = divInt s.cfg.nearest (s.cfg.ki * e * s.cfg.allocPeriod) 10)
    (hfrozen : frozen ↔ s.dmc.substate = .retard ∧
      (∃ w, (s.tqa.wheels.get w).flags.inactive = false) ∧
      ∀ w, (s.tqa.wheels.get w).flags.inactive = false →
        (s.tqa.wheels.get w).binding ∈ [Binding.power, .derate, .slip, .capacity, .clamp]) :
    (frozen ∧ 0 < inc → h.integrator = min 1000000 s.rgc.integrator) ∧
    (¬(frozen ∧ 0 < inc) → h.integrator = min 1000000 ((s.rgc.integrator : Int) + inc).toNat) ∧
    h.dHold = min 1000 (divInt s.cfg.nearest (s.cfg.kp * e) 10 +
      divInt s.cfg.nearest h.integrator 1000).toNat := by
  obtain ⟨hacc, hdem⟩ := hrow.formed hon hlive
  have hi : s.heldPeriod.increment ((v : Int) - h.vHoldEff) = inc := by
    rw [hinc, he]
    rfl
  have hf : s.heldPeriod.integratorFrozen = true ↔ frozen :=
    (integratorFrozen_iff s).trans hfrozen.symm
  rw [hi] at hacc
  refine ⟨fun k => ?_, fun k => ?_, ?_⟩
  · rw [hacc]
    unfold nextIntegrator limit
    rw [if_pos (by rw [hf.2 k.1, decide_eq_true k.2]; rfl)]
    show min 1000000 ((s.rgc.integrator : Int) + 0).toNat = _
    rw [Int.add_zero, Int.toNat_natCast]
  · rw [hacc]
    unfold nextIntegrator limit
    rw [if_neg]
    · rfl
    · intro hk
      obtain ⟨h1, h2⟩ := Bool.and_eq_true_iff.1 hk
      exact k ⟨hf.1 h1, of_decide_eq_true h2⟩
  · rw [hdem, ← he]
    rfl

/-- ENVELOPE_EXCEEDED and its times with a known reference speed (R129). -/
theorem HoldForm.judged (h : HoldForm s r present x y x' y' b) (hr : s.holdRuns = true) {v : Nat}
    (hv : s.tcu.vRef = some v) :
    (r.vEnv + 20 < v → x = min 1000 (s.rgc.exceedTime + s.cfg.allocPeriod) ∧ y = 0 ∧
      present = (s.rgc.exceeded || decide (1000 ≤ x))) ∧
    (v ≤ r.vEnv → y = min 1000 (s.rgc.clearTime + s.cfg.allocPeriod) ∧ x = 0 ∧
      present = (s.rgc.exceeded && !decide (1000 ≤ y))) ∧
    (r.vEnv < v → v ≤ r.vEnv + 20 → x = 0 ∧ y = 0 ∧ present = s.rgc.exceeded) := by
  obtain ⟨hperiod, hex, hxt, hct, -⟩ := h.kept
  have hrow := (h.runs hr).2
  have habove (n : Nat) : (s.setRgc r).above n = decide (n < v) := above_of_known hv n
  have hwithin : (s.setRgc r).withinEnvelope = !decide (r.vEnv < v) := by
    unfold State.withinEnvelope
    rw [habove, show (s.setRgc r).tcu.vRef = some v from hv]
    rfl
  rw [← hperiod, ← hex, ← hxt, ← hct]
  refine ⟨fun k => hrow.above ?_, fun k => hrow.within ?_ ?_, fun k1 k2 => hrow.between ?_ ?_⟩
  · rw [habove]
    exact decide_eq_true k
  · rw [habove]
    exact decide_eq_false (by show ¬r.vEnv + 20 < v; omega)
  · rw [hwithin, decide_eq_false (by omega)]
    rfl
  · rw [habove]
    exact decide_eq_false (Nat.not_lt.2 k2)
  · rw [hwithin, decide_eq_true k1]
    rfl

theorem HoldForm.unjudged (h : HoldForm s r present x y x' y' b) (hr : s.holdRuns = true)
    (hv : s.tcu.vRef = none) : x = 0 ∧ y = 0 ∧ present = s.rgc.exceeded := by
  have habove (n : Nat) : (s.setRgc r).above n = false := by
    unfold State.above
    rw [show (s.setRgc r).tcu.vRef = none from hv]
  have hwithin : (s.setRgc r).withinEnvelope = false := by
    unfold State.withinEnvelope
    rw [show (s.setRgc r).tcu.vRef = none from hv]
    rfl
  rw [← h.kept.2.1]
  exact (h.runs hr).2.between (habove _) hwithin

/-- A change of ENVELOPE_EXCEEDED is reported, and moves the class and the cause (R129, R143). -/
theorem HoldForm.changed (h : HoldForm s r present x y x' y' b) (ht : t = settle (holdSteps s))
    (hok : s.pru.ok) (hne : present ≠ s.rgc.exceeded) : Cls.envelope.isIn t.atc.pending = true ∧
      t.pru.observed .envelopeExceeded .global present ∧ t.rgc.causes.envelope = present ∧
      (s.rgc.causes.envelope ≠ present → Cls.brakeAssist.isIn t.atc.pending = true) := by
  have hne' : present ≠ (s.setRgc r).rgc.exceeded := fun he => hne (he.trans h.kept.2.1)
  have hjudged : s.holdJudged r present x y = (s.setRgc r).exceedChanged present x y :=
    exceedJudged_changed hne'
  obtain ⟨hr1, hr2⟩ := exceedChanged_raised (present := present) (s.setRgc r) x y
  have hfinal := h.steps
  rw [hjudged] at hfinal
  generalize hw : (s.setRgc r).exceedChanged present x y = v at hfinal hr1 hr2
  have hsteady : Steady false v (holdSteps s) := by
    rw [hfinal]
    exact putRgcSection_steady (causesTested_steady (.refl false v) _ _ _)
  have hpru : (holdSteps s).pru = v.pru := by
    rw [hfinal]
    have hrest := congrArg State.pru (causesTested_rest v x' y' b)
    simpa using hrest
  have hcause : (holdSteps s).rgc.causes.envelope = present := by
    have hp : (putRgcSection (v.causesTested x' y' b)).rgc = (v.causesTested x' y' b).rgc := by simp
    rw [hfinal, hp, causesTested_rgc, ← hw, State.testedCauses, exceedChanged_rgc]
  refine ⟨?_, ?_, ?_, fun hc => ?_⟩
  · rw [ht]
    exact settle_isIn (hsteady.attention _ hr1)
  · rw [ht]
    refine settle_observed rfl ?_
    rw [hpru, ← hw, exceedChanged_pru]
    exact note_observed (s := (s.setRgc r).setRgc ((s.setRgc r).rgc.exceedMarked present x y)) hok _ _ _
  · rw [ht, settle_envelope, hcause]
  · rw [ht]
    refine settle_isIn (hsteady.attention _ (hr2 ?_))
    have hce : (s.setRgc r).rgc.causes.envelope = s.rgc.causes.envelope :=
      congrArg Causes.envelope h.kept.2.2.2.2.1
    rw [hce]
    cases hs : s.rgc.causes.envelope <;> cases hp : present <;> simp_all

/-- The times of R142, over the wheels that the allocator found active. -/
theorem HoldForm.shortTimes (h : HoldForm s r present x y x' y' b) {held asked : Nat}
    (hheld : held = s.retarding fun x => x.reference.natAbs) (hasked : asked = s.retarding TqaWheel.request)
    (hsub : s.dmc.substate = .retard) :
    (s.rgc.causes.shortfall = false → x' = if 0 < asked ∧ held * 1000 < 900 * asked then
      (if 300 ≤ s.rgc.shortfallTime + s.cfg.allocPeriod then 300
        else s.rgc.shortfallTime + s.cfg.allocPeriod) else 0) ∧
    (s.rgc.causes.shortfall = true → y' = if asked = 0 ∨ 950 * asked ≤ held * 1000 then
      (if 300 ≤ s.rgc.recoveryTime + s.cfg.allocPeriod then 300
        else s.rgc.recoveryTime + s.cfg.allocPeriod) else 0) := by
  obtain ⟨hperiod, -, -, -, hcauses, -, hst, hrt⟩ := h.kept
  obtain ⟨hdmc, htqa, htcu⟩ := holdJudged_blocks s r present x y
  have hrow := h.short
  have hrgc := holdJudged_rgc s r present x y
  have hfall := holdJudged_shortfall s r present x y
  generalize s.holdJudged r present x y = w at *
  have hret (f : TqaWheel → Nat) : w.retarding f = s.retarding f := retarding_congr htqa htcu f
  have hp : w.rgc.period = s.cfg.allocPeriod := by rw [hrgc]; exact hperiod
  have h1 : w.rgc.shortfallTime = s.rgc.shortfallTime := by rw [hrgc]; exact hst
  have h2 : w.rgc.recoveryTime = s.rgc.recoveryTime := by rw [hrgc]; exact hrt
  have hsub' : w.dmc.substate = .retard := by rw [hdmc]; exact hsub
  rw [hcauses] at hfall
  refine ⟨fun hc => ?_, fun hc => ?_⟩
  · rw [hrow.count hsub' (hfall.trans hc), h1, hp, hheld, hasked, ← hret, ← hret]
    exact if_congr (isShort_iff w) rfl rfl
  · rw [hrow.recover hsub' (hfall.trans hc), h2, hp, hheld, hasked, ← hret, ← hret]
    exact if_congr (isSufficient_iff w) rfl rfl

theorem HoldForm.shortRest (h : HoldForm s r present x y x' y' b) (hsub : s.dmc.substate ≠ .retard) :
    x' = 0 ∧ y' = 0 :=
  h.short.rest (by rw [(holdJudged_blocks s r present x y).1]; exact hsub)

/-- The cause that the test of R142 leaves. -/
theorem HoldForm.shortCause (h : HoldForm s r present x y x' y' b) :
    b = (s.dmc.substate == .retard &&
      (if s.rgc.causes.shortfall then decide (y' < 300) else decide (300 ≤ x'))) := by
  rw [h.short.cause, (holdJudged_blocks s r present x y).1, holdJudged_shortfall, h.kept.2.2.2.2.1]

/-- While the condition stays and no delivery is due, the update is the state with hold's values and the
tested causes, shown. -/
theorem HoldForm.quiet (h : HoldForm s r present x y x' y' b) (ht : t = settle (holdSteps s))
    (hd : s.delivered = true) (hp : present = s.rgc.exceeded) : t = putRgcSection
      ((s.setRgc { r with exceedTime := x, clearTime := y }).causesTested x' y' b) := by
  have hfinal := h.steps
  rw [holdJudged_pru hp h.kept.2.1] at hfinal
  have hpru : (holdSteps s).pru = s.pru := by
    rw [hfinal]
    have hrest := congrArg State.pru (causesTested_rest
      (s.setRgc { r with exceedTime := x, clearTime := y }) x' y' b)
    simpa using hrest
  rw [ht, settle_of_same_pru (s := s) hpru hd]
  exact hfinal

/-- The state that a quiet update shows: hold's values, the times, and the causes before the tests. -/
def State.holdPut (s : State) (r : Rgc) (x y : Nat) : State :=
  s.setRgc { r with exceedTime := x, clearTime := y }

theorem HoldForm.quietRgc (h : HoldForm s r present x y x' y' b)
    (hq : t = putRgcSection ((s.holdPut r x y).causesTested x' y' b)) : t.rgc =
      { ({ r with exceedTime := x, clearTime := y }).shortTimed x' y' with
        causes := s.testedCauses b
        pulse := if s.cfg.outputMode = 1 ∧ s.rgc.causes.any = false ∧ b = true then some (s.clock + 500)
          else s.rgc.pulse } := by
  obtain ⟨-, -, -, -, hcauses, hpulse, -⟩ := h.kept
  have hp : (putRgcSection ((s.holdPut r x y).causesTested x' y' b)).rgc =
    ((s.holdPut r x y).causesTested x' y' b).rgc := by simp
  have hc : (s.holdPut r x y).testedCauses b = s.testedCauses b :=
    congrArg (fun k : Causes => { k with
      shortfall := b, postReset := k.postReset && !s.standstill }) hcauses
  have h1 : (s.holdPut r x y).rgc.causes = s.rgc.causes := hcauses
  have h2 : (s.holdPut r x y).rgc.pulse = s.rgc.pulse := hpulse
  have h3 : (s.holdPut r x y).rgc = { r with exceedTime := x, clearTime := y } := rfl
  have h4 : (s.holdPut r x y).cfg = s.cfg := rfl
  have h5 : (s.holdPut r x y).clock = s.clock := rfl
  rw [hq, hp, causesTested_rgc, hc, h1, h2, h3, h4, h5]

theorem quietRest (hq : t = putRgcSection ((s.holdPut r x y).causesTested x' y' b)) :
    { t with xm := s.xm, atc := s.atc, rgc := s.rgc } = s := by
  have h1 := causesTested_rest (s.holdPut r x y) x' y' b
  generalize (s.holdPut r x y).causesTested x' y' b = z at hq h1
  have h2 : { putRgcSection z with xm := z.xm } = z := rfl
  rw [← hq] at h2
  have h3 := congrArg (fun v : State => { v with xm := s.xm, atc := s.atc, rgc := s.rgc }) h2
  exact h3.trans (congrArg (fun v : State => { v with rgc := s.rgc }) h1)

/-- What a quiet update leaves of the RGC. -/
theorem HoldForm.quietKept (h : HoldForm s r present x y x' y' b)
    (hq : t = putRgcSection ((s.holdPut r x y).causesTested x' y' b)) :
    { t.rgc with
      hold := s.rgc.hold, vEnv := s.rgc.vEnv, vHoldEff := s.rgc.vHoldEff
      integrator := s.rgc.integrator, dHold := s.rgc.dHold, forced := s.rgc.forced
      frozen := s.rgc.frozen, payloadBand := s.rgc.payloadBand
      gradeBand := s.rgc.gradeBand, exceedTime := s.rgc.exceedTime
      clearTime := s.rgc.clearTime, causes := s.rgc.causes, pulse := s.rgc.pulse
      shortfallTime := s.rgc.shortfallTime, recoveryTime := s.rgc.recoveryTime
      period := s.rgc.period } = s.rgc := by
  rw [h.quietRgc hq]
  exact congrArg (fun g : Rgc => { g with
    exceedTime := s.rgc.exceedTime, clearTime := s.rgc.clearTime, causes := s.rgc.causes
    pulse := s.rgc.pulse, shortfallTime := s.rgc.shortfallTime, recoveryTime := s.rgc.recoveryTime
    period := s.rgc.period }) h.only.rest

theorem quietShown (hq : t = putRgcSection ((s.holdPut r x y).causesTested x' y' b)) :
    t.showsAt 0x2060 t.rgcWords := by
  generalize (s.holdPut r x y).causesTested x' y' b = z at hq
  have hw : t.rgcWords = z.rgcWords := by rw [hq]; rfl
  rw [hw, hq]
  exact put_showsAt

theorem quietSame (hq : t = putRgcSection ((s.holdPut r x y).causesTested x' y' b)) :
    SameOutside [(0x2060, 64), pendingRegion] s t := by
  have h1 : SameOutside [pendingRegion] s ((s.holdPut r x y).causesTested x' y' b) :=
    causesTested_same (s.holdPut r x y) x' y' b
  rw [hq]
  exact (h1.mono (by simp)).trans ((putRgcSection_same _).mono (by simp))

theorem HoldForm.quietRaised (h : HoldForm s r present x y x' y' b)
    (hq : t = putRgcSection ((s.holdPut r x y).causesTested x' y' b))
    (hne : s.testedCauses b ≠ s.rgc.causes) : Cls.brakeAssist.isIn t.atc.pending = true := by
  have hcauses : (s.holdPut r x y).rgc.causes = s.rgc.causes := h.kept.2.2.2.2.1
  have hc : (s.holdPut r x y).testedCauses b = s.testedCauses b :=
    congrArg (fun k : Causes => { k with
      shortfall := b, postReset := k.postReset && !s.standstill }) hcauses
  have hraised := causesTested_raised (s := s.holdPut r x y) (b := b) (by rw [hc, hcauses]; exact hne) x' y'
  rw [hq]
  simpa using hraised

end

end

theorem brakeAssist_iff (s : State) : s.brakeAssist = true ↔
    if s.cfg.outputMode = 1 then s.rgc.pulse ≠ none ∨ s.dmc.mode = .tripped
    else s.rgc.causes.shortfall = true ∨ s.rgc.causes.envelope = true ∨
      s.rgc.causes.tripped = true ∨ s.rgc.causes.safeStop = true ∨
      s.rgc.causes.postReset = true := by
  unfold State.brakeAssist
  by_cases h : s.cfg.outputMode = 1
  · rw [if_pos h, if_pos h, Bool.or_eq_true, Option.isSome_iff_ne_none, beq_iff_eq]
  · rw [if_neg h, if_neg h]
    simp only [Causes.any, Bool.or_eq_true, or_assoc]

/-- Settles O52: the output, the values of hold, ENVELOPE_EXCEEDED, and the two causes of R142 and
R143. -/
theorem holdUpdated : Obligations.HoldUpdated := by
  refine ⟨brakeAssist_iff, fun s g top row col ms hs hok hg htop hrow hcol hms => ?_⟩
  obtain ⟨r, present, x, y, x', y', b, h⟩ := holdSteps_form s
  generalize ht : settle (holdSteps s) = t
  have hexec := exec_holdUpdate hs
  rw [ht] at hexec
  have ht := ht.symm
  obtain ⟨h1, h2, h3, h4, h5, h6⟩ := h.times ht
  obtain ⟨v1, v2, v3, v4, v5, v6⟩ := h.values ht
  have hund := hold_undisturbed h ht
  refine ⟨t, hexec, hund, h6.trans hms.symm, fun hruns => ?_, fun hruns => ?_, fun hne => ?_,
    fun hsub => ?_, fun held asked hheld hasked hsub => ?_, fun hd hsame c hc => ?_, fun hd hsame => ?_⟩
  · obtain ⟨hr, hp, hx, hy⟩ := h.rests (Bool.eq_false_iff.2 (mt (holdRuns_iff s).1 hruns))
    rw [v1, v2, v3, v4, v5, v6, h1, h2, h3, hr, hp, hx, hy]
    exact ⟨rfl, rfl, rfl, rfl, rfl, rfl, rfl, rfl, rfl⟩
  · have hr := (holdRuns_iff s).2 hruns
    have hheld := (h.runs hr).1
    have henv : r.vEnv = s.envelopeSpeed := by rw [hheld, heldState_vEnv]; rfl
    refine ⟨by rw [v2, henv]; exact envelopeSpeed_eq hg htop hrow hcol, fun hv => ?_, fun v hv => ?_⟩
    · obtain ⟨u1, u2, u3, u4, u5⟩ := heldState_unknown (s := s.heldPeriod) hv
      obtain ⟨e1, e2, e3⟩ := h.unjudged hr hv
      rw [v1, v3, v4, v5, v6, h1, h2, h3, hheld]
      exact ⟨u1, u2, u3, u4, u5, e1, e2, e3⟩
    · have hk := heldState_known (s := s.heldPeriod) hv
      rw [← hheld] at hk
      obtain ⟨e1, e2, e3⟩ := h.judged hr hv
      rw [← hms] at e1 e2
      rw [v1, v2, v3, v4, v5, v6, h1, h2, h3]
      refine ⟨hk.setpoint, hk.envelope, hk.off, fun live hlive => ?_, e1, e2, e3⟩
      have hl : s.heldPeriod.propelLive = true ↔ live := (propelLive_iff s).trans hlive.symm
      refine ⟨hk.forced.trans (and_congr_left fun _ => hl), fun ho => hk.skipped ?_,
        fun hon hno e inc frozen he hinc hfrozen => holdRow_formed hk hon ?_ he (hms ▸ hinc) hfrozen⟩
      · exact ho.imp id fun k => ⟨hl.2 k.1, k.2⟩
      · exact fun k => hno ⟨hl.1 k.1, k.2⟩
  · rw [h3] at hne ⊢
    exact h.changed ht hok hne
  · rw [h4, h5]
    exact h.shortRest hsub
  · rw [h4, h5, hms]
    exact h.shortTimes hheld hasked hsub
  · have hq := h.quiet ht hd (h3.symm.trans hsame)
    have hcb : c = s.testedCauses b := by
      rw [hc, h4, h5, ← h.shortCause]
      rfl
    have hb : c.shortfall = b := by rw [hcb]; rfl
    rw [hb, hcb]
    refine ⟨by rw [h.quietRgc hq], h.quietRaised hq, by rw [h.quietRgc hq]⟩
  · have hq := h.quiet ht hd (h3.symm.trans hsame)
    refine ⟨fun _ => quietShown hq, quietSame hq, ?_⟩
    refine Eq.trans ?_ (quietRest hq)
    rw [h.quietKept hq, hund.attention]

end Sys2Proof.Machine
end

section
/-! The judgement of slip, and the reference speed that goes with it (O58). -/

namespace Sys2Proof.Machine

section
variable {s t u : State} {c : Params} {sub : Substate} {clock : Long} {lambda : Int} {r : TcuWheel}

/-! ### The reference speed (R108, R111) -/

theorem leastOf_spec : ∀ {l : List Nat} {v : Nat}, v ∈ l →
    ∃ m, leastOf l = some m ∧ m ∈ l ∧ m ≤ v
  | [], _, h => absurd h List.not_mem_nil
  | x :: xs, v, h => by
    refine ⟨_, rfl, ?_⟩
    induction xs generalizing v with
    | nil => exact ⟨by simp, by simpa using (List.mem_singleton.1 h).ge⟩
    | cons y ys ih =>
      simp only [List.foldr_cons]
      obtain ⟨hm, hx⟩ := ih x List.mem_cons_self
      constructor
      · rcases Nat.le_total y (ys.foldr min x) with hy | hy
        · rw [Nat.min_eq_left hy]; simp
        · rw [Nat.min_eq_right hy]
          rcases List.mem_cons.1 hm with hm | hm <;> simp [hm]
      · rcases List.mem_cons.1 h with rfl | h
        · exact (Nat.min_le_right _ _).trans hx
        · rcases List.mem_cons.1 h with rfl | h
          · exact Nat.min_le_left _ _
          · exact (Nat.min_le_right _ _).trans (ih _ (List.mem_cons_of_mem _ h)).2

theorem greatestOf_spec : ∀ {l : List Nat} {v : Nat}, v ∈ l →
    ∃ m, greatestOf l = some m ∧ m ∈ l ∧ v ≤ m
  | [], _, h => absurd h List.not_mem_nil
  | x :: xs, v, h => by
    refine ⟨_, rfl, ?_⟩
    induction xs generalizing v with
    | nil => exact ⟨by simp, by simpa using (List.mem_singleton.1 h).le⟩
    | cons y ys ih =>
      simp only [List.foldr_cons]
      obtain ⟨hm, hx⟩ := ih x List.mem_cons_self
      constructor
      · rcases Nat.le_total y (ys.foldr max x) with hy | hy
        · rw [Nat.max_eq_right hy]
          rcases List.mem_cons.1 hm with hm | hm <;> simp [hm]
        · rw [Nat.max_eq_left hy]; simp
      · rcases List.mem_cons.1 h with rfl | h
        · exact hx.trans (Nat.le_max_right _ _)
        · rcases List.mem_cons.1 h with rfl | h
          · exact Nat.le_max_left _ _
          · exact (ih _ (List.mem_cons_of_mem _ h)).2.trans (Nat.le_max_right _ _)

theorem reporting_iff (r : UnitRec) : r.reporting = true ↔
    (r.state = .enrolled ∨ r.state = .missing) ∧ r.held ≠ .none := by
  cases h : r.state <;> simp [UnitRec.reporting, UnitRec.present, h]

theorem speedWheel_iff (s : State) (w : Wheel) : s.speedWheel w = true ↔ s.isSpeedWheel w := by
  simp only [State.speedWheel, State.isSpeedWheel, Bool.and_eq_true, reporting_iff, Bool.not_eq_true',
    Option.isSome_iff_ne_none, and_assoc]

theorem judgedQuality_eq (s : State) : s.judgedQuality = s.qualityNow := by
  have hf : (s.cfg.rearPair && s.cfg.steerSau && s.wlc.sau.reporting) = true ↔
      s.cfg.arrangement = 0x2E2E ∧ s.cfg.steerSource = 0x5C5C ∧
        (s.wlc.sau.state = .enrolled ∨ s.wlc.sau.state = .missing) ∧ s.wlc.sau.held ≠ .none := by
    simp only [Bool.and_eq_true, Params.rearPair, Params.steerSau, beq_iff_eq, reporting_iff, and_assoc]
  simp only [State.judgedQuality, State.qualityNow, hf, Option.isSome_iff_ne_none]

theorem mem_wheelGrounds {v : Nat} : v ∈ s.wheelGrounds ↔ ∃ w, s.isSpeedWheel w ∧ s.groundOf w = v := by
  simp only [State.wheelGrounds, List.mem_map, List.mem_filter, speedWheel_iff]
  refine exists_congr fun w => and_congr (and_iff_right ?_) Iff.rfl
  cases w <;> simp [allWheels]

theorem takesLeast_iff (d : Dmc) : d.takesLeast = true ↔ d.substate = .propel ∨ d.substate = .coast ∨
    d.substate = .changeover ∧ d.target = .propel := by
  cases h : d.substate <;> simp [Dmc.takesLeast, h]

theorem takesLeast_false_iff (d : Dmc) : d.takesLeast = false ↔ d.substate = .retard ∨ d.substate = .none ∨
    d.substate = .changeover ∧ d.target ≠ .propel := by
  cases h : d.substate <;> simp [Dmc.takesLeast, h]

/-- The quality that R108 gives, and in quality DEGRADED the speed that the speed wheels give, are the
reference speed of the statements. -/
theorem ReferenceTaken.of_judged (hq : t.tcu.quality = t.judgedQuality)
    (hv : t.tcu.quality = .degraded → t.tcu.vRef = t.degradedSpeed) : ReferenceTaken t where
  quality := hq.trans (judgedQuality_eq t)
  unknown := fun hd hn => by
    have : t.wheelGrounds = [] :=
      List.eq_nil_iff_forall_not_mem.2 fun v h => (mem_wheelGrounds.1 h).elim fun w h => hn w h.1
    rw [hv hd, State.degradedSpeed, this]
    split <;> rfl
  known := fun hd w hw => by
    have hmem : t.groundOf w ∈ t.wheelGrounds := mem_wheelGrounds.2 ⟨w, hw, rfl⟩
    rw [hv hd, State.degradedSpeed, ← takesLeast_iff, ← takesLeast_false_iff]
    cases t.dmc.takesLeast with
    | true =>
      obtain ⟨m, hm, hin, hle⟩ := leastOf_spec hmem
      exact ⟨m, hm, mem_wheelGrounds.1 hin, fun _ => hle, nofun⟩
    | false =>
      obtain ⟨m, hm, hin, hle⟩ := greatestOf_spec hmem
      exact ⟨m, hm, mem_wheelGrounds.1 hin, nofun, fun _ => hle⟩

/-! ### What a recomputation leaves -/

theorem recomputeVRef_tcu (s : State) : ∃ v stamp,
    (recomputeVRef s).tcu = { s.tcu with vRef := v, stamp := stamp } := by
  unfold recomputeVRef
  cases s.tcu.quality with
  | front => cases frontSpeed s.cfg s.wlc.sau.report <;> exact ⟨_, _, rfl⟩
  | hint => exact ⟨_, _, rfl⟩
  | degraded => exact ⟨_, _, rfl⟩

@[simp] theorem recomputeVRef_quality (s : State) : (recomputeVRef s).tcu.quality = s.tcu.quality := by
  obtain ⟨v, st, h⟩ := recomputeVRef_tcu s
  rw [h]

@[simp] theorem recomputeVRef_wheels (s : State) : (recomputeVRef s).tcu.wheels = s.tcu.wheels := by
  obtain ⟨v, st, h⟩ := recomputeVRef_tcu s
  rw [h]

@[simp] theorem recomputeIn_quality (q : Quality) (s : State) :
    (recomputeIn q s).tcu.quality = s.tcu.quality := by
  unfold recomputeIn
  split <;> simp

@[simp] theorem recomputeIn_wheels (q : Quality) (s : State) :
    (recomputeIn q s).tcu.wheels = s.tcu.wheels := by
  unfold recomputeIn
  split <;> simp

@[simp] theorem judgeQuality_wheels (s : State) : (judgeQuality s).tcu.wheels = s.tcu.wheels := by
  unfold judgeQuality
  split <;> simp

@[simp] theorem judgeQuality_quality (s : State) : (judgeQuality s).tcu.quality = s.judgedQuality := by
  unfold judgeQuality
  split
  · next h => exact h.symm
  · simp

/-- The judged quality reads the configuration, the SAU's record and the demand record. -/
theorem judgedQuality_congr (hcfl : t.cfl = s.cfl) (hwlc : t.wlc = s.wlc) (hdmc : t.dmc = s.dmc) :
    t.judgedQuality = s.judgedQuality := by
  have hcfg : t.cfg = s.cfg := congrArg Cfl.active hcfl
  rw [State.judgedQuality, State.judgedQuality, hcfg, hwlc, hdmc]

theorem degradedSpeed_congr (hcfl : t.cfl = s.cfl) (hwlc : t.wlc = s.wlc) (hdmc : t.dmc = s.dmc)
    (htcu : t.tcu.wheels = s.tcu.wheels) (hpru : t.pru = s.pru) : t.degradedSpeed = s.degradedSpeed := by
  have hcfg : t.cfg = s.cfg := congrArg Cfl.active hcfl
  have hspeed : t.speedWheel = s.speedWheel := funext fun w => by
    rw [State.speedWheel, State.speedWheel, hcfg, hwlc, htcu, hpru]
  have hgrounds : t.wheelGrounds = s.wheelGrounds := by
    simp only [State.wheelGrounds, State.wheelSpeed]
    rw [hspeed, hcfg, htcu]
  rw [State.degradedSpeed, State.degradedSpeed, hgrounds, hdmc]

theorem recomputeIn_degraded (h : s.tcu.quality = .degraded) :
    (recomputeIn .degraded s).tcu.vRef = (recomputeIn .degraded s).degradedSpeed := by
  rw [degradedSpeed_congr (s := s) (by simp) (by simp) (by simp) (by simp) (by simp), recomputeIn, if_pos h,
    recomputeVRef, h]
  rfl

/-- A judgement of the quality and a recomputation in quality DEGRADED take the reference speed. -/
theorem judged_referenceTaken (s : State) : ReferenceTaken (recomputeIn .degraded (judgeQuality s)) := by
  refine .of_judged ?_ fun h => recomputeIn_degraded (by simpa using h)
  rw [recomputeIn_quality, judgeQuality_quality]
  exact (judgedQuality_congr (by simp) (by simp) (by simp)).symm

/-- The reference speed reads no more than these. -/
theorem ReferenceTaken.congr (h : ReferenceTaken s) (hcfl : t.cfl = s.cfl) (hwlc : t.wlc = s.wlc)
    (hdmc : t.dmc = s.dmc) (htcu : t.tcu = s.tcu) (hpru : t.pru = s.pru) : ReferenceTaken t := by
  have hspeed : ∀ w, t.isSpeedWheel w ↔ s.isSpeedWheel w := fun w => by
    simp only [State.isSpeedWheel, State.cfg, hcfl, hwlc, htcu, hpru]
  have hground : ∀ w, t.groundOf w = s.groundOf w := fun w => by
    simp only [State.groundOf, State.cfg, hcfl, htcu]
  have hquality : t.qualityNow = s.qualityNow := by
    have hcfg : t.cfg = s.cfg := congrArg Cfl.active hcfl
    rw [State.qualityNow, State.qualityNow, hcfg, hwlc, hdmc]
  refine ⟨by rw [htcu, hquality, h.quality], ?_, ?_⟩ <;> simp only [hspeed, hground, htcu, hdmc]
  · exact h.unknown
  · exact h.known

theorem ReferenceTaken.putTcuSection (h : ReferenceTaken s) : ReferenceTaken (putTcuSection s) :=
  h.congr (by simp) (by simp) (by simp) (by simp) (by simp)

/-! ### One wheel's record (R117) -/

@[simp] theorem alterWheel_wheel (w : Wheel) (r : TcuWheel) (s : State) :
    (alterWheel w r s).tcu.wheels.get w = r := by
  unfold alterWheel
  split
  · next h => exact h.symm
  · simp [setTcuWheel]

theorem alterWheel_other {v w : Wheel} (h : v ≠ w) (r : TcuWheel) (s : State) :
    (alterWheel w r s).tcu.wheels.get v = s.tcu.wheels.get v := by
  unfold alterWheel
  split
  · rfl
  · simp [setTcuWheel, PerWheel_get_set, h]

theorem leaveSubstate_eq (r : TcuWheel) : r.leaveSubstate = { r with
    slip := if r.slip = .slip ∨ r.slip = .slide then .recover else r.slip
    slideStart := if r.slip = .slip ∨ r.slip = .slide then none else r.slideStart
    count := 0 } := by
  cases h : r.slip <;> simp [TcuWheel.leaveSubstate, h]

theorem wheelsLeave_wheel (w : Wheel) (s : State) :
    (forWheels (fun w s => alterWheel w (s.tcu.wheels.get w).leaveSubstate s) s).tcu.wheels.get w =
      (s.tcu.wheels.get w).leaveSubstate :=
  forWheels_reaches (A := fun u => u.tcu.wheels.get w = s.tcu.wheels.get w)
    (B := fun u => u.tcu.wheels.get w = (s.tcu.wheels.get w).leaveSubstate) w
    (fun _ hv _ h => (alterWheel_other hv.symm _ _).trans h) (fun _ h => by rw [alterWheel_wheel, h])
    (fun _ hv _ h => (alterWheel_other hv.symm _ _).trans h) rfl

/-- A substate change at the TCU (R108, R111, R117). -/
theorem tcuSubstateChange_wheel (w : Wheel) (s : State) : (tcuSubstateChange s).tcu.wheels.get w =
    (s.tcu.wheels.get w).leaveSubstate := by
  simp only [tcuSubstateChange, runAll, putTcuSection_frame, recomputeIn_wheels, judgeQuality_wheels]
  exact wheelsLeave_wheel w s

theorem tcuSubstateChange_referenceTaken (s : State) : ReferenceTaken (tcuSubstateChange s) := by
  simp only [tcuSubstateChange, runAll]
  exact (judged_referenceTaken _).putTcuSection

/-! ### An exclusion change (R117) -/

theorem noteIf_observed_other {j k : Kind} {subject other : Subject} (h : ¬(k = j ∧ subject = other))
    {b e present : Bool} (ho : s.pru.observed k subject b) :
    (noteIf e j other present s).pru.observed k subject b := by
  unfold noteIf
  split
  · exact note_observed_other h ho
  · exact ho

/-- What the TCU does at an exclusion change for one wheel. -/
def takeExclusion (old : PerWheel Bool) (w : Wheel) (s : State) : State :=
  if s.pru.wheelEx.get w && !old.get w then excludeAtTcu w s else s

theorem tcuExclusion_eq (old : PerWheel Bool) (s : State) : tcuExclusion old s =
    putTcuSection (recomputeIn .degraded (judgeQuality (forWheels (takeExclusion old) s))) := rfl

@[simp] theorem note_wheelEx (k : Kind) (subject : Subject) (present : Bool) (s : State) :
    (note k subject present s).pru.wheelEx = s.pru.wheelEx := by
  rw [note_pru]

@[simp] theorem noteIf_wheelEx (b : Bool) (k : Kind) (subject : Subject) (present : Bool) (s : State) :
    (noteIf b k subject present s).pru.wheelEx = s.pru.wheelEx := by
  unfold noteIf
  split <;> simp

@[simp] theorem takeExclusion_wheelEx (old : PerWheel Bool) (w : Wheel) (s : State) :
    (takeExclusion old w s).pru.wheelEx = s.pru.wheelEx := by
  unfold takeExclusion excludeAtTcu
  split <;> simp

theorem takeExclusion_other {old : PerWheel Bool} {v w : Wheel} (h : v ≠ w) (s : State) :
    (takeExclusion old v s).tcu.wheels.get w = s.tcu.wheels.get w := by
  unfold takeExclusion excludeAtTcu
  split
  · simpa using alterWheel_other h.symm _ s
  · rfl

theorem takeExclusion_observed_other {old : PerWheel Bool} {v w : Wheel} (h : v ≠ w) {b : Bool}
    (ho : s.pru.observed .wheelSlide (.wheel w) b) :
    (takeExclusion old v s).pru.observed .wheelSlide (.wheel w) b := by
  unfold takeExclusion excludeAtTcu
  split
  · exact noteIf_observed_other (fun hp => h (Subject.wheel.inj hp.2).symm) (by simpa using ho)
  · exact ho

theorem takeExclusion_ok (old : PerWheel Bool) (v : Wheel) (hok : s.pru.ok) :
    (takeExclusion old v s).pru.ok := by
  unfold takeExclusion excludeAtTcu
  split
  · simp only [noteIf]
    split
    · exact note_ok (by simpa using hok) _ _ _
    · simpa using hok
  · exact hok

/-- What an exclusion change leaves of a wheel: one that it adds stands in GRIP with its condition gone, and
reported absent when it was present; every other one is as before. -/
structure ExclusionTaken (old : PerWheel Bool) (w : Wheel) (s t : State) : Prop where
  added : s.pru.wheelEx.get w = true → old.get w = false →
    t.tcu.wheels.get w = (s.tcu.wheels.get w).toGrip ∧
      ((s.tcu.wheels.get w).slideCond = true → t.pru.observed .wheelSlide (.wheel w) false)
  other : ¬(s.pru.wheelEx.get w = true ∧ old.get w = false) →
    t.tcu.wheels.get w = s.tcu.wheels.get w

theorem takeExclusion_taken (old : PerWheel Bool) (w : Wheel) (hok : s.pru.ok) :
    ExclusionTaken old w s (takeExclusion old w s) := by
  by_cases hc : s.pru.wheelEx.get w = true ∧ old.get w = false
  · rw [takeExclusion, if_pos (by simpa using hc)]
    refine ⟨fun _ _ => ⟨by simp [excludeAtTcu], fun hs => ?_⟩, fun hn => absurd hc hn⟩
    unfold excludeAtTcu noteIf
    rw [if_pos hs]
    exact note_observed (by simpa using hok) _ _ _
  · rw [takeExclusion, if_neg (by simpa using hc)]
    exact ⟨fun h h' => absurd ⟨h, h'⟩ hc, fun _ => rfl⟩

theorem forWheels_exclusionTaken (old : PerWheel Bool) (w : Wheel) (hok : s.pru.ok) :
    ExclusionTaken old w s (forWheels (takeExclusion old) s) := by
  refine forWheels_reaches (f := takeExclusion old)
    (A := fun u => u.pru.ok ∧ u.pru.wheelEx = s.pru.wheelEx ∧ u.tcu.wheels.get w = s.tcu.wheels.get w)
    (B := fun u => ExclusionTaken old w s u) w ?_ ?_ ?_ ⟨hok, rfl, rfl⟩
  · rintro v hv u ⟨huok, hex, hw⟩
    exact ⟨takeExclusion_ok old v huok, (takeExclusion_wheelEx old v u).trans hex,
      (takeExclusion_other hv u).trans hw⟩
  · rintro u ⟨huok, hex, hw⟩
    obtain ⟨hadd, hother⟩ := takeExclusion_taken old w huok
    rw [hex, hw] at hadd hother
    exact ⟨hadd, hother⟩
  · rintro v hv u ⟨hadd, hother⟩
    have hsame := takeExclusion_other (old := old) hv u
    exact ⟨fun h h' => ⟨hsame.trans (hadd h h').1, fun hs =>
      takeExclusion_observed_other hv ((hadd h h').2 hs)⟩, fun hn => hsame.trans (hother hn)⟩

theorem tcuExclusion_taken (old : PerWheel Bool) (w : Wheel) (hok : s.pru.ok) :
    ExclusionTaken old w s (tcuExclusion old s) := by
  obtain ⟨hadd, hother⟩ := forWheels_exclusionTaken old w hok
  rw [tcuExclusion_eq]
  exact ⟨by simpa using hadd, by simpa using hother⟩

theorem tcuExclusion_referenceTaken (old : PerWheel Bool) (s : State) :
    ReferenceTaken (tcuExclusion old s) := by
  rw [tcuExclusion_eq]
  exact (judged_referenceTaken _).putTcuSection

/-! ### The judgement of one report, on the wheel's record (R113 to R118) -/

theorem judgeSlide_rest (r : TcuWheel) (c : Params) (clock : Long) :
    (r.judgeSlide c clock).slip = r.slip ∧ (r.judgeSlide c clock).factor = r.factor ∧
    (r.judgeSlide c clock).count = r.count ∧ (r.judgeSlide c clock).expected = r.expected ∧
    (r.judgeSlide c clock).lambda = r.lambda ∧ (r.judgeSlide c clock).notEvaluated = r.notEvaluated := by
  unfold TcuWheel.judgeSlide
  split
  · cases r.slideStart <;> exact ⟨rfl, rfl, rfl, rfl, rfl, rfl⟩
  · exact ⟨rfl, rfl, rfl, rfl, rfl, rfl⟩

theorem judgeSlide_other (h : ¬(r.slip = .slide ∧ r.factor = c.sMin)) : r.judgeSlide c clock = r :=
  if_neg h

theorem judgeSlide_starts (h : r.slip = .slide ∧ r.factor = c.sMin) (hs : r.slideStart = none) :
    (r.judgeSlide c clock).slideStart = some clock ∧ (r.judgeSlide c clock).slideCond = r.slideCond := by
  rw [TcuWheel.judgeSlide, if_pos h, hs]
  exact ⟨rfl, rfl⟩

theorem judgeSlide_runs (h : r.slip = .slide ∧ r.factor = c.sMin) {start : Long}
    (hs : r.slideStart = some start) : (r.judgeSlide c clock).slideStart = some start ∧
      (r.judgeSlide c clock).slideCond =
        (r.slideCond || decide (c.slideTime ≤ (clock - start).toNat)) := by
  simp [TcuWheel.judgeSlide, if_pos h, hs]

/-- The move of a wheel in GRIP (R114). -/
theorem moveSlip_grip (h : r.slip = .grip) :
    (departure c sub lambda = none → r.moveSlip c sub lambda = { r with count := 0 }) ∧
    ∀ k, departure c sub lambda = some k →
      (r.count + 1 < c.nOn → r.moveSlip c sub lambda = { r with count := r.count + 1 }) ∧
      (c.nOn ≤ r.count + 1 →
        r.moveSlip c sub lambda = { r with slip := k, factor := cutFactor c r.factor, count := 0 }) := by
  have he : r.moveSlip c sub lambda = r.judgeGrip c sub lambda := by rw [TcuWheel.moveSlip, h]
  rw [he, TcuWheel.judgeGrip]
  refine ⟨fun hd => by rw [hd], fun k hd => ?_⟩
  rw [hd]
  exact ⟨fun hn => if_neg (by omega), fun hn => if_pos hn⟩

/-- The ratio of a wheel in SLIP or SLIDE is still beyond λ_on in its sense (R115). -/
def TcuWheel.beyond (r : TcuWheel) (c : Params) (lambda : Int) : Prop :=
  r.slip = .slip ∧ (c.lambdaOn : Int) < lambda ∨ r.slip = .slide ∧ lambda < -(c.lambdaOn : Int)

/-- The move of a wheel in SLIP or SLIDE (R115). -/
theorem moveSlip_loss (h : r.slip = .slip ∨ r.slip = .slide) :
    (r.beyond c lambda → r.moveSlip c sub lambda = { r with factor := cutFactor c r.factor }) ∧
    (¬r.beyond c lambda → r.moveSlip c sub lambda =
      if lambda.natAbs < c.lambdaOff then { r with slip := .recover, slideStart := none } else r) := by
  have hloss : ∀ b : Bool, (b = true ↔ r.beyond c lambda) → r.moveSlip c sub lambda = r.judgeLoss c b lambda →
      (r.beyond c lambda → r.moveSlip c sub lambda = { r with factor := cutFactor c r.factor }) ∧
      (¬r.beyond c lambda → r.moveSlip c sub lambda =
        if lambda.natAbs < c.lambdaOff then { r with slip := .recover, slideStart := none } else r) :=
    fun b hb he => ⟨fun h => by rw [he]; exact if_pos (hb.2 h), fun h => by rw [he]; exact if_neg (mt hb.1 h)⟩
  rcases h with h | h
  · exact hloss (decide ((c.lambdaOn : Int) < lambda)) (by simp [TcuWheel.beyond, h]) (by rw [TcuWheel.moveSlip, h])
  · exact hloss (decide (lambda < -(c.lambdaOn : Int))) (by simp [TcuWheel.beyond, h])
      (by rw [TcuWheel.moveSlip, h])

/-- The move of a wheel in RECOVER (R116). -/
theorem moveSlip_recover (h : r.slip = .recover) :
    (∀ k, departure c sub lambda = some k →
      r.moveSlip c sub lambda = { r with slip := k, factor := cutFactor c r.factor }) ∧
    (departure c sub lambda = none →
      (1000 ≤ r.factor + c.sStep → r.moveSlip c sub lambda = r.toGrip) ∧
      (r.factor + c.sStep < 1000 →
        r.moveSlip c sub lambda = { r with factor := r.factor + c.sStep })) := by
  have he : r.moveSlip c sub lambda = r.judgeRecover c sub lambda := by rw [TcuWheel.moveSlip, h]
  rw [he, TcuWheel.judgeRecover]
  refine ⟨fun k hd => by rw [hd], fun hd => ?_⟩
  rw [hd]
  exact ⟨fun hn => if_pos hn, fun hn => if_neg (by omega)⟩

/-- A departure leads to SLIP or to SLIDE. -/
theorem departure_ne_grip {k : Slip} (h : departure c sub lambda = some k) :
    k ≠ .grip ∧ k ≠ .recover := by
  cases sub <;> simp only [departure] at h <;>
    first
      | cases h
      | (split at h <;> cases h; exact ⟨nofun, nofun⟩)

theorem departure_eq (c : Params) (sub : Substate) (lambda : Int) : departure c sub lambda =
    if sub = .propel ∧ (c.lambdaOn : Int) < lambda then some .slip
    else if sub = .retard ∧ lambda < -(c.lambdaOn : Int) then some .slide else none := by
  cases sub <;> simp [departure]

/-- What the move of the slip state does with the slide's start and condition (R118): only leaving SLIDE
stops the slide's start, and only entering GRIP ends the condition. -/
structure SlideMoved (r m : TcuWheel) : Prop where
  start : m.slip = .slide ∨ m.slip = r.slip ∨ r.slip = .grip → m.slideStart = r.slideStart
  left : r.slip = .slide → m.slip ≠ .slide → m.slideStart = none
  cond : m.slip = r.slip ∨ m.slip ≠ .grip → m.slideCond = r.slideCond
  grip : m.slip = .grip → r.slip ≠ .grip → m.slideCond = false
  judged : m.expected = r.expected ∧ m.lambda = r.lambda ∧ m.notEvaluated = r.notEvaluated

theorem SlideMoved.of_same {m : TcuWheel} (hstart : m.slideStart = r.slideStart)
    (hcond : m.slideCond = r.slideCond) (hslide : r.slip = .slide → m.slip = .slide)
    (hgrip : m.slip = .grip → r.slip = .grip)
    (hj : m.expected = r.expected ∧ m.lambda = r.lambda ∧ m.notEvaluated = r.notEvaluated) :
    SlideMoved r m :=
  ⟨fun _ => hstart, fun h hn => absurd (hslide h) hn, fun _ => hcond, fun h hn => absurd (hgrip h) hn, hj⟩

theorem moveSlip_slide (r : TcuWheel) (c : Params) (sub : Substate) (lambda : Int) :
    SlideMoved r (r.moveSlip c sub lambda) := by
  cases h : r.slip with
  | grip =>
    obtain ⟨hnone, hsome⟩ := moveSlip_grip (c := c) (sub := sub) (lambda := lambda) h
    cases hd : departure c sub lambda with
    | none => rw [hnone hd]; exact .of_same rfl rfl (by simp [h]) (by simp) ⟨rfl, rfl, rfl⟩
    | some k =>
      obtain ⟨hless, hmore⟩ := hsome k hd
      rcases Nat.lt_or_ge (r.count + 1) c.nOn with hn | hn
      · rw [hless hn]; exact .of_same rfl rfl (by simp [h]) (by simp) ⟨rfl, rfl, rfl⟩
      · rw [hmore hn]; exact .of_same rfl rfl (by simp [h]) (by simp [h]) ⟨rfl, rfl, rfl⟩
  | recover =>
    obtain ⟨hsome, hnone⟩ := moveSlip_recover (c := c) (sub := sub) (lambda := lambda) h
    cases hd : departure c sub lambda with
    | some k =>
      rw [hsome k hd]
      exact .of_same rfl rfl (by simp [h]) (fun hk => absurd hk (departure_ne_grip hd).1) ⟨rfl, rfl, rfl⟩
    | none =>
      obtain ⟨hmore, hless⟩ := hnone hd
      rcases Nat.lt_or_ge (r.factor + c.sStep) 1000 with hn | hn
      · rw [hless hn]; exact .of_same rfl rfl (by simp) (by simp) ⟨rfl, rfl, rfl⟩
      · rw [hmore hn]
        exact ⟨by simp [TcuWheel.toGrip, h], by simp [h], by simp [TcuWheel.toGrip, h],
          fun _ _ => rfl, ⟨rfl, rfl, rfl⟩⟩
  | slip | slide =>
    obtain ⟨hb, hn⟩ := moveSlip_loss (c := c) (sub := sub) (lambda := lambda) (r := r) (by simp [h])
    by_cases hbeyond : r.beyond c lambda
    · rw [hb hbeyond]; exact .of_same rfl rfl (by simp) (by simp) ⟨rfl, rfl, rfl⟩
    · rw [hn hbeyond]
      split
      · exact ⟨by simp [h], fun _ _ => rfl, fun _ => rfl, by simp, ⟨rfl, rfl, rfl⟩⟩
      · exact .of_same rfl rfl (by simp) (by simp) ⟨rfl, rfl, rfl⟩

/-! ### Step 5 of R104 -/

theorem judgeSlip_wheel (w : Wheel) (s : State) :
    (judgeSlip w s).tcu.wheels.get w = s.judgedWheel w := by
  simp [judgeSlip, setTcuWheel]

theorem judgeSlip_other {v w : Wheel} (h : v ≠ w) (s : State) :
    (judgeSlip w s).tcu.wheels.get v = s.tcu.wheels.get v := by
  simp [judgeSlip, setTcuWheel, PerWheel_get_set, h]

theorem judgedWheel_skip {w : Wheel} (h : (s.tcu.wheels.get w).discarded = true ∨ s.tcu.vRef = none ∨
    s.pru.wheelEx.get w = true) : s.judgedWheel w = (s.tcu.wheels.get w).skipJudge := by
  unfold State.judgedWheel
  cases hv : s.tcu.vRef with
  | none => rfl
  | some v =>
    simp only
    rw [if_pos]
    rcases h with h | h | h
    · simp [h]
    · rw [hv] at h; cases h
    · simp [h]

/-- The record of a wheel before the move, with the two judged quantities in it. -/
def TcuWheel.measured (r : TcuWheel) (expected lambda : Int) : TcuWheel :=
  { r with expected := expected, lambda := lambda, notEvaluated := false }

theorem judgedWheel_judged {w : Wheel} {v : Nat} (hd : (s.tcu.wheels.get w).discarded = false)
    (hv : s.tcu.vRef = some v) (hex : s.pru.wheelEx.get w = false) {expected lambda : Int}
    (he : expected = divInt s.cfg.nearest (v * (1000 + outerSign s.stc.turn w * s.stc.kappa)) 1000)
    (hl : lambda = divInt s.cfg.nearest
      ((((s.tcu.wheels.get w).ground.natAbs : Int) - expected) * 1000) (max expected s.cfg.vFloor)) :
    s.judgedWheel w = (((s.tcu.wheels.get w).measured expected lambda).moveSlip s.cfg s.dmc.substate
      lambda).judgeSlide s.cfg s.clock := by
  subst he
  subst hl
  simp only [State.judgedWheel, hv, hd, hex, Bool.or_false, Bool.false_eq_true, if_false]
  rfl

end

/-- Settles O58. -/
theorem slipJudged : Obligations.SlipJudged := by
  unfold Obligations.SlipJudged
  refine ⟨?_, ?_, ?_⟩
  · rintro s w before after rfl rfl
    exact ⟨(tcuSubstateChange_wheel w s).trans (leaveSubstate_eq _), tcuSubstateChange_referenceTaken s⟩
  · rintro s old w before after hok rfl rfl
    obtain ⟨hadd, hother⟩ := tcuExclusion_taken old w hok
    exact ⟨hadd, hother, tcuExclusion_referenceTaken old s⟩
  · rintro s w before after hok hbefore rfl
    refine ⟨fun v hv => judgeSlip_other hv s, fun hc => ?_, fun hskip => ?_, ?_⟩
    · rw [judgeSlip_wheel, hbefore] at hc
      rw [judgeSlip_wheel]
      exact noteChange_observed (by simpa using hok) _ _ hc
    · rw [judgeSlip_wheel, judgedWheel_skip (by rwa [← hbefore]), ← hbefore]
      exact ⟨rfl, rfl, rfl, rfl⟩
    · intro v expected lambda cut depart hdis hv hex he hl hcut hdep
      rw [← departure_eq] at hdep
      obtain ⟨m, hm⟩ : ∃ m, m = (before.measured expected lambda).moveSlip s.cfg s.dmc.substate lambda :=
        ⟨_, rfl⟩
      have hafter : (judgeSlip w s).tcu.wheels.get w = m.judgeSlide s.cfg s.clock := by
        rw [judgeSlip_wheel, judgedWheel_judged (hbefore ▸ hdis) hv hex he (hbefore ▸ hl), hm, ← hbefore]
      obtain ⟨hstart, hleft, hcond, hgrip, hjudged⟩ :=
        moveSlip_slide (before.measured expected lambda) s.cfg s.dmc.substate lambda
      obtain ⟨hslip, hfactor, hcount, hexp, hlam, hnot⟩ := judgeSlide_rest m s.cfg s.clock
      rw [← hm] at hstart hleft hcond hgrip hjudged
      rw [hafter, hslip, hfactor, hcount, hexp, hlam, hnot]
      refine ⟨hjudged.1, hjudged.2.1, hjudged.2.2, ?_, ?_, ?_, ?_, ?_, ?_, ?_, ?_, ?_⟩
      · intro hs hf
        refine ⟨fun hb => ?_, fun start hb => ?_⟩
        · obtain ⟨h1, h2⟩ := judgeSlide_starts (clock := s.clock) ⟨hs, hf⟩ ((hstart (.inl hs)).trans hb)
          exact ⟨h1, h2.trans (hcond (.inr (by simp [hs])))⟩
        · obtain ⟨h1, h2⟩ := judgeSlide_runs (clock := s.clock) ⟨hs, hf⟩ ((hstart (.inl hs)).trans hb)
          exact ⟨h1, by rw [h2, hcond (.inr (by simp [hs]))]; rfl⟩
      · intro hb hn
        rw [judgeSlide_other fun h => hn h.1]
        exact hleft hb hn
      · intro hn
        rw [judgeSlide_other hn]
        exact ⟨fun h => hstart (.inr h), hcond⟩
      · intro hg hn
        rw [judgeSlide_other fun h => by rw [hg] at h; cases h.1]
        exact hgrip hg hn
      · intro hb hd
        rw [hm, (moveSlip_grip (r := before.measured expected lambda) hb).1 (hdep.symm.trans hd)]
        exact ⟨hb, rfl, rfl⟩
      · intro hb k hd hn
        rw [hm, ((moveSlip_grip (r := before.measured expected lambda) hb).2 k (hdep.symm.trans hd)).1 hn]
        exact ⟨hb, rfl, rfl⟩
      · intro hb k hd hn
        rw [hm, ((moveSlip_grip (r := before.measured expected lambda) hb).2 k (hdep.symm.trans hd)).2 hn]
        exact ⟨rfl, hcut.symm, rfl⟩
      · intro beyond hbeyond hb
        obtain ⟨hin, hout⟩ := moveSlip_loss (c := s.cfg) (sub := s.dmc.substate) (lambda := lambda)
          (r := before.measured expected lambda) hb
        have hcount' : m.count = before.count := by
          by_cases h : (before.measured expected lambda).beyond s.cfg lambda
          · rw [hm, hin h]; rfl
          · rw [hm, hout h]; split <;> rfl
        refine ⟨hcount', fun h => ?_, fun h => ?_⟩
        · rw [hm, hin (hbeyond.1 h)]
          exact ⟨rfl, hcut.symm⟩
        · rw [hm, hout fun hn => h (hbeyond.2 hn)]
          constructor <;> split <;> rfl
      · intro hb
        obtain ⟨hsome, hnone⟩ := moveSlip_recover (c := s.cfg) (sub := s.dmc.substate) (lambda := lambda)
          (r := before.measured expected lambda) hb
        refine ⟨fun k hd => ?_, fun hd => ?_⟩
        · rw [hm, hsome k (hdep.symm.trans hd)]
          exact ⟨rfl, hcut.symm, rfl⟩
        · obtain ⟨hmore, hless⟩ := hnone (hdep.symm.trans hd)
          rcases Nat.lt_or_ge (before.factor + s.cfg.sStep) 1000 with hn | hn
          · rw [hm, hless hn]
            exact ⟨(Nat.min_eq_right hn.le).symm, fun h => absurd hn (by omega), fun _ => ⟨hb, rfl⟩⟩
          · rw [hm, hmore hn]
            exact ⟨(Nat.min_eq_left hn).symm, fun _ => ⟨rfl, rfl⟩, fun h => absurd hn (by omega)⟩

end Sys2Proof.Machine
end

section
/-! A change of the mode: what it makes of the DMC's record, TRIP_OUT, the mode mirror, the discharge timer
and the causes (R75), and which bytes the operations around it leave. -/

namespace Sys2Proof.Machine

section
variable {cells : Bool} {spared : Option (BitVec 6)} {a s t u : State} {m : Mode} {f : Dmc → Dmc}

/-! ### The bytes before the status region -/

/-- Where the bytes end that are left: before the order cells, or behind them. -/
def lowEnd (cells : Bool) : Nat := if cells then 0x1800 else 0x0800

/-- The bytes before the order cells, and with `cells` those of the cells too, are left but for the pending
mirror, and the places of the status blocks are kept; so are the bytes of a spared cell that no resource
names. The table names nothing that it did not name. -/
structure LowKept (cells : Bool) (spared : Option (BitVec 6)) (a s : State) : Prop where
  placed : a.wlc.placed → s.wlc.placed
  bytes : a.wlc.placed → ∀ x < lowEnd cells, x < 0x0022 ∨ 0x0024 ≤ x → s.xm.byte x = a.xm.byte x
  flight : ∀ q c, s.ore.inFlight q = some c → a.ore.inFlight q = some c
  cell : ∀ c ∈ spared, a.wlc.placed → (∀ q, a.ore.inFlight q ≠ some c) →
    ∀ x, cellBase c ≤ x → x < cellBase c + 64 → s.xm.byte x = a.xm.byte x

theorem lowEnd_le (cells : Bool) : lowEnd cells ≤ 0x1800 := by cases cells <;> decide

theorem cellBase_range (c : BitVec 6) : 0x0800 ≤ cellBase c ∧ cellBase c + 64 ≤ 0x1800 := by
  have := c.isLt
  unfold cellBase
  omega

theorem LowKept.self (cells : Bool) (spared : Option (BitVec 6)) (a : State) : LowKept cells spared a a :=
  ⟨id, fun _ _ _ _ => rfl, fun _ _ => id, fun _ _ _ _ _ _ _ => rfl⟩

theorem LowKept.refl (cells : Bool) (a : State) : LowKept cells none a a := .self _ _ a

theorem LowKept.trans (h : LowKept cells spared a s) (k : LowKept cells spared s t) : LowKept cells spared a t :=
  ⟨k.placed ∘ h.placed, fun p x h1 h2 => (k.bytes (h.placed p) x h1 h2).trans (h.bytes p x h1 h2),
    fun q c => h.flight q c ∘ k.flight q c,
    fun c hc p hn x h1 h2 => (k.cell c hc (h.placed p) (fun q e => hn q (h.flight q c e)) x h1 h2).trans
      (h.cell c hc p hn x h1 h2)⟩

theorem LowKept.weaken (h : LowKept cells spared a s) : LowKept false spared a s :=
  ⟨h.placed, fun p x h1 h2 => h.bytes p x (by cases cells <;> simp [lowEnd] at h1 ⊢ <;> omega) h2, h.flight, h.cell⟩

theorem LowKept.status (h : LowKept cells spared a s) (k : StatusOnly s t) (hore : t.ore = s.ore := by simp) :
    LowKept cells spared a t :=
  h.trans ⟨fun p => k.wlc ▸ p, fun p x hx _ => k.bytes p x (by have := lowEnd_le cells; omega),
    fun _ _ e => hore ▸ e, fun c _ p _ x _ hx => k.bytes p x (by have := cellBase_range c; omega)⟩

theorem LowKept.of_xm (h : LowKept cells spared a s) (hxm : t.xm = s.xm) (hwlc : s.wlc.placed → t.wlc.placed)
    (hore : t.ore = s.ore := by simp) : LowKept cells spared a t :=
  h.trans ⟨hwlc, fun _ _ _ _ => by rw [hxm], fun _ _ e => hore ▸ e, fun _ _ _ _ _ _ _ => by rw [hxm]⟩

theorem LowKept.same {regions : List (Nat × Nat)} (h : LowKept cells spared a s) (k : SameOutside regions s t)
    (hr : ∀ r ∈ regions, 0x1800 ≤ r.1 ∨ r = pendingRegion) (hwlc : t.wlc = s.wlc) (hore : t.ore = s.ore := by simp) :
    LowKept cells spared a t := by
  refine h.trans ⟨fun p => hwlc ▸ p, fun _ x h1 h2 => k x fun r hmem => ?_, fun _ _ e => hore ▸ e,
    fun c _ _ _ x h1 h2 => k x fun r hmem => ?_⟩
  · have := lowEnd_le cells
    rcases hr r hmem with hr | rfl
    · omega
    · exact h2
  · have := cellBase_range c
    rcases hr r hmem with hr | rfl
    · omega
    · exact .inr (by simp [pendingRegion]; omega)

theorem LowKept.word (h : LowKept cells spared a s) (p : a.wlc.placed) {y : Nat} (hy : y + 2 ≤ 0x0022) :
    s.word y = a.word y := by
  have : 0x0800 ≤ lowEnd cells := by cases cells <;> decide
  exact State.word_congr (h.bytes p y (by omega) (by omega)) (h.bytes p (y + 1) (by omega) (by omega))

theorem raise_low (h : LowKept cells spared a s) (c : Cls) : LowKept cells spared a (raise c s) :=
  h.same (raise_same c s) (by simp) (by simp)

theorem raiseIf_low (h : LowKept cells spared a s) (b : Bool) (c : Cls) : LowKept cells spared a (raiseIf b c s) :=
  h.same (raiseIf_same b c s) (by simp) (by simp)

theorem updatePru_low (h : LowKept cells spared a s) (p : Pru) : LowKept cells spared a (updatePru p s) :=
  h.same (updatePru_same p s) (by simp) (by simp)

theorem note_low (h : LowKept cells spared a s) (k : Kind) (subject : Subject) (present : Bool) :
    LowKept cells spared a (note k subject present s) :=
  h.same (note_same k subject present s) (by simp) (by simp)

theorem noteIf_low (h : LowKept cells spared a s) (b : Bool) (k : Kind) (subject : Subject) (present : Bool) :
    LowKept cells spared a (noteIf b k subject present s) := by
  unfold noteIf
  split
  · exact note_low h k subject present
  · exact h

/-- The end of a cell leaves every byte but its own and the pending mirror's. -/
theorem endCell_bytes (cell : BitVec 6) (r : Result) (detail : List Word) (s : State) {x : Nat}
    (hx : x < 0x0022 ∨ 0x0024 ≤ x) (hcell : x < cellBase cell ∨ cellBase cell + 64 ≤ x) :
    (endCell cell r detail s).xm.byte x = s.xm.byte x := by
  refine (endCell_orderEnded cell r detail s).same x fun q hq => ?_
  simp only [endRegions, List.append_nil, List.mem_cons, List.not_mem_nil, or_false] at hq
  rcases hq with rfl | rfl | rfl | rfl
  · exact hx
  all_goals
    dsimp only
    omega

theorem cellBase_apart {c d : BitVec 6} (h : c ≠ d) : cellBase c + 64 ≤ cellBase d ∨ cellBase d + 64 ≤ cellBase c := by
  have hne : c.toNat ≠ d.toNat := fun e => h (BitVec.eq_of_toNat_eq e)
  unfold cellBase
  omega

theorem endCell_low (h : LowKept false none a s) (cell : BitVec 6) (r : Result) (detail : List Word) :
    LowKept false none a (endCell cell r detail s) := by
  refine h.trans ⟨fun p => by simp [p], fun _ x h1 h2 => endCell_bytes cell r detail s h2 (.inl ?_),
    fun q c e => by simpa using e, nofun⟩
  have := cellBase_range cell
  have h1' : x < 0x0800 := h1
  omega

/-- A completion leaves a cell that no resource names. -/
theorem complete_low (h : LowKept false spared a s) (r : Resource) (cell : BitVec 6) (result : Result)
    (detail : List Word) : LowKept false spared a (complete r cell result detail s) := by
  by_cases hheld : s.ore.inFlight r = some cell
  · have hcell := cellBase_range cell
    rw [complete_of_held hheld]
    refine h.trans ⟨fun p => by simp [p], fun _ x h1 h2 => endCell_bytes cell result detail s h2 (.inl ?_),
      fun q c e => ?_, fun c _ _ hn x h1 h2 => endCell_bytes cell result detail s (.inr ?_) ?_⟩
    · have h1' : x < 0x0800 := h1
      omega
    · rw [State.setOre_ore, inFlight_setFlight] at e
      split at e
      · cases e
      · exact e
    · have := cellBase_range c
      omega
    · have := cellBase_apart (c := c) (d := cell) fun e => hn r (e ▸ hheld)
      omega
  · rw [complete_dropped hheld]
    exact h

/-! ### The TCU and the STC -/

theorem putTcuSection_low (h : LowKept cells spared a s) : LowKept cells spared a (putTcuSection s) :=
  h.status (put_statusOnly (by decide) _ _)

theorem putTraction_status (w : Wheel) (s : State) : StatusOnly s (putTraction w s) :=
  putBlock_statusOnly (fun p => placed_wheel p w) _ _

theorem alterWheel_low (h : LowKept cells spared a s) (w : Wheel) (r : TcuWheel) :
    LowKept cells spared a (alterWheel w r s) := by
  unfold alterWheel
  split
  · exact h
  · have k : LowKept cells spared a (setTcuWheel w r s) := h.of_xm rfl id
    exact k.status (putTraction_status w _)

theorem judgeQuality_low (h : LowKept cells spared a s) : LowKept cells spared a (judgeQuality s) := by
  unfold judgeQuality
  split
  · exact h
  · have k : LowKept cells spared a (recomputeVRef (s.setTcu { s.tcu with quality := s.judgedQuality })) :=
      h.of_xm (by simp) (by simp)
    exact raise_low k _

theorem recomputeIn_low (h : LowKept cells spared a s) (q : Quality) : LowKept cells spared a (recomputeIn q s) :=
  h.of_xm (by simp) (by simp)

theorem tcuSubstateChange_low (h : LowKept cells spared a s) : LowKept cells spared a (tcuSubstateChange s) := by
  have step : ∀ w s, LowKept cells spared a s →
      LowKept cells spared a (alterWheel w (s.tcu.wheels.get w).leaveSubstate s) := fun w _ h => alterWheel_low h w _
  simp only [tcuSubstateChange, runAll, forWheels]
  exact putTcuSection_low (recomputeIn_low (judgeQuality_low (step .w4 _ (step .w3 _ (step .w2 _
    (step .w1 _ h))))) _)

theorem putStcSection_low (h : LowKept cells spared a s) : LowKept cells spared a (putStcSection s) :=
  h.status (putStcSection_statusOnly s)

theorem stcSubstateChange_low (h : LowKept cells spared a s) : LowKept cells spared a (stcSubstateChange s) := by
  have k : LowKept cells spared a (evaluateBias s) := h.of_xm (by simp) (by simp)
  exact putStcSection_low k

theorem endCalibrationIf_false (r : Result) (shown : CalResult) (s : State) :
    endCalibrationIf false r shown s = s := by
  simp [endCalibrationIf]

theorem endCalibrationIf_low (h : LowKept cells spared a s) {b : Bool} (hb : cells = true → b = false)
    (r : Result) (shown : CalResult) : LowKept cells spared a (endCalibrationIf b r shown s) := by
  cases cells with
  | true =>
    rw [hb rfl, endCalibrationIf_false]
    exact h
  | false =>
    unfold endCalibrationIf
    split
    · unfold endCalibration
      have k : LowKept false spared a (stopCalibration shown s) := h.of_xm rfl id
      exact complete_low k _ _ _ _
    · exact h

/-! ### The RGC -/

theorem changeCauses_low (h : LowKept cells spared a s) (c : Causes) : LowKept cells spared a (changeCauses c s) :=
  h.same (changeCauses_same c s) (by simp) (by simp)

theorem judgeChannels_low (h : LowKept cells spared a s) : LowKept cells spared a (judgeChannels s) :=
  h.status (judgeChannels_moves s).status

theorem abortTestIf_low (h : LowKept cells spared a s) {b : Bool} (hb : cells = true → b = false) :
    LowKept cells spared a (abortTestIf b s) := by
  cases cells with
  | true =>
    rw [hb rfl, abortTestIf_false]
    exact h
  | false =>
    unfold abortTestIf
    cases s.rgc.test with
    | none => exact h
    | some g =>
      dsimp only
      split
      · exact complete_low (h.status (stopTest_status s)) _ _ _ _
      · exact h

theorem rgcModeChange_low (h : LowKept cells spared a s)
    (hm : cells = true → s.dmc.mode = .ready ∨ s.dmc.mode = .standby) :
    LowKept cells spared a (rgcModeChange s) := by
  simp only [rgcModeChange, runAll]
  have hdmc : (startDischarge s).dmc = s.dmc := rfl
  have k : LowKept cells spared a (startDischarge s) := h.of_xm rfl id
  have k2 := judgeChannels_low (abortTestIf_low k
    (b := !((startDischarge s).dmc.mode == .ready || (startDischarge s).dmc.mode == .standby)) (fun hc => by
      rw [hdmc]
      rcases hm hc with hm | hm <;> rw [hm] <;> rfl))
  have k3 : LowKept cells spared a (recomputeBlower (judgeChannels (abortTestIf
      (!((startDischarge s).dmc.mode == .ready || (startDischarge s).dmc.mode == .standby))
      (startDischarge s)))) := k2.of_xm (by simp) (by simp)
  exact changeCauses_low k3 _

theorem stcModeChange_low (h : LowKept cells spared a s) (hm : cells = true → s.dmc.mode = .ready) :
    LowKept cells spared a (stcModeChange s) := by
  simp only [stcModeChange, runAll]
  refine putStcSection_low (endCalibrationIf_low h (fun hc => ?_) _ _)
  rw [hm hc]
  rfl

/-! ### The wheel link -/

theorem wlcModeChange_low (h : LowKept cells spared a s) (hm : cells = true → s.dmc.mode = .ready) :
    LowKept cells spared a (wlcModeChange s) := by
  unfold wlcModeChange
  split
  case isTrue hs =>
    cases cells with
    | true => rw [hm rfl] at hs; cases hs.1
    | false =>
      have k : LowKept false spared a (s.setWlc { s.wlc with roundsOn := false, roundDue := false }) :=
        h.of_xm rfl id
      have k2 : LowKept false spared a (abortRollCall (s.setWlc { s.wlc with roundsOn := false, roundDue := false })) := by
        unfold abortRollCall
        cases ho : s.wlc.order with
        | none => simpa [ho] using k
        | some o =>
          simp only [State.setWlc_wlc, ho]
          have k' : LowKept false spared a (endOrder (s.setWlc { s.wlc with roundsOn := false, roundDue := false })) :=
            k.of_xm (by simp) id
          exact complete_low k' _ _ _ _
      exact k2.of_xm (by simp) fun p => (endRound_keeps (.refl false _)).placed p
  case isFalse => exact h

theorem requestQuiet_low (h : LowKept cells spared a s) : LowKept cells spared a (requestQuiet s) :=
  h.of_xm (by simp) fun p => (requestQuiet_keeps (.refl false _)).placed p

/-! ### The substate -/

theorem announceSubstate_low (h : LowKept cells spared a s) : LowKept cells spared a (announceSubstate s) := by
  simp only [announceSubstate, runAll]
  have k : LowKept cells spared a (rgcSubstateChange (tcuSubstateChange s)) :=
    (tcuSubstateChange_low h).of_xm (by simp) (by simp)
  exact stcSubstateChange_low k

theorem setSubstate_low (h : LowKept cells spared a s) (sub : Substate) (target : Target) :
    LowKept cells spared a (setSubstate sub target s) := by
  unfold setSubstate
  split
  · exact h
  · have k : LowKept cells spared a (s.setDmc { s.dmc with substate := sub, target := target }) := h.of_xm rfl id
    exact announceSubstate_low k

theorem formAndMove_low (h : LowKept cells spared a s) : LowKept cells spared a (formAndMove s) := by
  have k : LowKept cells spared a (formDemands s) := h.of_xm rfl id
  have k2 := setSubstate_low k (formDemands s).movedSubstate.1 (formDemands s).movedSubstate.2
  unfold formAndMove endChangeover
  dsimp only
  split
  · exact setSubstate_low k2 _ _
  · exact k2

theorem putDmcSection_low (h : LowKept cells spared a s) : LowKept cells spared a (putDmcSection s) :=
  h.status (put_statusOnly (by decide) _ _)

/-! ### A change of the mode (R75) -/

/-- The DMC's record after a change of the mode (R60, R75). -/
def State.movedDmc (s : State) (m : Mode) (f : Dmc → Dmc) : Dmc :=
  { f (s.dmc.startCounting m s.clock) with mode := m, lastChange := s.clock }

/-- The part of a mode change before the new mode is made known to the other blocks. -/
def modeShown (m : Mode) (f : Dmc → Dmc) (s : State) : State :=
  putDmcSection (put 0x0010 [m.code] (raise .modeChange
    ((s.setDmc (s.movedDmc m f)).setTripOut (m == .tripped))))

/-- The substate of the new mode made known, when it is another. -/
def modeAnnounced (m : Mode) (f : Dmc → Dmc) (s : State) : State :=
  if (s.movedDmc m f).substate = s.dmc.substate ∧ (s.movedDmc m f).target = s.dmc.target then modeShown m f s
  else announceSubstate (modeShown m f s)

theorem changeMode_eq (m : Mode) (f : Dmc → Dmc) (s : State) : changeMode m f s =
    wlcModeChange (stcModeChange (rgcModeChange (modeAnnounced m f s))) := by
  simp only [changeMode, runAll]
  rfl

@[simp] theorem modeShown_dmc : (modeShown m f s).dmc = s.movedDmc m f := by simp [modeShown]

@[simp] theorem modeShown_rgc : (modeShown m f s).rgc = s.rgc := by simp [modeShown]

@[simp] theorem modeShown_wlc : (modeShown m f s).wlc = s.wlc := by simp [modeShown]

@[simp] theorem modeAnnounced_dmc : (modeAnnounced m f s).dmc = s.movedDmc m f := by
  unfold modeAnnounced
  split <;> simp

@[simp] theorem modeAnnounced_tripOut : (modeAnnounced m f s).tripOut = (m == .tripped) := by
  unfold modeAnnounced
  split <;> simp [modeShown]

@[simp] theorem modeAnnounced_wlc : (modeAnnounced m f s).wlc = s.wlc := by
  unfold modeAnnounced
  split <;> simp

@[simp] theorem changeMode_dmc : (changeMode m f s).dmc = s.movedDmc m f := by
  rw [changeMode_eq]
  simp

@[simp] theorem changeMode_tripOut : (changeMode m f s).tripOut = (m == .tripped) := by
  rw [changeMode_eq]
  simp

theorem rgcModeChange_dmc (s : State) : (rgcModeChange s).dmc = s.dmc := by simp

theorem stcModeChange_dmc (s : State) : (stcModeChange s).dmc = s.dmc := by simp

theorem wlcModeChange_idle (h : s.dmc.mode ≠ .standby) : wlcModeChange s = s :=
  if_neg fun k => h k.1

theorem changeMode_wlc (h : m ≠ .standby) : (changeMode m f s).wlc = s.wlc := by
  rw [changeMode_eq, wlcModeChange_idle (by simpa [State.movedDmc] using h)]
  simp

/-- A change of the mode raises MODE_CHANGE, and a class that is pending stays pending. -/
theorem modeAnnounced_steady (m : Mode) (f : Dmc → Dmc) (s : State) :
    Steady false (modeShown m f s) (modeAnnounced m f s) := by
  unfold modeAnnounced
  split
  · exact .refl _ _
  · exact announceSubstate_steady (.refl _ _)

theorem modeShown_raised : Cls.modeChange.isIn (modeShown m f s).atc.pending = true := by
  have h := (raise_raised .modeChange ((s.setDmc (s.movedDmc m f)).setTripOut (m == .tripped))).pending
    .modeChange
  have hatc : (modeShown m f s).atc =
      (raise .modeChange ((s.setDmc (s.movedDmc m f)).setTripOut (m == .tripped))).atc := by
    simp [modeShown]
  rw [hatc, h]
  simp

theorem changeMode_after (m : Mode) (f : Dmc → Dmc) (s : State) :
    Steady false (modeShown m f s) (changeMode m f s) := by
  rw [changeMode_eq]
  exact wlcModeChange_steady (stcModeChange_steady (rgcModeChange_steady (modeAnnounced_steady m f s)))

theorem changeMode_raised : Cls.modeChange.isIn (changeMode m f s).atc.pending = true :=
  (changeMode_after m f s).attention _ modeShown_raised

/-- Behind the mode mirror a change of the mode leaves the bytes before the status region, the order cells
too where it ends no order: in READY. -/
theorem changeMode_low (hm : cells = true → m = .ready) :
    LowKept cells spared (modeShown m f s) (changeMode m f s) := by
  have k : LowKept cells spared (modeShown m f s) (modeAnnounced m f s) := by
    unfold modeAnnounced
    split
    · exact .self _ _ _
    · exact announceSubstate_low (.self _ _ _)
  rw [changeMode_eq]
  have hmode : (modeAnnounced m f s).dmc.mode = m := by rw [modeAnnounced_dmc]; rfl
  refine wlcModeChange_low (stcModeChange_low (rgcModeChange_low k ?_) ?_) ?_
  · exact fun hc => .inl (hmode.trans (hm hc))
  · exact fun hc => by rw [rgcModeChange_dmc, hmode, hm hc]
  · exact fun hc => by rw [stcModeChange_dmc, rgcModeChange_dmc, hmode, hm hc]

theorem modeShown_placed (p : s.wlc.placed) : (modeShown m f s).wlc.placed := by rwa [modeShown_wlc]

theorem modeShown_mirror : (modeShown m f s).word 0x0010 = m.code := by
  have h : (put 0x0010 [m.code] (raise .modeChange
      ((s.setDmc (s.movedDmc m f)).setTripOut (m == .tripped)))).word (0x0010 + 2 * 0) = m.code :=
    put_word (by simp)
  exact (put_word_outside (by simp [State.dmcWords, longWords])).trans h

/-- The mode mirror shows the new mode (R5, R75). -/
theorem changeMode_mirror (p : s.wlc.placed) : (changeMode m f s).word 0x0010 = m.code :=
  ((changeMode_low (cells := false) (spared := none) nofun).word (modeShown_placed p) (by omega)).trans modeShown_mirror

/-- The order cells stay at a change to READY. -/
theorem changeMode_cells (p : s.wlc.placed) {x : Nat} (h1 : 0x0800 ≤ x) (h2 : x < 0x1800) :
    (changeMode .ready f s).xm.byte x = s.xm.byte x := by
  rw [(changeMode_low (cells := true) (spared := none) fun _ => rfl).bytes (modeShown_placed p) x h2 (.inr (by omega))]
  have hraise := raise_same .modeChange ((s.setDmc (s.movedDmc .ready f)).setTripOut (Mode.ready == .tripped)) x
    (by simp [pendingRegion]; omega)
  unfold modeShown putDmcSection
  rw [put_byte_outside (.inl (by omega)), put_byte_outside (.inr (by simp; omega))]
  exact hraise

/-! ### What the RGC makes of it (R133, R138, R141, R143) -/

theorem stopTest_rgc (s : State) : (stopTest s).rgc = { s.rgc with
    chans := (stopTest s).rgc.chans, shows := (stopTest s).rgc.shows, test := none } := by
  cases h : s.rgc.test with
  | none =>
    unfold stopTest
    simp only [h]
    rw [← h]
  | some g =>
    have hcut : (s.testCut g.current).rgc = { s.rgc with
        chans := (s.testCut g.current).rgc.chans, shows := (s.testCut g.current).rgc.shows } := by
      cases g.current with
      | none => rfl
      | some b =>
        simp only [State.testCut]
        rw [(cutPhase_moves b _).rgc, showTest_rgc]
    rw [stopTest_eq h, (judgeChannels_moves (setTest none (s.testCut g.current))).rgc]
    have : (setTest none (s.testCut g.current)).rgc = { (s.testCut g.current).rgc with test := none } := rfl
    rw [this, hcut]

/-- The discharge timer and the cause set stay. -/
structure TimerKept (a s : State) : Prop where
  discharge : s.rgc.discharge = a.rgc.discharge
  causes : s.rgc.causes = a.rgc.causes

theorem abortTestIf_timer (b : Bool) (s : State) : TimerKept s (abortTestIf b s) := by
  unfold abortTestIf
  cases h : s.rgc.test with
  | none => exact ⟨rfl, rfl⟩
  | some g =>
    dsimp only
    split
    · have e : ∀ r c d u, (complete r c d u (stopTest s)).rgc = (stopTest s).rgc := fun _ _ _ _ => by simp
      constructor <;> rw [e, stopTest_rgc]
    · exact ⟨rfl, rfl⟩

/-- The state in which the RGC forms the causes of a mode change. -/
def causesReady (s : State) : State :=
  recomputeBlower (judgeChannels (abortTestIf
    (!(s.dmc.mode == .ready || s.dmc.mode == .standby)) (startDischarge s)))

theorem rgcModeChange_eq (s : State) :
    rgcModeChange s = changeCauses (causesReady s).modeCauses (causesReady s) := by
  simp only [rgcModeChange, runAll]
  rfl

theorem TimerKept.trans (h : TimerKept a s) (k : TimerKept s t) : TimerKept a t :=
  ⟨k.discharge.trans h.discharge, k.causes.trans h.causes⟩

theorem judgeChannels_timer (s : State) : TimerKept s (judgeChannels s) :=
  ⟨by rw [(judgeChannels_moves s).rgc], by rw [(judgeChannels_moves s).rgc]⟩

theorem recomputeBlower_timer (s : State) : TimerKept s (recomputeBlower s) := ⟨rfl, rfl⟩

theorem causesReady_timer (s : State) : TimerKept (startDischarge s) (causesReady s) := by
  unfold causesReady
  exact ((abortTestIf_timer _ _).trans (judgeChannels_timer _)).trans (recomputeBlower_timer _)

theorem startDischarge_causes (s : State) : (startDischarge s).rgc.causes = s.rgc.causes := rfl

theorem startDischarge_discharge (s : State) : (startDischarge s).rgc.discharge =
    if s.dmc.mode = .tripped then some (s.clock + 2000) else none := rfl

theorem causesReady_modeCauses (s : State) : (causesReady s).modeCauses = s.modeCauses := by
  have hd : (causesReady s).dmc = s.dmc := by simp [causesReady, startDischarge]
  have ht : (causesReady s).tcu = s.tcu := by simp [causesReady, startDischarge]
  have hc := (causesReady_timer s).causes.trans (startDischarge_causes s)
  simp only [State.modeCauses, hd, ht, hc]

theorem rgcModeChange_discharge (s : State) : (rgcModeChange s).rgc.discharge =
    if s.dmc.mode = .tripped then some (s.clock + 2000) else none := by
  rw [rgcModeChange_eq, changeCauses_rgc]
  dsimp only
  rw [(causesReady_timer s).discharge, startDischarge_discharge]

theorem rgcModeChange_causes (s : State) : (rgcModeChange s).rgc.causes = s.modeCauses := by
  rw [rgcModeChange_eq, changeCauses_rgc]
  exact causesReady_modeCauses s

theorem changeMode_rgc : (changeMode m f s).rgc = (rgcModeChange (modeAnnounced m f s)).rgc := by
  rw [changeMode_eq]
  simp

theorem modeAnnounced_clock : (modeAnnounced m f s).clock = s.clock := by
  unfold modeAnnounced
  split <;> simp [modeShown]

/-- The discharge timer runs in TRIPPED only (R138). -/
theorem changeMode_discharge : (changeMode m f s).rgc.discharge =
    if m = .tripped then some (s.clock + 2000) else none := by
  rw [changeMode_rgc, rgcModeChange_discharge, modeAnnounced_clock, modeAnnounced_dmc]
  rfl

theorem changeMode_tripped : (changeMode m f s).rgc.causes.tripped = (m == .tripped) := by
  rw [changeMode_rgc, rgcModeChange_causes]
  simp [State.modeCauses, State.movedDmc]

end
end Sys2Proof.Machine
end

section
/-! What the deliveries of the fault table leave in the modes in which the DMC heeds no severity change, and
the substate's own operations. -/

namespace Sys2Proof.Machine

section
variable {cells : Bool} {spared : Option (BitVec 6)} {a s t u : State} {m : Mode} {f : Dmc → Dmc}

/-! ### The discharge timer and the causes -/

theorem TimerKept.refl (s : State) : TimerKept s s := ⟨rfl, rfl⟩

theorem TimerKept.of_rgc (h : TimerKept a s) (e : t.rgc = s.rgc) : TimerKept a t :=
  ⟨by rw [e, h.discharge], by rw [e, h.causes]⟩

theorem TimerKept.moves {on : Bank → Bool} (h : TimerKept a s) (k : ChansMove on s t) : TimerKept a t :=
  h.trans ⟨by rw [k.rgc], by rw [k.rgc]⟩

theorem showTest_timer (b : Bank) (f : BankShow → BankShow) (s : State) : TimerKept s (showTest b f s) :=
  ⟨by rw [showTest_rgc], by rw [showTest_rgc]⟩

theorem setTest_timer (g : Option GridTest) (s : State) : TimerKept s (setTest g s) := ⟨rfl, rfl⟩

theorem nextBank_timer (s : State) : TimerKept s (nextBank s) := by
  cases ht : s.rgc.test with
  | none =>
    simp only [nextBank, ht]
    exact .refl s
  | some g =>
    cases hw : g.waiting with
    | nil =>
      rw [nextBank_none ht hw]
      exact ((setTest_timer none s).trans (judgeChannels_timer _)).of_rgc (by simp)
    | cons d rest =>
      rw [nextBank_some ht hw]
      have k : TimerKept s (s.nextShown g d rest) := ⟨by rw [nextShown_rgc], by rw [nextShown_rgc]⟩
      exact k.moves (judgeChannel_moves d _)

theorem skipWaiting_timer (b : Bank) (s : State) : TimerKept s (skipWaiting b s) := by
  unfold skipWaiting
  cases s.rgc.test with
  | none => exact .refl s
  | some g =>
    dsimp only
    split
    · exact (setTest_timer _ s).trans (showTest_timer b _ _)
    · exact .refl s

theorem skipCurrent_timer (s : State) : TimerKept s (skipCurrent s) := by
  unfold skipCurrent
  cases s.rgc.test with
  | none => exact .refl s
  | some g =>
    dsimp only
    cases g.current with
    | none => exact .refl s
    | some b =>
      dsimp only
      split
      · exact (((setTest_timer _ s).trans (showTest_timer b _ _)).moves (judgeChannel_moves b _)).trans
          (nextBank_timer _)
      · exact .refl s

/-- What a change of the bank exclusion set does to a waiting bank. -/
def skipAdded (before : PerBank Bool) (b : Bank) (s : State) : State :=
  if s.pru.bankEx.get b && !before.get b then skipWaiting b s else s

theorem followBanks_eq (before : PerBank Bool) (s : State) : followBanks before s =
    judgeChannels (skipCurrent (forBanks (skipAdded before) (sortRotation s))) := by
  simp only [followBanks, runAll]
  rfl

theorem skipAdded_timer (before : PerBank Bool) (b : Bank) (s : State) : TimerKept s (skipAdded before b s) := by
  unfold skipAdded
  split
  · exact skipWaiting_timer b s
  · exact .refl s

theorem followBanks_timer (before : PerBank Bool) (s : State) : TimerKept s (followBanks before s) := by
  rw [followBanks_eq]
  have k : TimerKept s (sortRotation s) := ⟨rfl, rfl⟩
  have k2 := forBanks_steps (P := TimerKept) TimerKept.trans (skipAdded_timer before) (sortRotation s)
  exact ((k.trans k2).trans (skipCurrent_timer _)).trans (judgeChannels_timer _)

theorem rgcExclusion_timer (before : PerBank Bool) (s : State) : TimerKept s (rgcExclusion before s) := by
  have k : TimerKept s (if s.pru.bankEx = before then s else followBanks before s) := by
    split
    · exact .refl s
    · exact followBanks_timer before s
  exact ⟨k.discharge, k.causes⟩

theorem deliverSets_timer (s : State) : TimerKept s (deliverSets s) := by
  have k : TimerKept s (updatePru { s.pru with
      wheelEx := formWheelEx s.pru.entries, bankEx := formBankEx s.pru.entries } s) :=
    (TimerKept.refl s).of_rgc (by simp)
  have e : ∀ u : State, (observeEscalation u).rgc = u.rgc := fun _ => by simp
  simp only [deliverSets]
  split
  · exact k.of_rgc (e _)
  · have k2 : TimerKept s (tcuExclusion s.pru.wheelEx (updatePru { s.pru with
        wheelEx := formWheelEx s.pru.entries, bankEx := formBankEx s.pru.entries } s)) :=
      k.of_rgc (by simp)
    exact (k2.trans (rgcExclusion_timer _ _)).of_rgc (e _)

/-! ### The bytes before the status region -/

theorem excludeAtTcu_low (h : LowKept cells spared a s) (w : Wheel) : LowKept cells spared a (excludeAtTcu w s) := by
  simp only [excludeAtTcu]
  exact noteIf_low (alterWheel_low h _ _) _ _ _ _

theorem tcuExclusion_low (h : LowKept cells spared a s) (before : PerWheel Bool) :
    LowKept cells spared a (tcuExclusion before s) := by
  have step : ∀ w s, LowKept cells spared a s → LowKept cells spared a (takeExclusion before w s) := by
    intro w s h
    unfold takeExclusion
    split
    · exact excludeAtTcu_low h w
    · exact h
  rw [tcuExclusion_eq]
  exact putTcuSection_low (recomputeIn_low (judgeQuality_low (step .w4 _ (step .w3 _ (step .w2 _
    (step .w1 _ h))))) _)

theorem setTest_low (h : LowKept cells spared a s) (g : Option GridTest) : LowKept cells spared a (setTest g s) :=
  h.of_xm rfl id

theorem nextBank_low (h : LowKept false spared a s) : LowKept false spared a (nextBank s) := by
  cases ht : s.rgc.test with
  | none =>
    simp only [nextBank, ht]
    exact h
  | some g =>
    cases hw : g.waiting with
    | nil =>
      rw [nextBank_none ht hw]
      exact complete_low (judgeChannels_low (setTest_low h none)) _ _ _ _
    | cons d rest =>
      rw [nextBank_some ht hw]
      exact ((setTest_low h _).status (showTest_statusOnly d _ _)).status (judgeChannel_moves d _).status
        (by simp [State.nextShown])

theorem skipAdded_low (h : LowKept cells spared a s) (before : PerBank Bool) (b : Bank) :
    LowKept cells spared a (skipAdded before b s) := by
  unfold skipAdded skipWaiting
  split
  · cases s.rgc.test with
    | none => exact h
    | some g =>
      dsimp only
      split
      · exact (setTest_low h _).status (showTest_statusOnly b _ _)
      · exact h
  · exact h

theorem skipCurrent_low (h : LowKept false spared a s) : LowKept false spared a (skipCurrent s) := by
  unfold skipCurrent
  cases s.rgc.test with
  | none => exact h
  | some g =>
    dsimp only
    cases g.current with
    | none => exact h
    | some b =>
      dsimp only
      split
      · exact nextBank_low (((setTest_low h _).status (showTest_statusOnly b _ _)).status
          (judgeChannel_moves b _).status)
      · exact h

theorem followBanks_low (h : LowKept false spared a s) (before : PerBank Bool) :
    LowKept false spared a (followBanks before s) := by
  rw [followBanks_eq, forBanks]
  have k : LowKept false spared a (sortRotation s) := h.of_xm rfl id
  exact judgeChannels_low (skipCurrent_low (skipAdded_low (skipAdded_low (skipAdded_low (skipAdded_low
    (skipAdded_low (skipAdded_low k before .b1) before .b2) before .b3) before .b4) before .b5) before .b6))

theorem rgcExclusion_low (h : LowKept false spared a s) (before : PerBank Bool) :
    LowKept false spared a (rgcExclusion before s) := by
  have k : LowKept false spared a (if s.pru.bankEx = before then s else followBanks before s) := by
    split
    · exact h
    · exact followBanks_low h before
  exact k.of_xm rfl id rfl

theorem observeEscalation_low (h : LowKept cells spared a s) : LowKept cells spared a (observeEscalation s) :=
  note_low (note_low h _ _ _) _ _ _

theorem deliverSets_low (h : LowKept false spared a s) : LowKept false spared a (deliverSets s) := by
  have k := updatePru_low h { s.pru with
    wheelEx := formWheelEx s.pru.entries, bankEx := formBankEx s.pru.entries }
  simp only [deliverSets]
  split
  · exact observeEscalation_low k
  · exact observeEscalation_low (rgcExclusion_low (tcuExclusion_low k _) _)

/-! ### The deliveries in STARTING and in TRIPPED -/

/-- The modes that no severity change leaves (R69, R70). -/
def Mode.deaf (m : Mode) : Prop := m = .starting ∨ m = .tripped

theorem severityChange_deaf (h : s.dmc.mode.deaf) : severityChange s = s := by
  unfold severityChange
  rcases h with h | h <;> rw [h] <;> cases s.pru.summary <;> rfl

/-- What the deliveries leave in those modes: the mode controller, TRIP_OUT, the configuration, the wheel
link but for a QUIET request, the discharge timer, the causes, and the bytes before the order cells. -/
structure Unheard (a s : State) : Prop where
  dmc : s.dmc = a.dmc
  tripOut : s.tripOut = a.tripOut
  cfl : s.cfl = a.cfl
  timer : TimerKept a s
  low : ∀ spared, LowKept false spared a s
  wlc : s.wlc = a.wlc ∨ s.wlc = (requestQuiet a).wlc

theorem Unheard.refl (a : State) : Unheard a a := ⟨rfl, rfl, rfl, .refl a, fun _ => .self _ _ a, .inl rfl⟩

theorem requestQuiet_wlc_congr (h : s.wlc = a.wlc) : (requestQuiet s).wlc = (requestQuiet a).wlc := by
  simp only [requestQuiet, forWheels, setSlot, State.setWlc, h]

theorem requestQuiet_twice (s : State) : (requestQuiet (requestQuiet s)).wlc = (requestQuiet s).wlc := by
  have hw : (requestQuiet (requestQuiet s)).wlc.wheels = (requestQuiet s).wlc.wheels :=
    PerWheel.ext_get fun w => by
      cases w <;> simp [requestQuiet, forWheels, setSlot, PerWheel_get_set]
  have hrest : ∀ l : Wlc, (requestQuiet (s.setWlc l)).wlc =
      { l with wheels := (requestQuiet (s.setWlc l)).wlc.wheels, quiet := true } := fun l => rfl
  have h1 := hrest (requestQuiet s).wlc
  have h2 : (requestQuiet (s.setWlc (requestQuiet s).wlc)).wlc = (requestQuiet (requestQuiet s)).wlc :=
    requestQuiet_wlc_congr rfl
  rw [← h2, h1, h2, hw]
  rfl

theorem Unheard.quiet (h : Unheard a s) : Unheard a (requestQuiet s) :=
  ⟨by simp [h.dmc], by simp [h.tripOut], by simp [h.cfl], h.timer.of_rgc (by simp), fun k => requestQuiet_low (h.low k), by
    rcases h.wlc with e | e
    · exact .inr (requestQuiet_wlc_congr e)
    · exact .inr ((requestQuiet_wlc_congr e).trans (requestQuiet_twice a))⟩

theorem Unheard.raised (h : Unheard a s) (c : Cls) : Unheard a (raise c s) :=
  ⟨by simp [h.dmc], by simp [h.tripOut], by simp [h.cfl], h.timer.of_rgc (by simp), fun k => raise_low (h.low k) c,
    by simpa using h.wlc⟩

theorem Unheard.updated (h : Unheard a s) (p : Pru) : Unheard a (updatePru p s) :=
  ⟨by simp [h.dmc], by simp [h.tripOut], by simp [h.cfl], h.timer.of_rgc (by simp), fun k => updatePru_low (h.low k) p,
    by simpa using h.wlc⟩

theorem announceSummary_unheard (h : Unheard a s) : Unheard a (announceSummary s) := by
  unfold announceSummary
  split
  · exact h.quiet.raised _
  · exact h.raised _
  all_goals exact h

theorem deliver_unheard (hm : a.dmc.mode.deaf) (h : Unheard a s) : Unheard a (deliver s) := by
  unfold deliver
  split
  · split
    · exact h
    · have k := announceSummary_unheard (h.updated { s.pru with summary := formSummary s.pru.entries })
      unfold deliverSummary
      rw [severityChange_deaf (by rw [k.dmc]; exact hm)]
      exact k
  · exact ⟨by simp [h.dmc], by simp [h.tripOut], by simp [h.cfl], h.timer.trans (deliverSets_timer s),
      fun k => deliverSets_low (h.low k), by simpa using h.wlc⟩

theorem settle_unheard (hm : s.dmc.mode.deaf) : Unheard s (settle s) :=
  settle_of_deliver (P := Unheard s) (fun _ => deliver_unheard hm) (.refl s)

/-! ### The substate (R66 to R68) -/

theorem announceSubstate_timer (s : State) : TimerKept s (announceSubstate s) := by
  simp only [announceSubstate, runAll]
  have k : TimerKept s (rgcSubstateChange (tcuSubstateChange s)) :=
    ((TimerKept.refl s).of_rgc (by simp)).trans (recomputeBlower_timer (tcuSubstateChange s))
  exact k.of_rgc (by simp)

theorem setSubstate_timer (sub : Substate) (target : Target) (s : State) :
    TimerKept s (setSubstate sub target s) := by
  unfold setSubstate
  split
  · exact .refl s
  · have k : TimerKept s (s.setDmc { s.dmc with substate := sub, target := target }) := ⟨rfl, rfl⟩
    exact k.trans (announceSubstate_timer _)

theorem formAndMove_timer (s : State) : TimerKept s (formAndMove s) := by
  have k : TimerKept s (formDemands s) := ⟨rfl, rfl⟩
  have k2 := k.trans (setSubstate_timer (formDemands s).movedSubstate.1 (formDemands s).movedSubstate.2 _)
  unfold formAndMove endChangeover
  dsimp only
  split
  · exact k2.trans (setSubstate_timer _ _ _)
  · exact k2

theorem setSubstate_dmc (sub : Substate) (target : Target) (s : State) :
    (setSubstate sub target s).dmc = { s.dmc with substate := sub, target := target } := by
  unfold setSubstate
  split
  case isTrue h =>
    obtain ⟨h1, h2⟩ := h
    rw [← h1, ← h2]
  case isFalse => simp

theorem endChangeover_dmc (s : State) : (endChangeover s).dmc =
    if s.dmc.substate = .changeover ∧ s.cfg.wheels.all (fun w => s.reference w == 0) then
      { s.dmc with substate := s.dmc.target.substate, target := .none } else s.dmc := by
  unfold endChangeover
  split
  · exact setSubstate_dmc _ _ s
  · rfl

/-- The demands formed in a state (R66). -/
def State.demanded (s : State) : Dmc :=
  { s.dmc with
    masks := s.formedMasks, effRetard := s.formedRetard
    effPropel := if s.formedMasks.any then 0 else s.dmc.demand.propel }

theorem formDemands_dmc (s : State) : (formDemands s).dmc = s.demanded := rfl

/-- Step 6 of a demand sample forms the demands and moves the substate, and nothing else of the DMC. -/
theorem formAndMove_dmc (s : State) : (formAndMove s).dmc = { s.demanded with
    substate := (formAndMove s).dmc.substate, target := (formAndMove s).dmc.target } := by
  have k := setSubstate_dmc (formDemands s).movedSubstate.1 (formDemands s).movedSubstate.2 (formDemands s)
  rw [formDemands_dmc] at k
  unfold formAndMove
  dsimp only
  rw [endChangeover_dmc]
  split <;> rw [k]

end
end Sys2Proof.Machine
end

section
/-! The entries into READY, SAFE_STOP and TRIPPED, and the timers that move the mode (O39). -/

namespace Sys2Proof.Machine

section
variable {cells : Bool} {a s t u : State} {m : Mode} {f : Dmc → Dmc}

/-! ### Entry into READY (R68, R69) -/

/-- The DMC's record at an entry into READY from STARTING, STANDBY or TRIPPED. -/
def State.readyDmc (s : State) : Dmc :=
  { s.dmc.startCounting .ready s.clock with
    mode := .ready, substate := .coast, target := .none, adopted := .neutral, pendingDir := none
    variant := none, credit := false, lastChange := s.clock }

/-- READY as it is entered, before the check of R69. -/
def readyReached (s : State) : State :=
  changeMode .ready (fun d => { d.atRest with substate := .coast, credit := false }) s

theorem readyReached_pru : (readyReached s).pru = s.pru := by simp [readyReached]

theorem readyReached_clock : (readyReached s).clock = s.clock := by simp [readyReached]

theorem enterReady_eq : enterReady s =
    if (readyReached s).pru.summary = .safeStop then enterSafeStop (readyReached s) else readyReached s := by
  unfold enterReady readyReached
  rfl

theorem enterReady_light (h : s.pru.summary ≠ .safeStop) : enterReady s = readyReached s := by
  rw [enterReady_eq, readyReached_pru, if_neg h]

theorem enterReady_safeStop (h : s.pru.summary = .safeStop) : enterReady s = enterSafeStop (readyReached s) := by
  rw [enterReady_eq, readyReached_pru, if_pos h]

theorem readyReached_dmc : (readyReached s).dmc = s.readyDmc := by
  simp [readyReached, State.movedDmc, State.readyDmc, Dmc.atRest]

/-- What the entry into SAFE_STOP leaves (R69). -/
structure SafeStopEntered (s t : State) : Prop where
  mode : t.dmc.mode = .safeStop
  rest : { t.dmc with
    mode := s.dmc.mode, lastChange := s.dmc.lastChange, pendingDir := s.dmc.pendingDir, stopTime := s.dmc.stopTime
    substate := s.dmc.substate, target := s.dmc.target, masks := s.dmc.masks, effRetard := s.dmc.effRetard
    effPropel := s.dmc.effPropel } = s.dmc
  settled : t.dmc.pendingDir = none ∧ t.dmc.stopTime = 0 ∧ t.dmc.lastChange = s.clock
  mirror : s.wlc.placed → t.word 0x0010 = Mode.safeStop.code
  tripOut : t.tripOut = false
  raised : Cls.modeChange.isIn t.atc.pending = true
  wlc : t.wlc = s.wlc
  timer : t.rgc.discharge = none ∧ t.rgc.causes.tripped = false

/-- SAFE_STOP as it is entered, before the demands are formed. -/
def safeStopReached (s : State) : State := changeMode .safeStop (fun d => { d with pendingDir := none, stopTime := 0 }) s

theorem enterSafeStop_eq : enterSafeStop s = formAndMove (safeStopReached s) := by
  simp only [enterSafeStop, safeStopReached]

theorem safeStopReached_dmc (hc : s.dmc.mode.counted = true) : (safeStopReached s).dmc = { s.dmc with
    mode := .safeStop, pendingDir := none, stopTime := 0, lastChange := s.clock } := by
  have hstart : s.dmc.startCounting .safeStop s.clock = s.dmc := by simp [Dmc.startCounting, hc]
  rw [safeStopReached, changeMode_dmc, State.movedDmc, hstart]

theorem safeStopReached_placed (p : s.wlc.placed) : (safeStopReached s).wlc.placed := by
  rwa [safeStopReached, changeMode_wlc (by decide)]

theorem safeStopReached_mirror (p : s.wlc.placed) : (safeStopReached s).word 0x0010 = Mode.safeStop.code := by
  rw [safeStopReached, changeMode_mirror p]

theorem safeStopReached_raised : Cls.modeChange.isIn (safeStopReached s).atc.pending = true := by
  rw [safeStopReached]
  exact changeMode_raised

theorem enterSafeStop_entered (hc : s.dmc.mode.counted = true) : SafeStopEntered s (enterSafeStop s) := by
  have htimer := formAndMove_timer (safeStopReached s)
  have hd := formAndMove_dmc (safeStopReached s)
  rw [State.demanded, safeStopReached_dmc hc] at hd
  rw [enterSafeStop_eq]
  refine ⟨by rw [hd], by rw [hd], by rw [hd]; exact ⟨rfl, rfl, rfl⟩, fun p => ?_, ?_,
    (formAndMove_steady (.refl false _)).attention _ safeStopReached_raised, ?_, ?_, ?_⟩
  · rw [(formAndMove_low (.refl false (safeStopReached s))).word (safeStopReached_placed p) (by omega),
      safeStopReached_mirror p]
  · simp [safeStopReached]
  · simpa [safeStopReached] using changeMode_wlc (by decide)
  · rw [htimer.discharge, safeStopReached, changeMode_discharge]
    exact if_neg (by decide)
  · rw [htimer.causes, safeStopReached, changeMode_tripped]
    rfl

/-- What an entry into READY from STARTING, STANDBY or TRIPPED leaves, SAFE_STOP entered after it where the
summary stands there (R68, R69). -/
structure ReadyEntered (s t : State) : Prop where
  mode : t.dmc.mode = if s.pru.summary = .safeStop then .safeStop else .ready
  rest : { t.dmc with
    mode := .ready, stopTime := s.dmc.stopTime, substate := .coast, target := .none, masks := s.dmc.masks
    effRetard := s.dmc.effRetard, effPropel := s.dmc.effPropel } = s.readyDmc
  light : s.pru.summary ≠ .safeStop → t.dmc = s.readyDmc
  mirror : s.wlc.placed → t.word 0x0010 = t.dmc.mode.code
  tripOut : t.tripOut = false
  raised : Cls.modeChange.isIn t.atc.pending = true
  wlc : t.wlc = s.wlc
  timer : t.rgc.discharge = none ∧ t.rgc.causes.tripped = false

theorem readyDmc_same : { s.readyDmc with
    mode := .ready, stopTime := s.dmc.stopTime, substate := .coast, target := .none, masks := s.dmc.masks
    effRetard := s.dmc.effRetard, effPropel := s.dmc.effPropel } = s.readyDmc := by
  simp only [State.readyDmc, Dmc.startCounting]
  split <;> rfl

theorem readyReached_entered (h : s.pru.summary ≠ .safeStop) : ReadyEntered s (readyReached s) where
  mode := by rw [readyReached_dmc, if_neg h]; rfl
  rest := by
    rw [readyReached_dmc]
    exact readyDmc_same
  light := fun _ => readyReached_dmc
  mirror := fun p => by
    rw [readyReached_dmc, readyReached, changeMode_mirror p]
    rfl
  tripOut := by
    rw [readyReached, changeMode_tripOut]
    rfl
  raised := by
    rw [readyReached]
    exact changeMode_raised
  wlc := by rw [readyReached, changeMode_wlc (by decide)]
  timer := by
    rw [readyReached, changeMode_discharge, changeMode_tripped]
    exact ⟨if_neg (by decide), rfl⟩

theorem enterReady_entered (s : State) : ReadyEntered s (enterReady s) := by
  by_cases h : s.pru.summary = .safeStop
  · have k := enterSafeStop_entered (s := readyReached s) (by rw [readyReached_dmc]; rfl)
    have hwlc : (readyReached s).wlc = s.wlc := by rw [readyReached, changeMode_wlc (by decide)]
    rw [enterReady_safeStop h]
    generalize enterSafeStop (readyReached s) = t at k
    obtain ⟨hmode, hrest, ⟨hpend, hstop, hchange⟩, hmirror, htrip, hraised, hwlc', htimer⟩ := k
    rw [readyReached_clock] at hchange
    rw [readyReached_dmc] at hrest
    rw [hwlc] at hmirror hwlc'
    refine ⟨by rw [hmode, if_pos h], ?_, fun hn => absurd h hn, fun p => by rw [hmirror p, hmode], htrip, hraised,
      hwlc', htimer⟩
    have hpend' : t.dmc.pendingDir = s.readyDmc.pendingDir := hpend
    have hchange' : t.dmc.lastChange = s.readyDmc.lastChange := hchange
    have e := congrArg (fun d : Dmc => { d with
      mode := .ready, stopTime := s.dmc.stopTime, substate := .coast, target := .none, masks := s.dmc.masks
      effRetard := s.dmc.effRetard, effPropel := s.dmc.effPropel }) hrest
    dsimp only at e
    have e' := e.trans (readyDmc_same (s := s))
    rw [← hpend', ← hchange'] at e'
    exact e'
  · rw [enterReady_light h]
    exact readyReached_entered h

/-! ### Entry into TRIPPED (R70) -/

/-- TRIPPED as it is entered, before the QUIET request. -/
def trippedReached (s : State) : State := changeMode .tripped (fun d => { d.atRest with credit := false }) s

theorem enterTripped_eq : enterTripped s = requestQuiet (trippedReached s) := by
  simp only [enterTripped, trippedReached]

theorem requestQuiet_quiet (s : State) : (requestQuiet s).wlc.quiet = true := rfl

theorem requestQuiet_slot (w : Wheel) (s : State) : ((requestQuiet s).wlc.wheels.get w).slotValue = 0 := by
  cases w <;> simp [requestQuiet, forWheels, setSlot, PerWheel_get_set]

/-- What an entry into TRIPPED leaves (R70, R138). -/
structure TrippedEntered (s t : State) : Prop where
  dmc : t.dmc = { s.dmc.startCounting .tripped s.clock with
    mode := .tripped, substate := .none, target := .none, adopted := .neutral, pendingDir := none
    variant := none, credit := false, lastChange := s.clock }
  mirror : s.wlc.placed → t.word 0x0010 = Mode.tripped.code
  tripOut : t.tripOut = true
  raised : Cls.modeChange.isIn t.atc.pending = true
  quiet : t.wlc.quiet = true ∧ ∀ w, (t.wlc.wheels.get w).slotValue = 0
  timer : t.rgc.discharge = some (s.clock + 2000) ∧ t.rgc.causes.tripped = true

theorem enterTripped_entered (s : State) : TrippedEntered s (enterTripped s) := by
  rw [enterTripped_eq]
  refine ⟨?_, fun p => ?_, ?_, ?_, ⟨requestQuiet_quiet _, fun w => requestQuiet_slot w _⟩, ?_⟩
  · rw [(requestQuiet_frame _).2.2.2.2.2.2.2.2.2.1, trippedReached, changeMode_dmc]
    simp [State.movedDmc, Dmc.atRest]
  · have hp : (trippedReached s).wlc.placed := by rwa [trippedReached, changeMode_wlc (by decide)]
    rw [(requestQuiet_low (.refl false (trippedReached s))).word hp (by omega), trippedReached, changeMode_mirror p]
  · simp [trippedReached]
  · have h : Cls.modeChange.isIn (trippedReached s).atc.pending = true := by
      rw [trippedReached]
      exact changeMode_raised
    simpa using h
  · have hr : (requestQuiet (trippedReached s)).rgc = (trippedReached s).rgc := by simp
    rw [hr, trippedReached, changeMode_discharge, changeMode_tripped]
    exact ⟨if_pos rfl, rfl⟩

/-! ### The end of the stop time (R71) -/

/-- The stop time has come to its end. -/
def State.stopRun (s : State) : State := s.setDmc { s.dmc with stopTime := 1000 }

theorem finishStop_entered (s : State) : TrippedEntered s.stopRun (finishStop s) := by
  have h : finishStop s = enterTripped s.stopRun := by simp only [finishStop, State.stopRun]
  rw [h]
  exact enterTripped_entered s.stopRun

theorem finishStop_dmc (hm : s.dmc.mode = .safeStop) : (finishStop s).dmc = { s.dmc with
    mode := .tripped, substate := .none, target := .none, adopted := .neutral, pendingDir := none
    variant := none, credit := false, stopTime := 1000, lastChange := s.clock } := by
  rw [(finishStop_entered s).dmc]
  simp [State.stopRun, Dmc.startCounting, hm, Mode.counted]

theorem stopDue_iff : s.stopDue = true ↔ s.dmc.mode = .safeStop ∧ s.standstill = true ∧
    1000 ≤ s.dmc.stopTime + s.dmc.period := by
  simp [State.stopDue, and_assoc]

/-- STOP_TIME_EXPIRY where the row acts, and the deliveries after it. -/
theorem stopTime_row (hm : s.dmc.mode = .safeStop) : TrippedEntered s.stopRun (settle (finishStop s)) ∧
    (settle (finishStop s)).dmc = (finishStop s).dmc ∧ (settle (finishStop s)).cfl = s.cfl := by
  have k := finishStop_entered s
  have hd := finishStop_dmc hm
  have hu := settle_unheard (s := finishStop s) (.inr (by rw [hd]))
  have hp : s.wlc.placed → (finishStop s).wlc.placed := (finishStop_steady (.refl false s)).placed
  refine ⟨⟨hu.dmc.trans k.dmc, fun p => ?_, hu.tripOut.trans k.tripOut, ?_, ?_, ?_⟩, hu.dmc, ?_⟩
  · rw [(hu.low none).word (hp p) (by omega)]
    exact k.mirror p
  · exact (settle_steady (.refl false _)).attention _ k.raised
  · rcases hu.wlc with e | e
    · rw [e]; exact k.quiet
    · rw [e]; exact ⟨rfl, fun w => requestQuiet_slot w _⟩
  · rw [hu.timer.discharge, hu.timer.causes]
    exact k.timer
  · rw [hu.cfl]
    simp

/-! ### A demand sample with a fresh demand and no page to accept -/

theorem updateFreshness_fresh (hf : s.dmc.fresh = .fresh)
    (ha : (s.clock - s.dmc.freshRef).toNat ≤ s.cfg.freshLimit) : updateFreshness s = s := by
  unfold updateFreshness
  split
  · have hnew : freshnessOf s.cfg .fresh (s.since s.dmc.freshRef) = .fresh := if_pos ha
    have hset : s.setDmc { s.dmc with fresh := .fresh } = s := by
      rw [← hf]
      rfl
    simp only [hf, hnew, hset]
    rfl
  · rfl

theorem wake_not_accepted (s : State) : wake false s = s := if_neg fun h => Bool.false_ne_true h.2.2.1

theorem demandSteps_quiet (hp : s.pageAccepted = false) (hf : s.dmc.fresh = .fresh)
    (ha : (s.clock - s.dmc.freshRef).toNat ≤ s.cfg.freshLimit) : demandSteps s =
      putDmcSection (demandStep (directionCheck (modeChecks (takeDemandPeriod s)))) := by
  have hp' : (takeDemandPeriod s).pageAccepted = false := hp
  have htake : takePage (takeDemandPeriod s) = takeDemandPeriod s :=
    if_neg (by rw [hp']; exact Bool.false_ne_true)
  have hfresh : updateFreshness (takeDemandPeriod s) = takeDemandPeriod s := updateFreshness_fresh hf ha
  simp only [demandSteps, runAll]
  rw [hp', htake, hfresh, wake_not_accepted]

theorem execDemandSample_quiet (hs : s.isRunning = true) (hd : s.delivered = true)
    (hp : s.pageAccepted = false) (hf : s.dmc.fresh = .fresh)
    (ha : (s.clock - s.dmc.freshRef).toNat ≤ s.cfg.freshLimit) : exec .demandSample s =
      .next (putDmcSection (demandStep (directionCheck (modeChecks (takeDemandPeriod s))))) := by
  have h : exec .demandSample s = .next (settle (demandSteps s)) :=
    whenRunning_of_running hs fun s => settle (demandSteps s)
  rw [h, demandSteps_quiet hp hf ha, settle_of_same_pru (s := s) (by simp) hd]

theorem directionCheck_other (h : s.dmc.mode ≠ .drive) : directionCheck s = s := if_pos h

theorem demandStep_working (h : s.dmc.mode.working = true) : demandStep s = formAndMove s := if_pos h

theorem demandStep_other (h : s.dmc.mode.working = false) : demandStep s = s :=
  if_neg (by rw [h]; exact Bool.false_ne_true)

theorem modeChecks_safeStop (h : s.dmc.mode = .safeStop) : modeChecks s = countStop s := by
  rw [modeChecks, h]

theorem modeChecks_tripped (h : s.dmc.mode = .tripped) : modeChecks s = returnCheck s := by
  rw [modeChecks, h]

theorem modeChecks_ready (h : s.dmc.mode = .ready) : modeChecks s = enterDriveCheck s := by
  rw [modeChecks, h]

theorem modeChecks_drive (h : s.dmc.mode = .drive) : modeChecks s = s := by
  rw [modeChecks, h]

/-- Short of its end the stop time is counted, from 0 where the part moves (R71). -/
theorem countStop_short (h : s.standstill = false ∨ s.dmc.stopTime + s.dmc.period < 1000) :
    countStop s = s.setDmc { s.dmc with
      stopTime := if s.standstill then s.dmc.stopTime + s.dmc.period else 0 } := by
  unfold countStop
  cases hs : s.standstill with
  | false => rfl
  | true =>
    rw [if_pos rfl, if_pos rfl, if_neg]
    rcases h with h | h
    · rw [hs] at h; cases h
    · omega

theorem countStop_over (h1 : s.standstill = true) (h2 : 1000 ≤ s.dmc.stopTime + s.dmc.period) :
    countStop s = finishStop s := by
  rw [countStop, if_pos h1, if_pos h2]

/-- SAFE_STOP goes on at a demand sample while the stop time is short of its end. -/
theorem safeStop_goesOn (hm : s.dmc.mode = .safeStop)
    (h : s.standstill = false ∨ s.dmc.stopTime + s.cfg.allocPeriod < 1000) :
    demandStep (directionCheck (modeChecks (takeDemandPeriod s))) = formAndMove ((takeDemandPeriod s).setDmc
      { (takeDemandPeriod s).dmc with
        stopTime := if s.standstill then s.dmc.stopTime + s.cfg.allocPeriod else 0 }) := by
  rw [modeChecks_safeStop (s := takeDemandPeriod s) hm, countStop_short (s := takeDemandPeriod s) h,
    directionCheck_other (by simp [takeDemandPeriod, hm]),
    demandStep_working (by simp [takeDemandPeriod, hm, Mode.working])]
  rfl

/-- SAFE_STOP ends at a demand sample at which the stop time comes to its end. -/
theorem safeStop_ends (hm : s.dmc.mode = .safeStop) (h1 : s.standstill = true)
    (h2 : 1000 ≤ s.dmc.stopTime + s.cfg.allocPeriod) :
    demandStep (directionCheck (modeChecks (takeDemandPeriod s))) = finishStop (takeDemandPeriod s) := by
  have hd := finishStop_dmc (s := takeDemandPeriod s) hm
  rw [modeChecks_safeStop (s := takeDemandPeriod s) hm, countStop_over (s := takeDemandPeriod s) h1 h2,
    directionCheck_other (by rw [hd]; exact Mode.noConfusion), demandStep_other (by rw [hd]; rfl)]

/-! ### The end of SETTLE (R33) -/

/-- The phase is COMPLETE. -/
def State.settleEnded (s : State) : State := s.setCfl { s.cfl with phase := .complete, settleEnd := none }

theorem endSettle_trip (h : s.pru.summary = .trip) : endSettle s = enterTripped s.settleEnded :=
  if_pos h

theorem endSettle_ready (h : s.pru.summary ≠ .trip) : endSettle s = enterReady s.settleEnded :=
  if_neg h

theorem reached_iff {due : Long} : s.reached due = true ↔ (s.clock - due).toNat < 2 ^ 31 := by
  rw [State.reached, decide_eq_true_iff]
  exact Iff.rfl

theorem settleOver_iff : s.settleOver = true ↔ s.cfl.phase = .settle ∧
    ∃ due, s.cfl.settleEnd = some due ∧ (s.clock - due).toNat < 2 ^ 31 := by
  cases h : s.cfl.settleEnd <;> simp only [State.settleOver, h, Bool.and_eq_true, beq_iff_eq, reached_iff,
    Option.some.injEq, exists_eq_left', Bool.and_false, Bool.false_eq_true, reduceCtorEq, false_and, exists_false,
    and_false]

/-- SETTLE_TIME_EXPIRY where the row acts. -/
theorem endSettle_row (hm : s.dmc.mode = .starting) (p : s.wlc.placed) :
    (endSettle s).dmc.mode = (if s.pru.summary = .trip then .tripped
      else if s.pru.summary = .safeStop then .safeStop else .ready) ∧
    (endSettle s).tripOut = decide (s.pru.summary = .trip) ∧ (endSettle s).dmc.fresh = .fresh ∧
    (endSettle s).dmc.freshRef = s.clock ∧ (endSettle s).dmc.credit = false ∧
    (endSettle s).dmc.adopted = .neutral ∧ (endSettle s).dmc.pendingDir = none ∧
    (endSettle s).dmc.variant = none ∧ (endSettle s).dmc.demand = s.dmc.demand ∧
    (endSettle s).word 0x0010 = (endSettle s).dmc.mode.code ∧
    Cls.modeChange.isIn (endSettle s).atc.pending = true ∧
    (s.pru.summary = .trip → (endSettle s).wlc.quiet = true) := by
  by_cases h : s.pru.summary = .trip
  · have k := enterTripped_entered s.settleEnded
    rw [endSettle_trip h, k.dmc]
    have hstart : s.settleEnded.dmc.startCounting .tripped s.settleEnded.clock =
        { s.dmc with fresh := .fresh, freshRef := s.clock } := by
      simp [State.settleEnded, Dmc.startCounting, hm, Mode.counted]
    simp only [hstart, if_pos h]
    exact ⟨trivial, by simpa [h] using k.tripOut, trivial, trivial, trivial, trivial, trivial, trivial, trivial,
      k.mirror p, k.raised, fun _ => k.quiet.1⟩
  · have k := enterReady_entered s.settleEnded
    have hstart : s.settleEnded.readyDmc = { s.dmc with
        fresh := .fresh, freshRef := s.clock, mode := .ready, substate := .coast, target := .none
        adopted := .neutral, pendingDir := none, variant := none, credit := false, lastChange := s.clock } := by
      simp [State.readyDmc, State.settleEnded, Dmc.startCounting, hm, Mode.counted]
    have hrest := k.rest
    rw [hstart] at hrest
    have hmode := k.mode
    rw [show s.settleEnded.pru = s.pru from rfl] at hmode
    rw [endSettle_ready h]
    generalize enterReady s.settleEnded = t at k hrest hmode ⊢
    refine ⟨?_, by simpa [h] using k.tripOut, (congrArg Dmc.fresh hrest :), (congrArg Dmc.freshRef hrest :),
      (congrArg Dmc.credit hrest :), (congrArg Dmc.adopted hrest :), (congrArg Dmc.pendingDir hrest :),
      (congrArg Dmc.variant hrest :), (congrArg Dmc.demand hrest :), k.mirror p, k.raised, fun hn => absurd hn h⟩
    rw [hmode, if_neg h]

theorem endSettle_cfl (s : State) : (endSettle s).cfl = { s.cfl with phase := .complete, settleEnd := none } := by
  unfold endSettle
  dsimp only
  split <;> simp

end

/-- Settles O39. -/
theorem modeTimersEnd : Obligations.ModeTimersEnd := by
  unfold Obligations.ModeTimersEnd
  refine ⟨fun s hs hd hm hp hf ha => ?_, fun s hs => ⟨?_, fun h hd => ?_⟩, fun s hs hd => ⟨?_, fun h => ?_⟩⟩
  · refine ⟨_, execDemandSample_quiet hs hd hp hf ha, fun h => ?_, fun h1 h2 => ?_, fun h1 h2 => ?_⟩
    · rw [safeStop_goesOn hm (.inl h), (putDmcSection_frame _).2.2.2.2.2.2.2.2.2.1, formAndMove_dmc]
      exact ⟨hm, by simp [h, State.demanded]⟩
    · rw [safeStop_goesOn hm (.inr h2), (putDmcSection_frame _).2.2.2.2.2.2.2.2.2.1, formAndMove_dmc]
      exact ⟨hm, by simp [h1, State.demanded]⟩
    · have k := finishStop_entered (takeDemandPeriod s)
      have hdmc := finishStop_dmc (s := takeDemandPeriod s) hm
      rw [safeStop_ends hm h1 h2]
      simp only [putDmcSection_frame]
      rw [hdmc]
      exact ⟨rfl, rfl, k.tripOut, k.quiet.1, rfl, rfl, rfl, k.timer.1, k.raised⟩
  · rintro ⟨hm, hstill, hover⟩
    obtain ⟨k, hdmc, hcfl⟩ := stopTime_row hm
    have hacts : exec .stopTimeExpiry s = .next (settle (finishStop s)) :=
      whenObserving_acts hs (stopDue_iff.2 ⟨hm, hstill, hover⟩)
    have htqa : (settle (finishStop s)).tqa = s.tqa := by simp
    have hclock : (settle (finishStop s)).clock = s.clock := by simp
    rw [finishStop_dmc hm] at hdmc
    generalize settle (finishStop s) = t at k hdmc hcfl hacts htqa hclock
    have hassist : t.brakeAssist = true := by
      rw [brakeAssist_iff]
      split
      · exact .inr (by rw [k.dmc])
      · exact .inr (.inr (.inl k.timer.2))
    exact ⟨t, hacts, hdmc, k.tripOut, hassist, k.quiet.1, k.quiet.2, k.timer.1, k.raised, k.mirror, htqa, hcfl, hclock⟩
  · exact whenObserving_idle hs (mt stopDue_iff.1 h) hd
  · intro due hphase hend hdue hm p
    obtain ⟨hmode, htrip, hfresh, href, hcredit, hadopted, hpend, hvariant, hdemand, hmirror, hraised, hquiet⟩ :=
      endSettle_row hm p
    refine ⟨_, whenObserving_acts hs (settleOver_iff.2 ⟨hphase, due, hend, hdue⟩), ?_⟩
    have hpru : (endSettle s).pru = s.pru := by simp
    have htqa : (endSettle s).tqa = s.tqa := by simp
    have hclock : (endSettle s).clock = s.clock := by simp
    rw [settle_of_same_pru hpru hd]
    exact ⟨endSettle_cfl s, hmode, htrip, hfresh, href, hcredit, hadopted, hpend, hvariant, hdemand, hmirror,
      hraised, hquiet, hpru, htqa, hclock⟩
  · exact whenObserving_idle hs (mt settleOver_iff.1 h) hd

end Sys2Proof.Machine
end

section
/-! The return to READY and the checks of the direction at a demand sample (O27). -/

namespace Sys2Proof.Machine

section
variable {cells : Bool} {a s t u : State} {m : Mode} {f : Dmc → Dmc}

/-! ### The end of a demand sample -/

/-- Step 6 of a demand sample and the drive record after it. -/
def sampleEnd (s : State) : State := putDmcSection (formAndMove s)

theorem putDmcSection_shows (s : State) : (putDmcSection s).showsAt 0x2000 (putDmcSection s).dmcWords := by
  have h : (putDmcSection s).dmcWords = s.dmcWords := by
    simp only [State.dmcWords, State.demandAge, State.since, putDmcSection_frame]
  rw [h]
  exact put_showsAt

theorem sampleEnd_dmc (s : State) : (sampleEnd s).dmc = { s.demanded with
    substate := (sampleEnd s).dmc.substate, target := (sampleEnd s).dmc.target } := by
  have h : (sampleEnd s).dmc = (formAndMove s).dmc := by simp [sampleEnd]
  rw [h]
  exact formAndMove_dmc s

theorem sampleEnd_shows (s : State) : (sampleEnd s).showsAt 0x2000 (sampleEnd s).dmcWords :=
  putDmcSection_shows _

theorem sampleEnd_timer (s : State) : TimerKept s (sampleEnd s) :=
  (formAndMove_timer s).of_rgc (by simp [sampleEnd])

theorem sampleEnd_mirror (p : s.wlc.placed) : (sampleEnd s).word 0x0010 = s.word 0x0010 :=
  (putDmcSection_low (formAndMove_low (.refl false s))).word p (by omega)

theorem sampleEnd_attention {c : Cls} (h : c.isIn s.atc.pending = true) :
    c.isIn (sampleEnd s).atc.pending = true :=
  (putDmcSection_steady (formAndMove_steady (.refl false s))).attention c h

@[simp] theorem sampleEnd_frame (s : State) : (sampleEnd s).wlc = s.wlc ∧ (sampleEnd s).tqa = s.tqa ∧
    (sampleEnd s).cfl = s.cfl ∧ (sampleEnd s).pru = s.pru ∧ (sampleEnd s).tripOut = s.tripOut ∧
    (sampleEnd s).ore = s.ore ∧ (sampleEnd s).clock = s.clock := by simp [sampleEnd]

theorem putDmcSection_demandStep (h : s.dmc.mode.working = true) : putDmcSection (demandStep s) = sampleEnd s := by
  rw [demandStep_working h, sampleEnd]

/-! ### The return check (R72) -/

/-- The conditions of the return but for the clear credit. -/
def State.mayReturn (s : State) : Prop :=
  s.pru.summary.code < 3 ∧ s.standstill = true ∧ s.dmc.demand.direction = .neutral

theorem returnCheck_returns (hm : s.dmc.mode = .tripped) (hc : s.dmc.credit = true) (h : s.mayReturn) :
    returnCheck s = enterReady s := if_pos ⟨hm, hc, h.1, h.2.1, h.2.2⟩

theorem returnCheck_stays (h : ¬(s.dmc.credit = true ∧ s.mayReturn)) : returnCheck s = s :=
  if_neg fun ⟨_, hc, h1, h2, h3⟩ => h ⟨hc, h1, h2, h3⟩

theorem State.mayReturn.light (h : s.mayReturn) : s.pru.summary ≠ .safeStop := fun e => by
  have := h.1
  rw [e] at this
  exact absurd this (by decide)

theorem readyDmc_of_counted (h : s.dmc.mode.counted = true) : s.readyDmc = { s.dmc with
    mode := .ready, substate := .coast, target := .none, adopted := .neutral, pendingDir := none
    variant := none, credit := false, lastChange := s.clock } := by
  simp [State.readyDmc, Dmc.startCounting, h]

/-- A demand sample in TRIPPED that returns to READY. -/
theorem tripped_returns (hm : s.dmc.mode = .tripped) (hc : s.dmc.credit = true) (h : s.mayReturn) :
    putDmcSection (demandStep (directionCheck (modeChecks (takeDemandPeriod s)))) =
      sampleEnd (enterReady (takeDemandPeriod s)) := by
  have k := (enterReady_entered (takeDemandPeriod s)).light h.light
  rw [modeChecks_tripped (s := takeDemandPeriod s) hm, returnCheck_returns (s := takeDemandPeriod s) hm hc h,
    directionCheck_other (by rw [k]; exact Mode.noConfusion), putDmcSection_demandStep (by rw [k]; rfl)]

theorem tripped_stays (hm : s.dmc.mode = .tripped) (h : ¬(s.dmc.credit = true ∧ s.mayReturn)) :
    putDmcSection (demandStep (directionCheck (modeChecks (takeDemandPeriod s)))) =
      putDmcSection (takeDemandPeriod s) := by
  rw [modeChecks_tripped (s := takeDemandPeriod s) hm, returnCheck_stays (s := takeDemandPeriod s) h,
    directionCheck_other (by simp [takeDemandPeriod, hm]), demandStep_other (by simp [takeDemandPeriod, hm, Mode.working])]

/-! ### A CLEAR_FAULTS that leaves the table as it is (R183) -/

theorem releaseStop_idle (h : s.pru.filter.releasable = false) : releaseStop s = s :=
  if_neg (by rw [h]; exact Bool.false_ne_true)

theorem clearEntries_none {clock : Long} {es : List Entry} (h : ∀ e ∈ es, e.state = .latched → e.cond = true) :
    clearEntries clock es = es := by
  unfold clearEntries
  refine (List.map_congr_left fun e he => if_neg ?_).trans (List.map_id es)
  intro hc
  simp only [Entry.clearable, Bool.and_eq_true, beq_iff_eq, Bool.not_eq_true'] at hc
  rw [h e he hc.1] at hc
  exact absurd hc.2 (by decide)

theorem clearTable_none (h : ∀ e ∈ s.pru.entries, e.state = .latched → e.cond = true) : clearTable 0 s = s := by
  unfold clearTable
  rw [clearEntries_none h]
  simp only [forgetEntries, if_true]
  rw [show updatePru { s.pru with entries := s.pru.entries } s = s from updatePru_self s]
  simp [raiseIf]

theorem observeEscalation_none (h1 : s.noTraction = false) (h2 : s.noGridLeft = false)
    (h3 : s.pru.noEntry .noTractionUnits .global) (h4 : s.pru.noEntry .noGrid .global) :
    observeEscalation s = s := by
  unfold observeEscalation
  rw [h1, h2, note_absent_of_noEntry h3, note_absent_of_noEntry h4]

theorem clearDetail_none {clock : Long} {es : List Entry} (h : ∀ e ∈ es, e.state = .latched → e.cond = true) :
    clearDetail 0 clock es es =
      [0, natWord (es.countP fun e => e.state == .latched), 0, natWord es.length] := by
  have hnone : es.filter Entry.clearable = [] := by
    rw [List.filter_eq_nil_iff]
    intro e he hc
    simp only [Entry.clearable, Bool.and_eq_true, beq_iff_eq, Bool.not_eq_true'] at hc
    rw [h e he hc.1] at hc
    exact absurd hc.2 (by decide)
  unfold clearDetail
  rw [clearEntries_none h, hnone, List.countP_eq_length_filter]
  simp only [forgetEntries, if_true, Nat.sub_self, List.length_nil]
  rfl

/-- The order's end, and the completion at the DMC. -/
theorem decideClearFaults_none {cell : BitVec 6} (hd : s.delivered = true)
    (hf : s.pru.filter.releasable = false)
    (he : ∀ e ∈ s.pru.entries, e.state = .latched → e.cond = true) (h1 : s.noTraction = false)
    (h2 : s.noGridLeft = false) (h3 : s.pru.noEntry .noTractionUnits .global)
    (h4 : s.pru.noEntry .noGrid .global) : decideClearFaults cell 0 s =
      settle (clearCompletion (endCell cell .ok
        [0, natWord (s.pru.entries.countP fun e => e.state == .latched), 0, natWord s.pru.entries.length] s)) := by
  unfold decideClearFaults
  rw [releaseStop_idle hf]
  dsimp only
  rw [clearTable_none he, settle_of_delivered hd, observeEscalation_none h1 h2 h3 h4, settle_of_delivered hd,
    clearDetail_none he]

theorem clearCompletion_other (h : s.dmc.mode ≠ .tripped) : clearCompletion s = s := if_neg h

theorem clearCompletion_tripped (h : s.dmc.mode = .tripped) :
    clearCompletion s = returnCheck (s.setDmc { s.dmc with credit := true }) := if_pos h

theorem quietSample_steady (s : State) : Steady false (takeDemandPeriod s)
    (putDmcSection (demandStep (directionCheck (modeChecks (takeDemandPeriod s))))) :=
  putDmcSection_steady (demandStep_steady (directionCheck_steady (modeChecks_steady (.refl false _))))

/-- The clear credit is set. -/
def State.credited (s : State) : State := s.setDmc { s.dmc with credit := true }

/-- The completion of a CLEAR_FAULTS in TRIPPED that returns to READY. -/
theorem clearCompletion_returns (hm : s.dmc.mode = .tripped) (h : s.mayReturn) :
    clearCompletion s = enterReady s.credited := by
  rw [clearCompletion_tripped hm]
  exact returnCheck_returns (s := s.credited) hm rfl h

theorem clearCompletion_credit (hm : s.dmc.mode = .tripped) (h : ¬s.mayReturn) :
    clearCompletion s = s.setDmc { s.dmc with credit := true } := by
  rw [clearCompletion_tripped hm]
  exact returnCheck_stays (s := s.setDmc { s.dmc with credit := true }) fun k => h k.2

theorem mayReturn_congr (hp : t.pru.summary = s.pru.summary) (ht : t.tcu.vRef = s.tcu.vRef)
    (hd : t.dmc.demand = s.dmc.demand) : t.mayReturn ↔ s.mayReturn := by
  simp only [State.mayReturn, State.standstill, hp, ht, hd]

theorem readyReached_cells (p : s.wlc.placed) {x : Nat} (h1 : 0x0800 ≤ x) (h2 : x < 0x1800) :
    (readyReached s).xm.byte x = s.xm.byte x := by
  rw [readyReached, changeMode_cells p h1 h2]

/-- The completion at the DMC leaves the order cells. -/
theorem clearCompletion_cells (p : s.wlc.placed) {x : Nat} (h1 : 0x0800 ≤ x) (h2 : x < 0x1800) :
    (clearCompletion s).xm.byte x = s.xm.byte x := by
  by_cases hm : s.dmc.mode = .tripped
  · by_cases h : s.mayReturn
    · rw [clearCompletion_returns hm h, enterReady_light (s := s.credited) h.light,
        readyReached_cells (s := s.credited) p h1 h2]
      rfl
    · rw [clearCompletion_credit hm h]
      rfl
  · rw [clearCompletion_other hm]

theorem clearCompletion_returned (hm : s.dmc.mode = .tripped) (h : s.mayReturn) :
    (clearCompletion s).dmc = { s.dmc with
      mode := .ready, substate := .coast, target := .none, adopted := .neutral
      pendingDir := none, variant := none, credit := false, lastChange := s.clock } ∧
    (clearCompletion s).tripOut = false ∧ (clearCompletion s).rgc.discharge = none ∧
    (clearCompletion s).rgc.causes.tripped = false ∧ (s.wlc.placed → (clearCompletion s).word 0x0010 = 2) ∧
    Cls.modeChange.isIn (clearCompletion s).atc.pending = true := by
  have k := enterReady_entered s.credited
  have hdmc := k.light h.light
  rw [readyDmc_of_counted (s := s.credited) (by simp [State.credited, hm, Mode.counted])] at hdmc
  have hmirror := k.mirror
  rw [hdmc] at hmirror
  rw [clearCompletion_returns hm h]
  generalize enterReady s.credited = t at k hdmc hmirror
  exact ⟨hdmc, k.tripOut, k.timer.1, k.timer.2, hmirror, k.raised⟩

end

/-- Settles O27. -/
theorem clearFaultsReturns : Obligations.ClearFaultsReturns := by
  unfold Obligations.ClearFaultsReturns
  refine ⟨fun s hs hd p hm hp ha hf => ?_, fun cell s hs hd p hf he h1 h2 h3 h4 => ?_⟩
  · refine ⟨_, execDemandSample_quiet hs hd hp hf ha, by simp, (quietSample_steady s).demand, fun h => ?_, fun h => ?_⟩
    · have hlight : s.pru.summary ≠ .safeStop := State.mayReturn.light h.2
      have k := enterReady_entered (takeDemandPeriod s)
      have hdmc := k.light hlight
      rw [readyDmc_of_counted (s := takeDemandPeriod s) (by rw [show (takeDemandPeriod s).dmc.mode = .tripped from hm]; rfl)]
        at hdmc
      have hmirror := k.mirror p
      have htrip := k.tripOut
      have hraised := k.raised
      have htimer := k.timer
      have hwlc : (enterReady (takeDemandPeriod s)).wlc = s.wlc := k.wlc
      rw [tripped_returns hm h.1 h.2]
      generalize enterReady (takeDemandPeriod s) = v at hdmc hmirror htrip hraised htimer hwlc
      rw [hdmc] at hmirror
      have hend := sampleEnd_dmc v
      rw [State.demanded, hdmc] at hend
      rw [hend]
      refine ⟨rfl, rfl, by simpa using htrip, ?_, rfl, ?_, ?_, sampleEnd_attention hraised⟩
      · exact (sampleEnd_mirror (hwlc ▸ p)).trans hmirror
      · rw [(sampleEnd_timer v).discharge, htimer.1]
      · rw [(sampleEnd_timer v).causes, htimer.2]
    · rw [tripped_stays hm h]
      simp only [putDmcSection_frame]
      exact ⟨rfl, rfl, rfl, rfl⟩
  · have hexec : exec (.clearFaults cell 0) s = .next (decideClearFaults cell 0 s) := whenRunning_of_running hs _
    rw [decideClearFaults_none hd hf he h1 h2 h3 h4] at hexec
    have hend := endCell_orderEnded cell .ok
      [0, natWord (s.pru.entries.countP fun e => e.state == .latched), 0, natWord s.pru.entries.length] s
    have hrest := endCell_rest cell .ok
      [0, natWord (s.pru.entries.countP fun e => e.state == .latched), 0, natWord s.pru.entries.length] s
    have hframe := endCell_frame cell .ok
      [0, natWord (s.pru.entries.countP fun e => e.state == .latched), 0, natWord s.pru.entries.length] s
    generalize endCell cell .ok
      [0, natWord (s.pru.entries.countP fun e => e.state == .latched), 0, natWord s.pru.entries.length] s = v
      at hexec hend hrest hframe
    have hpru : v.pru = s.pru := by simp [hframe]
    have hdmc : v.dmc = s.dmc := by simp [hframe]
    have htcu : v.tcu = s.tcu := by simp [hframe]
    have hwlc : v.wlc = s.wlc := by simp [hframe]
    have hclock : v.clock = s.clock := by simp [hframe]
    have hmay : v.mayReturn ↔ s.mayReturn := mayReturn_congr (by rw [hpru]) (by rw [htcu]) (by rw [hdmc])
    rw [settle_of_same_pru (by simp [hpru]) hd] at hexec
    refine ⟨_, hexec, ?_, fun hm => ?_, fun hm hno => ?_, fun hm hyes => ?_⟩
    · refine hend.ended.keep fun x hx1 hx2 => clearCompletion_cells (hwlc ▸ p) ?_ ?_
      · exact Nat.le_trans (by unfold cellBase; omega) hx1
      · exact Nat.lt_of_lt_of_le hx2 (cellBase_bound cell)
    · rw [clearCompletion_other (by rwa [hdmc])]
      exact hrest
    · rw [clearCompletion_credit (by rwa [hdmc]) (mt hmay.1 hno), hdmc]
      exact congrArg (fun u : State => { u with dmc := { s.dmc with credit := true } }) hrest
    · obtain ⟨k1, k2, k3, k4, k5, k6⟩ := clearCompletion_returned (s := v) (by rwa [hdmc]) (hmay.2 hyes)
      rw [hdmc, hclock] at k1
      exact ⟨k1, k2, k3, k4, k5 (hwlc ▸ p), k6, by simp [hpru]⟩

end Sys2Proof.Machine
end

section
/-! The checks of the direction at a demand sample (O37). -/

namespace Sys2Proof.Machine

section
variable {s t u : State} {m : Mode} {f : Dmc → Dmc} {d : Direction}

/-! ### The branches of R64 and R65 -/

theorem enterDriveCheck_neutral (h : s.dmc.demand.direction = .neutral) :
    enterDriveCheck s = s.setDmc { s.dmc with pendingDir := none } := if_pos h

theorem enterDriveCheck_enters (h : s.dmc.demand.direction ≠ .neutral) (hstill : s.standstill = true)
    (hpark : s.dmc.demand.parkBrake = false) (hf : s.dmc.fresh = .fresh) : enterDriveCheck s =
      changeMode .drive (fun m => { m with adopted := s.dmc.demand.direction, pendingDir := none }) s := by
  unfold enterDriveCheck
  dsimp only
  rw [if_neg h, if_pos ⟨hstill, hpark, hf⟩]

theorem enterDriveCheck_pends (h : s.dmc.demand.direction ≠ .neutral)
    (hno : s.standstill = false ∨ s.dmc.demand.parkBrake = true) : enterDriveCheck s =
      s.setDmc { s.dmc with pendingDir := some s.dmc.demand.direction } := by
  unfold enterDriveCheck
  dsimp only
  rw [if_neg h, if_neg]
  rintro ⟨h1, h2, -⟩
  rcases hno with hno | hno
  · rw [h1] at hno; cases hno
  · rw [h2] at hno; cases hno

theorem directionCheck_agreed (hm : s.dmc.mode = .drive) (h : s.dmc.demand.direction = s.dmc.adopted) :
    directionCheck s = s.setDmc { s.dmc with pendingDir := none } := by
  unfold directionCheck
  dsimp only
  rw [if_neg (by simpa using hm), if_pos h]

theorem directionCheck_returns (hm : s.dmc.mode = .drive) (h : s.dmc.demand.direction ≠ s.dmc.adopted)
    (hn : s.dmc.demand.direction = .neutral) (hstill : s.standstill = true) :
    directionCheck s = driveToReady s := by
  unfold directionCheck
  dsimp only
  rw [if_neg (by simpa using hm), if_neg h, if_pos hn, if_pos hstill]

theorem directionCheck_adopts (hm : s.dmc.mode = .drive) (h : s.dmc.demand.direction ≠ s.dmc.adopted)
    (hn : s.dmc.demand.direction ≠ .neutral) (hstill : s.standstill = true)
    (hpark : s.dmc.demand.parkBrake = false) : directionCheck s = adoptDirection s.dmc.demand.direction s := by
  unfold directionCheck
  dsimp only
  rw [if_neg (by simpa using hm), if_neg h, if_neg hn, if_pos ⟨hstill, hpark⟩]

theorem directionCheck_pends (hm : s.dmc.mode = .drive) (h : s.dmc.demand.direction ≠ s.dmc.adopted)
    (hno : s.standstill = false ∨ s.dmc.demand.direction ≠ .neutral ∧ s.dmc.demand.parkBrake = true) :
    directionCheck s = s.setDmc { s.dmc with pendingDir := some s.dmc.demand.direction } := by
  unfold directionCheck
  dsimp only
  rw [if_neg (by simpa using hm), if_neg h]
  split
  case isTrue hn =>
    have hstill : s.standstill = false := hno.elim id fun k => absurd hn k.1
    rw [if_neg (by rw [hstill]; exact Bool.false_ne_true), hn]
  case isFalse hn =>
    rw [if_neg]
    rintro ⟨h1, h2⟩
    rcases hno with hno | hno
    · rw [h1] at hno; cases hno
    · rw [h2] at hno; cases hno.2

/-! ### What a sample leaves once the direction is checked -/

/-- READY after DRIVE, before the check of R69. -/
def driveLeft (s : State) : State := changeMode .ready (fun d => { d with adopted := .neutral, pendingDir := none }) s

theorem driveToReady_light (h : s.pru.summary ≠ .safeStop) : driveToReady s = driveLeft s := by
  have e : driveToReady s = if (driveLeft s).pru.summary = .safeStop then enterSafeStop (driveLeft s) else driveLeft s := by
    unfold driveToReady driveLeft
    rfl
  rw [e, driveLeft, (changeMode_frame _ _ _).2.2.2.2.2.2.1, if_neg h]

theorem driveLeft_dmc (h : s.dmc.mode = .drive) : (driveLeft s).dmc = { s.dmc with
    mode := .ready, adopted := .neutral, pendingDir := none, lastChange := s.clock } := by
  rw [driveLeft, changeMode_dmc, State.movedDmc]
  simp [Dmc.startCounting, h, Mode.counted]

/-- DRIVE as it is entered. -/
def driveReached (d : Direction) (s : State) : State :=
  changeMode .drive (fun m => { m with adopted := d, pendingDir := none }) s

theorem driveReached_dmc (h : s.dmc.mode = .ready) : (driveReached d s).dmc = { s.dmc with
    mode := .drive, adopted := d, pendingDir := none, lastChange := s.clock } := by
  rw [driveReached, changeMode_dmc, State.movedDmc]
  simp [Dmc.startCounting, h, Mode.counted]

theorem adoptDirection_dmc (s : State) : (adoptDirection d s).dmc = { s.dmc with
    adopted := d, pendingDir := none
    substate := (adoptDirection d s).dmc.substate, target := (adoptDirection d s).dmc.target } := by
  unfold adoptDirection
  dsimp only
  split
  · rw [setSubstate_dmc]
    rfl
  · rfl

theorem adoptDirection_changeover (h : s.dmc.substate = .propel) :
    (adoptDirection d s).dmc.substate = .changeover ∧ (adoptDirection d s).dmc.target = .propel := by
  have e : adoptDirection d s = setSubstate .changeover .propel
      (s.setDmc { s.dmc with adopted := d, pendingDir := none }) := if_pos h
  rw [e, setSubstate_dmc]
  exact ⟨rfl, rfl⟩

/-- A mask on propel leaves no effective propel demand (R66). -/
theorem sampleEnd_masked (h : s.formedMasks.any = true) : (sampleEnd s).dmc.effPropel = 0 := by
  rw [sampleEnd_dmc]
  exact if_pos h

theorem masks_any_of_mode {k : Masks} (h : k.mode = true) : k.any = true := by
  simp [Masks.any, Masks.anyButForced, h]

theorem masks_any_of_pending {k : Masks} (h : k.pending = true) : k.any = true := by
  simp [Masks.any, Masks.anyButForced, h]

/-! ### Where the substate comes to (R67, R68) -/

/-- Every reference of the configured wheels is 0. -/
def State.noTorque (s : State) : Bool := s.cfg.wheels.all fun w => s.reference w == 0

theorem wheels_all_iff {c : Params} {q : Wheel → Bool} :
    c.wheels.all q = true ↔ ∀ w, c.wheel w = true → q w = true := by
  simp only [Params.wheels, List.all_filter, List.all_eq_true, Bool.or_eq_true, Bool.not_eq_true']
  constructor
  · intro h w hw
    have := h w (by cases w <;> simp [allWheels])
    rw [hw] at this
    simpa using this
  · intro h w _
    cases hw : c.wheel w with
    | false => exact .inl rfl
    | true => exact .inr (h w hw)

theorem noTorque_iff : s.noTorque = true ↔ ∀ w, s.cfg.wheel w = true → (s.tqa.wheels.get w).reference = 0 := by
  rw [State.noTorque, wheels_all_iff]
  simp only [beq_iff_eq, State.reference]

/-- The substate and the target that step 6 of a demand sample comes to. -/
def State.reachedSubstate (s : State) : Substate × Target :=
  let m := (formDemands s).movedSubstate
  if m.1 = .changeover ∧ s.noTorque = true then (m.2.substate, .none) else m

theorem formAndMove_substate (s : State) :
    ((formAndMove s).dmc.substate, (formAndMove s).dmc.target) = s.reachedSubstate := by
  have k := setSubstate_dmc (formDemands s).movedSubstate.1 (formDemands s).movedSubstate.2 (formDemands s)
  have hcfg : (setSubstate (formDemands s).movedSubstate.1 (formDemands s).movedSubstate.2 (formDemands s)).cfg =
      s.cfg := by simp [State.cfg]
  have href : ∀ w, (setSubstate (formDemands s).movedSubstate.1 (formDemands s).movedSubstate.2
      (formDemands s)).reference w = s.reference w := fun w => by simp [State.reference]
  unfold formAndMove State.reachedSubstate
  dsimp only
  rw [endChangeover_dmc]
  simp only [hcfg, href, k]
  unfold State.noTorque
  split <;> rfl

theorem wanted_retard (h : 0 < s.formedRetard) : (formDemands s).dmc.wanted = .retard := if_pos h

theorem wanted_propel (h : s.formedRetard = 0) (hp : 0 < (s.demanded).effPropel) :
    (formDemands s).dmc.wanted = .propel := by
  have h1 : ¬ 0 < (formDemands s).dmc.effRetard := by
    rw [formDemands_dmc]
    exact Nat.not_lt.2 h.le
  rw [Dmc.wanted, if_neg h1]
  exact if_pos hp

theorem wanted_coast (h : s.formedRetard = 0) (hp : (s.demanded).effPropel = 0) :
    (formDemands s).dmc.wanted = .coast := by
  have h1 : ¬ 0 < (formDemands s).dmc.effRetard := by
    rw [formDemands_dmc]
    exact Nat.not_lt.2 h.le
  have h2 : ¬ 0 < (formDemands s).dmc.effPropel := by
    rw [formDemands_dmc]
    exact Nat.not_lt.2 hp.le
  rw [Dmc.wanted, if_neg h1, if_neg h2]

theorem formDemands_substate : (formDemands s).dmc.substate = s.dmc.substate := rfl

theorem reached_coast (hw : (formDemands s).dmc.wanted = .coast) : s.reachedSubstate = (.coast, .none) := by
  have hm : (formDemands s).movedSubstate = (.coast, .none) := by
    unfold State.movedSubstate
    rw [hw]
  rw [State.reachedSubstate, hm]
  exact if_neg fun h => nomatch h.1

/-- The references of the configured wheels agree with RETARD in the state whose demands are formed. -/
def State.agreesAllRetard (s : State) : Bool := s.cfg.wheels.all s.agreesRetard

def State.agreesAllPropel (s : State) : Bool := s.cfg.wheels.all s.agreesPropel

theorem formDemands_agrees : (formDemands s).cfg.wheels.all (formDemands s).agreesRetard = s.agreesAllRetard ∧
    (formDemands s).cfg.wheels.all (formDemands s).agreesPropel = s.agreesAllPropel := ⟨rfl, rfl⟩

theorem reached_retard (hw : (formDemands s).dmc.wanted = .retard) :
    (s.dmc.substate = .retard ∨ s.dmc.substate = .coast ∧ s.agreesAllRetard = true →
      s.reachedSubstate = (.retard, .none)) ∧
    (s.dmc.substate = .propel ∨ s.dmc.substate = .changeover ∨
        s.dmc.substate = .coast ∧ ¬s.agreesAllRetard = true →
      s.reachedSubstate = if s.noTorque then (.retard, .none) else (.changeover, .retard)) := by
  have hmoved : (formDemands s).movedSubstate = match s.dmc.substate with
      | .retard => (.retard, .none)
      | .propel | .changeover => (.changeover, .retard)
      | .coast | .none => if s.agreesAllRetard then (.retard, .none) else (.changeover, .retard) := by
    unfold State.movedSubstate
    rw [hw, formDemands_substate, formDemands_agrees.1]
    cases s.dmc.substate <;> rfl
  unfold State.reachedSubstate
  constructor
  · rintro (h | ⟨h, hagree⟩)
    · rw [hmoved, h]
      exact if_neg fun k => nomatch k.1
    · rw [hmoved, h]
      simp only [if_pos hagree]
      exact if_neg fun k => nomatch k.1
  · intro h
    have : (formDemands s).movedSubstate = (.changeover, .retard) := by
      rw [hmoved]
      rcases h with h | h | ⟨h, hagree⟩
      · rw [h]
      · rw [h]
      · rw [h]
        exact if_neg hagree
    rw [this]
    cases s.noTorque <;> rfl

theorem reached_propel (hw : (formDemands s).dmc.wanted = .propel) :
    (s.dmc.substate = .propel ∨ s.dmc.substate = .coast ∧ s.agreesAllPropel = true →
      s.reachedSubstate = (.propel, .none)) ∧
    (s.dmc.substate = .retard ∨ s.dmc.substate = .changeover ∨
        s.dmc.substate = .coast ∧ ¬s.agreesAllPropel = true →
      s.reachedSubstate = if s.noTorque then (.propel, .none) else (.changeover, .propel)) := by
  have hmoved : (formDemands s).movedSubstate = match s.dmc.substate with
      | .propel => (.propel, .none)
      | .retard | .changeover => (.changeover, .propel)
      | .coast | .none => if s.agreesAllPropel then (.propel, .none) else (.changeover, .propel) := by
    unfold State.movedSubstate
    rw [hw, formDemands_substate, formDemands_agrees.2]
    cases s.dmc.substate <;> rfl
  unfold State.reachedSubstate
  constructor
  · rintro (h | ⟨h, hagree⟩)
    · rw [hmoved, h]
      exact if_neg fun k => nomatch k.1
    · rw [hmoved, h]
      simp only [if_pos hagree]
      exact if_neg fun k => nomatch k.1
  · intro h
    have : (formDemands s).movedSubstate = (.changeover, .propel) := by
      rw [hmoved]
      rcases h with h | h | ⟨h, hagree⟩
      · rw [h]
      · rw [h]
      · rw [h]
        exact if_neg hagree
    rw [this]
    cases s.noTorque <;> rfl

theorem sampleEnd_substate (s : State) :
    ((sampleEnd s).dmc.substate, (sampleEnd s).dmc.target) = s.reachedSubstate := by
  have h : (sampleEnd s).dmc = (formAndMove s).dmc := by simp [sampleEnd]
  rw [h]
  exact formAndMove_substate s

/-- A CHANGEOVER to PROPEL over a reference that is not 0 goes on (R67, R68). -/
theorem sampleEnd_changeover (h : s.dmc.substate = .changeover) (hr : (sampleEnd s).dmc.effRetard = 0)
    (hp : 0 < (sampleEnd s).dmc.effPropel)
    (hw : ∃ w, s.cfg.wheel w = true ∧ (s.tqa.wheels.get w).reference ≠ 0) :
    (sampleEnd s).dmc.substate = .changeover ∧ (sampleEnd s).dmc.target = .propel := by
  rw [sampleEnd_dmc] at hr hp
  have hsub := sampleEnd_substate s
  have hno : ¬s.noTorque = true := fun hn => by
    obtain ⟨w, hcfg, hne⟩ := hw
    exact hne (noTorque_iff.1 hn w hcfg)
  rw [(reached_propel (wanted_propel hr hp)).2 (.inr (.inl h)), if_neg hno] at hsub
  exact Prod.mk.inj hsub

/-! ### A sample in DRIVE and in READY -/

theorem drive_sample (hm : s.dmc.mode = .drive) :
    putDmcSection (demandStep (directionCheck (modeChecks (takeDemandPeriod s)))) =
      putDmcSection (demandStep (directionCheck (takeDemandPeriod s))) := by
  rw [modeChecks_drive (s := takeDemandPeriod s) hm]

theorem ready_sample (hm : s.dmc.mode = .ready) :
    putDmcSection (demandStep (directionCheck (modeChecks (takeDemandPeriod s)))) =
      putDmcSection (demandStep (directionCheck (enterDriveCheck (takeDemandPeriod s)))) := by
  rw [modeChecks_ready (s := takeDemandPeriod s) hm]

theorem driveLeft_mirror (p : s.wlc.placed) : (driveLeft s).word 0x0010 = 2 := by
  rw [driveLeft, changeMode_mirror p]
  rfl

theorem driveLeft_raised : Cls.modeChange.isIn (driveLeft s).atc.pending = true := by
  rw [driveLeft]
  exact changeMode_raised

theorem driveReached_mirror (p : s.wlc.placed) : (driveReached d s).word 0x0010 = 3 := by
  rw [driveReached, changeMode_mirror p]
  rfl

theorem driveReached_raised : Cls.modeChange.isIn (driveReached d s).atc.pending = true := by
  rw [driveReached]
  exact changeMode_raised

theorem directionCheck_wlc (hm : s.dmc.mode = .drive) (hsum : s.pru.summary ≠ .safeStop) :
    (directionCheck s).wlc = s.wlc := by
  by_cases hno : s.standstill = false ∨ s.dmc.demand.direction ≠ .neutral ∧ s.dmc.demand.parkBrake = true
  · by_cases h : s.dmc.demand.direction = s.dmc.adopted
    · rw [directionCheck_agreed hm h]; rfl
    · rw [directionCheck_pends hm h hno]; rfl
  by_cases h : s.dmc.demand.direction = s.dmc.adopted
  · rw [directionCheck_agreed hm h]; rfl
  have hstill : s.standstill = true := by
    cases k : s.standstill
    · exact absurd (.inl k) hno
    · rfl
  by_cases hn : s.dmc.demand.direction = .neutral
  · rw [directionCheck_returns hm h hn hstill, driveToReady_light hsum, driveLeft, changeMode_wlc (by decide)]
  · have hpark : s.dmc.demand.parkBrake = false := by
      cases k : s.dmc.demand.parkBrake
      · rfl
      · exact absurd (.inr ⟨hn, k⟩) hno
    rw [directionCheck_adopts hm h hn hstill hpark]
    simp

/-- NEUTRAL at standstill in DRIVE: the sample ends in READY (R65). -/
theorem sample_returns (hm : s.dmc.mode = .drive) (hsum : s.pru.summary ≠ .safeStop) (p : s.wlc.placed)
    (h : s.dmc.demand.direction ≠ s.dmc.adopted) (hn : s.dmc.demand.direction = .neutral)
    (hstill : s.standstill = true) (ht : t = putDmcSection (demandStep (directionCheck s))) :
    t.dmc.mode = .ready ∧ t.dmc.adopted = .neutral ∧ t.dmc.pendingDir = none ∧ t.word 0x0010 = 2 ∧
      Cls.modeChange.isIn t.atc.pending = true ∧ t.dmc.lastChange = s.clock ∧ t.dmc.masks.mode = true ∧
      t.dmc.effPropel = 0 := by
  rw [directionCheck_returns hm h hn hstill, driveToReady_light hsum] at ht
  have hdmc := driveLeft_dmc hm
  have hwlc : (driveLeft s).wlc = s.wlc := changeMode_wlc (by decide)
  have hmirror : (driveLeft s).word 0x0010 = 2 := driveLeft_mirror p
  have hraised : Cls.modeChange.isIn (driveLeft s).atc.pending = true := driveLeft_raised
  generalize driveLeft s = v at ht hdmc hwlc hmirror hraised
  rw [putDmcSection_demandStep (by rw [hdmc]; rfl)] at ht
  subst ht
  have hmask : v.formedMasks.mode = true := by simp [State.formedMasks, hdmc]
  have hpropel := sampleEnd_masked (masks_any_of_mode hmask)
  have hend := sampleEnd_dmc v
  rw [State.demanded, hdmc] at hend
  refine ⟨?_, ?_, ?_, (sampleEnd_mirror (hwlc ▸ p)).trans hmirror, sampleEnd_attention hraised, ?_, ?_, hpropel⟩
  all_goals rw [hend]
  exact hmask

/-- The demand of another direction that may not be adopted is pending, and masks propel (R65). -/
theorem sample_pends (hm : s.dmc.mode = .drive) (h : s.dmc.demand.direction ≠ s.dmc.adopted)
    (hno : s.standstill = false ∨ s.dmc.demand.direction ≠ .neutral ∧ s.dmc.demand.parkBrake = true)
    (ht : t = putDmcSection (demandStep (directionCheck s))) :
    t.dmc.mode = .drive ∧ t.dmc.adopted = s.dmc.adopted ∧ t.dmc.pendingDir = some s.dmc.demand.direction ∧
      t.dmc.masks.pending = true ∧ t.dmc.effPropel = 0 := by
  rw [directionCheck_pends hm h hno] at ht
  have hdmc : (s.setDmc { s.dmc with pendingDir := some s.dmc.demand.direction }).dmc =
      { s.dmc with pendingDir := some s.dmc.demand.direction } := rfl
  generalize s.setDmc { s.dmc with pendingDir := some s.dmc.demand.direction } = v at ht hdmc
  rw [putDmcSection_demandStep (by rw [hdmc]; simp [hm, Mode.working])] at ht
  subst ht
  have hmask : v.formedMasks.pending = true := by simp [State.formedMasks, hdmc, hm]
  have hpropel := sampleEnd_masked (masks_any_of_pending hmask)
  have hend := sampleEnd_dmc v
  rw [State.demanded, hdmc] at hend
  refine ⟨?_, ?_, ?_, ?_, hpropel⟩
  all_goals rw [hend]
  · exact hm
  · exact hmask

/-- The other driving direction is adopted (R65). -/
theorem sample_adopts (hm : s.dmc.mode = .drive) (h : s.dmc.demand.direction ≠ s.dmc.adopted)
    (hn : s.dmc.demand.direction ≠ .neutral) (hstill : s.standstill = true)
    (hpark : s.dmc.demand.parkBrake = false) (ht : t = putDmcSection (demandStep (directionCheck s))) :
    t.dmc.mode = .drive ∧ t.dmc.adopted = s.dmc.demand.direction ∧ t.dmc.pendingDir = none ∧
      (s.dmc.substate = .propel → t.dmc.effRetard = 0 → 0 < t.dmc.effPropel →
        (∃ w, s.cfg.wheel w = true ∧ (s.tqa.wheels.get w).reference ≠ 0) →
        t.dmc.substate = .changeover ∧ t.dmc.target = .propel) := by
  rw [directionCheck_adopts hm h hn hstill hpark] at ht
  have hdmc := adoptDirection_dmc (d := s.dmc.demand.direction) s
  have hsub := adoptDirection_changeover (s := s) (d := s.dmc.demand.direction)
  have hcfl : (adoptDirection s.dmc.demand.direction s).cfl = s.cfl := by simp
  have htqa : (adoptDirection s.dmc.demand.direction s).tqa = s.tqa := by simp
  generalize adoptDirection s.dmc.demand.direction s = v at ht hdmc hsub hcfl htqa
  have hmode : v.dmc.mode = .drive := by rw [hdmc]; exact hm
  rw [putDmcSection_demandStep (by rw [hmode]; rfl)] at ht
  subst ht
  have hend := sampleEnd_dmc v
  refine ⟨?_, ?_, ?_, fun hpropel hr hp hw => ?_⟩
  · rw [hend]; exact hmode
  · rw [hend]; exact (congrArg Dmc.adopted hdmc :)
  · rw [hend]; exact (congrArg Dmc.pendingDir hdmc :)
  · refine sampleEnd_changeover (hsub hpropel).1 hr hp ?_
    rw [show v.cfg = s.cfg from congrArg Cfl.active hcfl, htqa]
    exact hw

/-- A direction at standstill with the park brake released: the sample ends in DRIVE (R64). -/
theorem sample_enters (hm : s.dmc.mode = .ready) (hf : s.dmc.fresh = .fresh) (p : s.wlc.placed)
    (hn : s.dmc.demand.direction ≠ .neutral) (hstill : s.standstill = true)
    (hpark : s.dmc.demand.parkBrake = false)
    (ht : t = putDmcSection (demandStep (directionCheck (enterDriveCheck s)))) :
    t.wlc = s.wlc ∧ t.dmc.mode = .drive ∧ t.dmc.adopted = s.dmc.demand.direction ∧ t.dmc.pendingDir = none ∧
      t.word 0x0010 = 3 ∧ Cls.modeChange.isIn t.atc.pending = true ∧ t.dmc.lastChange = s.clock := by
  rw [enterDriveCheck_enters hn hstill hpark hf] at ht
  change t = putDmcSection (demandStep (directionCheck (driveReached s.dmc.demand.direction s))) at ht
  have hdmc := driveReached_dmc (d := s.dmc.demand.direction) hm
  have hwlc : (driveReached s.dmc.demand.direction s).wlc = s.wlc := changeMode_wlc (by decide)
  have hmirror : (driveReached s.dmc.demand.direction s).word 0x0010 = 3 := driveReached_mirror p
  have hraised : Cls.modeChange.isIn (driveReached s.dmc.demand.direction s).atc.pending = true := driveReached_raised
  generalize driveReached s.dmc.demand.direction s = v at ht hdmc hwlc hmirror hraised
  rw [directionCheck_agreed (by rw [hdmc]) (by rw [hdmc])] at ht
  have hdmc' : (v.setDmc { v.dmc with pendingDir := none }).dmc = v.dmc := by
    rw [hdmc]; rfl
  have hwlc' : (v.setDmc { v.dmc with pendingDir := none }).wlc = s.wlc := hwlc
  have hmirror' : (v.setDmc { v.dmc with pendingDir := none }).word 0x0010 = 3 := hmirror
  have hraised' : Cls.modeChange.isIn (v.setDmc { v.dmc with pendingDir := none }).atc.pending = true := hraised
  generalize v.setDmc { v.dmc with pendingDir := none } = u at ht hdmc' hwlc' hmirror' hraised'
  rw [hdmc] at hdmc'
  rw [putDmcSection_demandStep (by rw [hdmc']; rfl)] at ht
  subst ht
  have hend := sampleEnd_dmc u
  rw [State.demanded, hdmc'] at hend
  refine ⟨(sampleEnd_frame u).1.trans hwlc', ?_, ?_, ?_, (sampleEnd_mirror (hwlc' ▸ p)).trans hmirror',
    sampleEnd_attention hraised', ?_⟩
  all_goals rw [hend]

/-- A sample after which READY holds, with a direction pending or none (R64). -/
theorem sample_holds {o : Option Direction} (hm : s.dmc.mode = .ready)
    (hv : enterDriveCheck s = s.setDmc { s.dmc with pendingDir := o })
    (ht : t = putDmcSection (demandStep (directionCheck (enterDriveCheck s)))) :
    t.wlc = s.wlc ∧ t.dmc.mode = .ready ∧ t.dmc.pendingDir = o ∧ t.dmc.adopted = s.dmc.adopted ∧
      t.dmc.effPropel = 0 := by
  rw [hv] at ht
  have hdmc : (s.setDmc { s.dmc with pendingDir := o }).dmc = { s.dmc with pendingDir := o } := rfl
  have hwlc : (s.setDmc { s.dmc with pendingDir := o }).wlc = s.wlc := rfl
  generalize s.setDmc { s.dmc with pendingDir := o } = v at ht hdmc hwlc
  have hmode : v.dmc.mode = .ready := by rw [hdmc]; exact hm
  rw [directionCheck_other (by rw [hmode]; nofun), putDmcSection_demandStep (by rw [hmode]; rfl)] at ht
  subst ht
  have hend := sampleEnd_dmc v
  have hpropel := sampleEnd_masked (s := v) (masks_any_of_mode (by simp [State.formedMasks, hmode]))
  refine ⟨(sampleEnd_frame v).1.trans hwlc, ?_, ?_, ?_, hpropel⟩
  all_goals rw [hend]
  · exact hmode
  · exact (congrArg Dmc.pendingDir hdmc :)
  · exact (congrArg Dmc.adopted hdmc :)

end

/-- Settles O37, by the branches of the direction checks. -/
theorem driveEntered : Obligations.DriveEntered := by
  unfold Obligations.DriveEntered
  refine ⟨fun s hs hd p hm hsum hp hf ha hdir => ?_, fun s hs hd p hm hp hf ha => ?_⟩
  · have hexec := execDemandSample_quiet hs hd hp hf ha
    have hdemand := (quietSample_steady s).demand
    rw [drive_sample hm] at hexec hdemand
    refine ⟨_, hexec, hdemand, ?_, by simp, by simp, by simp, putDmcSection_shows _,
      fun hn hstill => sample_returns (s := takeDemandPeriod s) hm hsum p hdir hn hstill rfl,
      fun hno => sample_pends (s := takeDemandPeriod s) hm hdir hno rfl,
      fun hn hstill hpark => sample_adopts (s := takeDemandPeriod s) hm hdir hn hstill hpark rfl⟩
    simp [directionCheck_wlc (s := takeDemandPeriod s) hm hsum]
  · have hexec := execDemandSample_quiet hs hd hp hf ha
    have hdemand := (quietSample_steady s).demand
    rw [ready_sample hm] at hexec hdemand
    have henters := sample_enters (s := takeDemandPeriod s) hm hf p (ht := rfl)
    have hpends := fun h hno => sample_holds (s := takeDemandPeriod s) hm (enterDriveCheck_pends h hno) rfl
    have hneutral := fun h => sample_holds (s := takeDemandPeriod s) hm (enterDriveCheck_neutral h) rfl
    refine ⟨_, hexec, hdemand, ?_, by simp, by simp, by simp, putDmcSection_shows _,
      fun hn hstill hpark => (henters hn hstill hpark).2,
      fun hn hno => ?_, fun hn => (hneutral hn).2⟩
    · by_cases hn : s.dmc.demand.direction = .neutral
      · exact (hneutral hn).1
      cases hstill : s.standstill with
      | false => exact (hpends hn (.inl hstill)).1
      | true =>
        cases hpark : s.dmc.demand.parkBrake with
        | false => exact (henters hn hstill hpark).1
        | true => exact (hpends hn (.inr hpark)).1
    · exact (hpends hn hno).2

end Sys2Proof.Machine
end

section
/-! The demands and the substate at a demand sample (O38). -/

namespace Sys2Proof.Machine

section
variable {s t u a : State}

/-! ### The TCU's record after a substate change (R108, R111, R117) -/

/-- V_ref and its stamp as a substate change leaves them. -/
def State.turnedSpeed (s : State) : Option Nat × Long :=
  match s.judgedQuality with
  | .degraded => (s.degradedSpeed, s.clock)
  | .hint =>
    if s.tcu.quality = .hint then (s.tcu.vRef, s.tcu.stamp) else (s.dmc.demand.hint, s.clock)
  | .front =>
    if s.tcu.quality = .front then (s.tcu.vRef, s.tcu.stamp)
    else match frontSpeed s.cfg s.wlc.sau.report with
      | some v => (some v, s.clock)
      | none => (s.tcu.vRef, s.tcu.stamp)

/-- The TCU's record as a substate change leaves it. -/
def State.turnedTcu (s : State) : Tcu :=
  { s.tcu with
    wheels := PerWheel.ofFn fun w => (s.tcu.wheels.get w).leaveSubstate, quality := s.judgedQuality
    vRef := s.turnedSpeed.1, stamp := s.turnedSpeed.2 }

theorem degradedSpeed_congr_held (hcfl : t.cfl = s.cfl) (hwlc : t.wlc = s.wlc) (hpru : t.pru = s.pru)
    (hdmc : t.dmc.takesLeast = s.dmc.takesLeast)
    (hheld : ∀ w, (t.tcu.wheels.get w).held = (s.tcu.wheels.get w).held) :
    t.degradedSpeed = s.degradedSpeed := by
  have hcfg : t.cfg = s.cfg := congrArg Cfl.active hcfl
  have hspeed : t.speedWheel = s.speedWheel := funext fun w => by
    rw [State.speedWheel, State.speedWheel, hcfg, hwlc, hheld, hpru]
  have hgrounds : t.wheelGrounds = s.wheelGrounds := by
    simp only [State.wheelGrounds, State.wheelSpeed, hheld]
    rw [hspeed, hcfg]
  rw [State.degradedSpeed, State.degradedSpeed, hdmc, hgrounds]

theorem judgeQuality_tcu (s : State) : (judgeQuality s).tcu = if s.judgedQuality = s.tcu.quality then s.tcu
    else (recomputeVRef (s.setTcu { s.tcu with quality := s.judgedQuality })).tcu := by
  unfold judgeQuality
  split <;> simp

theorem Tcu.eq_of_quality {r : Tcu} {q : Quality} (h : r.quality = q) :
    r = { r with quality := q, vRef := r.vRef, stamp := r.stamp } := by
  subst h
  rfl

/-- A judgement of the quality, with the recomputation in quality DEGRADED. -/
theorem judged_tcu (s : State) : (recomputeIn .degraded (judgeQuality s)).tcu =
    { s.tcu with quality := s.judgedQuality, vRef := s.turnedSpeed.1, stamp := s.turnedSpeed.2 } := by
  by_cases hq : s.judgedQuality = .degraded
  · have hquality : (judgeQuality s).tcu.quality = .degraded := (judgeQuality_quality s).trans hq
    have hspeed : (judgeQuality s).degradedSpeed = s.degradedSpeed :=
      degradedSpeed_congr (by simp) (by simp) (by simp) (judgeQuality_wheels s) (by simp)
    have hwheels := judgeQuality_wheels s
    have hclock : (judgeQuality s).clock = s.clock := by simp
    have hturned : s.turnedSpeed = (s.degradedSpeed, s.clock) := by rw [State.turnedSpeed, hq]
    rw [recomputeIn, if_pos hquality, recomputeVRef, hquality, hturned, hq]
    generalize judgeQuality s = v at hquality hspeed hwheels hclock
    show { v.tcu with vRef := v.degradedSpeed, stamp := v.clock } = _
    simp only [hspeed, hclock, hquality, hwheels]
  · have hkeep : recomputeIn .degraded (judgeQuality s) = judgeQuality s := if_neg (by
      rw [judgeQuality_quality]; exact hq)
    rw [hkeep, judgeQuality_tcu, State.turnedSpeed]
    cases hj : s.judgedQuality with
    | degraded => exact absurd hj hq
    | hint =>
      by_cases h : s.tcu.quality = .hint
      · rw [if_pos h.symm, if_pos h]; exact Tcu.eq_of_quality h
      · rw [if_neg (Ne.symm h), if_neg h]
        rfl
    | front =>
      by_cases h : s.tcu.quality = .front
      · rw [if_pos h.symm, if_pos h]; exact Tcu.eq_of_quality h
      · rw [if_neg (Ne.symm h), if_neg h]
        unfold recomputeVRef
        change (match frontSpeed s.cfg s.wlc.sau.report with
          | some v => setVRef (some v) (s.setTcu { s.tcu with quality := .front })
          | none => s.setTcu { s.tcu with quality := .front }).tcu = _
        cases frontSpeed s.cfg s.wlc.sau.report <;> rfl

theorem leaveSubstate_held (r : TcuWheel) : r.leaveSubstate.held = r.held := by
  rw [leaveSubstate_eq]

theorem leaveSubstate_twice (r : TcuWheel) : r.leaveSubstate.leaveSubstate = r.leaveSubstate := by
  cases h : r.slip <;> simp [TcuWheel.leaveSubstate, h]

/-- What a substate change reads beside the DMC's substate and target. -/
structure SameWorld (a t : State) : Prop where
  cfl : t.cfl = a.cfl
  wlc : t.wlc = a.wlc
  tqa : t.tqa = a.tqa
  pru : t.pru = a.pru
  clock : t.clock = a.clock
  demand : t.dmc.demand = a.dmc.demand

theorem SameWorld.judged (h : SameWorld a t) : t.judgedQuality = a.judgedQuality := by
  have hcfg : t.cfg = a.cfg := congrArg Cfl.active h.cfl
  rw [State.judgedQuality, State.judgedQuality, hcfg, h.wlc, h.demand]

theorem wheelsLeave_tcu (s : State) : (forWheels (fun w s => alterWheel w (s.tcu.wheels.get w).leaveSubstate s) s).tcu =
    { s.tcu with wheels := PerWheel.ofFn fun w => (s.tcu.wheels.get w).leaveSubstate } := by
  have hw := fun w => wheelsLeave_wheel w s
  have hrest : (forWheels (fun w s => alterWheel w (s.tcu.wheels.get w).leaveSubstate s) s).tcu =
      { s.tcu with
        wheels := (forWheels (fun w s => alterWheel w (s.tcu.wheels.get w).leaveSubstate s) s).tcu.wheels } := by
    have step : ∀ w (r : TcuWheel) (v : State), v.tcu = { s.tcu with wheels := v.tcu.wheels } →
        (alterWheel w r v).tcu = { s.tcu with wheels := (alterWheel w r v).tcu.wheels } := fun w r v h => by
      unfold alterWheel
      split
      · exact h
      · simp only [putTraction_frame, setTcuWheel, State.setTcu_tcu]
        rw [h]
    exact step _ _ _ (step _ _ _ (step _ _ _ (step _ _ _ rfl)))
  rw [hrest, PerWheel.ext_get (q := PerWheel.ofFn fun w => (s.tcu.wheels.get w).leaveSubstate) fun w =>
    (hw w).trans (PerWheel_get_ofFn (fun w => (s.tcu.wheels.get w).leaveSubstate) w).symm]

theorem tcuSubstateChange_tcu (s : State) : (tcuSubstateChange s).tcu = s.turnedTcu := by
  have hleave := wheelsLeave_tcu s
  have hframe : SameWorld s (forWheels (fun w s => alterWheel w (s.tcu.wheels.get w).leaveSubstate s) s) := by
    constructor <;> simp [forWheels]
  have hdmc : (forWheels (fun w s => alterWheel w (s.tcu.wheels.get w).leaveSubstate s) s).dmc = s.dmc := by
    simp [forWheels]
  simp only [tcuSubstateChange, runAll, putTcuSection_frame]
  rw [judged_tcu]
  generalize forWheels (fun w s => alterWheel w (s.tcu.wheels.get w).leaveSubstate s) s = v at hleave hframe hdmc
  have hspeed : v.turnedSpeed = s.turnedSpeed := by
    have hcfg : v.cfg = s.cfg := congrArg Cfl.active hframe.cfl
    rw [State.turnedSpeed, State.turnedSpeed, hframe.judged, hframe.clock, hframe.wlc, hcfg, hdmc, hleave,
      degradedSpeed_congr_held hframe.cfl hframe.wlc hframe.pru (by rw [hdmc]) fun w => by
        rw [hleave, PerWheel_get_ofFn, leaveSubstate_held]]
  rw [hframe.judged, hspeed, hleave]
  rfl

/-- A substate change once more acts as the last one alone. -/
theorem turnedTcu_twice {d : Dmc} (h : SameWorld a u) (hd : d.demand = a.dmc.demand)
    (hu : u.tcu = ({ a with dmc := d } : State).turnedTcu) :
    u.turnedTcu = ({ a with dmc := u.dmc } : State).turnedTcu := by
  have hjudged : u.judgedQuality = ({ a with dmc := u.dmc } : State).judgedQuality := by
    refine SameWorld.judged (a := { a with dmc := u.dmc }) ⟨h.cfl, h.wlc, h.tqa, h.pru, h.clock, rfl⟩
  have hjudged' : ({ a with dmc := d } : State).judgedQuality = u.judgedQuality :=
    (SameWorld.judged (a := a) (t := { a with dmc := d }) ⟨rfl, rfl, rfl, rfl, rfl, hd⟩).trans h.judged.symm
  have hwheel : ∀ w, u.tcu.wheels.get w = (a.tcu.wheels.get w).leaveSubstate := fun w => by
    rw [hu, State.turnedTcu, PerWheel_get_ofFn]
  have hquality : u.tcu.quality = u.judgedQuality := by
    rw [hu]
    exact hjudged'
  have hspeed : u.turnedSpeed = ({ a with dmc := u.dmc } : State).turnedSpeed := by
    rw [State.turnedSpeed, State.turnedSpeed, ← hjudged]
    have hsame : u.judgedQuality ≠ .degraded →
        (u.tcu.vRef, u.tcu.stamp) = ({ a with dmc := d } : State).turnedSpeed := fun _ => by
      rw [hu]
      rfl
    cases hj : u.judgedQuality with
    | degraded =>
      refine Prod.ext ?_ h.clock
      exact degradedSpeed_congr_held (s := { a with dmc := u.dmc }) h.cfl h.wlc h.pru rfl fun w => by
        rw [hwheel, leaveSubstate_held]
    | hint =>
      simp only
      rw [if_pos (hquality.trans hj), hsame (by rw [hj]; decide), State.turnedSpeed, hjudged', hj]
      simp only [hd, h.demand]
    | front =>
      simp only
      rw [if_pos (hquality.trans hj), hsame (by rw [hj]; decide), State.turnedSpeed, hjudged', hj]
      rfl
  rw [State.turnedTcu, State.turnedTcu, ← hjudged, hspeed]
  have hwheels : (PerWheel.ofFn fun w => (u.tcu.wheels.get w).leaveSubstate) =
      PerWheel.ofFn fun w => (a.tcu.wheels.get w).leaveSubstate := by
    congr 1
    funext w
    rw [hwheel, leaveSubstate_twice]
  rw [hwheels]

/-! ### The announcement of a substate (R117, R137, R152) -/

theorem biasAllowed_iff (s : State) : s.biasAllowed = true ↔ s.biasConditions := by
  have hactive : s.cfg.wheels.all s.active = true ↔
      ∀ w, s.cfg.wheel w = true → s.active w = true ∧ s.pru.wheelEx.get w = false := by
    rw [wheels_all_iff]
    refine forall₂_congr fun w _ => ⟨fun h => ⟨h, ?_⟩, And.left⟩
    simp only [State.active, Bool.and_eq_true, Bool.not_eq_true'] at h
    exact h.2
  have hgrip : (s.cfg.wheels.all fun w => (s.tcu.wheels.get w).slip == .grip) = true ↔
      ∀ w, s.cfg.wheel w = true → (s.tcu.wheels.get w).slip = .grip := by
    rw [wheels_all_iff]
    exact forall₂_congr fun w _ => beq_iff_eq
  rw [State.biasAllowed, Bool.and_eq_true, hgrip, Bool.and_eq_true, hactive]
  cases hv : s.tcu.vRef <;> simp [State.biasConditions, hv, and_assoc]

theorem evaluateBias_stc (s : State) : (evaluateBias s).stc = { s.stc with
    beta := if s.biasAllowed then min 300 (divNat s.cfg.nearest (s.stc.kappa * s.cfg.assistGain) 1000) else 0 } := rfl

theorem evaluateBias_formed (s : State) : BiasFormed (evaluateBias s) (evaluateBias s).stc.beta := by
  have hcond : (evaluateBias s).biasConditions ↔ s.biasConditions := Iff.rfl
  constructor
  · intro h
    exact if_pos ((biasAllowed_iff s).2 (hcond.1 h))
  · intro h
    exact if_neg (mt (biasAllowed_iff s).1 (mt hcond.2 h))

/-- The STC's sections show its words. -/
theorem putStcSection_shows (p : s.wlc.placed) : (putStcSection s).showsAt 0x20A0 s.stcWords ∧
    (putStcSection s).showsIn s.wlc.sau.block 0x40 s.stcWords := by
  have hlen : s.stcWords.length = 16 := rfl
  constructor
  · exact putBlock_keeps_below put_showsAt (p.2.1 .sau) (by rw [hlen]; omega)
  · intro base hb i hi
    have h := putBlock_showsIn (s := put 0x20A0 s.stcWords s) (b := s.wlc.sau.block) (offset := 0x40)
      (ws := s.stcWords ++ List.replicate 80 0) base hb i (by simp; omega)
    rw [putStcSection, h, List.getD_append _ _ _ _ hi]

/-- A substate, told to the TCU, the RGC and the STC. -/
structure SubstateTold (a t : State) : Prop where
  tcu : t.tcu = ({ a with dmc := t.dmc } : State).turnedTcu
  bias : BiasFormed t t.stc.beta
  stc : { t.stc with beta := a.stc.beta } = a.stc
  shown : a.wlc.placed → t.showsAt 0x20A0 t.stcWords ∧ t.showsIn a.wlc.sau.block 0x40 t.stcWords
  reference : ReferenceTaken t
  blower : t.rgc.blower.shadow = t.lmu.commanded

theorem BiasFormed.congr (h : BiasFormed s s.stc.beta) (hcfl : t.cfl = s.cfl) (hwlc : t.wlc = s.wlc)
    (hpru : t.pru = s.pru) (hdmc : t.dmc = s.dmc) (htcu : t.tcu = s.tcu) (hstc : t.stc = s.stc) :
    BiasFormed t t.stc.beta := by
  have hcfg : t.cfg = s.cfg := congrArg Cfl.active hcfl
  have hactive : ∀ w, t.active w = s.active w := fun w => by
    rw [State.active, State.active, hcfg, hwlc, hpru]
  have hcond : t.biasConditions ↔ s.biasConditions := by
    simp only [State.biasConditions, hactive]
    rw [hcfg, hpru, hdmc, htcu, hstc]
  rw [hstc]
  refine ⟨fun k => ?_, fun k => h.otherwise (mt hcond.2 k)⟩
  rw [hcfg, hstc]
  exact h.allowed (hcond.1 k)

theorem announceSubstate_eq (s : State) : announceSubstate s =
    putStcSection (evaluateBias (recomputeBlower (tcuSubstateChange s))) := by
  simp only [announceSubstate, runAll, rgcSubstateChange, stcSubstateChange]

/-- The announcement's parts read and alter these alone. -/
theorem announceSubstate_tcu (s : State) : (announceSubstate s).tcu = s.turnedTcu := by
  rw [announceSubstate_eq]
  simp [tcuSubstateChange_tcu]

theorem announceSubstate_stc (s : State) : { (announceSubstate s).stc with beta := s.stc.beta } = s.stc := by
  rw [announceSubstate_eq]
  simp [evaluateBias_stc]

theorem announceSubstate_bias (s : State) : BiasFormed (announceSubstate s) (announceSubstate s).stc.beta := by
  rw [announceSubstate_eq]
  exact (evaluateBias_formed (recomputeBlower (tcuSubstateChange s))).congr (by simp) (by simp) (by simp) (by simp) (by simp) (by simp)

theorem announceSubstate_reference (s : State) : ReferenceTaken (announceSubstate s) := by
  rw [announceSubstate_eq]
  exact (tcuSubstateChange_referenceTaken s).congr (by simp) (by simp) (by simp) (by simp) (by simp)

theorem announceSubstate_blower (s : State) :
    (announceSubstate s).rgc.blower.shadow = (announceSubstate s).lmu.commanded := by
  rw [announceSubstate_eq]
  simp only [putStcSection_frame, evaluateBias_frame]
  rfl

theorem announceSubstate_shown (p : s.wlc.placed) :
    (announceSubstate s).showsAt 0x20A0 (announceSubstate s).stcWords ∧
      (announceSubstate s).showsIn s.wlc.sau.block 0x40 (announceSubstate s).stcWords := by
  have hwlc : (evaluateBias (recomputeBlower (tcuSubstateChange s))).wlc = s.wlc := by simp
  rw [announceSubstate_eq]
  generalize evaluateBias (recomputeBlower (tcuSubstateChange s)) = v at hwlc
  have hwords : (putStcSection v).stcWords = v.stcWords := by simp [State.stcWords]
  rw [hwords, ← hwlc]
  exact putStcSection_shows (hwlc ▸ p)

/-- An announcement over a state that differs from the first one by its substate alone, or by an announcement
too, tells the last substate. -/
theorem announceSubstate_told (h : SameWorld a s) (hstc : { s.stc with beta := a.stc.beta } = a.stc)
    (htcu : s.tcu = a.tcu ∨ ∃ d : Dmc, d.demand = a.dmc.demand ∧
      s.tcu = ({ a with dmc := d } : State).turnedTcu) :
    SubstateTold a (announceSubstate s) where
  tcu := by
    rw [announceSubstate_tcu, (announceSubstate_frame s).2.2.2.2.2.2.2.2.1]
    rcases htcu with htcu | ⟨d, hd, htcu⟩
    · have hj : s.judgedQuality = ({ a with dmc := s.dmc } : State).judgedQuality :=
        SameWorld.judged (a := { a with dmc := s.dmc }) ⟨h.cfl, h.wlc, h.tqa, h.pru, h.clock, rfl⟩
      have hcfg : s.cfg = ({ a with dmc := s.dmc } : State).cfg := congrArg Cfl.active h.cfl
      have hspeed : s.turnedSpeed = ({ a with dmc := s.dmc } : State).turnedSpeed := by
        rw [State.turnedSpeed, State.turnedSpeed, hj, hcfg, h.clock, h.wlc, htcu,
          degradedSpeed_congr_held (s := { a with dmc := s.dmc }) h.cfl h.wlc h.pru rfl fun w => by rw [htcu]]
      rw [State.turnedTcu, State.turnedTcu, hj, hspeed, htcu]
    · exact turnedTcu_twice h hd htcu
  bias := announceSubstate_bias s
  stc := by
    have k := announceSubstate_stc s
    rw [← hstc, ← k]
  shown p := by
    have k := announceSubstate_shown (s := s) (h.wlc ▸ p)
    rwa [h.wlc] at k
  reference := announceSubstate_reference s
  blower := announceSubstate_blower s

/-! ### The substate's move in a sample -/

/-- A state that differs from the first by its substate's announcements alone. -/
structure SubstateMoved (a t : State) : Prop where
  world : SameWorld a t
  told : SubstateTold a t ∨ t.tcu = a.tcu ∧ t.stc = a.stc ∧ t.dmc.substate = a.dmc.substate ∧ t.dmc.target = a.dmc.target

theorem SameWorld.setDmc (h : SameWorld a t) {d : Dmc} (hd : d.demand = t.dmc.demand) : SameWorld a (t.setDmc d) :=
  ⟨h.cfl, h.wlc, h.tqa, h.pru, h.clock, hd.trans h.demand⟩

theorem SameWorld.announceSubstate (h : SameWorld a t) : SameWorld a (announceSubstate t) := by
  constructor <;> simp [h.cfl, h.wlc, h.tqa, h.pru, h.clock, h.demand]

theorem setSubstate_moved (h : SubstateMoved a s) (sub : Substate) (target : Target) :
    SubstateMoved a (setSubstate sub target s) := by
  unfold setSubstate
  split
  · exact h
  · have hworld : SameWorld a (s.setDmc { s.dmc with substate := sub, target := target }) := h.world.setDmc rfl
    refine ⟨hworld.announceSubstate, .inl (announceSubstate_told hworld ?_ ?_)⟩
    · rcases h.told with k | k
      · exact k.stc
      · show { s.stc with beta := a.stc.beta } = a.stc
        rw [k.2.1]
    · rcases h.told with k | k
      · exact .inr ⟨s.dmc, h.world.demand, k.tcu⟩
      · exact .inl k.1

theorem formDemands_moved (h : SameWorld a s) (htcu : s.tcu = a.tcu) (hstc : s.stc = a.stc)
    (hsub : s.dmc.substate = a.dmc.substate) (htarget : s.dmc.target = a.dmc.target) :
    SubstateMoved a (formDemands s) :=
  ⟨⟨h.cfl, h.wlc, h.tqa, h.pru, h.clock, h.demand⟩, .inr ⟨htcu, hstc, hsub, htarget⟩⟩

theorem formAndMove_moved (h : SubstateMoved a (formDemands s)) : SubstateMoved a (formAndMove s) := by
  have k := setSubstate_moved h (formDemands s).movedSubstate.1 (formDemands s).movedSubstate.2
  unfold formAndMove
  dsimp only
  unfold endChangeover
  split
  · exact setSubstate_moved k _ _
  · exact k

theorem SubstateTold.putDmcSection (h : SubstateTold a t) : SubstateTold a (putDmcSection t) where
  tcu := by simpa using h.tcu
  bias := h.bias.congr (by simp) (by simp) (by simp) (by simp) (by simp) (by simp)
  stc := by simpa using h.stc
  shown p := by
    have hwords : (Machine.putDmcSection t).stcWords = t.stcWords := by simp [State.stcWords]
    obtain ⟨h1, h2⟩ := h.shown p
    rw [hwords]
    exact ⟨put_keeps_showsAt h1 (.inr (by simp [State.dmcWords, longWords])),
      put_keeps_showsIn h2 (p.2.1 .sau) (by simp [State.dmcWords, longWords])⟩
  reference := h.reference.congr (by simp) (by simp) (by simp) (by simp) (by simp)
  blower := by simpa using h.blower

/-- At the end of a sample that changes the substate or the target, it has been told. -/
theorem sampleEnd_told (h : SameWorld a s) (htcu : s.tcu = a.tcu) (hstc : s.stc = a.stc)
    (hsub : s.dmc.substate = a.dmc.substate) (htarget : s.dmc.target = a.dmc.target)
    (hmoved : (sampleEnd s).dmc.substate ≠ a.dmc.substate ∨ (sampleEnd s).dmc.target ≠ a.dmc.target) :
    SubstateTold a (sampleEnd s) := by
  have hdmc : (sampleEnd s).dmc = (formAndMove s).dmc := by simp [sampleEnd]
  rw [hdmc] at hmoved
  rcases (formAndMove_moved (formDemands_moved h htcu hstc hsub htarget)).told with k | k
  · exact k.putDmcSection
  · exact absurd k.2.2.1 (hmoved.elim id fun h => absurd k.2.2.2 h)

end

end Sys2Proof.Machine
end

section
/-! The demand sample of DRIVE and SAFE_STOP, assembled (O38). -/

namespace Sys2Proof.Machine

section
variable {s t : State} {d : Dmc}

/-- A DMC record at step 6 of a sample that has left the mode, the direction, the demand and the substate as
they were. -/
structure SampleOf (s : State) (d : Dmc) : Prop where
  mode : d.mode = s.dmc.mode
  adopted : d.adopted = s.dmc.adopted
  demand : d.demand = s.dmc.demand
  fresh : d.fresh = s.dmc.fresh
  substate : d.substate = s.dmc.substate
  target : d.target = s.dmc.target

theorem SampleOf.world (h : SampleOf s d) : SameWorld s (s.setDmc d) := ⟨rfl, rfl, rfl, rfl, rfl, h.demand⟩

/-- Every reference agrees with RETARD (R67). -/
theorem agreesAllRetard_iff : s.agreesAllRetard = true ↔ ∀ w, s.cfg.wheel w = true →
    (s.tqa.wheels.get w).reference = 0 ∨
      (s.tqa.wheels.get w).reference * (s.wlc.wheels.get w).report.field1.toInt < 0 := by
  rw [State.agreesAllRetard, wheels_all_iff]
  refine forall₂_congr fun w _ => ?_
  rw [State.agreesRetard, Bool.or_eq_true, beq_iff_eq, decide_eq_true_iff]
  rfl

/-- Every reference agrees with PROPEL (R67). -/
theorem agreesAllPropel_iff : s.agreesAllPropel = true ↔ ∀ w, s.cfg.wheel w = true →
    (s.tqa.wheels.get w).reference = 0 ∨
      s.dmc.adopted = .forward ∧ 0 < (s.tqa.wheels.get w).reference ∨
      s.dmc.adopted = .reverse ∧ (s.tqa.wheels.get w).reference < 0 := by
  rw [State.agreesAllPropel, wheels_all_iff]
  refine forall₂_congr fun w _ => ?_
  cases h : s.dmc.adopted <;> simp [State.agreesPropel, State.reference, h, Direction.sign]

/-- The moves toward RETARD (R67, R68), by what the sample leaves. -/
theorem sampleEnd_toRetard (hr : 0 < (sampleEnd s).dmc.effRetard) :
    (s.dmc.substate = .retard ∨ s.dmc.substate = .coast ∧ s.agreesAllRetard = true →
      (sampleEnd s).dmc.substate = .retard ∧ (sampleEnd s).dmc.target = .none) ∧
    (s.dmc.substate = .propel ∨ s.dmc.substate = .changeover ∨ s.dmc.substate = .coast ∧ ¬s.agreesAllRetard = true →
      (s.noTorque = true → (sampleEnd s).dmc.substate = .retard ∧ (sampleEnd s).dmc.target = .none) ∧
      (¬s.noTorque = true → (sampleEnd s).dmc.substate = .changeover ∧ (sampleEnd s).dmc.target = .retard)) := by
  rw [sampleEnd_dmc] at hr
  have hsub := sampleEnd_substate s
  obtain ⟨h1, h2⟩ := reached_retard (wanted_retard hr)
  refine ⟨fun h => ?_, fun h => ⟨fun hno => ?_, fun hno => ?_⟩⟩
  · rw [h1 h] at hsub
    exact Prod.mk.inj hsub
  · rw [h2 h, if_pos hno] at hsub
    exact Prod.mk.inj hsub
  · rw [h2 h, if_neg hno] at hsub
    exact Prod.mk.inj hsub

/-- The moves toward PROPEL (R67, R68), by what the sample leaves. -/
theorem sampleEnd_toPropel (hr : (sampleEnd s).dmc.effRetard = 0) (hp : 0 < (sampleEnd s).dmc.effPropel) :
    (s.dmc.substate = .propel ∨ s.dmc.substate = .coast ∧ s.agreesAllPropel = true →
      (sampleEnd s).dmc.substate = .propel ∧ (sampleEnd s).dmc.target = .none) ∧
    (s.dmc.substate = .retard ∨ s.dmc.substate = .changeover ∨ s.dmc.substate = .coast ∧ ¬s.agreesAllPropel = true →
      (s.noTorque = true → (sampleEnd s).dmc.substate = .propel ∧ (sampleEnd s).dmc.target = .none) ∧
      (¬s.noTorque = true → (sampleEnd s).dmc.substate = .changeover ∧ (sampleEnd s).dmc.target = .propel)) := by
  rw [sampleEnd_dmc] at hr hp
  have hsub := sampleEnd_substate s
  obtain ⟨h1, h2⟩ := reached_propel (wanted_propel hr hp)
  refine ⟨fun h => ?_, fun h => ⟨fun hno => ?_, fun hno => ?_⟩⟩
  · rw [h1 h] at hsub
    exact Prod.mk.inj hsub
  · rw [h2 h, if_pos hno] at hsub
    exact Prod.mk.inj hsub
  · rw [h2 h, if_neg hno] at hsub
    exact Prod.mk.inj hsub

theorem sampleEnd_toCoast (hr : (sampleEnd s).dmc.effRetard = 0) (hp : (sampleEnd s).dmc.effPropel = 0) :
    (sampleEnd s).dmc.substate = .coast ∧ (sampleEnd s).dmc.target = .none := by
  rw [sampleEnd_dmc] at hr hp
  have hsub := sampleEnd_substate s
  rw [reached_coast (wanted_coast hr hp)] at hsub
  exact Prod.mk.inj hsub

/-- The TCU's wheels at a change of the substate (R117). -/
theorem SubstateTold.wheel (h : SubstateTold s t) (w : Wheel) : (t.tcu.wheels.get w).count = 0 ∧
    ((s.tcu.wheels.get w).slip = .slip ∨ (s.tcu.wheels.get w).slip = .slide →
      (t.tcu.wheels.get w).slip = .recover) ∧
    (t.tcu.wheels.get w).factor = (s.tcu.wheels.get w).factor := by
  have hw : t.tcu.wheels.get w = (s.tcu.wheels.get w).leaveSubstate := by
    rw [h.tcu, State.turnedTcu, PerWheel_get_ofFn]
  rw [hw, leaveSubstate_eq]
  exact ⟨rfl, fun k => if_pos k, rfl⟩

/-- The state whose demands a sample of DRIVE or SAFE_STOP forms. -/
theorem sample_forms (hm : s.dmc.mode = .drive ∧ s.dmc.demand.direction = s.dmc.adopted ∨
      s.dmc.mode = .safeStop ∧ (s.standstill = false ∨ s.dmc.stopTime + s.cfg.allocPeriod < 1000)) :
    ∃ d, SampleOf s d ∧ d.pendingDir = (if s.dmc.mode = .drive then none else s.dmc.pendingDir) ∧
      putDmcSection (demandStep (directionCheck (modeChecks (takeDemandPeriod s)))) = sampleEnd (s.setDmc d) := by
  rcases hm with ⟨hm, hdir⟩ | ⟨hm, hstop⟩
  · refine ⟨{ (takeDemandPeriod s).dmc with pendingDir := none }, ⟨rfl, rfl, rfl, rfl, rfl, rfl⟩, (if_pos hm).symm, ?_⟩
    rw [drive_sample hm, directionCheck_agreed (s := takeDemandPeriod s) hm hdir]
    exact putDmcSection_demandStep (by simp [takeDemandPeriod, hm, Mode.working])
  · refine ⟨{ (takeDemandPeriod s).dmc with
        stopTime := if s.standstill then s.dmc.stopTime + s.cfg.allocPeriod else 0 },
      ⟨rfl, rfl, rfl, rfl, rfl, rfl⟩, (if_neg (by rw [hm]; decide)).symm, ?_⟩
    rw [safeStop_goesOn hm hstop]
    rfl

end

/-- Settles O38. -/
theorem demandsFormed : Obligations.DemandsFormed := by
  unfold Obligations.DemandsFormed
  intro s hs hd hm hp hf ha
  obtain ⟨d, k, hpend, hend⟩ := sample_forms hm
  have hexec := execDemandSample_quiet hs hd hp hf ha
  rw [hend] at hexec
  have hdmc := sampleEnd_dmc (s.setDmc d)
  have htold := sampleEnd_told k.world rfl rfl k.substate k.target
  have hcoast := sampleEnd_toCoast (s := s.setDmc d)
  have hretard := sampleEnd_toRetard (s := s.setDmc d)
  have hpropel := sampleEnd_toPropel (s := s.setDmc d)
  have hframe := sampleEnd_frame (s.setDmc d)
  have hshows := sampleEnd_shows (s.setDmc d)
  have hzero : (s.setDmc d).noTorque = true ↔ _ := noTorque_iff
  have hagreeR : (s.setDmc d).agreesAllRetard = true ↔ _ := agreesAllRetard_iff
  have hagreeP : (s.setDmc d).agreesAllPropel = true ↔ _ := agreesAllPropel_iff
  have hmode : s.dmc.mode = .drive ∨ s.dmc.mode = .safeStop := hm.imp And.left And.left
  have hmasks : (s.setDmc d).formedMasks = { mode := s.dmc.mode == .safeStop, pending := false, stale := false
                                             forced := s.rgc.forced, brake := s.dmc.demand.serviceBrake } := by
    simp only [State.formedMasks, State.setDmc_dmc, k.mode, hpend, k.fresh, k.demand, hf]
    rcases hmode with h | h <;> rw [h] <;> rfl
  generalize sampleEnd (s.setDmc d) = t at *
  refine ⟨t, hexec, ?_, ?_, ?_, ?_, ?_, ?_, ?_, fun _ => hshows, fun h w => (htold h).wheel w, fun h => ?_, hcoast,
    fun zero agree hz hag hr => ?_, fun zero agree hz hag hr hpr => ?_, ?_⟩
  · rw [hdmc]; exact k.mode
  · rw [hdmc]; exact hpend
  · rw [hdmc]; exact k.adopted
  · rw [hdmc]; exact k.demand
  · rw [hdmc]; exact hmasks
  · rw [hdmc]
    show (s.setDmc d).formedRetard = _
    simp only [State.formedRetard, State.setDmc_dmc, k.mode, k.demand]
    rcases hmode with h | h <;> rw [h] <;> rfl
  · rw [hdmc]
    show (if (s.setDmc d).formedMasks.any then 0 else d.demand.propel) = _
    rw [hmasks, k.demand]
    rcases hmode with h | h <;> rw [h] <;> simp [Masks.any, Masks.anyButForced, or_comm]
  · have told := htold h
    exact ⟨told.tcu.trans (tcuSubstateChange_tcu _).symm, told.bias, told.stc, told.shown, told.reference, told.blower⟩
  · have hz' : (s.setDmc d).noTorque = true ↔ zero := hzero.trans hz.symm
    have hag' : (s.setDmc d).agreesAllRetard = true ↔ agree := hagreeR.trans hag.symm
    have m := hretard hr
    simp only [hz', hag', State.setDmc_dmc, k.substate] at m
    exact m
  · have hz' : (s.setDmc d).noTorque = true ↔ zero := hzero.trans hz.symm
    have hag' : (s.setDmc d).agreesAllPropel = true ↔ agree := by
      refine hagreeP.trans (Iff.trans ?_ hag.symm)
      simp only [State.setDmc_dmc, k.adopted]
      rfl
    have m := hpropel hr hpr
    simp only [hz', hag', State.setDmc_dmc, k.substate] at m
    exact m
  · obtain ⟨h1, h2, h3, h4, h5, h6, -⟩ := hframe
    exact ⟨h1, h2, h6, h4, h3, h5⟩

end Sys2Proof.Machine
end

section
/-! The wheel link's records as the configured set is taken up, and a roll call as it is asked for (R41, R42,
R53). -/

namespace Sys2Proof.Machine

section
variable {cells : Bool} {spared : Option (BitVec 6)} {a s t u : State}

/-! ### One record -/

theorem changeUnit_wlc (u : UnitId) (r : UnitRec) (s : State) :
    (changeUnit u r s).wlc = s.wlc.setUnit u r := by
  unfold changeUnit
  dsimp only
  split <;> simp

/-- A record after it took up whether it is configured (R41). -/
def State.takenUnit (s : State) (u : UnitId) : UnitRec :=
  if s.cfg.unit u then { s.wlc.unit u with configured := true }
  else if (s.wlc.unit u).configured then { (s.wlc.unit u).absent with configured := false }
  else s.wlc.unit u

theorem setUnit_same (l : Wlc) (u : UnitId) : l.setUnit u (l.unit u) = l := by
  cases u with
  | sau => rfl
  | wheel w => cases w <;> rfl

theorem takeConfigured_wlc (u : UnitId) (s : State) :
    (takeConfigured u s).wlc = s.wlc.setUnit u (s.takenUnit u) := by
  unfold takeConfigured State.takenUnit
  dsimp only
  split
  · exact changeUnit_wlc _ _ _
  · split
    · simp [changeUnit_wlc]
    · exact (setUnit_same _ _).symm

theorem takenUnit_configured (s : State) (u : UnitId) : (s.takenUnit u).configured = s.cfg.unit u := by
  unfold State.takenUnit
  split
  case isTrue h => exact h.symm
  case isFalse h =>
    have hc : s.cfg.unit u = false := Bool.not_eq_true _ ▸ h
    split
    · exact hc.symm
    case isFalse hn => rw [hc]; exact Bool.not_eq_true _ ▸ hn

theorem takenUnit_block (s : State) (u : UnitId) : (s.takenUnit u).block = (s.wlc.unit u).block := by
  unfold State.takenUnit
  split
  · rfl
  · split <;> rfl

theorem takeConfigured_unit (u v : UnitId) (s : State) :
    (takeConfigured u s).wlc.unit v = if v = u then s.takenUnit u else s.wlc.unit v := by
  rw [takeConfigured_wlc]
  cases u <;> cases v <;> simp [Wlc.unit, Wlc.setUnit, PerWheel_get_set]

theorem takenUnit_congr {v : UnitId} (hcfl : t.cfl = s.cfl) (hunit : t.wlc.unit v = s.wlc.unit v) :
    t.takenUnit v = s.takenUnit v := by
  have hcfg : t.cfg = s.cfg := congrArg Cfl.active hcfl
  rw [State.takenUnit, State.takenUnit, hcfg, hunit]

theorem takeConfigured_takenUnit {u v : UnitId} (h : v ≠ u) (s : State) :
    (takeConfigured u s).takenUnit v = s.takenUnit v :=
  takenUnit_congr (by simp) (by rw [takeConfigured_unit, if_neg h])

/-- The configured set is taken up: each record by itself, and nothing else of the wheel link. -/
theorem unitsTaken_wlc (s : State) : (forUnits takeConfigured s).wlc = { s.wlc with
    wheels := PerWheel.ofFn fun w => s.takenUnit (.wheel w), sau := s.takenUnit .sau } := by
  have e1 : ∀ {v w : UnitId} (u : State), v ≠ w → (takeConfigured w u).takenUnit v = u.takenUnit v :=
    fun u h => takeConfigured_takenUnit h u
  simp only [forUnits, forWheels]
  rw [takeConfigured_wlc, e1 _ (by simp), e1 _ (by simp), e1 _ (by simp), e1 _ (by simp),
    takeConfigured_wlc, e1 _ (by simp), e1 _ (by simp), e1 _ (by simp),
    takeConfigured_wlc, e1 _ (by simp), e1 _ (by simp), takeConfigured_wlc, e1 _ (by simp), takeConfigured_wlc]
  rfl

theorem unitsTaken_unit (u : UnitId) (s : State) : (forUnits takeConfigured s).wlc.unit u = s.takenUnit u := by
  rw [unitsTaken_wlc]
  cases u with
  | sau => rfl
  | wheel w => exact PerWheel_get_ofFn _ w

/-! ### The bytes before the order cells -/

theorem sauChange_low (h : LowKept false spared a s) : LowKept false spared a (sauChange s) := by
  have k1 : LowKept false spared a (if s.sauSilent then forgetAngle s else s) := by
    split
    · exact h.of_xm rfl id
    · exact h
  simp only [sauChange, runAll]
  generalize (if s.sauSilent then forgetAngle s else s) = t at k1
  have k2 := endCalibrationIf_low k1 (b := t.sauGone) nofun .unitAbsent .unitAbsent
  generalize endCalibrationIf t.sauGone .unitAbsent .unitAbsent t = v at k2
  exact putStcSection_low (k2.of_xm (by simp) (by simp))

theorem setUnit_placed {u : UnitId} {r : UnitRec} (p : s.wlc.placed) (hb : r.block = (s.wlc.unit u).block) :
    (s.wlc.setUnit u r).placed := by
  obtain ⟨h1, h2, h3⟩ := p
  have hcursor : (s.wlc.setUnit u r).cursor = s.wlc.cursor := by cases u <;> rfl
  have hbanks : (s.wlc.setUnit u r).bankBlock = s.wlc.bankBlock := by cases u <;> rfl
  refine ⟨hcursor ▸ h1, fun v => ?_, fun b => hbanks ▸ h3 b⟩
  have hv : ((s.wlc.setUnit u r).unit v).block = (s.wlc.unit v).block := by
    by_cases e : v = u
    · subst e
      rw [← hb]
      cases v <;> simp [Wlc.unit, Wlc.setUnit]
    · cases u <;> cases v <;> simp_all [Wlc.unit, Wlc.setUnit, PerWheel_get_set]
  rw [hv]
  exact h2 v

theorem changeUnit_low (h : LowKept false spared a s) {u : UnitId} {r : UnitRec} (hb : r.block = (s.wlc.unit u).block) :
    LowKept false spared a (changeUnit u r s) := by
  have k : LowKept false spared a (s.setWlc (s.wlc.setUnit u r)) := h.of_xm rfl fun p => setUnit_placed p hb
  unfold changeUnit
  dsimp only
  split
  · exact sauChange_low k
  · exact k

theorem reportLoss_low (h : LowKept cells spared a s) (u : UnitId) (present : Bool) :
    LowKept cells spared a (reportLoss u present s) := by
  cases u with
  | sau => exact note_low h _ _ _
  | wheel w =>
    have k : LowKept cells spared a (s.setPru { s.pru with lossHeld := s.pru.lossHeld.set w present }) := h.of_xm rfl id
    exact note_low k _ _ _

theorem putLink_low (h : LowKept cells spared a s) (u : UnitId) : LowKept cells spared a (putLink u s) :=
  h.status (putBlock_statusOnly (fun p => placed_unit p u) _ _)

theorem takeConfigured_low (h : LowKept false spared a s) (u : UnitId) : LowKept false spared a (takeConfigured u s) := by
  unfold takeConfigured
  dsimp only
  split
  · exact changeUnit_low h rfl
  · split
    · exact putLink_low (reportLoss_low (changeUnit_low h (by rfl)) _ _) _
    · exact h

theorem unitsTaken_low (h : LowKept false spared a s) : LowKept false spared a (forUnits takeConfigured s) := by
  simp only [forUnits, forWheels]
  exact takeConfigured_low (takeConfigured_low (takeConfigured_low (takeConfigured_low (takeConfigured_low h
    _) _) _) _) _

theorem abortRollCall_low (h : LowKept false spared a s) : LowKept false spared a (abortRollCall s) := by
  unfold abortRollCall
  cases ho : s.wlc.order with
  | none => exact h
  | some o =>
    have k : LowKept false spared a (endOrder s) := h.of_xm (by simp) id
    exact complete_low k _ _ _ _

/-! ### A roll call as it is asked for (R42, R53) -/

theorem abortRollCall_wlc (s : State) : (abortRollCall s).wlc =
    if s.wlc.order = none then s.wlc else { s.wlc with order := none, window := s.wlc.window.map Exchange.orphan } := by
  unfold abortRollCall
  cases ho : s.wlc.order with
  | none => exact (if_pos rfl).symm
  | some o =>
    rw [if_neg (by simp)]
    simp [endOrder]

theorem abortRollCall_order (s : State) : (abortRollCall s).wlc.order = none := by
  rw [abortRollCall_wlc]
  split
  case isTrue h => exact h
  case isFalse => rfl

theorem abortRollCall_window (s : State) : (abortRollCall s).wlc.window = none ↔ s.wlc.window = none := by
  rw [abortRollCall_wlc]
  split
  · rfl
  · simp

/-- Rounds are stopped and a roll call is asked for. -/
def State.askedRollCall (s : State) : State :=
  s.setWlc { s.wlc with
    roundsOn := false, roundOpen := false, roundDue := false, visit := [], rollCallAsked := true, rollCall := none }

theorem startRollCall_eq (s : State) : startRollCall s = takeRollCall (abortRollCall s).askedRollCall := rfl

theorem takeRollCall_waits (h : s.wlc.window ≠ none) : takeRollCall s = s := if_neg fun k => h k.2

theorem takeRollCall_begins (h : s.wlc.window = none) (ha : s.wlc.rollCallAsked = true) :
    takeRollCall s = beginRollCall s := if_pos ⟨ha, h⟩

theorem beginRollCall_wlc (s : State) : (beginRollCall s).wlc = { s.wlc with
    wheels := PerWheel.ofFn fun w => s.takenUnit (.wheel w), sau := s.takenUnit .sau
    rollCallAsked := false, rollCall := some { todo := allUnits.filter s.cfg.unit, tries := 0 } } := by
  have h : (beginRollCall s).wlc = { (forUnits takeConfigured s).wlc with
      rollCallAsked := false
      rollCall := some { todo := allUnits.filter fun u => ((forUnits takeConfigured s).wlc.unit u).configured
                         tries := 0 } } := rfl
  have hf : (fun u => ((forUnits takeConfigured s).wlc.unit u).configured) = s.cfg.unit := by
    funext u
    rw [unitsTaken_unit, takenUnit_configured]
  rw [h, hf, unitsTaken_wlc]

theorem beginRollCall_low (h : LowKept false spared a s) : LowKept false spared a (beginRollCall s) := by
  have k := unitsTaken_low h
  unfold beginRollCall
  generalize forUnits takeConfigured s = v at k
  exact k.of_xm rfl id

/-- What the CFL's request of a roll call leaves of the wheel link (R42, R53). -/
structure RollCallAsked (s t : State) : Prop where
  roundsOn : t.wlc.roundsOn = false
  order : t.wlc.order = none
  begun : s.wlc.window = none → t.wlc.rollCallAsked = false ∧
    t.wlc.rollCall = some { todo := allUnits.filter s.cfg.unit, tries := 0 }
  waits : s.wlc.window ≠ none → t.wlc.rollCallAsked = true ∧ t.wlc.rollCall = none

theorem startRollCall_asked (s : State) : RollCallAsked s (startRollCall s) := by
  have horder : (abortRollCall s).askedRollCall.wlc.order = none := abortRollCall_order s
  have hwindow : (abortRollCall s).askedRollCall.wlc.window = none ↔ s.wlc.window = none := abortRollCall_window s
  have hcfg : (abortRollCall s).askedRollCall.cfg = s.cfg :=
    congrArg Cfl.active (abortRollCall_frame s).2.2.2.2.2.1
  have hon : (abortRollCall s).askedRollCall.wlc.roundsOn = false := rfl
  have hasked : (abortRollCall s).askedRollCall.wlc.rollCallAsked = true := rfl
  have hcall : (abortRollCall s).askedRollCall.wlc.rollCall = none := rfl
  rw [startRollCall_eq]
  generalize (abortRollCall s).askedRollCall = v at horder hwindow hcfg hon hasked hcall
  by_cases hw : s.wlc.window = none
  · rw [takeRollCall_begins (hwindow.2 hw) hasked]
    have hwlc := beginRollCall_wlc v
    rw [hcfg] at hwlc
    exact ⟨by rw [hwlc]; exact hon, by rw [hwlc]; exact horder, fun _ => by rw [hwlc]; exact ⟨rfl, rfl⟩,
      fun hn => absurd hw hn⟩
  · rw [takeRollCall_waits (mt hwindow.1 hw)]
    exact ⟨hon, horder, fun h => absurd h hw, fun _ => ⟨hasked, hcall⟩⟩

theorem startRollCall_low (h : LowKept false spared a s) : LowKept false spared a (startRollCall s) := by
  have k : LowKept false spared a (abortRollCall s).askedRollCall := (abortRollCall_low h).of_xm rfl id rfl
  rw [startRollCall_eq]
  unfold takeRollCall
  split
  · exact beginRollCall_low k
  · exact k

end
end Sys2Proof.Machine
end

section
/-! STANDBY is left: straight into READY, or through ENROLL (R34, R74; O29). -/

namespace Sys2Proof.Machine

section
variable {a s t u : State} {cell : BitVec 6} {r : Result} {detail : List Word}

/-! ### Through ENROLL (R34) -/

/-- STARTING as it is entered from STANDBY, before ENROLL. -/
def startingReached (s : State) : State := changeMode .starting (fun d => d.atRest) s

/-- The CFL's phase at an entry into ENROLL from STANDBY. -/
def State.enrolling (s : State) : State :=
  s.setCfl { s.cfl with phase := .enroll, reEnrol := false, settleEnd := none }

theorem standbyToStarting_eq (s : State) :
    standbyToStarting s = startRollCall (startingReached s).enrolling := by
  simp only [standbyToStarting, enterEnroll, startingReached, State.enrolling]

/-- What is left where STANDBY goes back to STARTING (R34, R42). -/
structure StartingEntered (s t : State) : Prop where
  dmc : t.dmc = { s.dmc with
    mode := .starting, substate := .none, target := .none, adopted := .neutral, pendingDir := none
    variant := none, lastChange := s.clock }
  mirror : s.wlc.placed → t.word 0x0010 = 0
  cfl : t.cfl = { s.cfl with phase := .enroll, reEnrol := false, settleEnd := none }
  rollCall : RollCallAsked s t
  raised : Cls.modeChange.isIn t.atc.pending = true
  placed : s.wlc.placed → t.wlc.placed

theorem startingReached_dmc (s : State) : (startingReached s).dmc = { s.dmc with
    mode := .starting, substate := .none, target := .none, adopted := .neutral, pendingDir := none
    variant := none, lastChange := s.clock } := by
  rw [startingReached, changeMode_dmc]
  simp [State.movedDmc, Dmc.startCounting, Mode.counted, Dmc.atRest]

theorem startingReached_wlc (s : State) : (startingReached s).wlc = s.wlc := by
  rw [startingReached, changeMode_wlc (by decide)]

theorem startingReached_cfl (s : State) : (startingReached s).cfl = s.cfl := by simp [startingReached]

theorem startingReached_mirror (p : s.wlc.placed) : (startingReached s).word 0x0010 = 0 := by
  rw [startingReached, changeMode_mirror p]
  rfl

theorem startingReached_raised : Cls.modeChange.isIn (startingReached s).atc.pending = true := by
  rw [startingReached]
  exact changeMode_raised

theorem RollCallAsked.congr (h : RollCallAsked u t) (hwlc : u.wlc = s.wlc) (hcfg : u.cfg = s.cfg) :
    RollCallAsked s t :=
  ⟨h.roundsOn, h.order, fun k => hcfg ▸ h.begun (hwlc ▸ k), fun k => h.waits (hwlc ▸ k)⟩

theorem standbyToStarting_entered (s : State) : StartingEntered s (standbyToStarting s) := by
  have hdmc := startingReached_dmc s
  have hwlc := startingReached_wlc s
  have hcfl := startingReached_cfl s
  have hmirror := startingReached_mirror (s := s)
  have hraised := startingReached_raised (s := s)
  rw [standbyToStarting_eq]
  generalize startingReached s = v at hdmc hwlc hcfl hmirror hraised
  have hasked := startRollCall_asked v.enrolling
  have hlow := startRollCall_low (.refl false v.enrolling)
  have hsteady := startRollCall_steady (.refl false v.enrolling)
  have hframe := startRollCall_frame v.enrolling
  have hcfg : v.enrolling.cfg = s.cfg := by
    show v.cfl.active = s.cfl.active
    rw [hcfl]
  refine ⟨?_, fun p => ?_, ?_, hasked.congr hwlc hcfg, hsteady.attention _ hraised, fun p => ?_⟩
  · rw [hframe.2.2.2.2.2.2.1]
    exact hdmc
  · have hp : v.enrolling.wlc.placed := by
      show v.wlc.placed
      rwa [hwlc]
    rw [hlow.word hp (by omega)]
    exact hmirror p
  · rw [hframe.2.2.2.2.2.1]
    show { v.cfl with phase := .enroll, reEnrol := false, settleEnd := none } = _
    rw [hcfl]
  · refine hlow.placed ?_
    show v.wlc.placed
    rwa [hwlc]

/-- The deliveries in STARTING leave all that. -/
theorem StartingEntered.settled (h : StartingEntered s t) : StartingEntered s (settle t) := by
  have hu := settle_unheard (s := t) (.inl (by rw [h.dmc]))
  refine ⟨hu.dmc.trans h.dmc, fun p => ?_, hu.cfl.trans h.cfl, ?_, ?_, fun p => (hu.low none).placed (h.placed p)⟩
  · rw [(hu.low none).word (h.placed p) (by omega)]
    exact h.mirror p
  · have k := h.rollCall
    rcases hu.wlc with e | e
    · exact ⟨by rw [e]; exact k.roundsOn, by rw [e]; exact k.order, fun hw => by rw [e]; exact k.begun hw,
        fun hw => by rw [e]; exact k.waits hw⟩
    · exact ⟨by rw [e]; exact k.roundsOn, by rw [e]; exact k.order, fun hw => by rw [e]; exact k.begun hw,
        fun hw => by rw [e]; exact k.waits hw⟩
  · exact (settle_steady (.refl false _)).attention _ h.raised

/-! ### LEAVE_STANDBY -/

theorem leavesStraight_iff : s.leavesStraight = true ↔ s.linkKept = true ∧ s.cfl.reEnrol = false := by
  simp [State.leavesStraight]

theorem leaveStandbySteps_straight (h : s.linkKept = true ∧ s.cfl.reEnrol = false) :
    leaveStandbySteps s = enterReady s := if_pos (leavesStraight_iff.2 h)

theorem leaveStandbySteps_enroll (h : ¬(s.linkKept = true ∧ s.cfl.reEnrol = false)) :
    leaveStandbySteps s = standbyToStarting s := if_neg (mt leavesStraight_iff.1 h)

theorem exec_leaveStandby (hs : s.isRunning = true) (hm : s.dmc.mode = .standby) :
    exec (.leaveStandby cell) s =
      .next (endCell cell .ok [boolWord !s.leavesStraight] (settle (leaveStandbySteps s))) := by
  have h : exec (.leaveStandby cell) s = .next (decideLeaveStandby cell s) := whenRunning_of_running hs _
  rw [h, decideLeaveStandby, admitIf_admitted (by rw [hm]; rfl)]

/-- The end of an order's cell leaves the header's first words. -/
theorem endCell_header (p : s.wlc.placed) {y : Nat} (hy : y + 2 ≤ 0x0022) :
    (endCell cell r detail s).word y = s.word y :=
  (endCell_low (.refl false s) cell r detail).word p hy

/-- A class that is pending stays pending at the end of a cell. -/
theorem endCell_attention {c : Cls} (h : c.isIn s.atc.pending = true) :
    c.isIn (endCell cell r detail s).atc.pending = true := by
  rw [(endCell_orderEnded cell r detail s).raised.pending, h]
  rfl

/-- What a straight way out of STANDBY leaves. -/
theorem enterReady_fresh (hm : s.dmc.mode = .standby) :
    (enterReady s).dmc.fresh = .fresh ∧ (enterReady s).dmc.freshRef = s.clock ∧
    (enterReady s).dmc.variant = none ∧ (enterReady s).dmc.adopted = .neutral ∧
    (enterReady s).dmc.pendingDir = none ∧ (enterReady s).dmc.demand = s.dmc.demand ∧
    (enterReady s).dmc.period = s.dmc.period := by
  have k := (enterReady_entered s).rest
  have hready : s.readyDmc.fresh = .fresh ∧ s.readyDmc.freshRef = s.clock := by
    simp [State.readyDmc, Dmc.startCounting, hm, Mode.counted]
  have hkept : s.readyDmc.demand = s.dmc.demand ∧ s.readyDmc.period = s.dmc.period := by
    simp [State.readyDmc, Dmc.startCounting, hm, Mode.counted]
  generalize enterReady s = v at k
  refine ⟨(congrArg Dmc.fresh k :).trans hready.1, (congrArg Dmc.freshRef k :).trans hready.2,
    (congrArg Dmc.variant k :), (congrArg Dmc.adopted k :), (congrArg Dmc.pendingDir k :),
    (congrArg Dmc.demand k :).trans hkept.1, (congrArg Dmc.period k :).trans hkept.2⟩

theorem enterReady_kept (s : State) : (enterReady s).cfl = s.cfl ∧ (enterReady s).pru = s.pru ∧
    (enterReady s).tqa = s.tqa ∧ (enterReady s).clock = s.clock := by simp

/-- LEAVE_STANDBY with the link kept and the mark clear. -/
theorem leaveStandby_straight (hs : s.isRunning = true) (hd : s.delivered = true) (p : s.wlc.placed)
    (hm : s.dmc.mode = .standby) (h : s.linkKept = true ∧ s.cfl.reEnrol = false) :
    ∃ t, exec (.leaveStandby cell) s = .next t ∧
      t.dmc.mode = (if s.pru.summary = .safeStop then .safeStop else .ready) ∧
      t.word 0x0010 = t.dmc.mode.code ∧ t.dmc.fresh = .fresh ∧ t.dmc.freshRef = s.clock ∧
      t.dmc.variant = none ∧ t.dmc.adopted = .neutral ∧ t.dmc.pendingDir = none ∧
      t.dmc.demand = s.dmc.demand ∧ t.cfl = s.cfl ∧ t.pru = s.pru ∧ t.tqa = s.tqa ∧
      (s.pru.summary ≠ .safeStop → t.dmc.substate = .coast) ∧
      Cls.modeChange.isIn t.atc.pending = true ∧ t.cellEnded cell .ok [0] s.clock := by
  have hexec := exec_leaveStandby (cell := cell) hs hm
  have k := enterReady_entered s
  obtain ⟨h1, h2, h3, h4, h5, h6, -⟩ := enterReady_fresh hm
  obtain ⟨hcfl, hpru, htqa, hclock⟩ := enterReady_kept s
  rw [leaveStandbySteps_straight h, leavesStraight_iff.2 h] at hexec
  generalize enterReady s = v at hexec k h1 h2 h3 h4 h5 h6 hcfl hpru htqa hclock
  rw [settle_of_same_pru hpru hd] at hexec
  have hended := (endCell_orderEnded cell .ok [boolWord !true] v).ended
  rw [hclock] at hended
  refine ⟨_, hexec, ?_⟩
  have hword : (endCell cell .ok [boolWord !true] v).word 0x0010 = v.dmc.mode.code := by
    rw [endCell_header (k.wlc ▸ p) (by omega)]
    exact k.mirror p
  have hraised := endCell_attention (cell := cell) (r := .ok) (detail := [boolWord !true]) k.raised
  have hlight : s.pru.summary ≠ .safeStop → v.dmc.substate = .coast := fun hn => by
    rw [k.light hn]
    rfl
  have hdmc : (endCell cell .ok [boolWord !true] v).dmc = v.dmc := by simp
  have hcfl' : (endCell cell .ok [boolWord !true] v).cfl = v.cfl := by simp
  have hpru' : (endCell cell .ok [boolWord !true] v).pru = v.pru := by simp
  have htqa' : (endCell cell .ok [boolWord !true] v).tqa = v.tqa := by simp
  generalize endCell cell .ok [boolWord !true] v = t at hended hword hraised hdmc hcfl' hpru' htqa'
  rw [hdmc, hcfl', hpru', htqa']
  exact ⟨k.mode, hword, h1, h2, h3, h4, h5, h6, hcfl, hpru, htqa, hlight, hraised, hended⟩

/-- LEAVE_STANDBY in any other case. -/
theorem leaveStandby_enroll (hs : s.isRunning = true)
    (hm : s.dmc.mode = .standby) (h : ¬(s.linkKept = true ∧ s.cfl.reEnrol = false)) :
    ∃ t, exec (.leaveStandby cell) s = .next t ∧ StartingEntered s t ∧ t.tqa = s.tqa ∧
      t.cellEnded cell .ok [1] s.clock := by
  have hexec := exec_leaveStandby (cell := cell) hs hm
  have hno : s.leavesStraight = false := by
    cases hl : s.leavesStraight
    · rfl
    · exact absurd (leavesStraight_iff.1 hl) h
  have k := (standbyToStarting_entered s).settled
  have hkept : (settle (standbyToStarting s)).tqa = s.tqa ∧ (settle (standbyToStarting s)).clock = s.clock := by simp
  rw [leaveStandbySteps_enroll h, hno] at hexec
  generalize settle (standbyToStarting s) = v at hexec k hkept
  have hended := (endCell_orderEnded cell .ok [boolWord !false] v).ended
  rw [hkept.2] at hended
  have hdmc : (endCell cell .ok [boolWord !false] v).dmc = v.dmc := by simp
  have hcfl : (endCell cell .ok [boolWord !false] v).cfl = v.cfl := by simp
  have hwlc : (endCell cell .ok [boolWord !false] v).wlc = v.wlc := by simp
  have htqa : (endCell cell .ok [boolWord !false] v).tqa = v.tqa := by simp
  refine ⟨_, hexec, ⟨hdmc.trans k.dmc, fun p => ?_, hcfl.trans k.cfl, ?_, ?_, fun p => hwlc ▸ k.placed p⟩,
    htqa.trans hkept.1, hended⟩
  · rw [endCell_header (k.placed p) (by omega)]
    exact k.mirror p
  · have r := k.rollCall
    exact ⟨by rw [hwlc]; exact r.roundsOn, by rw [hwlc]; exact r.order, fun hw => by rw [hwlc]; exact r.begun hw,
      fun hw => by rw [hwlc]; exact r.waits hw⟩
  · exact endCell_attention k.raised

/-! ### Demand wake (R74) -/

/-- What step 1 of a demand sample leaves in STANDBY: of the DMC the demand and the last sequence alone are
taken. -/
structure PageRead (s u : State) : Prop where
  cfl : u.cfl = s.cfl
  wlc : u.wlc = s.wlc
  pru : u.pru = s.pru
  dmc : u.dmc = { s.dmc with demand := u.dmc.demand, lastSeq := u.dmc.lastSeq, period := s.cfg.allocPeriod }
  clock : u.clock = s.clock
  taken : s.pageAccepted = true → u.dmc.demand.propel = min s.livePage.propel.toNat 1000 ∧
    u.dmc.demand.retard = min s.livePage.retard.toNat 1000

theorem acceptPage_dmc (base : Nat) (p : Page) (s : State) : (acceptPage base p s).dmc = { s.dmc with
    demand := p.demand s.cfg.lock s.clock, lastSeq := some p.sequence
    freshRef := if s.dmc.mode.counted then s.clock else s.dmc.freshRef } := by
  simp [acceptPage]

theorem takePage_accepted (h : s.pageAccepted = true) :
    takePage s = acceptPage (pageBase (s.word 0x0008)) s.livePage s := if_pos h

theorem takePage_ignored (h : s.pageAccepted = false) : takePage s = s :=
  if_neg (by rw [h]; exact Bool.false_ne_true)

theorem takePage_read (hm : s.dmc.mode.counted = false) : PageRead s (takePage (takeDemandPeriod s)) := by
  cases h : s.pageAccepted with
  | false =>
    rw [takePage_ignored (s := takeDemandPeriod s) h]
    exact ⟨rfl, rfl, rfl, rfl, rfl, fun k => absurd k (by rw [h]; exact Bool.false_ne_true)⟩
  | true =>
    rw [takePage_accepted (s := takeDemandPeriod s) h]
    have hdmc := acceptPage_dmc (pageBase ((takeDemandPeriod s).word 0x0008)) (takeDemandPeriod s).livePage
      (takeDemandPeriod s)
    have hmode : (takeDemandPeriod s).dmc.mode.counted = false := hm
    rw [hmode] at hdmc
    refine ⟨by simp, by simp, by simp, by rw [hdmc]; rfl, by simp, fun _ => ?_⟩
    rw [hdmc]
    exact ⟨rfl, rfl⟩

theorem updateFreshness_uncounted (h : s.dmc.mode.counted = false) : updateFreshness s = s :=
  if_neg (by rw [h]; exact Bool.false_ne_true)

/-- A demand sample in STANDBY. -/
theorem demandSteps_standby (hm : s.dmc.mode = .standby) : demandSteps s =
    putDmcSection (demandStep (directionCheck (modeChecks (wake s.pageAccepted
      (takePage (takeDemandPeriod s)))))) := by
  have k := takePage_read (s := s) (by rw [hm]; rfl)
  have hfresh : updateFreshness (takePage (takeDemandPeriod s)) = takePage (takeDemandPeriod s) :=
    updateFreshness_uncounted (by rw [k.dmc]; rw [hm]; rfl)
  have hacc : (takeDemandPeriod s).pageAccepted = s.pageAccepted := rfl
  simp only [demandSteps, runAll]
  rw [hfresh, hacc]

/-- The condition of a demand wake. -/
theorem wake_wakes (hm : u.dmc.mode = .standby) {b : Bool} (h : u.cfg.demandWake = 1 ∧ b = true ∧
    (0 < u.dmc.demand.propel ∨ 0 < u.dmc.demand.retard)) : wake b u = leaveStandbySteps u :=
  if_pos ⟨hm, h⟩

theorem wake_sleeps {b : Bool} (h : ¬(u.cfg.demandWake = 1 ∧ b = true ∧
    (0 < u.dmc.demand.propel ∨ 0 < u.dmc.demand.retard))) : wake b u = u := if_neg fun k => h k.2

theorem sampleWakes_iff (k : PageRead s u) : (u.cfg.demandWake = 1 ∧ s.pageAccepted = true ∧
      (0 < u.dmc.demand.propel ∨ 0 < u.dmc.demand.retard)) ↔
    s.cfg.demandWake = 1 ∧ s.pageAccepted = true ∧ (s.livePage.propel ≠ 0 ∨ s.livePage.retard ≠ 0) := by
  have hcfg : u.cfg = s.cfg := congrArg Cfl.active k.cfl
  have hword : ∀ w : Word, 0 < min w.toNat 1000 ↔ w ≠ 0 := fun w => by
    rw [Nat.lt_min, ne_eq, BitVec.toNat_eq]
    simp [Nat.pos_iff_ne_zero]
  rw [hcfg]
  refine and_congr Iff.rfl (and_congr_right fun ha => ?_)
  rw [(k.taken ha).1, (k.taken ha).2, hword, hword]

/-- Where the sample does not wake the part, STANDBY goes on. -/
theorem standby_sleeps (hm : u.dmc.mode = .standby) :
    putDmcSection (demandStep (directionCheck (modeChecks u))) = putDmcSection u := by
  have h1 : modeChecks u = u := by rw [modeChecks, hm]
  rw [h1, directionCheck_other (by rw [hm]; decide), demandStep_other (by rw [hm]; rfl)]

theorem starting_sample (hm : u.dmc.mode = .starting) :
    putDmcSection (demandStep (directionCheck (modeChecks u))) = putDmcSection u := by
  have h1 : modeChecks u = u := by rw [modeChecks, hm]
  rw [h1, directionCheck_other (by rw [hm]; decide), demandStep_other (by rw [hm]; rfl)]

theorem enterReady_stopTime (h : s.pru.summary = .safeStop) : (enterReady s).dmc.stopTime = 0 := by
  rw [enterReady_safeStop h]
  exact (enterSafeStop_entered (s := readyReached s) (by rw [readyReached_dmc]; rfl)).settled.2.1

/-- What the rest of a sample leaves of a mode that was just entered. -/
structure SampleWoken (s t : State) : Prop where
  mode : t.dmc.mode = .ready ∨ t.dmc.mode = .drive ∨ t.dmc.mode = .safeStop
  safe : s.dmc.mode = .safeStop → t.dmc.mode = .safeStop
  variant : t.dmc.variant = s.dmc.variant
  fresh : t.dmc.fresh = s.dmc.fresh
  freshRef : t.dmc.freshRef = s.dmc.freshRef
  kept : t.cfl = s.cfl ∧ t.pru = s.pru
  attention : ∀ c : Cls, c.isIn s.atc.pending = true → c.isIn t.atc.pending = true

theorem allocPeriod_le (p : Params) : p.allocPeriod ≤ 10 := by
  unfold Params.allocPeriod
  split <;> omega

/-- The end of a sample over a state in READY, DRIVE or SAFE_STOP that differs by the DMC's record. -/
theorem sampleEnd_woken (hcfl : u.cfl = s.cfl) (hpru : u.pru = s.pru)
    (ha : ∀ c : Cls, c.isIn s.atc.pending = true → c.isIn u.atc.pending = true)
    (hm : u.dmc.mode = .ready ∨ u.dmc.mode = .drive ∨ u.dmc.mode = .safeStop)
    (hs : s.dmc.mode = .safeStop → u.dmc.mode = .safeStop) (hv : u.dmc.variant = s.dmc.variant)
    (hf : u.dmc.fresh = s.dmc.fresh) (hr : u.dmc.freshRef = s.dmc.freshRef) :
    SampleWoken s (putDmcSection (demandStep u)) := by
  have hwork : u.dmc.mode.working = true := by rcases hm with h | h | h <;> rw [h] <;> rfl
  rw [putDmcSection_demandStep hwork]
  have hdmc := sampleEnd_dmc u
  refine ⟨?_, fun h => ?_, ?_, ?_, ?_, ?_, fun c h => sampleEnd_attention (ha c h)⟩
  · rw [hdmc]; exact hm
  · rw [hdmc]; exact hs h
  · rw [hdmc]; exact hv
  · rw [hdmc]; exact hf
  · rw [hdmc]; exact hr
  · simp [hcfl, hpru]

/-- The rest of a sample in READY as it was entered. -/
theorem ready_woken (hm : s.dmc.mode = .ready) (hf : s.dmc.fresh = .fresh) :
    SampleWoken s (putDmcSection (demandStep (directionCheck (modeChecks s)))) := by
  have holds : ∀ o, enterDriveCheck s = s.setDmc { s.dmc with pendingDir := o } →
      SampleWoken s (putDmcSection (demandStep (directionCheck (modeChecks s)))) := fun o h => by
    rw [modeChecks_ready hm, h, directionCheck_other (by simp [hm])]
    exact sampleEnd_woken rfl rfl (fun _ h => h) (.inl hm) (fun h => absurd h (by rw [hm]; decide)) rfl rfl rfl
  by_cases hn : s.dmc.demand.direction = .neutral
  · exact holds _ (enterDriveCheck_neutral hn)
  by_cases hno : s.standstill = false ∨ s.dmc.demand.parkBrake = true
  · exact holds _ (enterDriveCheck_pends hn hno)
  have hstill : s.standstill = true := by
    cases h : s.standstill
    · exact absurd (.inl h) hno
    · rfl
  have hpark : s.dmc.demand.parkBrake = false := by
    cases h : s.dmc.demand.parkBrake
    · rfl
    · exact absurd (.inr h) hno
  have hdmc := driveReached_dmc (d := s.dmc.demand.direction) hm
  have hkept : (driveReached s.dmc.demand.direction s).cfl = s.cfl ∧
      (driveReached s.dmc.demand.direction s).pru = s.pru := by simp [driveReached]
  have hsteady : Steady false s (enterDriveCheck s) := enterDriveCheck_steady (.refl false s)
  have hv : enterDriveCheck s = driveReached s.dmc.demand.direction s := enterDriveCheck_enters hn hstill hpark hf
  rw [modeChecks_ready hm]
  rw [hv] at hsteady ⊢
  generalize driveReached s.dmc.demand.direction s = v at hdmc hkept hsteady
  rw [directionCheck_agreed (by rw [hdmc]) (by rw [hdmc])]
  refine sampleEnd_woken hkept.1 hkept.2 hsteady.attention (.inr (.inl ?_))
    (fun h => absurd h (by rw [hm]; decide)) ?_ ?_ ?_
  · exact (congrArg Dmc.mode hdmc :)
  · exact (congrArg Dmc.variant hdmc :)
  · exact (congrArg Dmc.fresh hdmc :)
  · exact (congrArg Dmc.freshRef hdmc :)

/-- The rest of a sample in SAFE_STOP as it was entered. -/
theorem safeStop_woken (hm : s.dmc.mode = .safeStop) (hstop : s.dmc.stopTime + s.dmc.period < 1000) :
    SampleWoken s (putDmcSection (demandStep (directionCheck (modeChecks s)))) := by
  rw [modeChecks_safeStop hm, countStop_short (.inr hstop), directionCheck_other (by simp [hm])]
  exact sampleEnd_woken rfl rfl (fun _ h => h) (.inr (.inr hm)) (fun _ => hm) rfl rfl rfl

/-- A woken part goes on through READY or SAFE_STOP. -/
theorem wake_straight (hm : u.dmc.mode = .standby) (hper : u.dmc.period ≤ 10) :
    SampleWoken (enterReady u)
      (putDmcSection (demandStep (directionCheck (modeChecks (enterReady u))))) := by
  have k := enterReady_entered u
  obtain ⟨hfresh, -, -, -, -, -, hperiod⟩ := enterReady_fresh hm
  by_cases h : u.pru.summary = .safeStop
  · have hstop := enterReady_stopTime h
    refine safeStop_woken (by rw [k.mode, if_pos h]) ?_
    rw [hstop, hperiod]
    omega
  · exact ready_woken (by rw [k.mode, if_neg h]) hfresh

end

/-- Settles O29. -/
theorem standbyLeft : Obligations.StandbyLeft := by
  unfold Obligations.StandbyLeft
  intro cell s hs hd p hm
  refine ⟨fun h => ?_, fun h => ?_, fun wakes hw => ?_⟩
  · obtain ⟨t, hexec, h1, h2, h3, h4, h5, h6, h7, h8, h9, h10, h11, h12, h13, h14⟩ :=
      leaveStandby_straight (cell := cell) hs hd p hm h
    exact ⟨t, hexec, h1, h2, h3, h4, h5, h6, h7, h8, h9, h10, h11, h12, h13, h14, hostBytesKept _ _ _ p rfl hexec⟩
  · obtain ⟨t, hexec, k, htqa, hended⟩ := leaveStandby_enroll (cell := cell) hs hm h
    exact ⟨t, hexec, k.dmc, k.mirror p, k.cfl, k.rollCall.roundsOn, k.rollCall.order, k.rollCall.begun,
      k.rollCall.waits, htqa, k.raised, hended, hostBytesKept _ _ _ p rfl hexec⟩
  · have hexec : exec .demandSample s = .next (settle (demandSteps s)) :=
      whenRunning_of_running hs fun s => settle (demandSteps s)
    rw [demandSteps_standby hm] at hexec
    have k := takePage_read (s := s) (by rw [hm]; rfl)
    have hiff := sampleWakes_iff k
    generalize takePage (takeDemandPeriod s) = u at hexec k hiff
    have hmode : u.dmc.mode = .standby := (congrArg Dmc.mode k.dmc :).trans hm
    have hstraight : (u.linkKept = true ∧ u.cfl.reEnrol = false) ↔ (s.linkKept = true ∧ s.cfl.reEnrol = false) := by
      have hlink : u.linkKept = s.linkKept := by
        rw [State.linkKept, State.linkKept, (congrArg Dmc.variant k.dmc :)]
      rw [hlink, k.cfl]
    refine ⟨_, hexec, fun hno => ?_, fun hyes h => ?_, fun hyes h => ?_⟩
    · rw [wake_sleeps (mt hiff.1 (mt hw.2 hno)), standby_sleeps hmode,
        settle_of_same_pru (s := s) (by simp [k.pru]) hd]
      simp only [putDmcSection_frame]
      rw [k.dmc]
      exact ⟨hm, rfl, k.cfl, rfl, rfl, k.pru⟩
    · have hper : u.dmc.period ≤ 10 := by
        rw [(congrArg Dmc.period k.dmc :)]
        exact allocPeriod_le _
      have hready := enterReady_entered u
      obtain ⟨hfresh, href, hvariant, -⟩ := enterReady_fresh hmode
      obtain ⟨hcfl, hpru, -⟩ := enterReady_kept u
      have hwoken := wake_straight hmode hper
      rw [wake_wakes hmode (hiff.2 (hw.1 hyes)), leaveStandbySteps_straight (hstraight.2 h)]
      generalize enterReady u = v at hready hfresh href hvariant hcfl hpru hwoken
      have hsame : (putDmcSection (demandStep (directionCheck (modeChecks v)))).pru = s.pru :=
        hwoken.kept.2.trans (hpru.trans k.pru)
      generalize putDmcSection (demandStep (directionCheck (modeChecks v))) = t at hwoken hsame
      rw [settle_of_same_pru hsame hd]
      refine ⟨hwoken.mode, fun hsum => hwoken.safe ?_, hwoken.variant.trans hvariant, hwoken.fresh.trans hfresh,
        (hwoken.freshRef.trans href).trans k.clock, (hwoken.kept.1.trans hcfl).trans k.cfl, hsame,
        hwoken.attention _ hready.raised⟩
      rw [hready.mode, k.pru, if_pos hsum]
    · have hstart := standbyToStarting_entered u
      rw [wake_wakes hmode (hiff.2 (hw.1 hyes)), leaveStandbySteps_enroll (mt hstraight.1 h)]
      generalize standbyToStarting u = v at hstart
      have hv : v.dmc.mode = .starting := (congrArg Dmc.mode hstart.dmc :)
      rw [starting_sample hv]
      have hshown : StartingEntered u (putDmcSection v) := by
        refine ⟨by simpa using hstart.dmc, fun q => ?_, by simpa using hstart.cfl, ?_, ?_, fun q => ?_⟩
        · rw [(putDmcSection_low (.refl false v)).word (hstart.placed q) (by omega)]
          exact hstart.mirror q
        · have r := hstart.rollCall
          exact ⟨by simpa using r.roundsOn, by simpa using r.order, by simpa using r.begun, by simpa using r.waits⟩
        · simpa using hstart.raised
        · simpa using hstart.placed q
      have hend := hshown.settled
      generalize settle (putDmcSection v) = t at hend
      refine ⟨(congrArg Dmc.mode hend.dmc :), (congrArg Dmc.variant hend.dmc :), hend.mirror (k.wlc ▸ p), ?_,
        hend.rollCall.roundsOn, hend.raised⟩
      rw [hend.cfl, k.cfl]

end Sys2Proof.Machine
end

section
/-! STANDBY is entered (R73; O28): the deliveries there, and the lasting orders that end. -/

namespace Sys2Proof.Machine

section
variable {cells : Bool} {a s t u : State} {cell c : BitVec 6} {r : Resource} {result : Result} {detail : List Word}

/-! ### A lasting order that its owner ends -/

theorem LastingEnded.completes (hflight : ∀ q, u.ore.inFlight q = s.ore.inFlight q) (hclock : u.clock = s.clock) :
    LastingEnded r cell result detail s (complete r cell result detail u) := by
  have hheld : s.ore.inFlight r = some cell → u.ore.inFlight r = some cell := fun h => (hflight r).trans h
  refine ⟨fun h => ?_, fun h => ?_, fun h _ _ => ?_⟩
  · rw [complete_of_held (hheld h), State.setOre_ore, inFlight_setFlight, if_pos rfl]
  · rw [(complete_orderEnded (hheld h)).raised.pending]
    simp
  · exact hclock ▸ (complete_orderEnded (hheld h)).ended

theorem complete_flight {q : Resource} {d : BitVec 6} (h : (complete r cell result detail s).ore.inFlight q = some d) :
    s.ore.inFlight q = some d := (complete_low (.refl false s) r cell result detail).flight q d h

/-- What follows the end of a lasting order leaves it, where it spares the order's cell. -/
theorem LastingEnded.followed (h : LastingEnded r cell result detail s t) (hp : s.wlc.placed → t.wlc.placed)
    (hf : ∀ q d, t.ore.inFlight q = some d → s.ore.inFlight q = some d)
    (k : LowKept false (some cell) t u)
    (ha : Cls.orderDone.isIn t.atc.pending = true → Cls.orderDone.isIn u.atc.pending = true) :
    LastingEnded r cell result detail s u where
  free hs := by
    cases hu : u.ore.inFlight r with
    | none => rfl
    | some d => exact absurd (k.flight r d hu) (by rw [h.free hs]; nofun)
  done hs := ha (h.done hs)
  ended hs p hn := (h.ended hs p hn).keep (k.cell cell rfl (hp p) fun q e => by
    have hq := hn q (hf q cell e)
    rw [hq, h.free hs] at e
    cases e)

/-- The end of an order leaves every other cell. -/
theorem endCell_spares (h : LowKept false (some c) a s) (hne : c ≠ cell) :
    LowKept false (some c) a (endCell cell result detail s) := by
  have hcell := cellBase_range cell
  refine h.trans ⟨fun p => by simpa using p, fun _ x h1 h2 => endCell_bytes cell result detail s h2 (.inl ?_),
    fun q d e => by simpa using e, fun d hd _ _ x h1 h2 => ?_⟩
  · have h1' : x < 0x0800 := h1
    omega
  · obtain rfl : c = d := Option.some.inj hd
    have hrange := cellBase_range c
    have hapart := cellBase_apart hne
    exact endCell_bytes cell result detail s (.inr (by omega)) (by omega)

/-! ### What absent observations do to the summary and the sets -/

theorem seeAbsent_stands {p : Params} {clock : Long} {e f : Entry} (h : f ∈ (e.seeAbsent p clock).1)
    (hf : f.stands = true) : e.stands = true ∧ f.action = e.action := by
  unfold Entry.seeAbsent at h
  cases hs : e.state with
  | pending => rw [hs] at h; cases h
  | active =>
    have he : e.stands = true := by rw [Entry.stands, hs]
    rw [hs] at h
    dsimp only at h
    split at h <;> (obtain rfl := Option.some.inj h; exact ⟨he, rfl⟩)
  | latched =>
    rw [hs] at h
    obtain rfl := Option.some.inj h
    exact ⟨by rw [Entry.stands, hs], rfl⟩
  | cleared =>
    rw [hs] at h
    obtain rfl := Option.some.inj h
    simp [Entry.stands] at hf

/-- An entry that stands after an absent observation stood before it, with that action. -/
theorem observeAbsent_stands {p : Params} {clock : Long} {k : Kind} {subject : Subject} {f : Entry} :
    ∀ {es : List Entry}, f ∈ (observeEntries p clock k subject false es).1 → f.stands = true →
      ∃ e ∈ es, e.stands = true ∧ f.action = e.action
  | [], h, _ => by cases h
  | e :: rest, h, hf => by
    unfold observeEntries at h
    by_cases hk : e.kind = k ∧ e.subject = subject
    · rw [if_pos hk] at h
      rcases List.mem_append.1 h with h | h
      · obtain ⟨h1, h2⟩ := seeAbsent_stands (Option.mem_toList.1 h) hf
        exact ⟨e, List.mem_cons_self, h1, h2⟩
      · exact ⟨f, List.mem_cons_of_mem _ h, hf, rfl⟩
    · rw [if_neg hk] at h
      rcases List.mem_cons.1 h with rfl | h
      · exact ⟨f, List.mem_cons_self, hf, rfl⟩
      · obtain ⟨g, hg, h1, h2⟩ := observeAbsent_stands h hf
        exact ⟨g, List.mem_cons_of_mem _ hg, h1, h2⟩

/-- The summary is TRIP when an entry with that action stands (R179). -/
theorem formSummary_trip {es : List Entry} :
    formSummary es = .trip ↔ ∃ e ∈ es, e.stands = true ∧ e.action = .trip := by
  induction es with
  | nil => simp [formSummary]
  | cons e rest ih =>
    have hstep : formSummary (e :: rest) =
        if e.stands then Severity.graver (formSummary rest) e.action.severity else formSummary rest := rfl
    have hgraver : ∀ (v : Severity) (x : Action), v.graver x.severity = .trip ↔ v = .trip ∨ x = .trip := by
      intro v x
      cases v <;> cases x <;> decide
    rw [hstep]
    cases hs : e.stands with
    | false => simp [ih, hs]
    | true => simp [ih, hs, hgraver, or_comm]

theorem seen_excluded {p : Params} {clock : Long} {k : Kind} {subject q : Subject} (hq : subject ≠ q) (present : Bool) :
    ∀ es : List Entry, isExcluded (observeEntries p clock k subject present es).1 q = isExcluded es q
  | [] => by
    have hfresh : (Entry.fresh p clock k subject).subject = subject := by
      unfold Entry.fresh
      dsimp only
      split <;> rfl
    cases present <;> simp [observeEntries, isExcluded, hfresh, hq]
  | e :: rest => by
    have ih := seen_excluded (p := p) (clock := clock) (k := k) hq present rest
    unfold observeEntries
    by_cases hk : e.kind = k ∧ e.subject = subject
    · rw [if_pos hk]
      have he : (e.subject == q) = false := by simpa [hk.2] using hq
      cases present with
      | true =>
        have hs : (e.seePresent clock).1.subject = e.subject := by
          unfold Entry.seePresent
          cases e.state <;> dsimp only <;> (try split) <;> rfl
        simp [isExcluded, hs, he]
      | false =>
        have hs : ∀ f ∈ (e.seeAbsent p clock).1, f.subject = e.subject := fun f hf => by
          unfold Entry.seeAbsent at hf
          cases hst : e.state <;> rw [hst] at hf <;> dsimp only at hf
          · cases hf
          · split at hf <;> (obtain rfl := Option.some.inj hf; rfl)
          · obtain rfl := Option.some.inj hf; rfl
          · obtain rfl := Option.some.inj hf; rfl
        cases ho : (e.seeAbsent p clock).1 with
        | none => simp [isExcluded, ho, he]
        | some f => simp [isExcluded, ho, he, hs f ho]
    · rw [if_neg hk]
      simp only [isExcluded, List.any_cons] at ih ⊢
      rw [ih]

/-! ### The deliveries in STANDBY (R69, R179) -/

/-- The summary as the table gives it, announced where it is another (R179). -/
def summaryTaken (s : State) : State :=
  if s.summaryFormed then s
  else announceSummary (updatePru { s.pru with summary := formSummary s.pru.entries } s)

theorem severityChange_standby (hm : s.dmc.mode = .standby) (h : s.pru.summary ≠ .trip) : severityChange s = s := by
  unfold severityChange
  rw [hm]
  cases hs : s.pru.summary <;> first | rfl | exact absurd hs h

theorem announceSummary_light' (h : s.pru.summary ≠ .trip) :
    announceSummary s = if s.pru.summary = .safeStop then raise .safeStop s else s := by
  unfold announceSummary
  cases hs : s.pru.summary <;> first | rfl | exact absurd hs h

theorem announceSummary_pru (s : State) : (announceSummary s).pru = s.pru := by simp

/-- In STANDBY a summary that does not come to TRIP is announced, and nothing else. -/
theorem settle_standby (hm : s.dmc.mode = .standby) (hsets : s.setsFormed = true)
    (h : formSummary s.pru.entries = s.pru.summary ∨ formSummary s.pru.entries ≠ .trip) :
    settle s = summaryTaken s := by
  by_cases hsum : s.summaryFormed = true
  · rw [summaryTaken, if_pos hsum, settle_of_delivered]
    rw [State.delivered, hsets, hsum]
    rfl
  · have hne : formSummary s.pru.entries ≠ s.pru.summary := fun he => hsum (by simp [State.summaryFormed, he])
    have hlight := h.resolve_left hne
    have hp := updatePru_pru { s.pru with summary := formSummary s.pru.entries } s
    have hd : (updatePru { s.pru with summary := formSummary s.pru.entries } s).dmc.mode = .standby := by simpa using hm
    have hdel : deliver s = summaryTaken s := by
      rw [summaryTaken, if_neg hsum]
      unfold deliver deliverSummary
      rw [if_pos hsets, if_neg hsum]
      generalize updatePru { s.pru with summary := formSummary s.pru.entries } s = u at hp hd
      exact severityChange_standby (by simpa using hd) (by rw [announceSummary_pru, hp]; exact hlight)
    have hpru : (summaryTaken s).pru = { s.pru with summary := formSummary s.pru.entries } := by
      rw [summaryTaken, if_neg hsum, announceSummary_pru, hp]
    have hformed : (summaryTaken s).delivered = true := by
      have hsets' := hsets
      unfold State.delivered State.setsFormed State.summaryFormed at *
      rw [hpru, Bool.and_eq_true_iff]
      exact ⟨hsets', by simp⟩
    show settleBy 16 s = _
    unfold settleBy
    rw [if_neg (by simp [hsum]), hdel]
    unfold settleBy
    exact if_pos hformed

theorem summaryTaken_rest (h : formSummary s.pru.entries = s.pru.summary ∨ formSummary s.pru.entries ≠ .trip) :
    { summaryTaken s with pru := s.pru, atc := s.atc, xm := s.xm } = s := by
  unfold summaryTaken
  split
  · rfl
  case isFalse hsum =>
    have hne : formSummary s.pru.entries ≠ s.pru.summary := fun he => hsum (by simp [State.summaryFormed, he])
    have hp := updatePru_pru { s.pru with summary := formSummary s.pru.entries } s
    rw [announceSummary_light' (by rw [hp]; exact h.resolve_left hne)]
    split <;> (apply State.eq_of_fields <;> simp)

theorem summaryTaken_low (h : LowKept cells (some c) a s)
    (hs : formSummary s.pru.entries = s.pru.summary ∨ formSummary s.pru.entries ≠ .trip) :
    LowKept cells (some c) a (summaryTaken s) := by
  unfold summaryTaken
  split
  · exact h
  case isFalse hsum =>
    have hne : formSummary s.pru.entries ≠ s.pru.summary := fun he => hsum (by simp [State.summaryFormed, he])
    have hp := updatePru_pru { s.pru with summary := formSummary s.pru.entries } s
    have k := updatePru_low h { s.pru with summary := formSummary s.pru.entries }
    rw [announceSummary_light' (by rw [hp]; exact hs.resolve_left hne)]
    split
    · exact raise_low k _
    · exact k

/-! ### The change to STANDBY (R73, R75) -/

/-- The DMC's part of an entry into STANDBY. -/
def standbyDmc (v : Variant) (d : Dmc) : Dmc := { d.atRest with variant := some v, fresh := .notCounted }

/-- The change to STANDBY as it reaches the STC. -/
def standbyAnnounced (v : Variant) (s : State) : State := rgcModeChange (modeAnnounced .standby (standbyDmc v) s)

/-- The change to STANDBY as it reaches the WLC. -/
def standbyAtStc (v : Variant) (s : State) : State := stcModeChange (standbyAnnounced v s)

/-- STANDBY, before the conditions of freshness are observed. -/
def standbyReached (v : Variant) (s : State) : State := changeMode .standby (standbyDmc v) s

theorem standbyReached_eq (v : Variant) (s : State) : standbyReached v s = wlcModeChange (standbyAtStc v s) := by
  rw [standbyReached, changeMode_eq, standbyAtStc, standbyAnnounced]

/-- The record of the DMC in STANDBY. -/
def State.atStandby (s : State) (v : Variant) : Dmc := { s.dmc with
  mode := .standby, substate := .none, target := .none, adopted := .neutral, pendingDir := none, variant := some v
  fresh := .notCounted, lastChange := s.clock }

theorem standbyReached_dmc (v : Variant) (s : State) : (standbyReached v s).dmc = s.atStandby v := by
  rw [standbyReached, changeMode_dmc]
  simp [State.movedDmc, Dmc.startCounting, Mode.counted, standbyDmc, Dmc.atRest, State.atStandby]

/-- The variant keeps the link. -/
def Variant.links (v : Variant) : Bool :=
  match v with
  | .link | .full => true
  | .dark | .cool => false

/-- What the STC is told of: the mode, and a state whose lasting orders are as before. -/
structure StandbyTold (v : Variant) (s t : State) : Prop where
  dmc : t.dmc = s.atStandby v
  wlc : t.wlc = s.wlc
  ore : t.ore = s.ore
  clock : t.clock = s.clock
  stc : { t.stc with beta := s.stc.beta } = s.stc
  raised : Cls.modeChange.isIn t.atc.pending = true

theorem modeAnnounced_stc (m : Mode) (f : Dmc → Dmc) (s : State) :
    { (modeAnnounced m f s).stc with beta := s.stc.beta } = s.stc := by
  have hshown : (modeShown m f s).stc = s.stc := by simp [modeShown]
  unfold modeAnnounced
  split
  · rw [hshown]
  · have h := announceSubstate_stc (modeShown m f s)
    rw [hshown] at h
    exact h

theorem standbyAnnounced_told (v : Variant) (s : State) : StandbyTold v s (standbyAnnounced v s) := by
  have hdmc : (modeAnnounced .standby (standbyDmc v) s).dmc = s.atStandby v := by
    rw [modeAnnounced_dmc]
    simp [State.movedDmc, Dmc.startCounting, Mode.counted, standbyDmc, Dmc.atRest, State.atStandby]
  have hkept : (modeAnnounced .standby (standbyDmc v) s).wlc = s.wlc ∧
      (modeAnnounced .standby (standbyDmc v) s).ore = s.ore := by
    unfold modeAnnounced
    split <;> simp [modeShown]
  have hclock := modeAnnounced_clock (m := .standby) (f := standbyDmc v) (s := s)
  have hstc := modeAnnounced_stc .standby (standbyDmc v) s
  have hraised : Cls.modeChange.isIn (modeAnnounced .standby (standbyDmc v) s).atc.pending = true :=
    (modeAnnounced_steady .standby (standbyDmc v) s).attention _ modeShown_raised
  unfold standbyAnnounced
  generalize modeAnnounced .standby (standbyDmc v) s = u at hdmc hkept hclock hstc hraised
  have hmode : u.dmc.mode = .standby := (congrArg Dmc.mode hdmc :)
  refine ⟨by simpa using hdmc, by simpa using hkept.1, ?_, by simpa using hclock, by simpa using hstc,
    (rgcModeChange_steady (.refl false u)).attention _ hraised⟩
  have hidle : abortTestIf (!((startDischarge u).dmc.mode == .ready || (startDischarge u).dmc.mode == .standby))
      (startDischarge u) = startDischarge u := by
    have h : (startDischarge u).dmc.mode = .standby := hmode
    rw [h]
    exact abortTestIf_false _
  have hore : (rgcModeChange u).ore = u.ore := by
    rw [rgcModeChange_eq, causesReady]
    have e : (startDischarge u).dmc = u.dmc := rfl
    rw [e] at hidle
    rw [hidle]
    simp [startDischarge]
  exact hore.trans hkept.2

/-- The calibration at the change to STANDBY: it goes on with the link, and ends ABORTED without it (R158). -/
structure CalibrationLeft (v : Variant) (s t : State) : Prop where
  linked : v.links = true → t.stc.cal = s.stc.cal ∧ t.stc.calResult = s.stc.calResult ∧ t.ore = s.ore
  ended : v.links = false → t.stc.cal = .none ∧
    t.stc.calResult = (if s.stc.cal = .none then s.stc.calResult else .aborted) ∧
    t.ore.grid = s.ore.grid ∧ t.ore.enroll = s.ore.enroll ∧
    (s.stc.cal ≠ .none → LastingEnded .steer s.stc.calCell .aborted (s.calibrationDetail s.wlc.sau) s t)

theorem StandbyTold.linkKept {v : Variant} (h : StandbyTold v s t) : t.linkKept = v.links := by
  rw [State.linkKept, h.dmc]
  cases v <;> rfl

theorem calibrationDetail_eq (hstc : { t.stc with beta := s.stc.beta } = s.stc) (hwlc : t.wlc = s.wlc)
    (hclock : t.clock = s.clock) : t.calDetail 0 t.heldSteer = s.calibrationDetail s.wlc.sau := by
  have hstart : t.stc.calStart = s.stc.calStart := (congrArg Stc.calStart hstc :)
  rw [heldDetail_eq, hwlc, hclock, hstart]
  rfl

theorem endCalibrationIf_acts {b : Bool} {shown : CalResult} (hb : b = true) (h : s.stc.cal ≠ .none) :
    endCalibrationIf b result shown s =
      complete .steer s.stc.calCell result (s.calDetail 0 s.heldSteer) (stopCalibration shown s) := by
  rw [endCalibrationIf, if_pos (by simpa [hb] using h)]
  rfl

theorem endCalibrationIf_idle {b : Bool} {shown : CalResult} (h : s.stc.cal = .none) :
    endCalibrationIf b result shown s = s := by
  rw [endCalibrationIf, if_neg (by simp [h])]

theorem complete_stc (s : State) : (complete r cell result detail s).stc = s.stc := by simp

theorem complete_flight_other {q : Resource} (h : q ≠ r) :
    (complete r cell result detail s).ore.inFlight q = s.ore.inFlight q := by
  by_cases hheld : s.ore.inFlight r = some cell
  · rw [complete_of_held hheld, State.setOre_ore, inFlight_setFlight, if_neg h]
  · rw [complete_dropped hheld]

/-- A section that the STC shows leaves the end of a lasting order. -/
theorem LastingEnded.sectionPut (h : LastingEnded r cell result detail s t) (hp : s.wlc.placed → t.wlc.placed)
    (hf : ∀ q d, t.ore.inFlight q = some d → s.ore.inFlight q = some d) :
    LastingEnded r cell result detail s (putStcSection t) :=
  h.followed hp hf (putStcSection_low (.self _ _ t)) fun hd => by simpa using hd

theorem StandbyTold.left {v : Variant} (k : StandbyTold v s u) :
    CalibrationLeft v s (putStcSection (endCalibrationIf (!v.links) .aborted .aborted u)) := by
  have hdetail := calibrationDetail_eq k.stc k.wlc k.clock
  obtain ⟨hdmc, hwlc, hore, hclock, hstc, -⟩ := k
  have hcal : u.stc.cal = s.stc.cal := (congrArg Stc.cal hstc :)
  have hresult : u.stc.calResult = s.stc.calResult := (congrArg Stc.calResult hstc :)
  have hcell : u.stc.calCell = s.stc.calCell := (congrArg Stc.calCell hstc :)
  refine ⟨fun hv => ?_, fun hv => ?_⟩
  · rw [hv, Bool.not_true, endCalibrationIf_false]
    simp [hcal, hresult, hore]
  · by_cases hnone : s.stc.cal = .none
    · rw [endCalibrationIf_idle (hcal.trans hnone)]
      refine ⟨by simpa using hcal.trans hnone, by simpa [hnone] using hresult, by simp [hore], by simp [hore],
        fun h => absurd hnone h⟩
    · rw [endCalibrationIf_acts (by rw [hv]; rfl) (by rw [hcal]; exact hnone), hdetail, hcell, if_neg hnone]
      have hended : LastingEnded .steer s.stc.calCell .aborted (s.calibrationDetail s.wlc.sau) s
          (complete .steer s.stc.calCell .aborted (s.calibrationDetail s.wlc.sau) (stopCalibration .aborted u)) :=
        .completes (fun q => congrArg (fun o : Ore => o.inFlight q) hore) hclock
      have hgrid := complete_flight_other (s := stopCalibration .aborted u) (r := .steer) (q := .grid)
        (cell := s.stc.calCell) (result := .aborted) (detail := s.calibrationDetail s.wlc.sau) (by decide)
      have henroll := complete_flight_other (s := stopCalibration .aborted u) (r := .steer) (q := .enroll)
        (cell := s.stc.calCell) (result := .aborted) (detail := s.calibrationDetail s.wlc.sau) (by decide)
      have hstc := complete_stc (r := .steer) (cell := s.stc.calCell) (result := .aborted)
        (detail := s.calibrationDetail s.wlc.sau) (stopCalibration .aborted u)
      have hplaced : s.wlc.placed → (complete .steer s.stc.calCell .aborted (s.calibrationDetail s.wlc.sau)
          (stopCalibration .aborted u)).wlc.placed := fun p => by
        have : (complete .steer s.stc.calCell .aborted (s.calibrationDetail s.wlc.sau)
          (stopCalibration .aborted u)).wlc = s.wlc := by simp [stopCalibration, hwlc]
        rwa [this]
      have hflight : ∀ q d, (complete .steer s.stc.calCell .aborted (s.calibrationDetail s.wlc.sau)
          (stopCalibration .aborted u)).ore.inFlight q = some d → s.ore.inFlight q = some d := fun q d h => by
        have e : (stopCalibration .aborted u).ore.inFlight q = s.ore.inFlight q :=
          congrArg (fun o : Ore => o.inFlight q) hore
        exact e ▸ complete_flight h
      have hgrid0 : (stopCalibration .aborted u).ore.inFlight .grid = s.ore.grid :=
        congrArg (fun o : Ore => o.inFlight .grid) hore
      have henroll0 : (stopCalibration .aborted u).ore.inFlight .enroll = s.ore.enroll :=
        congrArg (fun o : Ore => o.inFlight .enroll) hore
      generalize complete .steer s.stc.calCell .aborted (s.calibrationDetail s.wlc.sau)
        (stopCalibration .aborted u) = w at hended hgrid henroll hstc hplaced hflight
      refine ⟨?_, ?_, ?_, ?_, fun _ => hended.sectionPut hplaced hflight⟩
      · rw [(putStcSection_frame w).2.2.2.2.2.2.2.2.2.2.2.2.2.1, hstc]
        rfl
      · rw [(putStcSection_frame w).2.2.2.2.2.2.2.2.2.2.2.2.2.1, hstc]
        rfl
      · rw [(putStcSection_frame w).2.2.2.2.2.2.1]
        exact hgrid.trans hgrid0
      · rw [(putStcSection_frame w).2.2.2.2.2.2.1]
        exact henroll.trans henroll0

/-- The STC at the change to STANDBY. -/
theorem standbyAtStc_left (v : Variant) (s : State) : CalibrationLeft v s (standbyAtStc v s) := by
  have k := standbyAnnounced_told v s
  have hmode : (standbyAnnounced v s).dmc.mode = .standby := (congrArg Dmc.mode k.dmc :)
  have hallowed : (!(Mode.standby == Mode.ready || (Mode.standby == Mode.standby && v.links))) = !v.links := by
    cases v.links <;> rfl
  have hstep : standbyAtStc v s =
      putStcSection (endCalibrationIf (!v.links) .aborted .aborted (standbyAnnounced v s)) := by
    simp only [standbyAtStc, stcModeChange, runAll]
    rw [hmode, k.linkKept, hallowed]
  rw [hstep]
  exact k.left

/-! ### The WLC at the change to STANDBY (R53 to R55) -/

/-- Rounds are stopped. -/
def State.roundsStopped (s : State) : State := s.setWlc { s.wlc with roundsOn := false, roundDue := false }

theorem wlcModeChange_unlinked (hm : s.dmc.mode = .standby) (hl : s.linkKept = false) :
    wlcModeChange s = endRound (abortRollCall s.roundsStopped) := if_pos ⟨hm, hl⟩

theorem wlcModeChange_linked (hl : s.linkKept = true) : wlcModeChange s = s :=
  if_neg fun k => by rw [hl] at k; cases k.2

theorem endRound_low (h : LowKept cells (some c) a s) : LowKept cells (some c) a (endRound s) :=
  h.of_xm (by simp) fun p => (endRound_keeps (.refl false _)).placed p

/-- The detail of a roll call's end names its targets (R54). -/
theorem orderDetail_eq (o : EnrollOrder) : o.detail = targetDetail o.found o.notFound := rfl

theorem abortRollCall_ended {o : EnrollOrder} (ho : s.wlc.order = some o) :
    abortRollCall s = complete .enroll o.cell .aborted o.detail (endOrder s) := by
  rw [abortRollCall, ho]

/-- What the WLC makes of STANDBY without the link. -/
structure RollCallLeft (s t : State) : Prop where
  roundsOn : t.wlc.roundsOn = false
  order : t.wlc.order = none
  grid : t.ore.grid = s.ore.grid
  flight : ∀ q d, t.ore.inFlight q = some d → s.ore.inFlight q = some d
  placed : s.wlc.placed → t.wlc.placed
  ended : ∀ o : EnrollOrder, s.wlc.order = some o →
    LastingEnded .enroll o.cell .aborted (targetDetail o.found o.notFound) s t
  spares : ∀ d, LowKept false (some d) s t

theorem roundsStopped_left (s : State) : RollCallLeft s (endRound (abortRollCall s.roundsStopped)) := by
  have hspares : ∀ d, LowKept false (some d) s (abortRollCall s.roundsStopped) := fun d =>
    abortRollCall_low ((LowKept.self false (some d) s).of_xm rfl id rfl)
  have hended : ∀ o : EnrollOrder, s.wlc.order = some o → LastingEnded .enroll o.cell .aborted
      (targetDetail o.found o.notFound) s (abortRollCall s.roundsStopped) := fun o ho => by
    rw [abortRollCall_ended (s := s.roundsStopped) ho, orderDetail_eq]
    exact .completes (fun _ => rfl) rfl
  have horder : (abortRollCall s.roundsStopped).wlc.order = none := abortRollCall_order _
  have hgrid : (abortRollCall s.roundsStopped).ore.grid = s.ore.grid := by
    cases ho : s.wlc.order with
    | none => rw [abortRollCall, show s.roundsStopped.wlc.order = none from ho]; rfl
    | some o =>
      rw [abortRollCall_ended (s := s.roundsStopped) ho]
      exact complete_flight_other (q := .grid) (r := .enroll) (by decide)
  have hon : (abortRollCall s.roundsStopped).wlc.roundsOn = false := by
    rw [abortRollCall_wlc]
    split <;> rfl
  generalize abortRollCall s.roundsStopped = u at hspares hended horder hgrid hon
  obtain ⟨b, hwlc⟩ := endRound_wlc u
  have hplaced : s.wlc.placed → u.wlc.placed := (hspares 0).placed
  have hround : ∀ d, LowKept false (some d) u (endRound u) := fun d => endRound_low (.self _ _ u)
  have hattention : ∀ k : Cls, k.isIn u.atc.pending = true → k.isIn (endRound u).atc.pending = true := fun k h => by
    simpa using h
  have hore : (endRound u).ore = u.ore := by simp
  generalize endRound u = t at hwlc hround hattention hore
  exact ⟨by rw [hwlc]; exact hon, by rw [hwlc]; exact horder, by rw [hore]; exact hgrid,
    fun q d h => (hspares 0).flight q d ((hround 0).flight q d h), fun p => (hround 0).placed (hplaced p),
    fun o ho => (hended o ho).followed hplaced ((hspares 0).flight) (hround o.cell) (hattention _),
    fun d => (hspares d).trans (hround d)⟩

/-! ### STANDBY as it is entered -/

/-- What an entry into STANDBY leaves (R73). -/
structure StandbyIn (v : Variant) (s t : State) : Prop where
  dmc : t.dmc = s.atStandby v
  mirror : s.wlc.placed → t.word 0x0010 = 1
  tripOut : t.tripOut = false
  raised : Cls.modeChange.isIn t.atc.pending = true
  roundsOn : t.wlc.roundsOn = (v.links && s.wlc.roundsOn)
  grid : t.ore.grid = s.ore.grid
  placed : s.wlc.placed → t.wlc.placed
  linked : v.links = true → t.stc.cal = s.stc.cal ∧ t.stc.calResult = s.stc.calResult ∧
    t.wlc.order = s.wlc.order ∧ t.ore = s.ore
  calibration : v.links = false → t.stc.cal = .none ∧ t.wlc.order = none ∧
    t.stc.calResult = (if s.stc.cal = .none then s.stc.calResult else .aborted)
  flight : ∀ q d, t.ore.inFlight q = some d → s.ore.inFlight q = some d
  steer : v.links = false → s.stc.cal ≠ .none →
    LastingEnded .steer s.stc.calCell .aborted (s.calibrationDetail s.wlc.sau) s t
  enroll : v.links = false → ∀ o : EnrollOrder, s.wlc.order = some o →
    LastingEnded .enroll o.cell .aborted (targetDetail o.found o.notFound) s t

/-- STANDBY is entered, and what is done after it leaves the DMC, the records and the lasting orders. -/
theorem StandbyIn.followed {v : Variant} (h : StandbyIn v s t) (k : ∀ d, LowKept false (some d) t u)
    (hdmc : u.dmc = t.dmc) (hwlc : u.wlc = t.wlc) (hore : u.ore = t.ore) (hstc : u.stc = t.stc)
    (htrip : u.tripOut = t.tripOut)
    (ha : ∀ c : Cls, c.isIn t.atc.pending = true → c.isIn u.atc.pending = true) : StandbyIn v s u where
  dmc := hdmc.trans h.dmc
  mirror p := ((k 0).word (h.placed p) (by omega)).trans (h.mirror p)
  tripOut := htrip.trans h.tripOut
  raised := ha _ h.raised
  roundsOn := by rw [hwlc]; exact h.roundsOn
  grid := by rw [hore]; exact h.grid
  placed p := (k 0).placed (h.placed p)
  linked hv := by rw [hstc, hwlc, hore]; exact h.linked hv
  calibration hv := by rw [hstc, hwlc]; exact h.calibration hv
  flight q d hq := h.flight q d (hore ▸ hq)
  steer hv hcal := (h.steer hv hcal).followed h.placed h.flight (k _) (ha _)
  enroll hv o ho := (h.enroll hv o ho).followed h.placed h.flight (k _) (ha _)

theorem standbyReached_mirror {v : Variant} (p : s.wlc.placed) : (standbyReached v s).word 0x0010 = 1 := by
  rw [standbyReached, changeMode_mirror p]
  rfl

theorem standbyReached_tripOut (v : Variant) (s : State) : (standbyReached v s).tripOut = false := by
  rw [standbyReached, changeMode_tripOut]
  rfl

theorem standbyAtStc_kept (v : Variant) (s : State) : (standbyAtStc v s).dmc = s.atStandby v ∧
    (standbyAtStc v s).wlc = s.wlc := by
  have k := standbyAnnounced_told v s
  unfold standbyAtStc
  generalize standbyAnnounced v s = u at k
  exact ⟨by simpa using k.dmc, by simpa using k.wlc⟩

theorem standbyReached_raised (v : Variant) (s : State) :
    Cls.modeChange.isIn (standbyReached v s).atc.pending = true := by
  rw [standbyReached]
  exact changeMode_raised

theorem LastingEnded.transfer (h : LastingEnded r cell result detail t u)
    (hflight : s.ore.inFlight r = t.ore.inFlight r)
    (hn : (∀ q, s.ore.inFlight q = some cell → q = r) → ∀ q, t.ore.inFlight q = some cell → q = r)
    (hp : s.wlc.placed → t.wlc.placed) (hclock : t.clock = s.clock) : LastingEnded r cell result detail s u :=
  ⟨fun e => h.free (hflight ▸ e), fun e => h.done (hflight ▸ e),
    fun e p k => hclock ▸ h.ended (hflight ▸ e) (hp p) (hn k)⟩

theorem standbyReached_in (v : Variant) (s : State) : StandbyIn v s (standbyReached v s) := by
  have hstc := standbyAtStc_left v s
  obtain ⟨hdmc, hwlc⟩ := standbyAtStc_kept v s
  have hclock : (standbyAtStc v s).clock = s.clock := by
    simp [standbyAtStc, standbyAnnounced, modeAnnounced_clock]
  have hflight : ∀ q d, (standbyAtStc v s).ore.inFlight q = some d → s.ore.inFlight q = some d := by
    intro q d h
    have k := standbyAnnounced_told v s
    have hlow := stcModeChange_low (.refl false (standbyAnnounced v s)) nofun
    have e := hlow.flight q d h
    rwa [k.ore] at e
  have hmirror := standbyReached_mirror (v := v) (s := s)
  have htrip := standbyReached_tripOut v s
  have hraised := standbyReached_raised v s
  have hreached := standbyReached_dmc v s
  rw [standbyReached_eq] at *
  generalize standbyAtStc v s = u at *
  have hlink : u.linkKept = v.links := by
    rw [State.linkKept, hdmc]
    cases v <;> rfl
  cases hv : v.links with
  | true =>
    have h := hstc.linked hv
    rw [wlcModeChange_linked (hlink.trans hv)] at *
    exact ⟨hdmc, hmirror, htrip, hraised, by rw [hwlc, hv]; rfl, by rw [h.2.2], fun p => hwlc ▸ p,
      fun _ => ⟨h.1, h.2.1, by rw [hwlc], h.2.2⟩, fun k => absurd hv (by rw [k]; decide), hflight,
      fun k => absurd hv (by rw [k]; decide), fun k => absurd hv (by rw [k]; decide)⟩
  | false =>
    obtain ⟨hcal, hresult, hgrid, henroll, hsteer⟩ := hstc.ended hv
    rw [wlcModeChange_unlinked (congrArg Dmc.mode hdmc :) (hlink.trans hv)] at *
    have hleft := roundsStopped_left u
    have hkept : (endRound (abortRollCall u.roundsStopped)).stc = u.stc := by simp [State.roundsStopped]
    have hattention : ∀ k : Cls, k.isIn u.atc.pending = true →
        k.isIn (endRound (abortRollCall u.roundsStopped)).atc.pending = true := fun k h => by
      have hst : Steady false u u.roundsStopped := setWlc_steady_same (.refl false u) rfl rfl rfl rfl
      exact (endRound_steady (abortRollCall_steady hst)).attention k h
    generalize endRound (abortRollCall u.roundsStopped) = t at *
    have hp : s.wlc.placed → u.wlc.placed := fun p => hwlc ▸ p
    refine ⟨hreached, hmirror, htrip, hraised, by rw [hleft.roundsOn, hv]; rfl, hleft.grid.trans hgrid,
      fun p => hleft.placed (hp p), fun k => absurd hv (by rw [k]; decide),
      fun _ => ⟨by rw [hkept, hcal], hleft.order, by rw [hkept, hresult]⟩, fun q d h => hflight q d (hleft.flight q d h),
      fun _ hc => (hsteer hc).followed hp hflight (hleft.spares _) (hattention _), fun _ o ho => ?_⟩
    refine (hleft.ended o (by rw [hwlc]; exact ho)).transfer henroll.symm
      (fun k q e => k q (hflight q _ e)) hp hclock

end
end Sys2Proof.Machine
end

section
/-! ENTER_STANDBY, assembled (O28). -/

namespace Sys2Proof.Machine

section
variable {s t u : State} {v : Variant} {cell : BitVec 6} {keepLink keepBlower : Word}

/-- STANDBY with both conditions of freshness observed absent (R60). -/
def standbyObserved (v : Variant) (s : State) : State :=
  note .demandLost .global false (note .demandStale .global false (standbyReached v s))

theorem enterStandbySteps_eq (v : Variant) (s : State) : enterStandbySteps v s = standbyObserved v s := by
  simp only [enterStandbySteps, standbyObserved, standbyReached]
  rfl

theorem standbyReached_pru (v : Variant) (s : State) : (standbyReached v s).pru = s.pru := by simp [standbyReached]

theorem standbyObserved_in (v : Variant) (s : State) : StandbyIn v s (standbyObserved v s) := by
  have k := standbyReached_in v s
  unfold standbyObserved
  generalize standbyReached v s = u at k
  refine k.followed (fun d => note_low (note_low (.self _ _ u) _ _ _) _ _ _) (by simp) (by simp) (by simp) (by simp)
    (by simp) (note_steady_page (note_steady_page (.refl false u) _ _ _) _ _ _).attention

/-- The two conditions stand observed absent. -/
theorem standbyObserved_observed (hok : s.pru.ok) :
    (standbyObserved v s).pru.observed .demandStale .global false ∧
      (standbyObserved v s).pru.observed .demandLost .global false := by
  have hok' : (standbyReached v s).pru.ok := by rwa [standbyReached_pru]
  unfold standbyObserved
  generalize standbyReached v s = u at hok'
  exact ⟨note_observed_other (by decide) (note_observed hok' _ _ _),
    note_observed (note_ok hok' _ _ _) _ _ _⟩

/-- An absent observation of a global subject leaves the sets formed, and brings no TRIP. -/
theorem noteAbsent_calm {k : Kind} (hsets : s.setsFormed = true)
    (hsum : formSummary s.pru.entries = s.pru.summary ∨ formSummary s.pru.entries ≠ .trip) :
    (note k .global false s).setsFormed = true ∧
      (formSummary (note k .global false s).pru.entries = (note k .global false s).pru.summary ∨
        formSummary (note k .global false s).pru.entries ≠ .trip) := by
  rw [State.setsFormed, note_pru]
  have hw : ∀ q, Subject.global ≠ q → isExcluded (observeEntries s.cfg s.clock k .global false s.pru.entries).1 q =
      isExcluded s.pru.entries q := fun q hq => seen_excluded hq false _
  constructor
  · have h1 : formWheelEx (observeEntries s.cfg s.clock k .global false s.pru.entries).1 =
        formWheelEx s.pru.entries := by
      unfold formWheelEx
      congr 1
      funext w
      exact hw (.wheel w) nofun
    have h2 : formBankEx (observeEntries s.cfg s.clock k .global false s.pru.entries).1 =
        formBankEx s.pru.entries := by
      unfold formBankEx
      congr 1
      funext b
      exact hw (.bank b) nofun
    rw [h1, h2]
    exact hsets
  · by_cases htrip : formSummary (observeEntries s.cfg s.clock k .global false s.pru.entries).1 = .trip
    · obtain ⟨e, he, hs, ha⟩ := formSummary_trip.1 htrip
      obtain ⟨f, hf, hfs, hfa⟩ := observeAbsent_stands he hs
      have hold : formSummary s.pru.entries = .trip := formSummary_trip.2 ⟨f, hf, hfs, hfa ▸ ha⟩
      rcases hsum with h | h
      · exact .inl (htrip.trans (hold.symm.trans h))
      · exact absurd hold h
    · exact .inr htrip

/-- The entry into STANDBY with its deliveries. -/
theorem standbySettled_in (hd : s.delivered = true) : StandbyIn v s (settle (standbyObserved v s)) ∧
    (settle (standbyObserved v s)).cfl = s.cfl := by
  have k := standbyObserved_in v s
  have hpru := standbyReached_pru v s
  have hcfl : (standbyObserved v s).cfl = s.cfl := by simp [standbyObserved, standbyReached]
  obtain ⟨hsets, hsum⟩ := Bool.and_eq_true_iff.1 hd
  have hcalm : (standbyObserved v s).setsFormed = true ∧
      (formSummary (standbyObserved v s).pru.entries = (standbyObserved v s).pru.summary ∨
        formSummary (standbyObserved v s).pru.entries ≠ .trip) := by
    unfold standbyObserved
    generalize standbyReached v s = w at hpru
    have hw : w.setsFormed = true := by
      rw [State.setsFormed, hpru]
      exact hsets
    have he : formSummary w.pru.entries = w.pru.summary := by
      rw [hpru]
      exact (by simpa [State.summaryFormed] using hsum : s.pru.summary = formSummary s.pru.entries).symm
    obtain ⟨h1, h2⟩ := noteAbsent_calm (k := .demandStale) hw (.inl he)
    exact noteAbsent_calm h1 h2
  generalize standbyObserved v s = w at k hcalm hcfl
  have hmode : w.dmc.mode = .standby := (congrArg Dmc.mode k.dmc :)
  have hsettle := settle_standby hmode hcalm.1 hcalm.2
  have hrest := summaryTaken_rest hcalm.2
  have hlow := fun d => summaryTaken_low (LowKept.self false (some d) w) hcalm.2
  have ha := (settle_steady (.refl false w)).attention
  rw [hsettle] at ha ⊢
  generalize summaryTaken w = x at hrest hlow ha
  exact ⟨k.followed hlow (congrArg State.dmc hrest :) (congrArg State.wlc hrest :) (congrArg State.ore hrest :)
    (congrArg State.stc hrest :) (congrArg State.tripOut hrest :) ha, (congrArg State.cfl hrest :).trans hcfl⟩

theorem exec_enterStandby (hs : s.isRunning = true) (hm : s.dmc.mode = .ready) (hstill : s.standstill = true)
    (hv : v = variantOf keepLink keepBlower) : exec (.enterStandby cell keepLink keepBlower) s =
      .next (endCell cell .ok [v.code] (settle (standbyObserved v s))) := by
  have h : exec (.enterStandby cell keepLink keepBlower) s = .next (decideEnterStandby cell keepLink keepBlower s) :=
    whenRunning_of_running hs _
  subst hv
  rw [h, decideEnterStandby, admitIf_admitted (by rw [State.readyStill, hm, hstill]; rfl)]
  rw [enterStandbySteps_eq]

theorem variantOf_links : (variantOf keepLink keepBlower).links = (keepLink != 0) := by
  unfold variantOf
  by_cases h : keepLink = 0
  · rw [if_pos h, h]
    split <;> rfl
  · rw [if_neg h, bne_iff_ne.2 h]
    split <;> rfl

/-- The end of an order after a lasting order of another cell. -/
theorem LastingEnded.endCell {r : Resource} {c : BitVec 6} {x y : Result} {d e : List Word}
    (h : LastingEnded r c x d s t) (hp : s.wlc.placed → t.wlc.placed)
    (hf : ∀ q d, t.ore.inFlight q = some d → s.ore.inFlight q = some d) (hne : c ≠ cell) :
    LastingEnded r c x d s (endCell cell y e t) :=
  h.followed hp hf (endCell_spares (.self _ _ t) hne) endCell_attention

end

/-- Settles O28. -/
theorem standbyEntered : Obligations.StandbyEntered := by
  unfold Obligations.StandbyEntered
  intro cell keepLink keepBlower s v hs hd p hok hm hstill hv
  have hv' : v = variantOf keepLink keepBlower := hv
  have hexec := exec_enterStandby (cell := cell) hs hm hstill hv'
  have hlinks : v.links = (keepLink != 0) := by rw [hv', variantOf_links]
  obtain ⟨k, hcfl⟩ := standbySettled_in (v := v) hd
  obtain ⟨hstale, hlost⟩ := standbyObserved_observed (v := v) hok
  have hstale' := settle_observed (by rfl) hstale
  have hlost' := settle_observed (by rfl) hlost
  have htqa : (settle (standbyObserved v s)).tqa = s.tqa := by simp [standbyObserved, standbyReached]
  have hclock : (settle (standbyObserved v s)).clock = s.clock := by simp [standbyObserved, standbyReached]
  generalize settle (standbyObserved v s) = w at hexec k hcfl hstale' hlost' htqa hclock
  have hended := endCell_orderEnded cell .ok [v.code] w
  have hcell : (endCell cell .ok [v.code] w).cellEnded cell .ok [v.code] s.clock := hclock ▸ hended.ended
  have hdone : Cls.orderDone.isIn (endCell cell .ok [v.code] w).atc.pending = true := by
    rw [hended.raised.pending]
    simp
  have hlink0 : keepLink ≠ 0 → v.links = true := fun h => by rw [hlinks]; exact bne_iff_ne.2 h
  have hlink1 : keepLink = 0 → v.links = false := fun h => by rw [hlinks, h]; rfl
  refine ⟨_, hexec, (by simp : (endCell cell .ok [v.code] w).dmc = w.dmc).trans k.dmc, hcell, ?_, by simpa using k.tripOut, endCell_attention k.raised, hdone, ?_,
    by simpa using k.grid, by simpa using hstale', by simpa using hlost', by simpa using htqa, by simpa using hcfl,
    by simpa using hclock, fun h => ?_, fun h => ?_, hostBytesKept _ _ _ p rfl hexec⟩
  · rw [endCell_header (k.placed p) (by omega)]
    exact k.mirror p
  · rw [← hlinks]
    simpa using k.roundsOn
  · simpa using k.linked (hlink0 h)
  · have hfree := hlink1 h
    obtain ⟨h1, h2, h3⟩ := k.calibration hfree
    exact ⟨by simpa using h1, by simpa using h2, by simpa using h3,
      fun hc hne => (k.steer hfree hc).endCell k.placed k.flight hne,
      fun o ho hne => (k.enroll hfree o ho).endCell k.placed k.flight hne⟩

end Sys2Proof.Machine
end

section
/-! The deliveries of the fault table come to their end (R179, R180): after two of the sets and one of the
summary, and the same once more where STANDBY goes back to STARTING, nothing is left to deliver. -/

namespace Sys2Proof.Machine

section
variable {a s t u : State}

/-! ### Absent observations only let exclusions fade -/

theorem isExcluded_iff {es : List Entry} {q : Subject} : isExcluded es q = true ↔
    ∃ e ∈ es, e.subject = q ∧ e.stands = true ∧ e.action ≠ .note := by
  simp [isExcluded, and_assoc]

theorem seeAbsent_subject {p : Params} {clock : Long} {e f : Entry} (h : f ∈ (e.seeAbsent p clock).1) :
    f.subject = e.subject := by
  unfold Entry.seeAbsent at h
  cases hs : e.state <;> rw [hs] at h <;> dsimp only at h
  · cases h
  · split at h <;> (obtain rfl := Option.some.inj h; rfl)
  · obtain rfl := Option.some.inj h; rfl
  · obtain rfl := Option.some.inj h; rfl

/-- An entry that stands after an absent observation stood before it with its subject and its action. -/
theorem observeAbsent_stood {p : Params} {clock : Long} {k : Kind} {subject : Subject} {f : Entry} :
    ∀ {es : List Entry}, f ∈ (observeEntries p clock k subject false es).1 → f.stands = true →
      ∃ e ∈ es, e.stands = true ∧ f.action = e.action ∧ f.subject = e.subject
  | [], h, _ => by cases h
  | e :: rest, h, hf => by
    unfold observeEntries at h
    by_cases hk : e.kind = k ∧ e.subject = subject
    · rw [if_pos hk] at h
      rcases List.mem_append.1 h with h | h
      · obtain ⟨h1, h2⟩ := seeAbsent_stands (Option.mem_toList.1 h) hf
        exact ⟨e, List.mem_cons_self, h1, h2, seeAbsent_subject (Option.mem_toList.1 h)⟩
      · exact ⟨f, List.mem_cons_of_mem _ h, hf, rfl, rfl⟩
    · rw [if_neg hk] at h
      rcases List.mem_cons.1 h with rfl | h
      · exact ⟨f, List.mem_cons_self, hf, rfl, rfl⟩
      · obtain ⟨g, hg, h1, h2, h3⟩ := observeAbsent_stood h hf
        exact ⟨g, List.mem_cons_of_mem _ hg, h1, h2, h3⟩

/-- Every entry acts by the overrides in force (R178). -/
def State.acts (s : State) : Prop := ∀ e ∈ s.pru.entries, e.action = s.cfg.action e.kind

theorem seePresent_same (clock : Long) (e : Entry) :
    (e.seePresent clock).1.kind = e.kind ∧ (e.seePresent clock).1.action = e.action := by
  unfold Entry.seePresent
  cases e.state <;> dsimp only
  case active => exact ⟨rfl, rfl⟩
  all_goals split <;> exact ⟨rfl, rfl⟩

theorem seeAbsent_same {p : Params} {clock : Long} {e f : Entry} (h : f ∈ (e.seeAbsent p clock).1) :
    f.kind = e.kind ∧ f.action = e.action := by
  unfold Entry.seeAbsent at h
  cases hs : e.state <;> rw [hs] at h <;> dsimp only at h
  · cases h
  · split at h <;> (obtain rfl := Option.some.inj h; exact ⟨rfl, rfl⟩)
  · obtain rfl := Option.some.inj h; exact ⟨rfl, rfl⟩
  · obtain rfl := Option.some.inj h; exact ⟨rfl, rfl⟩

theorem fresh_same (p : Params) (clock : Long) (k : Kind) (subject : Subject) :
    (Entry.fresh p clock k subject).kind = k ∧ (Entry.fresh p clock k subject).action = p.action k := by
  unfold Entry.fresh
  dsimp only
  split <;> exact ⟨rfl, rfl⟩

/-- An entry after an observation is one of before, or the appended one. -/
theorem observed_from {p : Params} {clock : Long} {k : Kind} {subject : Subject} {present : Bool} {f : Entry} :
    ∀ {es : List Entry}, f ∈ (observeEntries p clock k subject present es).1 →
      (∃ e ∈ es, f.kind = e.kind ∧ f.action = e.action) ∨ f.kind = k ∧ f.action = p.action k
  | [], h => by
    cases present with
    | false => cases h
    | true =>
      obtain rfl := List.mem_singleton.1 h
      exact .inr (fresh_same p clock k subject)
  | e :: rest, h => by
    unfold observeEntries at h
    by_cases hk : e.kind = k ∧ e.subject = subject
    · rw [if_pos hk] at h
      cases present with
      | true =>
        rcases List.mem_cons.1 h with rfl | h
        · exact .inl ⟨e, List.mem_cons_self, seePresent_same clock e⟩
        · exact .inl ⟨f, List.mem_cons_of_mem _ h, rfl, rfl⟩
      | false =>
        rcases List.mem_append.1 h with h | h
        · exact .inl ⟨e, List.mem_cons_self, seeAbsent_same (Option.mem_toList.1 h)⟩
        · exact .inl ⟨f, List.mem_cons_of_mem _ h, rfl, rfl⟩
    · rw [if_neg hk] at h
      rcases List.mem_cons.1 h with rfl | h
      · exact .inl ⟨f, List.mem_cons_self, rfl, rfl⟩
      · exact (observed_from h).imp_left fun ⟨g, hg, h1⟩ => ⟨g, List.mem_cons_of_mem _ hg, h1⟩

theorem note_acts (k : Kind) (subject : Subject) (present : Bool) (h : s.acts) : (note k subject present s).acts := by
  intro f hf
  have hcfg : (note k subject present s).cfg = s.cfg := by simp [State.cfg]
  rw [note_pru] at hf
  rw [hcfg]
  rcases observed_from hf with ⟨e, he, h1, h2⟩ | ⟨h1, h2⟩
  · rw [h1, h2]
    exact h e he
  · rw [h1, h2]

/-- Of the PRU the table alone has changed, its entries act as they did, and no wheel, and no bank at all, has
become excluded by it. -/
structure Fades (a s : State) : Prop where
  sets : s.pru.wheelEx = a.pru.wheelEx ∧ s.pru.bankEx = a.pru.bankEx
  wheels : ∀ w, isExcluded s.pru.entries (.wheel w) = true → isExcluded a.pru.entries (.wheel w) = true
  banks : ∀ b, isExcluded s.pru.entries (.bank b) = isExcluded a.pru.entries (.bank b)
  acts : a.acts → s.acts

theorem Fades.refl (a : State) : Fades a a := ⟨⟨rfl, rfl⟩, fun _ => id, fun _ => rfl, id⟩

theorem Fades.trans (h : Fades a s) (k : Fades s t) : Fades a t :=
  ⟨⟨k.sets.1.trans h.sets.1, k.sets.2.trans h.sets.2⟩, fun w => h.wheels w ∘ k.wheels w,
    fun b => (k.banks b).trans (h.banks b), k.acts ∘ h.acts⟩

theorem acts_congr (e : t.pru.entries = s.pru.entries) (hc : t.cfg = s.cfg) (h : s.acts) : t.acts := fun f hf => by
  rw [hc]
  exact h f (e ▸ hf)

theorem Fades.of_pru (h : Fades a s) (e : t.pru = s.pru) (hc : t.cfg = s.cfg := by simp [State.cfg]) : Fades a t :=
  h.trans ⟨by rw [e]; exact ⟨rfl, rfl⟩, fun w => by rw [e]; exact id, fun b => by rw [e],
    acts_congr (congrArg Pru.entries e) hc⟩

theorem noteAbsent_fades (k : Kind) {subject : Subject} (hb : ∀ b, subject ≠ .bank b) (s : State) :
    Fades s (note k subject false s) := by
  refine ⟨by rw [note_pru]; exact ⟨rfl, rfl⟩, fun w h => ?_, fun b => ?_, note_acts _ _ _⟩
  · rw [note_pru] at h
    obtain ⟨f, hf, hsub, hst, ha⟩ := isExcluded_iff.1 h
    obtain ⟨e, he, h1, h2, h3⟩ := observeAbsent_stood hf hst
    exact isExcluded_iff.2 ⟨e, he, h3 ▸ hsub, h1, h2 ▸ ha⟩
  · rw [note_pru]
    exact seen_excluded (hb b) false _

theorem noteGlobal_fades (k : Kind) (present : Bool) (s : State) : Fades s (note k .global present s) := by
  have h : ∀ q, Subject.global ≠ q → isExcluded (note k .global present s).pru.entries q =
      isExcluded s.pru.entries q := fun q hq => by
    rw [note_pru]
    exact seen_excluded hq present _
  exact ⟨by rw [note_pru]; exact ⟨rfl, rfl⟩, fun w => by rw [h (.wheel w) (by simp)]; exact id,
    fun b => h (.bank b) (by simp), note_acts _ _ _⟩

theorem noteGlobal_same (k : Kind) (present : Bool) (w : Wheel) (s : State) :
    isExcluded (note k .global present s).pru.entries (.wheel w) = isExcluded s.pru.entries (.wheel w) := by
  rw [note_pru]
  exact seen_excluded (by simp) present _

/-! ### The sets (R180) -/

/-- The bank set is the one the table gives, and the table gives no wheel that the wheel set lacks. -/
structure Shrinking (s : State) : Prop where
  wheels : ∀ w, isExcluded s.pru.entries (.wheel w) = true → s.pru.wheelEx.get w = true
  banks : s.pru.bankEx = formBankEx s.pru.entries

theorem formBankEx_congr {es fs : List Entry} (h : ∀ b, isExcluded fs (.bank b) = isExcluded es (.bank b)) :
    formBankEx fs = formBankEx es := by
  unfold formBankEx
  congr 1
  funext b
  exact h b

theorem formWheelEx_congr {es fs : List Entry} (h : ∀ w, isExcluded fs (.wheel w) = isExcluded es (.wheel w)) :
    formWheelEx fs = formWheelEx es := by
  unfold formWheelEx
  congr 1
  funext w
  exact h w

theorem setsFormed_iff : s.setsFormed = true ↔
    s.pru.wheelEx = formWheelEx s.pru.entries ∧ s.pru.bankEx = formBankEx s.pru.entries := by
  simp [State.setsFormed]

theorem Shrinking.of_formed (h : s.setsFormed = true) : Shrinking s := by
  obtain ⟨h1, h2⟩ := setsFormed_iff.1 h
  refine ⟨fun w hw => ?_, h2⟩
  rw [h1, formWheelEx, PerWheel_get_ofFn]
  exact hw

theorem Shrinking.fades (h : Shrinking s) (k : Fades s t) : Shrinking t := by
  refine ⟨fun w hw => ?_, ?_⟩
  · rw [k.sets.1]
    exact h.wheels w (k.wheels w hw)
  · rw [k.sets.2, h.banks, formBankEx_congr k.banks]

/-- The sets as a delivery forms them. -/
def setsTaken (s : State) : State :=
  updatePru { s.pru with wheelEx := formWheelEx s.pru.entries, bankEx := formBankEx s.pru.entries } s

theorem setsTaken_pru (s : State) : (setsTaken s).pru =
    { s.pru with wheelEx := formWheelEx s.pru.entries, bankEx := formBankEx s.pru.entries } := updatePru_pru _ _

theorem setsTaken_formed (s : State) : (setsTaken s).setsFormed = true := by
  rw [setsFormed_iff, setsTaken_pru]
  exact ⟨rfl, rfl⟩

/-- The blocks after the sets were formed. -/
def setsHeeded (s : State) : State :=
  if (setsTaken s).pru.wheelEx = s.pru.wheelEx ∧ (setsTaken s).pru.bankEx = s.pru.bankEx then setsTaken s
  else rgcExclusion s.pru.bankEx (tcuExclusion s.pru.wheelEx (setsTaken s))

theorem deliverSets_eq (s : State) : deliverSets s = observeEscalation (setsHeeded s) := rfl

theorem takeExclusion_fades (old : PerWheel Bool) (w : Wheel) (s : State) : Fades s (takeExclusion old w s) := by
  unfold takeExclusion excludeAtTcu noteIf
  dsimp only
  split
  · have k : Fades s (alterWheel w (s.tcu.wheels.get w).toGrip s) := (Fades.refl s).of_pru (by simp)
    split
    · exact k.trans (noteAbsent_fades _ (by simp) _)
    · exact k
  · exact .refl s

theorem tcuExclusion_fades (old : PerWheel Bool) (s : State) : Fades s (tcuExclusion old s) := by
  have h : Fades s (forWheels (takeExclusion old) s) := by
    unfold forWheels
    exact (((takeExclusion_fades old .w1 s).trans (takeExclusion_fades old .w2 _)).trans
      (takeExclusion_fades old .w3 _)).trans (takeExclusion_fades old .w4 _)
  rw [tcuExclusion_eq]
  exact h.of_pru (by simp)

/-- Where no wheel is added the exclusion change leaves the PRU. -/
theorem tcuExclusion_pru {old : PerWheel Bool} (h : ∀ w, s.pru.wheelEx.get w = true → old.get w = true) :
    (tcuExclusion old s).pru = s.pru := by
  have step : ∀ w v, v.pru = s.pru → (takeExclusion old w v).pru = s.pru := fun w v hv => by
    unfold takeExclusion
    rw [if_neg]
    · exact hv
    · rw [hv]
      intro k
      obtain ⟨k1, k2⟩ := Bool.and_eq_true_iff.1 k
      rw [h w k1] at k2
      cases k2
  rw [tcuExclusion_eq]
  simp only [putTcuSection_frame, recomputeIn_frame, judgeQuality_frame]
  exact step _ _ (step _ _ (step _ _ (step _ _ rfl)))

theorem setsHeeded_fades (s : State) : Fades (setsTaken s) (setsHeeded s) := by
  unfold setsHeeded
  split
  · exact .refl _
  · exact (tcuExclusion_fades s.pru.wheelEx (setsTaken s)).of_pru (by simp)

theorem observeEscalation_fades (s : State) : Fades s (observeEscalation s) :=
  (noteGlobal_fades _ _ s).trans (noteGlobal_fades _ _ _)

/-- After a delivery of the sets nothing but a fading wheel is left of them. -/
theorem deliverSets_shrinks (s : State) : Shrinking (deliverSets s) := by
  rw [deliverSets_eq]
  exact (Shrinking.of_formed (setsTaken_formed s)).fades ((setsHeeded_fades s).trans (observeEscalation_fades _))

/-- Where no wheel is added a delivery forms the sets for good. -/
theorem deliverSets_forms (h : Shrinking s) : (deliverSets s).setsFormed = true := by
  have hpru : (setsHeeded s).pru = (setsTaken s).pru := by
    unfold setsHeeded
    split
    · rfl
    · have hframe := rgcExclusion_frame s.pru.bankEx (tcuExclusion s.pru.wheelEx (setsTaken s))
      rw [hframe.2.2.2.2.2.2.2.2.2.2.2.2.1]
      refine tcuExclusion_pru fun w hw => h.wheels w ?_
      rw [setsTaken_pru] at hw
      simpa [formWheelEx, PerWheel_get_ofFn] using hw
  have hformed := setsFormed_iff.1 (setsTaken_formed s)
  rw [deliverSets_eq, setsFormed_iff]
  generalize setsHeeded s = v at hpru
  rw [← hpru] at hformed
  have hfade := observeEscalation_fades v
  have hsame : ∀ w, isExcluded (observeEscalation v).pru.entries (.wheel w) = isExcluded v.pru.entries (.wheel w) :=
    fun w => (noteGlobal_same _ _ w _).trans (noteGlobal_same _ _ w v)
  rw [hfade.sets.1, hfade.sets.2, formWheelEx_congr hsame, formBankEx_congr hfade.banks]
  exact hformed

/-! ### The summary (R179) -/

/-- The summary as a delivery forms it. -/
def summaryFormedOf (s : State) : State := updatePru { s.pru with summary := formSummary s.pru.entries } s

theorem summaryFormedOf_pru (s : State) :
    (announceSummary (summaryFormedOf s)).pru = { s.pru with summary := formSummary s.pru.entries } := by
  rw [announceSummary_pru]
  exact updatePru_pru _ _

theorem takeConfigured_fades (u : UnitId) (s : State) : Fades s (takeConfigured u s) := by
  unfold takeConfigured
  dsimp only
  split
  · exact (Fades.refl s).of_pru (by simp)
  · split
    · have k : Fades s (changeUnit u { (s.wlc.unit u).absent with configured := false } s) :=
        (Fades.refl s).of_pru (by simp)
      generalize changeUnit u { (s.wlc.unit u).absent with configured := false } s = v at k
      have k2 : Fades v (reportLoss u false v) := by
        cases u with
        | sau => exact noteAbsent_fades _ (by simp) v
        | wheel w =>
          have e : Fades v (v.setPru { v.pru with lossHeld := v.pru.lossHeld.set w false }) :=
            ⟨⟨rfl, rfl⟩, fun _ => id, fun _ => rfl, id⟩
          exact e.trans (noteAbsent_fades _ (by simp) _)
      exact (k.trans k2).of_pru (by simp)
    · exact .refl s

theorem unitsTaken_fades (s : State) : Fades s (forUnits takeConfigured s) := by
  unfold forUnits forWheels
  exact ((((takeConfigured_fades _ _).trans (takeConfigured_fades _ _)).trans (takeConfigured_fades _ _)).trans
    (takeConfigured_fades _ _)).trans (takeConfigured_fades _ _)

theorem beginRollCall_fades (s : State) : Fades s (beginRollCall s) := by
  have k := unitsTaken_fades s
  unfold beginRollCall
  generalize forUnits takeConfigured s = v at k
  exact k.of_pru rfl rfl

theorem startRollCall_fades (s : State) : Fades s (startRollCall s) := by
  have hpru : (abortRollCall s).pru = s.pru := by simp
  have hcfg : (abortRollCall s).cfg = s.cfg := by simp [State.cfg]
  rw [startRollCall_eq]
  generalize abortRollCall s = v at hpru hcfg
  have k : Fades s v.askedRollCall := (Fades.refl s).of_pru hpru hcfg
  unfold takeRollCall
  split
  · exact k.trans (beginRollCall_fades _)
  · exact k

theorem standbyToStarting_fades (s : State) : Fades s (standbyToStarting s) := by
  have k : Fades s (startingReached s).enrolling :=
    (Fades.refl s).of_pru (by simp [State.enrolling, startingReached])
      (by simp [State.enrolling, startingReached, State.cfg])
  rw [standbyToStarting_eq]
  exact k.trans (startRollCall_fades _)

/-- A severity change leaves the PRU, but where STANDBY goes back to STARTING. -/
theorem severityChange_pru (s : State) : (severityChange s).pru = s.pru ∨
    Fades s (severityChange s) ∧ (severityChange s).dmc.mode = .starting := by
  unfold severityChange
  split
  · exact .inl (by simp)
  · exact .inl (by simp)
  · exact .inl (by simp)
  · exact .inl (by simp)
  · exact .inl (by simp)
  · split
    · exact .inl (by simp)
    · refine .inr ⟨standbyToStarting_fades s, ?_⟩
      rw [(standbyToStarting_entered s).dmc]
  · exact .inl rfl

theorem delivered_of (hsets : s.setsFormed = true) (hsum : s.pru.summary = formSummary s.pru.entries) :
    s.delivered = true := by
  rw [State.delivered, hsets, State.summaryFormed, hsum]
  simp

/-- A delivery of the summary leaves nothing to deliver, but where STANDBY goes back to STARTING. -/
theorem deliverSummary_ends (hsets : s.setsFormed = true) :
    (deliverSummary s).delivered = true ∨ Shrinking (deliverSummary s) ∧ (deliverSummary s).dmc.mode = .starting := by
  have hpru := summaryFormedOf_pru s
  have e : deliverSummary s = severityChange (announceSummary (summaryFormedOf s)) := rfl
  rw [e]
  generalize announceSummary (summaryFormedOf s) = v at hpru
  have hv : v.setsFormed = true := by
    rw [setsFormed_iff, hpru]
    exact setsFormed_iff.1 hsets
  rcases severityChange_pru v with h | ⟨h, hm⟩
  · refine .inl (delivered_of ?_ ?_)
    · rw [setsFormed_iff, h]
      exact setsFormed_iff.1 hv
    · rw [h, hpru]
  · exact .inr ⟨(Shrinking.of_formed hv).fades h, hm⟩

/-- In the modes that heed no severity change a delivery of the summary leaves nothing to deliver. -/
theorem deliverSummary_deaf (hsets : s.setsFormed = true) (hm : s.dmc.mode.deaf) :
    (deliverSummary s).delivered = true := by
  have hpru := summaryFormedOf_pru s
  have e : deliverSummary s = severityChange (announceSummary (summaryFormedOf s)) := rfl
  have hdmc : (announceSummary (summaryFormedOf s)).dmc = s.dmc := by simp [summaryFormedOf]
  rw [e, severityChange_deaf (by rw [hdmc]; exact hm)]
  refine delivered_of ?_ ?_
  · rw [setsFormed_iff, hpru]
    exact setsFormed_iff.1 hsets
  · rw [hpru]

/-! ### The end of the deliveries -/

theorem settleBy_delivered (n : Nat) (h : s.delivered = true) : settleBy n s = s := by
  cases n with
  | zero => rfl
  | succ n => exact if_pos h

theorem settleBy_step (n : Nat) (s : State) : settleBy (n + 1) s = settleBy n (deliver s) ∨ s.delivered = true := by
  by_cases h : s.delivered = true
  · exact .inr h
  · exact .inl (if_neg h)

theorem deliver_formed (hsets : s.setsFormed = true) (h : ¬s.delivered = true) : deliver s = deliverSummary s := by
  have hsum : ¬s.summaryFormed = true := fun k => h (by rw [State.delivered, hsets, k]; rfl)
  rw [deliver, if_pos hsets, if_neg hsum]

theorem deliver_unformed (hsets : ¬s.setsFormed = true) : deliver s = deliverSets s := if_neg hsets

theorem unformed_of (hsets : ¬s.setsFormed = true) : ¬s.delivered = true := fun h =>
  hsets (Bool.and_eq_true_iff.1 h).1

/-- In STARTING, from formed sets: one delivery. -/
theorem ends_deaf_formed (n : Nat) (hsets : s.setsFormed = true) (hm : s.dmc.mode = .starting) :
    (settleBy (n + 1) s).delivered = true := by
  by_cases hd : s.delivered = true
  · rwa [settleBy_delivered _ hd]
  · rw [(settleBy_step n s).resolve_right hd, deliver_formed hsets hd]
    have k := deliverSummary_deaf hsets (.inl hm)
    rwa [settleBy_delivered _ k]

/-- In STARTING, with no exclusion left to add: two deliveries. -/
theorem ends_deaf (n : Nat) (h : Shrinking s) (hm : s.dmc.mode = .starting) :
    (settleBy (n + 2) s).delivered = true := by
  by_cases hsets : s.setsFormed = true
  · exact ends_deaf_formed (n + 1) hsets hm
  · rw [(settleBy_step (n + 1) s).resolve_right (unformed_of hsets), deliver_unformed hsets]
    exact ends_deaf_formed n (deliverSets_forms h) (by simpa using hm)

/-- From formed sets: three deliveries. -/
theorem ends_formed (n : Nat) (hsets : s.setsFormed = true) : (settleBy (n + 3) s).delivered = true := by
  by_cases hd : s.delivered = true
  · rwa [settleBy_delivered _ hd]
  · rw [(settleBy_step (n + 2) s).resolve_right hd, deliver_formed hsets hd]
    rcases deliverSummary_ends hsets with k | ⟨k, hm⟩
    · rwa [settleBy_delivered _ k]
    · exact ends_deaf n k hm

/-- With no exclusion left to add: four deliveries. -/
theorem ends_shrinking (n : Nat) (h : Shrinking s) : (settleBy (n + 4) s).delivered = true := by
  by_cases hsets : s.setsFormed = true
  · exact ends_formed (n + 1) hsets
  · rw [(settleBy_step (n + 3) s).resolve_right (unformed_of hsets), deliver_unformed hsets]
    exact ends_formed n (deliverSets_forms h)

/-- The deliveries leave nothing to deliver. -/
theorem settle_delivered (s : State) : (settle s).delivered = true := by
  show (settleBy 16 s).delivered = true
  by_cases hsets : s.setsFormed = true
  · exact ends_formed 13 hsets
  · rw [(settleBy_step 15 s).resolve_right (unformed_of hsets), deliver_unformed hsets]
    exact ends_shrinking 11 (deliverSets_shrinks s)

/-! ### The actions stay those of the overrides (R178) -/

theorem updatePru_acts {p : Pru} (hp : p.entries = s.pru.entries) (h : s.acts) : (updatePru p s).acts :=
  acts_congr (by rw [updatePru_pru, hp]) (by simp [State.cfg]) h

theorem deliver_acts (h : s.acts) : (deliver s).acts := by
  unfold deliver
  split
  · split
    · exact h
    · have e : deliverSummary s = severityChange (announceSummary (summaryFormedOf s)) := rfl
      have k : (announceSummary (summaryFormedOf s)).acts :=
        acts_congr (by rw [summaryFormedOf_pru]) (by simp [summaryFormedOf, State.cfg]) h
      rw [e]
      generalize announceSummary (summaryFormedOf s) = v at k
      rcases severityChange_pru v with hp | ⟨hf, -⟩
      · exact acts_congr (by rw [hp]) (severityChange_steady (.refl false v)).cfg k
      · exact hf.acts k
  · have k : (setsTaken s).acts := updatePru_acts (by rfl) h
    rw [deliverSets_eq]
    exact ((setsHeeded_fades s).trans (observeEscalation_fades _)).acts k

theorem settle_acts (h : s.acts) : (settle s).acts :=
  settle_of_deliver (P := State.acts) (fun _ => deliver_acts) h

end
end Sys2Proof.Machine
end

section
/-! An accepted block (R26) as the blocks take it up: the ATC, the TQA, the PRU's actions and filter (R178,
R182), the LMU, the RGC's table, rotation order, channels and capacity, and the deliveries that follow. -/

namespace Sys2Proof.Machine

section
variable {cells : Bool} {spared : Option (BitVec 6)} {a s t u v : State} {p : Params}

/-! ### The parts of an acceptance -/

/-- The configuration with the limits and the priorities that come with it. -/
def parametersTaken (p : Params) (s : State) : State := tqaConfig (applyPriorities (activate p s))

/-- The PRU's table and filter as an accepted block leaves them (R178, R182). -/
def Pru.configured (p : Params) (old : Nat) (clock : Long) (q : Pru) : Pru :=
  { q with
    entries := q.entries.map (Entry.rewriteAction p clock)
    filter := if p.stopMode = old then q.filter
      else { q.filter with
        lowRun := 0, highRun := 0, lastLow := false, edgeHeld := !p.stopLevel && q.filter.active } }

/-- The ambient that a configuration takes with a demand record (R161). -/
def Params.ambientOf (p : Params) (d : Demand) : Int := d.ambient.getD (p.designAmbient : Int)

/-- The LMU as an accepted block leaves it (R163). -/
def Lmu.configured (p : Params) (d : Demand) (l : Lmu) : Lmu :=
  if l.heatSet then { l with heat := PerBank.ofFn fun b => min (l.heat.get b) (p.maxHeat b) }
  else
    { l with
      heatSet := true, heat := PerBank.ofFn fun b => presetHeat p b (p.ambientOf d)
      theta := PerBank.ofFn fun b => p.temperature b (10 * p.ambientOf d)
        ((PerBank.ofFn fun b => presetHeat p b (p.ambientOf d)).get b) }

theorem ambientNow_eq (s : State) : s.ambientNow = s.cfg.ambientOf s.dmc.demand := by
  unfold State.ambientNow Params.ambientOf
  cases s.dmc.demand.ambient <;> rfl

theorem lmuConfig_lmu (s : State) : (lmuConfig s).lmu = s.lmu.configured s.cfg s.dmc.demand := by
  unfold lmuConfig Lmu.configured
  rw [ambientNow_eq]
  dsimp only
  split <;> rfl

theorem rewriteActions_pru (s : State) : (rewriteActions s).pru =
    { s.pru with entries := s.pru.entries.map (Entry.rewriteAction s.cfg s.clock) } := by
  unfold rewriteActions
  rw [raiseIf_pru, updatePru_pru]

theorem rewriteActions_low (h : LowKept cells spared a s) : LowKept cells spared a (rewriteActions s) :=
  raiseIf_low (updatePru_low h _) _ _

theorem rewriteActions_attention (s : State) :
    { (rewriteActions s).atc with pending := 0 } = { s.atc with pending := 0 } ∧
      (∀ c : Cls, c.isIn s.atc.pending = true → c.isIn (rewriteActions s).atc.pending = true) := by
  unfold rewriteActions
  dsimp only
  have h := (raiseIf_steady (.refl false (updatePru
    { s.pru with entries := s.pru.entries.map (Entry.rewriteAction s.cfg s.clock) } s))
    (s.pru.entries.map (Entry.rewriteAction s.cfg s.clock) != s.pru.entries) .faultChange)
  have hatc := updatePru_atc { s.pru with entries := s.pru.entries.map (Entry.rewriteAction s.cfg s.clock) } s
  generalize updatePru { s.pru with entries := s.pru.entries.map (Entry.rewriteAction s.cfg s.clock) } s = w
    at h hatc
  rw [← hatc]
  exact ⟨h.atc, h.attention⟩

/-- An action that changes raises FAULT_CHANGE (R178). -/
theorem rewriteActions_raises (h : ∃ e ∈ s.pru.entries, e.action ≠ s.cfg.action e.kind) :
    Cls.faultChange.isIn (rewriteActions s).atc.pending = true := by
  have hne : s.pru.entries.map (Entry.rewriteAction s.cfg s.clock) ≠ s.pru.entries := fun hsame => by
    obtain ⟨e, he, hact⟩ := h
    have k : Entry.rewriteAction s.cfg s.clock e = e := List.map_inj_left.1 (hsame.trans (List.map_id _).symm) e he
    unfold Entry.rewriteAction at k
    split at k
    · exact hact (by rw [‹s.cfg.action e.kind = e.action›])
    · exact hact (congrArg Entry.action k).symm
  unfold rewriteActions
  dsimp only
  rw [bne_iff_ne.2 hne, raiseIf_true, (raise_raised _ _).pending]
  simp

theorem changeStopModeFrom_pru (old : Nat) (s : State) : (changeStopModeFrom old s).pru =
    { s.pru with
      filter := if s.cfg.stopMode = old then s.pru.filter
        else { s.pru.filter with
          lowRun := 0, highRun := 0, lastLow := false, edgeHeld := !s.cfg.stopLevel && s.pru.filter.active } } := by
  unfold changeStopModeFrom changeStopMode
  split
  · rfl
  · rw [updatePru_pru]

theorem changeStopModeFrom_low (h : LowKept cells spared a s) (old : Nat) :
    LowKept cells spared a (changeStopModeFrom old s) := by
  unfold changeStopModeFrom
  split
  · exact h
  · exact updatePru_low h _

/-! ### The grid as it serves -/

/-- The rotation order is the sorted one, the capacity the one that the serving banks give, and every bank
channel in the state of R133. -/
structure State.gridServed (s : State) : Prop where
  rotation : s.rgc.rotation = s.sortedBanks
  capacity : s.capacityFormed
  chans : ∀ b, (s.rgc.chans.get b).state = s.chanState b

theorem sortedBanks_congr (hcfg : t.cfg = s.cfg) (hguard : t.cfl.guardOn = s.cfl.guardOn)
    (hlmu : t.lmu.heat = s.lmu.heat) (hbank : t.pru.bankEx = s.pru.bankEx) : t.sortedBanks = s.sortedBanks := by
  have hserves : t.bankServes = s.bankServes := by
    funext b
    rw [State.bankServes, State.bankServes, hcfg, hbank]
  rw [State.sortedBanks, State.sortedBanks, hguard, hserves, hlmu]

theorem setEnvelope_low (h : LowKept cells spared a s) (table : List Nat) :
    LowKept cells spared a (setEnvelope table s) :=
  h.same (setEnvelope_same table s) (by simp) (by simp)

/-- What an accepted block makes of the RGC. -/
theorem rgcConfig_serves (s : State) : (rgcConfig s).gridServed ∧ (rgcConfig s).rgc.table = s.cfg.envelope ∧
    (rgcConfig s).rgc.test = s.rgc.test ∧ (rgcConfig s).rgc.blower = s.rgc.blower := by
  have e : rgcConfig s = recomputeCapacity (judgeChannels (sortRotation (setEnvelope s.cfg.envelope s))) := rfl
  have hrgc : (sortRotation (setEnvelope s.cfg.envelope s)).rgc =
      { s.rgc with table := s.cfg.envelope, rotation := (setEnvelope s.cfg.envelope s).sortedBanks } := rfl
  have hsorted : (sortRotation (setEnvelope s.cfg.envelope s)).sortedBanks =
    (setEnvelope s.cfg.envelope s).sortedBanks := rfl
  have hm := judgeChannels_moves (sortRotation (setEnvelope s.cfg.envelope s))
  have hst := fun b => judgeChannels_state b (sortRotation (setEnvelope s.cfg.envelope s))
  have hlmu : (judgeChannels (sortRotation (setEnvelope s.cfg.envelope s))).lmu =
    (sortRotation (setEnvelope s.cfg.envelope s)).lmu := by simp
  rw [e]
  generalize sortRotation (setEnvelope s.cfg.envelope s) = u at hrgc hsorted hm hst hlmu
  generalize judgeChannels u = t at hm hst hlmu
  refine ⟨⟨?_, recomputeCapacity_formed t, fun b => ?_⟩, ?_, ?_, ?_⟩
  · have h1 : (recomputeCapacity t).sortedBanks = u.sortedBanks :=
      sortedBanks_congr (s := u) (congrArg Cfl.active hm.cfl) (congrArg Cfl.guardOn hm.cfl) (congrArg Lmu.heat hlmu) (congrArg Pru.bankEx hm.pru)
    have h2 : (recomputeCapacity t).rgc.rotation = u.rgc.rotation := by
      show t.rgc.rotation = _
      rw [hm.rgc]
    rw [h1, h2, hsorted, hrgc]
  · exact (hst b).trans (hm.chanState b).symm
  · show t.rgc.table = _
    rw [hm.rgc]
    exact (congrArg Rgc.table hrgc :)
  · show t.rgc.test = _
    rw [hm.rgc]
    exact (congrArg Rgc.test hrgc :)
  · show t.rgc.blower = _
    rw [hm.rgc]
    exact (congrArg Rgc.blower hrgc :)

theorem rgcConfig_low (h : LowKept cells spared a s) : LowKept cells spared a (rgcConfig s) := by
  have e : rgcConfig s = recomputeCapacity (judgeChannels (sortRotation (setEnvelope s.cfg.envelope s))) := rfl
  have h1 := setEnvelope_low h s.cfg.envelope
  rw [e]
  generalize setEnvelope s.cfg.envelope s = u at h1
  have h2 : LowKept cells spared a (sortRotation u) := h1.of_xm rfl id rfl
  generalize sortRotation u = w at h2
  have h3 := judgeChannels_low h2
  generalize judgeChannels w = x at h3
  exact h3.of_xm rfl id rfl

/-! ### The acceptance -/

/-- What an accepted block leaves of every block (R26), before the deliveries. -/
structure ConfigTaken (p : Params) (s v : State) : Prop where
  cfl : v.cfl = { s.cfl with
    active := p, profileCopy := p.profile, arrangementCopy := p.arrangement
    steerCopy := p.steerSource, guardOn := true }
  atc : { v.atc with pending := 0 } = { s.atc with priorities := p.priorities, pending := 0 }
  attention : ∀ c : Cls, c.isIn s.atc.pending = true → c.isIn v.atc.pending = true
  change : (∃ e ∈ s.pru.entries, e.action ≠ p.action e.kind) → Cls.faultChange.isIn v.atc.pending = true
  tqa : v.tqa = { s.tqa with maxForward := p.maxForward, maxReverse := p.maxReverse, propelCap := p.propelCap }
  pru : v.pru = s.pru.configured p s.cfg.stopMode s.clock
  lmu : v.lmu = s.lmu.configured p s.dmc.demand
  table : v.rgc.table = p.envelope
  test : v.rgc.test = s.rgc.test
  blower : v.rgc.blower = s.rgc.blower
  served : v.gridServed
  kept : v.clock = s.clock ∧ v.wlc = s.wlc ∧ v.dmc = s.dmc ∧ v.ore = s.ore
  low : LowKept true none s v

theorem acceptConfig_taken (p : Params) (s : State) : ConfigTaken p s (acceptConfig p s) := by
  have e : acceptConfig p s = rgcConfig (lmuConfig (changeStopModeFrom s.cfg.stopMode
    (rewriteActions (parametersTaken p s)))) := by
    simp only [acceptConfig, runAll, parametersTaken]
  have hkept : (acceptConfig p s).clock = s.clock ∧ (acceptConfig p s).wlc = s.wlc ∧
    (acceptConfig p s).dmc = s.dmc ∧ (acceptConfig p s).ore = s.ore := by simp
  have hcfl0 : (parametersTaken p s).cfl = { s.cfl with
    active := p, profileCopy := p.profile, arrangementCopy := p.arrangement
    steerCopy := p.steerSource, guardOn := true } := rfl
  have hcfg0 : (parametersTaken p s).cfg = p := rfl
  have hlow0 : LowKept true none s (parametersTaken p s) := (LowKept.refl true s).of_xm rfl id rfl
  have hrest : (parametersTaken p s).pru = s.pru ∧ (parametersTaken p s).rgc = s.rgc ∧
    (parametersTaken p s).clock = s.clock ∧ (parametersTaken p s).lmu = s.lmu ∧
    (parametersTaken p s).dmc = s.dmc := ⟨rfl, rfl, rfl, rfl, rfl⟩
  have hatc : (parametersTaken p s).atc = { s.atc with priorities := p.priorities } := rfl
  have htqa : (parametersTaken p s).tqa =
    { s.tqa with maxForward := p.maxForward, maxReverse := p.maxReverse, propelCap := p.propelCap } := rfl
  rw [e] at hkept ⊢
  generalize parametersTaken p s = w at *
  obtain ⟨hpru0, hrgc0, hclock0, hlmu0, hdmc0⟩ := hrest
  have hatt := rewriteActions_attention w
  have hchange := rewriteActions_raises (s := w)
  have hpru1 := rewriteActions_pru w
  have hlow1 := rewriteActions_low hlow0
  have hsame : (rewriteActions w).cfl = w.cfl ∧ (rewriteActions w).rgc = w.rgc ∧ (rewriteActions w).tqa = w.tqa ∧
    (rewriteActions w).lmu = w.lmu ∧ (rewriteActions w).dmc = w.dmc := by simp
  generalize rewriteActions w = x at *
  have hpru2 := changeStopModeFrom_pru s.cfg.stopMode x
  have hlow2 := changeStopModeFrom_low hlow1 s.cfg.stopMode
  have hsame2 : (changeStopModeFrom s.cfg.stopMode x).cfl = x.cfl ∧
    (changeStopModeFrom s.cfg.stopMode x).rgc = x.rgc ∧ (changeStopModeFrom s.cfg.stopMode x).tqa = x.tqa ∧
    (changeStopModeFrom s.cfg.stopMode x).lmu = x.lmu ∧ (changeStopModeFrom s.cfg.stopMode x).dmc = x.dmc ∧
    (changeStopModeFrom s.cfg.stopMode x).atc = x.atc := by simp
  generalize changeStopModeFrom s.cfg.stopMode x = y at *
  obtain ⟨h1, h2, h3, h4, h5⟩ := hsame
  obtain ⟨k1, k2, k3, k4, k5, k6⟩ := hsame2
  have hcfgx : x.cfg = p := (congrArg Cfl.active h1).trans hcfg0
  have hcfgy : y.cfg = p := (congrArg Cfl.active k1).trans hcfgx
  have hlmu : (lmuConfig y).lmu = s.lmu.configured p s.dmc.demand := by
    rw [lmuConfig_lmu, hcfgy, k4, h4, hlmu0, k5, h5, hdmc0]
  have hmid : (lmuConfig y).cfl = y.cfl ∧ (lmuConfig y).rgc = y.rgc ∧ (lmuConfig y).tqa = y.tqa ∧
    (lmuConfig y).pru = y.pru ∧ (lmuConfig y).atc = y.atc := by simp
  have hlow3 : LowKept true none s (lmuConfig y) := hlow2.of_xm (by simp) (by simp)
  generalize lmuConfig y = z at *
  obtain ⟨m1, m2, m3, m4, m5⟩ := hmid
  have hcfgz : z.cfg = p := (congrArg Cfl.active m1).trans hcfgy
  obtain ⟨hserved, htable, htest, hblower⟩ := rgcConfig_serves z
  have hend : (rgcConfig z).cfl = z.cfl ∧ (rgcConfig z).tqa = z.tqa ∧ (rgcConfig z).pru = z.pru ∧
    (rgcConfig z).atc = z.atc ∧ (rgcConfig z).lmu = z.lmu := by simp
  have hlow4 := rgcConfig_low hlow3
  generalize rgcConfig z = v at *
  obtain ⟨n1, n2, n3, n4, n5⟩ := hend
  refine ⟨?_, ?_, ?_, ?_, ?_, ?_, ?_, ?_, ?_, ?_, hserved, hkept, hlow4⟩
  · rw [n1, m1, k1, h1, hcfl0]
  · rw [n4, m5, k6, hatt.1, hatc]
  · intro c hc
    rw [n4, m5, k6]
    exact hatt.2 c (by rw [hatc]; exact hc)
  · intro hne
    rw [n4, m5, k6]
    exact hchange (by rw [hpru0, hcfg0]; exact hne)
  · rw [n2, m3, k3, h3, htqa]
  · rw [n3, m4, hpru2, hpru1, hpru0, hcfgx, hcfg0, hclock0]
    rfl
  · rw [n5, hlmu]
  · rw [htable, hcfgz]
  · rw [htest, m2, k2, h2, hrgc0]
  · rw [hblower, m2, k2, h2, hrgc0]

/-! ### What the deliveries leave of it -/

theorem rewriteAction_kind (p : Params) (clock : Long) (e : Entry) :
    (e.rewriteAction p clock).kind = e.kind ∧ (e.rewriteAction p clock).action = p.action e.kind := by
  unfold Entry.rewriteAction
  split
  · exact ⟨rfl, (‹p.action e.kind = e.action›).symm⟩
  · exact ⟨rfl, rfl⟩

/-- Of the kinds that no delivery observes the entries are those of the table. -/
theorem quiet_kind {q r : Pru} (h : q.quiet = r.quiet) {k : Kind} (hk : k.loud = false) :
    q.entries.filter (fun e => e.kind == k) = r.entries.filter fun e => e.kind == k := by
  have only : ∀ q : Pru, q.entries.filter (fun e => e.kind == k) = q.quiet.filter fun e => e.kind == k := fun q => by
    rw [Pru.quiet, List.filter_filter]
    refine List.filter_congr fun e _ => ?_
    by_cases he : e.kind = k
    · simp [he, hk]
    · simp [he]
  rw [only, only, h]

theorem configured_kind (p : Params) (old : Nat) (clock : Long) (q : Pru) (k : Kind) :
    (q.configured p old clock).entries.filter (fun e => e.kind == k) =
      (q.entries.filter fun e => e.kind == k).map fun e =>
        if e.action = p.action k then e else { e with action := p.action k, lastChange := clock } := by
  have hcomp : ((fun e : Entry => e.kind == k) ∘ Entry.rewriteAction p clock) = fun e => e.kind == k := by
    funext e
    exact congrArg (· == k) (rewriteAction_kind p clock e).1
  show (q.entries.map (Entry.rewriteAction p clock)).filter _ = _
  rw [List.filter_map, hcomp]
  refine List.map_congr_left fun e he => ?_
  have hk : e.kind = k := by simpa using (List.mem_filter.1 he).2
  unfold Entry.rewriteAction
  rw [hk]
  by_cases ha : p.action k = e.action
  · rw [if_pos ha, if_pos ha.symm]
  · rw [if_neg ha, if_neg (Ne.symm ha)]

theorem configured_acts (h : v.pru = s.pru.configured p s.cfg.stopMode s.clock) (hcfg : v.cfg = p) : v.acts := by
  intro e he
  rw [h] at he
  obtain ⟨f, -, rfl⟩ := List.mem_map.1 he
  rw [hcfg, (rewriteAction_kind p s.clock f).1]
  exact (rewriteAction_kind p s.clock f).2

/-- The PRU after the deliveries that follow an acceptance (R178, R182). -/
theorem ActionsTaken.of_settled (hpru : v.pru = s.pru.configured p s.cfg.stopMode s.clock) (hcfg : v.cfg = p)
    (hchange : (∃ e ∈ s.pru.entries, e.action ≠ p.action e.kind) → Cls.faultChange.isIn v.atc.pending = true)
    (k : Steady true v t) (hacts : t.acts) (hd : t.delivered = true) : ActionsTaken p s t where
  acts := fun e he => by
    have h := hacts e he
    rwa [k.cfg, hcfg] at h
  kept := fun kind hk x hx => by
    have hx : x = p.action kind := hx
    rw [quiet_kind (k.quiet rfl) hk, hpru, configured_kind, ← hx]
  change := fun h => k.attention _ (hchange h)
  delivered := hd
  filter := by
    rw [k.filter, hpru]
    have hlevel : ∀ b, (!p.stopLevel && b) = (decide (p.stopMode ≠ 1) && b) := fun b => by
      by_cases h : p.stopMode = 1 <;> simp [Params.stopLevel, h]
    show (if _ then _ else _) = _
    split
    · rfl
    · simp only [hlevel]

/-- Where no action changes the table stays. -/
theorem configured_same (h : ∀ e ∈ s.pru.entries, p.action e.kind = e.action) (old : Nat) (clock : Long) :
    (s.pru.configured p old clock).entries = s.pru.entries := by
  show s.pru.entries.map (Entry.rewriteAction p clock) = _
  conv_rhs => rw [← List.map_id s.pru.entries]
  exact List.map_congr_left fun e he => if_pos (h e he)

end
end Sys2Proof.Machine
end

section
/-! APPLY_CONFIG (R35, R36): the block that is refused, and the one that the blocks take up. -/

namespace Sys2Proof.Machine

section
variable {cell : BitVec 6} {s t u v : State} {p : Params}

theorem exec_applyConfig (hs : s.isRunning = true) (hm : s.dmc.mode = .standby) (ho : s.ore.idle = true) :
    exec (.applyConfig cell) s = .next (
      if (validate s.xm).1 = .accepted then
        acceptApplied cell (Params.ofBlock s.xm) (showResult (validate s.xm) s)
      else endCell cell .badArgument [natWord (validate s.xm).2, (validate s.xm).1.code]
        (showResult (validate s.xm) s)) := by
  have h : decideApplyConfig cell s =
      if (validate s.xm).1 = .accepted then
        acceptApplied cell (Params.ofBlock s.xm) (showResult (validate s.xm) s)
      else endCell cell .badArgument [natWord (validate s.xm).2, (validate s.xm).1.code]
        (showResult (validate s.xm) s) := by
    unfold decideApplyConfig
    rw [admitIf_admitted (by simp [hm]), if_neg (by simp [ho])]
  exact (whenRunning_of_running hs (decideApplyConfig cell)).trans (congrArg _ h)

/-- Two classes that are raised one after the other. -/
theorem Raised.after {l m : List Cls} (h : Raised l s t) (k : Raised m t u) : Raised (l ++ m) s u where
  pending c := by rw [k.pending, h.pending, List.contains_append, Bool.or_assoc]
  rest := (congrArg (fun a : Atc => { a with pending := s.atc.pending }) k.rest).trans h.rest
  mirror := k.mirror ∘ h.mirror

/-- A block that fails ends the order, and nothing else changes (R35). -/
theorem applyConfig_refused (hp : s.wlc.placed) : ∃ t,
    endCell cell .badArgument [natWord (validate s.xm).2, (validate s.xm).1.code]
      (showResult (validate s.xm) s) = t ∧
    t.word 0x0018 = (validate s.xm).1.code ∧ t.word 0x001A = natWord (validate s.xm).2 ∧
    t.cellEnded cell .badArgument [natWord (validate s.xm).2, (validate s.xm).1.code] s.clock ∧
    Raised [.configResult, .orderDone] s t ∧
    SameOutside (pendingRegion :: (0x0018, 4) :: endRegions cell) s t ∧
    { t with atc := s.atc, xm := s.xm } = s := by
  obtain ⟨hcode, hoffset, hraised, hsame, hrest⟩ := showResult_shows (validate s.xm) s
  have hframe : (showResult (validate s.xm) s).wlc = s.wlc ∧ (showResult (validate s.xm) s).clock = s.clock := by
    simp
  generalize showResult (validate s.xm) s = u at *
  have hend := endCell_orderEnded cell .badArgument [natWord (validate s.xm).2, (validate s.xm).1.code] u
  have hendrest := endCell_rest cell .badArgument [natWord (validate s.xm).2, (validate s.xm).1.code] u
  have hp : u.wlc.placed := hframe.1 ▸ hp
  refine ⟨_, rfl, ?_, ?_, hframe.2 ▸ hend.ended, hraised.after hend.raised, ?_, ?_⟩
  · rw [endCell_header hp (by omega), hcode]
  · rw [endCell_header hp (by omega), hoffset]
  · refine (hsame.mono (by simp)).trans (hend.same.mono ?_)
    simp only [List.append_nil, List.mem_cons]
    rintro r (h | h)
    · exact .inl h
    · exact .inr (.inr h)
  · exact (congrArg (fun w : State => { w with atc := s.atc, xm := s.xm }) hendrest).trans hrest

/-- The two readings of the shown result. -/
theorem calm_shown {x : Nat} (h : 0x0018 ≤ x ∧ x < 0x001C) : calmByte x = true := by
  simp only [calmByte, Bool.or_eq_true, decide_eq_true_eq]
  omega

theorem markReEnrol_cfl (b : Bool) (s : State) : (markReEnrol b s).cfl = { s.cfl with reEnrol := s.cfl.reEnrol || b } :=
  rfl

theorem reshapes_iff {p q : Params} : p.reshapes q = true ↔
    p.arrangement ≠ q.arrangement ∨ p.steerSource ≠ q.steerSource ∨ p.bankCount ≠ q.bankCount := by
  simp [Params.reshapes, or_assoc]

/-- An accepted block before the deliveries: the state that they settle. -/
def configMarked (p : Params) (s : State) : State :=
  markReEnrol (p.reshapes (showResult (validate s.xm) s).cfg) (acceptConfig p (showResult (validate s.xm) s))

/-- What is left of an accepted block before the deliveries. -/
structure ConfigMarked (mark : Bool) (p : Params) (s v : State) : Prop where
  cfl : v.cfl = { s.cfl with
    active := p, profileCopy := p.profile, arrangementCopy := p.arrangement
    steerCopy := p.steerSource, guardOn := true, reEnrol := s.cfl.reEnrol || mark }
  priorities : v.atc.priorities = p.priorities
  result : Cls.configResult.isIn v.atc.pending = true
  change : (∃ e ∈ s.pru.entries, e.action ≠ p.action e.kind) → Cls.faultChange.isIn v.atc.pending = true
  tqa : v.tqa = { s.tqa with maxForward := p.maxForward, maxReverse := p.maxReverse, propelCap := p.propelCap }
  pru : v.pru = s.pru.configured p s.cfg.stopMode s.clock
  table : v.rgc.table = p.envelope
  kept : v.clock = s.clock ∧ v.wlc = s.wlc ∧ v.dmc = s.dmc
  shown : s.wlc.placed → v.word 0x0018 = (validate s.xm).1.code ∧ v.word 0x001A = natWord (validate s.xm).2

theorem configMarked_marked (p : Params) (s : State) : ConfigMarked (p.reshapes s.cfg) p s (configMarked p s) := by
  obtain ⟨hcode, hoffset, hraised, -, hrest⟩ := showResult_shows (validate s.xm) s
  have hframe : (showResult (validate s.xm) s).wlc = s.wlc ∧ (showResult (validate s.xm) s).clock = s.clock ∧
    (showResult (validate s.xm) s).cfl = s.cfl ∧ (showResult (validate s.xm) s).pru = s.pru ∧
    (showResult (validate s.xm) s).tqa = s.tqa ∧ (showResult (validate s.xm) s).dmc = s.dmc := by simp
  unfold configMarked
  generalize showResult (validate s.xm) s = u at *
  obtain ⟨hwlc, hclock, hcfl, hpru, htqa, hdmc⟩ := hframe
  have k := acceptConfig_taken p u
  have hcfg : u.cfg = s.cfg := congrArg Cfl.active hcfl
  rw [hcfg]
  generalize acceptConfig p u = w at *
  have hmark := markReEnrol_cfl (p.reshapes s.cfg) w
  have hsame : (markReEnrol (p.reshapes s.cfg) w).atc = w.atc ∧ (markReEnrol (p.reshapes s.cfg) w).xm = w.xm ∧
    (markReEnrol (p.reshapes s.cfg) w).tqa = w.tqa ∧ (markReEnrol (p.reshapes s.cfg) w).pru = w.pru ∧
    (markReEnrol (p.reshapes s.cfg) w).rgc = w.rgc ∧ (markReEnrol (p.reshapes s.cfg) w).clock = w.clock ∧
    (markReEnrol (p.reshapes s.cfg) w).wlc = w.wlc ∧ (markReEnrol (p.reshapes s.cfg) w).dmc = w.dmc := by simp
  generalize markReEnrol (p.reshapes s.cfg) w = v at *
  obtain ⟨h1, h2, h3, h4, h5, h6, h7, h8⟩ := hsame
  refine ⟨?_, ?_, ?_, ?_, ?_, ?_, ?_, ?_, fun hp => ?_⟩
  · rw [hmark, k.cfl, hcfl]
  · rw [h1]
    exact (congrArg Atc.priorities k.atc :)
  · rw [h1]
    exact k.attention _ (by rw [hraised.pending]; simp)
  · rw [h1, ← hpru]
    exact k.change
  · rw [h3, k.tqa, htqa]
  · rw [h4, k.pru, hpru, hclock, hcfg]
  · rw [h5, k.table]
  · rw [h6, h7, h8, k.kept.1, k.kept.2.1, k.kept.2.2.1]
    exact ⟨hclock, hwlc, hdmc⟩
  · have hw : ∀ y, v.word y = w.word y := fun y => by rw [State.word, State.word, h2]
    have hp : u.wlc.placed := hwlc ▸ hp
    rw [hw, hw, k.low.word hp (by omega), k.low.word hp (by omega)]
    exact ⟨hcode, hoffset⟩

/-- What APPLY_CONFIG leaves of a block that passes, after the deliveries. -/
theorem configMarked_settled {mark : Bool} (hp : s.wlc.placed) (k : ConfigMarked mark p s v) :
    (settle v).cfl.firm = v.cfl.firm ∧ (settle v).atc.priorities = p.priorities ∧
      Cls.configResult.isIn (settle v).atc.pending = true ∧ (settle v).rgc.table = p.envelope ∧
      ActionsTaken p s (settle v) ∧ (settle v).wlc.placed ∧
      (settle v).word 0x0018 = (validate s.xm).1.code ∧ (settle v).word 0x001A = natWord (validate s.xm).2 := by
  have h := settle_steady (.refl true v)
  have hcfg : v.cfg = p := (congrArg Cfl.active k.cfl :)
  have hacts := settle_acts (configured_acts k.pru hcfg)
  have hd := settle_delivered v
  have hpv : v.wlc.placed := k.kept.2.1 ▸ hp
  have hbyte : ∀ x, 0x0018 ≤ x ∧ x < 0x001C → (settle v).xm.byte x = v.xm.byte x := fun x hx =>
    h.bytes rfl hpv x (calm_shown hx)
  generalize settle v = t at *
  refine ⟨h.cfl, ?_, h.attention _ k.result, ?_, .of_settled k.pru hcfg k.change h hacts hd, h.placed hpv, ?_, ?_⟩
  · rw [← k.priorities]
    exact (congrArg Atc.priorities h.atc :)
  · rw [← k.table]
    have hlaw := congrArg Rgc.table (h.rgc rfl)
    exact hlaw
  · rw [← (k.shown hp).1]
    exact State.word_congr (hbyte _ (by omega)) (hbyte _ (by omega))
  · rw [← (k.shown hp).2]
    exact State.word_congr (hbyte _ (by omega)) (hbyte _ (by omega))

/-- The PRU's part of an acceptance stays while an order's cell ends. -/
theorem ActionsTaken.endCell (h : ActionsTaken p s t) (cell : BitVec 6) (r : Result) (detail : List Word) :
    ActionsTaken p s (endCell cell r detail t) := by
  have hpru : (Machine.endCell cell r detail t).pru = t.pru := by simp
  refine ⟨?_, ?_, fun k => endCell_attention (h.change k), (delivered_of_pru hpru).trans h.delivered, ?_⟩
  · rw [hpru]
    exact h.acts
  · rw [hpru]
    exact h.kept
  · rw [hpru]
    exact h.filter

end

/-- Settles O30. -/
theorem configurationApplied : Obligations.ConfigurationApplied := by
  unfold Obligations.ConfigurationApplied
  rintro cell s p mark hs hp hm ho rfl hmark
  have hexec := exec_applyConfig (cell := cell) hs hm ho
  refine ⟨fun h => ?_, fun h => ?_⟩
  · rw [if_neg h] at hexec
    obtain ⟨t, rfl, k⟩ := applyConfig_refused (cell := cell) hp
    exact ⟨_, hexec, k⟩
  · rw [if_pos h] at hexec
    have hmark : (Params.ofBlock s.xm).reshapes s.cfg = mark :=
      Bool.eq_iff_iff.2 (reshapes_iff.trans hmark.symm)
    have hcfg : (showResult (validate s.xm) s).cfg = s.cfg := by simp [State.cfg]
    have k := configMarked_marked (Params.ofBlock s.xm) s
    have e : acceptApplied cell (Params.ofBlock s.xm) (showResult (validate s.xm) s) =
        endCell cell .ok [0, 1, boolWord ((Params.ofBlock s.xm).reshapes s.cfg)]
          (settle (configMarked (Params.ofBlock s.xm) s)) := by
      rw [← hcfg]
      rfl
    have hbytes := hostBytesKept _ _ _ hp rfl hexec
    rw [e] at hexec hbytes
    have hzero : (validate s.xm).2 = 0 := ((validate_judged s.xm).1 h).1
    rw [hmark] at k hexec hbytes
    generalize Params.ofBlock s.xm = p at *
    generalize configMarked p s = v at *
    obtain ⟨hcfl, hprio, hresult, htable, hacts, hplaced, hcode, hoffset⟩ := configMarked_settled hp k
    have htqa : (settle v).tqa = v.tqa := by simp
    have hclock : (settle v).clock = v.clock := by simp
    have hcalm : s.delivered = true → (∀ e ∈ s.pru.entries, p.action e.kind = e.action) → settle v = v :=
      fun hd hsame => settle_of_delivered (by
        rw [← hd]
        simp only [State.delivered, State.setsFormed, State.summaryFormed, k.pru, configured_same hsame]
        rfl)
    have hends := endCell_orderEnded cell .ok [0, 1, boolWord mark] (settle v)
    have hsame : ∀ w, (endCell cell .ok [0, 1, boolWord mark] w).cfl = w.cfl ∧
        (endCell cell .ok [0, 1, boolWord mark] w).tqa = w.tqa ∧
        (endCell cell .ok [0, 1, boolWord mark] w).rgc = w.rgc ∧
        (endCell cell .ok [0, 1, boolWord mark] w).dmc = w.dmc ∧
        (endCell cell .ok [0, 1, boolWord mark] w).pru = w.pru ∧
        (endCell cell .ok [0, 1, boolWord mark] w).wlc = w.wlc := fun w => by simp
    obtain ⟨e1, e2, e3, e4, e5, e6⟩ := hsame (settle v)
    have hfirm : (settle v).cfl.firm = { s.cfl with
        active := p, profileCopy := p.profile, arrangementCopy := p.arrangement
        steerCopy := p.steerSource, guardOn := true }.firm := by
      rw [hcfl, k.cfl]
      rfl
    have hdone := hacts.endCell cell .ok [0, 1, boolWord mark]
    refine ⟨_, hexec, ?_, ?_, ?_, ?_, ?_, ?_, ?_, ?_, ?_, endCell_attention hresult, ?_, ?_, ?_, ?_, hbytes,
      hdone, fun hd hall => ?_⟩
    · rw [e1]
      exact (congrArg Cfl.active hfirm :)
    · rw [e1]
      exact (congrArg Cfl.guardOn hfirm :)
    · rw [e1]
      exact (congrArg Cfl.profileCopy hfirm :)
    · rw [e1]
      exact (congrArg Cfl.arrangementCopy hfirm :)
    · rw [e1]
      exact (congrArg Cfl.steerCopy hfirm :)
    · rw [e1]
      exact (congrArg Cfl.armed hfirm :)
    · rw [endCell_header hplaced (by omega), hcode, h]
      rfl
    · rw [endCell_header hplaced (by omega), hoffset, hzero]
      rfl
    · rw [← k.kept.1, ← hclock]
      exact hends.ended
    · rw [hends.raised.pending]
      simp
    · rw [← hprio]
      exact (congrArg Atc.priorities hends.raised.rest :)
    · rw [e2, htqa, k.tqa]
    · rw [e3, htable]
    · rw [e1, e4, e5, e6, hcalm hd hall, k.cfl, k.pru, configured_same hall]
      exact ⟨k.kept.2.2, rfl, rfl, rfl, k.kept.2.1⟩

end Sys2Proof.Machine
end

section
/-! The fields of a block against the table of section 2.2: what each resolves to (R24), and when a validation
accepts them all (R25). -/

namespace Sys2Proof.Machine

section
variable {m : Memory} {f : Field} {p : Params}

/-! ### What a field resolves to (R24) -/

/-- The place of a 16-bit field with a default: its offset and the default. -/
def Field.wordKey (f : Field) : Option (Nat × Nat) := if f.wide then none else f.default.map fun d => (f.offset, d)

/-- The places of all 16-bit fields with a default. -/
def wordKeys : List (Nat × Nat) := fields.filterMap Field.wordKey

theorem Field.value_word {o d : Nat} (h : f.wordKey = some (o, d)) : f.value m = resolved m o d := by
  unfold Field.wordKey at h
  split at h
  · cases h
  · obtain ⟨e, he, heq⟩ := Option.map_eq_some_iff.1 h
    obtain ⟨rfl, rfl⟩ := Prod.mk.injEq _ _ _ _ ▸ heq
    have hw : f.wide = false := by simpa using ‹¬f.wide = true›
    unfold Field.value resolved Field.raw Field.blank
    rw [he, hw]
    simp only [Bool.false_eq_true, if_false, blockBase]
    have hne : (m.word (0x0200 + f.offset)).toNat = 65535 ↔ m.word (0x0200 + f.offset) = 0xFFFF :=
      ⟨fun h => BitVec.eq_of_toNat_eq h, fun h => by rw [h]; rfl⟩
    simp only [hne]

theorem valueAt_word {o d : Nat} (h : (o, d) ∈ wordKeys) : valueAt m o = resolved m o d := by
  obtain ⟨f, hf, hkey⟩ := List.mem_filterMap.1 h
  have hoff : f.offset = o := by
    unfold Field.wordKey at hkey
    split at hkey
    · cases hkey
    · obtain ⟨e, -, heq⟩ := Option.map_eq_some_iff.1 hkey
      exact congrArg Prod.fst heq
  rw [← Field.value_word hkey, ← hoff]
  exact valueAt_of_mem hf

/-- The places of the rows of section 2.2. -/
def rowKey (r : Nat × Nat × Nat × Nat × Nat) : Nat × Nat := (r.1, r.2.2.1)

set_option maxRecDepth 20000 in
theorem rows_placed : ∀ k ∈ (blockRows .default).map rowKey, k ∈ wordKeys := by decide

theorem rows_keys (p : Params) : (blockRows p).map rowKey = (blockRows .default).map rowKey := rfl

theorem row_placed {r : Nat × Nat × Nat × Nat × Nat} (hr : r ∈ blockRows p) : (r.1, r.2.2.1) ∈ wordKeys :=
  rows_placed _ (rows_keys p ▸ List.mem_map_of_mem (f := rowKey) hr)

/-- Each row's parameter is the value at its offset. -/
theorem rows_valueAt (m : Memory) : ∀ r ∈ blockRows (Params.ofBlock m), r.2.1 = valueAt m r.1 := by
  simp [blockRows, Params.ofBlock]

set_option maxRecDepth 20000 in
theorem banks_placed : ∀ b, (0x046 + 2 * bankNum b, 4000) ∈ wordKeys := by
  intro b
  cases b <;> decide

set_option maxRecDepth 20000 in
theorem overrides_placed : ∀ i < 21, (0x0A4 + 2 * i, defaultOverrides.getD i 0) ∈ wordKeys := by decide

set_option maxRecDepth 20000 in
theorem priorities_placed : ∀ i < 12, (0x0CE + 2 * i, defaultPriorities.getD i 0) ∈ wordKeys := by decide

theorem bankCapacity_placed (b : Bank) :
    { plain (0x050 + 4 * bankNum b) 50000 2000000 400000 with wide := true } ∈ fields := by
  have h : { plain (0x050 + 4 * bankNum b) 50000 2000000 400000 with wide := true } ∈ fieldsBanks := by
    refine List.mem_append_right _ (List.mem_map.2 ⟨bankNum b - 1, ?_, ?_⟩) <;> cases b <;> decide
  unfold fields
  simp only [List.mem_append, h, true_or, or_true]

theorem valueAt_capacity (m : Memory) (b : Bank) : valueAt m (0x050 + 4 * bankNum b) = resolvedCapacity m b := by
  have h := valueAt_of_mem (m := m) (bankCapacity_placed b)
  refine h.trans ?_
  unfold Field.value resolvedCapacity Field.raw Field.blank
  simp only [plain, blockBase, if_true]
  have h1 : 0x0200 + (0x050 + 4 * bankNum b) = 0x0250 + 4 * bankNum b := by omega
  have h2 : 0x0250 + 4 * bankNum b + 2 = 0x0252 + 4 * bankNum b := by omega
  rw [h1, h2]
  generalize m.word (0x0250 + 4 * bankNum b) = low
  generalize m.word (0x0252 + 4 * bankNum b) = high
  have hlow := low.isLt
  have hhigh := high.isLt
  have e : low.toNat + 65536 * high.toNat = 4294967295 ↔ low = 0xFFFF ∧ high = 0xFFFF := by
    constructor
    · intro k
      exact ⟨BitVec.eq_of_toNat_eq (by simp; omega), BitVec.eq_of_toNat_eq (by simp; omega)⟩
    · rintro ⟨rfl, rfl⟩
      rfl
  simp only [e]

/-- The fields of an envelope entry. -/
def envelopeField (i : Nat) : Field :=
  { offset := 0x100 + 2 * i, low := 30, high := 600, default := none
    row := if i % 8 = 0 then none else some (0x0FE + 2 * i)
    column := if i < 8 then none else some (0x0F0 + 2 * i) }

theorem fieldsEnvelope_eq : fieldsEnvelope = (List.range 48).map envelopeField := rfl

theorem envelope_placed {i : Nat} (hi : i < 48) : envelopeField i ∈ fields := by
  have h : envelopeField i ∈ fieldsEnvelope := List.mem_map_of_mem (List.mem_range.2 hi)
  unfold fields
  simp only [List.mem_append, h, or_true]

theorem valueAt_envelope {i : Nat} (hi : i < 48) : valueAt m (0x100 + 2 * i) = (m.word (0x0300 + 2 * i)).toNat := by
  refine (valueAt_of_mem (envelope_placed hi)).trans ?_
  show (m.word (0x0200 + (0x100 + 2 * i))).toNat = _
  rw [show 0x0200 + (0x100 + 2 * i) = 0x0300 + 2 * i by omega]

/-- The parameters of a block are its fields as R24 resolves them. -/
theorem ofBlock_resolved (m : Memory) : BlockResolved m (Params.ofBlock m) where
  guarded := ⟨rfl, rfl, rfl⟩
  words r hr := (rows_valueAt m r hr).trans (valueAt_word (row_placed hr))
  banks b := ⟨(PerBank_get_ofFn _ b).trans (valueAt_word (banks_placed b)),
    (PerBank_get_ofFn _ b).trans (valueAt_capacity m b)⟩
  overrides := List.map_congr_left fun i hi => valueAt_word (overrides_placed i (List.mem_range.1 hi))
  priorities := List.map_congr_left fun i hi => valueAt_word (priorities_placed i (List.mem_range.1 hi))
  envelope := List.map_congr_left fun _ hi => valueAt_envelope (List.mem_range.1 hi)

/-! ### When a field passes (R25) -/

/-- A field's value lies in its range, with the bounds that other parameters set. -/
structure Field.Legal (m : Memory) (f : Field) : Prop where
  pattern : f.patterns = [] ∨ valueAt m f.offset ∈ f.patterns
  range : f.low ≤ valueAt m f.offset ∧ valueAt m f.offset ≤ f.high
  least : ∀ q ∈ f.least.toList, valueAt m q.1 + q.2 ≤ valueAt m f.offset
  most : ∀ q ∈ f.most.toList, valueAt m f.offset + q.2 ≤ valueAt m q.1
  neighbours : ∀ o ∈ f.row.toList ++ f.column.toList, valueAt m f.offset ≤ valueAt m o
  floor : f.floor ≤ valueAt m f.offset

theorem Field.legal_iff (hf : f ∈ fields) : f.check m = none ↔ f.Legal m := by
  have hv : f.value m = valueAt m f.offset := (valueAt_of_mem hf).symm
  have hb : ¬f.inconsistent m = true ↔ (∀ q ∈ f.least.toList, valueAt m q.1 + q.2 ≤ f.value m) ∧
      (∀ q ∈ f.most.toList, f.value m + q.2 ≤ valueAt m q.1) ∧
      ∀ o ∈ f.row.toList ++ f.column.toList, f.value m ≤ valueAt m o := by
    rw [Field.inconsistent_iff, Field.breaksBound]
    push Not
    exact Iff.rfl
  unfold Field.check
  dsimp only
  constructor
  · intro h
    split at h
    · cases h
    · split at h
      · cases h
      · split at h
        · cases h
        · split at h
          · cases h
          · rename_i h1 h2 h3 h4
            obtain ⟨k1, k2, k3⟩ := hb.1 h3
            rw [hv] at *
            refine ⟨?_, by omega, k1, k2, k3, by omega⟩
            by_cases hp : f.patterns = []
            · exact .inl hp
            · exact .inr (by simpa using not_not.1 fun k => h1 ⟨hp, k⟩)
  · intro h
    have h1 : ¬(f.patterns ≠ [] ∧ ¬f.patterns.contains (f.value m) = true) := by
      rintro ⟨k1, k2⟩
      exact k2 (by simpa [hv] using h.pattern.resolve_left k1)
    have h2 : ¬(f.value m < f.low ∨ f.high < f.value m) := by
      have := h.range
      omega
    have h3 : ¬f.inconsistent m = true := hb.2 ⟨hv ▸ h.least, hv ▸ h.most, hv ▸ h.neighbours⟩
    have h4 : ¬f.value m < f.floor := by
      have := h.floor
      omega
    rw [if_neg h1, if_neg h2, if_neg h3, if_neg h4]

theorem accepted_iff_legal (m : Memory) : (validate m).1 = .accepted ↔ ∀ f ∈ fields, f.Legal m :=
  validate_accepted_iff.trans (forall₂_congr fun _ hf => Field.legal_iff hf)

/-! ### The rows -/

/-- The fields of the rows of section 2.2, in their order. -/
def rowFields : List Field := fieldsTorque.drop 3 ++ (fieldsTraction ++ (fieldsHeat ++ fieldsLoad))

/-- A field that is neither guarded nor an envelope entry, without a floor: its range and the bounds that two
other parameters set. -/
theorem Field.legal_bounds {least most : Option (Nat × Nat)} {o low high d : Nat} :
    Field.Legal m { plain o low high d with least := least, most := most } ↔
      (low ≤ valueAt m o ∧ valueAt m o ≤ high) ∧ (∀ q ∈ least.toList, valueAt m q.1 + q.2 ≤ valueAt m o) ∧
        ∀ q ∈ most.toList, valueAt m o + q.2 ≤ valueAt m q.1 :=
  ⟨fun h => ⟨h.range, h.least, h.most⟩, fun ⟨h1, h2, h3⟩ => ⟨.inl rfl, h1, h2, h3, nofun, Nat.zero_le _⟩⟩

theorem Field.legal_plain {o low high d : Nat} :
    Field.Legal m (plain o low high d) ↔ low ≤ valueAt m o ∧ valueAt m o ≤ high :=
  ⟨fun h => h.range, fun h => ⟨.inl rfl, h, nofun, nofun, nofun, Nat.zero_le _⟩⟩

theorem Field.legal_least {o low high d q k : Nat} :
    Field.Legal m { plain o low high d with least := some (q, k) } ↔
      (low ≤ valueAt m o ∧ valueAt m o ≤ high) ∧ valueAt m q + k ≤ valueAt m o :=
  (Field.legal_bounds (least := some (q, k)) (most := none)).trans (by simp)

theorem Field.legal_most {o low high d q k : Nat} :
    Field.Legal m { plain o low high d with most := some (q, k) } ↔
      (low ≤ valueAt m o ∧ valueAt m o ≤ high) ∧ valueAt m o + k ≤ valueAt m q :=
  (Field.legal_bounds (least := none) (most := some (q, k))).trans (by simp)

theorem Field.legal_both {o low high d q k r j : Nat} :
    Field.Legal m { plain o low high d with least := some (q, k), most := some (r, j) } ↔
      (low ≤ valueAt m o ∧ valueAt m o ≤ high) ∧ valueAt m q + k ≤ valueAt m o ∧ valueAt m o + j ≤ valueAt m r :=
  (Field.legal_bounds (least := some (q, k)) (most := some (r, j))).trans (by simp)

theorem valueAt_le {o d : Nat} (h : (o, d) ∈ wordKeys) (hd : d ≤ 65535) : valueAt m o ≤ 65535 := by
  rw [valueAt_word h, resolved]
  split
  · exact hd
  · have := (m.word (0x0200 + o)).isLt
    omega

set_option maxRecDepth 20000 in
/-- The fields whose greatest value another parameter alone sets. -/
theorem open_placed : ∀ k ∈ [(0x024, 80), (0x042, 1200), (0x07A, 300), (0x080, 1000), (0x090, 40)], k ∈ wordKeys := by
  decide

/-- The rows' legal ranges are those of the fields, where the limit over θ_start is not 0. -/
theorem rows_legal (h : 1 ≤ valueAt m 0x072) :
    List.Forall₂ (fun f r => Field.Legal m f ↔ r.2.2.2.1 ≤ r.2.1 ∧ r.2.1 ≤ r.2.2.2.2) rowFields
      (blockRows (Params.ofBlock m)) := by
  have h024 : valueAt m 0x024 ≤ 65535 := valueAt_le (open_placed (0x024, 80) (by simp)) (by decide)
  have h042 : valueAt m 0x042 ≤ 65535 := valueAt_le (open_placed (0x042, 1200) (by simp)) (by decide)
  have h07A : valueAt m 0x07A ≤ 65535 := valueAt_le (open_placed (0x07A, 300) (by simp)) (by decide)
  have h080 : valueAt m 0x080 ≤ 65535 := valueAt_le (open_placed (0x080, 1000) (by simp)) (by decide)
  have h090 : valueAt m 0x090 ≤ 65535 := valueAt_le (open_placed (0x090, 40) (by simp)) (by decide)
  simp only [rowFields, fieldsTorque, fieldsTraction, fieldsHeat, fieldsLoad, List.drop_succ_cons, List.drop_zero,
    blockRows, List.cons_append, List.nil_append, List.forall₂_cons, List.Forall₂.nil, and_true, Params.ofBlock,
    Field.legal_plain, Field.legal_least, Field.legal_most, Field.legal_both, true_and]
  refine ⟨?_, ?_, ?_, ?_, ?_, ?_, ?_, ?_, ?_, ?_⟩ <;> omega

theorem forall_of_forall₂ {α β : Type} {P : α → Prop} {Q : β → Prop} {l : List α} {r : List β}
    (h : List.Forall₂ (fun a b => P a ↔ Q b) l r) : (∀ a ∈ l, P a) ↔ ∀ b ∈ r, Q b := by
  induction h with
  | nil => simp
  | cons hab _ ih => simp only [List.forall_mem_cons, hab, ih]

theorem rows_legal_iff (h : 1 ≤ valueAt m 0x072) : (∀ f ∈ rowFields, f.Legal m) ↔
    ∀ r ∈ blockRows (Params.ofBlock m), r.2.2.2.1 ≤ r.2.1 ∧ r.2.1 ≤ r.2.2.2.2 := forall_of_forall₂ (rows_legal h)

/-- θ_trip is not 0 where its field passes, and where its row does. -/
theorem thetaTrip_of_fields (h : ∀ f ∈ rowFields, f.Legal m) : 1 ≤ valueAt m 0x072 := by
  have k := h { plain 0x072 0 1000 700 with least := some (0x070, 1) } (by
    simp only [rowFields, fieldsHeat, List.mem_append, List.mem_cons, true_or, or_true])
  have := (Field.legal_least.1 k).2
  omega

theorem thetaTrip_of_rows (h : ∀ r ∈ blockRows (Params.ofBlock m), r.2.2.2.1 ≤ r.2.1 ∧ r.2.1 ≤ r.2.2.2.2) :
    1 ≤ valueAt m 0x072 := by
  have k := h (0x072, (Params.ofBlock m).thetaTrip, 700, (Params.ofBlock m).thetaOn + 1, 1000) (by
    simp only [blockRows, List.mem_append, List.mem_cons, true_or, or_true])
  exact le_trans (Nat.le_add_left 1 _) k.1

theorem words_legal_iff : (∀ f ∈ rowFields, f.Legal m) ↔
    ∀ r ∈ blockRows (Params.ofBlock m), r.2.2.2.1 ≤ r.2.1 ∧ r.2.1 ≤ r.2.2.2.2 :=
  ⟨fun h => (rows_legal_iff (thetaTrip_of_fields h)).1 h, fun h => (rows_legal_iff (thetaTrip_of_rows h)).2 h⟩

/-! ### The guarded words, the banks, the lists -/

theorem guarded_legal_iff {o a b : Nat} (hf : guardedField o a b ∈ fields) (ha : a < 65536) (hb : b < 65536) :
    Field.Legal m (guardedField o a b) ↔
      m.word (0x0200 + o) = BitVec.ofNat 16 a ∨ m.word (0x0200 + o) = BitVec.ofNat 16 b := by
  have hv : valueAt m o = (m.word (0x0200 + o)).toNat := valueAt_of_mem hf
  have heq : ∀ n < 65536, (m.word (0x0200 + o) = BitVec.ofNat 16 n ↔ valueAt m o = n) := fun n hn => by
    rw [hv, ← BitVec.toNat_inj, BitVec.toNat_ofNat, Nat.mod_eq_of_lt hn]
  rw [heq a ha, heq b hb]
  constructor
  · intro h
    simpa [guardedField] using h.pattern
  · intro h
    refine ⟨.inr (by simpa [guardedField] using h), ⟨Nat.zero_le _, ?_⟩, nofun, nofun, nofun, Nat.zero_le _⟩
    show valueAt m o ≤ 65535
    omega

/-- The guarded words' fields. -/
def guardedFields : List Field :=
  [guardedField 0x000 0x5A5A 0xA5A5, guardedField 0x002 0x2E2E 0x4E4E, guardedField 0x004 0x5C5C 0xC5C5]

theorem guards_legal_iff : (∀ f ∈ guardedFields, f.Legal m) ↔
    ((Params.ofBlock m).profile = 0x5A5A ∨ (Params.ofBlock m).profile = 0xA5A5) ∧
      ((Params.ofBlock m).arrangement = 0x2E2E ∨ (Params.ofBlock m).arrangement = 0x4E4E) ∧
      ((Params.ofBlock m).steerSource = 0x5C5C ∨ (Params.ofBlock m).steerSource = 0xC5C5) := by
  have hf : ∀ f ∈ guardedFields, f ∈ fields := fun f hf => by
    unfold fields
    exact List.mem_append_left _ (List.mem_of_mem_take (i := 3) hf)
  simp only [guardedFields, List.forall_mem_cons] at hf ⊢
  obtain ⟨h1, h2, h3, -⟩ := hf
  rw [guarded_legal_iff h1 (by decide) (by decide), guarded_legal_iff h2 (by decide) (by decide),
    guarded_legal_iff h3 (by decide) (by decide)]
  simp only [List.not_mem_nil, false_imp_iff, implies_true, and_true]
  exact Iff.rfl

theorem forall_banks {P : Nat → Prop} : (∀ i ∈ List.range 6, P i) ↔ ∀ b, P (bankNum b - 1) := by
  constructor
  · intro h b
    exact h _ (by cases b <;> decide)
  · intro h i hi
    have hi := List.mem_range.1 hi
    interval_cases i
    exacts [h .b1, h .b2, h .b3, h .b4, h .b5, h .b6]

theorem banks_legal_iff : (∀ f ∈ fieldsBanks, f.Legal m) ↔
    ∀ b, 500 ≤ (Params.ofBlock m).resistance.get b ∧ (Params.ofBlock m).resistance.get b ≤ 20000 ∧
      50000 ≤ (Params.ofBlock m).capacity.get b ∧ (Params.ofBlock m).capacity.get b ≤ 2000000 := by
  have hr : ∀ b, (Params.ofBlock m).resistance.get b = valueAt m (0x048 + 2 * (bankNum b - 1)) := fun b =>
    (PerBank_get_ofFn _ b).trans (by cases b <;> rfl)
  have hc : ∀ b, (Params.ofBlock m).capacity.get b = valueAt m (0x054 + 4 * (bankNum b - 1)) := fun b =>
    (PerBank_get_ofFn _ b).trans (by cases b <;> rfl)
  have wide : ∀ o, Field.Legal m { plain o 50000 2000000 400000 with wide := true } ↔
      50000 ≤ valueAt m o ∧ valueAt m o ≤ 2000000 := fun o =>
    ⟨fun h => h.range, fun h => ⟨.inl rfl, h, nofun, nofun, nofun, Nat.zero_le _⟩⟩
  unfold fieldsBanks
  simp only [List.forall_mem_append, List.forall_mem_map, forall_banks, Field.legal_plain, wide, hr, hc]
  exact ⟨fun ⟨h1, h2⟩ b => ⟨(h1 b).1, (h1 b).2, h2 b⟩, fun h => ⟨fun b => ⟨(h b).1, (h b).2.1⟩, fun b => (h b).2.2⟩⟩

theorem getD_map_range {n i : Nat} (g : Nat → Nat) (hi : i < n) : ((List.range n).map g).getD i 0 = g i := by
  rw [List.getD_eq_getElem _ _ (by simpa using hi)]
  simp

theorem actions_legal_iff : (∀ f ∈ fieldsActions, f.Legal m) ↔
    (∀ i < 21, overrideFloors.getD i 0 ≤ (Params.ofBlock m).overrides.getD i 0 ∧
      (Params.ofBlock m).overrides.getD i 0 ≤ 3) ∧
    ∀ i < 12, (Params.ofBlock m).priorities.getD i 0 ≤ 7 := by
  have floored : ∀ o d k, Field.Legal m { plain o 0 3 d with floor := k } ↔ k ≤ valueAt m o ∧ valueAt m o ≤ 3 :=
    fun o d k => ⟨fun h => ⟨h.floor, h.range.2⟩,
      fun h => ⟨.inl rfl, ⟨Nat.zero_le _, h.2⟩, nofun, nofun, nofun, h.1⟩⟩
  unfold fieldsActions
  simp only [List.forall_mem_append, List.forall_mem_map, List.mem_range, floored, Field.legal_plain, Nat.zero_le,
    true_and]
  refine and_congr (forall₂_congr fun i hi => ?_) (forall₂_congr fun i hi => ?_)
  · rw [show (Params.ofBlock m).overrides.getD i 0 = valueAt m (0x0A4 + 2 * i) from getD_map_range _ hi]
  · rw [show (Params.ofBlock m).priorities.getD i 0 = valueAt m (0x0CE + 2 * i) from getD_map_range _ hi]

theorem envelopeCheck_iff {e : Nat → Nat} {i : Nat} : envelopeCheck e i = 0 ↔ (30 ≤ e i ∧ e i ≤ 600) ∧
    (i % 8 ≠ 0 → e i ≤ e (i - 1)) ∧ (8 ≤ i → e i ≤ e (i - 8)) := by
  unfold envelopeCheck
  split
  · exact iff_of_false (by decide) (by omega)
  · split
    · exact iff_of_false (by decide) (by omega)
    · split
      · exact iff_of_false (by decide) (by omega)
      · exact iff_of_true rfl (by omega)

theorem envelope_legal_iff : (∀ f ∈ fieldsEnvelope, f.Legal m) ↔
    ∀ i < 48, envelopeCheck (fun j => (Params.ofBlock m).envelope.getD j 0) i = 0 := by
  rw [fieldsEnvelope_eq]
  simp only [List.forall_mem_map, List.mem_range, envelopeCheck_iff]
  refine forall₂_congr fun i hi => ?_
  have e : ∀ j < 48, (Params.ofBlock m).envelope.getD j 0 = valueAt m (0x100 + 2 * j) := fun j hj =>
    getD_map_range _ hj
  have hrow : i % 8 ≠ 0 → 0x100 + 2 * (i - 1) = 0x0FE + 2 * i := by omega
  have hcolumn : 8 ≤ i → 0x100 + 2 * (i - 8) = 0x0F0 + 2 * i := by omega
  rw [e i hi, e (i - 1) (by omega), e (i - 8) (by omega)]
  constructor
  · intro h
    refine ⟨h.range, fun k => ?_, fun k => ?_⟩
    · rw [hrow k]
      exact h.neighbours _ (by simp [envelopeField, k])
    · rw [hcolumn k]
      exact h.neighbours _ (by simp [envelopeField, k])
  · rintro ⟨h1, h2, h3⟩
    refine ⟨.inl rfl, h1, nofun, nofun, fun o ho => ?_, Nat.zero_le _⟩
    show valueAt m (0x100 + 2 * i) ≤ _
    rcases List.mem_append.1 ho with ho | ho
    · by_cases k : i % 8 = 0
      · simp [envelopeField, k] at ho
      · rw [hrow k] at h2
        obtain rfl : o = 0x0FE + 2 * i := by simpa [envelopeField, k] using ho
        exact h2 k
    · by_cases k : i < 8
      · simp [envelopeField, k] at ho
      · rw [hcolumn (by omega)] at h3
        obtain rfl : o = 0x0F0 + 2 * i := by simpa [envelopeField, k] using ho
        exact h3 (by omega)

theorem fields_legal_iff : (∀ f ∈ fields, f.Legal m) ↔
    (∀ f ∈ guardedFields, f.Legal m) ∧ (∀ f ∈ rowFields, f.Legal m) ∧ (∀ f ∈ fieldsBanks, f.Legal m) ∧
      (∀ f ∈ fieldsActions, f.Legal m) ∧ ∀ f ∈ fieldsEnvelope, f.Legal m := by
  have e : fieldsTorque = guardedFields ++ fieldsTorque.drop 3 := rfl
  rw [fields, rowFields]
  conv_lhs => rw [e]
  simp only [List.forall_mem_append]
  tauto

/-- A validation accepts a block when each parameter lies in its range (R25). -/
theorem accepted_iff (m : Memory) : (validate m).1 = .accepted ↔ BlockLegal (Params.ofBlock m) := by
  rw [accepted_iff_legal, fields_legal_iff, guards_legal_iff, words_legal_iff, banks_legal_iff, actions_legal_iff,
    envelope_legal_iff]
  exact ⟨fun ⟨h1, h2, h3, ⟨h4, h5⟩, h6⟩ => ⟨h1, h2, h3, h4, h5, h6⟩,
    fun h => ⟨h.guarded, h.words, h.banks, ⟨h.overrides, h.priorities⟩, h.envelope⟩⟩

end
end Sys2Proof.Machine
end

section
/-! An accepted configuration in LOAD (R26, R27): what the phase ENROLL brings (R32, R42), and what the deliveries
in STARTING leave of the grid (R123, R131, R133). -/

namespace Sys2Proof.Machine

section
variable {a s t u v w : State} {p : Params}

/-! ### The rotation order and the blower channel under a change of the bank set -/

/-- The rotation order and the blower channel stay. -/
structure LineKept (a s : State) : Prop where
  rotation : s.rgc.rotation = a.rgc.rotation
  blower : s.rgc.blower = a.rgc.blower

theorem LineKept.refl (s : State) : LineKept s s := ⟨rfl, rfl⟩

theorem LineKept.trans (h : LineKept a s) (k : LineKept s t) : LineKept a t :=
  ⟨k.rotation.trans h.rotation, k.blower.trans h.blower⟩

theorem LineKept.of_rgc (h : LineKept a s) (e : t.rgc = s.rgc) : LineKept a t :=
  ⟨by rw [e, h.rotation], by rw [e, h.blower]⟩

theorem LineKept.moves {on : Bank → Bool} (h : LineKept a s) (k : ChansMove on s t) : LineKept a t :=
  h.trans ⟨by rw [k.rgc], by rw [k.rgc]⟩

theorem showTest_line (b : Bank) (f : BankShow → BankShow) (s : State) : LineKept s (showTest b f s) :=
  ⟨by rw [showTest_rgc], by rw [showTest_rgc]⟩

theorem setTest_line (g : Option GridTest) (s : State) : LineKept s (setTest g s) := ⟨rfl, rfl⟩

theorem nextBank_line (s : State) : LineKept s (nextBank s) := by
  cases ht : s.rgc.test with
  | none =>
    simp only [nextBank, ht]
    exact .refl s
  | some g =>
    cases hw : g.waiting with
    | nil =>
      rw [nextBank_none ht hw]
      exact ((setTest_line none s).moves (judgeChannels_moves _)).of_rgc (by simp)
    | cons d rest =>
      have k : LineKept s (s.nextShown g d rest) := ⟨by rw [nextShown_rgc], by rw [nextShown_rgc]⟩
      rw [nextBank_some ht hw]
      exact k.moves (judgeChannel_moves d _)

theorem skipWaiting_line (b : Bank) (s : State) : LineKept s (skipWaiting b s) := by
  unfold skipWaiting
  cases s.rgc.test with
  | none => exact .refl s
  | some g =>
    dsimp only
    split
    · exact (setTest_line _ s).trans (showTest_line b _ _)
    · exact .refl s

theorem skipCurrent_line (s : State) : LineKept s (skipCurrent s) := by
  unfold skipCurrent
  cases s.rgc.test with
  | none => exact .refl s
  | some g =>
    dsimp only
    cases g.current with
    | none => exact .refl s
    | some b =>
      dsimp only
      split
      · exact (((setTest_line _ s).trans (showTest_line b _ _)).moves (judgeChannel_moves b _)).trans (nextBank_line _)
      · exact .refl s

theorem skipAdded_line (before : PerBank Bool) (b : Bank) (s : State) : LineKept s (skipAdded before b s) := by
  unfold skipAdded
  split
  · exact skipWaiting_line b s
  · exact .refl s

theorem followBanks_serves (before : PerBank Bool) (s : State) :
    (followBanks before s).rgc.rotation = s.sortedBanks ∧ (followBanks before s).rgc.blower = s.rgc.blower ∧
      ∀ b, ((followBanks before s).rgc.chans.get b).state = (followBanks before s).chanState b := by
  have k2 := forBanks_steps (P := LineKept) LineKept.trans (skipAdded_line before) (sortRotation s)
  have k := k2.trans (skipCurrent_line (forBanks (skipAdded before) (sortRotation s)))
  rw [followBanks_eq]
  generalize skipCurrent (forBanks (skipAdded before) (sortRotation s)) = u at k
  have hm := judgeChannels_moves u
  have hline := k.moves hm
  exact ⟨hline.rotation, hline.blower, fun b => (judgeChannels_state b u).trans (hm.chanState b).symm⟩

/-! ### The deliveries in STARTING and in TRIPPED -/

theorem State.gridServed.congr (h : s.gridServed) (hrgc : t.rgc = s.rgc) (hcfl : t.cfl.firm = s.cfl.firm)
    (hlmu : t.lmu.firm = s.lmu.firm) (hbank : t.pru.bankEx = s.pru.bankEx) (hdmc : t.dmc.mode = s.dmc.mode) :
    t.gridServed := by
  have hcfg : t.cfg = s.cfg := (congrArg Cfl.active hcfl :)
  have hguard : t.cfl.guardOn = s.cfl.guardOn := (congrArg Cfl.guardOn hcfl :)
  have hheat : t.lmu.heat = s.lmu.heat := (congrArg Lmu.heat hlmu :)
  have hderates : t.lmu.derates = s.lmu.derates := (congrArg Lmu.derates hlmu :)
  refine ⟨?_, ?_, fun b => ?_⟩
  · rw [hrgc, sortedBanks_congr hcfg hguard hheat hbank]
    exact h.rotation
  · unfold State.capacityFormed
    rw [hrgc, gridCapacity_congr hcfg hderates hbank]
    exact h.capacity
  · rw [hrgc, h.chans b]
    have hrun : t.channelsRun = s.channelsRun := by rw [State.channelsRun, State.channelsRun, hdmc, hrgc]
    have hcurrent : t.testCurrent b = s.testCurrent b := by rw [State.testCurrent, State.testCurrent, hrgc]
    have hdone : t.testDone b = s.testDone b := by rw [State.testDone, State.testDone, hrgc]
    rw [State.chanState, State.chanState, hguard, hcfg, hbank, hrun, hcurrent, hdone]

theorem observeEscalation_kept (s : State) : (observeEscalation s).rgc = s.rgc ∧ (observeEscalation s).cfl = s.cfl ∧
    (observeEscalation s).lmu = s.lmu ∧ (observeEscalation s).pru.bankEx = s.pru.bankEx ∧
    (observeEscalation s).dmc = s.dmc :=
  ⟨by simp, by simp, by simp, (observeEscalation_sets (.refl s)).banks, by simp⟩

/-- An exclusion change at the RGC serves the grid by the new bank set (R124). -/
theorem rgcExclusion_serves (before : PerBank Bool) (h : s.pru.bankEx = before → s.gridServed) :
    (rgcExclusion before s).gridServed := by
  unfold rgcExclusion
  split
  · have k := h ‹_›
    exact ⟨k.rotation, recomputeCapacity_formed s, k.chans⟩
  · obtain ⟨h1, -, h2⟩ := followBanks_serves before s
    have hkept : (followBanks before s).cfl = s.cfl ∧ (followBanks before s).pru = s.pru ∧
      (followBanks before s).lmu = s.lmu := by simp
    generalize followBanks before s = u at *
    refine ⟨?_, recomputeCapacity_formed u, h2⟩
    have e : (recomputeCapacity u).sortedBanks = s.sortedBanks :=
      sortedBanks_congr (congrArg Cfl.active hkept.1) (congrArg Cfl.guardOn hkept.1) (congrArg Lmu.heat hkept.2.2) (congrArg Pru.bankEx hkept.2.1)
    rw [e]
    exact h1

theorem deliverSets_serves (h : s.gridServed) : (deliverSets s).gridServed := by
  have hpru := setsTaken_pru s
  have hkept : (setsTaken s).rgc = s.rgc ∧ (setsTaken s).cfl = s.cfl ∧ (setsTaken s).lmu = s.lmu ∧
    (setsTaken s).dmc = s.dmc := by simp [setsTaken]
  have hx : (setsHeeded s).gridServed := by
    unfold setsHeeded
    generalize setsTaken s = u at *
    have same : u.pru.bankEx = s.pru.bankEx → u.gridServed := fun hb =>
      h.congr hkept.1 (congrArg Cfl.firm hkept.2.1) (congrArg Lmu.firm hkept.2.2.1) hb (congrArg Dmc.mode hkept.2.2.2)
    split
    · exact same (‹_ ∧ _›).2
    · have hsets := (tcuExclusion_fades s.pru.wheelEx u).sets.2
      have hk : (tcuExclusion s.pru.wheelEx u).rgc = u.rgc ∧ (tcuExclusion s.pru.wheelEx u).cfl = u.cfl ∧
        (tcuExclusion s.pru.wheelEx u).lmu = u.lmu ∧ (tcuExclusion s.pru.wheelEx u).dmc = u.dmc := by simp
      generalize tcuExclusion s.pru.wheelEx u = w at *
      exact rgcExclusion_serves _ fun hb => (same (hsets ▸ hb)).congr hk.1 (congrArg Cfl.firm hk.2.1) (congrArg Lmu.firm hk.2.2.1) hsets
        (congrArg Dmc.mode hk.2.2.2)
  obtain ⟨h1, h2, h3, h4, h5⟩ := observeEscalation_kept (setsHeeded s)
  rw [deliverSets_eq]
  exact hx.congr h1 (congrArg Cfl.firm h2) (congrArg Lmu.firm h3) h4 (congrArg Dmc.mode h5)

theorem announceSummary_kept (s : State) : (announceSummary s).rgc = s.rgc ∧ (announceSummary s).cfl = s.cfl ∧
    (announceSummary s).lmu = s.lmu ∧ (announceSummary s).pru = s.pru ∧ (announceSummary s).dmc = s.dmc := by
  simp

theorem deliver_serves (hm : s.dmc.mode.deaf) (h : s.gridServed) : (deliver s).gridServed := by
  unfold deliver
  split
  · split
    · exact h
    · have e : deliverSummary s = severityChange (announceSummary (summaryFormedOf s)) := rfl
      have hkept : (summaryFormedOf s).rgc = s.rgc ∧ (summaryFormedOf s).cfl = s.cfl ∧
        (summaryFormedOf s).lmu = s.lmu ∧ (summaryFormedOf s).dmc = s.dmc := by simp [summaryFormedOf]
      have hk := announceSummary_kept (summaryFormedOf s)
      have hpru := summaryFormedOf_pru s
      rw [e]
      generalize summaryFormedOf s = u at *
      generalize announceSummary u = w at *
      have hdmc : w.dmc = s.dmc := hk.2.2.2.2.trans hkept.2.2.2
      rw [severityChange_deaf (by rw [hdmc]; exact hm)]
      exact h.congr (hk.1.trans hkept.1) (congrArg Cfl.firm (hk.2.1.trans hkept.2.1))
        (congrArg Lmu.firm (hk.2.2.1.trans hkept.2.2.1)) (congrArg Pru.bankEx hpru :) (congrArg Dmc.mode hdmc)
  · exact deliverSets_serves h

/-- In STARTING and in TRIPPED the deliveries keep the grid served by the table. -/
theorem settle_serves (hm : s.dmc.mode.deaf) (h : s.gridServed) : (settle s).gridServed := by
  refine (settle_of_deliver (P := fun t => t.dmc.mode.deaf ∧ t.gridServed) (fun t ⟨k1, k2⟩ => ⟨?_, deliver_serves k1 k2⟩)
    ⟨hm, h⟩).2
  rw [(deliver_unheard k1 (.refl t)).dmc]
  exact k1

theorem deliverSets_blower (s : State) : (deliverSets s).rgc.blower = s.rgc.blower := by
  have hkept : (setsTaken s).rgc = s.rgc := by simp [setsTaken]
  have hx : (setsHeeded s).rgc.blower = (setsTaken s).rgc.blower := by
    unfold setsHeeded
    generalize setsTaken s = u
    split
    · rfl
    · have hk : (tcuExclusion s.pru.wheelEx u).rgc = u.rgc := by simp
      generalize tcuExclusion s.pru.wheelEx u = w at *
      rw [← hk]
      have e : ∀ x : State, (recomputeCapacity x).rgc.blower = x.rgc.blower := fun _ => rfl
      unfold rgcExclusion
      rw [e]
      split
      · rfl
      · exact (followBanks_serves _ w).2.1
  rw [deliverSets_eq, (observeEscalation_kept _).1, hx, hkept]

theorem deliver_blower (hm : s.dmc.mode.deaf) : (deliver s).rgc.blower = s.rgc.blower := by
  unfold deliver
  split
  · split
    · rfl
    · have e : deliverSummary s = severityChange (announceSummary (summaryFormedOf s)) := rfl
      have hkept : (summaryFormedOf s).rgc = s.rgc ∧ (summaryFormedOf s).dmc = s.dmc := by simp [summaryFormedOf]
      have hk := announceSummary_kept (summaryFormedOf s)
      rw [e]
      generalize announceSummary (summaryFormedOf s) = w at *
      rw [severityChange_deaf (by rw [hk.2.2.2.2, hkept.2]; exact hm), hk.1, hkept.1]
  · exact deliverSets_blower s

theorem settle_blower (hm : s.dmc.mode.deaf) : (settle s).rgc.blower = s.rgc.blower := by
  refine (settle_of_deliver (P := fun t => t.dmc.mode.deaf ∧ t.rgc.blower = s.rgc.blower)
    (fun t ⟨k1, k2⟩ => ⟨?_, (deliver_blower k1).trans k2⟩) ⟨hm, rfl⟩).2
  rw [(deliver_unheard k1 (.refl t)).dmc]
  exact k1

/-! ### ENROLL as it is entered from LOAD -/

/-- ENROLL with the blower channel, after an accepted block. -/
def enrolled (s : State) : State := startBlower (startRollCall s.enrolling)

theorem startBlower_rgc (h : s.cfl.phase = .enroll) :
    (startBlower s).rgc = { s.rgc with blower := (startBlower s).rgc.blower } ∧ (startBlower s).rgc.blower.state = .run := by
  unfold startBlower
  rw [if_neg (by simp [h])]
  split
  · exact ⟨rfl, ‹_›⟩
  · exact ⟨rfl, rfl⟩

theorem startBlower_steady {full : Bool} (h : Steady full a s) : Steady full a (startBlower s) := by
  unfold startBlower
  split
  · exact h
  · split
    · exact h
    · exact setRgc_steady h fun _ => rfl

theorem startBlower_acts (h : s.acts) : (startBlower s).acts := acts_congr (by simp) (by simp [State.cfg]) h

/-- What ENROLL leaves of the state before it. -/
structure Enrolled (s t : State) : Prop where
  dmc : t.dmc = s.dmc
  cfl : t.cfl = { s.cfl with phase := .enroll, reEnrol := false, settleEnd := none }
  tqa : t.tqa = s.tqa
  rollCall : RollCallAsked s t
  blower : t.rgc.blower.state = .run
  served : s.gridServed → t.gridServed
  acts : s.acts → t.acts
  steady : Steady true s t
  low : LowKept false none s t

theorem enrolled_entered (s : State) : Enrolled s (enrolled s) := by
  have hx : Steady true s s.enrolling := setCfl_steady (.refl true s) rfl
  have hacts := startRollCall_fades s.enrolling
  have hasked := startRollCall_asked s.enrolling
  have hlow := startRollCall_low (.refl false s.enrolling)
  have hsteady := startRollCall_steady hx
  have hkept : (startRollCall s.enrolling).dmc = s.dmc ∧ (startRollCall s.enrolling).cfl = s.enrolling.cfl ∧
    (startRollCall s.enrolling).tqa = s.tqa ∧ (startRollCall s.enrolling).rgc = s.rgc ∧
    (startRollCall s.enrolling).lmu = s.lmu := by
    simp [State.enrolling]
  have hcfl : s.enrolling.cfl = { s.cfl with phase := .enroll, reEnrol := false, settleEnd := none } := rfl
  have hcfg : s.enrolling.cfg = s.cfg := rfl
  have hpru : s.enrolling.pru = s.pru := rfl
  have hwlc : s.enrolling.wlc = s.wlc := rfl
  have hlow0 : LowKept false none s s.enrolling := (LowKept.refl false s).of_xm rfl id rfl
  unfold enrolled
  generalize s.enrolling = x at *
  generalize startRollCall x = y at *
  obtain ⟨h1, h2, h3, h4, h5⟩ := hkept
  obtain ⟨hrgc, hrun⟩ := startBlower_rgc (s := y) (by rw [h2, hcfl])
  have hsame : (startBlower y).dmc = y.dmc ∧ (startBlower y).cfl = y.cfl ∧ (startBlower y).tqa = y.tqa ∧
    (startBlower y).wlc = y.wlc ∧ (startBlower y).pru = y.pru ∧ (startBlower y).lmu = y.lmu ∧
    (startBlower y).xm = y.xm ∧ (startBlower y).ore = y.ore := by simp
  have hz := startBlower_steady hsteady
  have hza := startBlower_acts (s := y)
  generalize startBlower y = z at *
  obtain ⟨e1, e2, e3, e4, e5, e6, e7, e8⟩ := hsame
  refine ⟨e1.trans h1, e2.trans (h2.trans hcfl), e3.trans h3, ?_, hrun, fun k => ?_, fun k => ?_, hz, ?_⟩
  · have r := hasked.congr hwlc hcfg
    exact ⟨by rw [e4]; exact r.roundsOn, by rw [e4]; exact r.order, by rw [e4]; exact r.begun, by rw [e4]; exact r.waits⟩
  · have hy : y.gridServed := k.congr h4 (by rw [h2, hcfl]; rfl) (congrArg Lmu.firm h5)
      (hacts.sets.2.trans (congrArg Pru.bankEx hpru)) (congrArg Dmc.mode h1)
    have hv : ({ y with rgc := { y.rgc with blower := z.rgc.blower } } : State).gridServed :=
      ⟨hy.rotation, hy.capacity, hy.chans⟩
    exact hv.congr hrgc (congrArg Cfl.firm e2) (congrArg Lmu.firm e6) (congrArg Pru.bankEx e5) (congrArg Dmc.mode e1)
  · exact hza (hacts.acts (acts_congr (congrArg Pru.entries hpru) hcfg k))
  · exact (hlow0.trans hlow).of_xm e7 (fun k => e4 ▸ k) e8

/-! ### The ready mark over an accepted block -/

theorem validateInLoad_accepted (h : (validate s.xm).1 = .accepted) :
    validateInLoad s = enrolled (acceptConfig (Params.ofBlock s.xm) (showResult (validate s.xm) s)) := by
  unfold validateInLoad
  exact if_pos h

/-- What an accepted ready mark leaves, after the deliveries. -/
structure BlockAccepted (p : Params) (s t : State) : Prop where
  cfl : t.cfl = { s.cfl with
    phase := .enroll, guardOn := true, active := p, profileCopy := p.profile
    arrangementCopy := p.arrangement, steerCopy := p.steerSource, reEnrol := false, settleEnd := none }
  dmc : t.dmc = s.dmc
  result : s.wlc.placed → t.word 0x0006 = s.word 0x0006 ∧ t.word 0x0018 = (validate s.xm).1.code ∧
    t.word 0x001A = natWord (validate s.xm).2
  raised : Cls.configResult.isIn t.atc.pending = true
  priorities : t.atc.priorities = p.priorities
  tqa : t.tqa = { s.tqa with maxForward := p.maxForward, maxReverse := p.maxReverse, propelCap := p.propelCap }
  lmu : t.lmu.firm = (s.lmu.configured p s.dmc.demand).firm
  served : t.gridServed
  actions : ActionsTaken p s t
  table : t.rgc.table = p.envelope
  blower : t.rgc.blower.state = .run
  roundsOn : t.wlc.roundsOn = false
  order : t.wlc.order = none
  begun : s.wlc.window = none → t.wlc.rollCallAsked = false ∧
    t.wlc.rollCall = some { todo := allUnits.filter p.unit, tries := 0 }
  waits : s.wlc.window ≠ none → t.wlc.rollCallAsked = true ∧ t.wlc.rollCall = none

theorem enrolled_settled (hm : w.dmc.mode = .starting) (k : Enrolled w v) : Enrolled w (settle v) := by
  have hmode : v.dmc.mode.deaf := .inl (by rw [k.dmc, hm])
  have hu := settle_unheard hmode
  have hserved := settle_serves hmode
  have hblower := settle_blower hmode
  have hacts := settle_acts (s := v)
  have hsteady := settle_steady k.steady
  have htqa : (settle v).tqa = v.tqa := by simp
  generalize settle v = t at *
  refine ⟨hu.dmc.trans k.dmc, hu.cfl.trans k.cfl, htqa.trans k.tqa, ?_, by rw [hblower]; exact k.blower,
    hserved ∘ k.served, hacts ∘ k.acts, hsteady, k.low.trans (hu.low none)⟩
  have r := k.rollCall
  rcases hu.wlc with e | e
  · exact ⟨by rw [e]; exact r.roundsOn, by rw [e]; exact r.order, fun hw => by rw [e]; exact r.begun hw,
      fun hw => by rw [e]; exact r.waits hw⟩
  · exact ⟨by rw [e]; exact r.roundsOn, by rw [e]; exact r.order, fun hw => by rw [e]; exact r.begun hw,
      fun hw => by rw [e]; exact r.waits hw⟩

theorem enrolled_accepted (k : ConfigTaken p u w) (e : Enrolled w t)
    (hd : t.delivered = true) : t.cfl = { u.cfl with
    phase := .enroll, guardOn := true, active := p, profileCopy := p.profile
    arrangementCopy := p.arrangement, steerCopy := p.steerSource, reEnrol := false, settleEnd := none } ∧
    t.dmc = u.dmc ∧ t.gridServed ∧ ActionsTaken p u t ∧ t.lmu.firm = (u.lmu.configured p u.dmc.demand).firm ∧
    t.atc.priorities = p.priorities ∧ t.rgc.table = p.envelope := by
  have hcfg : w.cfg = p := (congrArg Cfl.active k.cfl :)
  refine ⟨?_, e.dmc.trans k.kept.2.2.1, e.served k.served,
    .of_settled k.pru hcfg k.change e.steady (e.acts (configured_acts k.pru hcfg)) hd, ?_, ?_, ?_⟩
  · rw [e.cfl, k.cfl]
  · rw [e.steady.lmu rfl, k.lmu]
  · exact (congrArg Atc.priorities e.steady.atc :).trans (congrArg Atc.priorities k.atc :)
  · exact (congrArg Rgc.table (e.steady.rgc rfl) :).trans k.table

theorem ActionsTaken.congr (h : ActionsTaken p u t) (hpru : u.pru = s.pru) (hclock : u.clock = s.clock)
    (hcfg : u.cfg = s.cfg) : ActionsTaken p s t :=
  ⟨h.acts, by rw [← hpru, ← hclock]; exact h.kept, by rw [← hpru]; exact h.change, h.delivered,
    by rw [← hpru, ← hcfg]; exact h.filter⟩

theorem validateInLoad_settled (hm : s.dmc.mode = .starting) (h : (validate s.xm).1 = .accepted) :
    BlockAccepted (Params.ofBlock s.xm) s (settle (validateInLoad s)) := by
  obtain ⟨hcode, hoffset, hraised, hsame, -⟩ := showResult_shows (validate s.xm) s
  have hframe : (showResult (validate s.xm) s).wlc = s.wlc ∧ (showResult (validate s.xm) s).clock = s.clock ∧
    (showResult (validate s.xm) s).cfl = s.cfl ∧ (showResult (validate s.xm) s).pru = s.pru ∧
    (showResult (validate s.xm) s).tqa = s.tqa ∧ (showResult (validate s.xm) s).dmc = s.dmc ∧
    (showResult (validate s.xm) s).lmu = s.lmu := by simp
  rw [validateInLoad_accepted h]
  generalize Params.ofBlock s.xm = p
  generalize showResult (validate s.xm) s = u at *
  obtain ⟨hwlc, hclock, hcfl, hpru, htqa, hdmc, hlmu⟩ := hframe
  have k := acceptConfig_taken p u
  generalize acceptConfig p u = w at *
  have hwm : w.dmc.mode = .starting := by rw [k.kept.2.2.1, hdmc, hm]
  have e := enrolled_settled hwm (enrolled_entered w)
  have hd := settle_delivered (enrolled w)
  generalize settle (enrolled w) = t at *
  obtain ⟨h1, h2, h3, h4, h5, h6, h7⟩ := enrolled_accepted k e hd
  have hcfg : u.cfg = s.cfg := congrArg Cfl.active hcfl
  have hwcfg : w.cfg = p := (congrArg Cfl.active k.cfl :)
  have r := e.rollCall
  have hwin : w.wlc = s.wlc := k.kept.2.1.trans hwlc
  refine ⟨by rw [h1, hcfl], h2.trans hdmc, fun hp => ?_, ?_, h6, ?_, ?_, h3, h4.congr hpru hclock hcfg, h7, e.blower,
    r.roundsOn, r.order, fun hw => ?_, fun hw => ?_⟩
  · have hp : u.wlc.placed := hwlc ▸ hp
    have hlow := k.low.weaken.trans e.low
    rw [hlow.word hp (by omega), hlow.word hp (by omega), hlow.word hp (by omega)]
    exact ⟨State.word_congr (hsame 6 (by simp [pendingRegion])) (hsame 7 (by simp [pendingRegion])), hcode, hoffset⟩
  · exact e.steady.attention _ (k.attention _ (by rw [hraised.pending]; simp))
  · rw [e.tqa, k.tqa, htqa]
  · rw [h5, hlmu, hdmc]
  · rw [← hwcfg]
    exact r.begun (hwin ▸ hw)
  · exact r.waits (hwin ▸ hw)

theorem configured_heat (l : Lmu) (d : Demand) (b : Bank) : (l.configured p d).heat.get b =
    if l.heatSet then min (l.heat.get b) (p.capacity.get b * 1000)
    else min (p.capacity.get b * 1000)
      ((p.capacity.get b : Int) * ((p.thetaStart : Int) - d.ambient.getD (p.designAmbient : Int))).toNat := by
  unfold Lmu.configured
  split
  · exact PerBank_get_ofFn _ b
  · exact PerBank_get_ofFn _ b

theorem configured_theta (l : Lmu) (d : Demand) (b : Bank) : (l.configured p d).theta.get b =
    if l.heatSet then l.theta.get b
    else 10 * d.ambient.getD (p.designAmbient : Int) +
      ((l.configured p d).heat.get b * 10 / p.capacity.get b : Nat) := by
  unfold Lmu.configured
  split
  · rfl
  · exact PerBank_get_ofFn _ b

theorem configured_set (l : Lmu) (d : Demand) : (l.configured p d).heatSet = true := by
  unfold Lmu.configured
  split
  · assumption
  · rfl

/-- The state of a bank channel in STARTING (R133). -/
theorem chanState_starting (hm : s.dmc.mode = .starting) (hg : s.cfl.guardOn = true) (b : Bank) :
    s.chanState b = if s.cfg.bank b = false then .off
      else if s.pru.bankEx.get b then .blocked
      else if s.rgc.test.bind (fun g => g.current) = some b then .test else .off := by
  have hcurrent : s.testCurrent b = true ↔ s.rgc.test.bind (fun g => g.current) = some b := by
    unfold State.testCurrent
    cases s.rgc.test with
    | none => simp
    | some g => simp
  have hrun : s.channelsRun = false := by simp [State.channelsRun, hm, Mode.working]
  unfold State.chanState
  rw [hg, hrun]
  by_cases hb : s.cfg.bank b = true
  · simp [hb, hcurrent]
  · simp [hb]

end

/-- Settles O16. -/
theorem configurationAccepted : Obligations.ConfigurationAccepted := by
  unfold Obligations.ConfigurationAccepted
  refine ⟨fun m => ⟨ofBlock_resolved m, accepted_iff m⟩, ?_⟩
  rintro s c p hs hp hm hphase harmed hc hacc rfl
  have hexec := exec_readyMark hs hc
  rw [readyMark_validates (s := s.marked 0x3C96) hphase harmed] at hexec
  have k := validateInLoad_settled (s := s.marked 0x3C96) hm hacc
  have hzero := ((validate_judged (s.marked 0x3C96).xm).1 hacc).1
  have hword : (s.marked 0x3C96).word 0x0006 = 0x3C96 := put_word_first _ _ _ _
  have hsame : SameOutside [(0x0006, 2)] s (s.marked 0x3C96) := put_same 0x0006 [0x3C96] s
  have hhost := (settle_keeps (validateInLoad_keeps (.refl false (s.marked 0x3C96)))).host hp
  have hclock : (s.marked 0x3C96).clock = s.clock := rfl
  have hrest : (s.marked 0x3C96).wlc = s.wlc ∧ (s.marked 0x3C96).dmc = s.dmc ∧ (s.marked 0x3C96).cfl = s.cfl ∧
    (s.marked 0x3C96).tqa = s.tqa ∧ (s.marked 0x3C96).lmu = s.lmu ∧ (s.marked 0x3C96).pru = s.pru :=
    ⟨rfl, rfl, rfl, rfl, rfl, rfl⟩
  have hxm : s.xm.store 0x0006 [0x3C96] = (s.marked 0x3C96).xm := rfl
  rw [hxm] at hacc ⊢
  generalize s.marked 0x3C96 = u at *
  obtain ⟨hwlc, hdmc, hcfl, htqa, hlmu, hpru⟩ := hrest
  generalize settle (validateInLoad u) = t at *
  generalize Params.ofBlock u.xm = p at *
  obtain ⟨h1, h2, h3⟩ := k.result (hwlc ▸ hp)
  have hcfg : t.cfg = p := (congrArg Cfl.active k.cfl :)
  have hguard : t.cfl.guardOn = true := (congrArg Cfl.guardOn k.cfl :)
  have hheat : t.lmu.heat = (s.lmu.configured p s.dmc.demand).heat := by
    rw [← hlmu, ← hdmc]
    exact (congrArg Lmu.heat k.lmu :)
  refine ⟨t, hexec, by rw [k.cfl, hcfl], k.dmc.trans hdmc, h1.trans hword, ?_, ?_, k.raised, k.priorities,
    by rw [k.tqa, htqa], ?_, fun b => ?_, fun b => ?_, fun b => ?_, ?_, ?_, fun b => ?_,
    k.actions.congr hpru hclock (congrArg Cfl.active hcfl), k.table, k.blower, k.roundsOn, k.order,
    by rw [← hwlc]; exact k.begun, by rw [← hwlc]; exact k.waits, fun a ha h6 h7 => ?_⟩
  · rw [h2, hacc]
    rfl
  · rw [h3, hzero]
    rfl
  · exact (congrArg Lmu.heatSet k.lmu :).trans (configured_set _ _)
  · rw [hheat, configured_heat]
  · have htheta : t.lmu.theta = (s.lmu.configured p s.dmc.demand).theta := by
      rw [← hlmu, ← hdmc]
      exact (congrArg Lmu.theta k.lmu :)
    rw [htheta, configured_theta, hheat]
  · rw [k.served.rotation, mem_sortedBanks, hcfg]
    simp [hguard]
  · rw [k.served.rotation]
    exact sortedBanks_sorted t
  · rw [k.served.capacity, State.gridCapacity, hcfg]
    unfold State.bankServes
    rw [hcfg]
    rfl
  · rw [k.served.chans b, chanState_starting (by rw [k.dmc, hdmc, hm]) hguard, hcfg]
  · refine (hhost a ha).trans (hsame a fun r hr => ?_)
    obtain rfl := List.mem_singleton.1 hr
    dsimp only
    omega

end Sys2Proof.Machine
end

section
/-! EXTERNAL_STOP (R181, R182): the rows of the filter, the observation at each change of its state, and the two
observations of the escalation, which the deliveries after them keep. -/

namespace Sys2Proof.Machine

section
variable {a s t u v w : State} {level low lone bare : Bool} {k : Kind} {subject : Subject}

/-! ### The rows of R182 -/

theorem sampleLevel_rows (f : StopFilter) (low : Bool) : FilterRow true low f (f.sample true low) where
  last := rfl
  levelLow _ ha hl := by
    subst hl
    simp only [StopFilter.sample, StopFilter.sampleLevel, StopFilter.turnActive, ha, if_true, if_false,
      Bool.false_eq_true, show (3 ≤ f.lowRun + 1) = ¬(f.lowRun < 2) from propext (by omega), ite_not]
    split <;> rfl
  levelHigh _ ha hl := by
    subst hl
    simp only [StopFilter.sample, StopFilter.sampleLevel, StopFilter.turnInactive, ha, if_true, if_false,
      Bool.false_eq_true, show (3 ≤ f.highRun + 1) = ¬(f.highRun < 2) from propext (by omega), ite_not]
    split <;> rfl
  levelIdle _ ha hl := by
    subst hl
    simp [StopFilter.sample, StopFilter.sampleLevel, ha]
  levelHeld _ ha hl := by
    subst hl
    simp [StopFilter.sample, StopFilter.sampleLevel, ha]
  edgeFall h := by cases h
  edgeLow h := by cases h
  edgeHigh h := by cases h
  edgeHeld h := by cases h

theorem sampleEdge_rows (f : StopFilter) (low : Bool) : FilterRow false low f (f.sample false low) where
  last := rfl
  levelLow h := by cases h
  levelHigh h := by cases h
  levelIdle h := by cases h
  levelHeld h := by cases h
  edgeFall _ ha hl hlast := by
    subst hl
    simp [StopFilter.sample, StopFilter.sampleEdge, ha, hlast]
  edgeLow _ ha hl hlast := by
    subst hl
    obtain ⟨last, run, high, active, held⟩ := f
    obtain rfl : active = false := ha
    obtain rfl : last = true := hlast
    by_cases h0 : run = 0
    · simp [StopFilter.sample, StopFilter.sampleEdge, h0]
    · by_cases h2 : run < 2
      · have h3 : ¬3 ≤ run + 1 := by omega
        simp [StopFilter.sample, StopFilter.sampleEdge, h0, h2, h3]
      · have h3 : 3 ≤ run + 1 := by omega
        simp [StopFilter.sample, StopFilter.sampleEdge, StopFilter.turnActive, h0, h2, h3]
  edgeHigh _ ha hl := by
    subst hl
    simp [StopFilter.sample, StopFilter.sampleEdge, ha]
  edgeHeld _ ha := by
    simp [StopFilter.sample, StopFilter.sampleEdge, ha]

theorem sample_rows (f : StopFilter) (level low : Bool) : FilterRow level low f (f.sample level low) := by
  cases level
  · exact sampleEdge_rows f low
  · exact sampleLevel_rows f low

/-! ### The escalation (R181) -/

theorem mode_working_iff {m : Mode} : m.working = true ↔ m = .ready ∨ m = .drive ∨ m = .safeStop := by
  cases m <;> simp [Mode.working]

theorem noTraction_iff : s.noTraction = true ↔ (s.dmc.mode = .ready ∨ s.dmc.mode = .drive ∨ s.dmc.mode = .safeStop) ∧
    ∀ w, s.cfg.wheel w = true → s.pru.lossHeld.get w = true ∨ s.pru.wheelEx.get w = true := by
  simp only [State.noTraction, Bool.and_eq_true, mode_working_iff, wheels_all_iff, Bool.or_eq_true]

theorem banks_all_iff {c : Params} {q : Bank → Bool} : c.banks.all q = true ↔ ∀ b, c.bank b = true → q b = true := by
  simp only [Params.banks, List.all_filter, List.all_eq_true, Bool.or_eq_true, Bool.not_eq_true']
  constructor
  · intro h b hb
    have := h b (by cases b <;> simp [allBanks])
    rw [hb] at this
    simpa using this
  · intro h b _
    cases hb : c.bank b
    · exact .inl rfl
    · exact .inr (h b hb)

theorem noGridLeft_iff : s.noGridLeft = true ↔ s.cfl.guardOn = true ∧
    ∀ b, s.cfg.bank b = true → s.pru.bankEx.get b = true := by
  simp only [State.noGridLeft, Bool.and_eq_true, banks_all_iff]

theorem note_noGridLeft (k : Kind) (subject : Subject) (present : Bool) (s : State) :
    (note k subject present s).noGridLeft = s.noGridLeft := by
  have h1 : (note k subject present s).cfl = s.cfl := by simp
  have h2 : (note k subject present s).pru.bankEx = s.pru.bankEx := by rw [note_pru]
  simp only [State.noGridLeft, State.cfg, h1, h2]

/-- Both observations of the escalation stand in the table after it. -/
theorem observeEscalation_observed (hok : s.pru.ok) :
    (observeEscalation s).pru.observed .noTractionUnits .global s.noTraction ∧
      (observeEscalation s).pru.observed .noGrid .global s.noGridLeft :=
  ⟨note_observed_other (by decide) (note_observed hok _ _ _), note_observed (note_ok hok _ _ _) _ _ _⟩

/-! ### The two kinds in a way back to STARTING -/

/-- The entries of the kinds of the escalation stay. -/
structure EscalationKept (a s : State) : Prop where
  traction : s.pru.entries.filter (fun e => e.kind == .noTractionUnits) =
    a.pru.entries.filter fun e => e.kind == .noTractionUnits
  grid : s.pru.entries.filter (fun e => e.kind == .noGrid) = a.pru.entries.filter fun e => e.kind == .noGrid

theorem EscalationKept.trans (h : EscalationKept a s) (k : EscalationKept s t) : EscalationKept a t :=
  ⟨k.traction.trans h.traction, k.grid.trans h.grid⟩

theorem EscalationKept.of_entries (h : t.pru.entries = s.pru.entries) : EscalationKept s t := ⟨by rw [h], by rw [h]⟩

theorem note_escalation (h1 : k ≠ .noTractionUnits) (h2 : k ≠ .noGrid) (subject : Subject) (present : Bool) (s : State) :
    EscalationKept s (note k subject present s) :=
  ⟨note_others h1.symm subject present s, note_others h2.symm subject present s⟩

theorem reportLoss_escalation (x : UnitId) (present : Bool) (s : State) :
    EscalationKept s (reportLoss x present s) := by
  cases x with
  | sau => exact note_escalation (by decide) (by decide) _ _ _
  | wheel w =>
    have h : EscalationKept s (s.setPru { s.pru with lossHeld := s.pru.lossHeld.set w present }) := .of_entries rfl
    exact h.trans (note_escalation (by decide) (by decide) _ _ _)

theorem takeConfigured_escalation (x : UnitId) (s : State) : EscalationKept s (takeConfigured x s) := by
  unfold takeConfigured
  dsimp only
  split
  · exact .of_entries (by simp)
  · split
    · have h : EscalationKept s (changeUnit x { (s.wlc.unit x).absent with configured := false } s) :=
        .of_entries (by simp)
      generalize changeUnit x { (s.wlc.unit x).absent with configured := false } s = y at h
      have k := reportLoss_escalation x false y
      generalize reportLoss x false y = z at k
      exact (h.trans k).trans (.of_entries (by simp))
    · exact .of_entries rfl

theorem unitsTaken_escalation (s : State) : EscalationKept s (forUnits takeConfigured s) := by
  unfold forUnits forWheels
  exact ((((takeConfigured_escalation _ _).trans (takeConfigured_escalation _ _)).trans
    (takeConfigured_escalation _ _)).trans (takeConfigured_escalation _ _)).trans (takeConfigured_escalation _ _)

theorem beginRollCall_escalation (s : State) : EscalationKept s (beginRollCall s) := by
  have k := unitsTaken_escalation s
  unfold beginRollCall
  generalize forUnits takeConfigured s = y at k
  exact k.trans (.of_entries rfl)

theorem startRollCall_escalation (s : State) : EscalationKept s (startRollCall s) := by
  have hpru : (abortRollCall s).pru = s.pru := by simp
  rw [startRollCall_eq]
  generalize abortRollCall s = y at hpru
  have k : EscalationKept s y.askedRollCall := .of_entries (congrArg Pru.entries hpru)
  unfold takeRollCall
  split
  · exact k.trans (beginRollCall_escalation _)
  · exact k

theorem standbyToStarting_escalation (s : State) : EscalationKept s (standbyToStarting s) := by
  have k : EscalationKept s (startingReached s).enrolling :=
    .of_entries (by simp [State.enrolling, startingReached])
  rw [standbyToStarting_eq]
  exact k.trans (startRollCall_escalation _)

theorem EscalationKept.observed (h : EscalationKept a s) :
    (a.pru.observed .noTractionUnits .global lone → s.pru.observed .noTractionUnits .global lone) ∧
      (a.pru.observed .noGrid .global bare → s.pru.observed .noGrid .global bare) := by
  have only : ∀ k : Kind, s.pru.entries.filter (fun e => e.kind == k) = a.pru.entries.filter (fun e => e.kind == k) →
      s.pru.entries.filter (fun e => e.kind == k && e.subject == .global) =
        a.pru.entries.filter fun e => e.kind == k && e.subject == .global := fun k hk => by
    have := congrArg (List.filter fun e => e.subject == .global) hk
    simpa [List.filter_filter, Bool.and_comm] using this
  exact ⟨observed_of_filter (only _ h.traction), observed_of_filter (only _ h.grid)⟩

/-! ### The deliveries after an escalation -/

/-- The table shows the two observations, and what a delivery would observe again is the same. -/
structure Escalated (lone bare : Bool) (s : State) : Prop where
  ok : s.pru.ok
  traction : s.pru.observed .noTractionUnits .global lone
  grid : s.pru.observed .noGrid .global bare
  left : s.noGridLeft = bare
  banks : s.pru.bankEx = formBankEx s.pru.entries
  awake : lone = true → s.dmc.mode ≠ .standby ∧ s.dmc.mode ≠ .starting
  formed : s.setsFormed = true ∨ s.dmc.mode = .starting

theorem noGridLeft_congr (hcfl : t.cfl.firm = s.cfl.firm) (hbank : t.pru.bankEx = s.pru.bankEx) :
    t.noGridLeft = s.noGridLeft := by
  have hcfg : t.cfg = s.cfg := (congrArg Cfl.active hcfl :)
  have hguard : t.cfl.guardOn = s.cfl.guardOn := (congrArg Cfl.guardOn hcfl :)
  simp only [State.noGridLeft, hcfg, hguard, hbank]

/-- A severity change leaves the PRU, and does not come to STANDBY or STARTING; but from STANDBY it may go back
to STARTING. -/
theorem severityChange_ways (s : State) :
    ((severityChange s).pru = s.pru ∧ ((severityChange s).dmc.mode = s.dmc.mode ∨
      (severityChange s).dmc.mode = .safeStop ∨ (severityChange s).dmc.mode = .tripped)) ∨
    s.dmc.mode = .standby ∧ severityChange s = standbyToStarting s := by
  unfold severityChange
  split
  · rename_i _ hm
    exact .inl ⟨by simp, .inr (.inl (enterSafeStop_entered (s := s) (by rw [hm]; rfl)).mode)⟩
  · rename_i _ hm
    exact .inl ⟨by simp, .inr (.inl (enterSafeStop_entered (s := s) (by rw [hm]; rfl)).mode)⟩
  · exact .inl ⟨by simp, .inr (.inr (by rw [(enterTripped_entered s).dmc]))⟩
  · exact .inl ⟨by simp, .inr (.inr (by rw [(enterTripped_entered s).dmc]))⟩
  · exact .inl ⟨by simp, .inr (.inr (by rw [(enterTripped_entered s).dmc]))⟩
  · split
    · exact .inl ⟨by simp, .inr (.inr (by rw [(enterTripped_entered s).dmc]))⟩
    · exact .inr ⟨‹_›, rfl⟩
  · exact .inl ⟨rfl, .inl rfl⟩

theorem Escalated.severity (h : Escalated lone bare s) (hsets : s.setsFormed = true) :
    Escalated lone bare (severityChange s) := by
  have hsteady := severityChange_steady (.refl false s)
  rcases severityChange_ways s with ⟨hpru, hmode⟩ | ⟨hm, e⟩
  · have hl := noGridLeft_congr (s := s) hsteady.cfl (congrArg Pru.bankEx hpru)
    refine ⟨by rw [hpru]; exact h.ok, by rw [hpru]; exact h.traction, by rw [hpru]; exact h.grid, hl.trans h.left,
      by rw [hpru]; exact h.banks, fun hlone => ?_, .inl ?_⟩
    · rcases hmode with hmode | hmode | hmode <;> rw [hmode]
      · exact h.awake hlone
      · exact ⟨by decide, by decide⟩
      · exact ⟨by decide, by decide⟩
    · rw [setsFormed_iff, hpru]
      exact setsFormed_iff.1 hsets
  · have hf := standbyToStarting_fades s
    obtain ⟨k1, k2⟩ := (standbyToStarting_escalation s).observed (lone := lone) (bare := bare)
    have hok := (standbyToStarting_keeps (.refl false s)).pru h.ok
    have hmode : (standbyToStarting s).dmc.mode = .starting := by rw [(standbyToStarting_entered s).dmc]
    rw [e] at hsteady ⊢
    generalize standbyToStarting s = t at *
    refine ⟨hok, k1 h.traction, k2 h.grid, (noGridLeft_congr hsteady.cfl hf.sets.2).trans h.left, ?_,
      fun hlone => absurd hm (h.awake hlone).1, .inr hmode⟩
    rw [hf.sets.2, h.banks, formBankEx_congr hf.banks]

theorem Escalated.summary (h : Escalated lone bare s) (hsets : s.setsFormed = true) :
    Escalated lone bare (deliverSummary s) := by
  have e : deliverSummary s = severityChange (announceSummary (summaryFormedOf s)) := rfl
  have hpru := summaryFormedOf_pru s
  have hkept : (announceSummary (summaryFormedOf s)).dmc = s.dmc ∧
    (announceSummary (summaryFormedOf s)).cfl = s.cfl := by simp [summaryFormedOf]
  rw [e]
  generalize announceSummary (summaryFormedOf s) = t at *
  have hsets' : t.setsFormed = true := by
    rw [setsFormed_iff, hpru]
    exact setsFormed_iff.1 hsets
  have k : Escalated lone bare t := by
    refine ⟨by rw [hpru]; exact h.ok, by rw [hpru]; exact h.traction, by rw [hpru]; exact h.grid,
      (noGridLeft_congr (congrArg Cfl.firm hkept.2) (congrArg Pru.bankEx hpru :)).trans h.left,
      by rw [hpru]; exact h.banks, by rw [hkept.1]; exact h.awake, .inl hsets'⟩
  exact k.severity hsets'

theorem setsHeeded_kept (s : State) : (setsHeeded s).dmc = s.dmc ∧ (setsHeeded s).cfl = s.cfl ∧
    (setsHeeded s).pru.bankEx = formBankEx s.pru.entries ∧ (s.pru.ok → (setsHeeded s).pru.ok) := by
  have hf := setsHeeded_fades s
  have hpru := setsTaken_pru s
  have hkept : (setsTaken s).dmc = s.dmc ∧ (setsTaken s).cfl = s.cfl := by simp [setsTaken]
  have hk : Keeps false s (setsTaken s) := updatePru_keeps_same (.refl false s) rfl
  refine ⟨?_, ?_, hf.sets.2.trans (congrArg Pru.bankEx hpru), ?_⟩
  · unfold setsHeeded
    split
    · exact hkept.1
    · simpa using hkept.1
  · unfold setsHeeded
    split
    · exact hkept.2
    · simpa using hkept.2
  · unfold setsHeeded
    split
    · exact hk.pru
    · exact (rgcExclusion_keeps (tcuExclusion_keeps hk _) _).pru

theorem Escalated.setsDelivered (h : Escalated lone bare s) (hm : s.dmc.mode = .starting) :
    Escalated lone bare (deliverSets s) := by
  obtain ⟨hdmc, hcfl, hbank, hok⟩ := setsHeeded_kept s
  have hlone : lone = false := Bool.not_eq_true _ ▸ fun k => (h.awake k).2 hm
  obtain ⟨k1, k2⟩ := observeEscalation_observed (hok h.ok)
  have hshrinks := (deliverSets_shrinks s).banks
  have hokd : (deliverSets s).pru.ok := by
    rw [deliverSets_eq]
    exact note_ok (note_ok (hok h.ok) _ _ _) _ _ _
  have htraction : (setsHeeded s).noTraction = lone := by
    rw [hlone, State.noTraction, hdmc, hm]
    rfl
  have hgrid : (setsHeeded s).noGridLeft = bare :=
    (noGridLeft_congr (congrArg Cfl.firm hcfl) (hbank.trans h.banks.symm)).trans h.left
  have hmode : (deliverSets s).dmc.mode = .starting := by simpa using hm
  have hleft : (observeEscalation (setsHeeded s)).noGridLeft = (setsHeeded s).noGridLeft :=
    (note_noGridLeft _ _ _ _).trans (note_noGridLeft _ _ _ _)
  rw [deliverSets_eq] at *
  rw [htraction] at k1
  rw [hgrid] at k2 hleft
  exact ⟨hokd, k1, k2, hleft, hshrinks, fun k => absurd k (by simp [hlone]), .inr hmode⟩

theorem Escalated.deliver (h : Escalated lone bare s) : Escalated lone bare (deliver s) := by
  unfold Machine.deliver
  split
  · split
    · exact h
    · exact h.summary ‹_›
  · exact h.setsDelivered (h.formed.resolve_left ‹_›)

theorem Escalated.settled (h : Escalated lone bare s) : Escalated lone bare (settle s) :=
  settle_of_deliver (P := Escalated lone bare) (fun _ => Escalated.deliver) h

/-- An escalation with nothing else to deliver. -/
theorem observeEscalation_escalated (hok : s.pru.ok) (hsets : s.setsFormed = true) :
    Escalated s.noTraction s.noGridLeft (observeEscalation s) := by
  obtain ⟨k1, k2⟩ := observeEscalation_observed hok
  have hf := observeEscalation_fades s
  have hw := fun w => (noteGlobal_same .noGrid s.noGridLeft w (note .noTractionUnits .global s.noTraction s)).trans
    (noteGlobal_same _ s.noTraction w s)
  have hb : (observeEscalation s).pru.bankEx = formBankEx (observeEscalation s).pru.entries := by
    rw [hf.sets.2, (setsFormed_iff.1 hsets).2, formBankEx_congr hf.banks]
  have hx : (observeEscalation s).pru.wheelEx = formWheelEx (observeEscalation s).pru.entries := by
    rw [hf.sets.1, (setsFormed_iff.1 hsets).1]
    exact (formWheelEx_congr hw).symm
  have hdmc : (observeEscalation s).dmc = s.dmc := by simp
  refine ⟨note_ok (note_ok hok _ _ _) _ _ _, k1, k2, (note_noGridLeft _ _ _ _).trans (note_noGridLeft _ _ _ _), hb,
    fun h => ?_, .inl (setsFormed_iff.2 ⟨hx, hb⟩)⟩
  have hwork : s.dmc.mode.working = true := (Bool.and_eq_true_iff.1 h).1
  rw [hdmc]
  constructor
  · intro e
    rw [e] at hwork
    cases hwork
  · intro e
    rw [e] at hwork
    cases hwork

/-! ### A move of the filter (R141, R182) -/

/-- The PRU with another filter. -/
def filterTaken (f : StopFilter) (s : State) : State := updatePru { s.pru with filter := f } s

theorem filterTaken_pru (f : StopFilter) (s : State) : (filterTaken f s).pru = { s.pru with filter := f } :=
  updatePru_pru _ _

theorem filterTaken_formed (f : StopFilter) (s : State) : (filterTaken f s).setsFormed = s.setsFormed ∧
    (filterTaken f s).delivered = s.delivered := by
  simp only [State.delivered, State.setsFormed, State.summaryFormed, filterTaken_pru, and_self]

theorem moveFilter_eq (f : StopFilter) (s : State) : moveFilter f s =
    abortTestIf (f.active && !s.pru.filter.active)
      (settle (noteChange .externalStop .global s.pru.filter.active f.active (filterTaken f s))) := rfl

/-- What a move of the filter leaves. -/
structure FilterMoved (f : StopFilter) (s t : State) : Prop where
  filter : t.pru.filter = f
  observed : f.active ≠ s.pru.filter.active → t.pru.observed .externalStop .global f.active
  test : f.active = true → s.pru.filter.active = false → t.rgc.test = none
  ok : t.pru.ok
  demand : t.dmc.demand = s.dmc.demand
  clock : t.clock = s.clock
  tqa : t.tqa = s.tqa
  cfg : t.cfg = s.cfg

theorem noteChange_kept (k : Kind) (subject : Subject) (before after : Bool) (s : State) :
    (noteChange k subject before after s).pru.filter = s.pru.filter := by
  unfold noteChange noteIf
  split
  · rw [note_pru]
  · rfl

theorem moveFilter_moved (f : StopFilter) (hok : s.pru.ok) : FilterMoved f s (moveFilter f s) := by
  have hpru := filterTaken_pru f s
  have hkept : (filterTaken f s).dmc = s.dmc ∧ (filterTaken f s).clock = s.clock ∧ (filterTaken f s).tqa = s.tqa ∧
    (filterTaken f s).cfg = s.cfg := by simp [filterTaken, State.cfg]
  have hok' : (filterTaken f s).pru.ok := by rw [hpru]; exact hok
  rw [moveFilter_eq]
  generalize filterTaken f s = u at *
  have hnote := noteChange_kept .externalStop .global s.pru.filter.active f.active u
  have hobs : f.active ≠ s.pru.filter.active →
      (noteChange .externalStop .global s.pru.filter.active f.active u).pru.observed .externalStop .global f.active :=
    fun h => noteChange_observed hok' _ _ h
  have hvok : (noteChange .externalStop .global s.pru.filter.active f.active u).pru.ok := by
    unfold noteChange noteIf
    split
    · exact note_ok hok' _ _ _
    · exact hok'
  have hv : (noteChange .externalStop .global s.pru.filter.active f.active u).dmc = u.dmc ∧
    (noteChange .externalStop .global s.pru.filter.active f.active u).clock = u.clock ∧
    (noteChange .externalStop .global s.pru.filter.active f.active u).tqa = u.tqa ∧
    (noteChange .externalStop .global s.pru.filter.active f.active u).cfg = u.cfg := by simp [State.cfg]
  generalize noteChange .externalStop .global s.pru.filter.active f.active u = v at *
  have hsteady := settle_steady (.refl true v)
  have hwok := (settle_keeps (.refl false v)).pru hvok
  have hw : (settle v).clock = v.clock ∧ (settle v).tqa = v.tqa := by simp
  have hwobs := fun (h : f.active ≠ s.pru.filter.active) =>
    settle_observed (k := .externalStop) (by decide) (hobs h)
  generalize settle v = w at *
  have hlast : (abortTestIf (f.active && !s.pru.filter.active) w).pru = w.pru ∧
    (abortTestIf (f.active && !s.pru.filter.active) w).dmc = w.dmc ∧
    (abortTestIf (f.active && !s.pru.filter.active) w).clock = w.clock ∧
    (abortTestIf (f.active && !s.pru.filter.active) w).tqa = w.tqa ∧
    (abortTestIf (f.active && !s.pru.filter.active) w).cfg = w.cfg := by simp [State.cfg]
  obtain ⟨h1, h2, h3, h4, h5⟩ := hlast
  refine ⟨?_, fun h => ?_, fun ha hb => ?_, ?_, ?_, ?_, ?_, ?_⟩
  · rw [h1, hsteady.filter, hnote, hpru]
  · rw [h1]
    exact hwobs h
  · rw [ha, hb]
    exact abortTestIf_true w
  · rw [h1]
    exact hwok
  · rw [h2, hsteady.demand, hv.1, hkept.1]
  · rw [h3, hw.1, hv.2.1, hkept.2.1]
  · rw [h4, hw.2, hv.2.2.1, hkept.2.2.1]
  · rw [h5, hsteady.cfg, hv.2.2.2, hkept.2.2.2]

/-- Where the state of the filter stays, and nothing is due, the move only shows the filter. -/
theorem moveFilter_still {f : StopFilter} (h : f.active = s.pru.filter.active) (hd : s.delivered = true) :
    moveFilter f s = filterTaken f s := by
  rw [moveFilter_eq, h]
  have hnote : noteChange .externalStop .global s.pru.filter.active s.pru.filter.active (filterTaken f s) =
      filterTaken f s := by
    unfold noteChange noteIf
    rw [if_neg (by simp)]
  rw [hnote, settle_of_delivered ((filterTaken_formed f s).2.trans hd)]
  have hb : (s.pru.filter.active && !s.pru.filter.active) = false := by simp
  rw [hb, abortTestIf_false]

theorem FilterMoved.settled {f : StopFilter} (h : FilterMoved f s t) : FilterMoved f s (settle t) := by
  have hsteady := settle_steady (.refl true t)
  have hkept : (settle t).clock = t.clock ∧ (settle t).tqa = t.tqa := by simp
  exact ⟨hsteady.filter.trans h.filter, fun k => settle_observed (by decide) (h.observed k),
    fun ha hb => settle_test (h.test ha hb), (settle_keeps (.refl false t)).pru h.ok,
    hsteady.demand.trans h.demand, hkept.1.trans h.clock, hkept.2.trans h.tqa, hsteady.cfg.trans h.cfg⟩

theorem FilterMoved.escalated {f : StopFilter} (h : FilterMoved f s t) : FilterMoved f s (observeEscalation t) := by
  have hpru : ∀ k present u, (note k .global present u).pru.filter = u.pru.filter := fun k present u => by rw [note_pru]
  have hkept : (observeEscalation t).rgc = t.rgc ∧ (observeEscalation t).dmc = t.dmc ∧
    (observeEscalation t).clock = t.clock ∧ (observeEscalation t).tqa = t.tqa ∧ (observeEscalation t).cfg = t.cfg := by
    simp [State.cfg]
  obtain ⟨h1, h2, h3, h4, h5⟩ := hkept
  refine ⟨((hpru _ _ _).trans (hpru _ _ _)).trans h.filter, fun k => ?_, fun ha hb => by rw [h1]; exact h.test ha hb,
    note_ok (note_ok h.ok _ _ _) _ _ _, by rw [h2]; exact h.demand, h3.trans h.clock, h4.trans h.tqa, h5.trans h.cfg⟩
  exact note_observed_other (by decide) (note_observed_other (by decide) (h.observed k))

theorem filterTaken_world (f : StopFilter) (s : State) : (filterTaken f s).noTraction = s.noTraction ∧
    (filterTaken f s).noGridLeft = s.noGridLeft := by
  have hkept : (filterTaken f s).dmc = s.dmc ∧ (filterTaken f s).cfl = s.cfl := by simp [filterTaken]
  simp only [State.noTraction, State.noGridLeft, State.cfg, filterTaken_pru, hkept.1, hkept.2, and_self]

theorem filterTaken_rest (f : StopFilter) (s : State) : SameOutside [(0x1800, 768)] s (filterTaken f s) ∧
    { filterTaken f s with xm := s.xm, pru := { (filterTaken f s).pru with filter := s.pru.filter } } = s := by
  refine ⟨updatePru_same _ s, ?_⟩
  rw [filterTaken_pru]
  have h := updatePru_rest { s.pru with filter := f } s
  exact h

/-! ### The commands -/

theorem stopInputDue_iff : s.stopInputDue = true ↔ s.pru.filter.active = false ∧
    (s.pru.filter.sample s.cfg.stopLevel true).active = true := by
  simp [State.stopInputDue]

theorem stopInputOver_iff : s.stopInputOver = true ↔ s.pru.filter.active = true ∧
    (s.pru.filter.sample s.cfg.stopLevel false).active = false := by
  simp [State.stopInputOver]

/-- The sample that turns the filter ACTIVE. -/
theorem sample_turnsActive {f : StopFilter} (ha : f.active = false) (hrun : 2 ≤ f.lowRun)
    (hl : level = true ∨ f.lastLow = true) : f.sample level true =
      { f with active := true, lowRun := 0, highRun := 0, lastLow := true, edgeHeld := !level } := by
  obtain ⟨last, run, high, active, held⟩ := f
  obtain rfl : active = false := ha
  have hrun : 2 ≤ run := hrun
  have h3 : 3 ≤ run + 1 := by omega
  have h0 : ¬run = 0 := by omega
  cases level with
  | true => simp [StopFilter.sample, StopFilter.sampleLevel, StopFilter.turnActive, h3]
  | false =>
    obtain rfl : last = true := hl.resolve_left (by decide)
    simp [StopFilter.sample, StopFilter.sampleEdge, StopFilter.turnActive, h3, h0]

theorem sample_staysInactive {f : StopFilter} (ha : f.active = false)
    (h : f.lowRun < 2 ∨ level = false ∧ f.lastLow = false) : (f.sample level true).active = false := by
  obtain ⟨last, run, high, active, held⟩ := f
  obtain rfl : active = false := ha
  cases level with
  | true =>
    have hrun : run < 2 := h.resolve_right (by simp)
    have h3 : ¬3 ≤ run + 1 := by omega
    simp [StopFilter.sample, StopFilter.sampleLevel, h3]
  | false =>
    cases last with
    | false => simp [StopFilter.sample, StopFilter.sampleEdge]
    | true =>
      have hrun : run < 2 := h.resolve_right (by simp)
      have h3 : ¬3 ≤ run + 1 := by omega
      by_cases h0 : run = 0
      · simp [StopFilter.sample, StopFilter.sampleEdge, h0]
      · simp [StopFilter.sample, StopFilter.sampleEdge, h0, h3]

theorem sample_turnsInactive {f : StopFilter} (ha : f.active = true) (hrun : 2 ≤ f.highRun) : f.sample true false =
    { f with active := false, lowRun := 0, highRun := 0, lastLow := false } := by
  have h3 : 3 ≤ f.highRun + 1 := by omega
  simp [StopFilter.sample, StopFilter.sampleLevel, StopFilter.turnInactive, ha, h3]

theorem sample_staysActive {f : StopFilter} (ha : f.active = true) (h : level = false ∨ f.highRun < 2) :
    (f.sample level false).active = true := by
  cases level with
  | false => simp [StopFilter.sample, StopFilter.sampleEdge, ha]
  | true =>
    have hrun : f.highRun < 2 := h.resolve_left (by decide)
    have h3 : ¬3 ≤ f.highRun + 1 := by omega
    simp [StopFilter.sample, StopFilter.sampleLevel, ha, h3]

theorem exec_discreteInputSample (hs : s.isRunning = true) (x : Level) : exec (.discreteInputSample x) s =
    .next (settle (observeEscalation (moveFilter (s.pru.filter.sample s.cfg.stopLevel (x == .low)) s))) :=
  whenRunning_of_running hs fun s => settle (observeEscalation (sampleStop (x == .low) s))

/-- A sample of the input that leaves the filter's state, with nothing due. -/
theorem sample_still {f : StopFilter} (hok : s.pru.ok) (hf : f.active = s.pru.filter.active) (hd : s.delivered = true) :
    (s.noGridLeft = false → s.noTraction = false → s.pru.noEntry .noTractionUnits .global →
      s.pru.noEntry .noGrid .global → settle (observeEscalation (moveFilter f s)) = filterTaken f s) ∧
    Escalated s.noTraction s.noGridLeft (settle (observeEscalation (moveFilter f s))) := by
  obtain ⟨h1, h2⟩ := filterTaken_world f s
  obtain ⟨h3, h4⟩ := filterTaken_formed f s
  have hpru := filterTaken_pru f s
  rw [moveFilter_still hf hd]
  generalize filterTaken f s = u at *
  refine ⟨fun k1 k2 k3 k4 => ?_, ?_⟩
  · rw [observeEscalation_none (h1.trans k2) (h2.trans k1) (by rw [hpru]; exact k3) (by rw [hpru]; exact k4)]
    exact settle_of_delivered (h4.trans hd)
  · rw [← h1, ← h2]
    exact (observeEscalation_escalated (by rw [hpru]; exact hok) (h3.trans (Bool.and_eq_true_iff.1 hd).1)).settled

theorem externalStopActive_acts (hs : s.isRunning = true) (ha : s.pru.filter.active = false)
    (hrun : 2 ≤ s.pru.filter.lowRun) (hl : s.cfg.stopLevel = true ∨ s.pru.filter.lastLow = true) :
    exec .externalStopActive s = .next (settle (moveFilter { s.pru.filter with
      active := true, lowRun := 0, highRun := 0, lastLow := true, edgeHeld := !s.cfg.stopLevel } s)) := by
  have hsample := sample_turnsActive ha hrun hl
  have h : exec .externalStopActive s = .next (settle (sampleStop true s)) :=
    whenObserving_acts (p := State.stopInputDue) (f := sampleStop true) hs (stopInputDue_iff.2 ⟨ha, by rw [hsample]⟩)
  rw [h, sampleStop, hsample]

theorem externalStopInactive_acts (hs : s.isRunning = true) (ha : s.pru.filter.active = true)
    (hl : s.cfg.stopLevel = true) (hrun : 2 ≤ s.pru.filter.highRun) :
    exec .externalStopInactive s = .next (settle (moveFilter { s.pru.filter with
      active := false, lowRun := 0, highRun := 0, lastLow := false } s)) := by
  have hsample := sample_turnsInactive ha hrun
  have h : exec .externalStopInactive s = .next (settle (sampleStop false s)) :=
    whenObserving_acts (p := State.stopInputOver) (f := sampleStop false) hs
      (stopInputOver_iff.2 ⟨ha, by rw [hl, hsample]⟩)
  rw [h, sampleStop, hl, hsample]

theorem lone_eq (h : lone = true ↔ (s.dmc.mode = .ready ∨ s.dmc.mode = .drive ∨ s.dmc.mode = .safeStop) ∧
    ∀ w, s.cfg.wheel w = true → s.pru.lossHeld.get w = true ∨ s.pru.wheelEx.get w = true) : s.noTraction = lone :=
  Bool.eq_iff_iff.2 (noTraction_iff.trans h.symm)

theorem bare_eq (h : bare = true ↔ s.cfl.guardOn = true ∧ ∀ b, s.cfg.bank b = true → s.pru.bankEx.get b = true) :
    s.noGridLeft = bare := Bool.eq_iff_iff.2 (noGridLeft_iff.trans h.symm)

end

/-- Settles O60. -/
theorem externalStop : Obligations.ExternalStop := by
  unfold Obligations.ExternalStop
  intro s hs hok
  refine ⟨fun x => ?_, fun lone bare h1 h2 => ?_, fun ha hrun hl => ?_, fun h hd => ?_, fun ha hl hrun => ?_,
    fun h hd => ?_⟩
  · have hrows := sample_rows s.pru.filter s.cfg.stopLevel (x == .low)
    have hexec := exec_discreteInputSample hs x
    generalize s.pru.filter.sample s.cfg.stopLevel (x == .low) = f at *
    have k := (moveFilter_moved f hok).escalated.settled
    refine ⟨_, hexec, by rw [k.filter]; exact hrows, fun h => ?_, fun ha hb => ?_, fun hf hd k1 k2 k3 k4 => ?_,
      fun hf hd lone bare h1 h2 => ?_, k.clock, k.demand, k.tqa, k.cfg⟩
    · rw [k.filter] at h ⊢
      exact k.observed h
    · rw [k.filter] at ha
      exact k.test ha hb
    · rw [k.filter] at hf
      rw [(sample_still hok hf hd).1 k1 k2 k3 k4]
      exact filterTaken_rest f s
    · rw [k.filter] at hf
      have he := (sample_still hok hf hd).2
      rw [lone_eq h1, bare_eq h2] at he
      exact ⟨he.traction, he.grid⟩
  · have k := observeEscalation_observed hok
    rwa [lone_eq h1, bare_eq h2] at k
  · have hexec := externalStopActive_acts hs ha hrun hl
    have k := (moveFilter_moved { s.pru.filter with
      active := true, lowRun := 0, highRun := 0, lastLow := true, edgeHeld := !s.cfg.stopLevel } hok).settled
    exact ⟨_, hexec, k.filter, k.observed (by rw [ha]; exact nofun), k.test rfl ha, k.tqa⟩
  · refine whenObserving_idle (p := State.stopInputDue) (f := sampleStop true) hs (fun hdue => ?_) hd
    obtain ⟨ha, hsample⟩ := stopInputDue_iff.1 hdue
    rw [sample_staysInactive ha (h.resolve_left (by simp [ha]))] at hsample
    cases hsample
  · have hexec := externalStopInactive_acts hs ha hl hrun
    have k := (moveFilter_moved { s.pru.filter with
      active := false, lowRun := 0, highRun := 0, lastLow := false } hok).settled
    exact ⟨_, hexec, k.filter, k.observed (by rw [ha]; exact nofun), k.tqa⟩
  · refine whenObserving_idle (p := State.stopInputOver) (f := sampleStop false) hs (fun hover => ?_) hd
    obtain ⟨ha, hsample⟩ := stopInputOver_iff.1 hover
    rw [sample_staysActive ha (h.resolve_left (by simp [ha]))] at hsample
    cases hsample

end Sys2Proof.Machine
end

section
/-! CLEAR_FAULTS (R183): the release of the filter, the steps over the table, and the detail. -/

namespace Sys2Proof.Machine

section
variable {a s t u v w : State} {cell : BitVec 6} {forget : Word} {clock : Long} {es : List Entry} {e f : Entry}

/-! ### Steps 2 and 3 over the table -/

theorem clearable_iff : e.clearable = true ↔ e.state = .latched ∧ e.cond = false := by
  simp [Entry.clearable]

/-- An entry after step 2. -/
def Entry.afterStep (clock : Long) (e : Entry) : Entry := if e.clearable then e.move .cleared clock else e

theorem clearEntries_eq (clock : Long) (es : List Entry) : clearEntries clock es = es.map (Entry.afterStep clock) := rfl

theorem afterStep_clears (h : e.clearable = true) : e.afterStep clock = e.move .cleared clock := if_pos h

theorem afterStep_stays (h : ¬e.clearable = true) : e.afterStep clock = e := if_neg h

/-- The two steps make of each entry what the statement says. -/
theorem afterClear_eq (forget : Word) (clock : Long) (e : Entry) : e.afterClear forget clock =
    if forget ≠ 0 ∧ (e.afterStep clock).state = .cleared then none else some (e.afterStep clock) := by
  unfold Entry.afterClear Entry.afterStep
  simp only [clearable_iff]
  rfl

theorem forgetEntries_eq (forget : Word) (clock : Long) (es : List Entry) :
    forgetEntries forget (clearEntries clock es) = es.filterMap (Entry.afterClear forget clock) := by
  rw [clearEntries_eq]
  unfold forgetEntries
  induction es with
  | nil =>
    split <;> rfl
  | cons e es ih =>
    rw [List.filterMap_cons, afterClear_eq]
    by_cases hf : forget = 0
    · rw [if_pos hf] at ih ⊢
      rw [if_neg (by simp [hf]), List.map_cons, ih]
    · rw [if_neg hf] at ih ⊢
      rw [List.map_cons, List.filter_cons]
      by_cases hc : (e.afterStep clock).state = .cleared
      · rw [if_neg (by simp [hc]), if_pos ⟨hf, hc⟩, ih]
      · rw [if_pos (by simpa using hc), if_neg (fun k => hc k.2), ih]

theorem afterStep_spec (clock : Long) (e : Entry) : (e.afterStep clock).kind = e.kind ∧
    (e.afterStep clock).subject = e.subject ∧ (e.afterStep clock).cond = e.cond ∧
    ((e.afterStep clock).state = e.state ∨ (e.afterStep clock).state = .cleared) ∧
    ¬((e.afterStep clock).state = .latched ∧ (e.afterStep clock).cond = false) := by
  by_cases hc : e.clearable = true
  · rw [afterStep_clears hc]
    exact ⟨rfl, rfl, rfl, .inr rfl, fun k => absurd k.1 (by simp [Entry.move])⟩
  · rw [afterStep_stays hc]
    exact ⟨rfl, rfl, rfl, .inl rfl, mt clearable_iff.2 hc⟩

/-- What the two steps leave of an entry. -/
theorem afterClear_some (h : f ∈ e.afterClear forget clock) : f = e.afterStep clock ∧ (f.state = .cleared → forget = 0) := by
  rw [afterClear_eq] at h
  by_cases hk : forget ≠ 0 ∧ (e.afterStep clock).state = .cleared
  · rw [if_pos hk] at h
    cases h
  · rw [if_neg hk] at h
    obtain rfl := Option.some.inj h
    exact ⟨rfl, fun hc => not_not.1 fun hn => hk ⟨hn, hc⟩⟩

theorem afterClear_spec (h : f ∈ e.afterClear forget clock) : f.kind = e.kind ∧ f.subject = e.subject ∧
    f.cond = e.cond ∧ (f.state = e.state ∨ f.state = .cleared) ∧ (f.state = .cleared → forget = 0) ∧
    ¬(f.state = .latched ∧ f.cond = false) := by
  obtain ⟨rfl, hf⟩ := afterClear_some h
  obtain ⟨h1, h2, h3, h4, h5⟩ := afterStep_spec clock e
  exact ⟨h1, h2, h3, h4, hf, h5⟩

/-- The steps keep the kinds, so that they act on each kind by itself. -/
theorem afterClear_kind (forget : Word) (clock : Long) (k : Kind) (es : List Entry) :
    (es.filterMap (Entry.afterClear forget clock)).filter (fun e => e.kind == k) =
      (es.filter fun e => e.kind == k).filterMap (Entry.afterClear forget clock) := by
  induction es with
  | nil => rfl
  | cons e es ih =>
    rw [List.filterMap_cons, List.filter_cons]
    cases h : e.afterClear forget clock with
    | none =>
      dsimp only
      rw [ih]
      split
      · rw [List.filterMap_cons, h]
      · rfl
    | some f =>
      have hk : f.kind = e.kind := (afterClear_spec h).1
      dsimp only
      rw [List.filter_cons, hk, ih]
      split
      · rw [List.filterMap_cons, h]
      · rfl

/-! ### The detail -/

theorem countP_clearable (es : List Entry) :
    (es.filter Entry.clearable).length = es.countP fun e => e.state == .latched && !e.cond := by
  rw [List.countP_eq_length_filter]
  rfl

theorem countP_cleared (clock : Long) (es : List Entry) :
    (clearEntries clock es).countP (fun e => e.state == .cleared) =
      es.countP fun e => e.state == .cleared || (e.state == .latched && !e.cond) := by
  rw [clearEntries_eq, List.countP_map]
  refine List.countP_congr fun e _ => ?_
  by_cases h : e.clearable = true
  · obtain ⟨h1, h2⟩ := clearable_iff.1 h
    simp [afterStep_clears h, Entry.move, h1, h2]
  · have hn : ¬(e.state = .latched ∧ e.cond = false) := mt clearable_iff.2 h
    simp only [Function.comp, afterStep_stays h, beq_iff_eq, Bool.or_eq_true, Bool.and_eq_true, Bool.not_eq_true']
    exact ⟨.inl, fun k => k.resolve_right hn⟩

theorem forgotten_count (forget : Word) (clock : Long) (es : List Entry) :
    (clearEntries clock es).length - (forgetEntries forget (clearEntries clock es)).length =
      if forget = 0 then 0 else es.countP fun e => e.state == .cleared || (e.state == .latched && !e.cond) := by
  rw [← countP_cleared clock]
  generalize clearEntries clock es = fs
  unfold forgetEntries
  split
  · omega
  · have h := List.length_eq_countP_add_countP (fun e : Entry => e.state == .cleared) (l := fs)
    have hc : fs.countP (fun e => ¬(e.state == .cleared) = true) = (fs.filter fun e => e.state != .cleared).length := by
      rw [List.countP_eq_length_filter]
      congr 1
      refine List.filter_congr fun e _ => ?_
      cases e.state <;> rfl
    omega

theorem clearDetail_eq (forget : Word) (clock : Long) (before after : List Entry) :
    clearDetail forget clock before after =
      [natWord (before.countP fun e => e.state == .latched && !e.cond),
        natWord (after.countP fun e => e.state == .latched),
        natWord (if forget = 0 then 0
          else before.countP fun e => e.state == .cleared || (e.state == .latched && !e.cond)),
        natWord after.length] := by
  unfold clearDetail
  dsimp only
  rw [countP_clearable, forgotten_count, List.countP_eq_length_filter (p := fun e : Entry => e.state == .latched)]

/-! ### The order's steps -/

theorem clearTable_pru (forget : Word) (s : State) : (clearTable forget s).pru =
    { s.pru with entries := s.pru.entries.filterMap (Entry.afterClear forget s.clock) } := by
  unfold clearTable
  rw [raiseIf_pru, updatePru_pru, forgetEntries_eq]

/-- The table with the filter as step 1 leaves it (R183). -/
def tableCleared (forget : Word) (s : State) : State :=
  settle (observeEscalation (settle (clearTable forget (releaseStop s))))

theorem decideClearFaults_eq (cell : BitVec 6) (forget : Word) (s : State) : decideClearFaults cell forget s =
    settle (clearCompletion (endCell cell .ok (clearDetail forget (tableCleared forget s).clock
      (releaseStop s).pru.entries (tableCleared forget s).pru.entries) (tableCleared forget s))) := rfl

/-- What the steps leave of the table, from the state after step 1. -/
structure TableCleared (forget : Word) (u t : State) : Prop where
  ore : u.ore.idle = true → t.ore = u.ore
  placed : u.wlc.placed → t.wlc.placed
  filter : t.pru.filter = u.pru.filter
  clock : t.clock = u.clock
  kinds : ∀ k : Kind, k.loud = false → t.pru.entries.filter (fun e => e.kind == k) =
    (u.pru.entries.filter fun e => e.kind == k).filterMap (Entry.afterClear forget u.clock)
  delivered : t.delivered = true

theorem tableCleared_cleared (forget : Word) (s : State) :
    TableCleared forget (releaseStop s) (tableCleared forget s) := by
  unfold tableCleared
  generalize releaseStop s = u
  have hpru := clearTable_pru forget u
  have hkept : (clearTable forget u).ore = u.ore ∧ (clearTable forget u).wlc = u.wlc ∧
    (clearTable forget u).clock = u.clock := by simp
  generalize clearTable forget u = v at *
  have h1 := settle_steady (.refl true v)
  have hc1 : (settle v).clock = v.clock := by simp
  generalize settle v = w at *
  have hesc : (observeEscalation w).ore = w.ore ∧ (observeEscalation w).wlc = w.wlc ∧
    (observeEscalation w).clock = w.clock := by simp
  have hf : (observeEscalation w).pru.filter = w.pru.filter := by
    unfold observeEscalation
    rw [note_pru, note_pru]
  have hkind : ∀ k : Kind, k.loud = false → (observeEscalation w).pru.entries.filter (fun e => e.kind == k) =
      w.pru.entries.filter fun e => e.kind == k := fun k hk =>
    (note_others (fun e => by rw [e] at hk; cases hk) _ _ _).trans
      (note_others (fun e => by rw [e] at hk; cases hk) _ _ _)
  generalize observeEscalation w = x at *
  have h2 := settle_steady (.refl true x)
  have hc2 : (settle x).clock = x.clock := by simp
  have hd := settle_delivered x
  generalize settle x = y at *
  refine ⟨fun hi => ?_, fun hp => ?_, ?_, ?_, fun k hk => ?_, hd⟩
  · have hv : v.ore.idle = true := by rw [hkept.1]; exact hi
    have hw := h1.ore rfl hv
    have hx : x.ore = v.ore := hesc.1.trans hw
    rw [h2.ore rfl (by rw [hx]; exact hv), hx, hkept.1]
  · exact h2.placed (hesc.2.1 ▸ h1.placed (hkept.2.1 ▸ hp))
  · rw [h2.filter, hf, h1.filter, hpru]
  · rw [hc2, hesc.2.2, hc1, hkept.2.2]
  · rw [kind_of_quiet (h2.quiet rfl) hk, hkind k hk, kind_of_quiet (h1.quiet rfl) hk, hpru, afterClear_kind]

/-- What step 1 leaves of EXTERNAL_STOP: no entry that stands ACTIVE or PENDING, none with its mark set. -/
theorem releaseStop_entries (h : s.pru.filter.releasable = true) (hok : s.pru.ok)
    (he : e ∈ (releaseStop s).pru.entries) (hk : e.kind = .externalStop) (hsub : e.subject = .global) :
    (e.state = .latched ∨ e.state = .cleared) ∧ e.cond = false := by
  have e0 : releaseStop s = note .externalStop .global false
      (updatePru { s.pru with filter := { s.pru.filter.turnInactive with edgeHeld := false } } s) := if_pos h
  have hpru : (updatePru { s.pru with filter := { s.pru.filter.turnInactive with edgeHeld := false } } s).pru.entries =
    s.pru.entries := by rw [updatePru_pru]
  rw [e0] at he
  generalize updatePru { s.pru with filter := { s.pru.filter.turnInactive with edgeHeld := false } } s = u at *
  have hoku : u.pru.ok := by
    unfold Pru.ok at *
    rw [hpru]
    exact hok
  have hnote : (note .externalStop .global false u).pru.observed .externalStop .global false := note_observed hoku _ _ _
  refine ⟨?_, hnote e he hk hsub⟩
  rw [note_pru] at he
  have hok' : u.pru.entries.Pairwise Entry.differs := hoku
  revert he hok'
  generalize u.pru.entries = es
  intro he hok'
  induction es with
  | nil => cases he
  | cons g rest ih =>
    obtain ⟨hhead, htail⟩ := List.pairwise_cons.1 hok'
    by_cases hg : g.kind = .externalStop ∧ g.subject = .global
    · rw [observeEntries_absent_of_pair hg] at he
      rcases List.mem_append.1 he with he | he
      · have he := Option.mem_toList.1 he
        unfold Entry.seeAbsent at he
        cases hs : g.state <;> rw [hs] at he <;> dsimp only at he
        · cases he
        · rw [if_pos (by rw [hg.1]; exact Nat.le_add_left 1 _)] at he
          obtain rfl := Option.some.inj he
          show (if _ then EntryState.latched else .cleared) = _ ∨ (if _ then EntryState.latched else .cleared) = _
          split
          · exact .inl rfl
          · exact .inr rfl
        · obtain rfl := Option.some.inj he
          exact .inl rfl
        · obtain rfl := Option.some.inj he
          exact .inr rfl
      · exact absurd ⟨hg.1.trans hk.symm, hg.2.trans hsub.symm⟩ (hhead e he)
    · rw [observeEntries_cons_of_other hg] at he
      rcases List.mem_cons.1 he with rfl | he
      · exact absurd ⟨hk, hsub⟩ hg
      · exact ih he htail

theorem releasable_iff {g : StopFilter} : g.releasable = true ↔
    g.active = true ∧ g.edgeHeld = true ∧ g.lastLow = false := by
  simp [StopFilter.releasable, and_assoc]

theorem releaseStop_filter (h : s.pru.filter.releasable = true) : (releaseStop s).pru.filter =
    { s.pru.filter with active := false, edgeHeld := false, lowRun := 0, highRun := 0 } := by
  have e0 : releaseStop s = note .externalStop .global false
      (updatePru { s.pru with filter := { s.pru.filter.turnInactive with edgeHeld := false } } s) := if_pos h
  rw [e0, note_pru, updatePru_pru]
  rfl

theorem clearCompletion_steady {full : Bool} (h : Steady full a s) : Steady full a (clearCompletion s) := by
  by_cases hm : s.dmc.mode = .tripped
  · have hc : Steady full a s.credited := setDmc_steady h rfl rfl rfl
    by_cases hr : s.mayReturn
    · rw [clearCompletion_returns hm hr]
      exact enterReady_steady hc
    · rw [clearCompletion_credit hm hr]
      exact hc
  · rw [clearCompletion_other hm]
    exact h

end

/-- Settles O26. -/
theorem faultsCleared : Obligations.FaultsCleared := by
  unfold Obligations.FaultsCleared
  intro cell forget s hs hidle hp hok
  have hexec : exec (.clearFaults cell forget) s = .next (decideClearFaults cell forget s) :=
    whenRunning_of_running hs _
  have hbytes := hostBytesKept _ _ _ hp rfl hexec
  have k := tableCleared_cleared forget s
  have hrel : (releaseStop s).ore = s.ore ∧ (releaseStop s).wlc = s.wlc ∧ (releaseStop s).clock = s.clock := by simp
  have hentries := fun (h : s.pru.filter.releasable = true) e => releaseStop_entries (e := e) h hok
  have hfilter := releaseStop_filter (s := s)
  have hidleRelease : ¬s.pru.filter.releasable = true → releaseStop s = s := fun h => if_neg h
  rw [decideClearFaults_eq, clearDetail_eq] at hexec hbytes
  generalize releaseStop s = u at *
  generalize tableCleared forget s = z at *
  have hz : z.ore = s.ore := (k.ore (by rw [hrel.1]; exact hidle)).trans hrel.1
  have hzp : z.wlc.placed := k.placed (hrel.2.1 ▸ hp)
  have hzclock : z.clock = s.clock := k.clock.trans hrel.2.2
  generalize hdet : [natWord (u.pru.entries.countP fun e => e.state == .latched && !e.cond),
        natWord (z.pru.entries.countP fun e => e.state == .latched),
        natWord (if forget = 0 then 0
          else u.pru.entries.countP fun e => e.state == .cleared || (e.state == .latched && !e.cond)),
        natWord z.pru.entries.length] = detail at *
  have hend := endCell_orderEnded cell .ok detail z
  have hkept : (endCell cell .ok detail z).ore = z.ore ∧ (endCell cell .ok detail z).wlc = z.wlc ∧
    (endCell cell .ok detail z).pru = z.pru := by simp
  generalize endCell cell .ok detail z = y at *
  have hsteady := clearCompletion_steady (.refl true y)
  have hpru : (clearCompletion y).pru = y.pru := by simp
  have hcells := clearCompletion_cells (s := y)
  generalize clearCompletion y = x at *
  have hxpru : x.pru = z.pru := hpru.trans hkept.2.2
  rw [settle_of_delivered ((delivered_of_pru hxpru).trans k.delivered)] at hexec hbytes
  have hyidle : y.ore.idle = true := by rw [hkept.1, hz]; exact hidle
  refine ⟨x, hexec, ?_, hsteady.attention _ ?_, hbytes, fun h => ?_, fun h => ?_⟩
  · rw [hsteady.ore rfl hyidle, hkept.1, hz]
  · rw [hend.raised.pending]
    simp
  · have hr := releasable_iff.2 h
    rw [hxpru]
    refine ⟨k.filter.trans (hfilter hr), fun e he hk hsub => ?_⟩
    have hmem : e ∈ z.pru.entries.filter fun e => e.kind == .externalStop := by
      rw [List.mem_filter]
      exact ⟨he, by simp [hk]⟩
    rw [k.kinds .externalStop rfl] at hmem
    obtain ⟨g, hg, heg⟩ := List.mem_filterMap.1 hmem
    obtain ⟨hg, -⟩ := List.mem_filter.1 hg
    obtain ⟨h1, h2, h3, h4, hforget, h5⟩ := afterClear_spec heg
    obtain ⟨hst, hcond⟩ := hentries hr g hg (h1.symm.trans hk) (h2.symm.trans hsub)
    have hcond : e.cond = false := h3.trans hcond
    have hcleared : e.state = .cleared := by
      rcases h4 with h | h
      · rcases hst with hst | hst
        · exact absurd ⟨h.trans hst, hcond⟩ h5
        · exact h.trans hst
      · exact h
    exact ⟨hcleared, hcond, hforget hcleared⟩
  · have hus := hidleRelease (mt releasable_iff.1 h)
    subst hus
    rw [hxpru]
    refine ⟨k.filter, k.kinds, ?_⟩
    rw [hdet, ← hzclock]
    refine hend.ended.keep fun a h1 h2 => hcells (hkept.2.1 ▸ hzp) ?_ ?_
    · have := cellBase_range cell
      omega
    · have := cellBase_range cell
      omega

end Sys2Proof.Machine
end

section
/-! The page that a demand sample accepts (O36). -/

namespace Sys2Proof.Machine

section
variable {s t u : State} {base : Nat}

/-! ### Flags in a word -/

theorem flagWord_testBit (bs : List Bool) (i : Nat) : (flagWord bs).testBit i = bs.getD i false := by
  induction bs generalizing i with
  | nil => simp [flagWord]
  | cons b bs ih =>
    have hhalf : ((if b then 1 else 0) + 2 * flagWord bs) / 2 = flagWord bs := by split <;> omega
    cases i with
    | zero => cases b <;> simp [flagWord, Nat.testBit_zero]
    | succ i => rw [flagWord, Nat.testBit_succ, hhalf, ih, List.getD_cons_succ]

theorem flagWord_lt (bs : List Bool) : flagWord bs < 2 ^ bs.length := by
  induction bs with
  | nil => simp [flagWord]
  | cons b bs ih =>
    rw [flagWord, List.length_cons, pow_succ]
    split <;> omega

/-- A word of flags shows each flag in its bit. -/
theorem bitsWord_getLsbD (bs : List Bool) (hl : bs.length ≤ 16) {i : Nat} (h : i < 16) :
    (bitsWord bs).getLsbD i = bs.getD i false := by
  have hlt := (flagWord_lt bs).trans_le (Nat.pow_le_pow_right (by omega : 0 < 2) hl)
  rw [bitsWord, natWord, BitVec.getLsbD_ofNat, decide_eq_true h, Bool.true_and,
    Nat.min_eq_left (by omega), flagWord_testBit]

/-! ### Step 1 of the sample (R7, R8) -/

theorem accepted_of_words (hb : base = if s.word 0x0008 = 1 then 0x0180 else 0x0100) :
    s.pageAccepted = true ↔ s.word base ≠ 0 ∧ s.word base = s.word (base + 0x1E) ∧
      s.dmc.lastSeq ≠ some (s.word base) := by
  have hbase : pageBase (s.word 0x0008) = base := hb.symm
  simp only [State.pageAccepted, State.livePage, hbase, Page.accepted, readPage, Bool.and_eq_true, bne_iff_ne,
    beq_iff_eq, and_assoc]
  rfl

/-- The sample with the demand, the taken stamp and the anomaly mark of an accepted page taken over. -/
def State.pageRead (s : State) : State :=
  put (pageBase (s.word 0x0008) + 0x18) (longWords s.clock ++ [s.livePage.anomaly s.cfg.lock])
    (s.setDmc { s.dmc with
      demand := s.livePage.demand s.cfg.lock s.clock
      lastSeq := some s.livePage.sequence
      freshRef := if s.dmc.mode.counted then s.clock else s.dmc.freshRef })

theorem acceptPage_eq (s : State) : acceptPage (pageBase (s.word 0x0008)) s.livePage s =
    lmuPage (tcuPage s.pageRead) := by
  simp only [acceptPage, State.pageRead]

/-- The state that step 1 leaves beside the TCU's and the LMU's own. -/
def State.pageTaken (s : State) : State := if s.pageAccepted then s.pageRead else s

theorem takePage_steady (s : State) : Steady false s.pageTaken (takePage s) := by
  unfold takePage State.pageTaken
  split
  · rw [acceptPage_eq]
    exact lmuPage_steady (tcuPage_steady (.refl _ _))
  · exact .refl _ _

/-- What the steps after the first, and the deliveries, leave as the page set it. -/
theorem sample_steady (s : State) :
    Steady false (takeDemandPeriod s).pageTaken (settle (demandSteps s)) := by
  simp only [demandSteps, runAll]
  exact settle_steady (putDmcSection_steady (demandStep_steady (directionCheck_steady (modeChecks_steady
    (wake_steady (updateFreshness_steady (takePage_steady _)) _)))))

/-- What an accepted page leaves in its own bytes (R8). -/
structure PageShown (base : Nat) (s t : State) : Prop where
  stamp : t.word (base + 0x18) = s.clock.setWidth 16 ∧ t.word (base + 0x1A) = s.clock.extractLsb' 16 16
  anomaly : t.word (base + 0x1C) = s.livePage.anomaly s.cfg.lock
  rest : ∀ a, 0x0100 ≤ a → a < 0x0200 → (a < base + 0x18 ∨ base + 0x1E ≤ a) → t.xm.byte a = s.xm.byte a

theorem pageRead_shown (hb : base = pageBase (s.word 0x0008)) : PageShown base s s.pageRead := by
  subst hb
  have hlen : (longWords s.clock ++ [s.livePage.anomaly s.cfg.lock]).length = 3 := rfl
  refine ⟨⟨?_, ?_⟩, ?_, fun a _ _ h => ?_⟩
  · exact put_word (a := pageBase (s.word 0x0008) + 0x18) (i := 0) (by rw [hlen]; omega)
  · exact put_word (a := pageBase (s.word 0x0008) + 0x18) (i := 1) (by rw [hlen]; omega)
  · exact put_word (a := pageBase (s.word 0x0008) + 0x18) (i := 2) (by rw [hlen]; omega)
  · unfold State.pageRead
    rw [put_byte_outside (by rw [hlen]; omega)]
    rfl

theorem PageShown.of_pages (h : PageShown base s u) (hbase : base = 0x0100 ∨ base = 0x0180)
    (hpages : ∀ x, 0x0100 ≤ x ∧ x < 0x0200 → t.xm.byte x = u.xm.byte x) : PageShown base s t := by
  have hword : ∀ x, 0x0100 ≤ x → x + 1 < 0x0200 → t.word x = u.word x := fun x h1 h2 =>
    State.word_congr (hpages _ (by omega)) (hpages _ (by omega))
  obtain ⟨hstamp, hanomaly, hrest⟩ := h
  refine ⟨?_, ?_, fun a h1 h2 k => (hpages a ⟨h1, h2⟩).trans (hrest a h1 h2 k)⟩
  · rw [hword _ (by omega) (by omega), hword _ (by omega) (by omega)]
    exact hstamp
  · rw [hword _ (by omega) (by omega)]
    exact hanomaly

/-- The flags of the anomaly mark (section 1.3). -/
theorem anomaly_bits (p : Page) (lock : Nat) (clock : Long) :
    (p.anomaly lock).getLsbD 0 = decide (1000 < p.propel.toNat) ∧
    (p.anomaly lock).getLsbD 1 = decide (1000 < p.retard.toNat) ∧
    (p.anomaly lock).getLsbD 2 = decide (2 < p.direction.toNat) ∧
    (p.anomaly lock).getLsbD 3 = decide (600 < p.holdSpeed.toNat) ∧
    (p.anomaly lock).getLsbD 4 = decide ((p.demand lock clock).steerAngle ≠ p.steerAngle.toInt) ∧
    (p.anomaly lock).getLsbD 5 = decide (5000 < p.enginePower.toNat) ∧
    (p.anomaly lock).getLsbD 6 = decide (6000 < p.payload.toNat) ∧
    (p.anomaly lock).getLsbD 7 = decide ((p.demand lock clock).grade ≠ p.grade.toInt) ∧
    (p.anomaly lock).getLsbD 8 = decide (1000 < p.hint.toNat ∧ p.hint.toNat < 0xFFFF) ∧
    (p.anomaly lock).getLsbD 9 = decide (p.ambient ≠ 0x7FFF ∧
      (p.demand lock clock).ambient ≠ some p.ambient.toInt) := by
  have hbit : ∀ i, i < 16 → (p.anomaly lock).getLsbD i = _ := fun i h => bitsWord_getLsbD _ (Nat.le_of_ble_eq_true rfl) h
  refine ⟨hbit 0 (by omega), hbit 1 (by omega), hbit 2 (by omega), hbit 3 (by omega), hbit 4 (by omega),
    hbit 5 (by omega), hbit 6 (by omega), hbit 7 (by omega), (hbit 8 (by omega)).trans ?_,
    (hbit 9 (by omega)).trans ?_⟩
  · show (p.hint != 0xFFFF && decide (1000 < p.hint.toNat)) = _
    have hlt : p.hint ≠ 0xFFFF ↔ p.hint.toNat < 0xFFFF := by
      rw [ne_eq, BitVec.toNat_eq]
      have := p.hint.isLt
      simp
      omega
    rw [Bool.eq_iff_iff]
    simp only [Bool.and_eq_true, bne_iff_ne, decide_eq_true_eq, hlt]
    exact and_comm
  · show (p.ambient != 0x7FFF && (decide (p.ambient.toInt < -50) || decide (70 < p.ambient.toInt))) = _
    rw [Bool.eq_iff_iff]
    simp only [Bool.and_eq_true, bne_iff_ne, decide_eq_true_eq, Bool.or_eq_true]
    refine and_congr_right fun h => ?_
    have hval : (p.demand lock clock).ambient = some (max (-50) (min 70 p.ambient.toInt)) := if_neg h
    rw [hval, ne_eq, Option.some.injEq]
    omega

end
end Sys2Proof.Machine
end

section
/-! The reference speed and the payload through the steps of a demand sample (O36). -/

namespace Sys2Proof.Machine

section
variable {s t u a b : State} {asked : Prop} {q : Quality} {p : Option Nat} {m : Mode} {f : Dmc → Dmc}

/-! ### What the judgement of the reference speed reads -/

/-- The parts of two states that R108 to R111 read are the same. -/
structure SameSources (a b : State) : Prop where
  steady : Steady true a b
  quality : b.tcu.quality = a.tcu.quality
  vRef : b.tcu.vRef = a.tcu.vRef
  wheelEx : b.pru.wheelEx = a.pru.wheelEx

theorem unit_reporting {r r' : UnitRec} (h : r.firm = r'.firm) : r.reporting = r'.reporting := by
  have hstate := congrArg UnitRec.state h
  have hheld := congrArg UnitRec.held h
  have e1 : r.state = r'.state := hstate
  have e2 : r.held = r'.held := hheld
  rw [UnitRec.reporting, UnitRec.reporting, UnitRec.present, UnitRec.present, e1, e2]

theorem firm_held {r r' : TcuWheel} (h : r.firm = r'.firm) : r.held = r'.held := by
  have e := congrArg TcuWheel.held h
  exact e

theorem SameSources.judged (h : Steady true a b) : b.judgedQuality = a.judgedQuality := by
  have hsau : a.cfg.steerSau = true → b.wlc.sau.reporting = a.wlc.sau.reporting := fun hc =>
    unit_reporting (h.units .sau hc)
  rw [State.judgedQuality, State.judgedQuality, h.cfg, h.demand]
  cases hc : a.cfg.steerSau with
  | false => simp only [Bool.and_false, Bool.false_and]
  | true => rw [hsau hc]

theorem SameSources.speedWheel (h : SameSources a b) : b.speedWheel = a.speedWheel := funext fun w => by
  rw [State.speedWheel, State.speedWheel, h.steady.cfg, h.wheelEx]
  have hheld : (b.tcu.wheels.get w).held = (a.tcu.wheels.get w).held :=
    firm_held (h.steady.tcu rfl w)
  cases hc : a.cfg.wheel w with
  | false => simp only [Bool.false_and]
  | true =>
    have k : (b.wlc.wheels.get w).reporting = (a.wlc.wheels.get w).reporting :=
      unit_reporting (h.steady.units (.wheel w) hc)
    rw [k, hheld]

theorem SameSources.groundOf (h : Steady true a b) (w : Wheel) : b.groundOf w = a.groundOf w := by
  have hheld : (b.tcu.wheels.get w).held = (a.tcu.wheels.get w).held := firm_held (h.tcu rfl w)
  rw [State.groundOf, State.groundOf, hheld, h.cfg]

theorem ReferenceTaken.along (h : ReferenceTaken a) (k : SameSources a b)
    (hsub : b.dmc.substate = a.dmc.substate ∧ b.dmc.target = a.dmc.target) : ReferenceTaken b := by
  have hspeed : ∀ w, b.isSpeedWheel w ↔ a.isSpeedWheel w := fun w => by
    rw [← speedWheel_iff, ← speedWheel_iff, k.speedWheel]
  have hground := SameSources.groundOf k.steady
  obtain ⟨hquality, hunknown, hknown⟩ := h
  rw [← judgedQuality_eq] at hquality
  refine ⟨?_, ?_, ?_⟩
  · rw [← judgedQuality_eq, SameSources.judged k.steady, k.quality, hquality]
  all_goals simp only [hspeed, hground, k.quality, k.vRef, hsub.1, hsub.2]
  · exact hunknown
  · exact hknown

/-! ### What an acceptance leaves, and what a change of the substate takes up again -/

/-- The payload, and when a page was accepted the judged quality with its hint and UNIT_CHANGE; a new substate
is not followed yet. -/
structure Judged (asked : Prop) (q : Quality) (p : Option Nat) (t : State) : Prop where
  payload : t.lmu.payload = p
  quality : asked → t.tcu.quality = t.judgedQuality
  hint : asked → t.tcu.quality = .hint → t.tcu.vRef = t.dmc.demand.hint
  raised : asked → t.tcu.quality ≠ q → Cls.unitChange.isIn t.atc.pending = true

/-- The substate is followed too: a quality that is not the one before the page has its V_ref taken. -/
structure Referred (asked : Prop) (q : Quality) (p : Option Nat) (t : State) : Prop extends Judged asked q p t where
  taken : asked → t.tcu.quality ≠ q → ReferenceTaken t

theorem Judged.along (h : Judged asked q p a) (k : Steady true a b) (hq : b.tcu.quality = a.tcu.quality)
    (hv : b.tcu.vRef = a.tcu.vRef) : Judged asked q p b where
  payload := (congrArg Lmu.payload (k.lmu rfl)).trans h.payload
  quality := fun ha => by rw [hq, SameSources.judged k, h.quality ha]
  hint := fun ha e => by rw [hv, k.demand, h.hint ha (hq ▸ e)]
  raised := fun ha e => k.attention _ (h.raised ha (hq ▸ e))

theorem Referred.along (h : Referred asked q p a) (k : SameSources a b)
    (hsub : b.dmc.substate = a.dmc.substate ∧ b.dmc.target = a.dmc.target := by simp) : Referred asked q p b :=
  ⟨h.toJudged.along k.steady k.quality k.vRef, fun ha e => (h.taken ha (k.quality ▸ e)).along k hsub⟩

/-- A quality that stands as it is judged changes nothing of V_ref but in quality DEGRADED. -/
theorem Judged.turned (h : Judged asked q p a) (k : Steady true a b) (hq : b.tcu.quality = a.judgedQuality)
    (hv : b.tcu.vRef = a.turnedSpeed.1) (ht : ReferenceTaken b) : Referred asked q p b where
  payload := (congrArg Lmu.payload (k.lmu rfl)).trans h.payload
  quality := fun ha => by rw [hq, SameSources.judged k]
  hint := fun ha e => by
    have hj := hq.symm.trans e
    have hold := (h.quality ha).trans hj
    rw [hv, State.turnedSpeed, hj, k.demand, ← h.hint ha hold]
    exact congrArg Prod.fst (if_pos hold)
  raised := fun ha e => k.attention _ (h.raised ha (by rw [h.quality ha, ← hq]; exact e))
  taken := fun _ _ => ht

theorem Judged.announced (h : Judged asked q p a) : Referred asked q p (announceSubstate a) :=
  h.turned (announceSubstate_steady (.refl true a)) (by rw [announceSubstate_tcu]; rfl)
    (by rw [announceSubstate_tcu]; rfl) (announceSubstate_reference a)

theorem takeExclusion_sources (old : PerWheel Bool) (w : Wheel) (s : State) :
    SameSources s (takeExclusion old w s) ∧ (takeExclusion old w s).dmc = s.dmc := by
  unfold takeExclusion
  split
  · refine ⟨⟨excludeAtTcu_steady (.refl true s) w, ?_, ?_, ?_⟩, ?_⟩ <;>
      simp only [excludeAtTcu, alterWheel] <;> split <;> simp [setTcuWheel, noteIf] <;> split <;> simp
  · exact ⟨⟨.refl true s, rfl, rfl, rfl⟩, rfl⟩

theorem SameSources.trans (h : SameSources a b) (k : SameSources b t) : SameSources a t :=
  ⟨h.steady.trans k.steady, k.quality.trans h.quality, k.vRef.trans h.vRef, k.wheelEx.trans h.wheelEx⟩

theorem wheelsExcluded_sources (old : PerWheel Bool) (s : State) :
    SameSources s (forWheels (takeExclusion old) s) ∧ (forWheels (takeExclusion old) s).dmc = s.dmc := by
  have h := fun w s => takeExclusion_sources old w s
  exact ⟨((((h .w1 s).1.trans (h .w2 _).1).trans (h .w3 _).1).trans (h .w4 _).1),
    (((h .w4 _).2.trans (h .w3 _).2).trans (h .w2 _).2).trans (h .w1 s).2⟩

theorem tcuExclusion_tcu (old : PerWheel Bool) (s : State) :
    (tcuExclusion old s).tcu.quality = (forWheels (takeExclusion old) s).judgedQuality ∧
      (tcuExclusion old s).tcu.vRef = (forWheels (takeExclusion old) s).turnedSpeed.1 := by
  rw [tcuExclusion_eq, (putTcuSection_frame _).2.2.2.2.2.2.2.2.2.2.2.1, judged_tcu]
  exact ⟨rfl, rfl⟩

theorem Judged.excluded (h : Judged asked q p a) (old : PerWheel Bool) :
    Referred asked q p (tcuExclusion old a) := by
  have k := (wheelsExcluded_sources old a).1
  obtain ⟨hq, hv⟩ := tcuExclusion_tcu old a
  refine (h.along k.steady k.quality k.vRef).turned (b := tcuExclusion old a) ?_ hq hv (tcuExclusion_referenceTaken old a)
  rw [tcuExclusion_eq]
  exact putTcuSection_steady (recomputeIn_steady (judgeQuality_steady (.refl true _)) _)

/-! ### The steps of the sample -/

theorem modeShown_steady (hf : ∀ d, (f d).demand = d.demand ∧ (f d).lastSeq = d.lastSeq ∧ (f d).period = d.period) :
    Steady true s (modeShown m f s) := by
  have hd : (s.dmc.startCounting m s.clock).demand = s.dmc.demand ∧
      (s.dmc.startCounting m s.clock).lastSeq = s.dmc.lastSeq ∧
      (s.dmc.startCounting m s.clock).period = s.dmc.period := by
    unfold Dmc.startCounting
    split <;> exact ⟨rfl, rfl, rfl⟩
  obtain ⟨f1, f2, f3⟩ := hf (s.dmc.startCounting m s.clock)
  refine putDmcSection_steady (put_steady_of (raise_steady (setTripOut_steady (setDmc_steady (.refl true s) ?_ ?_ ?_) _) _)
    1 (by simp) fun b _ _ => busy_section (by omega))
  · exact f1.trans hd.1
  · exact f2.trans hd.2.1
  · exact f3.trans hd.2.2

theorem changeMode_referred (h : Referred asked q p s)
    (hf : ∀ d, (f d).demand = d.demand ∧ (f d).lastSeq = d.lastSeq ∧ (f d).period = d.period) :
    Referred asked q p (changeMode m f s) := by
  have hshown : Steady true s (modeShown m f s) := modeShown_steady hf
  have htcu : (modeShown m f s).tcu = s.tcu := by simp [modeShown]
  have hpru : (modeShown m f s).pru = s.pru := by simp [modeShown]
  have k : Referred asked q p (modeAnnounced m f s) := by
    unfold modeAnnounced
    split
    case isTrue e => exact h.along ⟨hshown, by rw [htcu], by rw [htcu], by rw [hpru]⟩ (by rw [modeShown_dmc]; exact e)
    case isFalse => exact (h.toJudged.along hshown (by rw [htcu]) (by rw [htcu])).announced
  rw [changeMode_eq]
  exact k.along ⟨wlcModeChange_steady (stcModeChange_steady (rgcModeChange_steady (.refl true _))), by simp, by simp,
    by simp⟩

/-- A change of the DMC's record that keeps the demand, before its substate is made known. -/
theorem Judged.setDmc (h : Judged asked q p s) {d : Dmc} (hd : d.demand = s.dmc.demand ∧ d.lastSeq = s.dmc.lastSeq ∧
    d.period = s.dmc.period) : Judged asked q p (s.setDmc d) :=
  h.along (setDmc_steady (.refl true s) hd.1 hd.2.1 hd.2.2) rfl rfl

theorem Referred.setDmc (h : Referred asked q p s) {d : Dmc} (hd : d.demand = s.dmc.demand ∧
      d.lastSeq = s.dmc.lastSeq ∧ d.period = s.dmc.period)
    (hsub : d.substate = s.dmc.substate ∧ d.target = s.dmc.target) : Referred asked q p (s.setDmc d) :=
  h.along ⟨setDmc_steady (.refl true s) hd.1 hd.2.1 hd.2.2, rfl, rfl, rfl⟩ hsub

theorem setSubstate_referred (h : Referred asked q p s) (sub : Substate) (target : Target) :
    Referred asked q p (setSubstate sub target s) := by
  unfold setSubstate
  split
  · exact h
  · exact Judged.announced (h.toJudged.setDmc ⟨rfl, rfl, rfl⟩)

theorem formAndMove_referred (h : Referred asked q p s) : Referred asked q p (formAndMove s) := by
  have k : Referred asked q p (formDemands s) := h.setDmc ⟨rfl, rfl, rfl⟩ ⟨rfl, rfl⟩
  unfold formAndMove endChangeover
  dsimp only
  split
  · exact setSubstate_referred (setSubstate_referred k _ _) _ _
  · exact setSubstate_referred k _ _

theorem requestQuiet_referred (h : Referred asked q p s) : Referred asked q p (requestQuiet s) :=
  h.along ⟨requestQuiet_steady (.refl true s), by simp, by simp, by simp⟩

theorem enterTripped_referred (h : Referred asked q p s) : Referred asked q p (enterTripped s) :=
  requestQuiet_referred (changeMode_referred h fun _ => ⟨rfl, rfl, rfl⟩)

theorem enterSafeStop_referred (h : Referred asked q p s) : Referred asked q p (enterSafeStop s) :=
  formAndMove_referred (changeMode_referred h fun _ => ⟨rfl, rfl, rfl⟩)

theorem enterReady_referred (h : Referred asked q p s) : Referred asked q p (enterReady s) := by
  unfold enterReady
  dsimp only
  split
  · exact enterSafeStop_referred (changeMode_referred h fun _ => ⟨rfl, rfl, rfl⟩)
  · exact changeMode_referred h fun _ => ⟨rfl, rfl, rfl⟩

theorem driveToReady_referred (h : Referred asked q p s) : Referred asked q p (driveToReady s) := by
  unfold driveToReady
  dsimp only
  split
  · exact enterSafeStop_referred (changeMode_referred h fun _ => ⟨rfl, rfl, rfl⟩)
  · exact changeMode_referred h fun _ => ⟨rfl, rfl, rfl⟩

theorem enrolling_referred (h : Referred asked q p s) : Referred asked q p s.enrolling := by
  have k : Steady true s s.enrolling := setCfl_steady (.refl true s) rfl
  exact h.along ⟨k, rfl, rfl, rfl⟩ ⟨rfl, rfl⟩

theorem standbyToStarting_referred (h : Referred asked q p s) : Referred asked q p (standbyToStarting s) := by
  have hstart : standbyToStarting s = startRollCall (startingReached s).enrolling := by rw [standbyToStarting_eq]
  have k : Referred asked q p (startingReached s) := by
    rw [startingReached]
    exact changeMode_referred h fun _ => ⟨rfl, rfl, rfl⟩
  have k2 := enrolling_referred k
  rw [hstart]
  exact k2.along ⟨startRollCall_steady (.refl true _), by simp, by simp, (startRollCall_fades _).sets.1⟩

theorem severityChange_referred (h : Referred asked q p s) : Referred asked q p (severityChange s) := by
  unfold severityChange
  split
  case h_6 =>
    split
    · exact enterTripped_referred h
    · exact standbyToStarting_referred h
  · exact enterSafeStop_referred h
  · exact enterSafeStop_referred h
  · exact enterTripped_referred h
  · exact enterTripped_referred h
  · exact enterTripped_referred h
  · exact h

theorem setsHeeded_referred (h : Referred asked q p s) : Referred asked q p (setsHeeded s) := by
  have hsteady : Steady true s (setsTaken s) := updatePru_steady (.refl true s) (fun _ => rfl) rfl
  have htcu : (setsTaken s).tcu = s.tcu := by simp [setsTaken]
  have hdmc : (setsTaken s).dmc = s.dmc := by simp [setsTaken]
  unfold setsHeeded
  split
  case isTrue e => exact h.along ⟨hsteady, by rw [htcu], by rw [htcu], e.1⟩ (by rw [hdmc]; exact ⟨rfl, rfl⟩)
  case isFalse =>
    have k : Referred asked q p (tcuExclusion s.pru.wheelEx (setsTaken s)) :=
      (h.toJudged.along hsteady (by rw [htcu]) (by rw [htcu])).excluded _
    exact k.along ⟨rgcExclusion_steady (.refl true _) _, by simp, by simp, by simp⟩

theorem deliver_referred (h : Referred asked q p s) : Referred asked q p (deliver s) := by
  unfold deliver
  split
  · split
    · exact h
    · have k : Referred asked q p (updatePru { s.pru with summary := formSummary s.pru.entries } s) :=
        h.along ⟨updatePru_steady (.refl true s) (fun _ => rfl) rfl, by simp, by simp, by rw [updatePru_pru]⟩
      exact severityChange_referred (k.along ⟨announceSummary_steady (.refl true _), by simp, by simp, by simp⟩)
  · rw [deliverSets_eq]
    have hex : (observeEscalation (setsHeeded s)).pru.wheelEx = (setsHeeded s).pru.wheelEx := by
      rw [observeEscalation, note_wheelEx, note_wheelEx]
    exact (setsHeeded_referred h).along ⟨observeEscalation_steady (.refl true _), by simp, by simp, hex⟩

theorem settle_referred (h : Referred asked q p s) : Referred asked q p (settle s) :=
  settle_of_deliver (fun _ => deliver_referred) h

end
end Sys2Proof.Machine
end

section
/-! A demand sample: freshness, and the sample assembled (O36). -/

namespace Sys2Proof.Machine

section
variable {s t u a b : State} {asked : Prop} {q : Quality} {p p' : Option Nat} {m : Mode} {f : Dmc → Dmc}
  {x : Freshness} {r : Long}

/-! ### The acceptance of a page at the TCU and the LMU -/

theorem lmuPage_tcu (s : State) : (lmuPage s).tcu = s.tcu ∧ (lmuPage s).dmc = s.dmc ∧ (lmuPage s).cfl = s.cfl ∧
    (lmuPage s).wlc = s.wlc ∧ (lmuPage s).pru = s.pru := by
  simp

theorem lmuPage_payload (h : s.dmc.demand.payloadKnown = true) : (lmuPage s).lmu.payload =
    if s.lmu.payload = none then some s.dmc.demand.payload else s.lmu.payload := by
  unfold lmuPage latchPayload
  rw [if_pos h]
  cases hp : s.lmu.payload with
  | none => simp
  | some v => simp [hp]

theorem tcuPage_eq (s : State) : tcuPage s = putTcuSection (recomputeIn .hint (judgeQuality s)) := by
  simp only [tcuPage, runAll]

theorem recomputeIn_hint (h : s.tcu.quality = .hint) : (recomputeIn .hint s).tcu.vRef = s.dmc.demand.hint := by
  rw [recomputeIn, if_pos h, recomputeVRef, h]
  rfl

theorem judgeQuality_degraded (hj : s.judgedQuality = .degraded) (hq : s.tcu.quality ≠ .degraded) :
    (judgeQuality s).tcu.vRef = s.degradedSpeed := by
  rw [judgeQuality_tcu, if_neg (by rw [hj]; exact Ne.symm hq), hj]
  rfl

theorem judgeQuality_raised (h : s.judgedQuality ≠ s.tcu.quality) :
    Cls.unitChange.isIn (judgeQuality s).atc.pending = true := by
  rw [judgeQuality, if_neg h, (raise_raised .unitChange _).pending]
  simp

/-- An acceptance judges the quality, takes up the hint, and follows a quality that it finds changed. -/
theorem tcuPage_judged (s : State) : Referred asked s.tcu.quality s.lmu.payload (tcuPage s) := by
  have hkept : (tcuPage s).cfl = s.cfl ∧ (tcuPage s).wlc = s.wlc ∧ (tcuPage s).dmc = s.dmc ∧
      (tcuPage s).pru = s.pru ∧ (tcuPage s).lmu = s.lmu := by simp
  obtain ⟨hcfl, hwlc, hdmc, hpru, hlmu⟩ := hkept
  have hjudged : (tcuPage s).judgedQuality = s.judgedQuality := judgedQuality_congr hcfl hwlc hdmc
  have htcu : (tcuPage s).tcu = (recomputeIn .hint (judgeQuality s)).tcu := by rw [tcuPage_eq]; simp
  have hquality : (tcuPage s).tcu.quality = s.judgedQuality := by
    rw [htcu, recomputeIn_quality, judgeQuality_quality]
  have hwheels : (tcuPage s).tcu.wheels = s.tcu.wheels := by rw [htcu, recomputeIn_wheels, judgeQuality_wheels]
  refine ⟨⟨by rw [hlmu], fun _ => hquality.trans hjudged.symm, fun _ e => ?_, fun _ e => ?_⟩, fun _ e => ?_⟩
  · rw [htcu, recomputeIn_hint (by rw [judgeQuality_quality, ← hquality]; exact e), hdmc]
    simp
  · rw [tcuPage_eq]
    exact (putTcuSection_steady (recomputeIn_steady (.refl false _) .hint)).attention _
      (judgeQuality_raised (by rw [← hquality]; exact e))
  · refine .of_judged (hquality.trans hjudged.symm) fun hd => ?_
    have hj := hquality.symm.trans hd
    have hkeep : recomputeIn .hint (judgeQuality s) = judgeQuality s :=
      if_neg (by rw [judgeQuality_quality, hj]; decide)
    rw [htcu, hkeep, judgeQuality_degraded hj (fun k => e (hd.trans k.symm))]
    exact (degradedSpeed_congr hcfl hwlc hdmc hwheels hpru).symm

/-! ### The steps up to freshness -/

/-- What leaves the sources of the reference speed, the payload and the pending classes as they are. -/
theorem Referred.same (h : Referred asked q p a) (hcfl : b.cfl = a.cfl) (hwlc : b.wlc = a.wlc) (htcu : b.tcu = a.tcu)
    (hlmu : b.lmu.payload = p') (hex : b.pru.wheelEx = a.pru.wheelEx) (hdemand : b.dmc.demand = a.dmc.demand)
    (hsub : b.dmc.substate = a.dmc.substate ∧ b.dmc.target = a.dmc.target)
    (hatc : ∀ c : Cls, c.isIn a.atc.pending = true → c.isIn b.atc.pending = true) : Referred asked q p' b := by
  have hcfg : b.cfg = a.cfg := congrArg Cfl.active hcfl
  have hjudged : b.judgedQuality = a.judgedQuality := by
    rw [State.judgedQuality, State.judgedQuality, hcfg, hwlc, hdemand]
  have hspeed : ∀ w, b.isSpeedWheel w ↔ a.isSpeedWheel w := fun w => by
    rw [← speedWheel_iff, ← speedWheel_iff, State.speedWheel, State.speedWheel, hcfg, hwlc, htcu, hex]
  have hground : ∀ w, b.groundOf w = a.groundOf w := fun w => by rw [State.groundOf, State.groundOf, hcfg, htcu]
  refine ⟨⟨hlmu, fun ha => ?_, fun ha => ?_, fun ha => ?_⟩, fun ha e => ?_⟩
  · rw [htcu, hjudged]
    exact h.quality ha
  · rw [htcu, hdemand]
    exact h.hint ha
  · rw [htcu]
    exact fun e => hatc _ (h.raised ha e)
  · obtain ⟨hq, hu, hk⟩ := h.taken ha (htcu ▸ e)
    refine ⟨?_, ?_, ?_⟩
    · rw [htcu, ← judgedQuality_eq, hjudged, judgedQuality_eq]
      exact hq
    all_goals simp only [hspeed, hground, htcu, hsub.1, hsub.2]
    · exact hu
    · exact hk

/-- The payload after step 1 (R168). -/
def State.payloadTaken (s : State) : Option Nat :=
  if s.pageAccepted = true ∧ s.lmu.payload = none then some s.pageTaken.dmc.demand.payload else s.lmu.payload

theorem takePage_referred (s : State) :
    Referred (s.pageAccepted = true) s.tcu.quality s.payloadTaken (takePage s) := by
  cases h : s.pageAccepted with
  | false =>
    have hoff : ¬(false = true) := Bool.false_ne_true
    rw [takePage_ignored h]
    refine ⟨⟨?_, fun k => absurd k hoff, fun k => absurd k hoff, fun k => absurd k hoff⟩, fun k => absurd k hoff⟩
    rw [State.payloadTaken, h, if_neg fun k => hoff k.1]
  | true =>
    have k : Referred (true = true) s.pageRead.tcu.quality _ (tcuPage s.pageRead) := tcuPage_judged s.pageRead
    obtain ⟨htcu, hdmc, hcfl, hwlc, hpru⟩ := lmuPage_tcu (tcuPage s.pageRead)
    have hdmc' : (tcuPage s.pageRead).dmc = s.pageRead.dmc := by simp
    have hlmu' : (tcuPage s.pageRead).lmu = s.lmu := by simp [State.pageRead]
    have hpay := lmuPage_payload (s := tcuPage s.pageRead) (by rw [hdmc']; rfl)
    have htaken : s.pageTaken = s.pageRead := if_pos h
    have hatc := (lmuPage_steady (.refl false (tcuPage s.pageRead))).attention
    rw [hdmc', hlmu'] at hpay
    rw [takePage_accepted h, acceptPage_eq, State.payloadTaken, htaken]
    refine k.same hcfl hwlc htcu ?_ (by rw [hpru]) (by rw [hdmc]) (by rw [hdmc]; exact ⟨rfl, rfl⟩) hatc
    rw [hpay]
    simp only [h, true_and]

theorem updateFreshness_referred (h : Referred asked q p s) : Referred asked q p (updateFreshness s) := by
  have hatc := (updateFreshness_steady (.refl false s)).attention
  have hdmc : (updateFreshness s).dmc = { s.dmc with fresh := (updateFreshness s).dmc.fresh } := by
    unfold updateFreshness
    split <;> simp
  have hex : (updateFreshness s).pru.wheelEx = s.pru.wheelEx := by
    unfold updateFreshness
    split
    · simp only [noteChange, noteIf, raiseIf_pru]
      repeat' split
      all_goals simp
    · rfl
  refine h.same (by simp) (by simp) (by simp) ?_ hex (by rw [hdmc]) (by rw [hdmc]; exact ⟨rfl, rfl⟩) hatc
  rw [(by simp : (updateFreshness s).lmu = s.lmu)]
  exact h.payload

/-! ### The steps after freshness -/

theorem wake_referred (h : Referred asked q p s) (b : Bool) : Referred asked q p (wake b s) := by
  unfold wake leaveStandbySteps
  split
  · split
    · exact enterReady_referred h
    · exact standbyToStarting_referred h
  · exact h

theorem countStop_referred (h : Referred asked q p s) : Referred asked q p (countStop s) := by
  unfold countStop finishStop
  split
  · split
    · exact enterTripped_referred (h.setDmc ⟨rfl, rfl, rfl⟩ ⟨rfl, rfl⟩)
    · exact h.setDmc ⟨rfl, rfl, rfl⟩ ⟨rfl, rfl⟩
  · exact h.setDmc ⟨rfl, rfl, rfl⟩ ⟨rfl, rfl⟩

theorem enterDriveCheck_referred (h : Referred asked q p s) : Referred asked q p (enterDriveCheck s) := by
  unfold enterDriveCheck
  dsimp only
  split
  · exact h.setDmc ⟨rfl, rfl, rfl⟩ ⟨rfl, rfl⟩
  · split
    · exact changeMode_referred h fun _ => ⟨rfl, rfl, rfl⟩
    · exact h.setDmc ⟨rfl, rfl, rfl⟩ ⟨rfl, rfl⟩

theorem modeChecks_referred (h : Referred asked q p s) : Referred asked q p (modeChecks s) := by
  unfold modeChecks returnCheck
  split
  case h_1 =>
    split
    · exact enterReady_referred h
    · exact h
  case h_2 => exact countStop_referred h
  case h_3 => exact enterDriveCheck_referred h
  all_goals exact h

theorem adoptDirection_referred (h : Referred asked q p s) (d : Direction) :
    Referred asked q p (adoptDirection d s) := by
  have k : Referred asked q p (s.setDmc { s.dmc with adopted := d, pendingDir := none }) :=
    h.setDmc ⟨rfl, rfl, rfl⟩ ⟨rfl, rfl⟩
  unfold adoptDirection
  dsimp only
  split
  · exact setSubstate_referred k _ _
  · exact k

theorem directionCheck_referred (h : Referred asked q p s) : Referred asked q p (directionCheck s) := by
  have hpend : ∀ d, Referred asked q p (s.setDmc { s.dmc with pendingDir := d }) := fun _ =>
    h.setDmc ⟨rfl, rfl, rfl⟩ ⟨rfl, rfl⟩
  unfold directionCheck
  dsimp only
  split
  · exact h
  split
  · exact hpend _
  split
  · split
    · exact driveToReady_referred h
    · exact hpend _
  split
  · exact adoptDirection_referred h _
  · exact hpend _

theorem putDmcSection_referred (h : Referred asked q p s) : Referred asked q p (putDmcSection s) :=
  h.along ⟨putDmcSection_steady (.refl true s), by simp, by simp, by simp⟩

theorem sample_referred (h : Referred asked q p s) : Referred asked q p (settle (putDmcSection (demandStep
    (directionCheck (modeChecks s))))) := by
  have k := directionCheck_referred (modeChecks_referred h)
  refine settle_referred (putDmcSection_referred ?_)
  unfold demandStep
  split
  · exact formAndMove_referred k
  · exact k

/-- The sample as its first step and those after it. -/
theorem demandSteps_eq (s : State) : demandSteps s = putDmcSection (demandStep (directionCheck (modeChecks
    (wake s.pageAccepted (updateFreshness (takePage (takeDemandPeriod s))))))) := by
  simp only [demandSteps, runAll]
  rfl

theorem demandSample_referred (s : State) : Referred (s.pageAccepted = true) s.tcu.quality
    (takeDemandPeriod s).payloadTaken (settle (demandSteps s)) := by
  rw [demandSteps_eq]
  exact sample_referred (wake_referred (updateFreshness_referred (takePage_referred (takeDemandPeriod s))) _)

/-! ### Freshness (R60, R61) -/

/-- The freshness of a part that counts it. -/
structure Counts (x : Freshness) (r : Long) (d : Dmc) : Prop where
  fresh : d.fresh = x
  ref : d.freshRef = r
  counted : d.mode.counted = true

theorem Counts.moved (h : Counts x r s.dmc) (hm : m.counted = true)
    (hf : ∀ d, (f d).fresh = d.fresh ∧ (f d).freshRef = d.freshRef) : Counts x r (changeMode m f s).dmc := by
  have hstart : s.dmc.startCounting m s.clock = s.dmc := by simp [Dmc.startCounting, h.counted]
  rw [changeMode_dmc, State.movedDmc, hstart]
  exact ⟨(hf _).1.trans h.fresh, (hf _).2.trans h.ref, hm⟩

theorem Counts.substate (h : Counts x r s.dmc) (sub : Substate) (target : Target) :
    Counts x r (setSubstate sub target s).dmc := by
  rw [setSubstate_dmc]
  exact ⟨h.fresh, h.ref, h.counted⟩

theorem Counts.formed (h : Counts x r s.dmc) : Counts x r (formAndMove s).dmc := by
  rw [formAndMove_dmc]
  exact ⟨h.fresh, h.ref, h.counted⟩

theorem Counts.tripped (h : Counts x r s.dmc) : Counts x r (enterTripped s).dmc := by
  have k : Counts x r (changeMode .tripped (fun d => { d.atRest with credit := false }) s).dmc :=
    h.moved rfl fun _ => ⟨rfl, rfl⟩
  have e : (enterTripped s).dmc = (changeMode .tripped (fun d => { d.atRest with credit := false }) s).dmc := by
    simp only [enterTripped, requestQuiet_frame]
  rw [e]
  exact k

theorem Counts.safeStop (h : Counts x r s.dmc) : Counts x r (enterSafeStop s).dmc := by
  unfold enterSafeStop
  exact Counts.formed (h.moved rfl fun _ => ⟨rfl, rfl⟩)

theorem Counts.ready (h : Counts x r s.dmc) : Counts x r (enterReady s).dmc := by
  unfold enterReady
  dsimp only
  split
  · exact Counts.safeStop (h.moved rfl fun _ => ⟨rfl, rfl⟩)
  · exact h.moved rfl fun _ => ⟨rfl, rfl⟩

theorem Counts.driveToReady (h : Counts x r s.dmc) : Counts x r (driveToReady s).dmc := by
  unfold Machine.driveToReady
  dsimp only
  split
  · exact Counts.safeStop (h.moved rfl fun _ => ⟨rfl, rfl⟩)
  · exact h.moved rfl fun _ => ⟨rfl, rfl⟩

theorem Counts.checked (h : Counts x r s.dmc) : Counts x r (modeChecks s).dmc := by
  have hset : ∀ d : Dmc, d.fresh = s.dmc.fresh → d.freshRef = s.dmc.freshRef → d.mode = s.dmc.mode →
      Counts x r d := fun d h1 h2 h3 => ⟨h1.trans h.fresh, h2.trans h.ref, h3 ▸ h.counted⟩
  unfold modeChecks returnCheck countStop finishStop enterDriveCheck
  dsimp only
  repeat' split
  · exact h.ready
  · exact h
  · exact Counts.tripped (hset _ rfl rfl rfl)
  · exact hset _ rfl rfl rfl
  · exact hset _ rfl rfl rfl
  · exact hset _ rfl rfl rfl
  · exact h.moved rfl fun _ => ⟨rfl, rfl⟩
  · exact hset _ rfl rfl rfl
  all_goals exact h

theorem Counts.directed (h : Counts x r s.dmc) : Counts x r (directionCheck s).dmc := by
  have hset : ∀ d : Dmc, d.fresh = s.dmc.fresh → d.freshRef = s.dmc.freshRef → d.mode = s.dmc.mode →
      Counts x r d := fun d h1 h2 h3 => ⟨h1.trans h.fresh, h2.trans h.ref, h3 ▸ h.counted⟩
  unfold directionCheck adoptDirection
  dsimp only
  repeat' split
  · exact h
  · exact hset _ rfl rfl rfl
  · exact h.driveToReady
  · exact hset _ rfl rfl rfl
  · rw [setSubstate_dmc]
    exact hset _ rfl rfl rfl
  · exact hset _ rfl rfl rfl
  · exact hset _ rfl rfl rfl

/-- While the demand is STALE or LOST propel is masked in the modes with torque (R66). -/
structure Masked (x : Freshness) (r : Long) (d : Dmc) : Prop extends Counts x r d where
  masked : d.mode.working = true → d.masks.stale = x.isStale ∧ (x.isStale = true → d.effPropel = 0)

theorem Counts.masked (h : Counts x r s.dmc) : Masked x r (formAndMove s).dmc := by
  refine ⟨h.formed, fun _ => ?_⟩
  have hstale : s.formedMasks.stale = x.isStale := by
    show (s.dmc.fresh == .stale || s.dmc.fresh == .lost) = x.isStale
    rw [h.fresh]
    cases x <;> rfl
  rw [formAndMove_dmc]
  refine ⟨hstale, fun e => if_pos ?_⟩
  rw [Masks.any, Masks.anyButForced, hstale, e]
  simp

theorem Counts.idle (h : Counts x r s.dmc) (hw : s.dmc.mode.working = false) : Masked x r s.dmc :=
  ⟨h, fun k => absurd k (by rw [hw]; exact Bool.false_ne_true)⟩

theorem Counts.stepped (h : Counts x r s.dmc) : Masked x r (demandStep s).dmc := by
  unfold demandStep
  split
  · exact h.masked
  · exact h.idle (by rename_i k; simpa using k)

theorem Masked.severity (h : Masked x r s.dmc) : Masked x r (severityChange s).dmc := by
  have htrip : Masked x r (enterTripped s).dmc :=
    h.toCounts.tripped.idle (by rw [(enterTripped_entered s).dmc]; rfl)
  have hstop : Masked x r (enterSafeStop s).dmc := by
    unfold enterSafeStop
    exact Counts.masked (h.toCounts.moved rfl fun _ => ⟨rfl, rfl⟩)
  have hcount := h.counted
  unfold severityChange
  split
  case h_6 hm =>
    rw [hm] at hcount
    exact absurd hcount Bool.false_ne_true
  · exact hstop
  · exact hstop
  · exact htrip
  · exact htrip
  · exact htrip
  · exact h

theorem Masked.deliver (h : Masked x r s.dmc) : Masked x r (deliver s).dmc := by
  unfold Machine.deliver
  split
  · split
    · exact h
    · refine Masked.severity ?_
      have e : (announceSummary (updatePru { s.pru with summary := formSummary s.pru.entries } s)).dmc = s.dmc := by
        simp
      rw [e]
      exact h
  · have e : (deliverSets s).dmc = s.dmc := by simp
    rw [e]
    exact h

theorem Masked.settled (h : Masked x r s.dmc) : Masked x r (settle s).dmc :=
  settle_of_deliver (P := fun t => Masked x r t.dmc) (fun _ => Masked.deliver) h

theorem updateFreshness_counts (h : s.dmc.mode.counted = true) :
    Counts (freshnessOf s.cfg s.dmc.fresh (s.since s.dmc.freshRef)) s.dmc.freshRef (updateFreshness s).dmc := by
  have e : (updateFreshness s).dmc =
      { s.dmc with fresh := freshnessOf s.cfg s.dmc.fresh (s.since s.dmc.freshRef) } := by
    unfold updateFreshness
    rw [if_pos h]
    simp
  rw [e]
  exact ⟨rfl, rfl, h⟩

end
end Sys2Proof.Machine
end

section
/-! A demand sample, assembled (O36). -/

namespace Sys2Proof.Machine

section
variable {s t u : State} {base : Nat} {x : Freshness} {k : Kind} {subject : Subject} {stale lost : Bool}

theorem exec_demandSample (hs : s.isRunning = true) : exec .demandSample s = .next (settle (demandSteps s)) :=
  whenRunning_of_running hs fun s => settle (demandSteps s)

/-! ### The page (R7, R8, R26) -/

/-- What every sample leaves (R26). -/
theorem demandSample_frame (s : State) : (settle (demandSteps s)).dmc.period = s.cfg.allocPeriod ∧
    (settle (demandSteps s)).cfg = s.cfg ∧ (settle (demandSteps s)).tqa = s.tqa ∧
    (settle (demandSteps s)).clock = s.clock ∧ (settle (demandSteps s)).pru.filter = s.pru.filter := by
  have h := sample_steady s
  have hcfl : (takeDemandPeriod s).pageTaken.cfl = s.cfl := by unfold State.pageTaken; split <;> rfl
  have hpru : (takeDemandPeriod s).pageTaken.pru = s.pru := by unfold State.pageTaken; split <;> rfl
  have hperiod : (takeDemandPeriod s).pageTaken.dmc.period = s.cfg.allocPeriod := by
    unfold State.pageTaken
    split <;> rfl
  refine ⟨h.period.trans hperiod, h.cfg.trans (congrArg Cfl.active hcfl), by simp, by simp, ?_⟩
  rw [h.filter, hpru]

/-- An accepted page (R7, R8). -/
theorem demandSample_accepted (hb : base = if s.word 0x0008 = 1 then 0x0180 else 0x0100) (hp : s.wlc.placed)
    (h : s.pageAccepted = true) : (settle (demandSteps s)).dmc.demand = s.livePage.demand s.cfg.lock s.clock ∧
      (settle (demandSteps s)).dmc.lastSeq = some s.livePage.sequence ∧
      PageShown base s (settle (demandSteps s)) := by
  have k := sample_steady s
  have htaken : (takeDemandPeriod s).pageTaken = (takeDemandPeriod s).pageRead := if_pos h
  rw [htaken] at k
  refine ⟨k.demand, k.lastSeq, ?_⟩
  have hshown : PageShown base s (takeDemandPeriod s).pageRead := by
    have e := pageRead_shown (s := takeDemandPeriod s) (base := base) hb
    exact ⟨e.stamp, e.anomaly, e.rest⟩
  exact hshown.of_pages (by rw [hb]; split <;> simp) fun x hx => k.pages hp x hx

/-- A page that is not accepted. -/
theorem demandSample_ignored (hp : s.wlc.placed) (h : s.pageAccepted = false) :
    (settle (demandSteps s)).dmc.demand = s.dmc.demand ∧ (settle (demandSteps s)).dmc.lastSeq = s.dmc.lastSeq ∧
      ∀ a, 0x0100 ≤ a → a < 0x0200 → (settle (demandSteps s)).xm.byte a = s.xm.byte a := by
  have k := sample_steady s
  have htaken : (takeDemandPeriod s).pageTaken = takeDemandPeriod s :=
    if_neg (by rw [show (takeDemandPeriod s).pageAccepted = s.pageAccepted from rfl, h]; exact Bool.false_ne_true)
  rw [htaken] at k
  exact ⟨k.demand, k.lastSeq, fun a h1 h2 => k.pages hp a ⟨h1, h2⟩⟩

theorem demandSample_payload (s : State) : (settle (demandSteps s)).lmu.payload =
    if s.pageAccepted = true ∧ s.lmu.payload = none then some (settle (demandSteps s)).dmc.demand.payload
      else s.lmu.payload := by
  rw [(demandSample_referred s).payload, (sample_steady s).demand]
  rfl

/-! ### Freshness -/

theorem updateFreshness_pru (hc : u.dmc.mode.counted = true) (hok : u.pru.ok)
    (hstale : stale = (freshnessOf u.cfg u.dmc.fresh (u.since u.dmc.freshRef)).isStale)
    (hlost : lost = (freshnessOf u.cfg u.dmc.fresh (u.since u.dmc.freshRef)).isLost) :
    (stale ≠ u.dmc.fresh.isStale → (updateFreshness u).pru.observed .demandStale .global stale) ∧
    (lost ≠ u.dmc.fresh.isLost → (updateFreshness u).pru.observed .demandLost .global lost) := by
  subst hstale hlost
  unfold updateFreshness
  rw [if_pos hc]
  dsimp only
  generalize freshnessOf u.cfg u.dmc.fresh (u.since u.dmc.freshRef) = x
  have hok' : (u.setDmc { u.dmc with fresh := x }).pru.ok := hok
  generalize u.setDmc { u.dmc with fresh := x } = v at hok'
  rw [raiseIf_pru]
  refine ⟨fun h => noteChange_observed_other (by simp) (noteChange_observed hok' _ _ h), fun h => ?_⟩
  refine noteChange_observed ?_ _ _ h
  unfold noteChange noteIf
  split
  · exact note_ok hok' _ _ _
  · exact hok'

theorem updateFreshness_raised (hc : u.dmc.mode.counted = true)
    (h : raisesStale u.dmc.fresh (freshnessOf u.cfg u.dmc.fresh (u.since u.dmc.freshRef)) = true) :
    Cls.demandStale.isIn (updateFreshness u).atc.pending = true := by
  unfold updateFreshness
  rw [if_pos hc]
  dsimp only
  rw [raiseIf, if_pos h, (raise_raised .demandStale _).pending]
  simp

/-- The sample of a part that counts freshness, up to step 2. -/
def State.refreshed (s : State) : State := updateFreshness (takePage (takeDemandPeriod s))

theorem takePage_dmc (hm : s.dmc.mode.counted = true) : (takePage (takeDemandPeriod s)).dmc = { s.dmc with
    demand := (takePage (takeDemandPeriod s)).dmc.demand, lastSeq := (takePage (takeDemandPeriod s)).dmc.lastSeq
    period := s.cfg.allocPeriod, freshRef := if s.pageAccepted then s.clock else s.dmc.freshRef } := by
  cases h : s.pageAccepted with
  | false =>
    rw [takePage_ignored (s := takeDemandPeriod s) h]
    rfl
  | true =>
    have e := acceptPage_dmc (pageBase ((takeDemandPeriod s).word 0x0008)) (takeDemandPeriod s).livePage
      (takeDemandPeriod s)
    rw [if_pos (show (takeDemandPeriod s).dmc.mode.counted = true from hm)] at e
    rw [takePage_accepted (s := takeDemandPeriod s) h, e]
    rfl

theorem counted_sample (hm : s.dmc.mode.counted = true) : demandSteps s =
    putDmcSection (demandStep (directionCheck (modeChecks s.refreshed))) := by
  have hcount := updateFreshness_counts (s := takePage (takeDemandPeriod s)) (by rw [takePage_dmc hm]; exact hm)
  have hwake : wake s.pageAccepted s.refreshed = s.refreshed := if_neg fun k => by
    have hc : s.refreshed.dmc.mode.counted = true := hcount.counted
    rw [k.1] at hc
    exact Bool.false_ne_true hc
  rw [demandSteps_eq]
  show putDmcSection (demandStep (directionCheck (modeChecks (wake s.pageAccepted s.refreshed)))) = _
  rw [hwake]

/-- What a sample leaves of freshness in the modes that count it (R60, R61, R66). -/
structure SampleFresh (s t : State) (x : Freshness) : Prop where
  masked : Masked x (if s.pageAccepted then s.clock else s.dmc.freshRef) t.dmc
  observed : s.pru.ok → (x.isStale ≠ s.dmc.fresh.isStale → t.pru.observed .demandStale .global x.isStale) ∧
    (x.isLost ≠ s.dmc.fresh.isLost → t.pru.observed .demandLost .global x.isLost)
  raised : raisesStale s.dmc.fresh x = true → Cls.demandStale.isIn t.atc.pending = true

theorem counted_fresh (hm : s.dmc.mode.counted = true) : SampleFresh s (settle (demandSteps s))
    (freshnessOf s.cfg s.dmc.fresh (s.since (if s.pageAccepted then s.clock else s.dmc.freshRef))) := by
  have hpru : (takePage (takeDemandPeriod s)).pru = s.pru := by simp
  have hclock : (takePage (takeDemandPeriod s)).clock = s.clock := by simp
  have hcfg : (takePage (takeDemandPeriod s)).cfg = s.cfg := by simp [State.cfg]
  have hdmc := takePage_dmc hm
  have hmode : (takePage (takeDemandPeriod s)).dmc.mode.counted = true := by rw [hdmc]; exact hm
  have hfresh : (takePage (takeDemandPeriod s)).dmc.fresh = s.dmc.fresh := by rw [hdmc]
  have href : (takePage (takeDemandPeriod s)).dmc.freshRef =
      if s.pageAccepted then s.clock else s.dmc.freshRef := by rw [hdmc]
  have hkept : (demandSteps s).pru = s.refreshed.pru := by
    rw [counted_sample hm]
    simp
  have hatc := (settle_steady (putDmcSection_steady (demandStep_steady (directionCheck_steady (modeChecks_steady
    (.refl false s.refreshed)))))).attention
  have hx : freshnessOf (takePage (takeDemandPeriod s)).cfg (takePage (takeDemandPeriod s)).dmc.fresh
      ((takePage (takeDemandPeriod s)).since (takePage (takeDemandPeriod s)).dmc.freshRef) =
      freshnessOf s.cfg s.dmc.fresh (s.since (if s.pageAccepted then s.clock else s.dmc.freshRef)) := by
    rw [hcfg, hfresh, href, State.since, State.since, hclock]
  have hcounts := updateFreshness_counts hmode
  rw [hx, href] at hcounts
  refine ⟨?_, fun hok => ?_, fun h => ?_⟩
  · rw [counted_sample hm]
    refine Masked.settled ?_
    rw [(putDmcSection_frame _).2.2.2.2.2.2.2.2.2.1]
    exact hcounts.checked.directed.stepped
  · have k := updateFreshness_pru hmode (hpru ▸ hok) rfl rfl
    rw [hx, hfresh] at k
    refine ⟨fun h => settle_observed rfl ?_, fun h => settle_observed rfl ?_⟩
    · rw [hkept]
      exact k.1 h
    · rw [hkept]
      exact k.2 h
  · rw [counted_sample hm]
    exact hatc _ (updateFreshness_raised hmode (by rw [hx, hfresh]; exact h))

theorem starting_fresh (hm : s.dmc.mode = .starting) : (settle (demandSteps s)).dmc.fresh = s.dmc.fresh ∧
    (settle (demandSteps s)).dmc.freshRef = s.dmc.freshRef ∧ (settle (demandSteps s)).dmc.mode = .starting := by
  have k := takePage_read (s := s) (by rw [hm]; rfl)
  have hdmc := k.dmc
  have hmode : (takePage (takeDemandPeriod s)).dmc.mode = .starting := by rw [hdmc]; exact hm
  have hwake : wake s.pageAccepted (takePage (takeDemandPeriod s)) = takePage (takeDemandPeriod s) :=
    if_neg fun e => by rw [hmode] at e; exact Mode.noConfusion e.1
  have hsteps : demandSteps s = putDmcSection (takePage (takeDemandPeriod s)) := by
    rw [demandSteps_eq, updateFreshness_uncounted (by rw [hmode]; rfl), hwake, starting_sample hmode]
  have hd : (demandSteps s).dmc = (takePage (takeDemandPeriod s)).dmc := by rw [hsteps]; simp
  have hsettled := (settle_unheard (s := demandSteps s) (.inl (by rw [hd]; exact hmode))).dmc
  rw [hsettled, hd, hdmc]
  exact ⟨rfl, rfl, hm⟩

/-- The rows of R61. -/
theorem freshnessOf_rows (c : Params) (old : Freshness) (age : Nat) : freshnessOf c old age =
    if age ≤ c.freshLimit then .fresh else if c.holdLimit < age ∨ old = .lost then .lost else .stale := by
  unfold freshnessOf
  split
  · rfl
  · by_cases h1 : age ≤ c.holdLimit
    · rw [if_pos h1]
      simp [Nat.not_lt.2 h1]
    · rw [if_neg h1, if_pos (.inl (Nat.lt_of_not_le h1))]

theorem isStale_iff (x : Freshness) : x.isStale = true ↔ x = .stale ∨ x = .lost := by cases x <;> decide

theorem isLost_iff (x : Freshness) : x.isLost = true ↔ x = .lost := by cases x <;> decide

theorem raisesStale_iff (old new : Freshness) : raisesStale old new = true ↔
    old = .fresh ∧ new.isStale = true ∨ old = .stale ∧ new.isLost = true := by
  simp only [raisesStale, Bool.or_eq_true, Bool.and_eq_true, beq_iff_eq]

theorem counted_iff (m : Mode) : m.counted = true ↔ m ≠ .starting ∧ m ≠ .standby := by
  cases m <;> decide

end

/-- Settles O36. -/
theorem pageTaken : Obligations.PageTaken := by
  unfold Obligations.PageTaken
  intro s base hs hp hb
  obtain ⟨hperiod, hcfg, htqa, hclock, hfilter⟩ := demandSample_frame s
  have hacc := accepted_of_words hb
  have hbase : base = pageBase (s.word 0x0008) := hb
  have hlive : s.livePage = readPage s.xm base := by rw [State.livePage, hbase]
  have hpayload := demandSample_payload s
  have hreferred := demandSample_referred s
  refine ⟨_, exec_demandSample hs, hperiod, hcfg, htqa, hclock, hfilter, fun h => ?_, fun h => ?_, fun h => ?_,
    hpayload, starting_fresh, fun h1 h2 => ?_, ?_⟩
  · obtain ⟨hdemand, hseq, hshown⟩ := demandSample_accepted hb hp (hacc.2 h)
    have hbits := anomaly_bits s.livePage s.cfg.lock s.clock
    rw [hdemand, hseq, hshown.anomaly, hshown.stamp.1, hshown.stamp.2]
    rw [hlive] at hbits ⊢
    exact ⟨rfl, rfl, rfl, rfl, hbits.1, hbits.2.1, hbits.2.2.1, hbits.2.2.2.1, hbits.2.2.2.2.1, hbits.2.2.2.2.2.1,
      hbits.2.2.2.2.2.2.1, hbits.2.2.2.2.2.2.2.1, hbits.2.2.2.2.2.2.2.2.1, hbits.2.2.2.2.2.2.2.2.2, hshown.rest⟩
  · exact demandSample_ignored hp (Bool.eq_false_iff.2 (mt hacc.1 h))
  · have ha := hacc.2 h
    exact ⟨by rw [← judgedQuality_eq]; exact hreferred.quality ha, hreferred.hint ha,
      fun e => ⟨hreferred.taken ha e, hreferred.raised ha e⟩⟩
  · exact (counted_fresh ((counted_iff _).2 ⟨h1, h2⟩)).masked.ref
  · intro age x stale lost h1 h2 hok hage hfresh hstale hlost
    have k := counted_fresh ((counted_iff _).2 ⟨h1, h2⟩)
    have hx : freshnessOf s.cfg s.dmc.fresh (s.since (if s.pageAccepted then s.clock else s.dmc.freshRef)) = x := by
      rw [freshnessOf_rows, hfresh, hage, k.masked.ref]
      rfl
    rw [hx] at k
    have hs : stale = x.isStale := Bool.eq_iff_iff.2 (hstale.trans (isStale_iff x).symm)
    have hl : lost = x.isLost := Bool.eq_iff_iff.2 (hlost.trans (isLost_iff x).symm)
    rw [hs, hl]
    exact ⟨k.masked.fresh, (k.observed hok).1, (k.observed hok).2, fun e => k.raised ((raisesStale_iff _ _).2 e),
      fun e => k.masked.masked ((working_iff _).2 e)⟩

end Sys2Proof.Machine
end

section
/-! SUPPORT. What the operations leave of the marks of an exclusion: the sets and the summary, the idle channels and
the rotation order, and the wheels at rest (R117, R124, R133). -/

namespace Sys2Proof.Machine

set_option Elab.async false

/-- A channel of an excluded bank. -/
def Chan.still (c : Chan) : Prop := c.state ≠ .run ∧ c.state ≠ .test

/-- An excluded wheel's record (R117). -/
def TcuWheel.rests (t : TcuWheel) : Prop :=
  t.slip = .grip ∧ 1000 ≤ t.factor ∧ t.count = 0 ∧ t.slideStart = none ∧ t.slideCond = false

/-- From state `a` to state `s` the sets and the summary stay, and what an excluded bank or wheel shows of its
exclusion is kept. -/
structure Yields (a s : State) : Prop where
  sets : s.pru.wheelEx = a.pru.wheelEx ∧ s.pru.bankEx = a.pru.bankEx ∧ s.pru.summary = a.pru.summary := by
    intros; exact ⟨rfl, rfl, rfl⟩
  channels : ∀ b, a.pru.bankEx.get b = true → (a.rgc.chans.get b).still → (s.rgc.chans.get b).still := by
    intros; assumption
  rotation : (∀ b ∈ a.rgc.rotation, a.pru.bankEx.get b = false) →
    ∀ b ∈ s.rgc.rotation, a.pru.bankEx.get b = false := by intro h; exact h
  wheels : ∀ w, a.pru.wheelEx.get w = true → (a.tcu.wheels.get w).rests → (s.tcu.wheels.get w).rests := by
    intros; assumption

section
variable {a s t : State}

theorem Yields.refl (a : State) : Yields a a := { }

theorem Yields.trans (h : Yields a s) (k : Yields s t) : Yields a t where
  sets := ⟨k.sets.1.trans h.sets.1, k.sets.2.1.trans h.sets.2.1, k.sets.2.2.trans h.sets.2.2⟩
  channels := fun b hb c => k.channels b (by rw [h.sets.2.1]; exact hb) (h.channels b hb c)
  rotation := fun hr => by
    have := k.rotation (by rw [h.sets.2.1]; exact h.rotation hr)
    rwa [h.sets.2.1] at this
  wheels := fun w hw c => k.wheels w (by rw [h.sets.1]; exact hw) (h.wheels w hw c)

/-- What leaves the fault table, the channels and the wheels' records alone. -/
theorem Yields.same (h : Yields a s) (hrgc : t.rgc = s.rgc := by simp) (htcu : t.tcu = s.tcu := by simp)
    (hpru : t.pru = s.pru := by simp) : Yields a t :=
  h.trans { sets := by rw [hpru]; exact ⟨rfl, rfl, rfl⟩
            channels := fun b _ c => by rw [hrgc]; exact c
            rotation := fun hr => by rw [hrgc]; exact hr
            wheels := fun w _ c => by rw [htcu]; exact c }

/-! ### The record updates -/

theorem setOre_yields (h : Yields a s) (v : Ore) : Yields a (s.setOre v) := h.trans { }

theorem setCfl_yields (h : Yields a s) (v : Cfl) : Yields a (s.setCfl v) := h.trans { }

theorem setWlc_yields (h : Yields a s) (v : Wlc) : Yields a (s.setWlc v) := h.trans { }

theorem setDmc_yields (h : Yields a s) (v : Dmc) : Yields a (s.setDmc v) := h.trans { }

theorem setTqa_yields (h : Yields a s) (v : Tqa) : Yields a (s.setTqa v) := h.trans { }

theorem setStc_yields (h : Yields a s) (v : Stc) : Yields a (s.setStc v) := h.trans { }

theorem setLmu_yields (h : Yields a s) (v : Lmu) : Yields a (s.setLmu v) := h.trans { }

theorem setDraws_yields (h : Yields a s) (v : Nat) : Yields a (s.setDraws v) := h.trans { }

theorem put_yields (h : Yields a s) (x : Nat) (ws : List Word) : Yields a (put x ws s) := h.trans { }

theorem setTcu_yields (h : Yields a s) {v : Tcu} (hv : v.wheels = s.tcu.wheels) : Yields a (s.setTcu v) :=
  h.trans { wheels := fun w _ c => by rw [State.setTcu_tcu, hv]; exact c }

theorem setRgc_yields (h : Yields a s) {v : Rgc} (hc : v.chans = s.rgc.chans) (hr : v.rotation = s.rgc.rotation) :
    Yields a (s.setRgc v) :=
  h.trans { channels := fun b _ c => by rw [State.setRgc_rgc, hc]; exact c
            rotation := fun k => by rw [State.setRgc_rgc, hr]; exact k }

theorem setPru_yields (h : Yields a s) {v : Pru} (hw : v.wheelEx = s.pru.wheelEx) (hb : v.bankEx = s.pru.bankEx)
    (hs : v.summary = s.pru.summary) : Yields a (s.setPru v) :=
  h.trans { sets := ⟨hw, hb, hs⟩ }

theorem setTcuWheel_yields (h : Yields a s) (w : Wheel) {t : TcuWheel}
    (ht : s.pru.wheelEx.get w = true → (s.tcu.wheels.get w).rests → t.rests) : Yields a (setTcuWheel w t s) :=
  h.trans { wheels := fun v hv c => by
              show ((s.tcu.wheels.set w t).get v).rests
              rw [PerWheel_get_set]
              split
              case isTrue e => subst e; exact ht hv c
              case isFalse => exact c }

theorem setChan_yields (h : Yields a s) (b : Bank) {c : Chan}
    (hc : s.pru.bankEx.get b = true → (s.rgc.chans.get b).still → c.still) : Yields a (setChan b c s) :=
  h.trans { channels := fun d hd k => by
              show ((s.rgc.chans.set b c).get d).still
              rw [PerBank_get_set]
              split
              case isTrue e => subst e; exact hc hd k
              case isFalse => exact k }

theorem still_of_state {c d : Chan} (h : d.state = c.state) (k : c.still) : d.still := by
  rw [Chan.still, h]
  exact k

theorem setChan_same (h : Yields a s) (b : Bank) {c : Chan} (hc : c.state = (s.rgc.chans.get b).state) :
    Yields a (setChan b c s) :=
  setChan_yields h b fun _ => still_of_state hc

theorem raise_yields (h : Yields a s) (c : Cls) : Yields a (raise c s) := h.same

theorem raiseIf_yields (h : Yields a s) (b : Bool) (c : Cls) : Yields a (raiseIf b c s) := h.same

theorem applyPriorities_yields (h : Yields a s) : Yields a (applyPriorities s) := h.same

theorem complete_yields (h : Yields a s) (r : Resource) (cell : BitVec 6) (result : Result) (detail : List Word) :
    Yields a (complete r cell result detail s) := h.same

theorem putFaultImage_yields (h : Yields a s) : Yields a (putFaultImage s) := h.same

theorem updatePru_yields (h : Yields a s) {p : Pru} (hw : p.wheelEx = s.pru.wheelEx)
    (hb : p.bankEx = s.pru.bankEx) (hs : p.summary = s.pru.summary) : Yields a (updatePru p s) := by
  simp only [updatePru]
  split
  · exact setPru_yields h hw hb hs
  · exact putFaultImage_yields (setPru_yields h hw hb hs)

theorem note_yields (h : Yields a s) (k : Kind) (subject : Subject) (present : Bool) :
    Yields a (note k subject present s) := by
  simp only [note]
  refine raiseIf_yields (updatePru_yields h ?_ ?_ ?_) _ _ <;> rfl

theorem noteIf_yields (h : Yields a s) (b : Bool) (k : Kind) (subject : Subject) (present : Bool) :
    Yields a (noteIf b k subject present s) := by
  simp only [noteIf]
  with_reducible
    repeat' first
      | exact h | rfl | apply note_yields | split

theorem reportLoss_yields (h : Yields a s) (u : UnitId) (present : Bool) :
    Yields a (reportLoss u present s) := by
  simp only [reportLoss]
  with_reducible
    repeat' first
      | exact h | rfl | apply note_yields | apply setPru_yields | split

theorem clearProgressOf_yields (h : Yields a s) (k : Kind) : Yields a (clearProgressOf k s) :=
  updatePru_yields h rfl rfl rfl

theorem noteOvervolt_yields (h : Yields a s) (vF : Nat) : Yields a (noteOvervolt vF s) := by
  simp only [noteOvervolt]
  with_reducible
    repeat' first
      | exact h | rfl | apply note_yields | apply clearProgressOf_yields | split

theorem observeEscalation_yields (h : Yields a s) : Yields a (observeEscalation s) := by
  simp only [observeEscalation]
  with_reducible
    repeat' first
      | exact h | rfl | apply note_yields

theorem rewriteActions_yields (h : Yields a s) : Yields a (rewriteActions s) := by
  simp only [rewriteActions]
  refine raiseIf_yields (updatePru_yields h ?_ ?_ ?_) _ _ <;> rfl

theorem changeStopMode_yields (h : Yields a s) : Yields a (changeStopMode s) := by
  simp only [changeStopMode]
  with_reducible
    repeat' first
      | exact h | rfl | apply updatePru_yields

theorem putTcuSection_yields (h : Yields a s) : Yields a (putTcuSection s) := h.same

theorem putTraction_yields (h : Yields a s) (w : Wheel) : Yields a (putTraction w s) := h.same

theorem setVRef_yields (h : Yields a s) (v : Option Nat) : Yields a (setVRef v s) := by
  simp only [setVRef]
  with_reducible
    repeat' first
      | exact h | rfl | apply setTcu_yields

theorem recomputeVRef_yields (h : Yields a s) : Yields a (recomputeVRef s) := by
  simp only [recomputeVRef]
  with_reducible
    repeat' first
      | exact h | rfl | apply setVRef_yields | split

theorem judgeQuality_yields (h : Yields a s) : Yields a (judgeQuality s) := by
  simp only [judgeQuality]
  with_reducible
    repeat' first
      | exact h | rfl | apply raise_yields | apply recomputeVRef_yields | apply setTcu_yields | split

theorem recomputeIn_yields (h : Yields a s) (q : Quality) : Yields a (recomputeIn q s) := by
  simp only [recomputeIn]
  with_reducible
    repeat' first
      | exact h | rfl | apply recomputeVRef_yields | split

theorem noteChange_yields (h : Yields a s) (k : Kind) (subject : Subject) (before after : Bool) :
    Yields a (noteChange k subject before after s) := by
  simp only [noteChange]
  with_reducible
    repeat' first
      | exact h | rfl | apply noteIf_yields

theorem takeSpeed_yields (h : Yields a s) (w : Wheel) : Yields a (takeSpeed w s) := by
  have hrest : ∀ t : TcuWheel, t.rests → ∀ x : Nat, ({ t with factor := max t.factor x } : TcuWheel).rests :=
    fun t ⟨h1, h2, h3⟩ x => ⟨h1, h2.trans (Nat.le_max_left _ _), h3⟩
  unfold takeSpeed
  dsimp only
  refine noteChange_yields (setTcuWheel_yields h w fun _ k => ?_) _ _ _ _
  split
  · exact hrest _ k s.cfg.sMin
  · exact hrest _ k s.cfg.sMin

theorem judgedWheel_rests {w : Wheel} (hw : s.pru.wheelEx.get w = true) (k : (s.tcu.wheels.get w).rests) :
    (s.judgedWheel w).rests := by
  unfold State.judgedWheel
  dsimp only
  split
  · rw [hw, Bool.or_true, if_pos rfl]
    exact k
  · exact k

theorem judgeSlip_yields (h : Yields a s) (w : Wheel) : Yields a (judgeSlip w s) := by
  unfold judgeSlip
  dsimp only
  exact noteChange_yields (setTcuWheel_yields h w judgedWheel_rests) _ _ _ _

theorem tcuReport_yields (h : Yields a s) (w : Wheel) : Yields a (tcuReport w s) := by
  simp only [tcuReport, runAll]
  with_reducible
    repeat' first
      | exact h | rfl | apply putTcuSection_yields | apply putTraction_yields
      | apply judgeQuality_yields | apply recomputeIn_yields | apply takeSpeed_yields
      | apply judgeSlip_yields

theorem tcuSteerReport_yields (h : Yields a s) : Yields a (tcuSteerReport s) := by
  simp only [tcuSteerReport, runAll]
  with_reducible
    repeat' first
      | exact h | rfl | apply putTcuSection_yields | apply judgeQuality_yields
      | apply recomputeIn_yields | split

theorem tcuPage_yields (h : Yields a s) : Yields a (tcuPage s) := by
  simp only [tcuPage, runAll]
  with_reducible
    repeat' first
      | exact h | rfl | apply putTcuSection_yields | apply judgeQuality_yields
      | apply recomputeIn_yields

theorem alterWheel_yields (h : Yields a s) (w : Wheel) {t : TcuWheel}
    (ht : s.pru.wheelEx.get w = true → (s.tcu.wheels.get w).rests → t.rests) : Yields a (alterWheel w t s) := by
  unfold alterWheel
  split
  · exact h
  · exact putTraction_yields (setTcuWheel_yields h w ht) w

theorem leaveSubstate_rests {t : TcuWheel} (k : t.rests) : t.leaveSubstate.rests := by
  obtain ⟨h1, h2, h3⟩ := k
  have e : t.leaveSubstate = { t with count := 0 } := by rw [TcuWheel.leaveSubstate, h1]
  rw [e]
  exact ⟨h1, h2, rfl, h3.2⟩

theorem tcuSubstateChange_yields (h : Yields a s) : Yields a (tcuSubstateChange s) := by
  have hleave : ∀ w {u : State}, Yields a u → Yields a (alterWheel w (u.tcu.wheels.get w).leaveSubstate u) :=
    fun w _ k => alterWheel_yields k w fun _ => leaveSubstate_rests
  simp only [tcuSubstateChange, runAll]
  exact putTcuSection_yields (recomputeIn_yields (judgeQuality_yields
    (hleave .w4 (hleave .w3 (hleave .w2 (hleave .w1 h))))) _)

theorem toGrip_rests (t : TcuWheel) : t.toGrip.rests := ⟨rfl, Nat.le_refl _, rfl, rfl, rfl⟩

theorem excludeAtTcu_yields (h : Yields a s) (w : Wheel) : Yields a (excludeAtTcu w s) :=
  noteIf_yields (alterWheel_yields h w fun _ _ => toGrip_rests _) _ _ _ _

theorem tcuExclusion_yields (h : Yields a s) (before : PerWheel Bool) :
    Yields a (tcuExclusion before s) := by
  simp only [tcuExclusion, runAll, forWheels]
  with_reducible
    repeat' first
      | exact h | rfl | apply putTcuSection_yields | apply judgeQuality_yields
      | apply recomputeIn_yields | apply excludeAtTcu_yields | split

theorem post_yields (h : Yields a s) (source : DSource) (target : DTarget) (factor : Nat) :
    Yields a (post source target factor s) := h.same

theorem putLmuSection_yields (h : Yields a s) : Yields a (putLmuSection s) := h.same

theorem takeAmbient_yields (h : Yields a s) : Yields a (takeAmbient s) := h.same

theorem setBlowerFail_yields (h : Yields a s) : Yields a (setBlowerFail s) := by
  simp only [setBlowerFail]
  with_reducible
    repeat' first
      | exact h | rfl | apply note_yields | apply post_yields | apply setLmu_yields

theorem clearBlowerFail_yields (h : Yields a s) : Yields a (clearBlowerFail s) := by
  simp only [clearBlowerFail]
  with_reducible
    repeat' first
      | exact h | rfl | apply note_yields | apply post_yields | apply setLmu_yields

theorem judgeBlower_yields (h : Yields a s) (running : Bool) :
    Yields a (judgeBlower running s) := by
  simp only [judgeBlower]
  with_reducible
    repeat' first
      | exact h | rfl | apply setBlowerFail_yields | apply clearBlowerFail_yields
      | apply setLmu_yields | split

theorem settleDuty_yields (h : Yields a s) : Yields a (settleDuty s) := h.same

theorem updateHeat_yields (h : Yields a s) (b : Bank) : Yields a (updateHeat b s) := by
  have k : Yields a (setChan b { s.rgc.chans.get b with onTotal := 0 } s) := setChan_same h b rfl
  exact setLmu_yields k _

theorem clearGridHot_yields (h : Yields a s) (b : Bank) : Yields a (clearGridHot b s) := by
  simp only [clearGridHot]
  with_reducible
    repeat' first
      | exact h | rfl | apply note_yields | apply setLmu_yields

theorem judgeGridHot_yields (h : Yields a s) (b : Bank) : Yields a (judgeGridHot b s) := by
  simp only [judgeGridHot]
  with_reducible
    repeat' first
      | exact h | rfl | apply note_yields | apply clearGridHot_yields | apply setLmu_yields
      | split

theorem dropBank_yields (h : Yields a s) (b : Bank) : Yields a (dropBank b s) := by
  simp only [dropBank]
  with_reducible
    repeat' first
      | exact h | rfl | apply noteIf_yields | apply post_yields | apply setLmu_yields

theorem sampleBank_yields (h : Yields a s) (b : Bank) : Yields a (sampleBank b s) := by
  simp only [sampleBank]
  with_reducible
    repeat' first
      | exact h | rfl | apply post_yields | apply updateHeat_yields | apply judgeGridHot_yields
      | apply dropBank_yields | split

theorem setWindingHot_yields (h : Yields a s) (w : Wheel) : Yields a (setWindingHot w s) := by
  simp only [setWindingHot]
  with_reducible
    repeat' first
      | exact h | rfl | apply note_yields | apply setLmu_yields

theorem clearWindingHot_yields (h : Yields a s) (w : Wheel) :
    Yields a (clearWindingHot w s) := by
  simp only [clearWindingHot]
  with_reducible
    repeat' first
      | exact h | rfl | apply note_yields | apply setLmu_yields

theorem judgeWinding_yields (h : Yields a s) (w : Wheel) : Yields a (judgeWinding w s) := by
  simp only [judgeWinding]
  with_reducible
    repeat' first
      | exact h | rfl | apply setWindingHot_yields | apply clearWindingHot_yields
      | apply setLmu_yields | split

theorem dropWheel_yields (h : Yields a s) (w : Wheel) : Yields a (dropWheel w s) := by
  simp only [dropWheel]
  with_reducible
    repeat' first
      | exact h | rfl | apply noteIf_yields | apply post_yields | apply setLmu_yields

theorem sampleWheel_yields (h : Yields a s) (w : Wheel) : Yields a (sampleWheel w s) := by
  simp only [sampleWheel]
  with_reducible
    repeat' first
      | exact h | rfl | apply post_yields | apply judgeWinding_yields | apply dropWheel_yields
      | apply setLmu_yields | split

theorem countStandstill_yields (h : Yields a s) : Yields a (countStandstill s) := h.same

theorem payloadEffects_yields (h : Yields a s) : Yields a (payloadEffects s) := by
  simp only [payloadEffects]
  with_reducible
    repeat' first
      | exact h | rfl | apply noteChange_yields | apply post_yields | apply setLmu_yields

theorem lmuPage_yields (h : Yields a s) : Yields a (lmuPage s) := h.same

theorem showLmu_yields (h : Yields a s) : Yields a (showLmu s) := h.same

theorem thermalSteps_yields (h : Yields a s) (blowerRun : Bool) :
    Yields a (thermalSteps blowerRun s) := by
  simp only [thermalSteps, runAll, forWheels, forBanks]
  with_reducible
    repeat' first
      | exact h | rfl | apply takeAmbient_yields | apply judgeBlower_yields | apply settleDuty_yields
      | apply sampleBank_yields | apply sampleWheel_yields | apply countStandstill_yields
      | apply payloadEffects_yields | apply showLmu_yields | split

theorem setUndervolt_yields (h : Yields a s) : Yields a (setUndervolt s) := by
  simp only [setUndervolt]
  with_reducible
    repeat' first
      | exact h | rfl | apply note_yields | apply setLmu_yields

theorem clearUndervolt_yields (h : Yields a s) : Yields a (clearUndervolt s) := by
  simp only [clearUndervolt]
  with_reducible
    repeat' first
      | exact h | rfl | apply note_yields | apply setLmu_yields

theorem judgeUndervolt_yields (h : Yields a s) (vF : Nat) : Yields a (judgeUndervolt vF s) := by
  simp only [judgeUndervolt]
  with_reducible
    repeat' first
      | exact h | rfl | apply setUndervolt_yields | apply clearUndervolt_yields
      | apply setLmu_yields | split

theorem restLink_yields (h : Yields a s) : Yields a (restLink s) := by
  simp only [restLink]
  with_reducible
    repeat' first
      | exact h | rfl | apply noteIf_yields | apply post_yields | apply setLmu_yields

theorem lmuLink_yields (h : Yields a s) : Yields a (lmuLink s) := by
  simp only [lmuLink]
  with_reducible
    repeat' first
      | exact h | rfl | apply post_yields | apply putLmuSection_yields | apply judgeUndervolt_yields
      | apply restLink_yields | split

theorem lmuConfig_yields (h : Yields a s) : Yields a (lmuConfig s) := h.same

theorem putStcSection_yields (h : Yields a s) : Yields a (putStcSection s) := h.same

theorem evaluateBias_yields (h : Yields a s) : Yields a (evaluateBias s) := h.same

theorem readCalibration_yields (h : Yields a s) : Yields a (readCalibration s) := h.same

theorem sauChange_yields (h : Yields a s) : Yields a (sauChange s) := h.same

theorem takeAngle_yields (h : Yields a s) : Yields a (takeAngle s) := h.same

theorem judgeTracking_yields (h : Yields a s) : Yields a (judgeTracking s) := by
  simp only [judgeTracking]
  exact noteChange_yields (setStc_yields h _) _ _ _ _

theorem stcReport_yields (h : Yields a s) : Yields a (stcReport s) := by
  simp only [stcReport, runAll]
  with_reducible
    repeat' first
      | exact h | rfl | apply putStcSection_yields | apply evaluateBias_yields
      | apply readCalibration_yields | apply takeAngle_yields | apply judgeTracking_yields

theorem stcSubstateChange_yields (h : Yields a s) : Yields a (stcSubstateChange s) := h.same

theorem stcModeChange_yields (h : Yields a s) : Yields a (stcModeChange s) := h.same

theorem abortCalibration_yields (h : Yields a s) : Yields a (abortCalibration s) := h.same

theorem changeCauses_yields (h : Yields a s) (c : Causes) : Yields a (changeCauses c s) := by
  simp only [changeCauses]
  with_reducible
    repeat' first
      | exact h | rfl | apply raise_yields | apply setRgc_yields | split

theorem putRgcSection_yields (h : Yields a s) : Yields a (putRgcSection s) := h.same

theorem putBankSection_yields (h : Yields a s) (b : Bank) : Yields a (putBankSection b s) := h.same

theorem putEnvelopeImage_yields (h : Yields a s) : Yields a (putEnvelopeImage s) := h.same

theorem takeVoltage_yields (h : Yields a s) (volts : Nat) : Yields a (takeVoltage volts s) := by
  refine setRgc_yields h ?_ ?_ <;> rfl

theorem recomputeCapacity_yields (h : Yields a s) : Yields a (recomputeCapacity s) := by
  simp only [recomputeCapacity]
  with_reducible
    repeat' first
      | exact h | rfl | apply setRgc_yields

theorem takeFiltered_yields (h : Yields a s) : Yields a (takeFiltered s) := by
  refine setRgc_yields h ?_ ?_ <;> rfl

theorem sortRotation_yields (h : Yields a s) : Yields a (sortRotation s) :=
  h.trans { rotation := fun _ b hb => by
              have hb' : b ∈ s.sortedBanks := hb
              have hserves := ((mem_sortedBanks s b).1 hb').2.2
              exact hserves }

theorem cutPhase_yields (h : Yields a s) (b : Bank) : Yields a (cutPhase b s) := by
  unfold cutPhase
  dsimp only
  split
  · refine setDraws_yields (setChan_same h b ?_) _
    rfl
  · exact h

theorem cutIfOff_yields (h : Yields a s) (st : ChanState) (b : Bank) :
    Yields a (cutIfOff st b s) := by
  simp only [cutIfOff]
  with_reducible
    repeat' first
      | exact h | rfl | apply cutPhase_yields | split

theorem enter_state (c : Chan) (st : ChanState) (duty : Nat) : (c.enter st duty).state = st := by
  cases st <;> rfl

/-- The channel of an excluded bank is OFF or BLOCKED (R133). -/
theorem chanState_excluded {b : Bank} (h : s.pru.bankEx.get b = true) :
    s.chanState b ≠ .run ∧ s.chanState b ≠ .test := by
  unfold State.chanState
  rw [if_pos h]
  split
  · exact ⟨nofun, nofun⟩
  · exact ⟨nofun, nofun⟩

theorem judgeChannel_yields (h : Yields a s) (b : Bank) : Yields a (judgeChannel b s) := by
  have hcut : (cutIfOff (s.chanState b) b s).pru = s.pru := by simp
  unfold judgeChannel
  dsimp only
  split
  · exact h
  · refine putBankSection_yields (setChan_yields (cutIfOff_yields h _ b) b fun hb _ => ?_) b
    rw [hcut] at hb
    rw [Chan.still, enter_state]
    exact chanState_excluded hb

theorem judgeChannels_yields (h : Yields a s) : Yields a (judgeChannels s) := by
  simp only [judgeChannels, forBanks]
  with_reducible
    repeat' first
      | exact h | rfl | apply judgeChannel_yields

theorem recomputeBlower_yields (h : Yields a s) : Yields a (recomputeBlower s) := by
  simp only [recomputeBlower]
  with_reducible
    repeat' first
      | exact h | rfl | apply setLmu_yields | apply setRgc_yields

theorem showTest_yields (h : Yields a s) (b : Bank) (f : BankShow → BankShow) :
    Yields a (showTest b f s) := by
  simp only [showTest]
  with_reducible
    repeat' first
      | exact h | rfl | apply putBankSection_yields | apply setRgc_yields | split

theorem setTest_yields (h : Yields a s) (t : Option GridTest) : Yields a (setTest t s) := by
  simp only [setTest]
  with_reducible
    repeat' first
      | exact h | rfl | apply setRgc_yields

theorem nextBank_yields (h : Yields a s) : Yields a (nextBank s) := by
  simp only [nextBank]
  with_reducible
    repeat' first
      | exact h | rfl | apply complete_yields | apply judgeChannel_yields | apply judgeChannels_yields
      | apply showTest_yields | apply setTest_yields | split

theorem passBank_yields (h : Yields a s) (b : Bank) : Yields a (passBank b s) := by
  simp only [passBank]
  with_reducible
    repeat' first
      | exact h | rfl | apply judgeChannel_yields | apply showTest_yields | apply setTest_yields
      | apply nextBank_yields | split

theorem stopTest_yields (h : Yields a s) : Yields a (stopTest s) := by
  simp only [stopTest]
  with_reducible
    repeat' first
      | exact h | rfl | apply cutPhase_yields | apply judgeChannels_yields | apply showTest_yields
      | apply setTest_yields | split

theorem abortTestIf_yields (h : Yields a s) (b : Bool) : Yields a (abortTestIf b s) := by
  simp only [abortTestIf]
  with_reducible
    repeat' first
      | exact h | rfl | apply complete_yields | apply stopTest_yields | split

theorem skipWaiting_yields (h : Yields a s) (b : Bank) : Yields a (skipWaiting b s) := by
  simp only [skipWaiting]
  with_reducible
    repeat' first
      | exact h | rfl | apply showTest_yields | apply setTest_yields | split

theorem skipCurrent_yields (h : Yields a s) : Yields a (skipCurrent s) := by
  simp only [skipCurrent]
  with_reducible
    repeat' first
      | exact h | rfl | apply judgeChannel_yields | apply showTest_yields | apply setTest_yields
      | apply nextBank_yields | split

theorem startTest_yields (h : Yields a s) (cell : BitVec 6) (banks duty count : Word) :
    Yields a (startTest cell banks duty count s) := by
  simp only [startTest]
  with_reducible
    repeat' first
      | exact h | rfl | apply setTest_yields | apply nextBank_yields

theorem lowerLowest_yields (h : Yields a s) : Yields a (lowerLowest s) := by
  simp only [lowerLowest]
  with_reducible
    repeat' first
      | exact h | rfl | apply showTest_yields | apply setTest_yields | split

theorem checkTestStandstill_yields (h : Yields a s) : Yields a (checkTestStandstill s) := by
  simp only [checkTestStandstill]
  with_reducible
    repeat' first
      | exact h | rfl | apply abortTestIf_yields

theorem countPulse_yields (h : Yields a s) (b : Bank) : Yields a (countPulse b s) := by
  simp only [countPulse]
  with_reducible
    repeat' first
      | exact h | rfl | apply showTest_yields | apply setTest_yields | split

theorem startPeriod_state (c : Chan) (period minTime : Nat) : (c.startPeriod period minTime).state = c.state := by
  unfold Chan.startPeriod Chan.decide
  dsimp only
  repeat' split
  all_goals rfl

theorem bankPeriod_yields (h : Yields a s) (b : Bank) : Yields a (bankPeriod b s) := by
  unfold bankPeriod
  dsimp only
  split
  · split
    · refine passBank_yields (setChan_same h b ?_) b
      split <;> rfl
    · have k := setChan_same h b (startPeriod_state (s.rgc.chans.get b) s.rgc.chopper s.cfg.minTime)
      split
      · exact countPulse_yields k b
      · exact k
  · exact h

theorem blowerPeriod_yields (h : Yields a s) : Yields a (blowerPeriod s) := by
  simp only [blowerPeriod]
  with_reducible
    repeat' first
      | exact h | rfl | apply setRgc_yields | split

theorem bankExpiry_yields (h : Yields a s) (b : Bank) : Yields a (bankExpiry b s) := by
  have k : Yields a (setChan b ((s.rgc.chans.get b).endPhase (s.rgc.chans.get b).onTime) s) := setChan_same h b rfl
  unfold bankExpiry
  dsimp only
  split
  · split
    · exact passBank_yields k b
    · exact k
  · exact h

theorem blowerExpiry_yields (h : Yields a s) : Yields a (blowerExpiry s) := by
  simp only [blowerExpiry]
  with_reducible
    repeat' first
      | exact h | rfl | apply setRgc_yields | split

theorem writeShadow_yields (h : Yields a s) (b : Bank) (duty : Nat) : Yields a (writeShadow b duty s) := by
  unfold writeShadow
  dsimp only
  split
  · exact setChan_same h b rfl
  · exact h

theorem foldl_writeShadow_yields (h : Yields a s) (l : List Bank) : Yields a (l.foldl (fun s n => writeShadow n 0 s) s) := by
  induction l generalizing s with
  | nil => exact h
  | cons n l ih => exact ih (writeShadow_yields h _ _)

theorem distributeNone_yields (h : Yields a s) (need : Nat) :
    Yields a (distributeNone need s) := by
  simp only [distributeNone]
  with_reducible
    repeat' first
      | exact h | rfl | apply writeShadow_yields | apply setRgc_yields
      | apply foldl_writeShadow_yields

theorem showFull_yields (h : Yields a s) : Yields a (showFull s) := by
  simp only [showFull]
  with_reducible
    repeat' first
      | exact h | rfl | apply setRgc_yields

theorem distribute_yields (h : Yields a s) (banks : List Bank) (remaining : Nat) :
    Yields a (distribute banks remaining s) := by
  induction banks generalizing s remaining with
  | nil => exact setRgc_yields h rfl rfl
  | cons b rest ih =>
    rw [distribute]
    split
    · exact ih h remaining
    · exact ih (writeShadow_yields h _ _) _

theorem arrival_yields (h : Yields a s) : Yields a (arrival s) := by
  simp only [arrival]
  with_reducible
    repeat' first
      | exact h | rfl | apply distributeNone_yields | apply showFull_yields | apply distribute_yields
      | apply setRgc_yields | split

theorem postDemand_yields (h : Yields a s) (pRet : Nat) : Yields a (postDemand pRet s) := by
  simp only [postDemand]
  with_reducible
    repeat' first
      | exact h | rfl | apply setRgc_yields

theorem formEnvelope_yields (h : Yields a s) : Yields a (formEnvelope s) := by
  simp only [formEnvelope]
  with_reducible
    repeat' first
      | exact h | rfl | apply setRgc_yields

theorem formHold_yields (h : Yields a s) : Yields a (formHold s) := by
  simp only [formHold]
  with_reducible
    repeat' first
      | exact h | rfl | apply setRgc_yields

theorem updateHold_yields (h : Yields a s) : Yields a (updateHold s) := by
  unfold updateHold
  split
  all_goals refine setRgc_yields h ?_ ?_ <;> rfl

theorem changeExceeded_yields (h : Yields a s) (present : Bool) :
    Yields a (changeExceeded present s) := by
  simp only [changeExceeded]
  with_reducible
    repeat' first
      | exact h | rfl | apply raise_yields | apply note_yields | apply changeCauses_yields
      | apply setRgc_yields | split

theorem countEnvelope_yields (h : Yields a s) : Yields a (countEnvelope s) := by
  simp only [countEnvelope]
  with_reducible
    repeat' first
      | exact h | rfl | apply changeExceeded_yields | apply setRgc_yields | split

theorem restHold_yields (h : Yields a s) : Yields a (restHold s) := by
  refine changeExceeded_yields (setRgc_yields h ?_ ?_) _ <;> rfl

theorem addShortfall_yields (h : Yields a s) : Yields a (addShortfall s) := by
  simp only [addShortfall]
  with_reducible
    repeat' first
      | exact h | rfl | apply changeCauses_yields | apply setRgc_yields

theorem removeShortfall_yields (h : Yields a s) : Yields a (removeShortfall s) := by
  simp only [removeShortfall]
  with_reducible
    repeat' first
      | exact h | rfl | apply changeCauses_yields | apply setRgc_yields

theorem testShortfall_yields (h : Yields a s) : Yields a (testShortfall s) := by
  simp only [testShortfall]
  with_reducible
    repeat' first
      | exact h | rfl | apply changeCauses_yields | apply addShortfall_yields
      | apply removeShortfall_yields | apply setRgc_yields | split

theorem testPostReset_yields (h : Yields a s) : Yields a (testPostReset s) := by
  simp only [testPostReset]
  with_reducible
    repeat' first
      | exact h | rfl | apply changeCauses_yields | split

theorem takeHoldPeriod_yields (h : Yields a s) : Yields a (takeHoldPeriod s) := by
  simp only [takeHoldPeriod]
  with_reducible
    repeat' first
      | exact h | rfl | apply setRgc_yields

theorem holdSteps_yields (h : Yields a s) : Yields a (holdSteps s) := by
  simp only [holdSteps, runAll]
  with_reducible
    repeat' first
      | exact h | rfl | apply putRgcSection_yields | apply formEnvelope_yields | apply formHold_yields
      | apply updateHold_yields | apply countEnvelope_yields | apply restHold_yields
      | apply testShortfall_yields | apply testPostReset_yields | apply takeHoldPeriod_yields | split

theorem setEnvelope_yields (h : Yields a s) (t : List Nat) : Yields a (setEnvelope t s) := by
  simp only [setEnvelope]
  with_reducible
    repeat' first
      | exact h | rfl | apply putEnvelopeImage_yields | apply setRgc_yields

theorem followBanks_yields (h : Yields a s) (before : PerBank Bool) :
    Yields a (followBanks before s) := by
  simp only [followBanks, runAll, forBanks]
  with_reducible
    repeat' first
      | exact h | rfl | apply sortRotation_yields
      | apply judgeChannels_yields | apply skipWaiting_yields | apply skipCurrent_yields | split

theorem rgcExclusion_yields (h : Yields a s) (before : PerBank Bool) :
    Yields a (rgcExclusion before s) := by
  simp only [rgcExclusion]
  with_reducible
    repeat' first
      | exact h | rfl | apply recomputeCapacity_yields | apply followBanks_yields | split

theorem startDischarge_yields (h : Yields a s) : Yields a (startDischarge s) := by
  simp only [startDischarge]
  with_reducible
    repeat' first
      | exact h | rfl | apply setRgc_yields

theorem rgcModeChange_yields (h : Yields a s) : Yields a (rgcModeChange s) := by
  simp only [rgcModeChange, runAll]
  with_reducible
    repeat' first
      | exact h | rfl | apply changeCauses_yields | apply judgeChannels_yields
      | apply recomputeBlower_yields | apply abortTestIf_yields | apply startDischarge_yields

theorem rgcSubstateChange_yields (h : Yields a s) : Yields a (rgcSubstateChange s) := by
  simp only [rgcSubstateChange]
  with_reducible
    repeat' first
      | exact h | rfl | apply recomputeBlower_yields

theorem rgcConfig_yields (h : Yields a s) : Yields a (rgcConfig s) := by
  simp only [rgcConfig, runAll]
  with_reducible
    repeat' first
      | exact h | rfl | apply recomputeCapacity_yields | apply sortRotation_yields
      | apply judgeChannels_yields | apply setEnvelope_yields

theorem startBlower_yields (h : Yields a s) : Yields a (startBlower s) := by
  simp only [startBlower]
  with_reducible
    repeat' first
      | exact h | rfl | apply setRgc_yields | split

theorem allocate_yields (h : Yields a s) : Yields a (allocate s) := h.same

theorem skipAllocation_yields (h : Yields a s) : Yields a (skipAllocation s) := h.same

theorem writeSlots_yields (h : Yields a s) : Yields a (writeSlots s) := h.same

theorem postRetard_yields (h : Yields a s) : Yields a (postRetard s) := by
  simp only [postRetard]
  with_reducible
    repeat' first
      | exact h | rfl | apply postDemand_yields | apply setTqa_yields

theorem updateCredit_yields (h : Yields a s) (w : Wheel) : Yields a (updateCredit w s) := by
  simp only [updateCredit]
  with_reducible
    repeat' first
      | exact h | rfl | apply noteChange_yields | apply setTqa_yields | split

theorem updateCredits_yields (h : Yields a s) : Yields a (updateCredits s) := by
  simp only [updateCredits, forWheels]
  with_reducible
    repeat' first
      | exact h | rfl | apply updateCredit_yields | split

theorem putAllocator_yields (h : Yields a s) (w : Wheel) : Yields a (putAllocator w s) := h.same

theorem putTqaSection_yields (h : Yields a s) : Yields a (putTqaSection s) := h.same

theorem takeAllocPeriod_yields (h : Yields a s) : Yields a (takeAllocPeriod s) := h.same

theorem allocationSteps_yields (h : Yields a s) : Yields a (allocationSteps s) := by
  simp only [allocationSteps, runAll, forWheels]
  with_reducible
    repeat' first
      | exact h | rfl | apply allocate_yields | apply skipAllocation_yields | apply writeSlots_yields
      | apply postRetard_yields | apply updateCredits_yields | apply putAllocator_yields
      | apply putTqaSection_yields | apply takeAllocPeriod_yields | split

theorem tqaConfig_yields (h : Yields a s) : Yields a (tqaConfig s) := h.same

theorem changeUnit_yields (h : Yields a s) {u : UnitId} {r : UnitRec} (_hr : r.block = (s.wlc.unit u).block) :
    Yields a (changeUnit u r s) := h.same

theorem putLink_yields (h : Yields a s) (u : UnitId) : Yields a (putLink u s) := h.same

theorem takeConfigured_yields (h : Yields a s) (u : UnitId) :
    Yields a (takeConfigured u s) := by
  simp only [takeConfigured]
  split
  · refine changeUnit_yields h ?_
    rfl
  · split
    · refine putLink_yields (reportLoss_yields (changeUnit_yields h ?_) _ _) _
      rfl
    · exact h

theorem placeIfEnrolled_yields (h : Yields a s) (u : UnitId) : Yields a (placeIfEnrolled u s) := h.same

theorem placeBlocks_yields (h : Yields a s) : Yields a (placeBlocks s) := h.same

theorem endOrder_yields (h : Yields a s) : Yields a (endOrder s) := h.same

theorem nextTarget_yields (h : Yields a s) : Yields a (nextTarget s) := h.same

theorem finishTarget_yields (h : Yields a s) (u : UnitId) (isFound : Bool) :
    Yields a (finishTarget u isFound s) := h.same

theorem abortRollCall_yields (h : Yields a s) : Yields a (abortRollCall s) := h.same

theorem openRound_yields (h : Yields a s) : Yields a (openRound s) := by
  simp only [openRound, forUnits, forWheels]
  with_reducible
    repeat' first
      | exact h | rfl | apply takeConfigured_yields | apply nextTarget_yields
      | apply setWlc_yields

theorem endRound_yields (h : Yields a s) : Yields a (endRound s) := h.same

theorem takeDueRound_yields (h : Yields a s) : Yields a (takeDueRound s) := by
  simp only [takeDueRound]
  with_reducible
    repeat' first
      | exact h | rfl | apply openRound_yields | apply endRound_yields | split

theorem settleRound_yields (h : Yields a s) : Yields a (settleRound s) := by
  simp only [settleRound]
  with_reducible
    repeat' first
      | exact h | rfl | apply endRound_yields | apply takeDueRound_yields

theorem roundStartSteps_yields (h : Yields a s) : Yields a (roundStartSteps s) := by
  simp only [roundStartSteps]
  with_reducible
    repeat' first
      | exact h | rfl | apply openRound_yields | apply endRound_yields | apply setWlc_yields
      | split

theorem beginRollCall_yields (h : Yields a s) : Yields a (beginRollCall s) := by
  simp only [beginRollCall, forUnits, forWheels]
  with_reducible
    repeat' first
      | exact h | rfl | apply takeConfigured_yields | apply setWlc_yields

theorem takeRollCall_yields (h : Yields a s) : Yields a (takeRollCall s) := by
  simp only [takeRollCall]
  with_reducible
    repeat' first
      | exact h | rfl | apply beginRollCall_yields | split

theorem startRollCall_yields (h : Yields a s) : Yields a (startRollCall s) := by
  simp only [startRollCall]
  with_reducible
    repeat' first
      | exact h | rfl | apply takeRollCall_yields | apply abortRollCall_yields
      | apply setWlc_yields

theorem reportLossOf_yields (h : Yields a s) (u : UnitId) : Yields a (reportLossOf u s) := by
  simp only [reportLossOf]
  with_reducible
    repeat' first
      | exact h | rfl | apply reportLoss_yields | split

theorem changeInRollCall_yields (h : Yields a s) (u : UnitId) (r : UnitRec)
    (hb : r.block = (s.wlc.unit u).block) : Yields a (changeInRollCall u r s) := by
  have h1 := changeUnit_yields h hb
  simp only [changeInRollCall]
  with_reducible
    repeat' first
      | exact h1 | apply reportLoss_yields | split

theorem reportLosses_yields (h : Yields a s) : Yields a (reportLosses s) := by
  simp only [reportLosses, forUnits, forWheels]
  with_reducible
    repeat' first
      | exact h | rfl | apply reportLossOf_yields

theorem enterSettle_yields (h : Yields a s) : Yields a (enterSettle s) := h.same

theorem endRollCall_yields (h : Yields a s) : Yields a (endRollCall s) := by
  simp only [endRollCall]
  with_reducible
    repeat' first
      | exact h | rfl | apply raise_yields | apply sauChange_yields | apply placeBlocks_yields
      | apply reportLosses_yields | apply enterSettle_yields | apply setWlc_yields
      | apply openRound_yields | apply endRound_yields

theorem rollCallTry_yields (h : Yields a s) (done : Bool) : Yields a (rollCallTry done s) := by
  simp only [rollCallTry]
  with_reducible
    repeat' first
      | exact h | rfl | apply endRollCall_yields | apply setWlc_yields | split

theorem findUnit_yields (h : Yields a s) (u : UnitId) (bytes : List Byte) :
    Yields a (findUnit u bytes s) := by
  simp only [findUnit]
  refine reportLoss_yields (raise_yields (changeUnit_yields h ?_) _) _ _
  rfl

theorem acceptAnswer_yields (h : Yields a s) (x : Exchange) (bytes : List Byte) :
    Yields a (acceptAnswer x bytes s) := by
  have h1 := changeInRollCall_yields h x.unit ((s.wlc.unit x.unit).enroll x.unit bytes) rfl
  simp only [acceptAnswer]
  with_reducible
    repeat' first
      | exact h | rfl | apply changeUnit_yields | apply putLink_yields | apply placeIfEnrolled_yields
      | apply finishTarget_yields | apply rollCallTry_yields | apply findUnit_yields | exact h1 | split

theorem missCommand_yields (h : Yields a s) (u : UnitId) : Yields a (missCommand u s) := by
  have h1 := UnitRec.miss_block (s.wlc.unit u) s.cfg.missLimit
  have h2 := changeUnit_yields h h1
  simp only [missCommand]
  with_reducible
    repeat' first
      | exact h | rfl | apply raise_yields | apply reportLoss_yields | apply changeUnit_yields
      | exact h1 | exact h2 | split

theorem missExchange_yields (h : Yields a s) (x : Exchange) : Yields a (missExchange x s) := by
  have h1 := changeInRollCall_yields h x.unit (s.wlc.unit x.unit).absent rfl
  simp only [missExchange]
  with_reducible
    repeat' first
      | exact h | rfl | apply changeUnit_yields | apply putLink_yields | apply finishTarget_yields
      | apply rollCallTry_yields | apply missCommand_yields | exact h1 | split

theorem requestQuiet_yields (h : Yields a s) : Yields a (requestQuiet s) := h.same

theorem wlcModeChange_yields (h : Yields a s) : Yields a (wlcModeChange s) := h.same

theorem showResult_yields (h : Yields a s) (r : Check × Nat) : Yields a (showResult r s) := h.same

theorem activate_yields (h : Yields a s) (p : Params) : Yields a (activate p s) := h.same

theorem changeStopModeFrom_yields (h : Yields a s) (old : Nat) :
    Yields a (changeStopModeFrom old s) := by
  simp only [changeStopModeFrom]
  with_reducible
    repeat' first
      | exact h | rfl | apply changeStopMode_yields | split

theorem acceptConfig_yields (h : Yields a s) (p : Params) : Yields a (acceptConfig p s) := by
  simp only [acceptConfig, runAll]
  with_reducible
    repeat' first
      | exact h | rfl | apply applyPriorities_yields | apply rewriteActions_yields
      | apply lmuConfig_yields | apply rgcConfig_yields | apply tqaConfig_yields | apply activate_yields
      | apply changeStopModeFrom_yields

theorem enterEnroll_yields (h : Yields a s) : Yields a (enterEnroll s) := by
  simp only [enterEnroll]
  with_reducible
    repeat' first
      | exact h | rfl | apply startRollCall_yields | apply setCfl_yields

theorem validateInLoad_yields (h : Yields a s) : Yields a (validateInLoad s) := by
  simp only [validateInLoad]
  with_reducible
    repeat' first
      | exact h | rfl | apply startBlower_yields | apply showResult_yields | apply acceptConfig_yields
      | apply enterEnroll_yields | apply setCfl_yields | split

theorem putDmcSection_yields (h : Yields a s) : Yields a (putDmcSection s) := h.same

theorem announceSubstate_yields (h : Yields a s) : Yields a (announceSubstate s) := by
  simp only [announceSubstate, runAll]
  with_reducible
    repeat' first
      | exact h | rfl | apply tcuSubstateChange_yields | apply stcSubstateChange_yields
      | apply rgcSubstateChange_yields

theorem setSubstate_yields (h : Yields a s) (sub : Substate) (t : Target) :
    Yields a (setSubstate sub t s) := by
  simp only [setSubstate]
  with_reducible
    repeat' first
      | exact h | rfl | apply announceSubstate_yields | apply setDmc_yields | split

theorem formDemands_yields (h : Yields a s) : Yields a (formDemands s) := h.same

theorem endChangeover_yields (h : Yields a s) : Yields a (endChangeover s) := by
  simp only [endChangeover]
  with_reducible
    repeat' first
      | exact h | rfl | apply setSubstate_yields | split

theorem formAndMove_yields (h : Yields a s) : Yields a (formAndMove s) := by
  simp only [formAndMove]
  with_reducible
    repeat' first
      | exact h | rfl | apply setSubstate_yields | apply formDemands_yields
      | apply endChangeover_yields

theorem changeMode_yields (h : Yields a s) (m : Mode) (f : Dmc → Dmc) : Yields a (changeMode m f s) := by
  have k : Yields a (modeShown m f s) := by
    have e : (modeShown m f s).tcu = s.tcu ∧ (modeShown m f s).pru = s.pru := by simp [modeShown]
    exact h.same modeShown_rgc e.1 e.2
  have k2 : Yields a (modeAnnounced m f s) := by
    unfold modeAnnounced
    split
    · exact k
    · exact announceSubstate_yields k
  rw [changeMode_eq]
  exact wlcModeChange_yields (stcModeChange_yields (rgcModeChange_yields k2))

theorem enterTripped_yields (h : Yields a s) : Yields a (enterTripped s) := by
  simp only [enterTripped]
  with_reducible
    repeat' first
      | exact h | rfl | apply requestQuiet_yields | apply changeMode_yields

theorem enterSafeStop_yields (h : Yields a s) : Yields a (enterSafeStop s) := by
  simp only [enterSafeStop]
  with_reducible
    repeat' first
      | exact h | rfl | apply formAndMove_yields | apply changeMode_yields

theorem enterReady_yields (h : Yields a s) : Yields a (enterReady s) := by
  simp only [enterReady]
  with_reducible
    repeat' first
      | exact h | rfl | apply changeMode_yields | apply enterSafeStop_yields | split

theorem driveToReady_yields (h : Yields a s) : Yields a (driveToReady s) := by
  simp only [driveToReady]
  with_reducible
    repeat' first
      | exact h | rfl | apply changeMode_yields | apply enterSafeStop_yields | split

theorem standbyToStarting_yields (h : Yields a s) : Yields a (standbyToStarting s) := by
  simp only [standbyToStarting]
  with_reducible
    repeat' first
      | exact h | rfl | apply enterEnroll_yields | apply changeMode_yields

theorem enterStandbySteps_yields (h : Yields a s) (v : Variant) :
    Yields a (enterStandbySteps v s) := by
  simp only [enterStandbySteps]
  with_reducible
    repeat' first
      | exact h | rfl | apply note_yields | apply changeMode_yields

theorem severityChange_yields (h : Yields a s) : Yields a (severityChange s) := by
  simp only [severityChange]
  with_reducible
    repeat' first
      | exact h | rfl | apply enterTripped_yields | apply enterSafeStop_yields
      | apply standbyToStarting_yields | split

theorem acceptPage_yields (h : Yields a s) (base : Nat) (p : Page) : Yields a (acceptPage base p s) := by
  simp only [acceptPage]
  exact lmuPage_yields (tcuPage_yields (put_yields (setDmc_yields h _) _ _))

theorem takePage_yields (h : Yields a s) : Yields a (takePage s) := by
  simp only [takePage]
  split
  · exact acceptPage_yields h _ _
  · exact h

theorem updateFreshness_yields (h : Yields a s) : Yields a (updateFreshness s) := by
  simp only [updateFreshness]
  with_reducible
    repeat' first
      | exact h | rfl | apply raiseIf_yields | apply noteChange_yields | apply setDmc_yields
      | split

theorem adoptDirection_yields (h : Yields a s) (d : Direction) :
    Yields a (adoptDirection d s) := by
  simp only [adoptDirection]
  with_reducible
    repeat' first
      | exact h | rfl | apply setSubstate_yields | apply setDmc_yields | split

theorem demandStep_yields (h : Yields a s) : Yields a (demandStep s) := by
  simp only [demandStep]
  with_reducible
    repeat' first
      | exact h | rfl | apply formAndMove_yields | split

theorem releaseStop_yields (h : Yields a s) : Yields a (releaseStop s) := by
  simp only [releaseStop]
  with_reducible
    repeat' first
      | exact h | rfl | apply updatePru_yields | apply note_yields | split

theorem stopOwner_yields (h : Yields a s) (r : Resource) : Yields a (stopOwner r s) := by
  simp only [stopOwner]
  with_reducible
    repeat' first
      | exact h | rfl | apply abortCalibration_yields | apply stopTest_yields | apply endOrder_yields
      | apply settleRound_yields | split

theorem filteredSteps_yields (h : Yields a s) : Yields a (filteredSteps s) := by
  simp only [filteredSteps, runAll]
  with_reducible
    repeat' first
      | exact h | rfl | apply noteOvervolt_yields | apply lmuLink_yields
      | apply recomputeCapacity_yields | apply takeFiltered_yields | apply lowerLowest_yields
      | apply checkTestStandstill_yields

theorem setExceeded_yields (h : Yields a s) : Yields a (setExceeded s) := by
  simp only [setExceeded]
  with_reducible
    repeat' first
      | exact h | rfl | apply changeExceeded_yields | apply setRgc_yields

theorem clearExceeded_yields (h : Yields a s) : Yields a (clearExceeded s) := by
  simp only [clearExceeded]
  with_reducible
    repeat' first
      | exact h | rfl | apply changeExceeded_yields | apply setRgc_yields

theorem reviewSteps_yields (h : Yields a s) : Yields a (reviewSteps s) := by
  simp only [reviewSteps, runAll, forBanks]
  with_reducible
    repeat' first
      | exact h | rfl | apply putBankSection_yields | apply sortRotation_yields
      | apply recomputeBlower_yields

theorem endDischarge_yields (h : Yields a s) : Yields a (endDischarge s) := by
  simp only [endDischarge]
  with_reducible
    repeat' first
      | exact h | rfl | apply judgeChannels_yields | apply setRgc_yields

end
end Sys2Proof.Machine
end

section
/-! The fault table's sets and summary, and what the blocks have made of them, through the deliveries (O59). -/

namespace Sys2Proof.Machine

section
variable {a s t u : State} {m : Mode} {f : Dmc → Dmc}

/-! ### The marks of an exclusion and of the summary -/

/-- A mode that heeds the summary (R69, R70). -/
def Pru.minds (p : Pru) (m : Mode) : Prop :=
  (p.summary = .trip → m = .starting ∨ m = .tripped) ∧ (p.summary = .safeStop → m ≠ .ready ∧ m ≠ .drive)

/-- The blocks follow the sets and the summary that the PRU holds, delivered or not. -/
structure Follows (s : State) : Prop where
  mode : s.pru.minds s.dmc.mode
  channels : ∀ b, s.pru.bankEx.get b = true → (s.rgc.chans.get b).still
  rotation : ∀ b ∈ s.rgc.rotation, s.pru.bankEx.get b = false
  wheels : ∀ w, s.pru.wheelEx.get w = true → (s.tcu.wheels.get w).rests

theorem heeded_iff (s : State) : s.heeded ↔ s.delivered = true ∧ Follows s :=
  ⟨fun h => ⟨h.delivered, ⟨h.trip, h.safeStop⟩, h.channels, h.rotation, h.wheels⟩,
    fun ⟨hd, h⟩ => ⟨hd, h.mode.1, h.mode.2, h.channels, h.rotation, h.wheels⟩⟩

theorem Yields.minds (k : Yields a s) : s.pru.minds m ↔ a.pru.minds m := by
  rw [Pru.minds, Pru.minds, k.sets.2.2]

/-- An event that leaves the marks, in a mode that heeds the summary. -/
theorem Follows.step (h : Follows a) (k : Yields a s) (hm : a.pru.minds s.dmc.mode) : Follows s where
  mode := k.minds.2 hm
  channels := fun b hb => k.channels b (k.sets.2.1 ▸ hb) (h.channels b (k.sets.2.1 ▸ hb))
  rotation := by
    rw [k.sets.2.1]
    exact k.rotation h.rotation
  wheels := fun w hw => k.wheels w (k.sets.1 ▸ hw) (h.wheels w (k.sets.1 ▸ hw))

theorem Follows.stay (h : Follows a) (k : Yields a s) (hm : s.dmc.mode = a.dmc.mode) : Follows s :=
  h.step k (by rw [hm]; exact h.mode)

theorem minds_starting (p : Pru) : p.minds .starting := ⟨fun _ => .inl rfl, fun _ => ⟨nofun, nofun⟩⟩

theorem minds_tripped (p : Pru) : p.minds .tripped := ⟨fun _ => .inr rfl, fun _ => ⟨nofun, nofun⟩⟩

theorem minds_safeStop {p : Pru} (h : p.summary ≠ .trip) : p.minds .safeStop :=
  ⟨fun k => absurd k h, fun _ => ⟨nofun, nofun⟩⟩

theorem minds_standby {p : Pru} (h : p.summary ≠ .trip) : p.minds .standby :=
  ⟨fun k => absurd k h, fun _ => ⟨nofun, nofun⟩⟩

theorem minds_any {p : Pru} (h : p.summary ≠ .trip) (k : p.summary ≠ .safeStop) : p.minds m :=
  ⟨fun e => absurd e h, fun e => absurd e k⟩

/-- A mode with torque, or STANDBY, stands while the summary is not TRIP. -/
theorem Follows.no_trip (h : Follows s) (h1 : s.dmc.mode ≠ .starting) (h2 : s.dmc.mode ≠ .tripped) :
    s.pru.summary ≠ .trip := fun k => (h.mode.1 k).elim h1 h2

/-! ### The entries into the modes -/

theorem enterTripped_mode (s : State) : (enterTripped s).dmc.mode = .tripped := by rw [(enterTripped_entered s).dmc]

theorem enterTripped_follows (h : Follows s) : Follows (enterTripped s) :=
  h.step (enterTripped_yields (.refl s)) (by rw [enterTripped_mode]; exact minds_tripped _)

theorem enterSafeStop_mode (s : State) : (enterSafeStop s).dmc.mode = .safeStop := by
  simp only [enterSafeStop]
  rw [formAndMove_dmc, State.demanded, changeMode_dmc, State.movedDmc]

theorem enterReady_minds (hs : s.pru.summary ≠ .trip) : s.pru.minds (enterReady s).dmc.mode := by
  rw [(enterReady_entered s).mode]
  split
  · exact minds_safeStop hs
  case isFalse k => exact minds_any hs k

theorem enterReady_follows (h : Follows s) (hs : s.pru.summary ≠ .trip) : Follows (enterReady s) :=
  h.step (enterReady_yields (.refl s)) (enterReady_minds hs)

theorem driveToReady_follows (h : Follows s) (hs : s.pru.summary ≠ .trip) : Follows (driveToReady s) := by
  refine h.step (driveToReady_yields (.refl s)) ?_
  unfold driveToReady
  dsimp only
  split
  case isTrue k => rw [enterSafeStop_mode]; exact minds_safeStop hs
  case isFalse k =>
    refine minds_any hs ?_
    simpa using k

theorem standbyToStarting_follows (h : Follows s) : Follows (standbyToStarting s) :=
  h.step (standbyToStarting_yields (.refl s)) (by
    rw [(standbyToStarting_entered s).dmc]
    exact minds_starting _)

/-! ### The deliveries -/

/-- A state whose mode is not yet judged by the summary. -/
structure Marked (s : State) : Prop where
  channels : ∀ b, s.pru.bankEx.get b = true → (s.rgc.chans.get b).still
  rotation : ∀ b ∈ s.rgc.rotation, s.pru.bankEx.get b = false
  wheels : ∀ w, s.pru.wheelEx.get w = true → (s.tcu.wheels.get w).rests

theorem Follows.marked (h : Follows s) : Marked s := ⟨h.channels, h.rotation, h.wheels⟩

theorem Marked.follows (h : Marked s) (hm : s.pru.minds s.dmc.mode) : Follows s :=
  ⟨hm, h.channels, h.rotation, h.wheels⟩

theorem Marked.step (h : Marked a) (k : Yields a s) : Marked s where
  channels := fun b hb => k.channels b (k.sets.2.1 ▸ hb) (h.channels b (k.sets.2.1 ▸ hb))
  rotation := by
    rw [k.sets.2.1]
    exact k.rotation h.rotation
  wheels := fun w hw => k.wheels w (k.sets.1 ▸ hw) (h.wheels w (k.sets.1 ▸ hw))

/-- The DMC heeds a summary that it is told of. -/
theorem severityChange_minds (s : State) : s.pru.minds (severityChange s).dmc.mode := by
  unfold severityChange
  split
  case h_1 hs _ => rw [enterSafeStop_mode]; exact minds_safeStop (by rw [hs]; decide)
  case h_2 hs _ => rw [enterSafeStop_mode]; exact minds_safeStop (by rw [hs]; decide)
  case h_3 => rw [enterTripped_mode]; exact minds_tripped _
  case h_4 => rw [enterTripped_mode]; exact minds_tripped _
  case h_5 => rw [enterTripped_mode]; exact minds_tripped _
  case h_6 =>
    split
    · rw [enterTripped_mode]
      exact minds_tripped _
    · rw [(standbyToStarting_entered s).dmc]
      exact minds_starting _
  case h_7 k1 k2 k3 k4 k5 k6 =>
    constructor
    · intro hs
      cases hm : s.dmc.mode with
      | starting => exact .inl rfl
      | tripped => exact .inr rfl
      | ready => exact absurd hm (k3 hs)
      | drive => exact absurd hm (k4 hs)
      | safeStop => exact absurd hm (k5 hs)
      | standby => exact absurd hm (k6 hs)
    · intro hs
      exact ⟨k1 hs, k2 hs⟩

theorem severityChange_marked (h : Marked s) : Follows (severityChange s) := by
  have k : Yields s (severityChange s) := severityChange_yields (.refl s)
  exact (h.step k).follows (k.minds.2 (severityChange_minds s))

theorem deliverSummary_follows (h : Follows s) : Follows (deliverSummary s) := by
  have k : Marked (updatePru { s.pru with summary := formSummary s.pru.entries } s) := by
    refine ⟨?_, ?_, ?_⟩ <;> rw [updatePru_pru]
    · simpa using h.channels
    · simpa using h.rotation
    · simpa using h.wheels
  unfold deliverSummary
  exact severityChange_marked (k.step (Yields.same (.refl _)))

theorem takeExclusion_yields (h : Yields a s) (old : PerWheel Bool) (w : Wheel) : Yields a (takeExclusion old w s) := by
  unfold takeExclusion
  split
  · exact excludeAtTcu_yields h w
  · exact h

theorem alterWheel_same (w : Wheel) (r : TcuWheel) (s : State) : (alterWheel w r s).tcu.wheels.get w = r := by
  unfold alterWheel
  split
  case isTrue h => exact h.symm
  case isFalse => simp [setTcuWheel]

/-- A wheel that the set names is at rest after its turn, one that it named before by its rest then. -/
theorem takeExclusion_rests {old : PerWheel Bool} {w : Wheel} (hw : s.pru.wheelEx.get w = true)
    (h : old.get w = true → (s.tcu.wheels.get w).rests) : ((takeExclusion old w s).tcu.wheels.get w).rests := by
  unfold takeExclusion
  split
  case isTrue =>
    have e : (excludeAtTcu w s).tcu = (alterWheel w (s.tcu.wheels.get w).toGrip s).tcu := by
      simp [excludeAtTcu]
    rw [e, alterWheel_same]
    exact toGrip_rests _
  case isFalse k =>
    refine h ?_
    simpa [hw] using k

theorem tcuExclusion_rests {old : PerWheel Bool}
    (h : ∀ w, old.get w = true → (s.tcu.wheels.get w).rests) (w : Wheel) (hw : s.pru.wheelEx.get w = true) :
    ((tcuExclusion old s).tcu.wheels.get w).rests := by
  have hturn : ∀ v {u : State}, u.pru.wheelEx = s.pru.wheelEx →
      (∀ x, s.pru.wheelEx.get x = true → old.get x = true → (u.tcu.wheels.get x).rests) →
      (takeExclusion old v u).pru.wheelEx = s.pru.wheelEx ∧
      (∀ x, s.pru.wheelEx.get x = true → old.get x = true → ((takeExclusion old v u).tcu.wheels.get x).rests) :=
    fun v u hu hx => ⟨(takeExclusion_wheelEx old v u).trans hu, fun x h1 h2 =>
      (takeExclusion_yields (.refl u) old v).wheels x (by rw [hu]; exact h1) (hx x h1 h2)⟩
  have hdone : ∀ v {u : State}, u.pru.wheelEx = s.pru.wheelEx →
      (u.tcu.wheels.get w).rests → ((takeExclusion old v u).tcu.wheels.get w).rests := fun v u hu hx =>
    (takeExclusion_yields (.refl u) old v).wheels w (by rw [hu]; exact hw) hx
  have h1 := hturn .w1 rfl fun x _ => h x
  have h2 := hturn .w2 h1.1 h1.2
  have h3 := hturn .w3 h2.1 h2.2
  have hmine : ∀ {u : State}, u.pru.wheelEx = s.pru.wheelEx →
      (∀ x, s.pru.wheelEx.get x = true → old.get x = true → (u.tcu.wheels.get x).rests) →
      ((takeExclusion old w u).tcu.wheels.get w).rests := fun hu hx =>
    takeExclusion_rests (by rw [hu]; exact hw) (hx w hw)
  have hall : ((forWheels (takeExclusion old) s).tcu.wheels.get w).rests := by
    cases w with
    | w1 => exact hdone .w4 h3.1 (hdone .w3 h2.1 (hdone .w2 h1.1 (hmine rfl fun x _ => h x)))
    | w2 => exact hdone .w4 h3.1 (hdone .w3 h2.1 (hmine h1.1 h1.2))
    | w3 => exact hdone .w4 h3.1 (hmine h2.1 h2.2)
    | w4 => exact hmine h3.1 h3.2
  rw [tcuExclusion_eq, (putTcuSection_frame _).2.2.2.2.2.2.2.2.2.2.2.1, recomputeIn_wheels, judgeQuality_wheels]
  exact hall

/-- The channels and the rotation order follow a bank set that has changed. -/
theorem followBanks_marks (before : PerBank Bool) (s : State) :
    (∀ b, (followBanks before s).pru.bankEx.get b = true → ((followBanks before s).rgc.chans.get b).still) ∧
      ∀ b ∈ (followBanks before s).rgc.rotation, (followBanks before s).pru.bankEx.get b = false := by
  rw [followBanks_eq]
  constructor
  · intro b hb
    have hpru : (judgeChannels (skipCurrent (forBanks (skipAdded before) (sortRotation s)))).pru =
        (skipCurrent (forBanks (skipAdded before) (sortRotation s))).pru := by simp
    rw [hpru] at hb
    rw [Chan.still, judgeChannels_state]
    exact chanState_excluded hb
  · have hskip : ∀ b {u : State}, Yields (sortRotation s) u → Yields (sortRotation s) (skipAdded before b u) := fun b u k => by
      unfold skipAdded
      split
      · exact skipWaiting_yields k b
      · exact k
    have k : Yields (sortRotation s) (judgeChannels (skipCurrent (forBanks (skipAdded before) (sortRotation s)))) := by
      simp only [forBanks]
      exact judgeChannels_yields (skipCurrent_yields (hskip _ (hskip _ (hskip _ (hskip _ (hskip _ (hskip _ (.refl _))))))))
    have hsort : ∀ b ∈ (sortRotation s).rgc.rotation, (sortRotation s).pru.bankEx.get b = false := fun b hb =>
      ((mem_sortedBanks s b).1 hb).2.2
    rw [k.sets.2.1]
    exact k.rotation hsort

theorem rgcExclusion_marks {before : PerBank Bool} (hw : ∀ w, s.pru.wheelEx.get w = true → (s.tcu.wheels.get w).rests)
    (hc : s.pru.bankEx = before → (∀ b, s.pru.bankEx.get b = true → (s.rgc.chans.get b).still) ∧
      ∀ b ∈ s.rgc.rotation, s.pru.bankEx.get b = false) : Marked (rgcExclusion before s) := by
  unfold rgcExclusion
  split
  case isTrue e => exact ⟨(hc e).1, (hc e).2, hw⟩
  case isFalse =>
    have hpru : (followBanks before s).pru = s.pru := by simp
    have htcu : (followBanks before s).tcu = s.tcu := by simp
    obtain ⟨hchans, hrot⟩ := followBanks_marks before s
    have k : Marked (followBanks before s) := ⟨hchans, hrot, by rw [hpru, htcu]; exact hw⟩
    exact k.step (recomputeCapacity_yields (.refl _))

theorem setsHeeded_marked (h : Marked s) : Marked (setsHeeded s) := by
  have hrgc : (setsTaken s).rgc = s.rgc := by simp [setsTaken]
  have htcu : (setsTaken s).tcu = s.tcu := by simp [setsTaken]
  have hold : ∀ w, s.pru.wheelEx.get w = true → ((setsTaken s).tcu.wheels.get w).rests := by
    rw [htcu]
    exact h.wheels
  unfold setsHeeded
  split
  case isTrue e =>
    refine ⟨?_, ?_, ?_⟩
    · rw [e.2, hrgc]; exact h.channels
    · rw [e.2, hrgc]; exact h.rotation
    · rw [e.1]; exact hold
  case isFalse =>
    have hrgc' : (tcuExclusion s.pru.wheelEx (setsTaken s)).rgc = s.rgc := by simp [hrgc]
    have k := tcuExclusion_yields (.refl (setsTaken s)) s.pru.wheelEx
    refine rgcExclusion_marks (fun w hw => ?_) fun e => ?_
    · exact tcuExclusion_rests hold w (k.sets.1 ▸ hw)
    · rw [e, hrgc']
      exact ⟨h.channels, h.rotation⟩

theorem deliverSets_follows (h : Follows s) : Follows (deliverSets s) := by
  have hmode : (deliverSets s).dmc = s.dmc := by simp
  have hsummary : (setsHeeded s).pru.summary = s.pru.summary := by
    unfold setsHeeded
    split
    · rw [setsTaken_pru]
    · have k := rgcExclusion_yields (tcuExclusion_yields (.refl (setsTaken s)) s.pru.wheelEx) s.pru.bankEx
      rw [k.sets.2.2, setsTaken_pru]
  rw [deliverSets_eq] at hmode ⊢
  have k := observeEscalation_yields (.refl (setsHeeded s))
  refine ((setsHeeded_marked h.marked).step k).follows ?_
  rw [hmode, Pru.minds, k.sets.2.2, hsummary]
  exact h.mode

theorem deliver_follows (h : Follows s) : Follows (deliver s) := by
  unfold deliver
  split
  · split
    · exact h
    · exact deliverSummary_follows h
  · exact deliverSets_follows h

theorem settle_follows (h : Follows s) : Follows (settle s) := settle_of_deliver (fun _ => deliver_follows) h

/-- The deliveries after an event that followed the sets and the summary. -/
theorem Follows.heeded (h : Follows s) : (settle s).heeded := (heeded_iff _).2 ⟨settle_delivered s, settle_follows h⟩

/-- An event that leaves the fault table and the mode. -/
theorem heeded_stay (h : s.heeded) (k : Yields s t) (hpru : t.pru = s.pru) (hm : t.dmc.mode = s.dmc.mode) : t.heeded := by
  obtain ⟨hd, hf⟩ := (heeded_iff s).1 h
  exact (heeded_iff t).2 ⟨(delivered_of_pru hpru).trans hd, hf.stay k hm⟩

theorem heeded_settle (h : s.heeded) (k : Yields s t) (hm : s.pru.minds t.dmc.mode) : (settle t).heeded :=
  (((heeded_iff s).1 h).2.step k hm).heeded

end
end Sys2Proof.Machine
end

section
/-! Every command keeps what the blocks have made of the fault table (O59). -/

namespace Sys2Proof.Machine

section
variable {a s t u : State} {cell : BitVec 6}

/-! ### Steps that leave the mode or choose it -/

/-- An event whose marks and mode stay, and the deliveries after it. -/
theorem heeded_observed (h : s.heeded) (k : Yields s t) (hm : t.dmc.mode = s.dmc.mode := by simp) :
    (settle t).heeded :=
  heeded_settle h k (by rw [hm]; exact ((heeded_iff s).1 h).2.mode)

/-- Where an outcome leads, the fault table is heeded. -/
def Heeding (o : Host.Outcome State Fault Refusal) : Prop := ∀ t, o = .next t → t.heeded

theorem next_heeding (h : u.heeded) : Heeding (.next u) := fun t e => by
  cases e
  exact h

theorem running_heeding {f : State → State} (h : s.heeded) (k : (f s).heeded) : Heeding (whenRunning f s) := by
  unfold whenRunning
  split
  · exact next_heeding k
  · exact next_heeding h

/-- An event that leaves the fault table and the mode. -/
theorem staying_heeding {f : State → State} (h : s.heeded) (k : Yields s (f s)) (hpru : (f s).pru = s.pru)
    (hm : (f s).dmc = s.dmc) : Heeding (whenRunning f s) :=
  running_heeding h (heeded_stay h k hpru (by rw [hm]))

/-- An event with observations that leaves the mode. -/
theorem observing_heeding {f : State → State} (h : s.heeded) (k : Yields s (f s)) (hm : (f s).dmc = s.dmc) :
    Heeding (whenObserving f s) :=
  running_heeding (f := fun s => settle (f s)) h (heeded_observed h k (by rw [hm]))

theorem Follows.wake (h : Follows s) (b : Bool) : Follows (wake b s) := by
  unfold Machine.wake leaveStandbySteps
  split
  case isTrue k =>
    split
    · exact enterReady_follows h (h.no_trip (by rw [k.1]; decide) (by rw [k.1]; decide))
    · exact standbyToStarting_follows h
  case isFalse => exact h

theorem Follows.checked (h : Follows s) : Follows (modeChecks s) := by
  have hstay : ∀ {d : Dmc}, d.mode = s.dmc.mode → Follows (s.setDmc d) := fun hm =>
    h.stay (setDmc_yields (.refl s) _) hm
  unfold modeChecks
  split
  case h_1 =>
    unfold returnCheck
    split
    case isTrue k =>
      refine enterReady_follows h fun e => ?_
      rw [e] at k
      exact absurd k.2.2.1 (by decide)
    case isFalse => exact h
  case h_2 =>
    unfold countStop finishStop
    split
    · split
      · exact enterTripped_follows (hstay rfl)
      · exact hstay rfl
    · exact hstay rfl
  case h_3 hm =>
    have htrip := h.no_trip (by rw [hm]; decide) (by rw [hm]; decide)
    unfold enterDriveCheck
    dsimp only
    split
    · exact hstay rfl
    · split
      · refine h.step (changeMode_yields (.refl s) _ _) ?_
        rw [changeMode_dmc]
        exact minds_any htrip fun e => (h.mode.2 e).1 hm
      · exact hstay rfl
  all_goals exact h

theorem Follows.directed (h : Follows s) : Follows (directionCheck s) := by
  have hstay : ∀ {d : Dmc}, d.mode = s.dmc.mode → Follows (s.setDmc d) := fun hm =>
    h.stay (setDmc_yields (.refl s) _) hm
  unfold directionCheck
  dsimp only
  split
  case isTrue => exact h
  case isFalse hm =>
    have hm : s.dmc.mode = .drive := not_not.1 hm
    split
    · exact hstay rfl
    split
    · split
      · exact driveToReady_follows h (h.no_trip (by rw [hm]; decide) (by rw [hm]; decide))
      · exact hstay rfl
    split
    · refine h.stay (adoptDirection_yields (.refl s) _) ?_
      unfold adoptDirection
      dsimp only
      split
      · rw [setSubstate_dmc]
        rfl
      · rfl
    · exact hstay rfl

theorem Follows.stepped (h : Follows s) : Follows (demandStep s) := by
  refine h.stay (demandStep_yields (.refl s)) ?_
  unfold demandStep
  split
  · rw [formAndMove_dmc]
    rfl
  · rfl

theorem takePage_mode (s : State) : (takePage s).dmc.mode = s.dmc.mode := by
  cases h : s.pageAccepted with
  | false => rw [takePage_ignored h]
  | true => rw [takePage_accepted h, acceptPage_dmc]

theorem updateFreshness_mode (s : State) : (updateFreshness s).dmc.mode = s.dmc.mode := by
  unfold updateFreshness
  split <;> simp

theorem demandSteps_follows (h : Follows s) : Follows (demandSteps s) := by
  have h1 : Follows (takeDemandPeriod s) := h.stay (setDmc_yields (.refl s) _) rfl
  have h2 := h1.stay (takePage_yields (.refl _)) (takePage_mode _)
  have h3 := h2.stay (updateFreshness_yields (.refl _)) (updateFreshness_mode _)
  rw [demandSteps_eq]
  exact (h3.wake _).checked.directed.stepped.stay (putDmcSection_yields (.refl _)) (by simp)

theorem endSettle_follows (h : Follows s) : Follows (endSettle s) := by
  have k : Follows (s.setCfl { s.cfl with phase := .complete, settleEnd := none }) :=
    h.stay (setCfl_yields (.refl s) _) rfl
  unfold endSettle
  dsimp only
  split
  case isTrue => exact enterTripped_follows k
  case isFalse e => exact enterReady_follows k e

theorem testSettle_follows (h : Follows s) : Follows (testSettle s) := by
  unfold testSettle
  split
  · exact endSettle_follows h
  · exact h

/-! ### The wheel link -/

theorem finishLink_heeded (h : Follows s) : (finishLink s).heeded := by
  have h1 : Follows (takeRollCall (settleRound s)) :=
    h.stay (takeRollCall_yields (settleRound_yields (.refl s))) (by simp)
  exact (testSettle_follows (settle_follows h1)).heeded

theorem inOrder_follows {x y z : State → State} (order : HandOff) (hx : ∀ u, Follows u → Follows (x u))
    (hy : ∀ u, Follows u → Follows (y u)) (hz : ∀ u, Follows u → Follows (z u)) (h : Follows s) :
    Follows (inOrder order x y z s) := by
  cases order with
  | o123 => exact hz _ (hy _ (hx _ h))
  | o132 => exact hy _ (hz _ (hx _ h))
  | o213 => exact hz _ (hx _ (hy _ h))
  | o231 => exact hx _ (hz _ (hy _ h))
  | o312 => exact hy _ (hx _ (hz _ h))
  | o321 => exact hx _ (hy _ (hz _ h))

theorem acceptReply_follows (x : Exchange) (order : HandOff) (bytes : List Byte) (h : Follows s) :
    Follows (acceptReply x order bytes s) := by
  have hnote : ∀ k subject b u, Follows u → Follows (settle (note k subject b u)) := fun k subject b u hu =>
    settle_follows (hu.stay (note_yields (.refl u) k subject b) (by simp))
  have hrec : ∀ (v : UnitId) (r : UnitRec), Follows (putLink v (changeUnit v r s)) := fun v r =>
    h.stay (Yields.same (.refl s)) (by simp)
  have hsteer : Follows (acceptSteerReport order bytes s) := by
    unfold acceptSteerReport
    dsimp only
    exact inOrder_follows order (fun u hu => settle_follows (hu.stay (stcReport_yields (.refl u)) (by simp)))
      (fun u hu => settle_follows (hu.stay (tcuSteerReport_yields (.refl u)) (by simp)))
      (fun u => hnote _ _ _ u) (hrec _ _)
  unfold acceptReply
  split
  · exact h.stay (acceptAnswer_yields (.refl s) _ _) (by simp)
  · rename_i w _ _
    unfold acceptReport
    dsimp only
    exact inOrder_follows order (fun u hu => settle_follows (hu.stay (tcuReport_yields (.refl u) w) (by simp)))
      (fun u => hnote _ _ _ u) (fun u hu => settle_follows (testSettle_follows hu)) (hrec _ _)
  all_goals exact hsteer

theorem closeWindow_follows (h : Follows s) : Follows (closeWindow s) := h.stay (Yields.same (.refl s)) (by simp)

theorem missExchange_follows (x : Exchange) (h : Follows s) : Follows (missExchange x s) :=
  h.stay (missExchange_yields (.refl s) x) (by simp)

theorem replyArrival_heeded (h : s.heeded) (order : HandOff) (bytes : List Byte) :
    (replyArrival order bytes s).heeded := by
  have k := closeWindow_follows ((heeded_iff s).1 h).2
  unfold replyArrival
  split
  · exact h
  · dsimp only
    refine finishLink_heeded ?_
    split
    · exact acceptReply_follows _ order bytes k
    · exact missExchange_follows _ k
    · exact missExchange_follows _ (k.stay (Yields.same (.refl _)) (by simp))

theorem windowExpiry_heeded (h : s.heeded) : (windowExpiry s).heeded := by
  unfold windowExpiry
  split
  · exact h
  · exact finishLink_heeded (missExchange_follows _ (closeWindow_follows ((heeded_iff s).1 h).2))

/-! ### The orders -/

theorem endCell_yields (h : Yields a s) (cell : BitVec 6) (r : Result) (detail : List Word) :
    Yields a (endCell cell r detail s) := h.same

theorem endCell_heeded (h : s.heeded) (cell : BitVec 6) (r : Result) (detail : List Word) :
    (endCell cell r detail s).heeded :=
  heeded_stay h (endCell_yields (.refl s) _ _ _) (by simp) (by simp)

theorem admitIf_heeded {b : Bool} {f : State → State} (h : s.heeded) (hf : b = true → (f s).heeded) :
    (admitIf b cell f s).heeded := by
  unfold admitIf
  split
  case isTrue k => exact hf k
  case isFalse => exact endCell_heeded h _ _ _

theorem setOre_heeded (h : s.heeded) (o : Ore) : (s.setOre o).heeded :=
  heeded_stay h (setOre_yields (.refl s) o) rfl rfl

theorem handOver_heeded {r : Resource} {check : Option (Result × List Word)} {start : State → State} (h : s.heeded)
    (hf : ∀ u, u.heeded → (start u).heeded) : (handOver r cell check start s).heeded := by
  unfold handOver
  split
  · exact endCell_heeded h _ _ _
  · split
    · exact endCell_heeded h _ _ _
    · exact hf _ (setOre_heeded h _)

theorem decideClearFaults_heeded (h : s.heeded) (forget : Word) : (decideClearFaults cell forget s).heeded := by
  have h1 : Follows (releaseStop s) := ((heeded_iff s).1 h).2.stay (releaseStop_yields (.refl s)) (by simp)
  have hclear : ∀ u, Yields u (clearTable forget u) := fun u => by
    unfold clearTable
    exact raiseIf_yields (by refine updatePru_yields (.refl u) ?_ ?_ ?_ <;> rfl) _ _
  have h2 : Follows (settle (clearTable forget (releaseStop s))) :=
    settle_follows (h1.stay (hclear _) (by simp [clearTable]))
  have h3 : Follows (settle (observeEscalation (settle (clearTable forget (releaseStop s))))) :=
    settle_follows (h2.stay (observeEscalation_yields (.refl _)) (by simp))
  have hcomplete : ∀ u, Follows u → Follows (clearCompletion u) := fun u hu => by
    unfold clearCompletion
    split
    case isTrue hm =>
      have k : Follows (u.setDmc { u.dmc with credit := true }) := hu.stay (setDmc_yields (.refl u) _) rfl
      have e := k.checked
      rw [modeChecks_tripped (s := u.setDmc { u.dmc with credit := true }) hm] at e
      exact e
    case isFalse => exact hu
  unfold decideClearFaults
  dsimp only
  exact (hcomplete _ (h3.stay (endCell_yields (.refl _) _ _ _) (by simp))).heeded

theorem decideEnterStandby_heeded (h : s.heeded) (keepLink keepBlower : Word) :
    (decideEnterStandby cell keepLink keepBlower s).heeded := by
  have hf := ((heeded_iff s).1 h).2
  unfold decideEnterStandby
  dsimp only
  refine admitIf_heeded h fun hb => ?_
  have hm : s.dmc.mode = .ready := by
    simp only [State.readyStill, Bool.and_eq_true, beq_iff_eq] at hb
    exact hb.1
  refine endCell_heeded ?_ _ _ _
  refine heeded_settle h (enterStandbySteps_yields (.refl s) _) ?_
  have e : (enterStandbySteps (variantOf keepLink keepBlower) s).dmc.mode = .standby := by
    simp [enterStandbySteps, State.movedDmc]
  rw [e]
  exact minds_standby (hf.no_trip (by rw [hm]; decide) (by rw [hm]; decide))

theorem decideLeaveStandby_heeded (h : s.heeded) : (decideLeaveStandby cell s).heeded := by
  have hf := ((heeded_iff s).1 h).2
  refine admitIf_heeded h fun hb => endCell_heeded (Follows.heeded ?_) _ _ _
  have hm : s.dmc.mode = .standby := by simpa using hb
  unfold leaveStandbySteps
  split
  · exact enterReady_follows hf (hf.no_trip (by rw [hm]; decide) (by rw [hm]; decide))
  · exact standbyToStarting_follows hf

theorem acceptApplied_heeded (h : s.heeded) (p : Params) : (acceptApplied cell p s).heeded := by
  refine endCell_heeded (heeded_observed h ?_ (by simp [markReEnrol])) _ _ _
  exact (acceptConfig_yields (.refl s) p).same

theorem showResult_heeded (h : s.heeded) (r : Check × Nat) : (showResult r s).heeded :=
  heeded_stay h (Yields.same (.refl s)) (by simp) (by simp)

theorem decideApplyConfig_heeded (h : s.heeded) : (decideApplyConfig cell s).heeded := by
  refine admitIf_heeded h fun _ => ?_
  split
  · exact endCell_heeded h _ _ _
  · dsimp only
    split
    · exact acceptApplied_heeded (showResult_heeded h _) _
    · exact endCell_heeded (showResult_heeded h _) _ _ _

theorem decideAbort_heeded (h : s.heeded) (index : Word) : (decideAbort cell index s).heeded := by
  unfold decideAbort
  split
  · exact endCell_heeded h _ _ _
  · dsimp only
    split
    · exact endCell_heeded h _ _ _
    · rename_i r _
      refine heeded_observed h (Yields.same (stopOwner_yields (.refl s) r)) ?_
      cases r <;> simp [stopOwner]

theorem decideSetLimits_heeded (h : s.heeded) (forward reverse cap : Word) :
    (decideSetLimits cell forward reverse cap s).heeded :=
  admitIf_heeded h fun _ => endCell_heeded (heeded_stay h (Yields.same (.refl s)) (by simp) (by simp)) _ _ _

theorem decideLoadEnvelope_heeded (h : s.heeded) : (decideLoadEnvelope cell s).heeded := by
  refine admitIf_heeded h fun _ => ?_
  split
  · exact endCell_heeded h _ _ _
  · exact endCell_heeded (heeded_stay h (setEnvelope_yields (.refl s) _) (by simp) (by simp)) _ _ _

theorem decideGridTest_heeded (h : s.heeded) (banks duty count : Word) :
    (decideGridTest cell banks duty count s).heeded :=
  admitIf_heeded h fun _ => handOver_heeded h fun u hu =>
    heeded_stay hu (startTest_yields (.refl u) _ _ _ _) (by simp) (by simp)

theorem decideSteerCalibrate_heeded (h : s.heeded) : (decideSteerCalibrate cell s).heeded :=
  admitIf_heeded h fun _ => handOver_heeded h fun u hu =>
    heeded_stay hu (Yields.same (.refl u)) (by simp) (by simp)

theorem decideRollCall_heeded (h : s.heeded) : (decideRollCall cell s).heeded :=
  admitIf_heeded h fun _ => handOver_heeded h fun u hu =>
    heeded_stay hu (Yields.same (.refl u)) (by simp) (by simp)

theorem decideOrder_heeded (h : s.heeded) (cell : BitVec 6) : (decideOrder cell s).heeded := by
  unfold decideOrder
  dsimp only
  split
  · exact decideSetLimits_heeded h _ _ _
  · exact decideLoadEnvelope_heeded h
  · exact decideClearFaults_heeded h _
  · exact decideEnterStandby_heeded h _ _
  · exact decideLeaveStandby_heeded h
  · exact decideApplyConfig_heeded h
  · exact decideGridTest_heeded h _ _ _
  · exact decideSteerCalibrate_heeded h
  · exact decideRollCall_heeded h
  · exact decideAbort_heeded h _
  · exact endCell_heeded h _ _ _

/-! ### The chain scan -/

theorem setChain_heeded (h : s.heeded) (o : Ore) : (setChain o s).heeded :=
  heeded_stay h (Yields.same (.refl s)) (by simp) (by simp)

theorem haltChain_heeded (h : s.heeded) : (haltChain s).heeded :=
  heeded_stay h (Yields.same (.refl s)) (by simp [haltChain]) (by simp [haltChain])

theorem takeCell_heeded (h : s.heeded) (cell : BitVec 6) : (takeCell cell s).heeded :=
  decideOrder_heeded (setChain_heeded (heeded_stay (t := markTaken cell s) h (Yields.same (.refl s))
    (by simp [markTaken]) (by simp [markTaken])) _) cell

theorem followLink_heeded (h : s.heeded) (cell : BitVec 6) : (followLink cell s).1.heeded := by
  unfold followLink
  split
  · exact setChain_heeded h _
  · exact setChain_heeded h _
  · exact haltChain_heeded h

theorem scanSteps_heeded (n takes : Nat) (h : s.heeded) : (scanSteps n takes s).heeded := by
  induction n generalizing s takes with
  | zero => exact h
  | succ n ih =>
    unfold scanSteps
    dsimp only
    split
    · split
      · exact setChain_heeded h _
      · exact ih _ (setChain_heeded h _)
      · exact haltChain_heeded h
    · split
      · split
        · exact ih _ (followLink_heeded (takeCell_heeded h _) _)
        · exact followLink_heeded (takeCell_heeded h _) _
      · exact setChain_heeded h _

theorem scan_heeded (h : s.heeded) : (scan s).heeded := by
  unfold scan
  split
  · exact h
  · exact scanSteps_heeded 9 4 h

/-! ### The EXTERNAL_STOP input -/

theorem sampleStop_follows (h : Follows s) (low : Bool) : Follows (sampleStop low s) := by
  unfold sampleStop moveFilter
  dsimp only
  have k1 : Follows (updatePru { s.pru with filter := s.pru.filter.sample s.cfg.stopLevel low } s) :=
    h.stay (by refine updatePru_yields (.refl s) ?_ ?_ ?_ <;> rfl) (by simp)
  have k2 := settle_follows (k1.stay (noteChange_yields (.refl _) .externalStop .global s.pru.filter.active
    (s.pru.filter.sample s.cfg.stopLevel low).active) (by simp))
  exact k2.stay (abortTestIf_yields (.refl _) _) (by simp)

/-! ### The resets -/

theorem reset_follows (entries : List Entry) (hp : s.pru = Pru.reset entries) (hm : s.dmc.mode = .starting)
    (hr : s.rgc = Rgc.reset) : Follows s := by
  refine ⟨by rw [hm]; exact minds_starting _, fun b hb => ?_, fun b hb => ?_, fun w hw => ?_⟩
  · rw [hp] at hb
    cases b <;> exact absurd hb Bool.false_ne_true
  · rw [hr] at hb
    exact absurd hb List.not_mem_nil
  · rw [hp] at hw
    cases w <;> exact absurd hw Bool.false_ne_true

theorem restoreTable_follows (h : Follows s) : Follows (restoreTable s) := by
  unfold restoreTable
  dsimp only
  refine settle_follows ?_
  have k : Yields s (s.setPru { s.pru with entries := restoredEntries s.cfl.cause s.clock s.pru.entries }) := by
    refine setPru_yields (.refl s) ?_ ?_ ?_ <;> rfl
  exact h.stay (putFaultImage_yields (note_yields (raiseIf_yields k _ _) _ _ _)) (by simp)

theorem reportConditions_follows (h : Follows s) : Follows (reportConditions s) := by
  refine h.stay ?_ (by simp)
  simp only [reportConditions, runAll, forWheels, forBanks]
  with_reducible
    repeat' first
      | exact Yields.refl s | apply note_yields

theorem enterLoad_yields (s : State) : Yields s (enterLoad s) := by
  unfold enterLoad
  dsimp only
  split
  · exact validateInLoad_yields (setCfl_yields (.refl s) _)
  · exact setCfl_yields (.refl s) _

theorem startUp_heeded (h : Follows s) : (startUp s).heeded := by
  have h1 : Follows (writeHeader s) := h.stay (Yields.same (.refl s) (by simp [writeHeader, runAll])
    (by simp [writeHeader, runAll]) (by simp [writeHeader, runAll])) (by simp)
  have h2 : Follows (visitAfterReset (writeHeader s)) := h1.stay (Yields.same (.refl _)) (by simp)
  have h3 : Follows (startCauses (visitAfterReset (writeHeader s))) := by
    refine h2.stay ?_ (by simp)
    unfold startCauses
    split
    · exact raise_yields (by refine setRgc_yields (.refl _) ?_ ?_ <;> rfl) _
    · exact .refl _
  have h4 : Follows (writeSections (startCauses (visitAfterReset (writeHeader s)))) :=
    h3.stay (Yields.same (.refl _)) (by simp)
  have h5 := settle_follows (reportConditions_follows (restoreTable_follows h4))
  simp only [startUp, runAll]
  exact (h5.stay (enterLoad_yields _) (by simp)).heeded

theorem takeReset_follows (kind : ResetKind) (s : State) : Follows (takeReset kind s) :=
  reset_follows _ rfl rfl rfl

theorem readyMark_yields (h : Yields a s) (value : Word) : Yields a (readyMark value s) := by
  unfold readyMark
  split
  · split
    · split
      · exact validateInLoad_yields h
      · exact h
    · exact setCfl_yields h _
  · exact h

theorem readyMark_heeded (h : s.heeded) (value : Word) : (settle (readyMark value s)).heeded :=
  heeded_observed h (readyMark_yields (.refl s) value)

theorem put_heeded (h : s.heeded) (x : Nat) (ws : List Word) : (put x ws s).heeded :=
  heeded_stay h (put_yields (.refl s) x ws) rfl rfl

theorem hostWrite_heeded (h : s.heeded) (address : BitVec 13) (value : Word) : (hostWrite address value s).heeded := by
  unfold hostWrite
  dsimp only
  split
  · exact readyMark_heeded (put_heeded h _ _) value
  · exact put_heeded h _ _

/-- Two ways through an event, the second without effect. -/
theorem ite_yields {c : Prop} [Decidable c] (k : Yields s t) : Yields s (if c then t else s) := by
  split
  · exact k
  · exact .refl s

theorem sample_heeded (h : s.heeded) (low : Bool) : (settle (observeEscalation (sampleStop low s))).heeded := by
  have k := sampleStop_follows ((heeded_iff s).1 h).2 low
  exact (k.stay (observeEscalation_yields (.refl _)) (by simp)).heeded

theorem stop_heeded (h : s.heeded) {c : Bool} (low : Bool) :
    (settle (if c then sampleStop low s else s)).heeded := by
  have k := ((heeded_iff s).1 h).2
  refine Follows.heeded ?_
  split
  · exact sampleStop_follows k low
  · exact k

theorem emptied_heeded (h : Follows s) (hp : s.pru = Pru.reset []) : s.heeded := by
  refine (heeded_iff s).2 ⟨?_, h⟩
  rw [State.delivered, State.setsFormed, State.summaryFormed, hp]
  rfl

theorem powerUp_follows (s : State) : Follows (powerUp s) := reset_follows [] rfl rfl rfl

theorem powerUp_heeded (s : State) : (powerUp s).heeded := emptied_heeded (powerUp_follows s) rfl

theorem setResetLow_heeded (h : s.heeded) (v : Bool) : (s.setResetLow v).heeded :=
  heeded_stay h (Yields.same (.refl s)) (by simp) (by simp)

/-- An event that a condition admits. -/
theorem conditional_heeding {c : State → Bool} {f : State → State} (h : s.heeded) (k : Yields s (f s))
    (hm : (f s).dmc = s.dmc) : Heeding (whenObserving (fun s => if c s then f s else s) s) :=
  observing_heeding h (ite_yields k) (by split <;> simp [hm])

theorem conditional_staying {c : State → Bool} {f : State → State} (h : s.heeded) (k : Yields s (f s))
    (hpru : (f s).pru = s.pru) (hm : (f s).dmc = s.dmc) :
    Heeding (whenRunning (fun s => if c s then f s else s) s) :=
  staying_heeding h (ite_yields k) (by split <;> simp [hpru]) (by split <;> simp [hm])

end

/-- Every command keeps what the blocks have made of the fault table. -/
theorem exec_heeding (c : Instr) {s : State} (h : s.heeded) : Heeding (exec c s) := by
  have k := ((heeded_iff s).1 h).2
  cases c with
  | powerOn =>
    refine next_heeding ?_
    split
    · exact powerUp_heeded s
    · exact startUp_heeded (powerUp_follows s)
  | resetPinAssert =>
    refine next_heeding ?_
    split
    · exact setResetLow_heeded (emptied_heeded (takeReset_follows .resetPin s) rfl) true
    · exact setResetLow_heeded h true
  | resetPinRelease =>
    refine next_heeding ?_
    split
    · exact startUp_heeded (k.stay (Yields.same (.refl s)) (by simp))
    · exact setResetLow_heeded h false
  | guardCheck =>
    unfold exec execGuardCheck
    refine running_heeding h ?_
    split
    · exact startUp_heeded (takeReset_follows _ s)
    · exact h
  | softRestart =>
    refine running_heeding h ?_
    exact startUp_heeded (takeReset_follows _ s)
  | supplyFall =>
    refine next_heeding ?_
    exact emptied_heeded ((powerUp_follows s).stay (Yields.same (.refl _) rfl rfl rfl) rfl) rfl
  | hostWordWrite address value => exact running_heeding h (hostWrite_heeded h _ _)
  | readyMarkWrite value =>
    unfold exec execReadyMarkWrite
    refine running_heeding h ?_
    exact readyMark_heeded (put_heeded h _ _) value
  | driveClockTick =>
    unfold exec execDriveClockTick
    refine staying_heeding h ?_ ?_ ?_
    · exact Yields.same (.refl s) rfl rfl rfl
    all_goals rfl
  | guardedCopyUpset _ _ | chainRestart _ | attnEndSpecific _ | attnEndNonSpecific
  | attnMaskWrite _ | attnThresholdWrite _ | orderCompletion _ _ _ _ =>
    refine staying_heeding h ?_ ?_ ?_
    · exact Yields.same (.refl s)
    all_goals simp
  | attnPoll =>
    refine next_heeding ?_
    split
    · exact heeded_stay h (Yields.same (.refl s)) (by simp) (by simp)
    · exact heeded_stay h (Yields.same (.refl s)) (by simp) (by simp)
  | registerWriteIgnored register value => exact next_heeding h
  | chainScan => exact running_heeding h (scan_heeded h)
  | clearFaults cell forget => exact running_heeding h (decideClearFaults_heeded h _)
  | enterStandby cell keepLink keepBlower => exact running_heeding h (decideEnterStandby_heeded h _ _)
  | leaveStandby cell => exact running_heeding h (decideLeaveStandby_heeded h)
  | applyConfig cell => exact running_heeding h (decideApplyConfig_heeded h)
  | abort cell index => exact running_heeding h (decideAbort_heeded h _)
  | setLimits cell forward reverse cap => exact running_heeding h (decideSetLimits_heeded h _ _ _)
  | loadEnvelope cell => exact running_heeding h (decideLoadEnvelope_heeded h)
  | gridTest cell banks duty count => exact running_heeding h (decideGridTest_heeded h _ _ _)
  | steerCalibrate cell => exact running_heeding h (decideSteerCalibrate_heeded h)
  | rollCall cell => exact running_heeding h (decideRollCall_heeded h)
  | demandSample =>
    unfold exec execDemandSample whenObserving
    refine running_heeding h ?_
    exact (demandSteps_follows k).heeded
  | stopTimeExpiry =>
    unfold exec execStopTimeExpiry whenObserving
    refine running_heeding h ?_
    refine Follows.heeded ?_
    dsimp only
    split
    · exact enterTripped_follows (k.stay (setDmc_yields (.refl s) _) rfl)
    · exact k
  | settleTimeExpiry =>
    unfold exec execSettleTimeExpiry whenObserving
    refine running_heeding h ?_
    refine Follows.heeded ?_
    dsimp only
    split
    · exact endSettle_follows k
    · exact k
  | roundStart =>
    unfold exec execRoundStart
    refine running_heeding h ?_
    refine finishLink_heeded (s := roundStartSteps s) ?_
    exact k.stay (roundStartSteps_yields (.refl s)) (by simp)
  | driveTransmit wheel =>
    unfold exec execDriveTransmit
    refine conditional_staying h ?_ ?_ ?_
    · exact Yields.same (.refl s)
    all_goals simp
  | steerTransmit =>
    unfold exec execSteerTransmit
    refine conditional_staying h ?_ ?_ ?_
    · exact Yields.same (.refl s)
    all_goals simp
  | rollTransmit unit =>
    unfold exec execRollTransmit
    refine staying_heeding h ?_ ?_ ?_ <;> cases s.wlc.rollDue unit
    case refine_1.none => exact .refl s
    case refine_1.some => exact Yields.same (.refl s)
    all_goals simp
  | quietTransmit => exact conditional_staying h (Yields.same (.refl s)) (by simp) (by simp)
  | rollAnswerArrival bytes => exact running_heeding h (replyArrival_heeded h _ _)
  | reportArrival bytes order | steerReportArrival bytes order =>
    exact running_heeding h (replyArrival_heeded h order bytes)
  | replyWindowExpiry => exact running_heeding h (windowExpiry_heeded h)
  | allocationEvent =>
    refine observing_heeding h ?_ ?_
    · exact allocationSteps_yields (.refl s)
    all_goals simp
  | gridDemandArrival =>
    unfold exec execGridDemandArrival
    refine conditional_staying h ?_ ?_ ?_
    · exact arrival_yields (.refl s)
    all_goals simp
  | linkVoltageSample volts =>
    refine staying_heeding h ?_ ?_ ?_
    · exact takeVoltage_yields (.refl s) volts
    all_goals simp
  | filteredUpdate =>
    refine observing_heeding h ?_ ?_
    · exact filteredSteps_yields (.refl s)
    all_goals simp
  | linkUndervoltSet =>
    refine conditional_heeding h ?_ ?_
    · exact setUndervolt_yields (.refl s)
    all_goals simp
  | linkUndervoltClear =>
    refine conditional_heeding h ?_ ?_
    · exact clearUndervolt_yields (.refl s)
    all_goals simp
  | holdUpdate =>
    refine observing_heeding h ?_ ?_
    · exact holdSteps_yields (.refl s)
    all_goals simp
  | envelopeExceededSet =>
    refine conditional_heeding h ?_ ?_
    · exact setExceeded_yields (.refl s)
    all_goals simp
  | envelopeExceededClear =>
    refine conditional_heeding h ?_ ?_
    · exact clearExceeded_yields (.refl s)
    all_goals simp
  | shortfallAdd =>
    refine conditional_staying h ?_ ?_ ?_
    · exact addShortfall_yields (.refl s)
    all_goals simp
  | shortfallRemove =>
    refine conditional_staying h ?_ ?_ ?_
    · exact removeShortfall_yields (.refl s)
    all_goals simp
  | rotationReview =>
    refine staying_heeding h ?_ ?_ ?_
    · exact reviewSteps_yields (.refl s)
    all_goals simp
  | channelPeriodStart channel =>
    cases channel with
    | bank b =>
    refine staying_heeding h ?_ ?_ ?_
    · exact bankPeriod_yields (.refl s) b
    all_goals simp
    | blower =>
    refine staying_heeding h ?_ ?_ ?_
    · exact blowerPeriod_yields (.refl s)
    all_goals simp
  | onExpiry channel =>
    cases channel with
    | bank b =>
    refine staying_heeding h ?_ ?_ ?_
    · exact bankExpiry_yields (.refl s) b
    all_goals simp
    | blower =>
    refine staying_heeding h ?_ ?_ ?_
    · exact blowerExpiry_yields (.refl s)
    all_goals simp
  | dischargeExpiry =>
    unfold exec execDischargeExpiry
    refine conditional_staying h ?_ ?_ ?_
    · exact endDischarge_yields (.refl s)
    all_goals simp
  | pulseExpiry =>
    unfold exec execPulseExpiry
    refine conditional_staying h ?_ ?_ ?_
    · refine setRgc_yields (.refl s) ?_ ?_ <;> rfl
    all_goals rfl
  | calibrationExpiry =>
    unfold exec execCalibrationExpiry
    refine conditional_staying h ?_ ?_ ?_
    · exact Yields.same (.refl s)
    all_goals simp
  | thermalSample blowerRun =>
    refine observing_heeding h ?_ ?_
    · exact thermalSteps_yields (.refl s) _
    all_goals simp
  | gridHotClear bank =>
    unfold exec execGridHotClear
    refine conditional_heeding h ?_ ?_
    · exact clearGridHot_yields (.refl s) bank
    all_goals simp
  | blowerFailSet =>
    refine conditional_heeding h ?_ ?_
    · exact setBlowerFail_yields (.refl s)
    all_goals simp
  | blowerFailClear =>
    refine conditional_heeding h ?_ ?_
    · exact clearBlowerFail_yields (.refl s)
    all_goals simp
  | windingHotSet wheel =>
    unfold exec execWindingHotSet
    refine conditional_heeding h ?_ ?_
    · exact setWindingHot_yields (.refl s) wheel
    all_goals simp
  | windingHotClear wheel =>
    unfold exec execWindingHotClear
    refine conditional_heeding h ?_ ?_
    · exact clearWindingHot_yields (.refl s) wheel
    all_goals simp
  | discreteInputSample externalStop =>
    unfold exec execDiscreteInputSample whenObserving
    refine running_heeding h ?_
    exact sample_heeded h _
  | externalStopActive =>
    unfold exec execExternalStopActive whenObserving
    refine running_heeding h ?_
    exact stop_heeded h _
  | externalStopInactive =>
    unfold exec execExternalStopInactive whenObserving
    refine running_heeding h ?_
    exact stop_heeded h _

end Sys2Proof.Machine
end

section
/-! One observation over the fault table (O59). -/

namespace Sys2Proof.Machine

section
variable {s t : State} {k : Kind} {subject : Subject} {c : Params} {clock : Long} {e : Entry} {es front back : List Entry}

/-! ### The rows of R176 -/

theorem setCount_eq (k : Kind) : k.setCount =
    if k = .wheelFault ∨ k = .steerFault ∨ k = .linkOvervolt then 3 else 1 := by cases k <;> rfl

theorem clearCount_eq (k : Kind) : k.clearCount =
    if k = .wheelFault ∨ k = .steerFault then 10 else if k = .linkOvervolt then 25 else 1 := by cases k <;> rfl

theorem seePresent_active (h : e.state = .active) :
    e.seePresent clock = ({ e with clearProgress := 0, cond := true }, false) := by
  rw [Entry.seePresent, h]

/-- A present observation of an entry that is not ACTIVE. -/
theorem seePresent_idle (h : e.state ≠ .active) : e.seePresent clock =
    if e.kind.setCount ≤ e.setProgress + 1 then
      ({ e with setProgress := e.setProgress + 1, clearProgress := 0, cond := true, state := .active
                occurrence := min 65535 (e.occurrence + 1), lastChange := clock }, true)
    else ({ e with setProgress := e.setProgress + 1, cond := true }, false) := by
  cases hs : e.state with
  | active => exact absurd hs h
  | pending | latched | cleared => rw [Entry.seePresent, hs]; rfl

theorem seeAbsent_pending (h : e.state = .pending) : e.seeAbsent c clock = (none, true) := by
  rw [Entry.seeAbsent, h]

theorem seeAbsent_active (h : e.state = .active) : e.seeAbsent c clock =
    if e.kind.clearCount ≤ e.clearProgress + 1 then
      (some { e with
        clearProgress := e.clearProgress + 1, setProgress := 0, cond := false
        state := if c.latches e.kind e.action then .latched else .cleared, lastChange := clock }, true)
    else (some { e with clearProgress := e.clearProgress + 1, setProgress := 0, cond := false }, false) := by
  rw [Entry.seeAbsent, h]
  rfl

theorem seeAbsent_rest (h : e.state = .latched ∨ e.state = .cleared) :
    e.seeAbsent c clock = (some { e with setProgress := 0, cond := false }, false) := by
  rcases h with h | h <;> rw [Entry.seeAbsent, h]

/-- The entry of the pair is observed, and the others stay in their order. -/
theorem observeEntries_split {present : Bool} (hf : ∀ f ∈ front, ¬(f.kind = k ∧ f.subject = subject))
    (h : e.kind = k ∧ e.subject = subject) :
    observeEntries c clock k subject present (front ++ e :: back) =
      if present then (front ++ (e.seePresent clock).1 :: back, (e.seePresent clock).2)
      else (front ++ ((e.seeAbsent c clock).1.toList ++ back), (e.seeAbsent c clock).2) := by
  induction front with
  | nil =>
    rw [List.nil_append, observeEntries, if_pos h]
    rfl
  | cons f fs ih =>
    have hfs := ih fun g hg => hf g (List.mem_cons_of_mem f hg)
    rw [List.cons_append, observeEntries, if_neg (hf f List.mem_cons_self), hfs]
    cases present <;> rfl

theorem observeEntries_noEntry {present : Bool} (hf : ∀ f ∈ es, ¬(f.kind = k ∧ f.subject = subject)) :
    observeEntries c clock k subject present es =
      if present then (es ++ [Entry.fresh c clock k subject], true) else (es, false) := by
  induction es with
  | nil => cases present <;> rfl
  | cons f fs ih =>
    rw [observeEntries, if_neg (hf f List.mem_cons_self), ih fun g hg => hf g (List.mem_cons_of_mem f hg)]
    cases present <;> rfl

/-! ### One observation -/

theorem note_entries_eq (k : Kind) (subject : Subject) (present : Bool) (s : State) :
    (note k subject present s).pru.entries = (observeEntries s.cfg s.clock k subject present s.pru.entries).1 := by
  rw [note_pru]

/-- FAULT_CHANGE is raised when a row says so (R176). -/
theorem note_classes {b : Bool} {es : List Entry} {moved : Bool}
    (h : observeEntries s.cfg s.clock k subject b s.pru.entries = (es, moved)) :
    Raised (if moved then [.faultChange] else []) s (note k subject b s) ∧ (note k subject b s).pru.entries = es := by
  have hatc := updatePru_atc { s.pru with entries := es } s
  have hsame := updatePru_same { s.pru with entries := es } s
  have hword : (updatePru { s.pru with entries := es } s).word 0x0022 = s.word 0x0022 :=
    State.word_congr (hsame _ (by simp)) (hsame _ (by simp))
  refine ⟨?_, by rw [note_entries_eq, h]⟩
  rw [note, h]
  dsimp only
  generalize updatePru { s.pru with entries := es } s = u at hatc hword
  refine .of_start hatc hword ?_
  cases moved with
  | false =>
    have h : Raised [] u u := { pending := fun c => by simp, rest := rfl, mirror := id }
    exact h
  | true => exact raise_raised .faultChange u

theorem latches_iff (c : Params) (k : Kind) (a : Action) : c.latches k a = true ↔ a = .safeStop ∨ a = .trip ∨
    a = .exclude ∧ c.profile = 0xA5A5 ∨ k = .externalStop ∧ c.stopMode ≠ 1 := by
  cases a <;> simp [Params.latches, Params.stopLevel, Params.strict, or_comm]

/-- An observation that finds no entry of its pair and reports nothing changes nothing. -/
theorem note_noEntry_absent (h : s.pru.noEntry k subject) : note k subject false s = s := by
  have hobs : observeEntries s.cfg s.clock k subject false s.pru.entries = (s.pru.entries, false) :=
    observeEntries_noEntry h
  have hsame : updatePru { s.pru with entries := s.pru.entries } s = s := by
    unfold updatePru
    rw [if_pos ⟨rfl, rfl, rfl, rfl, rfl⟩]
    rfl
  rw [note, hobs]
  exact hsame

theorem fresh_eq (c : Params) (clock : Long) (k : Kind) (subject : Subject) : Entry.fresh c clock k subject =
    { kind := k, subject := subject, action := c.action k, setProgress := 1, clearProgress := 0, cond := true
      firstSeen := clock, lastChange := clock, state := if k.setCount = 1 then .active else .pending
      occurrence := if k.setCount = 1 then 1 else 0 } := by
  rw [Entry.fresh, setCount_eq]
  split <;> rfl

/-- No entry before the one of a pair is of that pair. -/
theorem front_differs (hok : s.pru.ok) (h : s.pru.entries = front ++ e :: back) (h1 : e.kind = k)
    (h2 : e.subject = subject) : ∀ f ∈ front, ¬(f.kind = k ∧ f.subject = subject) := fun f hf => by
  rw [Pru.ok, h, List.pairwise_append] at hok
  have hd := hok.2.2 f hf e List.mem_cons_self
  rw [Entry.differs, h1, h2] at hd
  exact hd

end

/-- Settles O59. -/
theorem observationActs : Obligations.ObservationActs := by
  unfold Obligations.ObservationActs
  refine ⟨fun c s t h he => exec_heeding c h t he, ?_⟩
  intro s t k subject present setCount clearCount latches hok _ ht hset hclear hlatch
  rw [← setCount_eq] at hset
  rw [← clearCount_eq] at hclear
  subst ht hset hclear
  have hlatches : ∀ a, s.cfg.latches k a = true ↔ latches a := fun a => (latches_iff _ _ _).trans (hlatch a).symm
  have hrest : { note k subject present s with
      xm := s.xm, atc := s.atc, pru := { (note k subject present s).pru with entries := s.pru.entries } } = s := by
    have e := note_rest k subject present s
    have hp : { (note k subject present s).pru with entries := s.pru.entries } = s.pru := by rw [note_pru]
    rw [hp]
    exact e
  refine ⟨hrest, note_same k subject present s, note_ok hok k subject present, fun hn hb => ?_, fun hn hb => ?_, ?_⟩
  · subst hb
    have h := note_classes (observeEntries_noEntry (c := s.cfg) (clock := s.clock) (present := true) hn)
    rw [fresh_eq] at h
    exact h
  · subst hb
    exact note_noEntry_absent hn
  · rintro front back e hes rfl rfl
    have hobs := fun b => observeEntries_split (c := s.cfg) (clock := s.clock) (back := back) (present := b)
      (front_differs hok hes rfl rfl) ⟨rfl, rfl⟩
    rw [← hes] at hobs
    refine ⟨fun hb hs => ?_, fun hb hs => ⟨fun hc => ?_, fun hc => ?_⟩, fun hb hs => ?_,
      fun hb hs => ⟨fun hc => ?_, fun hc => ?_⟩, fun hb hs => ?_⟩
    · have h := hobs true
      rw [if_pos rfl, seePresent_active hs] at h
      subst hb
      exact note_classes h
    · have h := hobs true
      rw [if_pos rfl, seePresent_idle hs, if_neg (Nat.not_le.2 hc)] at h
      subst hb
      exact note_classes h
    · have h := hobs true
      rw [if_pos rfl, seePresent_idle hs, if_pos hc] at h
      subst hb
      exact note_classes h
    · have h := hobs false
      rw [if_neg Bool.false_ne_true, seeAbsent_pending hs] at h
      subst hb
      exact note_classes h
    · have h := hobs false
      rw [if_neg Bool.false_ne_true, seeAbsent_active hs, if_neg (Nat.not_le.2 hc)] at h
      subst hb
      exact note_classes h
    · have h := hobs false
      rw [if_neg Bool.false_ne_true, seeAbsent_active hs, if_pos hc] at h
      subst hb
      have hn := note_classes h
      exact ⟨hn.1, _, fun ha => if_pos ((hlatches _).2 ha), fun ha => if_neg (mt (hlatches _).1 ha), hn.2⟩
    · have h := hobs false
      rw [if_neg Bool.false_ne_true, seeAbsent_rest hs] at h
      subst hb
      exact note_classes h

end Sys2Proof.Machine
end

section
/-! The steps of the STC at a steer report (O48). -/

namespace Sys2Proof.Machine

section
variable {s t u : State} {angle : Int} {within : Bool}

/-! ### Steps 1 to 3: the angle and the tracking counts (R150, R151, R154) -/

/-- The STC's record after the angle and the tracking counts have been taken. -/
def State.trackedStc (s : State) : Stc :=
  (takeAngle s).stc.track (takeAngle s).trackingWithin (trackCount s.wlc.roundPeriod)

theorem noteChange_wheelEx (k : Kind) (subject : Subject) (before after : Bool) (s : State) :
    (noteChange k subject before after s).pru.wheelEx = s.pru.wheelEx := by
  unfold noteChange noteIf
  split
  · rw [note_pru]
  · rfl

/-- The state after the first three steps: the STC's record, and the observation of STEER_TRACKING. -/
structure AngleTaken (s t : State) : Prop where
  stc : t.stc = s.trackedStc
  ore : t.ore = s.ore
  cfl : t.cfl = s.cfl
  wlc : t.wlc = s.wlc
  dmc : t.dmc = s.dmc
  tcu : t.tcu = s.tcu
  clock : t.clock = s.clock
  wheelEx : t.pru.wheelEx = s.pru.wheelEx

theorem judgeTracking_angleTaken (s : State) : AngleTaken s (judgeTracking (takeAngle s)) := by
  constructor <;> try simp [judgeTracking, takeAngle]
  · rfl
  · exact noteChange_wheelEx _ _ _ _ _

theorem trackedStc_angle (s : State) : s.trackedStc.measured = s.wlc.sau.report.field1.toInt ∧
    s.trackedStc.stale = false ∧ s.trackedStc.command = s.stc.command ∧
    s.trackedStc.cal = s.stc.cal ∧ s.trackedStc.calResult = s.stc.calResult ∧
    s.trackedStc.calCell = s.stc.calCell ∧ s.trackedStc.calStart = s.stc.calStart ∧
    s.trackedStc.kappa = min 900 (divNat s.cfg.nearest
      (s.cfg.halfTrack * tan10000 s.wlc.sau.report.field1.toInt) (s.cfg.wheelbase * 10)) :=
  ⟨rfl, rfl, rfl, rfl, rfl, rfl, rfl, rfl⟩

theorem trackedStc_turn (s : State) :
    (s.trackedStc.turn = .left ↔ 0 < s.wlc.sau.report.field1.toInt) ∧
    (s.trackedStc.turn = .right ↔ s.wlc.sau.report.field1.toInt < 0) := by
  have h : s.trackedStc.turn = if 0 < s.wlc.sau.report.field1.toInt then .left
      else if s.wlc.sau.report.field1.toInt < 0 then .right else .straight := rfl
  rw [h]
  split
  · exact ⟨by simpa, by simp; omega⟩
  · split
    · exact ⟨by simp; omega, by simpa⟩
    · exact ⟨by simp; omega, by simp; omega⟩

theorem trackedStc_counts (hangle : angle = s.wlc.sau.report.field1.toInt)
    (hwithin : within = (!s.wlc.sau.lastControl.getLsbD 0 || s.wlc.sau.lastControl.getLsbD 1 ||
      decide ((s.wlc.sau.lastValue - angle).natAbs ≤ s.cfg.trackTol))) :
    s.trackedStc.exceed = (if within then 0 else min 65535 (s.stc.exceed + 1)) ∧
    s.trackedStc.within = (if within then min 65535 (s.stc.within + 1) else 0) ∧
    s.trackedStc.tracking = if s.stc.tracking then decide (s.trackedStc.within < 10)
      else decide (trackCount s.wlc.roundPeriod ≤ s.trackedStc.exceed) := by
  have hin : (takeAngle s).trackingWithin = within := by
    rw [hwithin, hangle]
    rfl
  rw [State.trackedStc, hin]
  exact ⟨rfl, rfl, rfl⟩

/-! ### Step 4: the calibration flags (R157) -/

/-- The calibration state after a report. -/
def State.calRead (s : State) : Cal × CalResult :=
  if s.wlc.sau.lastControl.getLsbD 1 then
    match s.stc.cal with
    | .none => (.none, s.stc.calResult)
    | .starting => (if s.wlc.sau.report.calRunning then .running else .starting, s.stc.calResult)
    | .running =>
      if s.wlc.sau.report.calDone then (.none, if s.wlc.sau.report.calOk then .ok else .failed)
      else (.running, s.stc.calResult)
  else (s.stc.cal, s.stc.calResult)

theorem endCalibration_stc (r : Result) (shown : CalResult) (detail : List Word) (s : State) :
    (endCalibration r shown detail s).stc = { s.stc with cal := .none, calResult := shown } := by
  simp [endCalibration, stopCalibration]

theorem readCalibration_stc (s : State) : (readCalibration s).stc =
    { s.stc with cal := s.calRead.1, calResult := s.calRead.2 } := by
  unfold readCalibration State.calRead
  dsimp only
  by_cases hsent : s.wlc.sau.lastControl.getLsbD 1
  · rw [if_pos hsent, if_pos hsent]
    cases hcal : s.stc.cal with
    | none =>
      dsimp only
      rw [← hcal]
    | starting =>
      dsimp only
      split
      · rfl
      · rw [← hcal]
    | running =>
      dsimp only
      split
      · split <;> rw [endCalibration_stc]
      · rw [← hcal]
  · rw [if_neg hsent, if_neg hsent]

/-- A report that ends the run (R157). -/
def State.calEnds (s : State) : Prop :=
  s.wlc.sau.lastControl.getLsbD 1 = true ∧ s.stc.cal = .running ∧ s.wlc.sau.report.calDone = true

/-- A report that shows the run begun (R157). -/
def State.calBegins (s : State) : Prop :=
  s.wlc.sau.lastControl.getLsbD 1 = true ∧ s.stc.cal = .starting ∧ s.wlc.sau.report.calRunning = true

theorem calRead_begins (h : s.calBegins) : s.calRead = (.running, s.stc.calResult) := by
  obtain ⟨hsent, hcal, hrun⟩ := h
  simp only [State.calRead, hsent, hcal, hrun, if_true]

theorem calRead_ends (h : s.calEnds) :
    s.calRead = (.none, if s.wlc.sau.report.calOk then .ok else .failed) := by
  obtain ⟨hsent, hcal, hdone⟩ := h
  simp only [State.calRead, hsent, hcal, hdone, if_true]

theorem calRead_kept (hbegins : ¬s.calBegins) (hends : ¬s.calEnds) :
    s.calRead = (s.stc.cal, s.stc.calResult) := by
  unfold State.calRead
  split
  case isFalse => rfl
  case isTrue hsent =>
    cases hcal : s.stc.cal with
    | none => rfl
    | starting =>
      dsimp only
      rw [if_neg fun hrun => hbegins ⟨hsent, hcal, hrun⟩]
    | running =>
      dsimp only
      rw [if_neg fun hdone => hends ⟨hsent, hcal, hdone⟩]

theorem readCalibration_ore (h : ¬s.calEnds) : (readCalibration s).ore = s.ore := by
  unfold readCalibration
  dsimp only
  split
  case isFalse => rfl
  case isTrue hsent =>
    cases hcal : s.stc.cal with
    | none => rfl
    | starting =>
      dsimp only
      split <;> rfl
    | running =>
      dsimp only
      rw [if_neg fun hdone => h ⟨hsent, hcal, hdone⟩]

theorem readCalibration_ended (h : s.calEnds) (hheld : s.ore.steer = some s.stc.calCell) :
    (s.wlc.sau.report.calOk = true → CalEnded .ok .ok (s.calDetail 0 s.wlc.sau.report) s (readCalibration s)) ∧
    (s.wlc.sau.report.calOk = false →
      CalEnded .badArgument .failed (s.calDetail 0xFFFF s.wlc.sau.report) s (readCalibration s)) := by
  obtain ⟨hsent, hcal, hdone⟩ := h
  constructor <;> intro hok
  · have heq : readCalibration s = endCalibration .ok .ok (s.calDetail 0 s.wlc.sau.report) s := by
      simp only [readCalibration, hsent, hcal, hdone, hok, if_true]
    rw [heq]
    exact endCalibration_ends hheld
  · have heq : readCalibration s =
        endCalibration .badArgument .failed (s.calDetail 0xFFFF s.wlc.sau.report) s := by
      simp only [readCalibration, hsent, hcal, hdone, hok, if_true, Bool.false_eq_true, if_false]
    rw [heq]
    exact endCalibration_ends hheld

theorem AngleTaken.begins_iff (h : AngleTaken s t) : t.calBegins ↔
    s.wlc.sau.lastControl.getLsbD 1 = true ∧ s.stc.cal = .starting ∧
      s.wlc.sau.report.flags.getLsbD 2 = true := by
  rw [State.calBegins, h.wlc, h.stc]
  exact Iff.rfl

theorem AngleTaken.ends_iff (h : AngleTaken s t) : t.calEnds ↔
    s.wlc.sau.lastControl.getLsbD 1 = true ∧ s.stc.cal = .running ∧
      s.wlc.sau.report.flags.getLsbD 3 = true := by
  rw [State.calEnds, h.wlc, h.stc]
  exact Iff.rfl

theorem AngleTaken.detail_eq (h : AngleTaken s t) (word : Word) (r : Report) :
    t.calDetail word r = s.calDetail word r := by
  simp only [State.calDetail, State.since, h.clock, h.stc]
  rfl

/-! ### Step 5: the bias, and the sections (R152, R159) -/

/-- A steer report ends with the bias and the sections, over the state that its first four steps leave. -/
theorem stcReport_eq (s : State) : stcReport s =
    putStcSection (evaluateBias (readCalibration (judgeTracking (takeAngle s)))) := by
  simp only [stcReport, runAll]

theorem stcReport_stc (s : State) : ∃ t, AngleTaken s t ∧ stcReport s =
    putStcSection (evaluateBias (readCalibration t)) :=
  ⟨_, judgeTracking_angleTaken s, stcReport_eq s⟩

/-- What the bias reads is left as it stands by the calibration flags. -/
theorem AngleTaken.biasAllowed_iff (h : AngleTaken s t) : (readCalibration t).biasAllowed = true ↔
    s.dmc.substate = .propel ∧ (∃ v, s.tcu.vRef = some v ∧ v < s.cfg.assistSpeed) ∧
      500 ≤ s.wlc.sau.report.field1.toInt.natAbs ∧
      ∀ w, s.cfg.wheel w = true → s.active w = true ∧ (s.tcu.wheels.get w).slip = .grip := by
  have hcfg : (readCalibration t).cfg = s.cfg := congrArg Cfl.active (by simp [h.cfl])
  have hstc : (readCalibration t).stc.stale = false ∧
      (readCalibration t).stc.measured = s.wlc.sau.report.field1.toInt := by
    rw [readCalibration_stc, h.stc]
    exact ⟨rfl, rfl⟩
  have hactive : ∀ w, (readCalibration t).active w = s.active w := fun w => by
    have hwlc : (readCalibration t).wlc = s.wlc := by simp [h.wlc]
    have hpru : (readCalibration t).pru.wheelEx = s.pru.wheelEx := by simp [h.wheelEx]
    rw [State.active, State.active, hcfg, hwlc, hpru]
  have hdmc : (readCalibration t).dmc = s.dmc := by simp [h.dmc]
  have htcu : (readCalibration t).tcu = s.tcu := by simp [h.tcu]
  have hall : s.cfg.wheels.all (readCalibration t).active = true ↔
      ∀ w, s.cfg.wheel w = true → s.active w = true := by
    rw [wheels_all_iff]
    exact forall₂_congr fun w _ => by rw [hactive]
  rw [State.biasAllowed, hcfg, hstc.1, hstc.2, hdmc, htcu]
  simp only [Bool.and_eq_true, hall]
  rw [wheels_all_iff]
  cases hv : s.tcu.vRef <;> simp [and_assoc, forall_and]

theorem putStcSection_stc (s : State) : (putStcSection s).stc = s.stc := by simp

theorem stcReport_stc_eq (h : AngleTaken s t) : (putStcSection (evaluateBias (readCalibration t))).stc =
    { s.trackedStc with
      cal := t.calRead.1, calResult := t.calRead.2
      beta := if (readCalibration t).biasAllowed then
        min 300 (divNat s.cfg.nearest (s.trackedStc.kappa * s.cfg.assistGain) 1000) else 0 } := by
  have hcfg : (readCalibration t).cfg = s.cfg := congrArg Cfl.active (by simp [h.cfl])
  rw [putStcSection_stc, evaluateBias_stc, hcfg, readCalibration_stc, h.stc]

theorem CalEnded.biasEvaluated {r : Result} {shown : CalResult} {detail : List Word}
    (h : CalEnded r shown detail s t) (p : s.wlc.placed) :
    (putStcSection (evaluateBias t)).ore = { s.ore with steer := none } ∧
    Cls.orderDone.isIn (putStcSection (evaluateBias t)).atc.pending = true ∧
    (putStcSection (evaluateBias t)).cellEnded s.stc.calCell r detail s.clock := by
  have hwlc : t.wlc = s.wlc := by simpa using congrArg State.wlc h.rest
  have p' : (evaluateBias t).wlc.placed := by simpa [hwlc] using p
  refine ⟨by simp [h.ore], ?_, (putStcSection_statusOnly _).cellEnded p' (h.ended.keep fun _ _ _ => rfl)⟩
  have hatc : (putStcSection (evaluateBias t)).atc = t.atc := by simp
  rw [hatc, h.raised.pending]
  simp

theorem stcReport_shows (p : s.wlc.placed) : (stcReport s).showsAt 0x20A0 (stcReport s).stcWords ∧
    (stcReport s).showsIn s.wlc.sau.block 0x40 (stcReport s).stcWords := by
  obtain ⟨t, h, heq⟩ := stcReport_stc s
  have hwlc : (evaluateBias (readCalibration t)).wlc = s.wlc := by simp [h.wlc]
  rw [heq]
  generalize evaluateBias (readCalibration t) = v at hwlc
  have hwords : (putStcSection v).stcWords = v.stcWords := by simp [State.stcWords]
  rw [hwords, ← hwlc]
  exact putStcSection_shows (hwlc ▸ p)

/-- The calibration and its order after a report, by the three ways of R157. -/
theorem stcReport_calibration (h : AngleTaken s t) {running ended well : Prop}
    (hrunning : running ↔ s.wlc.sau.lastControl.getLsbD 1 = true ∧ s.stc.cal = .starting ∧
      s.wlc.sau.report.flags.getLsbD 2 = true)
    (hended : ended ↔ s.wlc.sau.lastControl.getLsbD 1 = true ∧ s.stc.cal = .running ∧
      s.wlc.sau.report.flags.getLsbD 3 = true)
    (hwell : well ↔ s.wlc.sau.report.flags.getLsbD 4 = true)
    (hu : u = putStcSection (evaluateBias (readCalibration t))) :
    (¬running → ¬ended → u.stc.cal = s.stc.cal ∧ u.stc.calResult = s.stc.calResult ∧ u.ore = s.ore) ∧
    (running → u.stc.cal = .running ∧ u.stc.calResult = s.stc.calResult ∧ u.ore = s.ore) ∧
    (ended → u.stc.cal = .none ∧ (well → u.stc.calResult = .ok) ∧ (¬well → u.stc.calResult = .failed) ∧
      (s.ore.steer = some s.stc.calCell → s.wlc.placed →
        u.ore = { s.ore with steer := none } ∧ Cls.orderDone.isIn u.atc.pending = true ∧
        (well → u.cellEnded s.stc.calCell .ok
          [0, s.wlc.sau.report.flags.setWidth 16, s.wlc.sau.report.field1,
            natWord (s.clock - s.stc.calStart).toNat] s.clock) ∧
        (¬well → u.cellEnded s.stc.calCell .badArgument
          [0xFFFF, s.wlc.sau.report.flags.setWidth 16, s.wlc.sau.report.field1,
            natWord (s.clock - s.stc.calStart).toNat] s.clock))) := by
  rw [← h.begins_iff] at hrunning
  rw [← h.ends_iff] at hended
  have hcal : u.stc.cal = t.calRead.1 := by rw [hu, stcReport_stc_eq h]
  have hres : u.stc.calResult = t.calRead.2 := by rw [hu, stcReport_stc_eq h]
  have hore (hne : ¬t.calEnds) : u.ore = s.ore := by
    have k := readCalibration_ore hne
    rw [hu]
    simp [k, h.ore]
  have hkept : t.stc.cal = s.stc.cal ∧ t.stc.calResult = s.stc.calResult := by
    rw [h.stc]
    exact ⟨rfl, rfl⟩
  have hok : t.wlc.sau.report.calOk = true ↔ well := by
    rw [hwell, h.wlc]
    exact Iff.rfl
  refine ⟨fun h1 h2 => ?_, fun h1 => ?_, fun h1 => ?_⟩
  · rw [hcal, hres, calRead_kept (mt hrunning.2 h1) (mt hended.2 h2)]
    exact ⟨hkept.1, hkept.2, hore (mt hended.2 h2)⟩
  · have hb := hrunning.1 h1
    rw [hcal, hres, calRead_begins hb]
    refine ⟨rfl, hkept.2, hore fun he => ?_⟩
    have hc := hb.2.1.symm.trans he.2.1
    cases hc
  · have he := hended.1 h1
    rw [hcal, hres, calRead_ends he]
    refine ⟨rfl, fun hw => if_pos (hok.2 hw), fun hw => if_neg (mt hok.1 hw), fun hheld p => ?_⟩
    have hcell : t.stc.calCell = s.stc.calCell := by rw [h.stc]; rfl
    have p' : t.wlc.placed := by rw [h.wlc]; exact p
    obtain ⟨hgood, hbad⟩ := readCalibration_ended he (by rw [h.ore, hcell]; exact hheld)
    rw [h.wlc, h.detail_eq] at hgood hbad
    rw [← h.ore, ← hcell, ← h.clock, hu]
    by_cases hw : well
    · obtain ⟨h2, h3, h4⟩ := (hgood (by rw [← h.wlc]; exact hok.2 hw)).biasEvaluated p'
      rw [h.clock] at h4 ⊢
      exact ⟨h2, h3, fun _ => by rw [hcell] at h4 ⊢; exact h4, fun hn => absurd hw hn⟩
    · obtain ⟨h2, h3, h4⟩ := (hbad (by
        rw [← h.wlc]
        exact Bool.eq_false_iff.2 (mt hok.1 hw))).biasEvaluated p'
      rw [h.clock] at h4 ⊢
      exact ⟨h2, h3, fun hn => absurd hn hw, fun _ => by rw [hcell] at h4 ⊢; exact h4⟩

end

/-- Settles O48: the five steps of the STC at a steer report. -/
theorem steeringFollowed : Obligations.SteeringFollowed := by
  intro s angle within hangle hwithin
  obtain ⟨t, h, heq⟩ := stcReport_stc s
  have hshows := stcReport_shows (s := s)
  have hcal := fun running ended well (h1 : running ↔ _) (h2 : ended ↔ _) (h3 : well ↔ _) =>
    stcReport_calibration h h1 h2 h3 heq
  have hbias := h.biasAllowed_iff
  have hstc : (stcReport s).stc = _ := heq ▸ stcReport_stc_eq h
  obtain ⟨hmeasured, hstale, hcommand, -, -, -, -, hkappa⟩ := trackedStc_angle s
  obtain ⟨hleft, hright⟩ := trackedStc_turn s
  obtain ⟨hexceed, hcount, htracking⟩ := trackedStc_counts hangle hwithin
  rw [← hangle] at hmeasured hleft hright hkappa hbias
  refine ⟨by rw [hstc]; exact hmeasured, by rw [hstc]; exact hstale, by rw [hstc]; exact hleft,
    by rw [hstc]; exact hright, by rw [hstc]; exact hkappa, by rw [hstc]; exact hexceed,
    by rw [hstc]; exact hcount, fun hc => ?_, fun hc => ?_, fun allowed hallowed => ⟨fun ha => ?_, fun ha => ?_⟩,
    by rw [hstc]; exact hcommand, hcal, hshows⟩
  · rw [hstc]
    rw [hc] at htracking
    exact htracking
  · rw [hstc]
    rw [hc] at htracking
    exact htracking
  · rw [hstc]
    exact if_pos (hbias.2 (hallowed.1 ha))
  · rw [hstc]
    exact if_neg (mt hbias.1 (mt hallowed.2 ha))

end Sys2Proof.Machine
end

section
/-! DRIVE and STEER telegrams in their turn of the round (O45). -/

namespace Sys2Proof.Machine

section
variable {s t u v : State} {w : Wheel} {rest : List UnitId}

/-! ### Whose turn it is (R45) -/

theorem commandDue_iff {l : Wlc} {u : UnitId} : l.commandDue u = true ↔
    l.window = none ∧ l.quiet = false ∧ l.rollCall = none ∧ l.roundOpen = true ∧
      l.visit.head? = some u ∧ (l.unit u).present = true := by
  rw [Wlc.commandDue, Bool.and_eq_true, Bool.and_eq_true, busFree_iff, Wlc.visiting]
  simp [and_assoc]

theorem working_or_iff (m : Mode) : (m == .ready || m == .drive || m == .safeStop) = m.working := by
  cases m <;> rfl

/-! ### The DRIVE telegram (R46) -/

theorem controlByte_enable (b : Bool) : controlByte b false = if b then 1 else 0 := by
  cases b <;> rfl

theorem unitAddress_wheel (w : Wheel) : unitAddress (.wheel w) = BitVec.ofNat 8 (wheelNum w) := by
  cases w <;> rfl

theorem driveEnable_eq (w : Wheel) (s : State) : s.driveEnable w =
    ((s.dmc.mode == .ready || s.dmc.mode == .drive || s.dmc.mode == .safeStop) &&
      !s.pru.wheelEx.get w && (s.wlc.wheels.get w).held != .none &&
      (s.wlc.wheels.get w).report.flags.getLsbD 0) := by
  rw [working_or_iff]
  rfl

theorem sendDrive_eq (w : Wheel) (s : State) : sendDrive w s = { s with
    wlc := { s.wlc with
      visit := s.wlc.visit.drop 1
      window := some { unit := .wheel w, sent := .drive, purpose := .round }
      wheels := s.wlc.wheels.set w { s.wlc.wheels.get w with
        lastSeq := (s.wlc.wheels.get w).lastSeq + 1
        lastControl := controlByte (s.driveEnable w) false
        lastValue := s.driveTorque w }
      sent := withCrc [unitAddress (.wheel w), 0x21, (s.wlc.wheels.get w).lastSeq + 1,
        controlByte (s.driveEnable w) false, highByte (intWord (s.driveTorque w)),
        lowByte (intWord (s.driveTorque w))] } } := rfl

/-! ### The slot that the STC fills (R148, R149) -/

/-- The STC's record after the limits have been formed and the slot filled. -/
def State.filledStc (s : State) : Stc :=
  { s.stc with
    angleLimit := min (Machine.angleLimit s.cfg s.tcu.vRef) s.wlc.sau.capability
    rateLimit := Machine.rateLimit s.cfg s.tcu.vRef
    command := (formLimits s).steerCommand, enable := s.steerEnable
    calibrateSent := s.stc.cal != .none }

/-- The state after the limits have been formed and the slot filled. -/
def State.filled (s : State) : State :=
  { s with
    stc := s.filledStc
    wlc := { s.wlc with
      sau := { s.wlc.sau with
        slotValue := s.filledStc.command, slotEnable := s.steerEnable
        slotCalibrate := s.stc.cal != .none } } }

theorem fillSlot_formLimits (s : State) : fillSlot (formLimits s) = s.filled := rfl

theorem steerEnable_eq (s : State) : s.steerEnable =
    ((s.dmc.mode == .ready || s.dmc.mode == .drive || s.dmc.mode == .safeStop ||
      s.dmc.mode == .standby) && s.wlc.sau.held != .none && s.wlc.sau.report.flags.getLsbD 0) := by
  rw [working_or_iff, Bool.and_assoc, Bool.and_comm]
  rfl

/-- A move toward a target: it arrives within the rate, and goes by the rate otherwise. -/
theorem moveAngle_spec (start target : Int) (rate : Nat) :
    ((target - start).natAbs ≤ rate → moveAngle start target rate = target) ∧
    (rate < (target - start).natAbs →
      (moveAngle start target rate - start).natAbs = rate ∧
      0 ≤ (moveAngle start target rate - start) * (target - start)) := by
  unfold moveAngle
  refine ⟨fun h => if_pos h, fun h => ?_⟩
  rw [if_neg (Nat.not_le.2 h)]
  split
  case isTrue hup =>
    have hmove : start + rate - start = (rate : Int) := by omega
    rw [hmove]
    exact ⟨by omega, Int.mul_nonneg (by omega) (by omega)⟩
  case isFalse hdown =>
    have hmove : start - rate - start = -(rate : Int) := by omega
    rw [hmove]
    exact ⟨by omega, Int.mul_nonneg_of_nonpos_of_nonpos (by omega) (by omega)⟩

theorem steerCommand_held (h : s.steerEnable = false ∨ s.stc.cal ≠ .none) :
    (formLimits s).steerCommand = s.stc.command := by
  have heq : (formLimits s).steerCommand = if s.steerEnable && s.stc.cal == .none then
      moveAngle (if s.stc.enable then s.stc.command else s.stc.measured)
        (limitAbs s.filledStc.angleLimit s.dmc.demand.steerAngle) s.filledStc.rateLimit
      else s.stc.command := rfl
  rw [heq, if_neg]
  rcases h with h | h
  · simp [h]
  · simp [h]

theorem steerCommand_moved (henable : s.steerEnable = true) (hcal : s.stc.cal = .none) :
    (formLimits s).steerCommand =
      moveAngle (if s.stc.enable then s.stc.command else s.stc.measured)
        (limitAbs s.filledStc.angleLimit s.dmc.demand.steerAngle) s.filledStc.rateLimit :=
  if_pos (Bool.and_eq_true_iff.2 ⟨henable, beq_iff_eq.2 hcal⟩)

/-! ### The STEER telegram (R47) -/

/-- The state in which the slot is filled and a calibration has been ended or goes on. -/
structure SlotFilled (s v : State) : Prop where
  stc : v.stc = { s.filledStc with cal := v.stc.cal, calResult := v.stc.calResult }
  wlc : v.wlc = s.filled.wlc
  cfl : v.cfl = s.cfl
  dmc : v.dmc = s.dmc
  tcu : v.tcu = s.tcu
  clock : v.clock = s.clock
  pru : v.pru = s.pru

theorem SlotFilled.calibrationEnded (h : SlotFilled s v) (r : Result) (shown : CalResult)
    (detail : List Word) : SlotFilled s (endCalibration r shown detail v) := by
  refine ⟨?_, ?_, ?_, ?_, ?_, ?_, ?_⟩ <;>
    try simp [h.wlc, h.cfl, h.dmc, h.tcu, h.clock, h.pru]
  rw [endCalibration_stc, h.stc]

/-- What follows the filled slot: the reserve, the bias, the sections and the telegram. -/
def sendFilled (v : State) : State :=
  let s := putStcSection (evaluateBias (formReserve v))
  let control := controlByte s.steerSent s.wlc.sau.slotCalibrate
  let r := s.wlc.sau.sendCommand control s.wlc.sau.slotValue
  transmit (steerTelegram r.lastSeq control r.lastValue)
    { unit := .sau, sent := .steer, purpose := .round }
    (passVisit (s.setWlc (s.wlc.setUnit .sau r)))

theorem sendSteer_going (h : s.stc.cal = .none ∨ s.standstill = true) :
    sendSteer s = sendFilled s.filled := by
  have hend : endCalibrationIf (!s.filled.standstill) .aborted .aborted s.filled = s.filled := by
    refine if_neg ?_
    have hcal : s.filled.stc.cal = s.stc.cal := rfl
    have hstill : s.filled.standstill = s.standstill := rfl
    rw [hcal, hstill]
    rcases h with h | h <;> simp [h]
  unfold sendSteer sendFilled
  simp only [stcTransmit, runAll, fillSlot_formLimits, hend]

/-- The state after a calibration without standstill has been ended. -/
def State.filledStopped (s : State) : State :=
  endCalibration .aborted .aborted (s.calDetail 0 s.heldSteer) s.filled

theorem sendSteer_stopped (hcal : s.stc.cal ≠ .none) (hstill : s.standstill = false) :
    sendSteer s = sendFilled s.filledStopped := by
  have hend : endCalibrationIf (!s.filled.standstill) .aborted .aborted s.filled = s.filledStopped := by
    refine if_pos ?_
    have hcal' : s.filled.stc.cal = s.stc.cal := rfl
    have hstill' : s.filled.standstill = s.standstill := rfl
    rw [hcal', hstill', hstill]
    simp [hcal]
  unfold sendSteer sendFilled
  simp only [stcTransmit, runAll, fillSlot_formLimits, hend]

/-- The bias that a state gives (R152). -/
def State.biasNow (s : State) : Nat :=
  if s.biasAllowed then min 300 (divNat s.cfg.nearest (s.stc.kappa * s.cfg.assistGain) 1000) else 0

theorem biasNow_formed (s : State) : BiasFormed s s.biasNow :=
  ⟨fun h => if_pos ((biasAllowed_iff s).2 h), fun h => if_neg (mt (biasAllowed_iff s).1 h)⟩

/-- P_res as the STC forms it (R153). -/
def State.reserveNow (s : State) : Nat :=
  if s.wlc.sau.configured && s.wlc.sau.present then
    match s.tcu.vRef with
    | some v => if v < 300 then s.cfg.reserveHi else s.cfg.reserveLo
    | none => s.cfg.reserveHi
  else 0

theorem SlotFilled.bias (h : SlotFilled s v) : v.biasNow = s.biasNow := by
  have hcfg : v.cfg = s.cfg := congrArg Cfl.active h.cfl
  have hactive : v.active = s.active := funext fun w => by
    rw [State.active, State.active, hcfg, h.wlc, h.pru]
    rfl
  rw [State.biasNow, State.biasNow, State.biasAllowed, State.biasAllowed, hactive, hcfg, h.dmc, h.tcu, h.stc]
  rfl

theorem SlotFilled.reserve (h : SlotFilled s v) : v.reserveNow = s.reserveNow := by
  have hcfg : v.cfg = s.cfg := congrArg Cfl.active h.cfl
  rw [State.reserveNow, State.reserveNow, hcfg, h.tcu, h.wlc]
  rfl

/-- The telegram's control byte (section 3.2). -/
def State.steerControl (s : State) : Byte :=
  controlByte (s.steerEnable && !(s.dmc.mode == .starting || s.dmc.mode == .tripped)) (s.stc.cal != .none)

/-- The SAU's record after the telegram has gone out. -/
def State.sauSent (s : State) : UnitRec :=
  { s.wlc.sau with
    slotValue := s.filledStc.command, slotEnable := s.steerEnable
    slotCalibrate := s.stc.cal != .none, lastSeq := s.wlc.sau.lastSeq + 1
    lastControl := s.steerControl, lastValue := s.filledStc.command }

theorem biasReserve_eq (v : State) : evaluateBias (formReserve v) =
    { v with stc := { v.stc with reserve := v.reserveNow, beta := v.biasNow } } := rfl

theorem putStcSection_eq (s : State) : putStcSection s = { s with xm := (putStcSection s).xm } := by
  apply State.eq_of_fields <;> simp

theorem sendFilled_eq (h : SlotFilled s v) : sendFilled v =
    { v with
      xm := (putStcSection (evaluateBias (formReserve v))).xm
      stc := { v.stc with reserve := s.reserveNow, beta := s.biasNow }
      wlc := { s.wlc with
        sau := s.sauSent, visit := s.wlc.visit.drop 1
        window := some { unit := .sau, sent := .steer, purpose := .round }
        sent := steerTelegram (s.wlc.sau.lastSeq + 1) s.steerControl s.filledStc.command } } := by
  have hput := putStcSection_eq (evaluateBias (formReserve v))
  unfold sendFilled
  generalize hx : (putStcSection (evaluateBias (formReserve v))).xm = x at hput
  rw [hput, biasReserve_eq, h.reserve, h.bias]
  dsimp only [State.steerSent]
  rw [h.wlc, h.dmc]
  rfl

theorem filled_placed (p : s.wlc.placed) : s.filled.wlc.placed := by
  obtain ⟨hcursor, hunits, hbanks⟩ := p
  refine ⟨hcursor, fun u => ?_, hbanks⟩
  cases u with
  | wheel w => exact hunits (.wheel w)
  | sau => exact hunits .sau

theorem sendFilled_atc (h : SlotFilled s v) : (sendFilled v).atc = v.atc ∧ (sendFilled v).ore = v.ore ∧
    (sendFilled v).stc.cal = v.stc.cal ∧ (sendFilled v).stc.calResult = v.stc.calResult := by
  rw [sendFilled_eq h]
  exact ⟨rfl, rfl, rfl, rfl⟩

/-- The words that the sections show are those of the state after the telegram. -/
theorem sendFilled_shows (h : SlotFilled s v) (p : s.wlc.placed) :
    (sendFilled v).showsAt 0x20A0 (sendFilled v).stcWords ∧
      (sendFilled v).showsIn s.wlc.sau.block 0x40 (sendFilled v).stcWords := by
  have hshown := putStcSection_shows (s := evaluateBias (formReserve v)) (by
    rw [biasReserve_eq]
    dsimp only
    rw [h.wlc]
    exact filled_placed p)
  have hblock : (evaluateBias (formReserve v)).wlc.sau.block = s.wlc.sau.block := by
    rw [biasReserve_eq]
    dsimp only
    rw [h.wlc]
    rfl
  rw [hblock] at hshown
  have hwords : (sendFilled v).stcWords = (evaluateBias (formReserve v)).stcWords := by
    rw [sendFilled_eq h, biasReserve_eq, h.reserve, h.bias]
    rfl
  have hxm : (sendFilled v).xm = (putStcSection (evaluateBias (formReserve v))).xm := by rw [sendFilled_eq h]
  rw [hwords]
  refine ⟨fun i hi => ?_, fun base hb i hi => ?_⟩
  · rw [State.word, hxm]
    exact hshown.1 i hi
  · rw [State.word, hxm]
    exact hshown.2 base hb i hi

/-- The bytes that the telegram's sections reach. -/
theorem sendFilled_same (h : SlotFilled s v) :
    SameOutside ((0x20A0, 32) :: blockRegion s.wlc.sau.block 0x40 192) v (sendFilled v) := by
  have hput := putStcSection_same (evaluateBias (formReserve v))
  have hblock : (evaluateBias (formReserve v)).wlc.sau.block = s.wlc.sau.block := by
    rw [biasReserve_eq]
    dsimp only
    rw [h.wlc]
    rfl
  rw [hblock] at hput
  intro x hx
  rw [sendFilled_eq h]
  exact hput x hx

theorem sendFilled_cellEnded {cell : BitVec 6} {r : Result} {detail : List Word} {clock : Long}
    (h : SlotFilled s v) (p : s.wlc.placed) (hended : v.cellEnded cell r detail clock) :
    (sendFilled v).cellEnded cell r detail clock := by
  have p' : (evaluateBias (formReserve v)).wlc.placed := by
    rw [biasReserve_eq]
    dsimp only
    rw [h.wlc]
    exact filled_placed p
  have hput := (putStcSection_statusOnly (evaluateBias (formReserve v))).cellEnded p'
    (hended.keep fun _ _ _ => rfl)
  refine hput.keep fun x _ _ => ?_
  rw [sendFilled_eq h]

/-- What a STEER telegram shows and sends, whatever becomes of a calibration. -/
structure SteerSent (s t : State) : Prop where
  stc : { t.stc with cal := s.stc.cal, calResult := s.stc.calResult } =
    { s.filledStc with reserve := s.reserveNow, beta := s.biasNow }
  visit : t.wlc.visit = s.wlc.visit.drop 1
  window : t.wlc.window = some { unit := .sau, sent := .steer, purpose := .round }
  sau : t.wlc.sau = s.sauSent
  sent : t.wlc.sent = steerTelegram (s.wlc.sau.lastSeq + 1) s.steerControl s.filledStc.command
  shown : s.wlc.placed → t.showsAt 0x20A0 t.stcWords ∧ t.showsIn s.wlc.sau.block 0x40 t.stcWords

theorem sendFilled_sent (h : SlotFilled s v) : SteerSent s (sendFilled v) where
  stc := by
    rw [sendFilled_eq h]
    dsimp only
    rw [h.stc]
    rfl
  visit := by rw [sendFilled_eq h]
  window := by rw [sendFilled_eq h]
  sau := by rw [sendFilled_eq h]
  sent := by rw [sendFilled_eq h]
  shown p := sendFilled_shows h p

theorem filled_slotFilled (s : State) : SlotFilled s s.filled := ⟨rfl, rfl, rfl, rfl, rfl, rfl, rfl⟩

theorem filledStopped_slotFilled (s : State) : SlotFilled s s.filledStopped :=
  (filled_slotFilled s).calibrationEnded _ _ _

/-- A telegram with a calibration going on, or none, alters the SAU's record, the bus and the STC's
record, and writes the STC's sections alone. -/
theorem sendSteer_rest : { sendFilled s.filled with
    xm := s.xm
    wlc := { (sendFilled s.filled).wlc with
      sau := s.wlc.sau, visit := s.wlc.visit, window := s.wlc.window, sent := s.wlc.sent }
    stc := { (sendFilled s.filled).stc with
      angleLimit := s.stc.angleLimit, rateLimit := s.stc.rateLimit
      enable := s.stc.enable, calibrateSent := s.stc.calibrateSent
      command := s.stc.command, reserve := s.stc.reserve, beta := s.stc.beta } } = s := by
  rw [sendFilled_eq (filled_slotFilled s)]
  rfl

/-- A calibration without standstill ends ABORTED with the telegram (R158). -/
theorem sendSteer_ended (hheld : s.ore.steer = some s.stc.calCell) (p : s.wlc.placed) :
    (sendFilled s.filledStopped).ore = { s.ore with steer := none } ∧
    Cls.orderDone.isIn (sendFilled s.filledStopped).atc.pending = true ∧
    (sendFilled s.filledStopped).cellEnded s.stc.calCell .aborted
      (if s.wlc.sau.held = .none then [0, 0, 0, natWord (s.clock - s.stc.calStart).toNat]
      else [0, s.wlc.sau.report.flags.setWidth 16, s.wlc.sau.report.field1,
        natWord (s.clock - s.stc.calStart).toNat]) s.clock := by
  have hended : CalEnded .aborted .aborted (s.calDetail 0 s.heldSteer) s.filled s.filledStopped :=
    endCalibration_ends hheld
  have hslot := filledStopped_slotFilled s
  obtain ⟨hatc, hore, -, -⟩ := sendFilled_atc hslot
  refine ⟨?_, ?_, ?_⟩
  · rw [hore]
    exact hended.ore
  · rw [hatc, hended.raised.pending]
    simp
  · rw [← heldDetail_eq]
    exact sendFilled_cellEnded hslot p hended.ended

theorem sendSteer_ways (s : State) : ∃ t, sendSteer s = t ∧ SteerSent s t ∧
    (s.stc.cal ≠ .none ∧ s.standstill = false → t = sendFilled s.filledStopped) ∧
    (s.stc.cal = .none ∨ s.standstill = true → t = sendFilled s.filled) := by
  by_cases h : s.stc.cal = .none ∨ s.standstill = true
  · refine ⟨_, sendSteer_going h, sendFilled_sent (filled_slotFilled s), fun k => ?_, fun _ => rfl⟩
    rcases h with h | h
    · exact absurd h k.1
    · rw [k.2] at h
      cases h
  · obtain ⟨hcal, hstill⟩ := not_or.1 h
    exact ⟨_, sendSteer_stopped hcal (Bool.eq_false_iff.2 hstill),
      sendFilled_sent (filledStopped_slotFilled s), fun _ => rfl, fun k => absurd k h⟩

theorem steerControl_eq (s : State) : s.steerControl =
    (if s.steerEnable && s.dmc.mode != .starting && s.dmc.mode != .tripped then 1 else 0) +
      (if s.stc.cal != .none then 2 else 0) := by
  unfold State.steerControl controlByte
  cases s.dmc.mode <;> cases s.steerEnable <;> rfl

theorem reserveNow_present (h : s.wlc.sau.state = .enrolled ∨ s.wlc.sau.state = .missing) :
    s.reserveNow = if s.wlc.sau.configured then
      (match s.tcu.vRef with
      | some v => if v < 300 then s.cfg.reserveHi else s.cfg.reserveLo
      | none => s.cfg.reserveHi) else 0 := by
  rw [State.reserveNow, (present_iff _).2 h, Bool.and_true]

end

/-- Settles O45: the command telegrams in their turn, and no effect out of it. -/
theorem commandsSent : Obligations.CommandsSent := by
  intro s hs
  refine ⟨fun u h => ⟨fun w hu => ?_, fun hu => ?_⟩, fun hw hq hc ho => ⟨?_, ?_⟩⟩
  · exact whenRunning_idle (f := sendDrive w) (p := fun s => s.wlc.commandDue (.wheel w)) hs
      (mt commandDue_iff.1 (hu ▸ h))
  · exact whenRunning_idle (f := sendSteer) (p := fun s => s.wlc.commandDue .sau) hs
      (mt commandDue_iff.1 (hu ▸ h))
  · intro w rest r enable torque hv hr hstate henable htorque
    have hdue : s.wlc.commandDue (.wheel w) = true :=
      commandDue_iff.2 ⟨hw, hq, hc, ho, by rw [hv]; rfl, (present_iff (s.wlc.wheels.get w)).2 (by rw [← hr]; exact hstate)⟩
    have hexec : exec (.driveTransmit w) s = .next (sendDrive w s) :=
      whenRunning_acts (f := sendDrive w) (p := fun s => s.wlc.commandDue (.wheel w)) hs hdue
    have hen : s.driveEnable w = enable := by rw [henable, hr]; exact driveEnable_eq w s
    have hto : s.driveTorque w = torque := by
      rw [htorque, hr, State.driveTorque, hen]
      rfl
    rw [hexec, sendDrive_eq, hen, hto, controlByte_enable, unitAddress_wheel, hv, hr]
    rfl
  · intro rest enable target start widest rate hv hstate hwidest hrate henable htarget hstart
    have hdue : s.wlc.commandDue .sau = true :=
      commandDue_iff.2 ⟨hw, hq, hc, ho, by rw [hv]; rfl, (present_iff _).2 hstate⟩
    have hexec : exec .steerTransmit s = .next (sendSteer s) :=
      whenRunning_acts (f := sendSteer) (p := fun s => s.wlc.commandDue .sau) hs hdue
    obtain ⟨t, ht, hsent, hstop, hgo⟩ := sendSteer_ways s
    have hen : s.steerEnable = enable := by rw [henable]; exact steerEnable_eq s
    have hlimit : Machine.angleLimit s.cfg s.tcu.vRef = widest := by
      rw [hwidest]
      cases s.tcu.vRef <;> rfl
    have hspeed : Machine.rateLimit s.cfg s.tcu.vRef = rate := by
      rw [hrate]
      cases s.tcu.vRef <;> rfl
    have hangle : t.stc.angleLimit = min widest s.wlc.sau.capability := by
      rw [← hlimit]
      have e := congrArg Stc.angleLimit hsent.stc
      exact e
    have hrateLimit : t.stc.rateLimit = rate := by
      rw [← hspeed]
      have e := congrArg Stc.rateLimit hsent.stc
      exact e
    have hcommand : t.stc.command = (formLimits s).steerCommand := by
      have e := congrArg Stc.command hsent.stc
      exact e
    have hcalibrate : t.stc.calibrateSent = (s.stc.cal != .none) := by
      have e := congrArg Stc.calibrateSent hsent.stc
      exact e
    refine ⟨t, hexec.trans (congrArg _ ht), hangle, hrateLimit, ?_, hcalibrate, fun h => ?_, fun h1 h2 => ?_,
      ?_, ?_, ?_, hsent.window, ?_, ?_, hsent.shown, fun h => ?_, fun h => ?_⟩
    · rw [← hen]
      have e := congrArg Stc.enable hsent.stc
      exact e
    · rw [hcommand]
      exact steerCommand_held (hen ▸ h)
    · have hmove := moveAngle_spec start target rate
      have hmoved := steerCommand_moved (hen.trans h1) h2
      rw [hcommand, hmoved, hrateLimit, htarget, hstart, ← hspeed, ← hlimit]
      rw [htarget, hstart, ← hspeed, ← hlimit] at hmove
      exact hmove
    · have e : t.stc.reserve = s.reserveNow := congrArg Stc.reserve hsent.stc
      exact e.trans (reserveNow_present hstate)
    · have e : t.stc.beta = s.biasNow := congrArg Stc.beta hsent.stc
      rw [e]
      exact biasNow_formed s
    · rw [hsent.visit, hv]
      rfl
    · rw [hsent.sau, hcommand, hcalibrate, ← hen, ← steerControl_eq]
      rfl
    · rw [hsent.sent, hsent.sau, hcommand]
      rfl
    · have hdead := hstop h
      obtain ⟨-, -, hcal, hres⟩ := sendFilled_atc (filledStopped_slotFilled s)
      have hend := endCalibration_stc .aborted .aborted (s.calDetail 0 s.heldSteer) s.filled
      rw [hdead]
      exact ⟨hcal.trans (congrArg Stc.cal hend), hres.trans (congrArg Stc.calResult hend),
        fun hheld p => sendSteer_ended hheld p⟩
    · rw [hgo h]
      refine ⟨(sendFilled_same (filled_slotFilled s)).of_xm rfl, sendSteer_rest⟩

end Sys2Proof.Machine
end

section
/-! What the deliveries write aside of: the link sections of the units' blocks, where no record is taken up, and
the heat sections of the banks' blocks; and a channel's on-time accumulator, but for one cut. -/

namespace Sys2Proof.Machine

section
variable {full : Bool} {a b s t u : State} {c d e : Chan} {bank : Bank}

/-! ### The bytes and the channels -/

/-- A byte of a link section, which counts with `full`, or of a bank's heat section. -/
def State.asideByte (full : Bool) (s : State) (x : Nat) : Prop :=
  (full = true ∧ ∃ v base, (s.wlc.unit v).block = some base ∧ base ≤ x ∧ x < base + 64) ∨
    ∃ k base, s.wlc.bankBlock.get k = some base ∧ base + 64 ≤ x ∧ x < base + 256

/-- A region of bytes below the status blocks, or of a section that is neither a link section nor a bank's heat
section. -/
def State.asideRegion (s : State) (r : Nat × Nat) : Prop :=
  r.1 + r.2 ≤ 0x2100 ∨
    (∃ v base, (s.wlc.unit v).block = some base ∧ base + 64 ≤ r.1 ∧ r.1 + r.2 ≤ base + 256) ∨
    ∃ k base, s.wlc.bankBlock.get k = some base ∧ base ≤ r.1 ∧ r.1 + r.2 ≤ base + 64

/-- A channel after no cut, or after one of its ON phase. -/
def ChanCut (c d : Chan) : Prop :=
  (d.gate = c.gate ∧ d.onTotal = c.onTotal ∧ d.onTime = c.onTime) ∨
    (c.gate = true ∧ d.gate = false ∧ d.onTotal ≤ c.onTotal + c.onTime)

theorem ChanCut.refl (c : Chan) : ChanCut c c := .inl ⟨rfl, rfl, rfl⟩

theorem ChanCut.trans (h : ChanCut c d) (k : ChanCut d e) : ChanCut c e := by
  rcases h with ⟨h1, h2, h3⟩ | ⟨h1, h2, h3⟩
  · rcases k with ⟨k1, k2, k3⟩ | ⟨k1, k2, k3⟩
    · exact .inl ⟨k1.trans h1, k2.trans h2, k3.trans h3⟩
    · exact .inr ⟨h1 ▸ k1, k2, by rw [h2, h3] at k3; exact k3⟩
  · rcases k with ⟨k1, k2, k3⟩ | ⟨k1, _, _⟩
    · exact .inr ⟨h1, k1.trans h2, k2 ▸ h3⟩
    · rw [h2] at k1
      cases k1

/-- The places of the status blocks. -/
structure SamePlaces (a b : State) : Prop where
  units : ∀ v, (b.wlc.unit v).block = (a.wlc.unit v).block
  banks : b.wlc.bankBlock = a.wlc.bankBlock
  cursor : b.wlc.cursor = a.wlc.cursor

theorem SamePlaces.of_wlc (h : b.wlc = a.wlc) : SamePlaces a b := ⟨fun _ => by rw [h], by rw [h], by rw [h]⟩

theorem SamePlaces.trans (h : SamePlaces a s) (k : SamePlaces s t) : SamePlaces a t :=
  ⟨fun v => (k.units v).trans (h.units v), k.banks.trans h.banks, k.cursor.trans h.cursor⟩

theorem SamePlaces.placed (h : SamePlaces a b) (p : a.wlc.placed) : b.wlc.placed :=
  ⟨h.cursor ▸ p.1, fun v => by rw [h.units]; exact p.2.1 v, fun k => by rw [h.banks]; exact p.2.2 k⟩

theorem SamePlaces.apart (h : SamePlaces a b) (q : a.wlc.apart) : b.wlc.apart where
  units v w hne := by rw [h.units, h.units]; exact q.units v w hne
  mixed v k := by rw [h.units, h.banks]; exact q.mixed v k
  banks j k hne := by rw [h.banks]; exact q.banks j k hne
  unitsBehind v := by rw [h.units, h.cursor]; exact q.unitsBehind v
  banksBehind k := by rw [h.banks, h.cursor]; exact q.banksBehind k

theorem SamePlaces.asideByte (h : SamePlaces a b) (x : Nat) : b.asideByte full x ↔ a.asideByte full x := by
  simp only [State.asideByte, h.units, h.banks]

/-- What the deliveries write aside of. -/
structure Aside (full : Bool) (a b : State) : Prop where
  places : SamePlaces a b
  bytes : a.wlc.placed → a.wlc.apart → ∀ x, a.asideByte full x → b.xm.byte x = a.xm.byte x
  chans : ∀ k, ChanCut (a.rgc.chans.get k) (b.rgc.chans.get k)

theorem Aside.trans (h : Aside full a s) (k : Aside full s t) : Aside full a t :=
  ⟨h.places.trans k.places, fun p q x hx => (k.bytes (h.places.placed p) (h.places.apart q) x
    ((h.places.asideByte x).2 hx)).trans (h.bytes p q x hx), fun j => (h.chans j).trans (k.chans j)⟩

theorem Aside.weaken (h : Aside true a b) : Aside full a b :=
  ⟨h.places, fun p q x hx => h.bytes p q x (hx.imp (fun k => ⟨rfl, k.2⟩) id), h.chans⟩

/-- A byte of those sections lies in no region beside them. -/
theorem asideByte_outside (p : s.wlc.placed) (q : s.wlc.apart) {x : Nat} (hx : s.asideByte true x) {r : Nat × Nat}
    (hr : s.asideRegion r) : x < r.1 ∨ r.1 + r.2 ≤ x := by
  rcases hx with ⟨-, v, base, hv, h1, h2⟩ | ⟨k, base, hk, h1, h2⟩
  · have hbase : 0x2100 ≤ base := p.2.1 v base hv
    rcases hr with hr | ⟨w, y, hw, h3, h4⟩ | ⟨j, y, hj, h3, h4⟩
    · omega
    · by_cases e : v = w
      · subst e
        obtain rfl : base = y := Option.some.inj (hv.symm.trans hw)
        omega
      · have := q.units v w e base hv y hw
        omega
    · have := q.mixed v j base hv y hj
      omega
  · have hbase : 0x2100 ≤ base := p.2.2 k base hk
    rcases hr with hr | ⟨w, y, hw, h3, h4⟩ | ⟨j, y, hj, h3, h4⟩
    · omega
    · have := q.mixed w k y hw base hk
      omega
    · by_cases e : k = j
      · subst e
        obtain rfl : base = y := Option.some.inj (hk.symm.trans hj)
        omega
      · have := q.banks k j e base hk y hj
        omega

/-- A write within such regions, with the records as they stand. -/
theorem Aside.same {regions : List (Nat × Nat)} (h : SameOutside regions s t) (hr : ∀ r ∈ regions, s.asideRegion r)
    (hwlc : t.wlc = s.wlc := by simp) (hchans : t.rgc.chans = s.rgc.chans := by simp) : Aside full s t := by
  have k : Aside true s t := ⟨.of_wlc hwlc, fun p q x hx =>
    h x fun r hmem => asideByte_outside p q hx (hr r hmem), fun j => by rw [hchans]; exact .refl _⟩
  exact k.weaken

theorem Aside.of_xm (hxm : t.xm = s.xm) (hplaces : SamePlaces s t) (hchans : t.rgc.chans = s.rgc.chans := by simp) :
    Aside full s t := ⟨hplaces, fun _ _ _ _ => by rw [hxm], fun j => by rw [hchans]; exact .refl _⟩

/-- A step beside the memory, the records and the channels. -/
theorem Aside.still (hxm : t.xm = s.xm := by simp) (hwlc : t.wlc = s.wlc := by simp)
    (hchans : t.rgc.chans = s.rgc.chans := by simp) : Aside full s t := .of_xm hxm (.of_wlc hwlc) hchans

theorem Aside.refl (full : Bool) (s : State) : Aside full s s := .still rfl rfl rfl

theorem put_aside {x : Nat} {ws : List Word} (h : x + 2 * ws.length ≤ 0x2100) : Aside full s (put x ws s) :=
  .same (put_same x ws s) fun r hr => by
    obtain rfl := List.mem_singleton.1 hr
    exact .inl h

theorem asideRegion_unit {v : UnitId} {offset bytes : Nat} (h1 : 64 ≤ offset) (h2 : offset + bytes ≤ 256) :
    ∀ r ∈ blockRegion (s.wlc.unit v).block offset bytes, s.asideRegion r := by
  intro r hr
  cases hb : (s.wlc.unit v).block with
  | none =>
    rw [hb] at hr
    cases hr
  | some base =>
    rw [hb] at hr
    obtain rfl := List.mem_singleton.1 hr
    exact .inr (.inl ⟨v, base, hb, by simp only; omega, by simp only; omega⟩)

theorem asideRegion_bank {k : Bank} : ∀ r ∈ blockRegion (s.wlc.bankBlock.get k) 0 64, s.asideRegion r := by
  intro r hr
  cases hb : s.wlc.bankBlock.get k with
  | none =>
    rw [hb] at hr
    cases hr
  | some base =>
    rw [hb] at hr
    obtain rfl := List.mem_singleton.1 hr
    exact .inr (.inr ⟨k, base, hb, by simp only; omega, by simp only; omega⟩)

/-! ### The fault table, the classes and the cells -/

theorem pendingRegion_aside : ∀ r ∈ [pendingRegion], s.asideRegion r := fun r hr => by
  obtain rfl := List.mem_singleton.1 hr
  exact .inl (by decide)

theorem raise_aside (k : Cls) (s : State) : Aside full s (raise k s) := .same (raise_same k s) pendingRegion_aside

theorem updatePru_aside (p : Pru) (s : State) : Aside full s (updatePru p s) :=
  .same (updatePru_same p s) fun r hr => by
    obtain rfl := List.mem_singleton.1 hr
    exact .inl (by decide)

theorem note_aside (k : Kind) (subject : Subject) (present : Bool) (s : State) :
    Aside full s (note k subject present s) :=
  .same (note_same k subject present s) fun r hr => by
    rcases List.mem_cons.1 hr with rfl | hr
    · exact .inl (by decide)
    · exact pendingRegion_aside r hr

theorem noteIf_aside (go : Bool) (k : Kind) (subject : Subject) (present : Bool) (s : State) :
    Aside full s (noteIf go k subject present s) := by
  unfold noteIf
  split
  · exact note_aside k subject present s
  · exact .refl full s

theorem observeEscalation_aside (s : State) : Aside full s (observeEscalation s) :=
  (note_aside _ _ _ s).trans (note_aside _ _ _ _)

/-- The end of a cell. -/
theorem endCell_aside (cell : BitVec 6) (r : Result) (detail : List Word) (s : State) :
    Aside full s (endCell cell r detail s) := by
  refine .same (regions := [(cellBase cell, 64), pendingRegion]) (fun x hx => ?_) fun r hr => ?_
  · refine endCell_bytes cell r detail s (hx pendingRegion (by simp)) (hx (cellBase cell, 64) (by simp))
  · have := cellBase_range cell
    rcases List.mem_cons.1 hr with rfl | hr
    · exact .inl (by simp only; omega)
    · exact pendingRegion_aside r hr

theorem complete_aside (q : Resource) (cell : BitVec 6) (r : Result) (detail : List Word) (s : State) :
    Aside full s (complete q cell r detail s) := by
  by_cases h : s.ore.inFlight q = some cell
  · rw [complete_of_held h]
    exact (endCell_aside cell r detail s).trans (.still rfl rfl rfl)
  · rw [complete_dropped h]
    exact .refl full s

/-! ### The TCU and the STC -/

theorem putTraction_aside (w : Wheel) (s : State) : Aside full s (putTraction w s) := by
  have hlen : ((s.tcu.wheels.get w).words s.clock).length ≤ 64 := by
    simp [TcuWheel.words, longWords]
  exact .same (putBlock_same _ 0x80 _ s) (asideRegion_unit (v := .wheel w) (by omega) (by omega))

theorem alterWheel_aside (w : Wheel) (r : TcuWheel) (s : State) : Aside full s (alterWheel w r s) := by
  unfold alterWheel
  split
  · exact .refl full s
  · exact (Aside.still (by simp [setTcuWheel]) (by simp [setTcuWheel]) (by simp [setTcuWheel])).trans
      (putTraction_aside w (setTcuWheel w r s))

theorem judgeQuality_aside (s : State) : Aside full s (judgeQuality s) := by
  unfold judgeQuality
  split
  · exact .refl full s
  · exact (Aside.still (t := recomputeVRef (s.setTcu { s.tcu with quality := s.judgedQuality }))).trans
      (raise_aside _ _)

theorem recomputeIn_aside (q : Quality) (s : State) : Aside full s (recomputeIn q s) := .still

theorem putTcuSection_aside (s : State) : Aside full s (putTcuSection s) :=
  put_aside (by simp [Tcu.words, longWords])

theorem excludeAtTcu_aside (w : Wheel) (s : State) : Aside full s (excludeAtTcu w s) := by
  simp only [excludeAtTcu]
  exact (alterWheel_aside w _ s).trans (noteIf_aside _ _ _ _ _)

theorem tcuExclusion_aside (before : PerWheel Bool) (s : State) : Aside full s (tcuExclusion before s) := by
  have step : ∀ w s, Aside full s (takeExclusion before w s) := fun w s => by
    unfold takeExclusion
    split
    · exact excludeAtTcu_aside w s
    · exact .refl full s
  rw [tcuExclusion_eq]
  have k := (((step .w1 s).trans (step .w2 _)).trans (step .w3 _)).trans (step .w4 _)
  exact ((k.trans (judgeQuality_aside _)).trans (recomputeIn_aside _ _)).trans (putTcuSection_aside _)

theorem tcuSubstateChange_aside (s : State) : Aside full s (tcuSubstateChange s) := by
  have step : ∀ (w : Wheel) (v : State), Aside full v (alterWheel w (v.tcu.wheels.get w).leaveSubstate v) := fun w v =>
    alterWheel_aside w _ v
  have k := (((step .w1 s).trans (step .w2 _)).trans (step .w3 _)).trans (step .w4 _)
  simp only [tcuSubstateChange, runAll, forWheels]
  exact ((k.trans (judgeQuality_aside _)).trans (recomputeIn_aside _ _)).trans (putTcuSection_aside _)

theorem putStcSection_aside (s : State) : Aside full s (putStcSection s) :=
  .same (putStcSection_same s) fun r hr => by
    rcases List.mem_cons.1 hr with rfl | hr
    · exact .inl (by decide)
    · exact asideRegion_unit (v := .sau) (by omega) (by omega) r hr

theorem endCalibrationIf_aside (go : Bool) (r : Result) (shown : CalResult) (s : State) :
    Aside full s (endCalibrationIf go r shown s) := by
  unfold endCalibrationIf endCalibration
  split
  · have k : Aside full s (stopCalibration shown s) := .still rfl rfl rfl
    exact k.trans (complete_aside _ _ _ _ _)
  · exact .refl full s

theorem stcModeChange_aside (s : State) : Aside full s (stcModeChange s) := by
  simp only [stcModeChange, runAll]
  exact (endCalibrationIf_aside _ _ _ s).trans (putStcSection_aside _)

/-! ### The RGC -/

theorem putBankSection_aside (k : Bank) (s : State) : Aside full s (putBankSection k s) :=
  .same (putBankSection_same k s) asideRegion_bank

theorem showTest_aside (k : Bank) (f : BankShow → BankShow) (s : State) : Aside full s (showTest k f s) :=
  .same (showTest_same k f s) asideRegion_bank (by simp) (by rw [showTest_rgc])

theorem Chan.enter_still (c : Chan) (st : ChanState) (duty : Nat) : (c.enter st duty).gate = c.gate ∧
    (c.enter st duty).onTotal = c.onTotal ∧ (c.enter st duty).onTime = c.onTime := by
  cases st <;> exact ⟨rfl, rfl, rfl⟩

theorem setChan_aside {k : Bank} (h : ChanCut (s.rgc.chans.get k) c) : Aside full s (setChan k c s) where
  places := .of_wlc rfl
  bytes _ _ _ _ := rfl
  chans j := by
    have e : (setChan k c s).rgc.chans.get j = if k = j then c else s.rgc.chans.get j := by
      simp only [setChan, State.setRgc_rgc]
      cases k <;> cases j <;> rfl
    rw [e]
    split
    case isTrue hj => rw [← hj]; exact h
    case isFalse => exact .refl _

theorem cutPhase_aside (k : Bank) (s : State) : Aside full s (cutPhase k s) := by
  unfold cutPhase
  dsimp only
  split
  case isTrue hg =>
    have hcut : s.cutOnTime (s.rgc.chans.get k) ≤ (s.rgc.chans.get k).onTime :=
      Nat.le_of_lt_succ (Nat.mod_lt _ (Nat.succ_pos _))
    exact (setChan_aside (.inr ⟨hg, rfl, Nat.add_le_add_left hcut _⟩)).trans (.still rfl rfl rfl)
  case isFalse => exact .refl full s

theorem judgeChannel_aside (k : Bank) (s : State) : Aside full s (judgeChannel k s) := by
  unfold judgeChannel
  dsimp only
  split
  · exact .refl full s
  · have h1 : Aside full s (cutIfOff (s.chanState k) k s) := by
      unfold cutIfOff
      split
      · exact cutPhase_aside k s
      · exact cutPhase_aside k s
      all_goals exact .refl full s
    generalize cutIfOff (s.chanState k) k s = v at h1
    obtain ⟨e1, e2, e3⟩ := Chan.enter_still (v.rgc.chans.get k) (s.chanState k) v.testDuty
    exact (h1.trans (setChan_aside (.inl ⟨e1, e2, e3⟩))).trans (putBankSection_aside k _)

theorem judgeChannels_aside (s : State) : Aside full s (judgeChannels s) :=
  forBanks_steps (P := Aside full) Aside.trans judgeChannel_aside s

theorem setTest_aside (g : Option GridTest) (s : State) : Aside full s (setTest g s) := .still rfl rfl rfl

theorem nextBank_aside (s : State) : Aside full s (nextBank s) := by
  cases ht : s.rgc.test with
  | none =>
    simp only [nextBank, ht]
    exact .refl full s
  | some g =>
    cases hw : g.waiting with
    | nil =>
      rw [nextBank_none ht hw]
      exact ((setTest_aside none s).trans (judgeChannels_aside _)).trans (complete_aside _ _ _ _ _)
    | cons k rest =>
      rw [nextBank_some ht hw]
      exact ((setTest_aside _ s).trans (showTest_aside k _ _)).trans (judgeChannel_aside k _)

theorem skipAdded_aside (before : PerBank Bool) (k : Bank) (s : State) : Aside full s (skipAdded before k s) := by
  unfold skipAdded skipWaiting
  split
  · cases s.rgc.test with
    | none => exact .refl full s
    | some g =>
      dsimp only
      split
      · exact (setTest_aside _ s).trans (showTest_aside k _ _)
      · exact .refl full s
  · exact .refl full s

theorem skipCurrent_aside (s : State) : Aside full s (skipCurrent s) := by
  unfold skipCurrent
  cases s.rgc.test with
  | none => exact .refl full s
  | some g =>
    dsimp only
    cases g.current with
    | none => exact .refl full s
    | some k =>
      dsimp only
      split
      · exact (((setTest_aside _ s).trans (showTest_aside k _ _)).trans (judgeChannel_aside k _)).trans
          (nextBank_aside _)
      · exact .refl full s

theorem followBanks_aside (before : PerBank Bool) (s : State) : Aside full s (followBanks before s) := by
  rw [followBanks_eq]
  have k : Aside full s (sortRotation s) := .still rfl rfl rfl
  have k2 := forBanks_steps (P := Aside full) Aside.trans (skipAdded_aside before) (sortRotation s)
  exact ((k.trans k2).trans (skipCurrent_aside _)).trans (judgeChannels_aside _)

theorem rgcExclusion_aside (before : PerBank Bool) (s : State) : Aside full s (rgcExclusion before s) := by
  have k : Aside full s (if s.pru.bankEx = before then s else followBanks before s) := by
    split
    · exact .refl full s
    · exact followBanks_aside before s
  exact k.trans (.still rfl rfl rfl)

theorem stopTest_aside (s : State) : Aside full s (stopTest s) := by
  unfold stopTest
  cases s.rgc.test with
  | none => exact .refl full s
  | some g =>
    dsimp only
    cases g.current with
    | none => exact (setTest_aside none s).trans (judgeChannels_aside _)
    | some k =>
      exact (((showTest_aside k _ s).trans (cutPhase_aside k _)).trans (setTest_aside none _)).trans
        (judgeChannels_aside _)

theorem abortTestIf_aside (go : Bool) (s : State) : Aside full s (abortTestIf go s) := by
  unfold abortTestIf
  cases s.rgc.test with
  | none => exact .refl full s
  | some g =>
    dsimp only
    split
    · exact (stopTest_aside s).trans (complete_aside _ _ _ _ _)
    · exact .refl full s

theorem changeCauses_aside (x : Causes) (s : State) : Aside full s (changeCauses x s) := by
  unfold changeCauses
  split
  · exact .refl full s
  · have k : Aside full s (s.setRgc { s.rgc with
        causes := x
        pulse := if s.cfg.outputMode = 1 && !s.rgc.causes.any && x.any then some (s.clock + 500)
          else s.rgc.pulse }) := .still rfl rfl rfl
    exact k.trans (raise_aside _ _)

theorem rgcModeChange_aside (s : State) : Aside full s (rgcModeChange s) := by
  have k0 : Aside full s (startDischarge s) := .still rfl rfl rfl
  rw [rgcModeChange_eq, causesReady]
  have k1 := abortTestIf_aside (full := full)
    (!((startDischarge s).dmc.mode == .ready || (startDischarge s).dmc.mode == .standby)) (startDischarge s)
  have k2 : Aside full s (judgeChannels (abortTestIf
      (!(s.dmc.mode == .ready || s.dmc.mode == .standby)) (startDischarge s))) :=
    (k0.trans k1).trans (judgeChannels_aside _)
  generalize judgeChannels (abortTestIf (!(s.dmc.mode == .ready || s.dmc.mode == .standby)) (startDischarge s)) = v at k2
  exact (k2.trans (Aside.still (t := recomputeBlower v) rfl rfl rfl)).trans (changeCauses_aside _ _)

/-! ### The mode and the substate -/

theorem announceSubstate_aside (s : State) : Aside full s (announceSubstate s) := by
  have k1 := tcuSubstateChange_aside (full := full) s
  rw [announceSubstate_eq]
  generalize tcuSubstateChange s = v at k1
  have k2 : Aside full v (evaluateBias (recomputeBlower v)) := .still rfl rfl rfl
  exact (k1.trans k2).trans (putStcSection_aside _)

theorem setSubstate_aside (sub : Substate) (target : Target) (s : State) : Aside full s (setSubstate sub target s) := by
  unfold setSubstate
  split
  · exact .refl full s
  · have k : Aside full s (s.setDmc { s.dmc with substate := sub, target := target }) := .still rfl rfl rfl
    exact k.trans (announceSubstate_aside _)

theorem formAndMove_aside (s : State) : Aside full s (formAndMove s) := by
  have k0 : Aside full s (formDemands s) := .still rfl rfl rfl
  have k1 := setSubstate_aside (full := full) (formDemands s).movedSubstate.1 (formDemands s).movedSubstate.2 (formDemands s)
  unfold formAndMove endChangeover
  dsimp only
  generalize setSubstate (formDemands s).movedSubstate.1 (formDemands s).movedSubstate.2 (formDemands s) = v at k1 ⊢
  split
  · exact (k0.trans k1).trans (setSubstate_aside _ _ _)
  · exact k0.trans k1

theorem putDmcSection_aside (s : State) : Aside full s (putDmcSection s) :=
  put_aside (by simp [State.dmcWords, longWords])

theorem changeMode_aside {m : Mode} (f : Dmc → Dmc) (hm : m ≠ .standby) (s : State) :
    Aside full s (changeMode m f s) := by
  have k1 : Aside full s (modeShown m f s) := by
    have k0 : Aside full s ((s.setDmc (s.movedDmc m f)).setTripOut (m == .tripped)) := .still rfl rfl rfl
    unfold modeShown
    generalize (s.setDmc (s.movedDmc m f)).setTripOut (m == .tripped) = v at k0
    have kput : Aside full (raise .modeChange v) (put 0x0010 [m.code] (raise .modeChange v)) := put_aside (by simp)
    exact ((k0.trans (raise_aside .modeChange v)).trans kput).trans (putDmcSection_aside _)
  have k2 : Aside full s (modeAnnounced m f s) := by
    unfold modeAnnounced
    split
    · exact k1
    · exact k1.trans (announceSubstate_aside _)
  rw [changeMode_eq, wlcModeChange_idle (by simpa [State.movedDmc] using hm)]
  exact (k2.trans (rgcModeChange_aside _)).trans (stcModeChange_aside _)

theorem requestQuiet_aside (s : State) : Aside full s (requestQuiet s) := by
  refine .of_xm (by simp) ⟨fun v => ?_, rfl, rfl⟩
  cases v with
  | sau => rfl
  | wheel w => cases w <;> simp [requestQuiet, forWheels, setSlot, Wlc.unit, PerWheel_get_set]

theorem enterTripped_aside (s : State) : Aside full s (enterTripped s) :=
  (changeMode_aside _ (by decide) s).trans (requestQuiet_aside _)

theorem enterSafeStop_aside (s : State) : Aside full s (enterSafeStop s) :=
  (changeMode_aside _ (by decide) s).trans (formAndMove_aside _)

theorem announceSummary_aside (s : State) : Aside full s (announceSummary s) := by
  unfold announceSummary
  split
  · exact (requestQuiet_aside s).trans (raise_aside _ _)
  · exact raise_aside _ s
  all_goals exact .refl full s

theorem deliverSets_aside (s : State) : Aside full s (deliverSets s) := by
  have k := updatePru_aside (full := full) { s.pru with
    wheelEx := formWheelEx s.pru.entries, bankEx := formBankEx s.pru.entries } s
  simp only [deliverSets]
  generalize updatePru { s.pru with
    wheelEx := formWheelEx s.pru.entries, bankEx := formBankEx s.pru.entries } s = v at k
  split
  · exact k.trans (observeEscalation_aside v)
  · exact ((k.trans (tcuExclusion_aside _ v)).trans (rgcExclusion_aside _ _)).trans (observeEscalation_aside _)

/-! ### The way back to STARTING, aside of the banks' heat sections -/

theorem sauChange_aside (s : State) : Aside full s (sauChange s) := by
  have k1 : Aside full s (if s.sauSilent then forgetAngle s else s) := by
    split
    · exact .still rfl rfl rfl
    · exact .refl full s
  simp only [sauChange, runAll]
  generalize (if s.sauSilent then forgetAngle s else s) = v at k1
  have k2 := endCalibrationIf_aside (full := full) v.sauGone .unitAbsent .unitAbsent v
  generalize endCalibrationIf v.sauGone .unitAbsent .unitAbsent v = w at k2
  exact ((k1.trans k2).trans (Aside.still (t := evaluateBias (formReserve w)) rfl rfl rfl)).trans
    (putStcSection_aside _)

theorem setUnit_places {v : UnitId} {r : UnitRec} (h : r.block = (s.wlc.unit v).block) :
    SamePlaces s (s.setWlc (s.wlc.setUnit v r)) := by
  refine ⟨fun w => ?_, by cases v <;> rfl, by cases v <;> rfl⟩
  by_cases e : w = v
  · subst e
    rw [← h]
    cases w <;> simp [Wlc.unit, Wlc.setUnit]
  · cases v <;> cases w <;> simp_all [Wlc.unit, Wlc.setUnit, PerWheel_get_set]

theorem changeUnit_aside {v : UnitId} {r : UnitRec} (h : r.block = (s.wlc.unit v).block) :
    Aside full s (changeUnit v r s) := by
  have k : Aside full s (s.setWlc (s.wlc.setUnit v r)) := .of_xm rfl (setUnit_places h) rfl
  unfold changeUnit
  dsimp only
  split
  · exact k.trans (sauChange_aside _)
  · exact k

theorem reportLoss_aside (v : UnitId) (present : Bool) (s : State) : Aside full s (reportLoss v present s) := by
  cases v with
  | sau => exact note_aside _ _ _ s
  | wheel w =>
    have k : Aside full s (s.setPru { s.pru with lossHeld := s.pru.lossHeld.set w present }) := .still rfl rfl rfl
    exact k.trans (note_aside _ _ _ _)

/-- A link section is no bank's heat section. -/
theorem putLink_aside (v : UnitId) (s : State) : Aside false s (putLink v s) where
  places := .of_wlc (by simp)
  bytes p q x hx := by
    rcases hx with ⟨h, -⟩ | ⟨k, base, hk, h1, h2⟩
    · cases h
    · refine putBlock_same _ 0 _ s x fun r hr => ?_
      cases hb : (s.wlc.unit v).block with
      | none =>
        rw [hb] at hr
        cases hr
      | some y =>
        rw [hb] at hr
        obtain rfl := List.mem_singleton.1 hr
        have hlen : ((s.wlc.unit v).words v).length ≤ 128 := by simp [UnitRec.words, longWords]
        have := q.mixed v k y hb base hk
        simp only
        omega
  chans k := by
    have e : (putLink v s).rgc = s.rgc := by simp
    rw [e]
    exact .refl _

theorem takeConfigured_aside (v : UnitId) (s : State) : Aside false s (takeConfigured v s) := by
  unfold takeConfigured
  dsimp only
  split
  · exact changeUnit_aside rfl
  · split
    · exact ((changeUnit_aside (by rfl)).trans (reportLoss_aside _ _ _)).trans (putLink_aside _ _)
    · exact .refl false s

theorem beginRollCall_aside (s : State) : Aside false s (beginRollCall s) := by
  have k : Aside false s (forUnits takeConfigured s) := by
    simp only [forUnits, forWheels]
    exact ((((takeConfigured_aside _ _).trans (takeConfigured_aside _ _)).trans (takeConfigured_aside _ _)).trans
      (takeConfigured_aside _ _)).trans (takeConfigured_aside _ _)
  unfold beginRollCall
  generalize forUnits takeConfigured s = t at k
  exact k.trans (.of_xm rfl ⟨fun _ => rfl, rfl, rfl⟩ rfl)

theorem abortRollCall_aside (s : State) : Aside false s (abortRollCall s) := by
  unfold abortRollCall
  cases s.wlc.order with
  | none => exact .refl false s
  | some o =>
    have k : Aside false s (endOrder s) := .of_xm rfl ⟨fun _ => rfl, rfl, rfl⟩ rfl
    exact k.trans (complete_aside _ _ _ _ _)

theorem startRollCall_aside (s : State) : Aside false s (startRollCall s) := by
  have k := abortRollCall_aside s
  rw [startRollCall_eq, State.askedRollCall]
  generalize abortRollCall s = v at k
  have k2 : Aside false v v.askedRollCall := .of_xm rfl ⟨fun _ => rfl, rfl, rfl⟩ rfl
  rw [State.askedRollCall] at k2
  unfold takeRollCall
  split
  · exact (k.trans k2).trans (beginRollCall_aside _)
  · exact k.trans k2

theorem standbyToStarting_aside (s : State) : Aside false s (standbyToStarting s) := by
  have k : Aside false s (startingReached s) := changeMode_aside _ (by decide) s
  rw [standbyToStarting_eq]
  generalize startingReached s = v at k
  have k2 : Aside false v v.enrolling := .still rfl rfl rfl
  exact (k.trans k2).trans (startRollCall_aside _)

theorem severityChange_aside (s : State) : Aside false s (severityChange s) := by
  unfold severityChange
  split
  · exact enterSafeStop_aside s
  · exact enterSafeStop_aside s
  · exact enterTripped_aside s
  · exact enterTripped_aside s
  · exact enterTripped_aside s
  · split
    · exact enterTripped_aside s
    · exact standbyToStarting_aside s
  · exact .refl false s

theorem deliver_aside (s : State) : Aside false s (deliver s) := by
  unfold deliver
  split
  · split
    · exact .refl false s
    · unfold deliverSummary
      exact ((updatePru_aside _ s).trans (announceSummary_aside _)).trans (severityChange_aside _)
  · exact deliverSets_aside s

/-- The deliveries write aside of the banks' heat sections, and cut a phase once at most. -/
theorem settle_aside (s : State) : Aside false s (settle s) :=
  settle_of_deliver (P := Aside false s) (fun _ h => h.trans (deliver_aside _)) (.refl false s)

end

end Sys2Proof.Machine
end

section
/-! What the deliveries of the fault table leave of the wheel link: the records, the rounds and the order where
the mode does not go back from STANDBY to STARTING, the STC over a silent SAU, and the entries of the loss
conditions. -/

namespace Sys2Proof.Machine

section
variable {a b c s t u : State} {x y z : Stc}

/-! ### The STC over a silent SAU (R147) -/

/-- The STC's record as R147 leaves it over a SAU that reports nothing. -/
def Stc.mute (t : Stc) : Prop :=
  t.kappa = 0 ∧ t.beta = 0 ∧ t.turn = .straight ∧ t.stale = true ∧ t.exceed = 0 ∧ t.within = 0

/-- The STC's record as R147, R153 and R158 leave it over a SAU that is gone. -/
def Stc.cut (t : Stc) : Prop := t.mute ∧ t.reserve = 0 ∧ t.cal = .none

/-- The moves of the STC's record that an announcement brings. -/
structure StcMove (x y : Stc) : Prop where
  measured : y.measured = x.measured
  mute : x.mute → y.mute
  cut : x.cut → y.cut ∧ y.calResult = x.calResult

theorem StcMove.refl (x : Stc) : StcMove x x := ⟨rfl, id, fun h => ⟨h, rfl⟩⟩

theorem StcMove.trans (h : StcMove x y) (k : StcMove y z) : StcMove x z :=
  ⟨k.measured.trans h.measured, k.mute ∘ h.mute, fun hx => by
    obtain ⟨hy, e⟩ := h.cut hx
    obtain ⟨hz, e'⟩ := k.cut hy
    exact ⟨hz, e'.trans e⟩⟩

theorem biasAllowed_stale (h : s.stc.stale = true) : s.biasAllowed = false := by
  refine Bool.eq_false_iff.2 fun k => ?_
  have hstale := ((biasAllowed_iff s).1 k).2.2.1
  rw [h] at hstale
  cases hstale

theorem evaluateBias_move (s : State) : StcMove s.stc (evaluateBias s).stc := by
  have hbeta : s.stc.mute → (evaluateBias s).stc.mute := fun ⟨h1, _, h3, h4, h5, h6⟩ =>
    ⟨h1, by rw [evaluateBias_stc, biasAllowed_stale h4]; rfl, h3, h4, h5, h6⟩
  exact ⟨rfl, hbeta, fun ⟨h1, h2, h3⟩ => ⟨⟨hbeta h1, h2, h3⟩, rfl⟩⟩

theorem endCalibrationIf_move (go : Bool) (r : Result) (shown : CalResult) (s : State) :
    StcMove s.stc (endCalibrationIf go r shown s).stc := by
  unfold endCalibrationIf
  split
  case isFalse => exact .refl _
  case isTrue h =>
    rw [endCalibration_stc]
    refine ⟨rfl, id, fun ⟨_, _, hcal⟩ => ?_⟩
    rw [hcal] at h
    simp at h

theorem announceSubstate_move (s : State) : StcMove s.stc (announceSubstate s).stc := by
  have heq : (announceSubstate s).stc = (evaluateBias (recomputeBlower (tcuSubstateChange s))).stc := by
    rw [announceSubstate_eq]
    simp
  have hbefore : (recomputeBlower (tcuSubstateChange s)).stc = s.stc := by simp
  rw [heq, ← hbefore]
  exact evaluateBias_move _

theorem setSubstate_move (sub : Substate) (target : Target) (s : State) :
    StcMove s.stc (setSubstate sub target s).stc := by
  unfold setSubstate
  split
  · exact .refl _
  · have hsame : (s.setDmc { s.dmc with substate := sub, target := target }).stc = s.stc := rfl
    rw [← hsame]
    exact announceSubstate_move _

theorem formAndMove_move (s : State) : StcMove s.stc (formAndMove s).stc := by
  have h := setSubstate_move (formDemands s).movedSubstate.1 (formDemands s).movedSubstate.2 (formDemands s)
  have hsame : (formDemands s).stc = s.stc := rfl
  rw [hsame] at h
  unfold formAndMove endChangeover
  dsimp only
  generalize setSubstate (formDemands s).movedSubstate.1 (formDemands s).movedSubstate.2 (formDemands s) = t at h ⊢
  split
  · exact h.trans (setSubstate_move _ _ _)
  · exact h

theorem stcModeChange_move (s : State) : StcMove s.stc (stcModeChange s).stc := by
  simp only [stcModeChange, runAll, putStcSection_stc]
  exact endCalibrationIf_move _ _ _ s

theorem changeMode_move {m : Mode} (f : Dmc → Dmc) (hm : m ≠ .standby) (s : State) :
    StcMove s.stc (changeMode m f s).stc := by
  have hannounced : StcMove s.stc (modeAnnounced m f s).stc := by
    have hshown : (modeShown m f s).stc = s.stc := by simp [modeShown]
    unfold modeAnnounced
    split
    · rw [hshown]
      exact .refl _
    · rw [← hshown]
      exact announceSubstate_move _
  have hrgc : (rgcModeChange (modeAnnounced m f s)).stc = (modeAnnounced m f s).stc := by simp
  rw [changeMode_eq, wlcModeChange_idle (by simpa [State.movedDmc] using hm)]
  rw [← hrgc] at hannounced
  exact hannounced.trans (stcModeChange_move _)

theorem forgetAngle_mute (s : State) : (forgetAngle s).stc.mute := ⟨rfl, rfl, rfl, rfl, rfl, rfl⟩

/-- The STC after a change of the SAU's record: silent over one that reports nothing, cut over one that is
gone. -/
theorem sauChange_stc (s : State) : (sauChange s).stc.measured = s.stc.measured ∧
    (s.sauSilent = true → (sauChange s).stc.mute) ∧
    (s.sauGone = true → (sauChange s).stc.cut ∧
      (sauChange s).stc.calResult = if s.stc.cal = .none then s.stc.calResult else .unitAbsent) := by
  have hgone : s.sauGone = true → s.sauSilent = true := fun h => by
    unfold State.sauGone State.sauSilent UnitRec.reporting at *
    cases hc : s.wlc.sau.configured <;> cases hp : s.wlc.sau.present <;> simp_all
  have hfirst : (if s.sauSilent then forgetAngle s else s).stc.measured = s.stc.measured ∧
      (if s.sauSilent then forgetAngle s else s).stc.cal = s.stc.cal ∧
      (if s.sauSilent then forgetAngle s else s).stc.calResult = s.stc.calResult ∧
      (if s.sauSilent then forgetAngle s else s).sauGone = s.sauGone ∧
      (s.sauSilent = true → (if s.sauSilent then forgetAngle s else s).stc.mute) := by
    split
    · exact ⟨rfl, rfl, rfl, rfl, fun _ => forgetAngle_mute s⟩
    case isFalse h => exact ⟨rfl, rfl, rfl, rfl, fun k => absurd k h⟩
  simp only [sauChange, runAll, putStcSection_stc]
  generalize (if s.sauSilent then forgetAngle s else s) = t at hfirst
  obtain ⟨hmeasured, hcal, hresult, hsame, hmute⟩ := hfirst
  have hmove := endCalibrationIf_move t.sauGone .unitAbsent .unitAbsent t
  have hwlc : (endCalibrationIf t.sauGone .unitAbsent .unitAbsent t).wlc = t.wlc := by simp
  have hended : t.sauGone = true → (endCalibrationIf t.sauGone .unitAbsent .unitAbsent t).stc.cal = .none ∧
      (endCalibrationIf t.sauGone .unitAbsent .unitAbsent t).stc.calResult =
        if s.stc.cal = .none then s.stc.calResult else .unitAbsent := fun h => by
    unfold endCalibrationIf
    rw [h, ← hcal, ← hresult]
    by_cases hn : t.stc.cal = .none
    · simp [hn]
    · rw [if_pos (by simp [hn]), endCalibration_stc, if_neg hn]
      exact ⟨rfl, rfl⟩
  generalize endCalibrationIf t.sauGone .unitAbsent .unitAbsent t = v at hmove hwlc hended
  have hbias := evaluateBias_move (formReserve v)
  refine ⟨?_, fun h => hbias.mute (hmove.mute (hmute h)), fun h => ?_⟩
  · rw [hbias.measured]
    exact hmove.measured.trans hmeasured
  · obtain ⟨hnone, hres⟩ := hended (hsame.trans h)
    have hreserve : (formReserve v).stc.reserve = 0 := by
      have hv : (v.wlc.sau.configured && v.wlc.sau.present) = false := by
        have e : t.sauGone = true := hsame.trans h
        rw [State.sauGone, ← hwlc] at e
        simpa only [Bool.not_eq_true'] using e
      show (if v.wlc.sau.configured && v.wlc.sau.present then _ else 0) = 0
      rw [hv]
      rfl
    have hcut : (formReserve v).stc.cut := ⟨hmove.mute (hmute (hgone h)), hreserve, hnone⟩
    obtain ⟨h1, h2⟩ := hbias.cut hcut
    exact ⟨h1, h2.trans hres⟩

/-! ### A silent SAU, and one that is gone -/

/-- The SAU's record is LOST, ABSENT or dropped from the configuration. -/
def State.sauDropped (s : State) : Prop :=
  s.wlc.sau.state = .absent ∨ s.wlc.sau.state = .lost ∨ s.wlc.sau.configured = false ∧ s.cfg.unit .sau = false

/-- The SAU's record gives the STC nothing. -/
def State.sauMute (s : State) : Prop := s.wlc.sau.held = .none ∨ s.sauDropped

/-- The SAU gives nothing, and the STC has taken notice. -/
def State.hushed (s : State) : Prop := s.sauMute ∧ s.stc.mute

/-- The SAU is gone, and the STC has taken notice. -/
def State.severed (s : State) : Prop := s.sauDropped ∧ s.stc.cut

theorem sauGone_of_dropped (h : s.sauDropped) : s.sauGone = true := by
  unfold State.sauGone UnitRec.present
  rcases h with h | h | ⟨h, _⟩ <;> simp [h]

theorem sauSilent_of_mute (h : s.sauMute) : s.sauSilent = true := by
  rcases h with h | h
  · simp [State.sauSilent, UnitRec.reporting, h]
  · have k := sauGone_of_dropped h
    simp only [State.sauGone, Bool.not_eq_true', Bool.and_eq_false_iff] at k
    rcases k with k | k <;> simp [State.sauSilent, UnitRec.reporting, k]

theorem sauDropped_congr (hwlc : t.wlc.sau = s.wlc.sau) (hcfg : t.cfg = s.cfg) : t.sauDropped ↔ s.sauDropped := by
  rw [State.sauDropped, State.sauDropped, hwlc, hcfg]

theorem sauMute_congr (hwlc : t.wlc.sau = s.wlc.sau) (hcfg : t.cfg = s.cfg) : t.sauMute ↔ s.sauMute := by
  rw [State.sauMute, State.sauMute, sauDropped_congr hwlc hcfg, hwlc]

/-! ### The relation that the deliveries keep -/

/-- The entries of a unit's loss condition. -/
def State.lossEntries (s : State) (u : UnitId) : List Entry :=
  s.pru.entries.filter fun e => e.kind == lossKind u && e.subject == lossSubject u

/-- The part has gone back from STANDBY to ENROLL. -/
def State.returned (s : State) : Prop := s.dmc.mode = .starting ∧ s.cfl.phase = .enroll

/-- The rounds, the order and the records stay, but for the torque slots and a QUIET request; so do the entries of
the loss conditions and the link sections. -/
structure LinkHeld (a b : State) : Prop where
  wlc : b.wlc = { a.wlc with quiet := b.wlc.quiet, wheels := b.wlc.wheels }
  wheels : ∀ w, b.wlc.wheels.get w =
    { a.wlc.wheels.get w with slotValue := (b.wlc.wheels.get w).slotValue }
  enroll : b.ore.enroll = a.ore.enroll
  standby : b.dmc.mode = .standby → a.dmc.mode = .standby
  starting : b.dmc.mode = .starting → a.dmc.mode = .starting
  losses : ∀ u, b.lossEntries u = a.lossEntries u
  aside : Aside true a b

/-- What the deliveries keep of the wheel link. -/
structure Wired (a b : State) : Prop where
  active : b.cfl.active = a.cfl.active
  measured : b.stc.measured = a.stc.measured
  hushed : a.hushed → b.hushed
  severed : a.severed → b.severed ∧ b.stc.calResult = a.stc.calResult
  returned : a.returned → b.returned
  way : LinkHeld a b ∨ b.returned ∧ a.dmc.mode = .standby

theorem LinkHeld.refl (a : State) : LinkHeld a a := ⟨rfl, fun _ => rfl, rfl, id, id, fun _ => rfl, .refl true a⟩

theorem LinkHeld.trans (h : LinkHeld a b) (k : LinkHeld b c) : LinkHeld a c where
  wlc := by rw [k.wlc, h.wlc]
  wheels w := by rw [k.wheels, h.wheels]
  enroll := k.enroll.trans h.enroll
  standby := h.standby ∘ k.standby
  starting := h.starting ∘ k.starting
  losses u := (k.losses u).trans (h.losses u)
  aside := h.aside.trans k.aside

theorem Wired.trans (h : Wired a b) (k : Wired b c) : Wired a c where
  active := k.active.trans h.active
  measured := k.measured.trans h.measured
  hushed := k.hushed ∘ h.hushed
  severed hs := by
    obtain ⟨hb, e⟩ := h.severed hs
    obtain ⟨hc, e'⟩ := k.severed hb
    exact ⟨hc, e'.trans e⟩
  returned := k.returned ∘ h.returned
  way := by
    rcases h.way with hh | ⟨hr, hm⟩
    · rcases k.way with hk | ⟨hr, hm⟩
      · exact .inl (hh.trans hk)
      · exact .inr ⟨hr, hh.standby hm⟩
    · exact .inr ⟨k.returned hr, hm⟩

/-- A step that leaves the records, the rounds, the order and the loss entries. -/
theorem Wired.of_held (hl : LinkHeld a b) (hsau : b.wlc.sau = a.wlc.sau) (hactive : b.cfl.active = a.cfl.active)
    (hstc : StcMove a.stc b.stc) (hret : a.returned → b.returned) : Wired a b where
  active := hactive
  measured := hstc.measured
  hushed h := ⟨(sauMute_congr hsau hactive).2 h.1, hstc.mute h.2⟩
  severed h := by
    obtain ⟨hc, e⟩ := hstc.cut h.2
    exact ⟨⟨(sauDropped_congr hsau hactive).2 h.1, hc⟩, e⟩
  returned := hret
  way := .inl hl

/-- A step beside the wheel link. -/
theorem Wired.calm (hwlc : b.wlc = a.wlc) (hstc : b.stc = a.stc) (hcfl : b.cfl = a.cfl)
    (hmode : b.dmc.mode = a.dmc.mode) (henroll : b.ore.enroll = a.ore.enroll)
    (hentries : ∀ u, b.lossEntries u = a.lossEntries u) (haside : Aside true a b) : Wired a b := by
  refine .of_held ⟨by rw [hwlc], fun w => by rw [hwlc], henroll, ?_, ?_, hentries, haside⟩ (by rw [hwlc]) (by rw [hcfl])
    (by rw [hstc]; exact .refl _) ?_
  · rw [hmode]; exact id
  · rw [hmode]; exact id
  · rw [State.returned, State.returned, hmode, hcfl]
    exact id

theorem Wired.refl (a : State) : Wired a a := .calm rfl rfl rfl rfl rfl (fun _ => rfl) (.refl true a)

/-! ### The fault table's part -/

theorem lossEntries_congr (h : t.pru.entries = s.pru.entries) (u : UnitId) : t.lossEntries u = s.lossEntries u := by
  rw [State.lossEntries, State.lossEntries, h]

theorem updatePru_losses {p : Pru} (h : p.entries = s.pru.entries) (u : UnitId) :
    (updatePru p s).lossEntries u = s.lossEntries u :=
  lossEntries_congr (by rw [updatePru_pru]; exact h) u

/-- An observation of another pair leaves the entries of a loss condition. -/
theorem note_losses {k : Kind} {subject : Subject} {v : UnitId} (h : ¬(k = lossKind v ∧ subject = lossSubject v))
    (present : Bool) (s : State) : (note k subject present s).lossEntries v = s.lossEntries v := by
  rw [State.lossEntries, State.lossEntries, note_pru]
  refine observeEntries_pairs (fun e f h1 h2 => by rw [h1, h2]) fun e h1 h2 => ?_
  rw [h1, h2]
  simp only [Bool.and_eq_false_iff, beq_eq_false_iff_ne]
  exact not_and_or.1 h

theorem noteIf_losses {k : Kind} {subject : Subject} {v : UnitId} (h : ¬(k = lossKind v ∧ subject = lossSubject v))
    (go present : Bool) (s : State) : (noteIf go k subject present s).lossEntries v = s.lossEntries v := by
  unfold noteIf
  split
  · exact note_losses h present s
  · rfl

theorem observeEscalation_losses (s : State) (v : UnitId) : (observeEscalation s).lossEntries v = s.lossEntries v := by
  have h1 : ∀ p : Bool, ∀ u : State, (note .noTractionUnits .global p u).lossEntries v = u.lossEntries v :=
    fun p u => note_losses (by cases v <;> simp [lossKind]) p u
  have h2 : ∀ p : Bool, ∀ u : State, (note .noGrid .global p u).lossEntries v = u.lossEntries v :=
    fun p u => note_losses (by cases v <;> simp [lossKind]) p u
  unfold observeEscalation
  rw [h2, h1]

theorem excludeAtTcu_losses (w : Wheel) (s : State) (v : UnitId) : (excludeAtTcu w s).lossEntries v = s.lossEntries v := by
  simp only [excludeAtTcu]
  rw [noteIf_losses (by cases v <;> simp [lossKind])]
  exact lossEntries_congr (by simp) v

theorem tcuExclusion_losses (before : PerWheel Bool) (s : State) (v : UnitId) :
    (tcuExclusion before s).lossEntries v = s.lossEntries v := by
  have step : ∀ w s, (takeExclusion before w s).lossEntries v = s.lossEntries v := by
    intro w s
    unfold takeExclusion
    split
    · exact excludeAtTcu_losses w s v
    · rfl
  rw [tcuExclusion_eq]
  refine (lossEntries_congr (s := forWheels (takeExclusion before) s) (by simp) v).trans ?_
  exact (step .w4 _).trans ((step .w3 _).trans ((step .w2 _).trans (step .w1 _)))

/-! ### The orders that the grid's part can end -/

/-- The resources of the calibration and of the roll call stay. -/
structure OrdersKept (a b : State) : Prop where
  steer : b.ore.steer = a.ore.steer
  enroll : b.ore.enroll = a.ore.enroll

theorem OrdersKept.of_ore (h : t.ore = s.ore) : OrdersKept s t := ⟨by rw [h], by rw [h]⟩

theorem OrdersKept.trans (h : OrdersKept a b) (k : OrdersKept b c) : OrdersKept a c :=
  ⟨k.steer.trans h.steer, k.enroll.trans h.enroll⟩

theorem complete_grid_orders (cell : BitVec 6) (result : Result) (detail : List Word) (s : State) :
    OrdersKept s (complete .grid cell result detail s) := by
  by_cases h : s.ore.inFlight .grid = some cell
  · have e := complete_ore (r := result) (detail := detail) h
    exact ⟨by rw [e]; rfl, by rw [e]; rfl⟩
  · rw [complete_dropped h]
    exact ⟨rfl, rfl⟩

theorem nextBank_orders (s : State) : OrdersKept s (nextBank s) := by
  cases ht : s.rgc.test with
  | none =>
    simp only [nextBank, ht]
    exact .of_ore rfl
  | some g =>
    cases hw : g.waiting with
    | nil =>
      rw [nextBank_none ht hw]
      exact (OrdersKept.of_ore (by simp)).trans (complete_grid_orders _ _ _ _)
    | cons d rest =>
      rw [nextBank_some ht hw]
      exact .of_ore (by simp [State.nextShown])

theorem skipAdded_orders (before : PerBank Bool) (b : Bank) (s : State) : OrdersKept s (skipAdded before b s) := by
  unfold skipAdded skipWaiting
  split
  · cases s.rgc.test with
    | none => exact .of_ore rfl
    | some g =>
      dsimp only
      split <;> exact .of_ore (by simp)
  · exact .of_ore rfl

theorem skipCurrent_orders (s : State) : OrdersKept s (skipCurrent s) := by
  unfold skipCurrent
  cases s.rgc.test with
  | none => exact .of_ore rfl
  | some g =>
    dsimp only
    cases g.current with
    | none => exact .of_ore rfl
    | some b =>
      dsimp only
      split
      · exact (OrdersKept.of_ore (by simp)).trans (nextBank_orders _)
      · exact .of_ore rfl

theorem rgcExclusion_orders (before : PerBank Bool) (s : State) : OrdersKept s (rgcExclusion before s) := by
  have k : OrdersKept s (if s.pru.bankEx = before then s else followBanks before s) := by
    split
    · exact .of_ore rfl
    · rw [followBanks_eq]
      have k0 : OrdersKept s (sortRotation s) := .of_ore rfl
      have k1 := forBanks_steps (P := OrdersKept) OrdersKept.trans (skipAdded_orders before) (sortRotation s)
      exact ((k0.trans k1).trans (skipCurrent_orders _)).trans (.of_ore (by simp))
  exact ⟨k.steer, k.enroll⟩

theorem abortTestIf_orders (go : Bool) (s : State) : OrdersKept s (abortTestIf go s) := by
  unfold abortTestIf
  cases s.rgc.test with
  | none => exact .of_ore rfl
  | some g =>
    dsimp only
    split
    · exact (OrdersKept.of_ore (by simp)).trans (complete_grid_orders _ _ _ _)
    · exact .of_ore rfl

theorem rgcModeChange_orders (s : State) : OrdersKept s (rgcModeChange s) := by
  have k := abortTestIf_orders (!((startDischarge s).dmc.mode == .ready || (startDischarge s).dmc.mode == .standby))
    (startDischarge s)
  have k0 : OrdersKept s (startDischarge s) := .of_ore (by simp [startDischarge])
  refine (k0.trans k).trans (.of_ore ?_)
  rw [rgcModeChange_eq, causesReady]
  simp

theorem complete_steer_enroll (cell : BitVec 6) (result : Result) (detail : List Word) (s : State) :
    (complete .steer cell result detail s).ore.enroll = s.ore.enroll := by
  by_cases h : s.ore.inFlight .steer = some cell
  · rw [complete_ore (r := result) (detail := detail) h]
    rfl
  · rw [complete_dropped h]

theorem endCalibrationIf_enroll (go : Bool) (r : Result) (shown : CalResult) (s : State) :
    (endCalibrationIf go r shown s).ore.enroll = s.ore.enroll := by
  unfold endCalibrationIf endCalibration
  split
  · rw [complete_steer_enroll]
    rfl
  · rfl

theorem changeMode_enroll {m : Mode} (f : Dmc → Dmc) (hm : m ≠ .standby) (s : State) :
    (changeMode m f s).ore.enroll = s.ore.enroll := by
  have hannounced : (modeAnnounced m f s).ore = s.ore := by
    unfold modeAnnounced
    split <;> simp [modeShown]
  rw [changeMode_eq, wlcModeChange_idle (by simpa [State.movedDmc] using hm)]
  simp only [stcModeChange, runAll, putStcSection_frame]
  rw [endCalibrationIf_enroll, (rgcModeChange_orders _).enroll, hannounced]

end

end Sys2Proof.Machine
end

section
/-! The deliveries and the end of SETTLE keep the wheel link wired. -/

namespace Sys2Proof.Machine

section
variable {a b s t u v : State} {m : Mode}

/-! ### A QUIET request and a change of the mode -/

theorem requestQuiet_wired (s : State) : Wired s (requestQuiet s) := by
  refine .of_held ⟨by simp [requestQuiet, forWheels, setSlot], fun w => ?_, by simp, by simp, by simp,
    lossEntries_congr (by simp), requestQuiet_aside s⟩
    (by simp [requestQuiet, forWheels, setSlot]) (by simp) (by simp; exact .refl _) (by simp [State.returned])
  cases w <;> simp [requestQuiet, forWheels, setSlot, PerWheel_get_set]

/-- The mode is changed to one that neither stops the rounds nor begins anew. -/
theorem changeMode_wired (f : Dmc → Dmc) (h1 : m ≠ .standby) (h2 : m ≠ .starting) (hs : s.dmc.mode ≠ .starting) :
    Wired s (changeMode m f s) := by
  have hwlc := changeMode_wlc (f := f) (s := s) h1
  have hmode : (changeMode m f s).dmc.mode = m := by rw [changeMode_dmc]; rfl
  exact .of_held ⟨by rw [hwlc], fun w => by rw [hwlc], changeMode_enroll f h1 s,
    fun h => absurd (hmode.symm.trans h) h1, fun h => absurd (hmode.symm.trans h) h2, lossEntries_congr (by simp),
    changeMode_aside f h1 s⟩ (by rw [hwlc]) (by simp) (changeMode_move f h1 s) (fun h => absurd h.1 hs)

/-- The same out of STARTING, at the end of SETTLE. -/
theorem changeMode_wired_settle (f : Dmc → Dmc) (h1 : m ≠ .standby) (h2 : m ≠ .starting)
    (hs : s.cfl.phase ≠ .enroll) : Wired s (changeMode m f s) := by
  have hwlc := changeMode_wlc (f := f) (s := s) h1
  have hmode : (changeMode m f s).dmc.mode = m := by rw [changeMode_dmc]; rfl
  exact .of_held ⟨by rw [hwlc], fun w => by rw [hwlc], changeMode_enroll f h1 s,
    fun h => absurd (hmode.symm.trans h) h1, fun h => absurd (hmode.symm.trans h) h2, lossEntries_congr (by simp),
    changeMode_aside f h1 s⟩ (by rw [hwlc]) (by simp) (changeMode_move f h1 s) (fun h => absurd h.2 hs)

theorem formAndMove_wired (s : State) : Wired s (formAndMove s) := by
  have hmode : (formAndMove s).dmc.mode = s.dmc.mode := by rw [formAndMove_dmc]; rfl
  have hwlc : (formAndMove s).wlc = s.wlc := by simp
  exact .of_held ⟨by rw [hwlc], fun w => by rw [hwlc], by simp, by rw [hmode]; exact id, by rw [hmode]; exact id,
    lossEntries_congr (by simp), formAndMove_aside s⟩
    (by rw [hwlc]) (by simp) (formAndMove_move s) (by rw [State.returned, State.returned, hmode]; simp)

theorem enterTripped_wired (h : s.dmc.mode ≠ .starting ∨ s.cfl.phase ≠ .enroll) : Wired s (enterTripped s) := by
  refine Wired.trans ?_ (requestQuiet_wired _)
  rcases h with h | h
  · exact changeMode_wired _ (by decide) (by decide) h
  · exact changeMode_wired_settle _ (by decide) (by decide) h

theorem enterSafeStop_wired (h : s.dmc.mode ≠ .starting ∨ s.cfl.phase ≠ .enroll) : Wired s (enterSafeStop s) := by
  refine Wired.trans ?_ (formAndMove_wired _)
  rcases h with h | h
  · exact changeMode_wired _ (by decide) (by decide) h
  · exact changeMode_wired_settle _ (by decide) (by decide) h

theorem enterReady_wired (h : s.cfl.phase ≠ .enroll) : Wired s (enterReady s) := by
  have k : Wired s (readyReached s) := changeMode_wired_settle _ (by decide) (by decide) h
  rw [enterReady_eq]
  split
  · refine k.trans (enterSafeStop_wired (.inr ?_))
    simpa [readyReached] using h
  · exact k

/-! ### The way back to STARTING -/

theorem sauDropped_of_configured {r : UnitRec} (h : s.sauDropped)
    (hr : (r = { s.wlc.sau with configured := true } ∧ s.cfg.unit .sau = true) ∨ r.state = .absent) :
    (s.setWlc (s.wlc.setUnit .sau r)).sauDropped := by
  rcases hr with ⟨rfl, hc⟩ | hr
  · rcases h with h | h | h
    · exact .inl h
    · exact .inr (.inl h)
    · rw [hc] at h
      cases h.2
  · exact .inl hr

theorem sauChange_severed (h : s.sauDropped) (hcal : s.stc.cal = .none) :
    (sauChange s).severed ∧ (sauChange s).stc.calResult = s.stc.calResult := by
  obtain ⟨hc, hr⟩ := (sauChange_stc s).2.2 (sauGone_of_dropped h)
  rw [if_pos hcal] at hr
  exact ⟨⟨(sauDropped_congr (t := sauChange s) (by simp) (congrArg Cfl.active (by simp))).2 h, hc⟩, hr⟩

/-- A step that the records' part of a way back to STARTING is made of. -/
structure WayBack (a b : State) : Prop where
  active : b.cfl.active = a.cfl.active
  measured : b.stc.measured = a.stc.measured
  hushed : a.hushed → b.hushed
  severed : a.severed → b.severed ∧ b.stc.calResult = a.stc.calResult
  mode : b.dmc.mode = a.dmc.mode
  phase : b.cfl.phase = a.cfl.phase

theorem WayBack.trans {c : State} (h : WayBack a b) (k : WayBack b c) : WayBack a c where
  active := k.active.trans h.active
  measured := k.measured.trans h.measured
  hushed := k.hushed ∘ h.hushed
  severed hs := by
    obtain ⟨hb, e⟩ := h.severed hs
    obtain ⟨hc, e'⟩ := k.severed hb
    exact ⟨hc, e'.trans e⟩
  mode := k.mode.trans h.mode
  phase := k.phase.trans h.phase

theorem WayBack.of_sau (hsau : b.wlc.sau = a.wlc.sau) (hcfl : b.cfl = a.cfl) (hstc : b.stc = a.stc)
    (hmode : b.dmc.mode = a.dmc.mode) : WayBack a b where
  active := by rw [hcfl]
  measured := by rw [hstc]
  hushed h := ⟨(sauMute_congr hsau (congrArg Cfl.active hcfl)).2 h.1, by rw [hstc]; exact h.2⟩
  severed h := ⟨⟨(sauDropped_congr hsau (congrArg Cfl.active hcfl)).2 h.1, by rw [hstc]; exact h.2⟩, by rw [hstc]⟩
  mode := hmode
  phase := by rw [hcfl]

theorem WayBack.refl (a : State) : WayBack a a := .of_sau rfl rfl rfl rfl

theorem sauMute_of_taken {r : UnitRec} (h : s.sauMute)
    (hr : (r = { s.wlc.sau with configured := true } ∧ s.cfg.unit .sau = true) ∨ r.state = .absent) :
    (s.setWlc (s.wlc.setUnit .sau r)).sauMute := by
  rcases h with h | h
  · rcases hr with ⟨rfl, _⟩ | hr
    · exact .inl h
    · exact .inr (.inl hr)
  · exact .inr (sauDropped_of_configured h hr)

/-- A record that takes up the configured set. -/
theorem changeUnit_wayBack {x : UnitId} {r : UnitRec}
    (hr : (r = { s.wlc.unit x with configured := true } ∧ s.cfg.unit x = true) ∨ r.state = .absent) :
    WayBack s (changeUnit x r s) := by
  have hsame : (changeUnit x r s).cfl = s.cfl ∧ (changeUnit x r s).dmc = s.dmc := by simp
  obtain ⟨hcfl, hdmc⟩ := hsame
  cases x with
  | wheel w =>
    have hset : changeUnit (.wheel w) r s = s.setWlc (s.wlc.setUnit (.wheel w) r) := by
      unfold changeUnit
      exact if_neg fun h => by cases h.1
    rw [hset]
    exact .of_sau rfl rfl rfl rfl
  | sau =>
    have hstc : (changeUnit .sau r s).stc = (s.setWlc (s.wlc.setUnit .sau r)).stc ∨
        (changeUnit .sau r s).stc = (sauChange (s.setWlc (s.wlc.setUnit .sau r))).stc := by
      unfold changeUnit
      dsimp only
      split
      · exact .inr rfl
      · exact .inl rfl
    have hsau : (changeUnit .sau r s).wlc.sau = (s.setWlc (s.wlc.setUnit .sau r)).wlc.sau := by rw [changeUnit_wlc]; rfl
    have hcfg : (changeUnit .sau r s).cfg = (s.setWlc (s.wlc.setUnit .sau r)).cfg := congrArg Cfl.active hcfl
    have hmute : s.sauMute → (s.setWlc (s.wlc.setUnit .sau r)).sauMute := fun h => sauMute_of_taken h hr
    have hdrop : s.sauDropped → (s.setWlc (s.wlc.setUnit .sau r)).sauDropped := fun h => sauDropped_of_configured h hr
    have hbefore : (s.setWlc (s.wlc.setUnit .sau r)).stc = s.stc := rfl
    generalize s.setWlc (s.wlc.setUnit .sau r) = v at hstc hsau hcfg hmute hdrop hbefore
    refine ⟨by rw [hcfl], ?_, fun h => ⟨(sauMute_congr hsau hcfg).2 (hmute h.1), ?_⟩,
      fun h => ?_, by rw [hdmc], by rw [hcfl]⟩
    · rcases hstc with e | e
      · rw [e, hbefore]
      · rw [e, (sauChange_stc v).1, hbefore]
    · rcases hstc with e | e
      · rw [e, hbefore]
        exact h.2
      · rw [e]
        exact (sauChange_stc v).2.1 (sauSilent_of_mute (hmute h.1))
    · have hd := (sauDropped_congr hsau hcfg).2 (hdrop h.1)
      rcases hstc with e | e
      · rw [State.severed, e, hbefore]
        exact ⟨⟨hd, h.2⟩, rfl⟩
      · obtain ⟨k1, k2⟩ := sauChange_severed (hdrop h.1) (by rw [hbefore]; exact h.2.2.2)
        rw [State.severed, e]
        exact ⟨⟨hd, k1.2⟩, k2.trans (by rw [hbefore])⟩

theorem reportLoss_losses {x v : UnitId} (h : v ≠ x) (present : Bool) (s : State) :
    (reportLoss x present s).lossEntries v = s.lossEntries v := by
  cases x with
  | wheel w =>
    refine (note_losses (v := v) ?_ present _).trans rfl
    cases v with
    | wheel y =>
      intro hc
      exact h (congrArg UnitId.wheel (Subject.wheel.inj hc.2).symm)
    | sau => simp [lossKind]
  | sau =>
    refine note_losses (v := v) ?_ present _
    cases v with
    | wheel y => simp [lossKind]
    | sau => exact absurd rfl h

theorem takeConfigured_wayBack (x : UnitId) (s : State) : WayBack s (takeConfigured x s) := by
  unfold takeConfigured
  dsimp only
  by_cases hx : s.cfg.unit x = true
  · rw [if_pos hx]
    exact changeUnit_wayBack (.inl ⟨rfl, hx⟩)
  · rw [if_neg hx]
    by_cases hc : (s.wlc.unit x).configured = true
    · rw [if_pos hc]
      have k : WayBack s (changeUnit x { (s.wlc.unit x).absent with configured := false } s) :=
        changeUnit_wayBack (.inr rfl)
      generalize changeUnit x { (s.wlc.unit x).absent with configured := false } s = t at k
      exact k.trans (.of_sau (by simp) (by simp) (by simp) (by simp))
    · rw [if_neg hc]
      exact .refl s

theorem unitsTaken_wayBack (s : State) : WayBack s (forUnits takeConfigured s) := by
  simp only [forUnits, forWheels]
  exact ((((takeConfigured_wayBack _ _).trans (takeConfigured_wayBack _ _)).trans (takeConfigured_wayBack _ _)).trans
    (takeConfigured_wayBack _ _)).trans (takeConfigured_wayBack _ _)

theorem beginRollCall_wayBack (s : State) : WayBack s (beginRollCall s) := by
  have k := unitsTaken_wayBack s
  unfold beginRollCall
  generalize forUnits takeConfigured s = t at k
  exact k.trans (.of_sau rfl rfl rfl rfl)

theorem takeRollCall_wayBack (s : State) : WayBack s (takeRollCall s) := by
  unfold takeRollCall
  split
  · exact beginRollCall_wayBack s
  · exact .refl s

theorem startRollCall_wayBack (s : State) : WayBack s (startRollCall s) := by
  have hask : WayBack s (abortRollCall s).askedRollCall := by
    refine .of_sau ?_ (by simp [State.askedRollCall]) (by simp [State.askedRollCall]) (by simp [State.askedRollCall])
    show (abortRollCall s).wlc.sau = s.wlc.sau
    rw [abortRollCall_wlc]
    split <;> rfl
  rw [startRollCall_eq]
  generalize (abortRollCall s).askedRollCall = t at hask
  exact hask.trans (takeRollCall_wayBack t)

theorem standbyToStarting_wired (h : s.dmc.mode = .standby) : Wired s (standbyToStarting s) := by
  have hwlc := startingReached_wlc s
  have hcfl := startingReached_cfl s
  have hmove := changeMode_move (m := .starting) (fun d => d.atRest) (by decide) s
  have hmode : (startingReached s).dmc.mode = .starting := by rw [startingReached_dmc]
  rw [standbyToStarting_eq]
  rw [← startingReached] at hmove
  generalize startingReached s = t at hwlc hcfl hmove hmode
  have k := startRollCall_wayBack t.enrolling
  have hactive : t.enrolling.cfl.active = s.cfl.active := by
    show t.cfl.active = s.cfl.active
    rw [hcfl]
  have hsau : t.enrolling.wlc.sau = s.wlc.sau := congrArg Wlc.sau hwlc
  have hstc : t.enrolling.stc = t.stc := rfl
  have hm : t.enrolling.dmc.mode = .starting ∧ t.enrolling.cfl.phase = .enroll := ⟨hmode, rfl⟩
  generalize t.enrolling = x at k hactive hsau hstc hm
  have hret : (startRollCall x).returned := ⟨k.mode.trans hm.1, k.phase.trans hm.2⟩
  refine ⟨k.active.trans hactive, ?_, fun h => k.hushed ⟨(sauMute_congr hsau hactive).2 h.1, ?_⟩, fun h => ?_,
    fun _ => hret, .inr ⟨hret, h⟩⟩
  · rw [k.measured, hstc]
    exact hmove.measured
  · rw [hstc]
    exact hmove.mute h.2
  · obtain ⟨hcut, hres⟩ := hmove.cut h.2
    rw [← hstc] at hcut hres
    obtain ⟨h1, h2⟩ := k.severed ⟨(sauDropped_congr hsau hactive).2 h.1, hcut⟩
    exact ⟨h1, h2.trans hres⟩

/-! ### The deliveries -/

theorem severityChange_wired (s : State) : Wired s (severityChange s) := by
  unfold severityChange
  split
  · rename_i _ hm
    exact enterSafeStop_wired (.inl (by rw [hm]; decide))
  · rename_i _ hm
    exact enterSafeStop_wired (.inl (by rw [hm]; decide))
  · rename_i _ hm
    exact enterTripped_wired (.inl (by rw [hm]; decide))
  · rename_i _ hm
    exact enterTripped_wired (.inl (by rw [hm]; decide))
  · rename_i _ hm
    exact enterTripped_wired (.inl (by rw [hm]; decide))
  · rename_i _ hm
    split
    · exact enterTripped_wired (.inl (by rw [hm]; decide))
    · exact standbyToStarting_wired hm
  · exact .refl s

theorem raise_wired (c : Cls) (s : State) : Wired s (raise c s) :=
  .calm (by simp) (by simp) (by simp) (by simp) (by simp) (lossEntries_congr (by simp)) (raise_aside c s)

theorem updatePru_wired {p : Pru} (h : p.entries = s.pru.entries) : Wired s (updatePru p s) :=
  .calm (by simp) (by simp) (by simp) (by simp) (by simp) (updatePru_losses h) (updatePru_aside p s)

theorem announceSummary_wired (s : State) : Wired s (announceSummary s) := by
  unfold announceSummary
  split
  · exact (requestQuiet_wired s).trans (raise_wired _ _)
  · exact raise_wired _ _
  all_goals exact .refl s

theorem deliverSets_wired (s : State) : Wired s (deliverSets s) := by
  have horders : OrdersKept s (deliverSets s) ∧ ∀ y, (deliverSets s).lossEntries y = s.lossEntries y := by
    have hp : ∀ y, (updatePru { s.pru with
        wheelEx := formWheelEx s.pru.entries, bankEx := formBankEx s.pru.entries } s).lossEntries y =
        s.lossEntries y := fun y => updatePru_losses (p := { s.pru with
        wheelEx := formWheelEx s.pru.entries, bankEx := formBankEx s.pru.entries }) rfl y
    have ho : OrdersKept s (updatePru { s.pru with
        wheelEx := formWheelEx s.pru.entries, bankEx := formBankEx s.pru.entries } s) := .of_ore (by simp)
    have hesc : ∀ u : State, (observeEscalation u).ore = u.ore := fun u => by simp
    simp only [deliverSets]
    generalize updatePru { s.pru with
        wheelEx := formWheelEx s.pru.entries, bankEx := formBankEx s.pru.entries } s = t at hp ho
    split
    · exact ⟨ho.trans (.of_ore (hesc _)), fun y => (observeEscalation_losses _ y).trans (hp y)⟩
    · have k : OrdersKept t (rgcExclusion s.pru.bankEx (tcuExclusion s.pru.wheelEx t)) :=
        (OrdersKept.of_ore (by simp)).trans (rgcExclusion_orders _ _)
      refine ⟨(ho.trans k).trans (.of_ore (hesc _)), fun y => (observeEscalation_losses _ y).trans ?_⟩
      refine (lossEntries_congr (s := tcuExclusion s.pru.wheelEx t) (by simp) y).trans ?_
      exact (tcuExclusion_losses _ _ y).trans (hp y)
  exact .calm (by simp) (by simp) (by simp) (by simp) horders.1.enroll horders.2
    (deliverSets_aside s)

theorem deliver_wired (s : State) : Wired s (deliver s) := by
  unfold deliver
  split
  · split
    · exact .refl s
    · unfold deliverSummary
      exact ((updatePru_wired (p := { s.pru with summary := formSummary s.pru.entries }) rfl).trans
        (announceSummary_wired _)).trans (severityChange_wired _)
  · exact deliverSets_wired s

theorem settle_wired (s : State) : Wired s (settle s) :=
  settle_of_deliver (P := Wired s) (fun _ h => h.trans (deliver_wired _)) (.refl s)

/-- The end of SETTLE keeps the wheel link wired. -/
theorem testSettle_wired (s : State) : Wired s (testSettle s) := by
  unfold testSettle
  split
  case isFalse => exact .refl s
  case isTrue h =>
    have k : Wired s (s.setCfl { s.cfl with phase := .complete, settleEnd := none }) :=
      .of_held ⟨rfl, fun _ => rfl, rfl, id, id, fun _ => rfl, .still rfl rfl rfl⟩ rfl rfl (.refl _) fun hr => by
        have e := hr.2
        rw [h.1] at e
        cases e
    unfold endSettle
    dsimp only
    generalize hv : s.setCfl { s.cfl with phase := .complete, settleEnd := none } = v at k
    have hphase : v.cfl.phase ≠ .enroll := fun e => by
      rw [← hv] at e
      cases e
    split
    · exact k.trans (enterTripped_wired (.inr hphase))
    · exact k.trans (enterReady_wired hphase)

end

end Sys2Proof.Machine
end

section
/-! An order cell that no resource names, and the directories, through the deliveries. -/

namespace Sys2Proof.Machine

section
variable {cells : Bool} {c : BitVec 6} {a b s t u v : State} {m : Mode} {f : Dmc → Dmc}

/-- The table names nothing that it did not name, the status blocks stay placed, the bytes of a cell that no
resource names stay, and so do the directories. -/
structure Spares (c : BitVec 6) (a b : State) : Prop where
  placed : a.wlc.placed → b.wlc.placed
  flight : ∀ q d, b.ore.inFlight q = some d → a.ore.inFlight q = some d
  cell : a.wlc.placed → (∀ q, a.ore.inFlight q ≠ some c) →
    ∀ x, cellBase c ≤ x → x < cellBase c + 64 → b.xm.byte x = a.xm.byte x
  directory : a.wlc.placed → ∀ x, 0x0030 ≤ x → x < 0x0046 → b.xm.byte x = a.xm.byte x

theorem Spares.trans (h : Spares c a s) (k : Spares c s t) : Spares c a t :=
  ⟨k.placed ∘ h.placed, fun q d e => h.flight q d (k.flight q d e),
    fun p hn x h1 h2 => (k.cell (h.placed p) (fun q e => hn q (h.flight q c e)) x h1 h2).trans (h.cell p hn x h1 h2),
    fun p x h1 h2 => (k.directory (h.placed p) x h1 h2).trans (h.directory p x h1 h2)⟩

theorem LowKept.spares (h : LowKept cells (some c) a s) : Spares c a s :=
  ⟨h.placed, h.flight, h.cell c rfl, fun p x h1 h2 =>
    h.bytes p x (by cases cells <;> simp [lowEnd] <;> omega) (.inr (by omega))⟩

theorem Spares.refl (c : BitVec 6) (a : State) : Spares c a a := (LowKept.self false (some c) a).spares

theorem Spares.of_xm (hxm : t.xm = s.xm) (hwlc : s.wlc.placed → t.wlc.placed) (hore : t.ore = s.ore) :
    Spares c s t := ((LowKept.self false (some c) s).of_xm hxm hwlc hore).spares

theorem modeShown_spares (m : Mode) (f : Dmc → Dmc) (s : State) : Spares c s (modeShown m f s) := by
  have k0 : Spares c s ((s.setDmc (s.movedDmc m f)).setTripOut (m == .tripped)) := .of_xm rfl id rfl
  unfold modeShown
  generalize (s.setDmc (s.movedDmc m f)).setTripOut (m == .tripped) = u at k0
  have k1 : Spares c u (raise .modeChange u) := (raise_low (.self false (some c) u) _).spares
  generalize raise .modeChange u = v at k1
  have k2 : Spares c v (put 0x0010 [m.code] v) := by
    have hout : ∀ x, 0x0030 ≤ x → (put 0x0010 [m.code] v).xm.byte x = v.xm.byte x := fun x hx =>
      put_byte_outside (by simp; omega)
    refine ⟨fun p => by simpa using p, fun q d e => by simpa using e, fun _ _ x h1 _ => hout x ?_,
      fun _ x h1 _ => hout x h1⟩
    have := cellBase_range c
    omega
  generalize put 0x0010 [m.code] v = w at k2
  exact ((k0.trans k1).trans k2).trans (putDmcSection_low (.self false (some c) w)).spares

theorem changeMode_spares (m : Mode) (f : Dmc → Dmc) (s : State) : Spares c s (changeMode m f s) :=
  (modeShown_spares m f s).trans (changeMode_low (cells := false) (by simp)).spares

theorem enterTripped_spares (s : State) : Spares c s (enterTripped s) := by
  have k := changeMode_spares (c := c) .tripped (fun d => { d.atRest with credit := false }) s
  unfold enterTripped
  generalize changeMode .tripped (fun d => { d.atRest with credit := false }) s = u at k
  exact k.trans (requestQuiet_low (.self false (some c) u)).spares

theorem enterSafeStop_spares (s : State) : Spares c s (enterSafeStop s) := by
  have k := changeMode_spares (c := c) .safeStop (fun d => { d with pendingDir := none, stopTime := 0 }) s
  unfold enterSafeStop
  generalize changeMode .safeStop (fun d => { d with pendingDir := none, stopTime := 0 }) s = u at k
  exact k.trans (formAndMove_low (.self false (some c) u)).spares

theorem enterReady_spares (s : State) : Spares c s (enterReady s) := by
  have k : Spares c s (readyReached s) := changeMode_spares _ _ s
  rw [enterReady_eq]
  split
  · exact k.trans (enterSafeStop_spares _)
  · exact k

theorem standbyToStarting_spares (s : State) : Spares c s (standbyToStarting s) := by
  have k : Spares c s (startingReached s) := changeMode_spares _ _ s
  rw [standbyToStarting_eq]
  generalize startingReached s = u at k
  have k2 : Spares c u u.enrolling := .of_xm rfl id rfl
  exact (k.trans k2).trans (startRollCall_low (.self false (some c) _)).spares

theorem severityChange_spares (s : State) : Spares c s (severityChange s) := by
  unfold severityChange
  split
  · exact enterSafeStop_spares s
  · exact enterSafeStop_spares s
  · exact enterTripped_spares s
  · exact enterTripped_spares s
  · exact enterTripped_spares s
  · split
    · exact enterTripped_spares s
    · exact standbyToStarting_spares s
  · exact .refl c s

theorem announceSummary_spares (s : State) : Spares c s (announceSummary s) := by
  unfold announceSummary
  split
  · exact (raise_low (requestQuiet_low (.self false (some c) s)) _).spares
  · exact (raise_low (.self false (some c) s) _).spares
  all_goals exact .refl c s

theorem deliver_spares (s : State) : Spares c s (deliver s) := by
  unfold deliver
  split
  · split
    · exact .refl c s
    · unfold deliverSummary
      have k : Spares c s (updatePru { s.pru with summary := formSummary s.pru.entries } s) :=
        (updatePru_low (.self false (some c) s) _).spares
      generalize updatePru { s.pru with summary := formSummary s.pru.entries } s = u at k
      exact (k.trans (announceSummary_spares u)).trans (severityChange_spares _)
  · exact (deliverSets_low (.self false (some c) s)).spares

theorem settle_spares (s : State) : Spares c s (settle s) :=
  settle_of_deliver (P := Spares c s) (fun _ h => h.trans (deliver_spares _)) (.refl c s)

theorem testSettle_spares (s : State) : Spares c s (testSettle s) := by
  unfold testSettle
  split
  case isFalse => exact .refl c s
  case isTrue =>
    have k : Spares c s (s.setCfl { s.cfl with phase := .complete, settleEnd := none }) := .of_xm rfl id rfl
    unfold endSettle
    dsimp only
    generalize s.setCfl { s.cfl with phase := .complete, settleEnd := none } = u at k
    split
    · exact k.trans (enterTripped_spares u)
    · exact k.trans (enterReady_spares u)

/-- What follows the end of a lasting order leaves it, where it spares the order's cell. -/
theorem LastingEnded.spared {r : Resource} {result : Result} {detail : List Word}
    (h : LastingEnded r c result detail s t) (hp : s.wlc.placed → t.wlc.placed)
    (hf : ∀ q d, t.ore.inFlight q = some d → s.ore.inFlight q = some d) (k : Spares c t u)
    (ha : Cls.orderDone.isIn t.atc.pending = true → Cls.orderDone.isIn u.atc.pending = true) :
    LastingEnded r c result detail s u where
  free hs := by
    cases hu : u.ore.inFlight r with
    | none => rfl
    | some d => exact absurd (k.flight r d hu) (by rw [h.free hs]; nofun)
  done hs := ha (h.done hs)
  ended hs p hn := (h.ended hs p hn).keep (k.cell (hp p) fun q e => by
    have hq := hn q (hf q c e)
    rw [hq, h.free hs] at e
    cases e)

end

end Sys2Proof.Machine
end

section
/-! The end of a roll call over an unconfigured SAU whose record still holds a report: the calibration that ends
there shows that report, not three words 0 (O49, O50). -/

namespace Sys2Proof.Machine

section

/-- A configured wheel that has not answered yet. -/
def polledUnit : UnitRec := { UnitRec.reset with configured := true }

/-- The roll call of a start-up with REAR_PAIR and no SAU configured, in the reply window of the third try of its
last record. The SAU's record is not configured and holds a report with a flag set; a calibration holds cell 6. -/
def heldOver : State :=
  { State.reset with
    cfl := { State.reset.cfl with
      phase := .enroll
      active := { Params.default with arrangement := 0x2E2E, steerSource := 0x3A3A } }
    wlc := { Wlc.reset with
      wheels := { PerWheel.fill UnitRec.reset with w1 := polledUnit, w2 := polledUnit }
      sau := { UnitRec.reset with held := .current, report := { Report.cleared with flags := 1 } }
      window := some { unit := .wheel .w1, sent := .roll, purpose := .rollCall }
      rollCall := some { todo := [.wheel .w1], tries := 2 } }
    stc := { Stc.reset with cal := .running, calCell := 6 }
    ore := { Ore.reset with steer := some 6 } }

/-- An answer of wheel 1. -/
def wheelAnswer : List Byte := withCrc [1, 0x12, unitKind (.wheel .w1), 3, 0x11, 0x94]

theorem heldOver_placed : heldOver.wlc.placed := by
  refine ⟨by decide, fun u => ?_, fun b => ?_⟩
  · have h : (heldOver.wlc.unit u).block = none := by
      rcases u with ⟨⟨⟩⟩ | ⟨⟩ <;> rfl
    rw [h]
    exact fun _ hx => by cases hx
  · have h : heldOver.wlc.bankBlock.get b = none := by cases b <;> rfl
    rw [h]
    exact fun _ hx => by cases hx

theorem heldOver_pru : heldOver.pru.ok := List.Pairwise.nil

theorem heldOver_configured (u : UnitId) : (heldOver.wlc.unit u).configured = heldOver.cfg.unit u := by
  rcases u with ⟨⟨⟩⟩ | ⟨⟩ <;> decide

theorem heldOver_flight (q : Resource) (h : heldOver.ore.inFlight q = some heldOver.stc.calCell) : q = .steer := by
  cases q
  · cases h
  · rfl
  · cases h

/-- No state in which the SAU stays unconfigured and the cell of the calibration shows the report's flags is one
that RollCallEnded describes. -/
theorem heldOver_not_ended {t : State} (hconf : t.wlc.sau.configured = false)
    (hword : t.word (cellBase 6 + 0x22 + 2 * 1) = 1) : ¬RollCallEnded heldOver t := by
  intro h
  have hended := ((h.gone (.inl hconf)).ended (by decide)).ended rfl heldOver_placed heldOver_flight
  have hdetail := hended.detail 1 (by decide)
  have hcell : heldOver.stc.calCell = 6 := rfl
  rw [hcell, hword] at hdetail
  cases hdetail

/-- The outcome of a command as a state. -/
def outcomeState (s : State) : Host.Outcome State Fault Refusal → State
  | .next t => t
  | .fault _ => s
  | .refused _ => s

theorem heldOver_expiry :
    (outcomeState heldOver (exec .replyWindowExpiry heldOver)).wlc.sau.configured = false ∧
    (outcomeState heldOver (exec .replyWindowExpiry heldOver)).word (cellBase 6 + 0x22 + 2 * 1) = 1 := by
  decide +kernel

theorem heldOver_answer :
    (outcomeState heldOver (exec (.rollAnswerArrival wheelAnswer) heldOver)).wlc.sau.configured = false ∧
    (outcomeState heldOver (exec (.rollAnswerArrival wheelAnswer) heldOver)).word (cellBase 6 + 0x22 + 2 * 1) = 1 := by
  decide +kernel

end

/-- Refutes O50: a roll call's last try that is missed ends a calibration over the report that an unconfigured SAU
still holds, and the detail shows that report's flags, where the statement has three words 0. -/
theorem not_exchangeMissed : ¬ Obligations.ExchangeMissed := by
  intro h
  obtain ⟨-, -, -, -, hrollCall, -⟩ := h heldOver rfl
  obtain ⟨t, hexec, hended⟩ := hrollCall (.wheel .w1) { todo := [.wheel .w1], tries := 2 } rfl rfl (by decide) rfl
    rfl heldOver_placed heldOver_pru rfl heldOver_configured rfl
  have hout := heldOver_expiry
  rw [hexec] at hout
  exact heldOver_not_ended hout.1 hout.2 hended

/-- Refutes O49: the answer of the last record polled ends the roll call over the same state. -/
theorem not_answersAccepted : ¬ Obligations.AnswersAccepted := by
  intro h
  obtain ⟨-, haccepted⟩ := h heldOver wheelAnswer rfl
  obtain ⟨-, hrollCall, -⟩ := haccepted (.wheel .w1) .rollCall rfl (by decide) (by decide) (by decide) (by decide)
    (by decide) (by decide +kernel)
  obtain ⟨t, hexec, hended⟩ := hrollCall { todo := [.wheel .w1], tries := 2 } rfl rfl rfl rfl heldOver_placed
    heldOver_pru rfl heldOver_configured rfl
  have hout := heldOver_answer
  rw [hexec] at hout
  exact heldOver_not_ended hout.1 hout.2 hended

end Sys2Proof.Machine
end

section
/-! The first report of a SAU whose record has not taken up that the configuration names it: the STC forgets the
counts before it judges the report (O47). -/

namespace Sys2Proof.Machine

section

/-- READY, in the reply window of a STEER to a SAU that the configuration names and whose record, MISSING, has not
taken that up; the STC counts five reports within tolerance. -/
def untaken : State :=
  { State.reset with
    cfl := { State.reset.cfl with
      phase := .complete
      active := { Params.default with arrangement := 0x4E4E, steerSource := 0x5C5C } }
    wlc := { Wlc.reset with
      sau := { UnitRec.reset with state := .missing, lastSeq := 7 }
      window := some { unit := .sau, sent := .steer, purpose := .round } }
    dmc := { Dmc.reset with mode := .ready }
    stc := { Stc.reset with within := 5 } }

/-- A STEER_REPORT that answers it, with every field 0 but READY. -/
def straightReport : List Byte := withCrc [8, 0x32, 7, 1, 0, 0, 0, 0, 0, 0]

/-- The state after the report. -/
def untakenHeard : State := outcomeState untaken (exec (.steerReportArrival straightReport .o123) untaken)

theorem untakenHeard_counts : Cls.faultChange.isIn untakenHeard.atc.pending = false ∧
    untakenHeard.stc.within = 1 ∧ untakenHeard.wlc.sau.lastControl = 0 := by
  decide +kernel

/-- A report after a telegram without the enable is within tolerance. -/
theorem stcReport_within {u : State} (h : u.wlc.sau.lastControl = 0) :
    (stcReport u).stc.within = min 65535 (u.stc.within + 1) := by
  obtain ⟨t, ht, heq⟩ := stcReport_stc u
  obtain ⟨-, hcount, -⟩ := trackedStc_counts (s := u) (within := true) rfl (by rw [h]; rfl)
  rw [heq, stcReport_stc_eq ht]
  exact hcount

end

/-- Refutes O47: where the record is not yet configured, its change makes the STC forget its counts (R147), so
that the report is counted from 0 and not from the count before the event. -/
theorem not_reportsAccepted : ¬ Obligations.ReportsAccepted := by
  intro h
  obtain ⟨-, -, hsteer⟩ := h untaken straightReport .o123 rfl
  obtain ⟨t, hexec, hrest⟩ := hsteer rfl (by decide) (by decide) (by decide) (by decide) (by decide)
    (by decide +kernel)
  obtain ⟨-, -, -, -, -, -, -, -, -, hstc⟩ := hrest
  have ht : untakenHeard = t := by rw [untakenHeard, hexec]; rfl
  obtain ⟨hclass, hwithin, hcontrol⟩ := untakenHeard_counts
  rw [ht] at hclass hwithin hcontrol
  obtain ⟨x, -, hsame⟩ := hstc (by decide) (.inl hclass)
  obtain ⟨hstc', -⟩ := hsame _ rfl
  have hcounted := congrArg Stc.within hstc'
  have hsix := hcounted.trans (stcReport_within (u := { untaken with
    tcu := x, wlc := { untaken.wlc with sau := t.wlc.sau }
    stc := { untaken.stc with reserve := t.stc.reserve } }) hcontrol)
  rw [hwithin] at hsix
  cases hsix

end Sys2Proof.Machine
end

section
/-! A round as it starts (R41, R45, R48, R53; O44). -/

namespace Sys2Proof.Machine

section
variable {a b s t u : State} {v x : UnitId} {o : EnrollOrder} {cell : BitVec 6} {detail ws : List Word}

/-! ### The records of the other units -/

/-- What a step over another unit's record leaves of one: its record, the entries of its loss condition, and the
bytes of its link section. -/
structure Elsewhere (v : UnitId) (a b : State) : Prop where
  active : b.cfl.active = a.cfl.active
  unit : b.wlc.unit v = a.wlc.unit v
  losses : b.lossEntries v = a.lossEntries v
  ok : a.pru.ok → b.pru.ok
  places : SamePlaces a b
  bytes : a.wlc.placed → a.wlc.apart → ∀ base, (a.wlc.unit v).block = some base →
    ∀ z, base ≤ z → z < base + 64 → b.xm.byte z = a.xm.byte z

theorem Elsewhere.trans {c : State} (h : Elsewhere v a b) (k : Elsewhere v b c) : Elsewhere v a c where
  active := k.active.trans h.active
  unit := k.unit.trans h.unit
  losses := k.losses.trans h.losses
  ok := k.ok ∘ h.ok
  places := h.places.trans k.places
  bytes p q base hb z h1 h2 := (k.bytes (h.places.placed p) (h.places.apart q) base
    ((h.places.units v).trans hb) z h1 h2).trans (h.bytes p q base hb z h1 h2)

theorem Elsewhere.refl (v : UnitId) (a : State) : Elsewhere v a a :=
  ⟨rfl, rfl, rfl, id, (Aside.refl true a).places, fun _ _ _ _ _ _ _ => rfl⟩

theorem Elsewhere.of_aside (h : Aside true a b) (hcfl : b.cfl = a.cfl) (hunit : b.wlc.unit v = a.wlc.unit v)
    (hlosses : b.lossEntries v = a.lossEntries v) (hok : a.pru.ok → b.pru.ok) : Elsewhere v a b :=
  ⟨by rw [hcfl], hunit, hlosses, hok, h.places, fun p q base hb z h1 h2 =>
    h.bytes p q z (.inl ⟨rfl, v, base, hb, h1, h2⟩)⟩

theorem reportLoss_ok (hok : s.pru.ok) (x : UnitId) (present : Bool) : (reportLoss x present s).pru.ok := by
  cases x with
  | sau => exact note_ok hok _ _ _
  | wheel w =>
    have k : (s.setPru { s.pru with lossHeld := s.pru.lossHeld.set w present }).pru.ok := hok
    exact note_ok k _ _ _

theorem setUnit_unit_other (h : v ≠ x) (r : UnitRec) (l : Wlc) : (l.setUnit x r).unit v = l.unit v := by
  cases x <;> cases v <;> simp_all [Wlc.unit, Wlc.setUnit, PerWheel_get_set]

theorem setUnit_unit_same (x : UnitId) (r : UnitRec) (l : Wlc) : (l.setUnit x r).unit x = r := by
  cases x <;> simp [Wlc.unit, Wlc.setUnit]

theorem changeUnit_elsewhere (h : v ≠ x) {r : UnitRec} (hr : r.block = (s.wlc.unit x).block) :
    Elsewhere v s (changeUnit x r s) :=
  .of_aside (changeUnit_aside hr) (by simp) (by rw [changeUnit_wlc, setUnit_unit_other h])
    (lossEntries_congr (by simp) v) (by simp)

theorem putLink_elsewhere (h : v ≠ x) (s : State) : Elsewhere v s (putLink x s) where
  active := by simp
  unit := by simp
  losses := lossEntries_congr (by simp) v
  ok := by simp
  places := .of_wlc (by simp)
  bytes p q base hb z h1 h2 := by
    refine putBlock_same _ 0 _ s z fun r hr => ?_
    cases hx : (s.wlc.unit x).block with
    | none =>
      rw [hx] at hr
      cases hr
    | some y =>
      rw [hx] at hr
      obtain rfl := List.mem_singleton.1 hr
      have hlen : ((s.wlc.unit x).words x).length ≤ 32 := by simp [UnitRec.words, longWords]
      have := q.units v x h base hb y hx
      simp only
      omega

theorem takeConfigured_elsewhere (h : v ≠ x) (s : State) : Elsewhere v s (takeConfigured x s) := by
  unfold takeConfigured
  dsimp only
  split
  · exact changeUnit_elsewhere h rfl
  · split
    · have k : Elsewhere v s (changeUnit x { (s.wlc.unit x).absent with configured := false } s) :=
        changeUnit_elsewhere h rfl
      generalize changeUnit x { (s.wlc.unit x).absent with configured := false } s = t at k
      have k2 : Elsewhere v t (reportLoss x false t) :=
        .of_aside (reportLoss_aside x false t) (by simp) (by simp) (reportLoss_losses h false t) fun hok => reportLoss_ok hok x false
      exact (k.trans k2).trans (putLink_elsewhere h _)
    · exact .refl v s

/-- The configured set is taken up record by record; each by itself. -/
theorem unitsTaken_around (v : UnitId) (s : State) :
    ∃ a, Elsewhere v s a ∧ Elsewhere v (takeConfigured v a) (forUnits takeConfigured s) := by
  have e : ∀ {x y : UnitId} (c : State), x ≠ y → Elsewhere x c (takeConfigured y c) :=
    fun c h => takeConfigured_elsewhere h c
  simp only [forUnits, forWheels]
  cases v with
  | sau =>
    exact ⟨_, (((e s (by simp)).trans (e _ (by simp))).trans (e _ (by simp))).trans (e _ (by simp)), .refl _ _⟩
  | wheel w =>
    cases w with
    | w1 =>
      exact ⟨s, .refl _ s, (((e _ (by simp)).trans (e _ (by simp))).trans (e _ (by simp))).trans (e _ (by simp))⟩
    | w2 => exact ⟨_, e s (by simp), ((e _ (by simp)).trans (e _ (by simp))).trans (e _ (by simp))⟩
    | w3 => exact ⟨_, (e s (by simp)).trans (e _ (by simp)), (e _ (by simp)).trans (e _ (by simp))⟩
    | w4 => exact ⟨_, ((e s (by simp)).trans (e _ (by simp))).trans (e _ (by simp)), e _ (by simp)⟩

/-! ### A record that the configuration no longer names (R41, R48) -/

/-- The record of a unit that the configuration no longer names. -/
def UnitRec.dropped (r : UnitRec) : UnitRec :=
  { r with configured := false, state := .absent, misses := 0, held := .none }

theorem takeConfigured_drops (hv : s.cfg.unit v = false) (hc : (s.wlc.unit v).configured = true) :
    takeConfigured v s = putLink v (reportLoss v false (changeUnit v (s.wlc.unit v).dropped s)) := by
  unfold takeConfigured
  dsimp only
  rw [if_neg (by simp [hv]), if_pos hc]
  rfl

theorem reportLoss_observed (hok : s.pru.ok) (v : UnitId) (present : Bool) :
    (reportLoss v present s).pru.observed (lossKind v) (lossSubject v) present := by
  cases v with
  | sau => exact note_observed hok _ _ _
  | wheel w =>
    have k : (s.setPru { s.pru with lossHeld := s.pru.lossHeld.set w present }).pru.ok := hok
    exact note_observed k _ _ _

/-- What the drop of a record from the configuration leaves of it. -/
structure RecordDropped (v : UnitId) (s t : State) : Prop where
  unit : t.wlc.unit v = (s.wlc.unit v).dropped
  loss : s.pru.ok → t.pru.observed (lossKind v) (lossSubject v) false
  link : s.wlc.placed → s.wlc.apart → t.showsIn (s.wlc.unit v).block 0 ((t.wlc.unit v).words v)

theorem takeConfigured_dropped (hv : s.cfg.unit v = false) (hc : (s.wlc.unit v).configured = true) :
    RecordDropped v s (takeConfigured v s) := by
  rw [takeConfigured_drops hv hc]
  have hunit : (changeUnit v (s.wlc.unit v).dropped s).wlc.unit v = (s.wlc.unit v).dropped := by
    rw [changeUnit_wlc, setUnit_unit_same]
  have hok : s.pru.ok → (changeUnit v (s.wlc.unit v).dropped s).pru.ok := by simp
  generalize changeUnit v (s.wlc.unit v).dropped s = t at hunit hok
  have hobs := fun h => reportLoss_observed (hok h) v false
  have hsame : (reportLoss v false t).wlc.unit v = (s.wlc.unit v).dropped := by simpa using hunit
  generalize reportLoss v false t = u at hobs hsame
  refine ⟨by simpa using hsame, fun h => by simpa using hobs h, fun _ _ => ?_⟩
  have hblock : (u.wlc.unit v).block = (s.wlc.unit v).block := by rw [hsame]; rfl
  have hput : (putLink v u).wlc.unit v = u.wlc.unit v := by simp
  rw [hput, ← hblock]
  exact putBlock_showsIn

/-- The bytes of a section that stay go on showing it. -/
theorem showsIn_of_bytes {block : Option Nat} (h : s.showsIn block 0 ws) (hlen : ws.length ≤ 32)
    (hb : ∀ base, block = some base → ∀ z, base ≤ z → z < base + 64 → t.xm.byte z = s.xm.byte z) :
    t.showsIn block 0 ws := fun base hbase =>
  (h base hbase).congr fun z h1 h2 => hb base (Option.mem_def.1 hbase) z (by omega) (by omega)

theorem words_length (r : UnitRec) (v : UnitId) : (r.words v).length = 32 := by simp [UnitRec.words, longWords]

theorem observed_of_losses {present : Bool} (h : t.lossEntries v = s.lossEntries v)
    (ho : s.pru.observed (lossKind v) (lossSubject v) present) :
    t.pru.observed (lossKind v) (lossSubject v) present := observed_of_filter h ho

theorem unitsTaken_dropped (hv : s.cfg.unit v = false) (hc : (s.wlc.unit v).configured = true) :
    RecordDropped v s (forUnits takeConfigured s) := by
  obtain ⟨a, before, after⟩ := unitsTaken_around v s
  have hav : a.cfg.unit v = false := by
    have e : a.cfg = s.cfg := before.active
    rw [e]
    exact hv
  have own := takeConfigured_dropped hav (by rw [before.unit]; exact hc)
  have hplaces := before.places.trans (takeConfigured_aside v a).places
  generalize takeConfigured v a = b at own after hplaces
  refine ⟨by rw [after.unit, own.unit, before.unit], fun hok => observed_of_losses after.losses (own.loss (before.ok hok)),
    fun p q => ?_⟩
  rw [after.unit, ← before.places.units v]
  refine showsIn_of_bytes (own.link (before.places.placed p) (before.places.apart q)) (by rw [words_length])
    fun base hb => after.bytes (hplaces.placed p) (hplaces.apart q) base ?_
  rw [hplaces.units, ← before.places.units v]
  exact hb

/-! ### The SAU as it is dropped (R147, R158) -/

/-- The detail of a calibration that ends over a record without a report (R158). -/
def State.goneDetail (s : State) : List Word := [0, 0, 0, natWord (s.clock - s.stc.calStart).toNat]

theorem calDetail_gone (h : s.wlc.sau.held = .none) : s.calDetail 0 s.heldSteer = s.goneDetail := by
  rw [State.calDetail, State.heldSteer, if_pos h]
  rfl

/-- A calibration in progress ends UNIT_ABSENT where the SAU is gone. -/
theorem sauChange_ended (hgone : s.sauGone = true) (hheld : s.wlc.sau.held = .none) (hcal : s.stc.cal ≠ .none) :
    LastingEnded .steer s.stc.calCell .unitAbsent s.goneDetail s (sauChange s) := by
  have hfirst : ∃ u, (if s.sauSilent then forgetAngle s else s) = u ∧ u.wlc = s.wlc ∧ u.ore = s.ore ∧
      u.clock = s.clock ∧ u.stc.cal = s.stc.cal ∧ u.stc.calStart = s.stc.calStart ∧ u.stc.calCell = s.stc.calCell := by
    split
    · exact ⟨_, rfl, rfl, rfl, rfl, rfl, rfl, rfl⟩
    · exact ⟨_, rfl, rfl, rfl, rfl, rfl, rfl, rfl⟩
  obtain ⟨u, hu, hwlc, hore, hclock, hc, hstart, hcell⟩ := hfirst
  have hdetail : u.goneDetail = s.goneDetail := by rw [State.goneDetail, State.goneDetail, hclock, hstart]
  simp only [sauChange, runAll]
  rw [hu, endCalibrationIf_acts (by rw [State.sauGone, hwlc]; exact hgone) (by rw [hc]; exact hcal),
    calDetail_gone (by rw [hwlc]; exact hheld), hdetail, hcell]
  have hended : LastingEnded .steer s.stc.calCell .unitAbsent s.goneDetail s
      (complete .steer s.stc.calCell .unitAbsent s.goneDetail (stopCalibration .unitAbsent u)) :=
    .completes (fun q => congrArg (fun o : Ore => o.inFlight q) hore) hclock
  have hplaced : (complete .steer s.stc.calCell .unitAbsent s.goneDetail (stopCalibration .unitAbsent u)).wlc =
      s.wlc := by simpa [stopCalibration] using hwlc
  have hflight : ∀ q d, (complete .steer s.stc.calCell .unitAbsent s.goneDetail
      (stopCalibration .unitAbsent u)).ore.inFlight q = some d → s.ore.inFlight q = some d := fun q d h => by
    have e : (stopCalibration .unitAbsent u).ore.inFlight q = s.ore.inFlight q :=
      congrArg (fun o : Ore => o.inFlight q) hore
    exact e ▸ complete_flight h
  generalize complete .steer s.stc.calCell .unitAbsent s.goneDetail (stopCalibration .unitAbsent u) = w at *
  have hlow : LowKept false (some s.stc.calCell) w (putStcSection (evaluateBias (formReserve w))) :=
    putStcSection_low ((LowKept.self _ _ w).of_xm rfl id rfl)
  exact hended.followed (fun p => hplaced ▸ p) hflight hlow fun h => by simpa using h

/-- The STC and a calibration's order after the SAU was dropped from the configuration. -/
structure SauCut (s t : State) : Prop where
  severed : t.severed
  measured : t.stc.measured = s.stc.measured
  result : t.stc.calResult = if s.stc.cal = .none then s.stc.calResult else .unitAbsent
  flight : ∀ q d, t.ore.inFlight q = some d → s.ore.inFlight q = some d
  placed : s.wlc.placed → t.wlc.placed
  ended : s.stc.cal ≠ .none → LastingEnded .steer s.stc.calCell .unitAbsent s.goneDetail s t

theorem changeUnit_dropsSau (hc : s.wlc.sau.configured = true) :
    SauCut s (changeUnit .sau s.wlc.sau.dropped s) := by
  have hset : changeUnit .sau s.wlc.sau.dropped s =
      sauChange (s.setWlc (s.wlc.setUnit .sau s.wlc.sau.dropped)) := by
    unfold changeUnit
    refine if_pos ⟨rfl, .inr (.inr ?_)⟩
    show s.wlc.sau.configured ≠ false
    rw [hc]
    decide
  have hlow := changeUnit_low (.self false (some s.stc.calCell) s) (u := .sau) (r := s.wlc.sau.dropped) rfl
  have hu : ∃ u, s.setWlc (s.wlc.setUnit .sau s.wlc.sau.dropped) = u ∧ u.wlc.sau = s.wlc.sau.dropped ∧
      u.cfg = s.cfg ∧ u.stc = s.stc ∧ u.ore = s.ore ∧ u.clock = s.clock ∧ (s.wlc.placed → u.wlc.placed) :=
    ⟨_, rfl, rfl, rfl, rfl, rfl, rfl, fun p => setUnit_placed p rfl⟩
  obtain ⟨u, hu, hsau, hcfg, hstc, hore, hclock, hplaced⟩ := hu
  rw [hset, hu] at hlow ⊢
  have hdropped : u.sauDropped := .inl (by rw [hsau]; rfl)
  have hgone := sauGone_of_dropped hdropped
  obtain ⟨hmeasured, -, hcut⟩ := sauChange_stc u
  obtain ⟨hcut, hresult⟩ := hcut hgone
  rw [hstc] at hmeasured hresult
  have hdetail : u.goneDetail = s.goneDetail := by rw [State.goneDetail, State.goneDetail, hclock, hstc]
  refine ⟨⟨(sauDropped_congr (t := sauChange u) (by simp) (congrArg Cfl.active (by simp))).2 hdropped, hcut⟩,
    hmeasured, hresult, hlow.flight, hlow.placed, fun hcal => ?_⟩
  have k := sauChange_ended hgone (by rw [hsau]; rfl) (by rw [hstc]; exact hcal)
  rw [hdetail, hstc] at k
  exact k.transfer (by rw [hore]) (fun hn q e => hn q (by rw [← hore]; exact e)) hplaced hclock

theorem takeConfigured_wheel (w : Wheel) (s : State) :
    (takeConfigured (.wheel w) s).stc = s.stc ∧ (takeConfigured (.wheel w) s).ore = s.ore := by
  have e : ∀ r, changeUnit (.wheel w) r s = s.setWlc (s.wlc.setUnit (.wheel w) r) := fun r => by
    unfold changeUnit
    exact if_neg fun h => by cases h.1
  unfold takeConfigured
  simp only [e]
  split
  · exact ⟨rfl, rfl⟩
  · split
    · exact ⟨by simp, by simp⟩
    · exact ⟨rfl, rfl⟩

theorem SauCut.transfer (h : SauCut s t) (hstc : s.stc = a.stc) (hore : s.ore = a.ore) (hclock : s.clock = a.clock)
    (hplaced : a.wlc.placed → s.wlc.placed) : SauCut a t := by
  have hdetail : s.goneDetail = a.goneDetail := by rw [State.goneDetail, State.goneDetail, hclock, hstc]
  refine ⟨h.severed, h.measured.trans (by rw [hstc]), h.result.trans (by rw [hstc]), fun q d e => ?_,
    h.placed ∘ hplaced, fun hcal => ?_⟩
  · rw [← hore]
    exact h.flight q d e
  · have k := h.ended (by rw [hstc]; exact hcal)
    rw [hdetail, hstc] at k
    exact k.transfer (by rw [hore]) (fun hn q e => hn q (by rw [← hore]; exact e)) hplaced hclock

/-- What follows keeps a SAU cut off and its order ended. -/
theorem SauCut.followed (h : SauCut s t) (hsevered : u.severed) (hmeasured : u.stc.measured = t.stc.measured)
    (hresult : u.stc.calResult = t.stc.calResult) (k : ∀ c, Spares c t u)
    (ha : Cls.orderDone.isIn t.atc.pending = true → Cls.orderDone.isIn u.atc.pending = true) : SauCut s u :=
  ⟨hsevered, hmeasured.trans h.measured, hresult.trans h.result,
    fun q d e => h.flight q d ((k 0).flight q d e), fun p => (k 0).placed (h.placed p),
    fun hcal => (h.ended hcal).spared h.placed h.flight (k _) ha⟩

theorem SauCut.gone (h : SauCut s t) : SauGone s t := by
  obtain ⟨-, ⟨h1, h2, h3, h4, h5, h6⟩, h7, h8⟩ := h.severed
  exact ⟨⟨⟨h1, h2, h3⟩, ⟨h.measured, h4⟩, h5, h6⟩, h7, ⟨h8, h.result⟩, h.ended⟩

theorem unitsTaken_sauCut (hv : s.cfg.unit .sau = false) (hc : s.wlc.sau.configured = true) :
    SauCut s (forUnits takeConfigured s) := by
  have before : ∃ a, forUnits takeConfigured s = takeConfigured .sau a ∧ Elsewhere .sau s a ∧ a.stc = s.stc ∧
      a.ore = s.ore ∧ a.clock = s.clock := by
    have e : ∀ {y : UnitId} (c : State), .sau ≠ y → Elsewhere .sau c (takeConfigured y c) :=
      fun c h => takeConfigured_elsewhere h c
    refine ⟨forWheels (fun w => takeConfigured (.wheel w)) s, rfl,
      (((e s (by simp)).trans (e _ (by simp))).trans (e _ (by simp))).trans (e _ (by simp)), ?_, ?_, ?_⟩
    all_goals simp only [forWheels]
    · simp only [(takeConfigured_wheel _ _).1]
    · simp only [(takeConfigured_wheel _ _).2]
    · simp
  obtain ⟨a, ha, hsame, hstc, hore, hclock⟩ := before
  have hunit : a.wlc.sau = s.wlc.sau := hsame.unit
  have hcfg : a.cfg = s.cfg := hsame.active
  rw [ha, takeConfigured_drops (by rw [hcfg]; exact hv) (by show a.wlc.sau.configured = true; rw [hunit]; exact hc)]
  have k := changeUnit_dropsSau (s := a) (by rw [hunit]; exact hc)
  have k : SauCut s (changeUnit .sau a.wlc.sau.dropped a) := k.transfer hstc hore hclock hsame.places.placed
  rw [show a.wlc.unit .sau = a.wlc.sau from rfl]
  generalize changeUnit .sau a.wlc.sau.dropped a = b at k
  have hsau : (putLink .sau (reportLoss .sau false b)).wlc.sau = b.wlc.sau := by simp
  have hstc : (putLink .sau (reportLoss .sau false b)).stc = b.stc := by simp
  have hcfg : (putLink .sau (reportLoss .sau false b)).cfg = b.cfg := congrArg Cfl.active (by simp)
  refine k.followed ⟨(sauDropped_congr hsau hcfg).2 k.severed.1, by rw [hstc]; exact k.severed.2⟩ (by rw [hstc]) (by rw [hstc])
    (fun c => (putLink_low (reportLoss_low (.self false (some c) b) _ _) _).spares) fun h => ?_
  have e : (putLink .sau (reportLoss .sau false b)).atc = (reportLoss .sau false b).atc := by simp
  rw [e]
  exact (reportLoss_steady (.refl false b) _ _).attention _ h

end
end Sys2Proof.Machine
end

section
/-! ROUND_START (R45; O44). -/

namespace Sys2Proof.Machine

section
variable {s t u x : State} {v : UnitId} {o : EnrollOrder} {missed left rest : List UnitId} {on : UnitId → Bool}

/-! ### The round that opens -/

/-- The configured set is taken up, and a ROLL_CALL order comes to its next target. -/
def State.roundTaken (s : State) : State := nextTarget (forUnits takeConfigured s)

/-- The records that a round visits. -/
def State.roundVisit (s : State) : List UnitId := allUnits.filter fun v => (s.wlc.unit v).visited

/-- A round over the records as they stand. -/
def State.inRound (s : State) (isOpen : Bool) : State :=
  s.setWlc { s.wlc with
    roundPeriod := s.cfg.roundPeriod, roundOpen := isOpen, visit := s.roundVisit, orderTried := false, roundDue := false }

theorem openRound_eq (s : State) : openRound s = s.roundTaken.inRound true := by
  simp only [openRound, State.inRound, State.roundTaken, State.roundVisit]

theorem endRound_cases (s : State) : endRound s = s ∨
    (s.wlc.visit = [] ∧ endRound s = s.setWlc { s.wlc with roundOpen := false }) := by
  unfold endRound
  dsimp only
  split
  case isTrue h => exact .inr ⟨h.2.1, rfl⟩
  case isFalse => exact .inl rfl

theorem roundOpened_eq (s : State) : ∃ isOpen, endRound (openRound s) = s.roundTaken.inRound isOpen ∧
    (s.roundTaken.roundVisit ≠ [] → isOpen = true) := by
  rw [openRound_eq]
  generalize s.roundTaken = t
  rcases endRound_cases (t.inRound true) with h | ⟨hv, h⟩
  · exact ⟨true, h, fun _ => rfl⟩
  · exact ⟨false, h, fun hn => absurd hv hn⟩

theorem endRound_stays (h : s.wlc.roundOpen = false) : endRound s = s := if_neg fun k => by
  rw [h] at k
  cases k.1

theorem endRound_endRound (s : State) : endRound (endRound s) = endRound s := by
  rcases endRound_cases s with h | ⟨-, h⟩
  · rw [h, h]
  · rw [h]
    exact endRound_stays rfl

theorem takeDueRound_stays (h : s.wlc.roundDue = false) : takeDueRound s = s := if_neg fun k => by
  rw [h] at k
  cases k.1

theorem takeRollCall_stays (h : s.wlc.rollCallAsked = false) : takeRollCall s = s := if_neg fun k => by
  rw [h] at k
  cases k.1

theorem testSettle_stays (h : s.cfl.phase ≠ .settle) : testSettle s = s := if_neg fun k => h k.1

/-- After a round opened, only the deliveries and the end of SETTLE follow. -/
theorem finishLink_opened (hd : (endRound s).wlc.roundDue = false) (ha : (endRound s).wlc.rollCallAsked = false) :
    finishLink (endRound s) = settle (testSettle (settle (endRound s))) := by
  rw [finishLink, settleRound, endRound_endRound, takeDueRound_stays hd, takeRollCall_stays ha]

/-! ### What follows in the event -/

/-- A state after the deliveries and the end of SETTLE. -/
structure LinkFinished (s t : State) : Prop where
  wired : Wired s t
  spares : ∀ c, Spares c s t
  attention : ∀ c : Cls, c.isIn s.atc.pending = true → c.isIn t.atc.pending = true

theorem settled_finished (s : State) : LinkFinished s (settle (testSettle (settle s))) :=
  ⟨((settle_wired s).trans (testSettle_wired _)).trans (settle_wired _),
    fun _ => ((settle_spares s).trans (testSettle_spares _)).trans (settle_spares _),
    (settle_steady (testSettle_steady (settle_steady (.refl false s)))).attention⟩

theorem LinkHeld.unit (h : LinkHeld s t) (v : UnitId) :
    t.wlc.unit v = { s.wlc.unit v with slotValue := (t.wlc.unit v).slotValue } := by
  cases v with
  | wheel w => exact h.wheels w
  | sau =>
    have e : t.wlc.sau = s.wlc.sau := (congrArg Wlc.sau h.wlc :)
    show t.wlc.sau = { s.wlc.sau with slotValue := t.wlc.sau.slotValue }
    rw [e]

theorem LinkHeld.words (h : LinkHeld s t) (v : UnitId) : (t.wlc.unit v).words v = (s.wlc.unit v).words v := by
  rw [h.unit v]
  rfl

/-- Where the event does not bring the DMC back to STARTING, the records are kept. -/
theorem LinkFinished.held (h : LinkFinished s t) (hm : t.dmc.mode = .starting → s.dmc.mode = .starting) :
    LinkHeld s t := by
  rcases h.wired.way with k | ⟨hr, hstandby⟩
  · exact k
  · rw [hm hr.1] at hstandby
    cases hstandby

theorem exec_roundStart (hrun : s.isRunning = true) :
    exec .roundStart s = .next (finishLink (roundStartSteps s)) := congrArg Host.Outcome.next (if_pos hrun)

/-- A round opens, and what follows in the event. -/
theorem roundStart_opens (hrun : s.isRunning = true) (hon : s.wlc.roundsOn = true) (ho : s.wlc.roundOpen = false)
    (ha : s.roundTaken.wlc.rollCallAsked = false) : ∃ isOpen t, exec .roundStart s = .next t ∧
      (s.roundTaken.roundVisit ≠ [] → isOpen = true) ∧ LinkFinished (s.roundTaken.inRound isOpen) t := by
  obtain ⟨isOpen, hround, hvisit⟩ := roundOpened_eq s
  refine ⟨isOpen, finishLink (endRound (openRound s)), ?_, hvisit, ?_⟩
  · rw [exec_roundStart hrun, roundStartSteps, if_pos hon, if_neg (by rw [ho]; decide)]
  · rw [finishLink_opened (by rw [hround]; rfl) (by rw [hround]; exact ha), hround]
    exact settled_finished _

/-! ### Without an order -/

theorem nextTarget_none (h : s.wlc.order = none) : nextTarget s = s := by rw [nextTarget, h]

theorem roundTaken_none (h : s.wlc.order = none) : s.roundTaken = forUnits takeConfigured s :=
  nextTarget_none (by rw [unitsTaken_wlc]; exact h)

theorem roundVisit_eq (s : State) : s.roundVisit = allUnits.filter fun v => (s.wlc.unit v).state != .absent := by
  unfold State.roundVisit UnitRec.visited
  refine List.filter_congr fun v _ => ?_
  cases (s.wlc.unit v).state <;> rfl

/-- A record in the round. -/
theorem inRound_unit (isOpen : Bool) (s : State) (v : UnitId) : (s.inRound isOpen).wlc.unit v = s.wlc.unit v := by
  cases v <;> rfl

theorem inRound_losses (isOpen : Bool) (s : State) (v : UnitId) : (s.inRound isOpen).lossEntries v = s.lossEntries v :=
  lossEntries_congr rfl v

theorem inRound_aside (isOpen : Bool) (s : State) : Aside true s (s.inRound isOpen) :=
  .of_xm rfl ⟨fun v => by rw [inRound_unit], rfl, rfl⟩ rfl

theorem inRound_spares (isOpen : Bool) (s : State) (c : BitVec 6) : Spares c s (s.inRound isOpen) :=
  .of_xm rfl (inRound_aside isOpen s).places.placed rfl

theorem SauCut.inRound {isOpen : Bool} (h : SauCut s t) : SauCut s (t.inRound isOpen) :=
  h.followed ⟨(sauDropped_congr rfl rfl).2 h.severed.1, h.severed.2⟩ rfl rfl (inRound_spares isOpen t) id

theorem SauCut.finished (h : SauCut s t) (k : LinkFinished t u) : SauCut s u := by
  obtain ⟨hs, hr⟩ := k.wired.severed h.severed
  exact h.followed hs k.wired.measured hr k.spares (k.attention _)

/-- A dropped record after the deliveries. -/
theorem RecordDropped.finished {isOpen : Bool} (h : RecordDropped v s t) (hp : SamePlaces s t)
    (k : LinkHeld (t.inRound isOpen) u) :
    u.wlc.unit v = { (s.wlc.unit v).dropped with slotValue := (u.wlc.unit v).slotValue } ∧
    (s.pru.ok → u.pru.observed (lossKind v) (lossSubject v) false) ∧
    (s.wlc.placed → s.wlc.apart → u.showsIn (s.wlc.unit v).block 0 ((u.wlc.unit v).words v)) := by
  have hunit := k.unit v
  have hwords := k.words v
  rw [inRound_unit] at hunit hwords
  refine ⟨by rw [hunit, h.unit], fun hok => observed_of_losses ((k.losses v).trans (inRound_losses _ t v)) (h.loss hok),
    fun p q => ?_⟩
  have hx := inRound_aside isOpen t
  rw [hwords]
  refine showsIn_of_bytes (h.link p q) (by rw [words_length]) fun base hb z h1 h2 => ?_
  have ha := hx.trans k.aside
  exact ha.bytes (hp.placed p) (hp.apart q) z (.inl ⟨rfl, v, base, (hp.units v).trans hb, h1, h2⟩)

/-! ### With an order (R53) -/

theorem skipTargets_eq (on : UnitId → Bool) : ∀ (todo missed : List UnitId), skipTargets on todo missed =
    (todo.dropWhile (fun v => !on v), missed ++ todo.takeWhile fun v => !on v)
  | [], missed => by simp [skipTargets]
  | v :: rest, missed => by
    unfold skipTargets
    cases h : on v with
    | true => simp [h]
    | false => simp [h, skipTargets_eq on rest (missed ++ [v])]

/-- The order comes to a target that is configured. -/
theorem nextTarget_some {w : UnitId} (ho : s.wlc.order = some o) (hon : ∀ v, (s.wlc.unit v).configured = on v)
    (hleft : o.todo.dropWhile (fun v => !on v) = w :: left) :
    nextTarget s = setOrder (some { o with
      todo := w :: left, tries := o.triesFor (w :: left)
      notFound := o.notFound ++ o.todo.takeWhile fun v => !on v }) s := by
  obtain rfl : (fun v => (s.wlc.unit v).configured) = on := funext hon
  rw [nextTarget, ho]
  dsimp only
  rw [skipTargets_eq, hleft]

/-- The order has no target left. -/
theorem nextTarget_last (ho : s.wlc.order = some o) (hon : ∀ v, (s.wlc.unit v).configured = on v)
    (hleft : o.todo.dropWhile (fun v => !on v) = []) :
    nextTarget s = complete .enroll o.cell .ok
      (targetDetail o.found (o.notFound ++ o.todo.takeWhile fun v => !on v)) (endOrder s) := by
  obtain rfl : (fun v => (s.wlc.unit v).configured) = on := funext hon
  rw [nextTarget, ho]
  dsimp only
  rw [skipTargets_eq, hleft]
  rfl

theorem changeUnit_enroll (v : UnitId) (r : UnitRec) (s : State) : (changeUnit v r s).ore.enroll = s.ore.enroll := by
  unfold changeUnit
  dsimp only
  split
  · simp only [sauChange, runAll, putStcSection_frame]
    have e : ∀ u, (evaluateBias (formReserve u)).ore = u.ore := fun _ => rfl
    rw [e, endCalibrationIf_enroll]
    split <;> rfl
  · rfl

theorem takeConfigured_enroll (v : UnitId) (s : State) : (takeConfigured v s).ore.enroll = s.ore.enroll := by
  unfold takeConfigured
  dsimp only
  split
  · exact changeUnit_enroll _ _ s
  · split
    · simp [changeUnit_enroll]
    · rfl

theorem unitsTaken_enroll (s : State) : (forUnits takeConfigured s).ore.enroll = s.ore.enroll := by
  simp only [forUnits, forWheels, takeConfigured_enroll]

theorem unitsTaken_configured (s : State) (v : UnitId) :
    ((forUnits takeConfigured s).wlc.unit v).configured = s.cfg.unit v := by
  rw [unitsTaken_unit, takenUnit_configured]

/-- A ROLL_CALL order whose current target stays configured goes on with it. -/
theorem roundTaken_stays (ho : s.wlc.order = some o) (htodo : o.todo = v :: rest) (hv : s.cfg.unit v = true) :
    s.roundTaken.wlc.order = some o ∧ s.roundTaken.ore.enroll = s.ore.enroll := by
  have horder : (forUnits takeConfigured s).wlc.order = some o := by rw [unitsTaken_wlc]; exact ho
  have h := nextTarget_some horder (unitsTaken_configured s) (w := v) (left := rest) (by simp [htodo, hv])
  have hsame : o.triesFor (v :: rest) = o.tries := if_pos (by rw [htodo])
  have htake : o.todo.takeWhile (fun v => !s.cfg.unit v) = [] := by simp [htodo, hv]
  rw [hsame, htake, List.append_nil, ← htodo] at h
  rw [State.roundTaken, h]
  exact ⟨rfl, unitsTaken_enroll s⟩

theorem unitsTaken_spares (c : BitVec 6) (s : State) : Spares c s (forUnits takeConfigured s) :=
  (unitsTaken_low (.self false (some c) s)).spares

/-- A ROLL_CALL order whose current target is no longer configured comes to its next one, or ends. -/
theorem roundTaken_done (ho : s.wlc.order = some o) (htodo : o.todo = v :: rest) (hv : s.cfg.unit v = false) :
    TargetDone o o.found (o.notFound ++ [v]) rest s.cfg.unit s s.roundTaken := by
  have horder : (forUnits takeConfigured s).wlc.order = some o := by rw [unitsTaken_wlc]; exact ho
  have hdrop : o.todo.dropWhile (fun v => !s.cfg.unit v) = rest.dropWhile fun v => !s.cfg.unit v := by simp [htodo, hv]
  have htake : o.todo.takeWhile (fun v => !s.cfg.unit v) = v :: rest.takeWhile fun v => !s.cfg.unit v := by
    simp [htodo, hv]
  have happend : ∀ l, o.notFound ++ v :: l = o.notFound ++ [v] ++ l := fun l => by simp
  have hon := unitsTaken_configured s
  have hflight := unitsTaken_enroll s
  have hspares := fun c => unitsTaken_spares c s
  have hclock : (forUnits takeConfigured s).clock = s.clock := by simp [forUnits, forWheels]
  rw [State.roundTaken]
  generalize forUnits takeConfigured s = u at *
  refine ⟨fun missed left hmissed hleft hne => ?_, fun hall => ?_⟩
  · obtain ⟨w, tail, rfl⟩ := List.exists_cons_of_ne_nil hne
    have hw : s.cfg.unit w = true := by
      have := List.head_dropWhile_not (p := fun v => !s.cfg.unit v) (l := rest) (by rw [← hleft]; simp)
      simpa [← hleft] using this
    have hother : o.triesFor (w :: tail) = 0 := if_neg fun e => by
      rw [htodo] at e
      obtain rfl : w = v := by simpa using e
      rw [hv] at hw
      cases hw
    rw [nextTarget_some horder hon (hdrop.trans hleft.symm), htake, happend, ← hmissed, hother]
    exact ⟨hflight, rfl⟩
  · have hnone : rest.dropWhile (fun v => !s.cfg.unit v) = [] := by
      rw [List.dropWhile_eq_nil_iff]
      intro w hw
      simp [hall w hw]
    have htaken : rest.takeWhile (fun v => !s.cfg.unit v) = rest := by
      rw [List.takeWhile_eq_self_iff]
      intro w hw
      simp [hall w hw]
    rw [nextTarget_last horder hon (hdrop.trans hnone), htake, happend, htaken]
    have hended : LastingEnded .enroll o.cell .ok (targetDetail o.found (o.notFound ++ [v] ++ rest)) u
        (complete .enroll o.cell .ok (targetDetail o.found (o.notFound ++ [v] ++ rest)) (endOrder u)) :=
      .completes (fun _ => rfl) rfl
    refine ⟨by simp [endOrder], hended.transfer hflight.symm (fun hn q e => hn q ((hspares o.cell).flight q _ e))
      (hspares 0).placed hclock⟩

theorem nextTarget_spares (c : BitVec 6) (s : State) : Spares c s (nextTarget s) := by
  have h : LowKept false (some c) s (nextTarget s) := by
    unfold nextTarget
    split
    · exact .self _ _ s
    · have k : LowKept false (some c) s (endOrder s) := (LowKept.self _ _ s).of_xm (by simp [endOrder]) id
      split
      · exact complete_low k _ _ _ _
      · exact (LowKept.self _ _ s).of_xm rfl id
  exact h.spares

theorem roundTaken_spares (c : BitVec 6) (s : State) : Spares c s s.roundTaken :=
  (unitsTaken_spares c s).trans (nextTarget_spares c _)

/-- The order's fate after the deliveries. -/
theorem TargetDone.finished {found notFound : List UnitId} {isOpen : Bool} (h : TargetDone o found notFound rest on s t)
    (hs : ∀ c, Spares c s t) (hu : LinkFinished (t.inRound isOpen) u) (k : LinkHeld (t.inRound isOpen) u) :
    TargetDone o found notFound rest on s u := by
  have horder : u.wlc.order = t.wlc.order := (congrArg Wlc.order k.wlc :)
  have henroll : u.ore.enroll = t.ore.enroll := k.enroll
  have hspares : ∀ c, Spares c t u := fun c => (inRound_spares isOpen t c).trans (hu.spares c)
  have hattention : Cls.orderDone.isIn t.atc.pending = true → Cls.orderDone.isIn u.atc.pending = true := fun h =>
    hu.attention .orderDone h
  refine ⟨fun missed left h1 h2 h3 => ?_, fun hall => ?_⟩
  · obtain ⟨k1, k2⟩ := h.next missed left h1 h2 h3
    exact ⟨henroll.trans k1, horder.trans k2⟩
  · obtain ⟨k1, k2⟩ := h.last hall
    exact ⟨horder.trans k1, k2.spared (hs 0).placed (hs 0).flight (hspares o.cell) hattention⟩

/-! ### Without anything to take up -/

theorem takeConfigured_stays (h : (s.wlc.unit v).configured = s.cfg.unit v) : takeConfigured v s = s := by
  unfold takeConfigured
  dsimp only
  cases hv : s.cfg.unit v with
  | false => rw [if_neg (by decide), if_neg (by rw [h, hv]; decide)]
  | true =>
    have hsame : { s.wlc.unit v with configured := true } = s.wlc.unit v := by rw [← hv, ← h]
    rw [if_pos rfl, hsame]
    unfold changeUnit
    dsimp only
    rw [if_neg (by simp), setUnit_same]
    rfl

theorem unitsTaken_stays (h : ∀ v, (s.wlc.unit v).configured = s.cfg.unit v) : forUnits takeConfigured s = s := by
  simp only [forUnits, forWheels, takeConfigured_stays (h _)]

/-- No delivery is due after a step beside the fault table and the mode. -/
theorem settled_stays (hd : s.delivered = true) (hp : s.cfl.phase ≠ .settle) : settle (testSettle (settle s)) = s := by
  rw [settle_of_delivered hd, testSettle_stays hp, settle_of_delivered hd]

/-! ### The parts of the statement -/

theorem roundTaken_frame (s : State) : s.roundTaken.dmc = s.dmc ∧ s.roundTaken.cfg = s.cfg ∧
    s.roundTaken.wlc.rollCallAsked = s.wlc.rollCallAsked := by
  have h : (forUnits takeConfigured s).dmc = s.dmc ∧ (forUnits takeConfigured s).cfl = s.cfl := by
    simp [forUnits, forWheels]
  have hwlc : (forUnits takeConfigured s).wlc.rollCallAsked = s.wlc.rollCallAsked := by rw [unitsTaken_wlc]
  have hcfg : (forUnits takeConfigured s).cfg = s.cfg := congrArg Cfl.active h.2
  rw [State.roundTaken]
  generalize forUnits takeConfigured s = t at h hwlc hcfg
  have hnext : (nextTarget t).wlc.rollCallAsked = t.wlc.rollCallAsked := by
    unfold nextTarget
    split
    · rfl
    · split <;> simp [endOrder, setOrder]
  refine ⟨?_, ?_, hnext.trans hwlc⟩
  · rw [← h.1]
    simp
  · rw [← hcfg]
    exact congrArg Cfl.active (by simp)

/-- A round opens without an order. -/
theorem round_opens (hrun : s.isRunning = true) (ha : s.wlc.rollCallAsked = false) (hon : s.wlc.roundsOn = true)
    (hopen : s.wlc.roundOpen = false) (horder : s.wlc.order = none) (hok : s.pru.ok) :
    ∃ t, exec .roundStart s = .next t ∧ ((t.dmc.mode = .starting → s.dmc.mode = .starting) →
      t.wlc.roundPeriod = s.cfg.roundPeriod ∧
      t.wlc.visit = allUnits.filter (fun u => (t.wlc.unit u).state != .absent) ∧
      (t.wlc.visit ≠ [] → t.wlc.roundOpen = true) ∧
      (∀ u, s.cfg.unit u = true →
        t.wlc.unit u = { s.wlc.unit u with configured := true, slotValue := (t.wlc.unit u).slotValue }) ∧
      (∀ u, s.cfg.unit u = false → (s.wlc.unit u).configured = true →
        t.wlc.unit u = { s.wlc.unit u with
          configured := false, state := .absent, misses := 0, held := .none
          slotValue := (t.wlc.unit u).slotValue } ∧
        t.pru.observed (lossKind u) (lossSubject u) false ∧
        (u = .sau → SauGone s t) ∧
        (s.wlc.placed → s.wlc.apart →
          t.showsIn (s.wlc.unit u).block 0 ((t.wlc.unit u).words u)))) := by
  obtain ⟨hdmc, hcfg, hasked⟩ := roundTaken_frame s
  obtain ⟨isOpen, t, he, hvisit, hfinished⟩ := roundStart_opens hrun hon hopen (hasked.trans ha)
  refine ⟨t, he, fun hm => ?_⟩
  rw [roundTaken_none horder] at *
  have hunit := fun v => unitsTaken_unit v s
  have hcut := fun h1 h2 => unitsTaken_sauCut (s := s) h1 h2
  have hdropped := fun v h1 h2 => unitsTaken_dropped (s := s) (v := v) h1 h2
  have hplaces : SamePlaces s (forUnits takeConfigured s) :=
    ⟨fun v => by rw [unitsTaken_unit, takenUnit_block], by rw [unitsTaken_wlc], by rw [unitsTaken_wlc]⟩
  generalize forUnits takeConfigured s = u at *
  have hheld := hfinished.held (fun h => (congrArg Dmc.mode hdmc).trans (hm h))
  have hperiod : t.wlc.roundPeriod = u.cfg.roundPeriod := (congrArg Wlc.roundPeriod hheld.wlc :)
  have hlist : t.wlc.visit = u.roundVisit := (congrArg Wlc.visit hheld.wlc :)
  have hround : t.wlc.roundOpen = isOpen := (congrArg Wlc.roundOpen hheld.wlc :)
  have hrecord : ∀ v, t.wlc.unit v = { u.wlc.unit v with slotValue := (t.wlc.unit v).slotValue } := fun v => by
    have k := hheld.unit v
    rw [inRound_unit] at k
    exact k
  refine ⟨by rw [hperiod, hcfg], ?_, fun hv => by rw [hround]; exact hvisit (hlist ▸ hv), fun v hv => ?_, fun v hv hc => ?_⟩
  · rw [hlist, roundVisit_eq]
    refine List.filter_congr fun v _ => ?_
    rw [hrecord v]
  · rw [hrecord v, hunit v, State.takenUnit, if_pos hv]
  · obtain ⟨k1, k2, k3⟩ := (hdropped v hv hc).finished hplaces hheld
    refine ⟨k1, k2 hok, ?_, k3⟩
    rintro rfl
    exact ((hcut hv hc).inRound.finished hfinished).gone

/-- A round opens with a ROLL_CALL order in flight. -/
theorem round_opens_order (hrun : s.isRunning = true) (ha : s.wlc.rollCallAsked = false) (hon : s.wlc.roundsOn = true)
    (hopen : s.wlc.roundOpen = false) (horder : s.wlc.order = some o) (htodo : o.todo = v :: rest) :
    ∃ t, exec .roundStart s = .next t ∧ ((t.dmc.mode = .starting → s.dmc.mode = .starting) →
      (s.cfg.unit v = true → t.wlc.order = some o ∧ t.ore.enroll = s.ore.enroll) ∧
      (s.cfg.unit v = false → TargetDone o o.found (o.notFound ++ [v]) rest s.cfg.unit s t)) := by
  obtain ⟨hdmc, hcfg, hasked⟩ := roundTaken_frame s
  obtain ⟨isOpen, t, he, -, hfinished⟩ := roundStart_opens hrun hon hopen (hasked.trans ha)
  refine ⟨t, he, fun hm => ?_⟩
  have hstays := roundTaken_stays horder htodo
  have hdone := roundTaken_done horder htodo
  have hspares := fun c => roundTaken_spares c s
  generalize s.roundTaken = u at *
  have hheld := hfinished.held (fun h => (congrArg Dmc.mode hdmc).trans (hm h))
  refine ⟨fun hv => ?_, fun hv => (hdone hv).finished hspares hfinished hheld⟩
  obtain ⟨k1, k2⟩ := hstays hv
  have h1 : t.wlc.order = u.wlc.order := (congrArg Wlc.order hheld.wlc :)
  have h2 : t.ore.enroll = u.ore.enroll := hheld.enroll
  exact ⟨h1.trans k1, h2.trans k2⟩

/-- Rounds are stopped, and none is open. -/
theorem round_stopped (hrun : s.isRunning = true) (hd : s.delivered = true) (hp : s.cfl.phase ≠ .settle)
    (ha : s.wlc.rollCallAsked = false) (hon : s.wlc.roundsOn = false) (hopen : s.wlc.roundOpen = false) :
    exec .roundStart s = .next s := by
  have hdue : takeDueRound s = s := if_neg fun k => by
    rw [hon] at k
    cases k.2.2
  rw [exec_roundStart hrun, roundStartSteps, if_neg (by rw [hon]; decide), finishLink, settleRound, endRound_stays hopen,
    hdue, takeRollCall_stays ha, settled_stays hd hp]

/-- A round start in an open round is kept for that round's end. -/
theorem round_kept (hrun : s.isRunning = true) (hd : s.delivered = true) (hp : s.cfl.phase ≠ .settle)
    (ha : s.wlc.rollCallAsked = false) (hon : s.wlc.roundsOn = true) (hopen : s.wlc.roundOpen = true)
    (hbusy : s.wlc.visit ≠ [] ∨ s.wlc.window ≠ none) :
    exec .roundStart s = .next { s with wlc := { s.wlc with roundDue := true } } := by
  have hkept : ∃ u, s.setWlc { s.wlc with roundDue := true } = u ∧ u.wlc.roundOpen = true ∧
      (u.wlc.visit ≠ [] ∨ u.wlc.window ≠ none) ∧ u.wlc.rollCallAsked = false ∧ u.delivered = true ∧
      u.cfl.phase ≠ .settle := ⟨_, rfl, hopen, hbusy, ha, hd, hp⟩
  rw [exec_roundStart hrun, roundStartSteps, if_pos hon, if_pos hopen]
  obtain ⟨u, hu, hopen, hbusy, ha, hd, hp⟩ := hkept
  have hend : endRound u = u := if_neg fun k => hbusy.elim (fun h => h k.2.1) (fun h => h k.2.2.1)
  have hdue : takeDueRound u = u := if_neg fun k => by
    rw [hopen] at k
    cases k.2.1
  rw [hu, finishLink, settleRound, hend, hdue, takeRollCall_stays ha, settled_stays hd hp, ← hu]
  rfl

/-- A round opens over a configured set that stands. -/
theorem round_opens_unchanged (hrun : s.isRunning = true) (hd : s.delivered = true) (hp : s.cfl.phase ≠ .settle)
    (ha : s.wlc.rollCallAsked = false) (hon : s.wlc.roundsOn = true) (hopen : s.wlc.roundOpen = false)
    (hwindow : s.wlc.window = none) (horder : s.wlc.order = none)
    (hsame : ∀ u, (s.wlc.unit u).configured = s.cfg.unit u) :
    exec .roundStart s = .next (s.inRound (s.roundVisit != [])) := by
  have htaken : s.roundTaken = s := by rw [roundTaken_none horder, unitsTaken_stays hsame]
  have hround : endRound (openRound s) = s.inRound (s.roundVisit != []) := by
    rw [openRound_eq, htaken]
    by_cases hv : s.roundVisit = []
    · have hleft : (s.inRound true).wlc.tryLeft = false := by
        show (s.wlc.order.isSome && _) = false
        rw [horder]
        rfl
      have hend : endRound (s.inRound true) = s.inRound false := if_pos ⟨rfl, hv, hwindow, hleft⟩
      rw [hend, hv]
      rfl
    · have hend : endRound (s.inRound true) = s.inRound true := if_neg fun k => hv k.2.1
      rw [hend, show (s.roundVisit != []) = true by simpa using hv]
  have hkept : (endRound (openRound s)).wlc.roundDue = false ∧ (endRound (openRound s)).wlc.rollCallAsked = false ∧
      (endRound (openRound s)).delivered = true ∧ (endRound (openRound s)).cfl.phase ≠ .settle := by
    rw [hround]
    exact ⟨rfl, ha, hd, hp⟩
  obtain ⟨h1, h2, h3, h4⟩ := hkept
  rw [exec_roundStart hrun, roundStartSteps, if_pos hon, if_neg (by rw [hopen]; decide), finishLink_opened h1 h2,
    settled_stays h3 h4, hround]

end

/-- Settles O44: a round opens over the configured set as it is taken up record by record, and the deliveries that
follow leave the records, the rounds and the order where the mode does not go back to STARTING. -/
theorem roundStarts : Obligations.RoundStarts := by
  unfold Obligations.RoundStarts
  intro s hrun hd hp ha
  refine ⟨fun hon hopen horder hok => round_opens hrun ha hon hopen horder hok,
    fun o v rest hon hopen horder htodo => round_opens_order hrun ha hon hopen horder htodo,
    fun hon hopen => round_stopped hrun hd hp ha hon hopen,
    fun hon hopen hbusy => round_kept hrun hd hp ha hon hopen hbusy,
    fun hon hopen hwindow horder hsame visit hvisit => ?_⟩
  have hlist : s.roundVisit = visit := by
    rw [hvisit, roundVisit_eq]
    rfl
  rw [round_opens_unchanged hrun hd hp ha hon hopen hwindow horder hsame, State.inRound, hlist]
  rfl

end Sys2Proof.Machine
end

section
/-! The parts of the LMU that a thermal sample takes up one by one (R161). -/

namespace Sys2Proof.Machine

section
variable {a b s t u : State} {k : Kind} {who : Subject} {source : DSource} {target : DTarget} {factor : Nat}
  {present : Bool} {l : Lmu}

/-! ### What each part holds -/

/-- The parts that the steps of a thermal sample alter. -/
inductive LmuPart where
  | blower
  | bank (b : Bank)
  | wheel (w : Wheel)
  | load

/-- The derates of a part. -/
def LmuPart.owns : LmuPart → DSource → DTarget → Prop
  | .blower, source, target => source = .blower ∧ target = .allBanks
  | .bank b, source, target => source = .gridHeat ∧ target = .bank b
  | .wheel w, source, target => (source = .winding ∨ source = .unitRequest) ∧ target = .wheel w
  | .load, source, target => source = .payload ∧ target = .allWheels

/-- The condition of a part. -/
def LmuPart.kind : LmuPart → Kind
  | .blower => .blowerFail
  | .bank _ => .gridHot
  | .wheel _ => .windingHot
  | .load => .payloadOverload

/-- Whose condition it is. -/
def LmuPart.subject : LmuPart → Subject
  | .blower => .global
  | .bank b => .bank b
  | .wheel w => .wheel w
  | .load => .global

/-- The blower and the ambient. -/
structure BlowerView where
  ambient : Int
  dutyUsed : Nat
  inactive : Nat
  activeCount : Nat
  fail : Bool
  factor : Nat

/-- A bank. -/
structure BankView where
  heat : Nat
  theta : Int
  eIn : Nat
  eOut : Int
  onUs : Nat
  hot : Bool
  hotClear : Nat
  factor : Nat

/-- A wheel. -/
structure WheelView where
  hot : Bool
  count : Nat
  clear : Nat
  winding : Nat
  request : Nat

/-- The payload. -/
structure LoadView where
  standstill : Nat
  payload : Option Nat
  speedCap : Option Nat
  overload : Bool
  factor : Nat

def Lmu.blowerView (l : Lmu) : BlowerView where
  ambient := l.ambient
  dutyUsed := l.dutyUsed
  inactive := l.inactive
  activeCount := l.activeCount
  fail := l.blowerFail
  factor := l.factorOf .blower .allBanks

def Lmu.bankView (l : Lmu) (b : Bank) : BankView where
  heat := l.heat.get b
  theta := l.theta.get b
  eIn := l.eIn.get b
  eOut := l.eOut.get b
  onUs := l.onUs.get b
  hot := l.hot.get b
  hotClear := l.hotClear.get b
  factor := l.factorOf .gridHeat (.bank b)

def Lmu.wheelView (l : Lmu) (w : Wheel) : WheelView where
  hot := l.windingHot.get w
  count := l.windingCount.get w
  clear := l.windingClear.get w
  winding := l.factorOf .winding (.wheel w)
  request := l.factorOf .unitRequest (.wheel w)

def Lmu.loadView (l : Lmu) : LoadView where
  standstill := l.standstill
  payload := l.payload
  speedCap := l.speedCap
  overload := l.overload
  factor := l.factorOf .payload .allWheels

/-- A part stays from one LMU to another. -/
def LmuPart.same : LmuPart → Lmu → Lmu → Prop
  | .blower, l, m => m.blowerView = l.blowerView
  | .bank b, l, m => m.bankView b = l.bankView b
  | .wheel w, l, m => m.wheelView w = l.wheelView w
  | .load, l, m => m.loadView = l.loadView

/-- The entries of a part's condition. -/
def State.partEntries (s : State) (p : LmuPart) : List Entry :=
  s.pru.entries.filter fun e => e.kind == p.kind && e.subject == p.subject

/-- A part and the entries of its condition stay. -/
structure PartKept (p : LmuPart) (a b : State) : Prop where
  same : p.same a.lmu b.lmu
  entries : b.partEntries p = a.partEntries p

variable {p : LmuPart}

theorem LmuPart.same_trans {l m n : Lmu} (h : p.same l m) (k : p.same m n) : p.same l n := by
  cases p <;> exact k.trans h

theorem PartKept.refl (p : LmuPart) (a : State) : PartKept p a a := ⟨by cases p <;> rfl, rfl⟩

theorem PartKept.trans (h : PartKept p a s) (k : PartKept p s t) : PartKept p a t :=
  ⟨LmuPart.same_trans h.same k.same, k.entries.trans h.entries⟩

theorem PartKept.post (h : ¬p.owns source target) (factor : Nat) (s : State) :
    PartKept p s (post source target factor s) where
  same := by
    have e := post_derates source target factor s
    cases p with
    | blower =>
      have hf := post_factor_other (s := s) (source' := .blower) (target' := .allBanks) h factor
      simp only [LmuPart.same, Lmu.blowerView, hf]
      rw [e]
    | bank b =>
      have hf := post_factor_other (s := s) (source' := .gridHeat) (target' := .bank b) h factor
      simp only [LmuPart.same, Lmu.bankView, hf]
      rw [e]
    | wheel w =>
      have h1 := post_factor_other (s := s) (source' := .winding) (target' := .wheel w) (fun k => h ⟨.inl k.1, k.2⟩) factor
      have h2 := post_factor_other (s := s) (source' := .unitRequest) (target' := .wheel w) (fun k => h ⟨.inr k.1, k.2⟩)
        factor
      simp only [LmuPart.same, Lmu.wheelView, h1, h2]
      rw [e]
    | load =>
      have hf := post_factor_other (s := s) (source' := .payload) (target' := .allWheels) h factor
      simp only [LmuPart.same, Lmu.loadView, hf]
      rw [e]
  entries := by simp [State.partEntries]

theorem same_of_lmu (h : t.lmu = s.lmu) : p.same s.lmu t.lmu := by
  rw [h]
  exact (PartKept.refl p s).same

theorem PartKept.note (h : ¬(k = p.kind ∧ who = p.subject)) (present : Bool) (s : State) :
    PartKept p s (note k who present s) where
  same := same_of_lmu (by simp)
  entries := by
    rw [State.partEntries, State.partEntries, note_pru]
    refine observeEntries_pairs (fun e f h1 h2 => by rw [h1, h2]) fun e h1 h2 => ?_
    rw [h1, h2]
    simp only [Bool.and_eq_false_iff, beq_eq_false_iff_ne]
    exact not_and_or.1 h

theorem PartKept.noteIf (h : ¬(k = p.kind ∧ who = p.subject)) (go present : Bool) (s : State) :
    PartKept p s (noteIf go k who present s) := by
  unfold Machine.noteIf
  split
  · exact .note h present s
  · exact .refl p s

/-- A step over the LMU alone. -/
theorem PartKept.set (h : p.same s.lmu l) : PartKept p s (s.setLmu l) := ⟨h, rfl⟩

theorem factorOf_same {m : Lmu} (h : m.derates = l.derates) (source : DSource) (target : DTarget) :
    m.factorOf source target = l.factorOf source target := by rw [factorOf_eq, factorOf_eq, h]

/-! ### What every step leaves -/

/-- What the steps of a thermal sample leave, and what they announce. -/
structure SampleFrame (a b : State) : Prop where
  clock : b.clock = a.clock
  cfl : b.cfl = a.cfl
  dmc : b.dmc = a.dmc
  wlc : b.wlc = a.wlc
  tcu : b.tcu = a.tcu
  rgc : { b.rgc with chans := a.rgc.chans } = a.rgc
  undervolt : b.lmu.undervolt = a.lmu.undervolt
  lmuOk : a.lmu.ok → b.lmu.ok
  pruOk : a.pru.ok → b.pru.ok
  steady : Steady false a b
  raised : a.lmu.ok → ∀ source target, decide (b.lmu.factorOf source target < 1000) ≠
    decide (a.lmu.factorOf source target < 1000) → Cls.derateChange.isIn b.atc.pending = true

theorem SampleFrame.refl (a : State) : SampleFrame a a :=
  ⟨rfl, rfl, rfl, rfl, rfl, rfl, rfl, id, id, .refl false a, fun _ _ _ h => absurd rfl h⟩

theorem SampleFrame.trans (h : SampleFrame a s) (k : SampleFrame s t) : SampleFrame a t where
  clock := k.clock.trans h.clock
  cfl := k.cfl.trans h.cfl
  dmc := k.dmc.trans h.dmc
  wlc := k.wlc.trans h.wlc
  tcu := k.tcu.trans h.tcu
  rgc := (congrArg (fun g : Rgc => { g with chans := a.rgc.chans }) k.rgc).trans h.rgc
  undervolt := k.undervolt.trans h.undervolt
  lmuOk := k.lmuOk ∘ h.lmuOk
  pruOk := k.pruOk ∘ h.pruOk
  steady := h.steady.trans k.steady
  raised hok source target hne := by
    by_cases e : decide (s.lmu.factorOf source target < 1000) = decide (a.lmu.factorOf source target < 1000)
    · exact k.raised (h.lmuOk hok) source target (by rw [e]; exact hne)
    · exact k.steady.attention _ (h.raised hok source target e)

theorem SampleFrame.post (source : DSource) (target : DTarget) (factor : Nat) (s : State) :
    SampleFrame s (post source target factor s) where
  clock := by simp
  cfl := by simp
  dmc := by simp
  wlc := by simp
  tcu := by simp
  rgc := by simp
  undervolt := by rw [post_derates]
  lmuOk hok := post_ok hok source target factor
  pruOk := by simp
  steady := post_steady (.refl false s) source target factor
  raised hok source' target' hne := by
    by_cases e : source = source' ∧ target = target'
    · obtain ⟨rfl, rfl⟩ := e
      rw [post_factor hok] at hne
      refine post_raises hok (fun k => hne ?_)
      rw [← k]
      congr 1
      exact propext (by omega)
    · exact absurd (by rw [post_factor_other e]) hne

theorem SampleFrame.note (k : Kind) (who : Subject) (present : Bool) (s : State) :
    SampleFrame s (note k who present s) :=
  ⟨by simp, by simp, by simp, by simp, by simp, by simp, by simp, by simp, fun hok => note_ok hok k who present,
    note_steady_page (.refl false s) k who present, fun _ _ _ h => absurd (by simp) h⟩

theorem SampleFrame.noteIf (go : Bool) (k : Kind) (who : Subject) (present : Bool) (s : State) :
    SampleFrame s (noteIf go k who present s) := by
  unfold Machine.noteIf
  split
  · exact .note k who present s
  · exact .refl s

theorem SampleFrame.set (hd : l.derates = s.lmu.derates) (hu : l.undervolt = s.lmu.undervolt) :
    SampleFrame s (s.setLmu l) where
  clock := rfl
  cfl := rfl
  dmc := rfl
  wlc := rfl
  tcu := rfl
  rgc := rfl
  undervolt := hu
  lmuOk hok := by
    show l.ok
    unfold Lmu.ok
    rw [hd]
    exact hok
  pruOk := id
  steady := setLmu_steady (.refl false s) nofun
  raised _ source target h := absurd (congrArg (fun n => decide (n < 1000)) (factorOf_same hd source target)) h

end
end Sys2Proof.Machine
end

section
/-! The steps of a thermal sample, each over its own part (R161 to R169). -/

namespace Sys2Proof.Machine

section
variable {a b s t u x : State} {k : Kind} {source : DSource} {target : DTarget} {factor : Nat}
  {present : Bool} {l m : Lmu} {p q : LmuPart}

/-! ### A step over one part -/

/-- A step over one part: the others stay. -/
structure Samples (p : LmuPart) (a b : State) : Prop where
  frame : SampleFrame a b
  others : ∀ q, q ≠ p → PartKept q a b

theorem Samples.refl (p : LmuPart) (a : State) : Samples p a a := ⟨.refl a, fun q _ => .refl q a⟩

theorem Samples.trans (h : Samples p a s) (k : Samples p s t) : Samples p a t :=
  ⟨h.frame.trans k.frame, fun q hq => (h.others q hq).trans (k.others q hq)⟩

theorem owns_unique (h : p.owns source target) (k : q.owns source target) : q = p := by
  cases p <;> cases q <;> simp_all [LmuPart.owns]

theorem reports_unique (h : p.kind = q.kind) (k : p.subject = q.subject) : q = p := by
  cases p <;> cases q <;> simp_all [LmuPart.kind, LmuPart.subject]

theorem Samples.post (h : p.owns source target) (factor : Nat) (s : State) :
    Samples p s (post source target factor s) :=
  ⟨.post source target factor s, fun _ hq => .post (fun k => hq (owns_unique h k)) factor s⟩

theorem Samples.note (p : LmuPart) (present : Bool) (s : State) : Samples p s (note p.kind p.subject present s) :=
  ⟨.note p.kind p.subject present s, fun _ hq => .note (fun k => hq (reports_unique k.1 k.2)) present s⟩

theorem Samples.noteIf (p : LmuPart) (go present : Bool) (s : State) :
    Samples p s (noteIf go p.kind p.subject present s) :=
  ⟨.noteIf go p.kind p.subject present s, fun _ hq => .noteIf (fun k => hq (reports_unique k.1 k.2)) go present s⟩

theorem Samples.set (hd : l.derates = s.lmu.derates) (hu : l.undervolt = s.lmu.undervolt)
    (h : ∀ q, q ≠ p → q.same s.lmu l) : Samples p s (s.setLmu l) :=
  ⟨.set hd hu, fun q hq => .set (h q hq)⟩

/-- What is reported of a part, as its entries say. -/
theorem observed_kept (h : PartKept p a b) (ho : a.pru.observed p.kind p.subject present) :
    b.pru.observed p.kind p.subject present := observed_of_filter h.entries ho

/-! ### The blower (R165) -/

/-- An LMU with other values of the ambient and the blower. -/
theorem same_of_blower {ambient : Int} {duty inactive active : Nat} {fail : Bool} (h : q ≠ .blower) :
    q.same l { l with ambient, dutyUsed := duty, inactive, activeCount := active, blowerFail := fail } := by
  cases q with
  | blower => exact absurd rfl h
  | bank b => rfl
  | wheel w => rfl
  | load => rfl

theorem setBlower_samples {ambient : Int} {duty inactive active : Nat} {fail : Bool} : Samples .blower s (s.setLmu
    { s.lmu with ambient, dutyUsed := duty, inactive, activeCount := active, blowerFail := fail }) :=
  .set rfl rfl fun _ h => same_of_blower h

theorem takeAmbient_samples (s : State) : Samples .blower s (takeAmbient s) := setBlower_samples

theorem settleDuty_samples (s : State) : Samples .blower s (settleDuty s) := setBlower_samples

theorem setBlowerFail_samples (s : State) : Samples .blower s (setBlowerFail s) := by
  have k : Samples .blower s (s.setLmu s.lmu.blowerFailed) := setBlower_samples
  rw [setBlowerFail_eq]
  generalize s.setLmu s.lmu.blowerFailed = t at k
  exact (k.trans (.note .blower true t)).trans (.post (p := .blower) ⟨rfl, rfl⟩ _ _)

theorem clearBlowerFail_samples (s : State) : Samples .blower s (clearBlowerFail s) := by
  have k : Samples .blower s (s.setLmu s.lmu.blowerWorks) := setBlower_samples
  rw [clearBlowerFail_eq]
  generalize s.setLmu s.lmu.blowerWorks = t at k
  exact (k.trans (.note .blower false t)).trans (.post (p := .blower) ⟨rfl, rfl⟩ _ _)

theorem judgeBlower_samples (running : Bool) (s : State) : Samples .blower s (judgeBlower running s) := by
  unfold judgeBlower
  dsimp only
  split
  · split
    · split
      · exact clearBlowerFail_samples s
      · exact setBlower_samples
    · exact setBlower_samples
  · split
    · split
      · exact setBlowerFail_samples s
      · exact setBlower_samples
    · exact setBlower_samples

/-- What the judgement of the blower leaves (R165). -/
structure BlowerJudged (commanded : Nat) (running : Bool) (x y : BlowerView) : Prop where
  stopped : x.fail = false → 19661 ≤ commanded → running = false →
    y.inactive = min 30 (x.inactive + 1) ∧ y.fail = decide (30 ≤ x.inactive + 1) ∧
    (y.fail = true → y.activeCount = 0 ∧ y.factor = 250)
  idle : x.fail = false → commanded < 19661 ∨ running = true → y.inactive = 0 ∧ y.fail = false
  runs : x.fail = true → running = true →
    y.activeCount = min 10 (x.activeCount + 1) ∧ y.fail = decide (x.activeCount + 1 < 10) ∧
    (y.fail = false → y.inactive = 0 ∧ y.factor = 1000)
  fails : x.fail = true → running = false → y.activeCount = 0 ∧ y.fail = true

theorem setBlowerFail_view (hok : s.lmu.ok) : (setBlowerFail s).lmu.blowerView =
    { s.lmu.blowerView with fail := true, inactive := 30, activeCount := 0, factor := 250 } ∧
    (s.pru.ok → (setBlowerFail s).pru.observed .blowerFail .global true) := by
  have hset : (note .blowerFail .global true (s.setLmu s.lmu.blowerFailed)).lmu = s.lmu.blowerFailed := by simp
  have hobs : s.pru.ok → (note .blowerFail .global true (s.setLmu s.lmu.blowerFailed)).pru.observed .blowerFail
      .global true := fun h => note_observed (s := s.setLmu s.lmu.blowerFailed) h _ _ _
  rw [setBlowerFail_eq]
  generalize note .blowerFail .global true (s.setLmu s.lmu.blowerFailed) = u at hset hobs
  have hf := post_factor (s := u) (by rw [hset]; exact hok) .blower .allBanks 250
  refine ⟨?_, fun h => by simpa using hobs h⟩
  rw [Lmu.blowerView, hf, post_derates, hset]
  rfl

theorem clearBlowerFail_view (hok : s.lmu.ok) : (clearBlowerFail s).lmu.blowerView =
    { s.lmu.blowerView with fail := false, inactive := 0, activeCount := 10, factor := 1000 } ∧
    (s.pru.ok → (clearBlowerFail s).pru.observed .blowerFail .global false) := by
  have hset : (note .blowerFail .global false (s.setLmu s.lmu.blowerWorks)).lmu = s.lmu.blowerWorks := by simp
  have hobs : s.pru.ok → (note .blowerFail .global false (s.setLmu s.lmu.blowerWorks)).pru.observed .blowerFail
      .global false := fun h => note_observed (s := s.setLmu s.lmu.blowerWorks) h _ _ _
  rw [clearBlowerFail_eq]
  generalize note .blowerFail .global false (s.setLmu s.lmu.blowerWorks) = u at hset hobs
  have hf := post_factor (s := u) (by rw [hset]; exact hok) .blower .allBanks 1000
  refine ⟨?_, fun h => by simpa using hobs h⟩
  rw [Lmu.blowerView, hf, post_derates, hset]
  rfl

theorem judgeBlower_judged (hok : s.lmu.ok) (running : Bool) :
    BlowerJudged s.lmu.commanded running s.lmu.blowerView (judgeBlower running s).lmu.blowerView := by
  have e : ∀ l : Lmu, (s.setLmu l).lmu = l := fun _ => rfl
  unfold judgeBlower judgedDuty
  dsimp only
  split
  case isTrue hfail =>
    split
    case isTrue hrun =>
      split
      case isTrue hc =>
        rw [(clearBlowerFail_view hok).1]
        constructor <;> simp_all [Lmu.blowerView]
      case isFalse hc =>
        constructor <;> simp_all [Lmu.blowerView]
        omega
    case isFalse hrun => constructor <;> simp_all [Lmu.blowerView]
  case isFalse hfail =>
    split
    case isTrue hjudged =>
      split
      case isTrue hc =>
        rw [(setBlowerFail_view hok).1]
        constructor <;> simp_all [Lmu.blowerView]
      case isFalse hc =>
        constructor <;> simp_all [Lmu.blowerView]
        omega
    case isFalse hjudged =>
      constructor <;> simp_all [Lmu.blowerView]

theorem judgeBlower_observed (hok : s.lmu.ok) (hpru : s.pru.ok) {running : Bool}
    (h : (judgeBlower running s).lmu.blowerFail ≠ s.lmu.blowerFail) :
    (judgeBlower running s).pru.observed .blowerFail .global (judgeBlower running s).lmu.blowerFail := by
  obtain ⟨hclear, hclears⟩ := clearBlowerFail_view hok
  obtain ⟨hset, hsets⟩ := setBlowerFail_view hok
  have hclear : (clearBlowerFail s).lmu.blowerFail = false := (congrArg BlowerView.fail hclear :)
  have hset : (setBlowerFail s).lmu.blowerFail = true := (congrArg BlowerView.fail hset :)
  unfold judgeBlower at h ⊢
  dsimp only at h ⊢
  split at h
  case isTrue hfail =>
    rw [if_pos hfail]
    split at h
    case isTrue hrun =>
      rw [if_pos hrun]
      split at h
      case isTrue hc =>
        rw [if_pos hc, hclear]
        exact hclears hpru
      case isFalse => exact absurd rfl h
    case isFalse => exact absurd rfl h
  case isFalse hfail =>
    rw [if_neg hfail]
    split at h
    case isTrue hjudged =>
      rw [if_pos hjudged]
      split at h
      case isTrue hc =>
        rw [if_pos hc, hset]
        exact hsets hpru
      case isFalse => exact absurd rfl h
    case isFalse => exact absurd rfl h

theorem judgeBlower_rest (running : Bool) (s : State) : (judgeBlower running s).lmu.ambient = s.lmu.ambient ∧
    (judgeBlower running s).lmu.commanded = s.lmu.commanded := by
  have hclear : (clearBlowerFail s).lmu.ambient = s.lmu.ambient ∧ (clearBlowerFail s).lmu.commanded = s.lmu.commanded := by
    rw [clearBlowerFail_eq, post_derates]
    simp [Lmu.blowerWorks]
  have hset : (setBlowerFail s).lmu.ambient = s.lmu.ambient ∧ (setBlowerFail s).lmu.commanded = s.lmu.commanded := by
    rw [setBlowerFail_eq, post_derates]
    simp [Lmu.blowerFailed]
  unfold judgeBlower
  dsimp only
  split
  · split
    · split
      · exact hclear
      · exact ⟨rfl, rfl⟩
    · exact ⟨rfl, rfl⟩
  · split
    · split
      · exact hset
      · exact ⟨rfl, rfl⟩
    · exact ⟨rfl, rfl⟩

/-- Steps 1 and 2 of R161. -/
def blowerTaken (running : Bool) (s : State) : State := settleDuty (judgeBlower running (takeAmbient s))

/-- What those steps leave of the blower. -/
structure BlowerTaken (running : Bool) (s t : State) : Prop where
  samples : Samples .blower s t
  ambient : t.lmu.ambient = 10 * s.ambientNow
  judged : BlowerJudged s.lmu.commanded running s.lmu.blowerView t.lmu.blowerView
  duty : t.lmu.dutyUsed = if t.lmu.blowerFail then 0 else s.lmu.commanded
  observed : s.pru.ok → t.lmu.blowerFail ≠ s.lmu.blowerFail →
    t.pru.observed .blowerFail .global t.lmu.blowerFail

theorem blowerTaken_spec (hok : s.lmu.ok) (running : Bool) : BlowerTaken running s (blowerTaken running s) := by
  have h1 := takeAmbient_samples s
  have hambient : (takeAmbient s).lmu.ambient = 10 * s.ambientNow := rfl
  have hcommanded : (takeAmbient s).lmu.commanded = s.lmu.commanded := rfl
  have hview : (takeAmbient s).lmu.blowerView = { s.lmu.blowerView with ambient := 10 * s.ambientNow } := rfl
  have hfail : (takeAmbient s).lmu.blowerFail = s.lmu.blowerFail := rfl
  rw [blowerTaken]
  generalize takeAmbient s = a at *
  have h2 := judgeBlower_samples running a
  have hjudged := judgeBlower_judged (h1.frame.lmuOk hok) running
  have hobs := fun hpru => judgeBlower_observed (h1.frame.lmuOk hok) (h1.frame.pruOk hpru) (running := running)
  obtain ⟨k1, k2⟩ := judgeBlower_rest running a
  generalize judgeBlower running a = b at *
  rw [hcommanded, hview] at hjudged
  obtain ⟨j1, j2, j3, j4⟩ := hjudged
  refine ⟨(h1.trans h2).trans (settleDuty_samples b), k1.trans hambient, ⟨j1, j2, j3, j4⟩, ?_, fun hpru h => ?_⟩
  · show (if b.lmu.blowerFail then 0 else b.lmu.commanded) = if b.lmu.blowerFail then 0 else s.lmu.commanded
    rw [k2, hcommanded]
  · exact hobs hpru (by rw [hfail]; exact h)

/-! ### A bank (R162 to R164) -/

theorem same_of_bank {b : Bank} (h : q ≠ .bank b) (hbank : ∀ c, c ≠ b → m.bankView c = l.bankView c)
    (hblower : m.blowerView = l.blowerView) (hwheel : ∀ w, m.wheelView w = l.wheelView w)
    (hload : m.loadView = l.loadView) : q.same l m := by
  cases q with
  | blower => exact hblower
  | bank c => exact hbank c fun e => h (by rw [e])
  | wheel w => exact hwheel w
  | load => exact hload

theorem updateHeat_samples (b : Bank) (s : State) : Samples (.bank b) s (updateHeat b s) := by
  refine ⟨⟨rfl, rfl, rfl, rfl, rfl, rfl, rfl, id, id, ?_, fun _ _ _ h => absurd rfl h⟩, fun q hq => ⟨?_, rfl⟩⟩
  · exact setLmu_steady (setRgc_steady (.refl false s) nofun) nofun
  · refine same_of_bank hq (fun c hc => ?_) rfl (fun _ => rfl) rfl
    simp [updateHeat, Lmu.bankView, PerBank_get_set, hc, Lmu.factorOf]

/-- GRID_HOT of a bank is set to a value, with its clear count. -/
def Lmu.hotSet (l : Lmu) (b : Bank) (hot : Bool) (clear : Nat) : Lmu :=
  { l with hot := l.hot.set b hot, hotClear := l.hotClear.set b clear }

theorem hotSet_samples {b : Bank} {hot : Bool} {clear : Nat} : Samples (.bank b) s (s.setLmu (s.lmu.hotSet b hot clear)) :=
  .set rfl rfl fun q hq => same_of_bank hq (fun c hc => by
    simp [Lmu.hotSet, Lmu.bankView, PerBank_get_set, hc, Lmu.factorOf]) rfl (fun _ => rfl) rfl

/-- The judgement of GRID_HOT sets it, and reports it where it changes. -/
theorem judgeGridHot_eq (b : Bank) (s : State) : ∃ hot clear, (judgeGridHot b s = s.setLmu (s.lmu.hotSet b hot clear) ∧
      hot = s.lmu.hot.get b ∨
    judgeGridHot b s = note .gridHot (.bank b) hot (s.setLmu (s.lmu.hotSet b hot clear))) ∧
    (s.lmu.hot.get b = false → hot = decide (10 * (s.cfg.thetaTrip : Int) ≤ s.lmu.theta.get b) ∧ clear = 0) ∧
    (s.lmu.hot.get b = true → s.lmu.theta.get b < 10 * ((s.cfg.thetaTrip : Int) - 50) →
      clear = min 10 (s.lmu.hotClear.get b + 1) ∧ hot = decide (s.lmu.hotClear.get b + 1 < 10)) ∧
    (s.lmu.hot.get b = true → 10 * ((s.cfg.thetaTrip : Int) - 50) ≤ s.lmu.theta.get b → clear = 0 ∧ hot = true) := by
  have hsame : s.lmu.hot.set b (s.lmu.hot.get b) = s.lmu.hot := by cases b <;> rfl
  have hset : ∀ {hot : Bool} (clear : Nat), s.lmu.hot.get b = hot →
      s.setLmu { s.lmu with hotClear := s.lmu.hotClear.set b clear } = s.setLmu (s.lmu.hotSet b hot clear) := by
    intro hot clear h
    rw [Lmu.hotSet, ← h, hsame]
  unfold judgeGridHot State.gridCool
  dsimp only
  split
  case isTrue hhot =>
    split
    case isTrue hcool =>
      have hcool := of_decide_eq_true hcool
      split
      case isTrue hc =>
        refine ⟨false, 10, .inr rfl, fun h => ?_, fun _ _ => ⟨by omega, by simp; omega⟩, fun _ h => by omega⟩
        rw [hhot] at h
        cases h
      case isFalse hc =>
        refine ⟨true, s.lmu.hotClear.get b + 1, .inl ⟨hset _ hhot, hhot.symm⟩, fun h => ?_,
          fun _ _ => ⟨by omega, by simp; omega⟩, fun _ h => by omega⟩
        rw [hhot] at h
        cases h
    case isFalse hcool =>
      have hcool := of_decide_eq_false (Bool.not_eq_true _ ▸ hcool)
      refine ⟨true, 0, .inl ⟨hset _ hhot, hhot.symm⟩, fun h => ?_, fun _ h => absurd h hcool, fun _ _ => ⟨rfl, rfl⟩⟩
      rw [hhot] at h
      cases h
  case isFalse hhot =>
    have hhot : s.lmu.hot.get b = false := Bool.not_eq_true _ ▸ hhot
    have habsurd : s.lmu.hot.get b = true → False := fun h => by
      rw [hhot] at h
      cases h
    split
    case isTrue htrip =>
      exact ⟨true, 0, .inr rfl, fun _ => ⟨(decide_eq_true htrip).symm, rfl⟩, fun h => (habsurd h).elim,
        fun h => (habsurd h).elim⟩
    case isFalse htrip =>
      exact ⟨false, 0, .inl ⟨hset _ hhot, hhot.symm⟩, fun _ => ⟨(decide_eq_false htrip).symm, rfl⟩,
        fun h => (habsurd h).elim, fun h => (habsurd h).elim⟩

theorem judgeGridHot_samples (b : Bank) (s : State) : Samples (.bank b) s (judgeGridHot b s) := by
  obtain ⟨hot, clear, h, -⟩ := judgeGridHot_eq b s
  have k : Samples (.bank b) s (s.setLmu (s.lmu.hotSet b hot clear)) := hotSet_samples
  rcases h with ⟨h, -⟩ | h
  · rw [h]
    exact k
  · rw [h]
    exact k.trans (.note (.bank b) hot _)

theorem dropBank_eq (b : Bank) (s : State) : ∃ u, noteIf (s.lmu.hot.get b) .gridHot (.bank b) false
      (post .gridHeat (.bank b) 1000 s) = u ∧ dropBank b s = u.setLmu (u.lmu.hotSet b false 0) :=
  ⟨_, rfl, rfl⟩

theorem dropBank_samples (b : Bank) (s : State) : Samples (.bank b) s (dropBank b s) := by
  obtain ⟨u, hu, h⟩ := dropBank_eq b s
  have k : Samples (.bank b) s (post .gridHeat (.bank b) 1000 s) := .post (p := .bank b) ⟨rfl, rfl⟩ _ _
  have k := k.trans (.noteIf (.bank b) (s.lmu.hot.get b) false _)
  rw [show noteIf (s.lmu.hot.get b) (LmuPart.bank b).kind (LmuPart.bank b).subject false
    (post .gridHeat (.bank b) 1000 s) = u from hu] at k
  rw [h]
  exact k.trans hotSet_samples

theorem sampleBank_samples (b : Bank) (s : State) : Samples (.bank b) s (sampleBank b s) := by
  unfold sampleBank
  dsimp only
  split
  · have k := updateHeat_samples b s
    generalize updateHeat b s = u at k
    have k2 : Samples (.bank b) s (post .gridHeat (.bank b) (u.cfg.heatFactor (u.lmu.theta.get b)) u) :=
      k.trans (.post (p := .bank b) ⟨rfl, rfl⟩ _ u)
    exact k2.trans (judgeGridHot_samples b _)
  · exact dropBank_samples b s

/-- The judgement of a bank's GRID_HOT (R164). -/
structure HotJudged (trip : Nat) (x y : BankView) : Prop where
  rises : x.hot = false → y.hot = decide (10 * (trip : Int) ≤ y.theta) ∧ y.hotClear = 0
  cools : x.hot = true → y.theta < 10 * ((trip : Int) - 50) →
    y.hotClear = min 10 (x.hotClear + 1) ∧ y.hot = decide (x.hotClear + 1 < 10)
  stays : x.hot = true → 10 * ((trip : Int) - 50) ≤ y.theta → y.hotClear = 0 ∧ y.hot = true

/-- The store and the temperature of a configured bank after a sample, and what they bring (R162, R164). -/
structure BankSampled (c : Params) (vF onUs duty : Nat) (ambient : Int) (b : Bank) (x y : BankView) : Prop where
  eIn : y.eIn = vF * vF * onUs / (c.resistance.get b * 1000)
  eOut : y.eOut = ((c.gNat + c.gBlow * duty / 65536 : Nat) * (x.theta - ambient)).tdiv 100
  onUs : y.onUs = onUs
  heat : y.heat = min (c.capacity.get b * 1000) ((x.heat : Int) + y.eIn - y.eOut).toNat
  theta : y.theta = ambient + (y.heat * 10 / c.capacity.get b : Nat)
  factor : y.factor = fallingFactor (10 * c.thetaOn) (10 * c.thetaTrip) y.theta
  judged : HotJudged c.thetaTrip x y

end
end Sys2Proof.Machine
end

section
/-! The banks, the wheels and the payload in a thermal sample (R162 to R169). -/

namespace Sys2Proof.Machine

section
variable {a s t u x : State} {l m : Lmu} {b : Bank} {w : Wheel}

/-! ### A bank -/

theorem fallingFactor_le (onset bound : Nat) (v : Int) : fallingFactor onset bound v ≤ 1000 := by
  unfold fallingFactor
  split
  · exact Nat.le_refl _
  · split
    · exact Nat.zero_le _
    · refine Nat.div_le_of_le_mul ?_
      rw [Nat.mul_comm (bound - onset)]
      rw [Nat.mul_comm]
      exact Nat.mul_le_mul_left _ (by omega)

theorem hotSet_view (l : Lmu) (b : Bank) (hot : Bool) (clear : Nat) :
    (l.hotSet b hot clear).bankView b = { l.bankView b with hot := hot, hotClear := clear } := by
  simp [Lmu.hotSet, Lmu.bankView, Lmu.factorOf]

theorem divInt_hundred (x : Int) : divInt false x 100 = x.tdiv 100 := by
  show x.sign * 1 * ((x.natAbs / 100 : Nat) : Int) = x.tdiv 100
  cases x with
  | ofNat n =>
    cases n with
    | zero => rfl
    | succ n =>
      show 1 * 1 * _ = _
      simp
      rfl
  | negSucc n =>
    show -1 * 1 * _ = -_
    simp

theorem heatOut_eq (c : Params) (duty : Nat) (rise : Int) :
    heatOut c duty rise = ((c.gNat + c.gBlow * duty / 65536 : Nat) * rise).tdiv 100 := by
  unfold heatOut conductance
  exact divInt_hundred _

/-- A bank after its store was updated. -/
theorem updateHeat_view (b : Bank) (s : State) : (updateHeat b s).lmu.bankView b = { s.lmu.bankView b with
    heat := limit (s.cfg.maxHeat b) ((s.lmu.heat.get b : Int) +
      heatIn s.cfg b s.rgc.vF (s.rgc.chans.get b).onTotal -
      heatOut s.cfg s.lmu.dutyUsed (s.lmu.theta.get b - s.lmu.ambient))
    theta := s.cfg.temperature b s.lmu.ambient (limit (s.cfg.maxHeat b) ((s.lmu.heat.get b : Int) +
      heatIn s.cfg b s.rgc.vF (s.rgc.chans.get b).onTotal -
      heatOut s.cfg s.lmu.dutyUsed (s.lmu.theta.get b - s.lmu.ambient)))
    eIn := heatIn s.cfg b s.rgc.vF (s.rgc.chans.get b).onTotal
    eOut := heatOut s.cfg s.lmu.dutyUsed (s.lmu.theta.get b - s.lmu.ambient)
    onUs := (s.rgc.chans.get b).onTotal } := by
  simp [updateHeat, Lmu.bankView, Lmu.factorOf]

theorem judgeGridHot_judged (b : Bank) (s : State) :
    HotJudged s.cfg.thetaTrip (s.lmu.bankView b) ((judgeGridHot b s).lmu.bankView b) ∧
    (judgeGridHot b s).lmu.bankView b = { s.lmu.bankView b with
      hot := ((judgeGridHot b s).lmu.bankView b).hot, hotClear := ((judgeGridHot b s).lmu.bankView b).hotClear } ∧
    (s.pru.ok → ((judgeGridHot b s).lmu.bankView b).hot ≠ (s.lmu.bankView b).hot →
      (judgeGridHot b s).pru.observed .gridHot (.bank b) ((judgeGridHot b s).lmu.bankView b).hot) := by
  obtain ⟨hot, clear, h, h1, h2, h3⟩ := judgeGridHot_eq b s
  have hview : (judgeGridHot b s).lmu.bankView b = { s.lmu.bankView b with hot := hot, hotClear := clear } := by
    rw [← hotSet_view]
    rcases h with ⟨h, -⟩ | h
    · rw [h]
      rfl
    · rw [h]
      simp
  rw [hview]
  refine ⟨⟨fun k => ⟨(h1 k).1, (h1 k).2⟩, h2, h3⟩, rfl, fun hok hne => ?_⟩
  rcases h with ⟨-, h⟩ | h
  · exact absurd h hne
  · rw [h]
    exact note_observed (s := s.setLmu (s.lmu.hotSet b hot clear)) hok _ _ _

theorem sampleBank_sampled (hok : s.lmu.ok) (hb : s.cfg.bank b = true) :
    BankSampled s.cfg s.rgc.vF (s.rgc.chans.get b).onTotal s.lmu.dutyUsed s.lmu.ambient b (s.lmu.bankView b)
      ((sampleBank b s).lmu.bankView b) ∧
    (s.pru.ok → ((sampleBank b s).lmu.bankView b).hot ≠ (s.lmu.bankView b).hot →
      (sampleBank b s).pru.observed .gridHot (.bank b) ((sampleBank b s).lmu.bankView b).hot) := by
  have hsample : sampleBank b s = judgeGridHot b (post .gridHeat (.bank b)
      ((updateHeat b s).cfg.heatFactor ((updateHeat b s).lmu.theta.get b)) (updateHeat b s)) := if_pos hb
  have hview := updateHeat_view b s
  have hcfg : (updateHeat b s).cfg = s.cfg := rfl
  have hpru : (updateHeat b s).pru = s.pru := rfl
  have hok : (updateHeat b s).lmu.ok := hok
  rw [hsample, hcfg]
  generalize updateHeat b s = u at *
  have hpost : (post .gridHeat (.bank b) (s.cfg.heatFactor (u.lmu.theta.get b)) u).lmu.bankView b =
      { u.lmu.bankView b with factor := s.cfg.heatFactor (u.lmu.bankView b).theta } := by
    have hf := post_factor hok .gridHeat (.bank b) (s.cfg.heatFactor (u.lmu.theta.get b))
    rw [Nat.min_eq_left (show s.cfg.heatFactor _ ≤ 1000 from fallingFactor_le _ _ _)] at hf
    rw [Lmu.bankView, hf, post_derates]
    rfl
  have hpru2 : (post .gridHeat (.bank b) (s.cfg.heatFactor (u.lmu.theta.get b)) u).pru = s.pru := by simpa using hpru
  have hcfg2 : (post .gridHeat (.bank b) (s.cfg.heatFactor (u.lmu.theta.get b)) u).cfg = s.cfg := by
    rw [← hcfg]
    exact congrArg Cfl.active (by simp)
  generalize post .gridHeat (.bank b) (s.cfg.heatFactor (u.lmu.theta.get b)) u = v at hpost hpru2 hcfg2
  obtain ⟨k1, k2, k3⟩ := judgeGridHot_judged b v
  rw [hcfg2] at k1
  rw [hpru2] at k3
  rw [hpost, hview] at k1 k2 k3
  generalize judgeGridHot b v = y at *
  generalize y.lmu.bankView b = z at *
  refine ⟨⟨by rw [k2]; rfl, ?_, by rw [k2], by rw [k2]; rfl, by rw [k2]; rfl, by rw [k2]; rfl,
    ⟨k1.rises, k1.cools, k1.stays⟩⟩, k3⟩
  rw [k2]
  exact heatOut_eq _ _ _

/-- What a sample leaves of a bank that is not configured. -/
structure BankDropped (x y : BankView) : Prop where
  heat : y.heat = x.heat
  theta : y.theta = x.theta
  hot : y.hot = false
  hotClear : y.hotClear = 0
  factor : y.factor = 1000

theorem sampleBank_dropped (hok : s.lmu.ok) (hb : s.cfg.bank b = false) :
    BankDropped (s.lmu.bankView b) ((sampleBank b s).lmu.bankView b) ∧
    (s.pru.ok → (s.lmu.bankView b).hot = true → (sampleBank b s).pru.observed .gridHot (.bank b) false) := by
  have hsample : sampleBank b s = dropBank b s := if_neg (by simp [hb])
  obtain ⟨u, hu, hdrop⟩ := dropBank_eq b s
  have hpost : (post .gridHeat (.bank b) 1000 s).lmu.bankView b = { s.lmu.bankView b with factor := 1000 } := by
    have hf := post_factor hok .gridHeat (.bank b) 1000
    rw [Lmu.bankView, hf, post_derates]
    rfl
  have hlmu : u.lmu = (post .gridHeat (.bank b) 1000 s).lmu := by
    rw [← hu]
    simp
  have hpru : (post .gridHeat (.bank b) 1000 s).pru = s.pru := by simp
  generalize post .gridHeat (.bank b) 1000 s = v at hpost hlmu hpru hu
  have hview : (u.setLmu (u.lmu.hotSet b false 0)).lmu.bankView b =
      { u.lmu.bankView b with hot := false, hotClear := 0 } := hotSet_view u.lmu b false 0
  rw [hsample, hdrop, hview, hlmu, hpost]
  refine ⟨⟨rfl, rfl, rfl, rfl, rfl⟩, fun hok hhot => ?_⟩
  have hnote : noteIf (s.lmu.hot.get b) .gridHot (.bank b) false v = note .gridHot (.bank b) false v := if_pos hhot
  have hobs := note_observed (s := v) (by rw [hpru]; exact hok) .gridHot (.bank b) false
  rw [← hnote, hu] at hobs
  exact hobs

/-- A sample of one bank clears its own on-time accumulator alone. -/
theorem sampleBank_rgc (b : Bank) (s : State) : (sampleBank b s).rgc =
    if s.cfg.bank b then { s.rgc with chans := s.rgc.chans.set b { s.rgc.chans.get b with onTotal := 0 } } else s.rgc := by
  unfold sampleBank
  split
  · simp [updateHeat]
  · simp

/-! ### A wheel (R166, R167) -/

/-- WINDING_HOT of a wheel is set to a value, with its two counts. -/
def Lmu.windingSet (l : Lmu) (w : Wheel) (hot : Bool) (count clear : Nat) : Lmu :=
  { l with
    windingHot := l.windingHot.set w hot, windingCount := l.windingCount.set w count
    windingClear := l.windingClear.set w clear }

theorem windingSet_view (l : Lmu) (w : Wheel) (hot : Bool) (count clear : Nat) :
    (l.windingSet w hot count clear).wheelView w = { l.wheelView w with hot := hot, count := count, clear := clear } := by
  simp [Lmu.windingSet, Lmu.wheelView, Lmu.factorOf]

theorem same_of_wheel {q : LmuPart} (h : q ≠ .wheel w) (hwheel : ∀ v, v ≠ w → m.wheelView v = l.wheelView v)
    (hblower : m.blowerView = l.blowerView) (hbank : ∀ b, m.bankView b = l.bankView b)
    (hload : m.loadView = l.loadView) : q.same l m := by
  cases q with
  | blower => exact hblower
  | bank b => exact hbank b
  | wheel v => exact hwheel v fun e => h (by rw [e])
  | load => exact hload

theorem windingSet_samples {hot : Bool} {count clear : Nat} :
    Samples (.wheel w) s (s.setLmu (s.lmu.windingSet w hot count clear)) :=
  .set rfl rfl fun q hq => same_of_wheel hq (fun v hv => by
    simp [Lmu.windingSet, Lmu.wheelView, PerWheel_get_set, hv, Lmu.factorOf]) rfl (fun _ => rfl) rfl

/-- The judgement of a wheel's WINDING_HOT (R166). -/
structure WindingJudged (bound : Nat) (temp : Int) (x y : WheelView) : Prop where
  cold : x.hot = false → y.count = (if (bound : Int) ≤ temp then min 2 (x.count + 1) else 0) ∧
    y.hot = decide ((bound : Int) ≤ temp ∧ 2 ≤ x.count + 1)
  warm : x.hot = true → y.clear = (if temp < (bound : Int) - 10 then min 10 (x.clear + 1) else 0) ∧
    y.hot = !decide (temp < (bound : Int) - 10 ∧ 10 ≤ x.clear + 1)
  turned : y.hot ≠ x.hot → if y.hot then y.clear = 0 else y.count = 0

/-- The judgement of WINDING_HOT sets it, and reports it where it changes. -/
theorem judgeWinding_eq (w : Wheel) (s : State) : ∃ hot count clear,
    (judgeWinding w s = s.setLmu (s.lmu.windingSet w hot count clear) ∧ hot = s.lmu.windingHot.get w ∨
      judgeWinding w s = note .windingHot (.wheel w) hot (s.setLmu (s.lmu.windingSet w hot count clear))) ∧
    WindingJudged s.cfg.windingLimit (s.reportedTemp w) (s.lmu.wheelView w)
      { s.lmu.wheelView w with hot := hot, count := count, clear := clear } := by
  have hhot : s.lmu.windingHot.set w (s.lmu.windingHot.get w) = s.lmu.windingHot := by cases w <;> rfl
  have hcount : s.lmu.windingCount.set w (s.lmu.windingCount.get w) = s.lmu.windingCount := by cases w <;> rfl
  have hclear : s.lmu.windingClear.set w (s.lmu.windingClear.get w) = s.lmu.windingClear := by cases w <;> rfl
  have hcold : ∀ n, { s.lmu with windingCount := s.lmu.windingCount.set w n } =
      s.lmu.windingSet w (s.lmu.windingHot.get w) n (s.lmu.windingClear.get w) := fun n => by
    rw [Lmu.windingSet, hhot, hclear]
  have hwarm : ∀ n, { s.lmu with windingClear := s.lmu.windingClear.set w n } =
      s.lmu.windingSet w (s.lmu.windingHot.get w) (s.lmu.windingCount.get w) n := fun n => by
    rw [Lmu.windingSet, hhot, hcount]
  unfold judgeWinding
  dsimp only
  split
  case isTrue h =>
    split
    case isTrue hcool =>
      split
      case isTrue hc =>
        refine ⟨false, 0, 10, .inr rfl, ⟨fun k => ?_, fun _ => ⟨?_, ?_⟩, fun _ => rfl⟩⟩
        · simp [Lmu.wheelView, h] at k
        · simp only [Lmu.wheelView, if_pos hcool]
          omega
        · simp [Lmu.wheelView, hcool, hc]
      case isFalse hc =>
        refine ⟨_, _, _, .inl ⟨congrArg s.setLmu (hwarm _), rfl⟩, ⟨fun k => ?_, fun _ => ⟨?_, ?_⟩, fun k => absurd rfl k⟩⟩
        · simp [Lmu.wheelView, h] at k
        · simp only [Lmu.wheelView, if_pos hcool]
          omega
        · simp [Lmu.wheelView, h]
          omega
    case isFalse hcool =>
      refine ⟨_, _, _, .inl ⟨congrArg s.setLmu (hwarm _), rfl⟩, ⟨fun k => ?_, fun _ => ⟨?_, ?_⟩, fun k => absurd rfl k⟩⟩
      · simp [Lmu.wheelView, h] at k
      · simp only [Lmu.wheelView, if_neg hcool]
      · simp [Lmu.wheelView, h]
        omega
  case isFalse h =>
    have h : s.lmu.windingHot.get w = false := Bool.not_eq_true _ ▸ h
    split
    case isTrue htrip =>
      split
      case isTrue hc =>
        refine ⟨true, 2, 0, .inr rfl, ⟨fun _ => ⟨?_, ?_⟩, fun k => ?_, fun _ => rfl⟩⟩
        · simp only [Lmu.wheelView, if_pos htrip]
          omega
        · simp [Lmu.wheelView, htrip]
          omega
        · simp [Lmu.wheelView, h] at k
      case isFalse hc =>
        refine ⟨_, _, _, .inl ⟨congrArg s.setLmu (hcold _), rfl⟩, ⟨fun _ => ⟨?_, ?_⟩, fun k => ?_, fun k => absurd rfl k⟩⟩
        · simp only [Lmu.wheelView, if_pos htrip]
          omega
        · simp [Lmu.wheelView, h]
          omega
        · simp [Lmu.wheelView, h] at k
    case isFalse htrip =>
      refine ⟨_, _, _, .inl ⟨congrArg s.setLmu (hcold _), rfl⟩, ⟨fun _ => ⟨?_, ?_⟩, fun k => ?_, fun k => absurd rfl k⟩⟩
      · simp only [Lmu.wheelView, if_neg htrip]
      · simp [Lmu.wheelView, h]
        omega
      · simp [Lmu.wheelView, h] at k

theorem judgeWinding_samples (w : Wheel) (s : State) : Samples (.wheel w) s (judgeWinding w s) := by
  obtain ⟨hot, count, clear, h, -⟩ := judgeWinding_eq w s
  have k : Samples (.wheel w) s (s.setLmu (s.lmu.windingSet w hot count clear)) := windingSet_samples
  rcases h with ⟨h, -⟩ | h
  · rw [h]
    exact k
  · rw [h]
    exact k.trans (.note (.wheel w) hot _)

theorem judgeWinding_judged (w : Wheel) (s : State) :
    WindingJudged s.cfg.windingLimit (s.reportedTemp w) (s.lmu.wheelView w) ((judgeWinding w s).lmu.wheelView w) ∧
    ((judgeWinding w s).lmu.wheelView w).winding = (s.lmu.wheelView w).winding ∧
    ((judgeWinding w s).lmu.wheelView w).request = (s.lmu.wheelView w).request ∧
    (s.pru.ok → ((judgeWinding w s).lmu.wheelView w).hot ≠ (s.lmu.wheelView w).hot →
      (judgeWinding w s).pru.observed .windingHot (.wheel w) ((judgeWinding w s).lmu.wheelView w).hot) := by
  obtain ⟨hot, count, clear, h, hjudged⟩ := judgeWinding_eq w s
  have hview : (judgeWinding w s).lmu.wheelView w =
      { s.lmu.wheelView w with hot := hot, count := count, clear := clear } := by
    rw [← windingSet_view]
    rcases h with ⟨h, -⟩ | h
    · rw [h]
      rfl
    · rw [h]
      simp
  rw [hview]
  refine ⟨hjudged, rfl, rfl, fun hok hne => ?_⟩
  rcases h with ⟨-, h⟩ | h
  · exact absurd h hne
  · rw [h]
    exact note_observed (s := s.setLmu (s.lmu.windingSet w hot count clear)) hok _ _ _

/-- The two derates of a wheel, posted one after the other. -/
def wheelPosts (w : Wheel) (winding request : Nat) (s : State) : State :=
  post .unitRequest (.wheel w) request (post .winding (.wheel w) winding s)

theorem wheelPosts_samples (w : Wheel) (winding request : Nat) (s : State) :
    Samples (.wheel w) s (wheelPosts w winding request s) :=
  (Samples.post (p := .wheel w) ⟨.inl rfl, rfl⟩ winding s).trans (.post (p := .wheel w) ⟨.inr rfl, rfl⟩ request _)

theorem wheelPosts_view (hok : s.lmu.ok) {winding request : Nat} (h1 : winding ≤ 1000) (h2 : request ≤ 1000) :
    (wheelPosts w winding request s).lmu.wheelView w =
      { s.lmu.wheelView w with winding := winding, request := request } := by
  have hf := post_factor hok .winding (.wheel w) winding
  have hok' := post_ok hok .winding (.wheel w) winding
  have hv : (post .winding (.wheel w) winding s).lmu.windingHot = s.lmu.windingHot ∧
      (post .winding (.wheel w) winding s).lmu.windingCount = s.lmu.windingCount ∧
      (post .winding (.wheel w) winding s).lmu.windingClear = s.lmu.windingClear := by
    rw [post_derates]
    exact ⟨rfl, rfl, rfl⟩
  unfold wheelPosts
  generalize post .winding (.wheel w) winding s = u at hf hok' hv
  obtain ⟨k1, k2, k3⟩ := hv
  have hg := post_factor hok' .unitRequest (.wheel w) request
  have ho := post_factor_other (s := u) (source := .unitRequest) (source' := .winding) (target := .wheel w)
    (target' := .wheel w) (by simp) request
  rw [Nat.min_eq_left h1] at hf
  rw [Nat.min_eq_left h2] at hg
  rw [Lmu.wheelView, hg, ho, hf, post_derates, k1, k2, k3]
  rfl

theorem sampleWheel_evaluated (h : s.evaluated w = true) : sampleWheel w s = judgeWinding w (wheelPosts w
    (fallingFactor s.cfg.windingOnset s.cfg.windingLimit (s.reportedTemp w))
    (min 1000 (s.wlc.wheels.get w).report.field3.toNat)
    (s.setLmu { s.lmu with windingTemp := s.lmu.windingTemp.set w (s.reportedTemp w) })) := by
  have e : ∀ u : State, (post .winding (.wheel w)
      (fallingFactor u.cfg.windingOnset u.cfg.windingLimit (s.reportedTemp w)) u).wlc = u.wlc := fun u => by simp
  rw [sampleWheel, if_pos h]
  dsimp only
  rw [e]
  rfl

theorem dropWheel_eq (w : Wheel) (s : State) : ∃ u, noteIf (s.lmu.windingHot.get w) .windingHot (.wheel w) false
      (wheelPosts w 1000 1000 s) = u ∧ dropWheel w s = u.setLmu (u.lmu.windingSet w false 0 0) := ⟨_, rfl, rfl⟩

theorem setTemp_samples {temps : PerWheel Int} : Samples (.wheel w) s (s.setLmu { s.lmu with windingTemp := temps }) :=
  .set rfl rfl fun _ hq => same_of_wheel hq (fun _ _ => rfl) rfl (fun _ => rfl) rfl

theorem dropWheel_samples (w : Wheel) (s : State) : Samples (.wheel w) s (dropWheel w s) := by
  obtain ⟨u, hu, h⟩ := dropWheel_eq w s
  have k := (wheelPosts_samples w 1000 1000 s).trans (.noteIf (.wheel w) (s.lmu.windingHot.get w) false _)
  rw [show noteIf (s.lmu.windingHot.get w) (LmuPart.wheel w).kind (LmuPart.wheel w).subject false
    (wheelPosts w 1000 1000 s) = u from hu] at k
  rw [h]
  exact k.trans windingSet_samples

theorem sampleWheel_samples (w : Wheel) (s : State) : Samples (.wheel w) s (sampleWheel w s) := by
  by_cases h : s.evaluated w = true
  · rw [sampleWheel_evaluated h]
    have k : Samples (.wheel w) s (s.setLmu { s.lmu with
      windingTemp := s.lmu.windingTemp.set w (s.reportedTemp w) }) := setTemp_samples
    exact (k.trans (wheelPosts_samples w _ _ _)).trans (judgeWinding_samples w _)
  · rw [sampleWheel, if_neg h]
    split
    · exact .refl _ s
    · exact dropWheel_samples w s

/-- A configured wheel that holds a report, after a sample (R166, R167). -/
structure WheelSampled (c : Params) (temp : Int) (request : Nat) (x y : WheelView) : Prop where
  winding : y.winding = fallingFactor c.windingOnset c.windingLimit temp
  request : y.request = min 1000 request
  judged : WindingJudged c.windingLimit temp x y

theorem sampleWheel_sampled (hok : s.lmu.ok) (h : s.evaluated w = true) :
    WheelSampled s.cfg (s.reportedTemp w) (s.wlc.wheels.get w).report.field3.toNat (s.lmu.wheelView w)
      ((sampleWheel w s).lmu.wheelView w) ∧
    (s.pru.ok → ((sampleWheel w s).lmu.wheelView w).hot ≠ (s.lmu.wheelView w).hot →
      (sampleWheel w s).pru.observed .windingHot (.wheel w) ((sampleWheel w s).lmu.wheelView w).hot) := by
  rw [sampleWheel_evaluated h]
  have hset : ∃ u, s.setLmu { s.lmu with windingTemp := s.lmu.windingTemp.set w (s.reportedTemp w) } = u ∧ u.lmu.ok ∧
      u.lmu.wheelView w = s.lmu.wheelView w ∧ u.pru = s.pru ∧ u.cfl = s.cfl ∧ u.wlc = s.wlc :=
    ⟨_, rfl, hok, rfl, rfl, rfl, rfl⟩
  obtain ⟨u, hu, hok, hview, hpru, hcfl, hwlc⟩ := hset
  rw [hu]
  have hposts := wheelPosts_view (w := w) hok (fallingFactor_le s.cfg.windingOnset s.cfg.windingLimit (s.reportedTemp w))
    (Nat.min_le_left 1000 (s.wlc.wheels.get w).report.field3.toNat)
  have hframe := (wheelPosts_samples w (fallingFactor s.cfg.windingOnset s.cfg.windingLimit (s.reportedTemp w))
    (min 1000 (s.wlc.wheels.get w).report.field3.toNat) u).frame
  have hpru2 : (wheelPosts w (fallingFactor s.cfg.windingOnset s.cfg.windingLimit (s.reportedTemp w))
    (min 1000 (s.wlc.wheels.get w).report.field3.toNat) u).pru = s.pru := by simpa [wheelPosts] using hpru
  generalize wheelPosts w (fallingFactor s.cfg.windingOnset s.cfg.windingLimit (s.reportedTemp w))
    (min 1000 (s.wlc.wheels.get w).report.field3.toNat) u = v at hposts hframe hpru2
  obtain ⟨k1, k2, k3, k4⟩ := judgeWinding_judged w v
  have hcfg : v.cfg = s.cfg := congrArg Cfl.active (hframe.cfl.trans hcfl)
  have htemp : v.reportedTemp w = s.reportedTemp w := by
    rw [State.reportedTemp, State.reportedTemp, hframe.wlc, hwlc]
  rw [hcfg, htemp] at k1
  rw [hpru2] at k4
  rw [hposts, hview] at k1 k2 k3 k4
  exact ⟨⟨k2, k3, ⟨k1.cold, k1.warm, k1.turned⟩⟩, k4⟩

/-- What a sample leaves of a wheel that is not configured. -/
theorem sampleWheel_dropped (hok : s.lmu.ok) (hw : s.cfg.wheel w = false) :
    (sampleWheel w s).lmu.wheelView w = { hot := false, count := 0, clear := 0, winding := 1000, request := 1000 } ∧
    (s.pru.ok → (s.lmu.wheelView w).hot = true → (sampleWheel w s).pru.observed .windingHot (.wheel w) false) := by
  have hsample : sampleWheel w s = dropWheel w s := by
    rw [sampleWheel, if_neg (by simp [State.evaluated, hw]), if_neg (by simp [hw])]
  obtain ⟨u, hu, hdrop⟩ := dropWheel_eq w s
  have hposts := wheelPosts_view (w := w) hok (Nat.le_refl 1000) (Nat.le_refl 1000)
  have hlmu : u.lmu = (wheelPosts w 1000 1000 s).lmu := by
    rw [← hu]
    simp
  have hpru : (wheelPosts w 1000 1000 s).pru = s.pru := by simp [wheelPosts]
  generalize wheelPosts w 1000 1000 s = v at hposts hlmu hpru hu
  have hview : (u.setLmu (u.lmu.windingSet w false 0 0)).lmu.wheelView w =
      { u.lmu.wheelView w with hot := false, count := 0, clear := 0 } := windingSet_view u.lmu w false 0 0
  rw [hsample, hdrop, hview, hlmu, hposts]
  refine ⟨rfl, fun hok hhot => ?_⟩
  have hnote : noteIf (s.lmu.windingHot.get w) .windingHot (.wheel w) false v =
      note .windingHot (.wheel w) false v := if_pos hhot
  have hobs := note_observed (s := v) (by rw [hpru]; exact hok) .windingHot (.wheel w) false
  rw [← hnote, hu] at hobs
  exact hobs

theorem sampleWheel_idle (hw : s.cfg.wheel w = true) (hheld : (s.wlc.wheels.get w).held = .none) :
    sampleWheel w s = s := by
  rw [sampleWheel, if_neg (by simp [State.evaluated, hheld]), if_pos hw]

end
end Sys2Proof.Machine
end

section
/-! The payload in a thermal sample, and the sample's steps in their order (R161, R168, R169). -/

namespace Sys2Proof.Machine

section
variable {a s t u x : State} {l m : Lmu} {b : Bank} {w : Wheel}

/-! ### The payload -/

theorem setLoad_samples {n : Nat} {payload cap : Option Nat} {overload : Bool} : Samples .load s (s.setLmu
    { s.lmu with standstill := n, payload := payload, speedCap := cap, overload := overload }) :=
  .set rfl rfl fun q hq => by
    cases q with
    | load => exact absurd rfl hq
    | blower => rfl
    | bank b => rfl
    | wheel w => rfl

/-- The standstill count, and the payload latched at its end (R168). -/
theorem countStandstill_eq (s : State) : countStandstill s = s.setLmu { s.lmu with
    standstill := if s.standstill then min 20 (s.lmu.standstill + 1) else 0
    payload := if (s.standstill = true ∧ 20 ≤ s.lmu.standstill + 1) ∧ s.dmc.demand.payloadKnown = true
      then some s.dmc.demand.payload else s.lmu.payload } := by
  have hend : (if s.standstill then min 20 (s.lmu.standstill + 1) else 0) = 20 ↔
      s.standstill = true ∧ 20 ≤ s.lmu.standstill + 1 := by
    cases s.standstill
    · simp
    · simp
  unfold countStandstill latchPayload
  dsimp only
  by_cases h : s.standstill = true ∧ 20 ≤ s.lmu.standstill + 1
  · rw [if_pos (hend.2 h)]
    by_cases hk : s.dmc.demand.payloadKnown = true
    · rw [if_pos (c := (s.standstill = true ∧ 20 ≤ s.lmu.standstill + 1) ∧ _) ⟨h, hk⟩]
      exact if_pos hk
    · rw [if_neg (c := (s.standstill = true ∧ 20 ≤ s.lmu.standstill + 1) ∧ _) fun k => hk k.2]
      exact if_neg hk
  · rw [if_neg (mt hend.1 h), if_neg (c := (s.standstill = true ∧ 20 ≤ s.lmu.standstill + 1) ∧ _) fun k => h k.1]

/-- The load ratio that the payload effects are formed over (R169). -/
def Lmu.ratioOf (l : Lmu) (c : Params) : Nat :=
  match l.payload with
  | some p => p * 1000 / c.ratedPayload
  | none => 0

theorem payloadEffects_eq (s : State) : ∃ e, e = payloadEffect (s.lmu.ratioOf s.cfg) ∧
    payloadEffects s = noteChange .payloadOverload .global s.lmu.overload e.2.2
      (post .payload .allWheels e.1 (s.setLmu { s.lmu with speedCap := e.2.1, overload := e.2.2 })) := by
  refine ⟨_, rfl, ?_⟩
  unfold payloadEffects Lmu.ratioOf
  cases s.lmu.payload <;> rfl

theorem payloadEffects_samples (s : State) : Samples .load s (payloadEffects s) := by
  obtain ⟨e, -, h⟩ := payloadEffects_eq s
  have k : Samples .load s (s.setLmu { s.lmu with speedCap := e.2.1, overload := e.2.2 }) := setLoad_samples
  rw [h]
  exact (k.trans (.post (p := .load) ⟨rfl, rfl⟩ e.1 _)).trans (.noteIf .load (s.lmu.overload != e.2.2) e.2.2 _)

theorem payloadEffect_le (ratio : Nat) : (payloadEffect ratio).1 ≤ 1000 := by
  unfold payloadEffect
  split
  · exact Nat.le_refl _
  · split
    · exact Nat.sub_le _ _
    · show 300 ≤ 1000
      omega

/-- The payload's part after a sample (R168, R169). -/
structure LoadSampled (still : Bool) (d : Demand) (c : Params) (x y : LoadView) : Prop where
  standstill : y.standstill = if still then min 20 (x.standstill + 1) else 0
  payload : y.payload = if (still = true ∧ 20 ≤ x.standstill + 1) ∧ d.payloadKnown = true then some d.payload
    else x.payload
  effects : (y.factor, y.speedCap, y.overload) = payloadEffect (match y.payload with
    | some p => p * 1000 / c.ratedPayload
    | none => 0)

/-- Step 5 of R161. -/
def loadTaken (s : State) : State := payloadEffects (countStandstill s)

theorem loadTaken_sampled (hok : s.lmu.ok) :
    LoadSampled s.standstill s.dmc.demand s.cfg s.lmu.loadView (loadTaken s).lmu.loadView ∧
    (s.pru.ok → (loadTaken s).lmu.overload ≠ s.lmu.overload →
      (loadTaken s).pru.observed .payloadOverload .global (loadTaken s).lmu.overload) := by
  have hcount := countStandstill_eq s
  have hstill : (countStandstill s).lmu.standstill = if s.standstill then min 20 (s.lmu.standstill + 1) else 0 := by
    rw [hcount]
    rfl
  have hpay : (countStandstill s).lmu.payload =
      if (s.standstill = true ∧ 20 ≤ s.lmu.standstill + 1) ∧ s.dmc.demand.payloadKnown = true
        then some s.dmc.demand.payload else s.lmu.payload := by
    rw [hcount]
    rfl
  have hcfg : (countStandstill s).cfg = s.cfg := by rw [hcount]; rfl
  have hover : (countStandstill s).lmu.overload = s.lmu.overload := by rw [hcount]; rfl
  have hpru : (countStandstill s).pru = s.pru := by simp
  have hok : (countStandstill s).lmu.ok := by rw [hcount]; exact hok
  rw [loadTaken]
  generalize countStandstill s = u at *
  obtain ⟨e, he, h⟩ := payloadEffects_eq u
  have hle : e.1 ≤ 1000 := he ▸ payloadEffect_le _
  have hlmu : (payloadEffects u).lmu = (post .payload .allWheels e.1 (u.setLmu
      { u.lmu with speedCap := e.2.1, overload := e.2.2 })).lmu := by
    rw [h]
    simp
  have hf := post_factor (s := u.setLmu { u.lmu with speedCap := e.2.1, overload := e.2.2 }) hok .payload .allWheels e.1
  rw [Nat.min_eq_left hle] at hf
  have hview : (payloadEffects u).lmu.loadView =
      { u.lmu.loadView with speedCap := e.2.1, overload := e.2.2, factor := e.1 } := by
    rw [hlmu, Lmu.loadView, hf, post_derates]
    rfl
  have hobs : u.pru.ok → e.2.2 ≠ u.lmu.overload → (payloadEffects u).pru.observed .payloadOverload .global e.2.2 :=
    fun hok hne => by
      rw [h]
      exact noteChange_observed (by simpa using hok) _ _ hne
  have hset : (payloadEffects u).lmu.overload = e.2.2 := (congrArg LoadView.overload hview :)
  rw [hset, hview]
  refine ⟨⟨hstill, hpay, by rw [← hcfg]; exact he⟩, fun hok hne => hobs (hpru ▸ hok) (by rw [hover]; exact hne)⟩

theorem loadTaken_samples (s : State) : Samples .load s (loadTaken s) := by
  have k : Samples .load s (countStandstill s) := by
    rw [countStandstill_eq]
    exact setLoad_samples
  exact k.trans (payloadEffects_samples _)

/-! ### The steps in their order -/

/-- Steps 1 to 5 of R161. -/
def sampled (running : Bool) (s : State) : State :=
  loadTaken (forWheels sampleWheel (forBanks sampleBank (blowerTaken running s)))

theorem thermalSteps_eq {running : Bool} (h : s.cfl.guardOn = true) :
    thermalSteps running s = showLmu (sampled running s) := if_pos h

theorem forWheels_steps {P : State → State → Prop} (htrans : ∀ {s t u}, P s t → P t u → P s u)
    {f : Wheel → State → State} (hf : ∀ w s, P s (f w s)) (s : State) : P s (forWheels f s) :=
  htrans (htrans (htrans (hf .w1 s) (hf .w2 _)) (hf .w3 _)) (hf .w4 _)

/-- A part that a run of steps leaves as it is, beside the frame. -/
structure Passed (p : LmuPart) (a b : State) : Prop where
  frame : SampleFrame a b
  kept : PartKept p a b

theorem Passed.refl (p : LmuPart) (a : State) : Passed p a a := ⟨.refl a, .refl p a⟩

variable {p q : LmuPart}

theorem Passed.trans (h : Passed p a s) (k : Passed p s t) : Passed p a t :=
  ⟨h.frame.trans k.frame, h.kept.trans k.kept⟩

theorem Samples.passed (h : Samples q a s) (hp : p ≠ q) : Passed p a s := ⟨h.frame, h.others p hp⟩

theorem banks_passed (h : ∀ c, p ≠ .bank c) (s : State) : Passed p s (forBanks sampleBank s) :=
  forBanks_steps (P := Passed p) Passed.trans (fun c s => (sampleBank_samples c s).passed (h c)) s

theorem wheels_passed (h : ∀ v, p ≠ .wheel v) (s : State) : Passed p s (forWheels sampleWheel s) :=
  forWheels_steps (P := Passed p) Passed.trans (fun v s => (sampleWheel_samples v s).passed (h v)) s

/-- What the six banks' samples leave of one, over a blower duty and an ambient. -/
structure BankAfter (duty : Nat) (ambient : Int) (b : Bank) (s t : State) : Prop where
  sampled : s.cfg.bank b = true → BankSampled s.cfg s.rgc.vF (s.rgc.chans.get b).onTotal duty ambient b
    (s.lmu.bankView b) (t.lmu.bankView b)
  chan : s.cfg.bank b = true → t.rgc.chans.get b = { s.rgc.chans.get b with onTotal := 0 }
  reported : s.pru.ok → s.cfg.bank b = true → (t.lmu.bankView b).hot ≠ (s.lmu.bankView b).hot →
    t.pru.observed .gridHot (.bank b) (t.lmu.bankView b).hot
  dropped : s.cfg.bank b = false → BankDropped (s.lmu.bankView b) (t.lmu.bankView b)
  withdrawn : s.pru.ok → s.cfg.bank b = false → (s.lmu.bankView b).hot = true → t.pru.observed .gridHot (.bank b) false

variable {duty : Nat} {ambient : Int}

theorem BankAfter.followed (h : BankAfter duty ambient b s t) (k : PartKept (.bank b) t u)
    (hc : u.rgc.chans.get b = t.rgc.chans.get b) : BankAfter duty ambient b s u := by
  have e : u.lmu.bankView b = t.lmu.bankView b := k.same
  exact ⟨by rw [e]; exact h.sampled, fun hb => hc.trans (h.chan hb),
    fun hok hb hne => observed_kept k (by rw [e] at hne ⊢; exact h.reported hok hb hne), by rw [e]; exact h.dropped,
    fun hok hb hhot => observed_kept k (h.withdrawn hok hb hhot)⟩

theorem BankAfter.preceded (h : BankAfter duty ambient b s t) (k : Passed (.bank b) a s) (hrgc : s.rgc = a.rgc) :
    BankAfter duty ambient b a t := by
  have e : s.lmu.bankView b = a.lmu.bankView b := k.kept.same
  have hcfg : s.cfg = a.cfg := congrArg Cfl.active k.frame.cfl
  obtain ⟨h1, h2, h3, h4, h5⟩ := h
  rw [hcfg, e, hrgc] at *
  exact ⟨h1, h2, fun hok => h3 (k.frame.pruOk hok), h4, fun hok => h5 (k.frame.pruOk hok)⟩

theorem sampleBank_chan {c : Bank} (h : c ≠ b) (s : State) :
    (sampleBank c s).rgc.chans.get b = s.rgc.chans.get b := by
  rw [sampleBank_rgc]
  split
  · exact (PerBank_get_set _ _ _ _).trans (if_neg fun e => h e.symm)
  · rfl

theorem banks_after (b : Bank) (hok : s.lmu.ok) :
    BankAfter s.lmu.dutyUsed s.lmu.ambient b s (forBanks sampleBank s) := by
  refine forBanks_reaches (A := fun x => Passed (.bank b) s x ∧ Passed .blower s x ∧
    x.rgc.chans.get b = s.rgc.chans.get b) b (fun c hc x hx => ?_) (fun x hx => ?_) (fun c hc x hx => ?_)
    ⟨.refl _ s, .refl _ s, rfl⟩
  · have k := sampleBank_samples c x
    exact ⟨hx.1.trans (k.passed fun e => hc (LmuPart.bank.inj e).symm), hx.2.1.trans (k.passed nofun),
      (sampleBank_chan hc x).trans hx.2.2⟩
  · obtain ⟨hbank, hblower, hchan⟩ := hx
    have hcfg : x.cfg = s.cfg := congrArg Cfl.active hbank.frame.cfl
    have hview : x.lmu.bankView b = s.lmu.bankView b := hbank.kept.same
    have hduty : x.lmu.dutyUsed = s.lmu.dutyUsed := congrArg BlowerView.dutyUsed hblower.kept.same
    have hambient : x.lmu.ambient = s.lmu.ambient := congrArg BlowerView.ambient hblower.kept.same
    have hv : x.rgc.vF = s.rgc.vF := by
      have e := congrArg Rgc.vF hbank.frame.rgc
      exact e
    have h1 := sampleBank_sampled (s := x) (b := b) (hbank.frame.lmuOk hok)
    have h2 := sampleBank_dropped (s := x) (b := b) (hbank.frame.lmuOk hok)
    rw [hcfg, hview] at h1 h2
    rw [hduty, hambient, hv, hchan] at h1
    refine ⟨fun hb => (h1 hb).1, fun hb => ?_, fun hpru hb => (h1 hb).2 (hbank.frame.pruOk hpru), fun hb => (h2 hb).1,
      fun hpru hb => (h2 hb).2 (hbank.frame.pruOk hpru)⟩
    rw [sampleBank_rgc, if_pos (by rw [hcfg]; exact hb), ← hchan]
    exact PerBank_get_set_self _ _ _
  · exact hx.followed ((sampleBank_samples c x).others _ fun e => hc (LmuPart.bank.inj e).symm) (sampleBank_chan hc x)

/-- What the four wheels' samples leave of one. -/
structure WheelAfter (w : Wheel) (s t : State) : Prop where
  sampled : s.evaluated w = true → WheelSampled s.cfg (s.reportedTemp w) (s.wlc.wheels.get w).report.field3.toNat
    (s.lmu.wheelView w) (t.lmu.wheelView w)
  reported : s.pru.ok → s.evaluated w = true → (t.lmu.wheelView w).hot ≠ (s.lmu.wheelView w).hot →
    t.pru.observed .windingHot (.wheel w) (t.lmu.wheelView w).hot
  idle : s.cfg.wheel w = true → (s.wlc.wheels.get w).held = .none → t.lmu.wheelView w = s.lmu.wheelView w
  dropped : s.cfg.wheel w = false →
    t.lmu.wheelView w = { hot := false, count := 0, clear := 0, winding := 1000, request := 1000 }
  withdrawn : s.pru.ok → s.cfg.wheel w = false → (s.lmu.wheelView w).hot = true →
    t.pru.observed .windingHot (.wheel w) false

theorem WheelAfter.followed (h : WheelAfter w s t) (k : PartKept (.wheel w) t u) : WheelAfter w s u := by
  have e : u.lmu.wheelView w = t.lmu.wheelView w := k.same
  exact ⟨by rw [e]; exact h.sampled, fun hok hw hne => observed_kept k (by rw [e] at hne ⊢; exact h.reported hok hw hne),
    by rw [e]; exact h.idle, by rw [e]; exact h.dropped, fun hok hw hhot => observed_kept k (h.withdrawn hok hw hhot)⟩

theorem WheelAfter.preceded (h : WheelAfter w s t) (k : Passed (.wheel w) a s) : WheelAfter w a t := by
  have e : s.lmu.wheelView w = a.lmu.wheelView w := k.kept.same
  have hcfg : s.cfg = a.cfg := congrArg Cfl.active k.frame.cfl
  have hwlc : s.wlc = a.wlc := k.frame.wlc
  obtain ⟨h1, h2, h3, h4, h5⟩ := h
  unfold State.evaluated at h1 h2
  unfold State.reportedTemp at h1
  rw [hcfg, hwlc, e] at h1
  rw [hcfg, hwlc, e] at h2
  rw [hcfg, hwlc, e] at h3
  rw [hcfg] at h4
  rw [hcfg, e] at h5
  exact ⟨h1, fun hok => h2 (k.frame.pruOk hok), h3, h4, fun hok => h5 (k.frame.pruOk hok)⟩

theorem wheel_after (w : Wheel) (hok : s.lmu.ok) : WheelAfter w s (sampleWheel w s) := by
  have h1 := sampleWheel_sampled (s := s) (w := w) hok
  have h2 := sampleWheel_dropped (s := s) (w := w) hok
  exact ⟨fun h => (h1 h).1, fun hpru h => (h1 h).2 hpru, fun hw hh => by rw [sampleWheel_idle hw hh],
    fun hw => (h2 hw).1, fun hpru hw => (h2 hw).2 hpru⟩

theorem wheels_after (w : Wheel) (hok : s.lmu.ok) : WheelAfter w s (forWheels sampleWheel s) := by
  refine forWheels_reaches (A := fun x => Passed (.wheel w) s x) w (fun v hv x hx => ?_) (fun x hx => ?_)
    (fun v hv x hx => ?_) (.refl _ s)
  · exact hx.trans ((sampleWheel_samples v x).passed fun e => hv (LmuPart.wheel.inj e).symm)
  · exact (wheel_after w (hx.frame.lmuOk hok)).preceded hx
  · exact hx.followed ((sampleWheel_samples v x).others _ fun e => hv (LmuPart.wheel.inj e).symm)

/-! ### Steps 1 to 5 -/

/-- What steps 1 to 5 of R161 leave. -/
structure ThermalTaken (running : Bool) (s t : State) : Prop where
  frame : SampleFrame s t
  ambient : t.lmu.ambient = 10 * s.ambientNow
  blower : BlowerJudged s.lmu.commanded running s.lmu.blowerView t.lmu.blowerView
  duty : t.lmu.dutyUsed = if t.lmu.blowerFail then 0 else s.lmu.commanded
  blowerReported : s.pru.ok → t.lmu.blowerFail ≠ s.lmu.blowerFail →
    t.pru.observed .blowerFail .global t.lmu.blowerFail
  bank : ∀ b, BankAfter t.lmu.dutyUsed t.lmu.ambient b s t
  wheel : ∀ w, WheelAfter w s t
  load : LoadSampled s.standstill s.dmc.demand s.cfg s.lmu.loadView t.lmu.loadView
  loadReported : s.pru.ok → t.lmu.overload ≠ s.lmu.overload →
    t.pru.observed .payloadOverload .global t.lmu.overload

theorem blowerTaken_rgc (running : Bool) (s : State) : (blowerTaken running s).rgc = s.rgc := by
  simp [blowerTaken]

theorem wheelsSampled_rgc (s : State) : (forWheels sampleWheel s).rgc = s.rgc := by simp [forWheels]

theorem loadTaken_rgc (s : State) : (loadTaken s).rgc = s.rgc := by simp [loadTaken]

theorem sampled_taken (hok : s.lmu.ok) (running : Bool) : ThermalTaken running s (sampled running s) := by
  have h1 := blowerTaken_spec hok running
  have hrgc1 := blowerTaken_rgc running s
  rw [sampled]
  generalize blowerTaken running s = u1 at h1 hrgc1
  have hok1 := h1.samples.frame.lmuOk hok
  have h2 := fun b => banks_after b hok1
  have p2 : ∀ p, (∀ c, p ≠ .bank c) → Passed p u1 (forBanks sampleBank u1) := fun _ h => banks_passed h u1
  generalize forBanks sampleBank u1 = u2 at h2 p2
  have f2 := (p2 .blower nofun).frame
  have h3 := fun w => wheels_after w (f2.lmuOk hok1)
  have p3 : ∀ p, (∀ v, p ≠ .wheel v) → Passed p u2 (forWheels sampleWheel u2) := fun _ h => wheels_passed h u2
  have hrgc3 := wheelsSampled_rgc u2
  generalize forWheels sampleWheel u2 = u3 at h3 p3 hrgc3
  have f3 := (p3 .blower nofun).frame
  have h4 := loadTaken_sampled (f3.lmuOk (f2.lmuOk hok1))
  have p4 : ∀ p, p ≠ .load → Passed p u3 (loadTaken u3) := fun _ h => (loadTaken_samples u3).passed h
  have f4 := (loadTaken_samples u3).frame
  have hrgc4 := loadTaken_rgc u3
  generalize loadTaken u3 = u4 at h4 p4 f4 hrgc4
  have hblower : Passed .blower u1 u4 := ((p2 .blower nofun).trans (p3 .blower nofun)).trans (p4 .blower nofun)
  have hview : u4.lmu.blowerView = u1.lmu.blowerView := hblower.kept.same
  have hambient : u4.lmu.ambient = u1.lmu.ambient := congrArg BlowerView.ambient hview
  have hduty : u4.lmu.dutyUsed = u1.lmu.dutyUsed := congrArg BlowerView.dutyUsed hview
  have hfail : u4.lmu.blowerFail = u1.lmu.blowerFail := congrArg BlowerView.fail hview
  have hload : Passed .load s u3 := ((h1.samples.passed (p := .load) nofun).trans (p2 .load nofun)).trans (p3 .load nofun)
  have hstill : u3.standstill = s.standstill := by rw [State.standstill, State.standstill, hload.frame.tcu]
  have hcfg : u3.cfg = s.cfg := congrArg Cfl.active hload.frame.cfl
  have hlv : u3.lmu.loadView = s.lmu.loadView := hload.kept.same
  have hover : u3.lmu.overload = s.lmu.overload := congrArg LoadView.overload hlv
  rw [hstill, hload.frame.dmc, hcfg, hlv, hover] at h4
  refine ⟨((h1.samples.frame.trans f2).trans f3).trans f4, hambient.trans h1.ambient, by rw [hview]; exact h1.judged,
    by rw [hduty, hfail]; exact h1.duty, fun hpru hne => ?_, fun b => ?_, fun w => ?_, h4.1,
    fun hpru => h4.2 (hload.frame.pruOk hpru)⟩
  · rw [hfail] at hne ⊢
    exact observed_kept hblower.kept (h1.observed hpru hne)
  · rw [hduty, hambient]
    have k : PartKept (.bank b) u2 u4 := ((p3 (.bank b) nofun).trans (p4 (.bank b) nofun)).kept
    exact ((h2 b).followed k (by rw [hrgc4, hrgc3])).preceded (h1.samples.passed (p := .bank b) nofun) hrgc1
  · exact ((h3 w).followed (p4 (.wheel w) nofun).kept).preceded
      ((h1.samples.passed (p := .wheel w) nofun).trans (p2 (.wheel w) nofun))

end
end Sys2Proof.Machine
end

section
/-! THERMAL_SAMPLE (R161; O56). -/

namespace Sys2Proof.Machine

section
variable {s t u x : State} {b c : Bank} {w : Wheel}

/-! ### What the LMU shows (R173) -/

/-- The heat section of a bank that is configured. -/
def showHeat (b : Bank) (s : State) : State := if s.cfg.bank b then putBankHeat b s else s

theorem showLmu_eq (s : State) : showLmu s = putLmuSection (forBanks showHeat s) := rfl

/-- The memory alone is written. -/
structure OnlyShown (s t : State) : Prop where
  lmu : t.lmu = s.lmu
  wlc : t.wlc = s.wlc
  clock : t.clock = s.clock
  cfl : t.cfl = s.cfl

theorem showHeat_only (h : OnlyShown s t) (b : Bank) : OnlyShown s (showHeat b t) := by
  unfold showHeat
  split
  · exact ⟨by simpa using h.lmu, by simpa using h.wlc, by simpa using h.clock, by simpa using h.cfl⟩
  · exact h

theorem heatShown_only (s : State) : OnlyShown s (forBanks showHeat s) := by
  simp only [forBanks]
  exact showHeat_only (showHeat_only (showHeat_only (showHeat_only (showHeat_only (showHeat_only
    ⟨rfl, rfl, rfl, rfl⟩ _) _) _) _) _) _

theorem heatWords_length (l : Lmu) (b : Bank) (clock : Long) : (l.bankWords b clock).length = 96 := by
  simp [Lmu.bankWords, natLong, longWords]

/-- The heat section of each configured bank is shown. -/
theorem heatShown (q : s.wlc.apart) (hb : s.cfg.bank b = true) :
    (forBanks showHeat s).showsIn (s.wlc.bankBlock.get b) 0x40 (s.lmu.bankWords b s.clock) := by
  have k : OnlyShown s (forBanks showHeat s) ∧
      (forBanks showHeat s).showsIn (s.wlc.bankBlock.get b) 0x40 (s.lmu.bankWords b s.clock) := by
    refine forBanks_reaches (A := OnlyShown s) (B := fun x => OnlyShown s x ∧
      x.showsIn (s.wlc.bankBlock.get b) 0x40 (s.lmu.bankWords b s.clock)) b (fun c _ x hx => showHeat_only hx c) (fun x hx => ?_)
      (fun c hc x hx => ?_) ⟨rfl, rfl, rfl, rfl⟩
    · refine ⟨showHeat_only hx b, ?_⟩
      have hcfg : x.cfg = s.cfg := congrArg Cfl.active hx.cfl
      rw [showHeat, if_pos (by rw [hcfg]; exact hb), putBankHeat, hx.lmu, hx.wlc, hx.clock]
      exact putBlock_showsIn
    · refine ⟨showHeat_only hx.1 c, ?_⟩
      unfold showHeat
      split
      · refine putBlock_keeps_apart hx.2 ?_ (by rw [heatWords_length]) (by rw [heatWords_length])
        rw [hx.1.wlc]
        exact q.banks c b hc
      · exact hx.2
  exact k.2

theorem lmuWords_length (l : Lmu) (c : Params) (clock : Long) : (l.words c clock).length = 32 := by
  simp [Lmu.words, longWords, allWheels]

/-- What step 6 of R161 shows. -/
structure LmuShown (s t : State) : Prop where
  driveRecord : t.showsAt 0x20C0 (s.lmu.words s.cfg s.clock)
  banks : s.wlc.placed → s.wlc.apart → ∀ b, s.cfg.bank b = true →
    t.showsIn (s.wlc.bankBlock.get b) 0x40 (s.lmu.bankWords b s.clock)

theorem showLmu_shown (s : State) : LmuShown s (showLmu s) := by
  have honly := heatShown_only s
  have hheat := fun b (q : s.wlc.apart) hb => heatShown (s := s) (b := b) q hb
  rw [showLmu_eq]
  generalize forBanks showHeat s = u at honly hheat
  have hcfg : u.cfg = s.cfg := congrArg Cfl.active honly.cfl
  rw [putLmuSection, honly.lmu, hcfg, honly.clock]
  refine ⟨put_showsAt, fun p q b hb => put_keeps_showsIn (hheat b q hb) (placed_bank p b) (by rw [lmuWords_length])⟩

theorem showLmu_steady {a : State} (h : Steady false a s) : Steady false a (showLmu s) := by
  have hb : ∀ b u, Steady false u (showHeat b u) := fun b u => by
    unfold showHeat
    split
    · exact putBlock_steady (.refl false u) fun p => placed_bank p b
    · exact .refl false u
  rw [showLmu_eq]
  exact putLmuSection_steady (h.trans (forBanks_steps (P := Steady false) Steady.trans hb s))

/-- The deliveries leave what the LMU shows. -/
theorem LmuShown.settled (h : LmuShown s u) (hwlc : u.wlc = s.wlc) (p : s.wlc.placed) : LmuShown s (settle u) := by
  have hsteady := settle_steady (Steady.refl true u)
  have haside := settle_aside u
  rw [← hwlc] at p
  refine ⟨h.driveRecord.congr fun z h1 h2 => ?_, fun _ q b hb base hbase => ?_⟩
  · refine hsteady.bytes rfl p z ?_
    rw [lmuWords_length] at h2
    simp [calmByte]
    omega
  · refine (h.banks (hwlc ▸ p) q b hb base hbase).congr fun z h1 h2 => ?_
    rw [heatWords_length] at h2
    rw [← hwlc] at q hbase
    exact haside.bytes p q z (.inr ⟨b, base, hbase, by omega, by omega⟩)

/-! ### The whole sample -/

/-- The state after steps 1 to 6 and the deliveries. -/
structure ThermalDone (running : Bool) (s t : State) : Prop where
  undisturbed : Undisturbed s t
  taken : ∃ u, ThermalTaken running s u ∧ (∀ p, PartKept p u t) ∧ t.lmu.undervolt = u.lmu.undervolt ∧
    (∀ source target, t.lmu.factorOf source target = u.lmu.factorOf source target) ∧ t.rgc.law = u.rgc.law ∧
    (∀ b, ChanCut (u.rgc.chans.get b) (t.rgc.chans.get b)) ∧
    (∀ k : Cls, k.isIn u.atc.pending = true → k.isIn t.atc.pending = true)
  shown : s.wlc.placed → t.showsAt 0x20C0 (t.lmu.words s.cfg s.clock) ∧
    (s.wlc.apart → ∀ b, s.cfg.bank b = true → t.showsIn (s.wlc.bankBlock.get b) 0x40 (t.lmu.bankWords b s.clock))

theorem settle_part (p : LmuPart) (u : State) : PartKept p u (settle u) where
  same := by
    have h := settle_lmu u 0
    cases p with
    | blower => exact (congrArg Lmu.blowerView h :)
    | bank b => exact (congrArg (fun l => Lmu.bankView l b) h :)
    | wheel w => exact (congrArg (fun l => Lmu.wheelView l w) h :)
    | load => exact (congrArg Lmu.loadView h :)
  entries := by
    have hk : p.kind.loud = false := by cases p <;> rfl
    have h := congrArg (List.filter fun e => e.subject == p.subject) (settle_kind hk u)
    simpa [State.partEntries, List.filter_filter, Bool.and_comm] using h

theorem showLmu_part (p : LmuPart) (u : State) : PartKept p u (showLmu u) :=
  ⟨same_of_lmu (by simp), by simp [State.partEntries]⟩

theorem thermal_done (hok : s.lmu.ok) (hg : s.cfl.guardOn = true) (running : Bool) :
    ThermalDone running s (settle (thermalSteps running s)) := by
  have hkeeps := thermalSteps_keeps (Keeps.refl false s) running
  have hframe := thermalSteps_frame running s
  have htaken := sampled_taken hok running
  rw [thermalSteps_eq hg] at hkeeps hframe ⊢
  generalize sampled running s = u at *
  have hsteady := showLmu_steady htaken.frame.steady
  have hshown := showLmu_shown u
  have hpart := fun p => showLmu_part p u
  obtain ⟨h1, h2, h3, h4, h5, h6⟩ : (showLmu u).lmu = u.lmu ∧ (showLmu u).atc = u.atc ∧ (showLmu u).rgc = u.rgc ∧
    (showLmu u).wlc = u.wlc ∧ (showLmu u).clock = u.clock ∧ (showLmu u).cfl = u.cfl := by simp
  generalize showLmu u = v at *
  have hlmu := settle_lmu v 0
  have hst := settle_steady (Steady.refl true v)
  have hcfg : u.cfg = s.cfg := congrArg Cfl.active htaken.frame.cfl
  refine ⟨undisturbed_settle hsteady hkeeps hframe.1 hframe.2.1 hframe.2.2.1 hframe.2.2.2.1 (by simp_all) (by simp_all),
    ⟨u, htaken, fun p => (hpart p).trans (settle_part p v), ?_, fun source target => ?_, ?_, fun b => ?_, fun k hk => ?_⟩,
    fun p => ?_⟩
  · rw [← h1]
    exact (congrArg Lmu.undervolt hlmu :)
  · rw [settle_factor, h1]
  · rw [← h3]
    exact hst.rgc rfl
  · rw [← h3]
    exact (settle_aside v).chans b
  · exact hst.attention k (by rw [h2]; exact hk)
  · have k := hshown.settled h4 (by rw [htaken.frame.wlc]; exact p)
    have hw : (settle v).lmu.words s.cfg s.clock = u.lmu.words u.cfg u.clock := by
      rw [hcfg, htaken.frame.clock, ← h1]
      exact (congrArg (fun l => Lmu.words l s.cfg s.clock) hlmu :)
    have hbw : ∀ b, (settle v).lmu.bankWords b s.clock = u.lmu.bankWords b u.clock := fun b => by
      rw [htaken.frame.clock, ← h1]
      exact (congrArg (fun l => Lmu.bankWords l b s.clock) hlmu :)
    refine ⟨by rw [hw]; exact k.driveRecord, fun q b hb => ?_⟩
    rw [hbw, ← htaken.frame.wlc]
    exact k.banks (by rw [htaken.frame.wlc]; exact p) (by rw [htaken.frame.wlc]; exact q) b (by rw [hcfg]; exact hb)

end
end Sys2Proof.Machine
end

section
/-! The statement about THERMAL_SAMPLE, part by part (R161; O56). -/

namespace Sys2Proof.Machine

section
variable {s t : State} {running : Bool} {b : Bank} {w : Wheel}

theorem ThermalDone.blower (h : ThermalDone running s t) : t.lmu.ambient = 10 * s.ambientNow ∧
    BlowerJudged s.lmu.commanded running s.lmu.blowerView t.lmu.blowerView ∧
    (t.lmu.dutyUsed = if t.lmu.blowerFail then 0 else s.lmu.commanded) ∧
    (s.pru.ok → t.lmu.blowerFail ≠ s.lmu.blowerFail → t.pru.observed .blowerFail .global t.lmu.blowerFail) := by
  obtain ⟨u, hu, hpart, -⟩ := h.taken
  have hview : t.lmu.blowerView = u.lmu.blowerView := (hpart .blower).same
  have hambient : t.lmu.ambient = u.lmu.ambient := congrArg BlowerView.ambient hview
  have hduty : t.lmu.dutyUsed = u.lmu.dutyUsed := congrArg BlowerView.dutyUsed hview
  have hfail : t.lmu.blowerFail = u.lmu.blowerFail := congrArg BlowerView.fail hview
  rw [hambient, hduty, hfail, hview]
  exact ⟨hu.ambient, hu.blower, hu.duty, fun hok hne => observed_kept (hpart .blower) (hu.blowerReported hok hne)⟩

/-- A configured bank after the sample. -/
structure BankDone (b : Bank) (s t : State) : Prop where
  sampled : BankSampled s.cfg s.rgc.vF (s.rgc.chans.get b).onTotal t.lmu.dutyUsed t.lmu.ambient b (s.lmu.bankView b)
    (t.lmu.bankView b)
  cut : (t.rgc.chans.get b).onTotal ≤ (s.rgc.chans.get b).onTime
  cleared : (t.rgc.chans.get b).gate = (s.rgc.chans.get b).gate → (t.rgc.chans.get b).onTotal = 0
  reported : s.pru.ok → t.lmu.hot.get b ≠ s.lmu.hot.get b → t.pru.observed .gridHot (.bank b) (t.lmu.hot.get b)

theorem ThermalDone.bank (h : ThermalDone running s t) (hb : s.cfg.bank b = true) : BankDone b s t := by
  obtain ⟨u, hu, hpart, -, -, -, hchans, -⟩ := h.taken
  have hbank := hu.bank b
  have hduty : t.lmu.dutyUsed = u.lmu.dutyUsed := congrArg BlowerView.dutyUsed (hpart .blower).same
  have hambient : t.lmu.ambient = u.lmu.ambient := congrArg BlowerView.ambient (hpart .blower).same
  have hview : t.lmu.bankView b = u.lmu.bankView b := (hpart (.bank b)).same
  have hhot : t.lmu.hot.get b = u.lmu.hot.get b := congrArg BankView.hot hview
  have hchan := hchans b
  rw [hbank.chan hb] at hchan
  have hzero : ChanCut { s.rgc.chans.get b with onTotal := 0 } (t.rgc.chans.get b) := hchan
  refine ⟨by rw [hduty, hambient, hview]; exact hbank.sampled hb, ?_, fun hgate => ?_, fun hok hne => ?_⟩
  · rcases hzero with ⟨-, h2, -⟩ | ⟨-, -, h3⟩
    · rw [h2]
      exact Nat.zero_le _
    · exact le_of_le_of_eq h3 (Nat.zero_add _)
  · rcases hzero with ⟨-, h2, -⟩ | ⟨h1, h2, -⟩
    · exact h2
    · rw [h2] at hgate
      exact absurd (hgate.trans h1) (by decide)
  · rw [hhot] at hne ⊢
    exact observed_kept (hpart (.bank b)) (hbank.reported hok hb hne)

theorem ThermalDone.bankDropped (h : ThermalDone running s t) (hb : s.cfg.bank b = false) :
    BankDropped (s.lmu.bankView b) (t.lmu.bankView b) ∧
    (s.pru.ok → s.lmu.hot.get b = true → t.pru.observed .gridHot (.bank b) false) := by
  obtain ⟨u, hu, hpart, -⟩ := h.taken
  have hview : t.lmu.bankView b = u.lmu.bankView b := (hpart (.bank b)).same
  rw [hview]
  exact ⟨(hu.bank b).dropped hb, fun hok hhot => observed_kept (hpart (.bank b)) ((hu.bank b).withdrawn hok hb hhot)⟩

theorem ThermalDone.wheel (h : ThermalDone running s t) (w : Wheel) : WheelAfter w s t := by
  obtain ⟨u, hu, hpart, -⟩ := h.taken
  exact (hu.wheel w).followed (hpart (.wheel w))

theorem ThermalDone.load (h : ThermalDone running s t) :
    LoadSampled s.standstill s.dmc.demand s.cfg s.lmu.loadView t.lmu.loadView ∧
    (s.pru.ok → t.lmu.overload ≠ s.lmu.overload → t.pru.observed .payloadOverload .global t.lmu.overload) := by
  obtain ⟨u, hu, hpart, -⟩ := h.taken
  have hview : t.lmu.loadView = u.lmu.loadView := (hpart .load).same
  have hover : t.lmu.overload = u.lmu.overload := congrArg LoadView.overload hview
  rw [hview, hover]
  exact ⟨hu.load, fun hok hne => observed_kept (hpart .load) (hu.loadReported hok hne)⟩

theorem ThermalDone.rest (h : ThermalDone running s t) : t.lmu.undervolt = s.lmu.undervolt ∧ t.rgc.vF = s.rgc.vF ∧
    t.rgc.demand = s.rgc.demand ∧ (s.lmu.ok → ∀ source target, decide (t.lmu.factorOf source target < 1000) ≠
      decide (s.lmu.factorOf source target < 1000) → Cls.derateChange.isIn t.atc.pending = true) := by
  obtain ⟨u, hu, -, hvolt, hfactor, hlaw, -, hattention⟩ := h.taken
  have hv : t.rgc.vF = u.rgc.vF := (congrArg Rgc.vF hlaw :)
  have hd : t.rgc.demand = u.rgc.demand := (congrArg Rgc.demand hlaw :)
  refine ⟨hvolt.trans hu.frame.undervolt, hv.trans (congrArg Rgc.vF hu.frame.rgc :),
    hd.trans (congrArg Rgc.demand hu.frame.rgc :), fun hok source target hne => hattention _ ?_⟩
  rw [hfactor] at hne
  exact hu.frame.raised hok source target hne

theorem ambientNow_getD (s : State) : s.ambientNow = s.dmc.demand.ambient.getD (s.cfg.designAmbient : Int) := by
  unfold State.ambientNow
  cases s.dmc.demand.ambient <;> rfl

/-- The rows of the load ratio (R169). -/
theorem payloadEffect_rows {ratio factor : Nat} {cap : Option Nat} {overload : Bool}
    (h : (factor, cap, overload) = payloadEffect ratio) :
    (ratio ≤ 1100 → factor = 1000 ∧ cap = none ∧ overload = false) ∧
    (1100 < ratio → ratio ≤ 1200 → factor = 1000 - 3 * (ratio - 1100) ∧ cap = some 400 ∧ overload = false) ∧
    (1200 < ratio → factor = 300 ∧ cap = some 80 ∧ overload = true) := by
  unfold payloadEffect at h
  refine ⟨fun h1 => ?_, fun h1 h2 => ?_, fun h1 => ?_⟩
  · rw [if_pos h1] at h
    simpa using h
  · rw [if_neg (by omega), if_pos h2] at h
    simpa using h
  · rw [if_neg (by omega), if_neg (by omega)] at h
    simpa using h

/-- The rows of a bank's GRID_HEAT factor (R164). -/
theorem fallingFactor_rows {onset bound factor : Nat} {theta : Int}
    (h : factor = fallingFactor (10 * onset) (10 * bound) theta) :
    (theta ≤ 10 * onset → factor = 1000) ∧
    (10 * (onset : Int) < theta → theta < 10 * bound →
      factor = (10 * bound - theta).toNat * 1000 / (10 * bound - 10 * onset)) ∧
    (10 * (onset : Int) < theta → 10 * (bound : Int) ≤ theta → factor = 0) := by
  unfold fallingFactor at h
  push_cast at h
  refine ⟨fun h1 => ?_, fun h1 h2 => ?_, fun h1 h2 => ?_⟩
  · rw [h, if_pos h1]
  · rw [h, if_neg (by omega), if_neg (by omega)]
  · rw [h, if_neg (by omega), if_pos h2]

theorem exec_thermalSample {run : Level} (hrun : s.isRunning = true) :
    exec (.thermalSample run) s = .next (settle (thermalSteps (run == .high) s)) :=
  congrArg Host.Outcome.next (if_pos hrun)

end

/-- Settles O56: each step of the sample alters the one part of the LMU that it takes up, and the deliveries after
it leave every part. -/
theorem thermalSampled : Obligations.ThermalSampled := by
  unfold Obligations.ThermalSampled
  intro s run hrun
  refine ⟨fun hg hd => ?_, fun hg hok hpru => ?_⟩
  · have hidle : thermalSteps (run == .high) s = s := if_neg (by rw [hg]; decide)
    rw [exec_thermalSample hrun, hidle, settle_of_delivered hd]
  · have h := thermal_done hok hg (run == .high)
    refine ⟨_, exec_thermalSample hrun, ?_⟩
    generalize settle (thermalSteps (run == .high) s) = t at h
    obtain ⟨hambient, hblower, hduty, hblowerReported⟩ := h.blower
    obtain ⟨hload, hloadReported⟩ := h.load
    obtain ⟨hvolt, hv, hdemand, hraised⟩ := h.rest
    have hlow : run = .low → (run == .high) = false := fun e => by rw [e]; rfl
    have hhigh : run = .high → (run == .high) = true := fun e => by rw [e]; rfl
    refine ⟨h.undisturbed, by rw [hambient, ambientNow_getD], fun h1 h2 h3 => hblower.stopped h1 h2 (hlow h3),
      fun h1 h2 => hblower.idle h1 (h2.imp id hhigh), fun h1 h2 => hblower.runs h1 (hhigh h2),
      fun h1 h2 => hblower.fails h1 (hlow h2), hblowerReported hpru, hduty, fun b onUs put off hb honUs hput hoff => ?_,
      fun b hb => ?_, fun w temp hw hheld htemp => ?_, fun w hw hheld => ?_, fun w hw => ?_, fun hstill => ?_,
      fun hstill => ?_, fun ratio hratio => ?_, hloadReported hpru, hraised hok, h.shown, hvolt, hv, hdemand⟩
    · have hbank := h.bank hb
      obtain ⟨k1, k2, k3, k4, k5, k6, k7⟩ := hbank.sampled
      obtain ⟨f1, f2, f3⟩ := fallingFactor_rows k6
      have hin : ((t.lmu.bankView b).eIn : Int) = put := by rw [k1, hput, honUs]
      have hout : (t.lmu.bankView b).eOut = off := by rw [k2, hoff]; rfl
      rw [hin, hout] at k4
      exact ⟨k4, k5, k3.trans honUs.symm, hin, hout, hbank.cut, hbank.cleared, f1, f2, f3, k7.rises, k7.cools, k7.stays,
        hbank.reported hpru⟩
    · obtain ⟨⟨k1, k2, k3, k4, k5⟩, k6⟩ := h.bankDropped hb
      exact ⟨k1, k2, k3, k4, k5, k6 hpru⟩
    · have heval := (evaluated_iff s w).2 ⟨hw, hheld⟩
      obtain ⟨k1, k2, k3⟩ := (h.wheel w).sampled heval
      have hreported := (h.wheel w).reported hpru heval
      have htemp : s.reportedTemp w = temp := htemp.symm
      rw [htemp] at k1 k3
      exact ⟨k1, k2, k3.cold, k3.warm, fun hne => ⟨hreported hne, k3.turned hne⟩⟩
    · have hview := (h.wheel w).idle hw hheld
      exact ⟨congrArg WheelView.winding hview, congrArg WheelView.request hview, congrArg WheelView.hot hview,
        congrArg WheelView.count hview, congrArg WheelView.clear hview⟩
    · have hview := (h.wheel w).dropped hw
      exact ⟨congrArg WheelView.winding hview, congrArg WheelView.request hview, congrArg WheelView.hot hview,
        congrArg WheelView.count hview, congrArg WheelView.clear hview, (h.wheel w).withdrawn hpru hw⟩
    · obtain ⟨k1, k2, -⟩ := hload
      rw [if_neg (by rw [hstill]; decide)] at k1
      rw [if_neg (by rw [hstill]; simp)] at k2
      exact ⟨k1, k2⟩
    · obtain ⟨k1, k2, -⟩ := hload
      rw [if_pos hstill] at k1
      simp only [hstill, true_and] at k2
      exact ⟨k1, k2⟩
    · exact payloadEffect_rows (hload.effects.trans (congrArg payloadEffect hratio.symm))

end Sys2Proof.Machine
end
